-- ==== Sys2Proof/Word.lean ====
section
/-!
DEFINITION. The word types of the model and the sparse maps that hold its memories and tables.
-/
namespace Sys2Proof

/-- One byte. -/
abbrev Byte := BitVec 8

/-- An 8 B word, the unit of check bits and of poison (06 R234, 16 R578). -/
abbrev Word64 := BitVec 64

/-- A byte in transit with the poison of the word it came from (00 R26, 10 R373 pmask). -/
abbrev PByte := BitVec 8 × Bool

/-- A sparse table: pairs of a key and a value, keys strictly rising. -/
abbrev SMap (α : Type) := List (Nat × α)

end Sys2Proof
end

