-- ==== Sys2Proof/Syntax.lean ====
section
/-!
DEFINITION. The commands of the LD-744: one constructor per row of the opcode table. A core instruction carries its
site and its 128-bit word; an event carries what the outside, a device or a timer brings in.
-/
namespace Sys2Proof

/-- A package site index: tower * 576 + row * 24 + column (01 R29). -/
abbrev Site := Fin 2304

/-- A tower, T0 to T3. -/
abbrev Tower := Fin 4

/-- A local fabric port of a tower (10 R359). -/
abbrev Port := Fin 32

/-- A die link (11 R404). -/
abbrev Link := Fin 8

/-- A submission or event ring (12 R433, R468). -/
abbrev Ring64 := Fin 64

/-- A packet of the fabric (10 R373). Its pmask stands byte by byte in the payload. -/
structure Packet where
  cls : Nat
  op : Nat
  hopsLeft : Bool
  resync : Bool
  narrow : Bool
  srcEngine : Nat
  length : Nat
  status : Nat
  aop : Nat
  tag : Nat
  dst : Nat
  src : Nat
  age : Nat
  seq : Nat
  aux : Nat
  payload : List PByte
  deriving DecidableEq, Repr

/-- The class of a vault request (06 R223). -/
inductive ReqClass where
  | coreRead | coreWrite | remote | scrub
  deriving DecidableEq, Repr

/-- How a watch notice reaches a core: from a vault of the package, or in a NOTICE packet by a port of a tower (02 R82, 10
R394). -/
inductive NoticeIn where
  | fromVault (v : Site)
  | packet (t : Tower) (p : Port) (k : Packet)
  deriving DecidableEq, Repr

/-- A core cycle of a matrix array as its environment shapes it: the feeder rows and the shadow rows whose scratchpad
banks other engines hold, and whether they hold the banks of the scale read and of the drain's write (03 R117). -/
structure ArrayCycle where
  feed : BitVec 32
  shadow : BitVec 32
  scale : Bool
  drain : Bool
  deriving DecidableEq, Repr

/-- An array and its cycles. -/
structure ArrayRun where
  site : Site
  cycles : List ArrayCycle
  deriving DecidableEq, Repr

/-- A DATA packet, and the places of its words that are stored with failed parity (09 R339, 10 R374). -/
structure DataPacket where
  pkt : Packet
  bad : List Nat
  deriving DecidableEq, Repr

/-- An end of a die link: the one whose state this package reports, or the far one. -/
structure LinkEnd where
  link : Link
  far : Bool
  deriving DecidableEq, Repr

/-- What a fabric port learns at training (10 R378, R380, R403): the peer's node, its port, the delay, the split of its
receive buffer in the layout of SKY_CREDIT, and the sequence its receiver expects. -/
structure TrainedPeer where
  node : BitVec 20
  port : BitVec 7
  delay : BitVec 16
  split : BitVec 64
  expect : BitVec 12
  deriving DecidableEq, Repr

/-- The capability record of a die-link peer (11 R413). -/
structure CapRecord where
  version : Nat
  strap : Nat
  maxPayload : Nat
  tags : Nat
  keepAlive : Bool
  tickSync : Bool
  poisonWord : Bool
  transit : Bool
  deriving DecidableEq, Repr

/-- What training finds of a die link's modules (11 R411): the modules that reach 64 GT/s with the repair they need, the
redundant lane groups that each module's repair needs, a bit for each, the lanes repaired, the modules whose sideband
trains, and the sequence the peer's receiver expects (R417). -/
structure TrainResult where
  works : List Nat
  needs : List Nat
  lanes : Nat
  sideband : List Nat
  expect : BitVec 12
  deriving DecidableEq, Repr

/-- What a read of host memory brings: nothing when it fails on the link, else its bytes with their poison
(12 R441, R460). -/
abbrev HostRead := Option (List PByte)

/-- A SerDes PLL: of a die link or of a fabric port (14 R527). -/
inductive SerDes where
  | link (l : Link)
  | port (t : Tower) (p : Port)
  deriving DecidableEq, Repr

/-- What the firmware's activity model predicts at a power sample (13 R479, R498, R506), in watts: the power of rails
without telemetry, and the rise of package power that one sixteenth more of duty would cause. -/
structure PowerModel where
  railEstimate : List (Nat × Nat)
  rise : Nat
  deriving DecidableEq, Repr

/-- What the management cores do in the crash handler within 1 ms of entry (16 R585): the section each wrote, and whether
core 0 wrote the header. -/
structure CrashWork where
  sections : List (Option (List Byte))
  header : Bool
  deriving DecidableEq, Repr

/-- The watchdog of a management core, and the work of the crash handler that its expiry enters (16 R583 to R585). -/
structure WatchdogExpiry where
  core : Fin 4
  work : CrashWork
  deriving DecidableEq, Repr

/-- A command. -/
inductive Instr where
  /-- NOP: SYN NOP does nothing in the sequencer, and it may close a repeat body (R93) -/
  | nop (i : Site) (w : BitVec 128)
  /-- END: END drains every engine, sets the core IDLE and posts stream completion to its channel (R88) -/
  | endStream (i : Site) (w : BitVec 128)
  /-- FENCE: FENCE holds the sequencer until earlier instructions on the masked engines have completed and taken effect (R80) -/
  | fence (i : Site) (w : BitVec 128)
  /-- SIGNAL: SIGNAL waits for its release mask, then sets or atomically adds to a flag (R81) -/
  | signal (i : Site) (w : BitVec 128)
  /-- WAIT: WAIT arms a watch on a flag and holds the sequencer until the condition holds or the deadline passes (R82) -/
  | wait (i : Site) (w : BitVec 128)
  /-- REPEAT: REPEAT runs the following body an immediate number of times (R76) -/
  | repeatImm (i : Site) (w : BitVec 128)
  /-- REPEAT_IND: REPEAT.IND runs the body a number of times read from a scratchpad word at issue (R76) -/
  | repeatInd (i : Site) (w : BitVec 128)
  /-- AGSET_BASE: AGSET.BASE sets an address generator's base and space (R93) -/
  | agsetBase (i : Site) (w : BitVec 128)
  /-- AGSET_STRIDE: AGSET.STRIDE sets an address generator's stride at one repeat depth (R93) -/
  | agsetStride (i : Site) (w : BitVec 128)
  /-- AGADD: AGADD adds a signed value to an address generator's base (R93) -/
  | agadd (i : Site) (w : BitVec 128)
  /-- TICK: TICK writes the 64-bit time tick to a scratchpad address (R93) -/
  | tick (i : Site) (w : BitVec 128)
  /-- NOTIFY: NOTIFY posts an event carrying a 32-bit value to the channel's event ring (R93) -/
  | notify (i : Site) (w : BitVec 128)
  /-- RESERVED_OPCODE: An instruction with a reserved opcode or engine field completes with BAD_OPCODE and has no side effect (R19) -/
  | reservedOpcode (i : Site) (w : BitVec 128)
  /-- MOV_LOAD: MOV LOAD copies memory to the scratchpad (R97) -/
  | movLoad (i : Site) (w : BitVec 128)
  /-- MOV_STORE: MOV STORE copies the scratchpad to memory (R97) -/
  | movStore (i : Site) (w : BitVec 128)
  /-- MOV_COPY: MOV COPY copies memory to memory (R97) -/
  | movCopy (i : Site) (w : BitVec 128)
  /-- LOAD_N: LOAD.N loads a length taken from a scratchpad count word (R101) -/
  | loadN (i : Site) (w : BitVec 128)
  /-- STORE_N: STORE.N stores a length taken from a scratchpad count word (R101) -/
  | storeN (i : Site) (w : BitVec 128)
  /-- MOV_GATHER: MOV GATHER reads indexed memory rows into contiguous scratchpad (R98) -/
  | movGather (i : Site) (w : BitVec 128)
  /-- SCATTER: MOV SCATTER writes contiguous scratchpad rows to indexed memory rows (R98) -/
  | scatter (i : Site) (w : BitVec 128)
  /-- MOV_FILL: MOV FILL writes a repeating 32-bit pattern over a scratchpad range (R632) -/
  | movFill (i : Site) (w : BitVec 128)
  /-- MOV_ATOMIC: MOV ATOMIC performs a remote atomic on one word and writes the old value to the scratchpad (R99) -/
  | movAtomic (i : Site) (w : BitVec 128)
  /-- MMA: MMA multiplies a stationary tile by streamed vectors into an accumulator, and optionally flushes it (R125) -/
  | mma (i : Site) (w : BitVec 128)
  /-- MMA_FIRST_STEP: A queued MMA makes its first step once its shadow, feeder and scale bytes are ready (R118). By cycle:
  the feeder rows and the shadow rows whose banks are held, and whether those of the scale read and of the drain are. -/
  | mmaFirstStep (i : Site) (feed shadow : List (BitVec 32)) (scale drain : List Bool)
  /-- FILLER_WINDOW_END: The gap counter reaches the filler window, and the array stops starting filler operations and goes quiet (R120) -/
  | fillerWindowEnd (r : ArrayRun)
  /-- FILLER_LEAD_END: The lead filler cycles before a start on a quiet array end, and the MMA makes its first step (R121) -/
  | fillerLeadEnd (r : ArrayRun)
  /-- TLD: TLD loads and converts a tile from the scratchpad (R195) -/
  | tld (i : Site) (w : BitVec 128)
  /-- TST: TST converts and stores a tile to the scratchpad (R197) -/
  | tst (i : Site) (w : BitVec 128)
  /-- KLD: KLD loads a mask register from 128 B of scratchpad (R199) -/
  | kld (i : Site) (w : BitVec 128)
  /-- KST: KST stores a mask register to 128 B of scratchpad (R199) -/
  | kst (i : Site) (w : BitVec 128)
  /-- TLE_MOV: Tile MOV copies raw bits into the destination tile (R184) -/
  | tleMov (i : Site) (w : BitVec 128)
  /-- ADD: Tile ADD adds lanes (R182) -/
  | add (i : Site) (w : BitVec 128)
  /-- SUB: Tile SUB subtracts lanes (R182) -/
  | sub (i : Site) (w : BitVec 128)
  /-- MUL: Tile MUL multiplies lanes (R182) -/
  | mul (i : Site) (w : BitVec 128)
  /-- FMA: Tile FMA forms a fused multiply-add per lane (R182) -/
  | fma (i : Site) (w : BitVec 128)
  /-- DIV: Tile DIV divides lanes (R182) -/
  | div (i : Site) (w : BitVec 128)
  /-- MIN: Tile MIN takes the lane minimum (R182) -/
  | minT (i : Site) (w : BitVec 128)
  /-- MAX: Tile MAX takes the lane maximum (R182) -/
  | maxT (i : Site) (w : BitVec 128)
  /-- ABS: Tile ABS takes the absolute value of each lane (R182) -/
  | absT (i : Site) (w : BitVec 128)
  /-- NEG: Tile NEG negates each lane (R182) -/
  | neg (i : Site) (w : BitVec 128)
  /-- AND: Tile AND is a bitwise AND of lanes (R184) -/
  | andT (i : Site) (w : BitVec 128)
  /-- OR: Tile OR is a bitwise OR of lanes (R184) -/
  | orT (i : Site) (w : BitVec 128)
  /-- XOR: Tile XOR is a bitwise XOR of lanes (R184) -/
  | xor (i : Site) (w : BitVec 128)
  /-- SHL: SHL shifts lanes left (R184) -/
  | shl (i : Site) (w : BitVec 128)
  /-- SHRL: SHRL shifts lanes right logically (R184) -/
  | shrl (i : Site) (w : BitVec 128)
  /-- SHRA: SHRA shifts lanes right arithmetically (R184) -/
  | shra (i : Site) (w : BitVec 128)
  /-- SEL: SEL writes every lane from ta or b according to the mask bit (R181) -/
  | sel (i : Site) (w : BitVec 128)
  /-- CVT: CVT converts lanes between binary32 and INT32 (R185) -/
  | cvt (i : Site) (w : BitVec 128)
  /-- RND: RND rounds binary32 lanes to the value set of a narrower format (R185) -/
  | rnd (i : Site) (w : BitVec 128)
  /-- EXP2: EXP2 computes 2^x per lane (R191) -/
  | exp2 (i : Site) (w : BitVec 128)
  /-- EXP: EXP computes e^x per lane (R191) -/
  | expT (i : Site) (w : BitVec 128)
  /-- LOG2: LOG2 computes log2 x per lane (R191) -/
  | log2 (i : Site) (w : BitVec 128)
  /-- LN: LN computes ln x per lane (R191) -/
  | ln (i : Site) (w : BitVec 128)
  /-- RCP: RCP computes 1/x per lane, correctly rounded (R191) -/
  | rcp (i : Site) (w : BitVec 128)
  /-- SQRT: SQRT computes the square root per lane, correctly rounded (R191) -/
  | sqrt (i : Site) (w : BitVec 128)
  /-- RSQRT: RSQRT computes 1/sqrt(x) per lane (R191) -/
  | rsqrt (i : Site) (w : BitVec 128)
  /-- SIGMOID: SIGMOID computes 1/(1+e^-x) per lane (R191) -/
  | sigmoid (i : Site) (w : BitVec 128)
  /-- TANH: TANH computes tanh x per lane (R191) -/
  | tanh (i : Site) (w : BitVec 128)
  /-- SILU: SILU computes x/(1+e^-x) per lane (R191) -/
  | silu (i : Site) (w : BitVec 128)
  /-- RSUM: RSUM sums the active lanes of each row in a fixed binary tree (R187) -/
  | rsum (i : Site) (w : BitVec 128)
  /-- RMAX: RMAX takes the maximum of the active lanes of each row (R186) -/
  | rmax (i : Site) (w : BitVec 128)
  /-- RMIN: RMIN takes the minimum of the active lanes of each row (R186) -/
  | rmin (i : Site) (w : BitVec 128)
  /-- CSUM: CSUM sums the active rows of each lane (R187) -/
  | csum (i : Site) (w : BitVec 128)
  /-- CMAX: CMAX takes the maximum of the active rows of each lane (R186) -/
  | cmax (i : Site) (w : BitVec 128)
  /-- CMIN: CMIN takes the minimum of the active rows of each lane (R186) -/
  | cmin (i : Site) (w : BitVec 128)
  /-- TRN: TRN transposes a tile as raw bits (R189) -/
  | trn (i : Site) (w : BitVec 128)
  /-- CMP: CMP compares lanes and writes the result into a mask register (R192) -/
  | cmp (i : Site) (w : BitVec 128)
  /-- TOPK: TOPK marks the k greatest active lanes of each row in a mask (R193) -/
  | topk (i : Site) (w : BitVec 128)
  /-- KLOGIC: KLOGIC combines two mask registers bit by bit (R194) -/
  | klogic (i : Site) (w : BitVec 128)
  /-- FLAGS: FLAGS copies one kind of lane flag into a mask, optionally clearing the flags (R194) -/
  | flags (i : Site) (w : BitVec 128)
  /-- CMPR: CMPR compresses the active elements of each row to its low lanes (R200) -/
  | cmpr (i : Site) (w : BitVec 128)
  /-- EXPR: EXPR expands each row's leading lanes into its active lanes (R201) -/
  | expr (i : Site) (w : BitVec 128)
  /-- CMPS: CMPS compresses a tile's active lanes into a counted scratchpad list (R202) -/
  | cmps (i : Site) (w : BitVec 128)
  /-- EXPS: EXPS expands a counted scratchpad list into a tile's active lanes (R205) -/
  | exps (i : Site) (w : BitVec 128)
  /-- TMM: TMM computes a binary32 tile matrix product with accumulation (R190) -/
  | tmm (i : Site) (w : BitVec 128)
  /-- BKD_FILL: BKD FILL queues a bank-unit fill of whole rows with a pattern (R255) -/
  | bkdFill (i : Site) (w : BitVec 128)
  /-- BKD_COPY: BKD COPY queues a bank-unit copy of whole rows within one bank (R256) -/
  | bkdCopy (i : Site) (w : BitVec 128)
  /-- BKD_GATHER: BKD GATHER queues a bank-unit gather of listed pieces into one row (R257) -/
  | bkdGather (i : Site) (w : BitVec 128)
  /-- QLD: QLD broadcasts bfloat16 elements into a latch of a set of bank units (R258) -/
  | qld (i : Site) (w : BitVec 128)
  /-- BKD_SCORE: BKD SCORE computes dot products of a latch against stored records (R261) -/
  | bkdScore (i : Site) (w : BitVec 128)
  /-- BKD_ACC: BKD ACC computes weighted sums of stored records (R262) -/
  | bkdAcc (i : Site) (w : BitVec 128)
  /-- BANK_UNIT_GRANT: The vault controller grants the oldest eligible queued bank-unit command (R266) -/
  | bankUnitGrant (i : Site)
  /-- BANK_UNIT_COMMAND_END: A granted bank-unit command ends its last step and its results take effect (R269) -/
  | bankUnitCommandEnd (i : Site) (k : Nat)
  /-- BANK_UNIT_RESULT_DRAIN: Buffered SCORE or ACC results drain to the scratchpad over the full path (R265) -/
  | bankUnitResultDrain (i : Site)
  /-- BANK_UNIT_WINDOW_START: A new 1,000-tick power window reloads each vault's bank-unit budget (R267) -/
  | bankUnitWindowStart
  /-- FETCH: KVX FETCH reads record elements from frames into MXA streamed operands (R298) -/
  | fetch (i : Site) (w : BitVec 128)
  /-- KVX_SCORE: KVX SCORE scores local records in the bank units for a group of heads (R301) -/
  | kvxScore (i : Site) (w : BitVec 128)
  /-- KVX_ACC: KVX ACC forms weighted sums of local records in the bank units (R302) -/
  | kvxAcc (i : Site) (w : BitVec 128)
  /-- SMAX: SMAX performs an online-softmax step over a score block (R306) -/
  | smax (i : Site) (w : BitVec 128)
  /-- MERGE: MERGE rescales an accumulator by alpha and adds a block's sums (R307) -/
  | merge (i : Site) (w : BitVec 128)
  /-- COMB: COMB combines two partial softmax results (R308) -/
  | comb (i : Site) (w : BitVec 128)
  /-- FIN: FIN normalises the accumulator by the running sum (R309) -/
  | fin (i : Site) (w : BitVec 128)
  /-- APPEND: APPEND writes records to a layer-stream and backs page-layers on demand (R312) -/
  | append (i : Site) (w : BitVec 128)
  /-- LINK: KVX LINK maps a shared prefix page through the prefix directory (R319) -/
  | link (i : Site) (w : BitVec 128)
  /-- PUBLISH: KVX PUBLISH offers a full page to the prefix directory for sharing (R320) -/
  | publish (i : Site) (w : BitVec 128)
  /-- PREFIX_LINK_REQUEST: The prefix directory serves a LINK request by key lookup and reference count (R319) -/
  | prefixLinkRequest
  /-- PREFIX_PUBLISH_REQUEST: The prefix directory serves a publish request, creating or matching an entry (R320) -/
  | prefixPublishRequest
  /-- PREFIX_RELEASE: The prefix directory subtracts a reference and moves an entry to RECLAIM at zero (R321) -/
  | prefixRelease
  /-- PFX_RECLAIM_RELEASE: A write of PFX_RECLAIM.release frees the named RECLAIM entry (R325) -/
  | pfxReclaimRelease (v : BitVec 32)
  /-- PUSH: SQ PUSH sends a scratchpad range as one bundle to a queue in the package (R345) -/
  | push (i : Site) (w : BitVec 128)
  /-- POP: SQ POP takes the head bundle into the scratchpad or own vault (R347) -/
  | pop (i : Site) (w : BitVec 128)
  /-- POPA: SQ POPA appends the head token bundle to a gather area (R354) -/
  | popa (i : Site) (w : BitVec 128)
  /-- TSEND: FMV TSEND builds and sends one token bundle from an index list (R352) -/
  | tsend (i : Site) (w : BitVec 128)
  /-- REPLY: FMV REPLY writes result rows to their reply slots, then adds to the reply flags (R356) -/
  | reply (i : Site) (w : BitVec 128)
  /-- PUT: FMV PUT copies local data to any memory address (R398) -/
  | put (i : Site) (w : BitVec 128)
  /-- GET: FMV GET copies from any memory address to local data (R398) -/
  | get (i : Site) (w : BitVec 128)
  /-- PUTF: FMV PUTF performs a PUT, then adds to a flag once every write has succeeded (R399) -/
  | putf (i : Site) (w : BitVec 128)
  /-- ICACHE_LINE_FILL: A fetched 128 B stream line arrives in the instruction cache (R61) -/
  | icacheLineFill (i : Site) (ahead : Fin 16) (parityFail : Bool) (victim : Nat)
  /-- BREAKPOINT_STOP: The sequencer stops before an instruction that matches a breakpoint and enters BREAK (R90) -/
  | breakpointStop (i : Site)
  /-- STREAM_OVERRUN: CORE_PC reaches the end of the stream without END, and the core stops and faults its channel (R64) -/
  | streamOverrun (i : Site)
  /-- CHANNEL_FAULT_STOP: Another core of a faulted channel stops at its next issue boundary with CHANNEL_FAULTED (R91) -/
  | channelFaultStop (i : Site)
  /-- WAIT_TIMEOUT: A WAIT reaches its deadline, withdraws its watch, records the fault and faults the channel (R84) -/
  | waitTimeout (i : Site)
  /-- WAIT_REARM: A refused watch arm is retried every 2 µs until it succeeds or the deadline passes (R85) -/
  | waitRearm (i : Site)
  /-- NOTICE: A watch notice with the flag's new value reaches the core, which re-evaluates its WAIT (R82) -/
  | notice (i : Site) (n : NoticeIn)
  /-- POP_TIMEOUT: A POP or POPA reaches its deadline and the core stops with WAIT_TIMEOUT (R347) -/
  | popTimeout (i : Site)
  /-- CORE_CTRL_START: A write of CORE_CTRL.start starts an IDLE core's stream after checking base and length (R60) -/
  | coreCtrlStart (i : Site)
  /-- CORE_CTRL_STOP: A write of CORE_CTRL.stop stops a RUNNING stream at the next issue boundary in BREAK (R103) -/
  | coreCtrlStop (i : Site)
  /-- CORE_CTRL_RESUME: A write of CORE_CTRL.resume issues the held instruction of a core in BREAK and continues (R90) -/
  | coreCtrlResume (i : Site)
  /-- VAULT_READ: The vault controller serves a read, decoding every word under SEC-DED (R237) -/
  | vaultRead (i : Site) (off : BitVec 29) (len : Nat) (cls : ReqClass) (narrow : Bool)
  /-- VAULT_WRITE: The vault controller accepts a write into its write buffer, where it takes effect (R217) -/
  | vaultWrite (i : Site) (off : BitVec 29) (data : List PByte) (cls : ReqClass) (narrow : Bool)
  /-- PARTIAL_WORD_MERGE: A partial-word write completes after its read-modify-write merge (R218) -/
  | partialWordMerge (i : Site) (k : Nat)
  /-- VAULT_ATOMIC: The controller's arithmetic unit performs a remote atomic or SIGNAL ADD on a word (R219) -/
  | vaultAtomic (i : Site) (off : BitVec 29) (aop : Nat) (wide : Bool) (operand compare : List PByte)
  /-- WATCH_INSTALL: The vault controller installs a watch and reads the flag in one arbitration slot (R82) -/
  | watchInstall (i : Site) (off : BitVec 29) (who : Site)
  /-- WRITE_BUFFER_DRAIN: A write-buffer entry drains into its bank (R217) -/
  | writeBufferDrain (i : Site) (k : Nat)
  /-- ROW_IDLE_PRECHARGE: A bank with no request for 32 vault cycles is precharged (R221) -/
  | rowIdlePrecharge (i : Site) (bank : Fin 128)
  /-- REFRESH: A row refresh falls due and is issued, or becomes owed debt behind a bank-unit command (R227) -/
  | refresh (i : Site) (bank : Fin 128)
  /-- REFRESH_RATE_UPDATE: Every 100 µs the controller recomputes each layer's tREFW and timing set (R228) -/
  | refreshRateUpdate (i : Site)
  /-- ZONE_TEMP_STALE: A zone temperature not updated for 1 ms forces 1 ms refresh and the hot timing set (R229) -/
  | zoneTempStale (i : Site) (layer : Fin 8)
  /-- BAND_MODE_END: The 10 ms band-mode period after a compute-only reset or Storm ends (R230) -/
  | bandModeEnd (i : Site)
  /-- KEEPER_REFRESH: The tower refresh keeper refreshes a row of a vault whose scheduler is not running (R232) -/
  | keeperRefresh (i : Site) (bank : Fin 128)
  /-- VLT_INIT: A write of VLT_CTRL.init starts an initialisation fill of the vault (R242) -/
  | vltInit (i : Site)
  /-- FILL_TOKEN_GRANT: A freed fill token goes to the waiting vault with the lowest index, which starts its fill (R268) -/
  | fillTokenGrant (t : Tower)
  /-- INIT_FILL_DONE: The initialisation fill completes and the vault becomes IN_SERVICE (R242) -/
  | initFillDone (i : Site)
  /-- SCRUB_START: A write of VLT_CTRL.scrub_start starts a scrub of the configured range, or refuses it (R244) -/
  | scrubStart (i : Site)
  /-- SCRUB_ABORT: A write of VLT_CTRL.scrub_abort stops the scrub after its current granule (R245) -/
  | scrubAbort (i : Site)
  /-- SCRUB_GRANULE: The scrubber reads one granule and corrects or poisons it (R244) -/
  | scrubGranule (i : Site)
  /-- VLT_HOLD: A write of VLT_CTRL.hold stops or releases new requests at the vault port (R213) -/
  | vltHold (i : Site) (b : Bool)
  /-- VAULT_HELD: Every accepted request has taken effect and the write buffer is empty, so held is set (R213) -/
  | vaultHeld (i : Site)
  /-- VLT_MAP_WRITE: A write to VLT_MAP while held changes the frame boundary (R212) -/
  | vltMapWrite (i : Site) (v : BitVec 32)
  /-- VLT_RETIRE: A write of VLT_RETIRE retires one physical row, or the whole vault at a 65th row (R246) -/
  | vltRetire (i : Site) (v : BitVec 32)
  /-- RETIRE_VAULT: A write of VLT_CTRL.retire_vault retires the whole vault (R248) -/
  | retireVault (i : Site)
  /-- RAW_ACCESS: A write of VLT_RAW_CTRL.go starts a raw 72-bit read or write (R243) -/
  | rawAccess (i : Site) (v : BitVec 32)
  /-- RAW_ACCESS_DONE: A raw access completes in the scrub class and sets done (R243) -/
  | rawAccessDone (i : Site)
  /-- ADMISSION_REQUEST: A stage queue records or refuses a bundle admission request (R332) -/
  | admissionRequest (i : Site) (fmv : Bool)
  /-- ADMISSION_RETRY: A refused admission request is repeated after 1 µs (R332) -/
  | admissionRetry (i : Site) (fmv : Bool)
  /-- BUNDLE_ADMIT: The queue admits the oldest recorded request once space and a descriptor allow (R334) -/
  | bundleAdmit (i : Site)
  /-- BUNDLE_WORD: A bundle data word arrives into its place in the queue (R336) -/
  | bundleWord (i : Site) (fmv parityOk : Bool)
  /-- BUNDLE_AVAILABLE: The head bundle becomes available at the cut-through threshold or on full arrival (R337) -/
  | bundleAvailable (i : Site)
  /-- SQ_STALL: The oldest request has waited longer than SQ_STALL.us, so one stall event is posted (R338) -/
  | sqStall (i : Site)
  /-- BUNDLE_LOST: A bundle's remaining words are declared undeliverable, poisoned and completed in place (R340) -/
  | bundleLost (i : Site) (src engine seq : Nat)
  /-- SQ_OPEN_WRITE: A write of SQ_CTRL.open opens the queue, or closes and empties it (R358) -/
  | sqOpenWrite (i : Site) (b : Bool)
  /-- BUNDLE_WORD_TIMEOUT: An admitted bundle that receives no word for 2 × lifetime_us is completed as lost (R388) -/
  | bundleWordTimeout (i : Site) (k : Nat)
  /-- BUNDLE_MEMORY_EXPIRE: A remembered whole-bundle entry expires after 2 × lifetime_us (R390) -/
  | bundleMemoryExpire (i : Site)
  /-- BUNDLE_SEQ_FREE: A bundle sequence value becomes reusable a lifetime after its last bundle resolved (R389) -/
  | bundleSeqFree (i : Site) (fmv : Bool)
  /-- READ: A READ request packet is served at the target vault (R392) -/
  | read (t : Tower) (p : Port) (k : Packet)
  /-- WRITE: A WRITE request packet is served at the target vault and acknowledged (R392) -/
  | write (t : Tower) (p : Port) (k : Packet)
  /-- ATOMIC: An ATOMIC request packet runs in the target controller's arithmetic unit (R393) -/
  | atomic (t : Tower) (p : Port) (k : Packet)
  /-- WATCH_ARM: A WATCH_ARM packet arms a watch or is refused with NO_RESOURCE (R394) -/
  | watchArm (t : Tower) (p : Port) (k : Packet)
  /-- WATCH_CANCEL: A WATCH_CANCEL packet withdraws a watch (R394) -/
  | watchCancel (t : Tower) (p : Port) (k : Packet)
  /-- READ_DATA: A READ_DATA response returns read bytes to the requester (R374) -/
  | readData (t : Tower) (p : Port) (k : Packet)
  /-- WRITE_ACK: A WRITE_ACK response completes a remote write (R374) -/
  | writeAck (t : Tower) (p : Port) (k : Packet)
  /-- ATOMIC_OLD: An ATOMIC_OLD response returns an atomic's old value (R374) -/
  | atomicOld (t : Tower) (p : Port) (k : Packet)
  /-- WATCH_ACK: A WATCH_ACK response returns the flag value read at arming (R394) -/
  | watchAck (t : Tower) (p : Port) (k : Packet)
  /-- REFUSE: A REFUSE response is handled at the source by hold, drain and resend (R384) -/
  | refuse (t : Tower) (p : Port) (k : Packet)
  /-- ADMITTED: An ADMITTED response lets the sender send the bundle's data (R374) -/
  | admitted (t : Tower) (p : Port) (k : Packet)
  /-- ACCEPTED: An ACCEPTED response completes a bundle transfer or abandon (R387) -/
  | accepted (t : Tower) (p : Port) (k : Packet)
  /-- ADMIT: A TOK ADMIT packet requests admission of a remote bundle (R388) -/
  | admitPkt (t : Tower) (p : Port) (k : Packet)
  /-- DATA: A TOK DATA packet delivers bundle words (R374); those of some places are stored with failed parity (R339) -/
  | dataTok (t : Tower) (p : Port) (k : DataPacket)
  /-- ABANDON: An ABANDON packet makes the queue complete, take in or confirm the named bundle (R388) -/
  | abandon (t : Tower) (p : Port) (k : Packet)
  /-- PING: A PING management packet is answered with PONG (R374) -/
  | ping (t : Tower) (p : Port) (k : Packet)
  /-- PONG: A PONG management packet returns a PING payload (R374) -/
  | pong (t : Tower) (p : Port) (k : Packet)
  /-- STATE: A STATE management packet carries node state and reset count (R374) -/
  | stateMgt (t : Tower) (p : Port) (k : Packet)
  /-- REG_READ: A REG_READ packet reads a BAR0 register when mgt_reg allows (R375) -/
  | regRead (t : Tower) (p : Port) (k : Packet)
  /-- REG_WRITE: A REG_WRITE packet writes a BAR0 register when mgt_reg allows (R375) -/
  | regWrite (t : Tower) (p : Port) (k : Packet)
  /-- REG_DATA: A REG_DATA packet returns a register value and status (R374) -/
  | regData (t : Tower) (p : Port) (k : Packet)
  /-- FABRIC_RESERVED_PACKET: A packet with a reserved opcode is discarded and counted (R374) -/
  | fabricReservedPacket (t : Tower) (p : Port) (k : Packet)
  /-- PACKET_FORWARD: A transit node forwards, refuses or discards a packet not addressed to it (R369) -/
  | packetForward (t : Tower) (p : Port) (k : Packet)
  /-- PACKET_LOST_TIMEOUT: A REQ or TOK packet without answer after 2 × lifetime_us is declared lost (R387) -/
  | packetLostTimeout (k : Nat)
  /-- REROUTE_TIMEOUT: An ordered packet waiting for a port times out with FABRIC_UNREACHABLE (R372) -/
  | rerouteTimeout (k : Nat)
  /-- REFUSAL_RESEND: Every 10 µs, once outstanding is zero, refused packets are resent with resync (R384) -/
  | refusalResend (t : Tower) (node : BitVec 20)
  /-- REFUSAL_GIVE_UP: After 100 ms refused packets complete with NODE_RESETTING or FABRIC_UNREACHABLE (R384) -/
  | refusalGiveUp (t : Tower) (node : BitVec 20)
  /-- FLOW_PORT_CHANGE: A waiting packet moves to a new port once the flow's outstanding packets complete (R382) -/
  | flowPortChange (k : Nat)
  /-- FABRIC_FLIT: A fabric port receives a flit and checks its CRC, sequence, ack and credit (R379) -/
  | fabricFlit (t : Tower) (p : Port) (flit : List Byte) (trailer : BitVec 64)
  /-- FABRIC_ACK_TIMER: A receiver returns ack when 64 ns have passed (R379) -/
  | fabricAckTimer (t : Tower) (p : Port)
  /-- FABRIC_NO_PROGRESS: 10 µs with flits outstanding and no ack takes the link to RETRAIN (R380) -/
  | fabricNoProgress (t : Tower) (p : Port)
  /-- FABRIC_RETRAIN_END: Port retraining succeeds and replays, or fails and the port goes DEAD (R380) -/
  | fabricRetrainEnd (t : Tower) (p : Port) (peer : Option TrainedPeer)
  /-- LASER_LOW: A laser wavelength below 7 dBm for 10 µs takes its four ports to NO_LIGHT (R363) -/
  | laserLow (t : Tower) (e : Fin 4) (inputB : Bool) (power : BitVec 8)
  /-- LASER_RESTORED: After 1 ms of good light a NO_LIGHT port goes to DEAD (R363) -/
  | laserRestored (t : Tower) (e : Fin 4) (inputB : Bool) (power : BitVec 8)
  /-- PORT_RETRAIN: A write of OPT_PORT_CTRL.retrain trains a port from DEAD or DISABLED (R380) -/
  | portRetrain (t : Tower) (p : Port)
  /-- PORT_ENABLE_WRITE: A write of OPT_PORT_CTRL.enable enables a port or takes it to DISABLED (R403) -/
  | portEnableWrite (t : Tower) (p : Port) (b : Bool)
  /-- SKY_NODE_WRITE: A write of SKY_NODE sets the tower's node ID (R364) -/
  | skyNodeWrite (t : Tower) (v : BitVec 32)
  /-- SKY_CREDIT_WRITE: A write of SKY_CREDIT sets the receive buffer split, or is ignored with cfg_err (R378) -/
  | skyCreditWrite (t : Tower) (v : BitVec 64)
  /-- ROUTING_ENTRY_WRITE: A write of a routing entry takes effect when its high half is written (R367) -/
  | routingEntryWrite (t : Tower) (group : Bool) (k : BitVec 12) (v : BitVec 64)
  /-- DIE_LINK_TRAINED: A die link completes training through capability exchange and goes ACTIVE or DOWN (R412) -/
  | dieLinkTrained (l : Link) (peer : CapRecord) (train : TrainResult)
  /-- DIE_LINK_TRAIN_TIMEOUT: A link not ACTIVE within 5 ms goes to DOWN (R412) -/
  | dieLinkTrainTimeout (l : Link)
  /-- DIE_LINK_FLIT: A die link receives a flit and checks its CRC and sequence (R416) -/
  | dieLinkFlit (l : Link) (flit : List Byte) (control : BitVec 64)
  /-- DIE_LINK_ACK_TIMER: A die-link receiver returns ack when 8 ns have passed (R416) -/
  | dieLinkAckTimer (l : Link)
  /-- DIE_LINK_NO_PROGRESS: 2 µs with flits outstanding and no ack takes the die link to RETRAIN (R417) -/
  | dieLinkNoProgress (e : LinkEnd)
  /-- DIE_LINK_RETRAIN_END: Die-link retraining succeeds and replays, or fails and the link goes DOWN (R417) -/
  | dieLinkRetrainEnd (l : Link) (train : Option (CapRecord × TrainResult))
  /-- FAILOVER_START: A link going DOWN holds affected routes and resends unacknowledged packets on new routes (R420) -/
  | failoverStart (l : Link)
  /-- FAILOVER_COMPLETE: Old routes are empty or 100 µs passed, so the new routes take effect (R420) -/
  | failoverComplete (late : Nat)
  /-- DLK_LINK_RETRAIN: A write of DLK_LINK_CTRL.retrain trains a link from DOWN or retrains from ACTIVE (R423) -/
  | dlkLinkRetrain (l : Link)
  /-- FORCE_DOWN: A write of DLK_LINK_CTRL.force_down takes the mainband DOWN or lets it return (R423) -/
  | forceDown (l : Link) (b : Bool)
  /-- SQ_TAIL_DOORBELL: A write of an sq_tail doorbell offers new commands on a submission ring (R434) -/
  | sqTailDoorbell (r : Ring64) (v : BitVec 32)
  /-- CQ_HEAD_DOORBELL: A write of a cq_head doorbell returns completion-ring space (R434) -/
  | cqHeadDoorbell (r : Ring64) (v : BitVec 32)
  /-- EQ_HEAD_DOORBELL: A write of an eq_head doorbell returns event-ring space (R434) -/
  | eqHeadDoorbell (r : Ring64) (v : BitVec 32)
  /-- COMMAND_TAKE: The ring arbiter takes one command from a ring and starts it when it may (R438) -/
  | commandTake (entry : Option (List Byte))
  /-- COMPLETION_POST: A completion is posted in submission order once earlier ones are posted and space exists (R436) -/
  | completionPost (r : Ring64)
  /-- COMPLETION_WRITE_FAIL: A failed completion or event write puts the ring in ERROR or disables the event ring (R582) -/
  | completionWriteFail (event : Bool) (r : Ring64)
  /-- RING_ENABLE_WRITE: A write of a ring's enable bit enables it or starts its drain (R440) -/
  | ringEnableWrite (event : Bool) (r : Ring64) (b : Bool)
  /-- RING_DRAINED: A DRAINING ring has posted its last completion and becomes DISABLED (R440) -/
  | ringDrained (r : Ring64)
  /-- EVENT_POST: An event is posted to its event ring, held, or dropped and counted (R470) -/
  | eventPost
  /-- CMD_NOP: Command NOP completes with no effect (R445) -/
  | cmdNop (k : Nat)
  /-- UNDEFINED_COMMAND: A command with an undefined opcode completes with BAD_OPCODE (R20) -/
  | undefinedCommand (k : Nat)
  /-- IDENTIFY: IDENTIFY writes the 4 KiB identity block to host memory (R447) -/
  | identify (k : Nat)
  /-- RING_CREATE: RING_CREATE configures and enables a submission ring (R433) -/
  | ringCreate (k : Nat)
  /-- RING_DESTROY: RING_DESTROY stops and drains a submission ring (R440) -/
  | ringDestroy (k : Nat)
  /-- EQ_CREATE: EQ_CREATE configures and enables an event ring (R468) -/
  | eqCreate (k : Nat)
  /-- EQ_DESTROY: EQ_DESTROY disables an event ring no live channel names (R471) -/
  | eqDestroy (k : Nat)
  /-- CHAN_CREATE: CHAN_CREATE checks its core list and creates a channel (R451) -/
  | chanCreate (k : Nat) (list : HostRead)
  /-- CHAN_DESTROY: CHAN_DESTROY stops cores, withdraws watches, closes queues and frees the channel (R452) -/
  | chanDestroy (k : Nat)
  /-- WINDOW_SET: WINDOW_SET checks and replaces a window descriptor of a channel (R454) -/
  | windowSet (k : Nat)
  /-- STREAM_START: STREAM_START starts or resumes the streams of listed cores, all or none (R455) -/
  | streamStart (k : Nat) (list : HostRead)
  /-- STREAM_STOP: STREAM_STOP pauses or aborts the streams of listed cores (R456) -/
  | streamStop (k : Nat) (list : HostRead)
  /-- LOAD: LOAD copies host memory to a device address (R458) -/
  | load (k : Nat) (sgl data : HostRead)
  /-- STORE: STORE copies device memory to host memory (R458) -/
  | store (k : Nat) (sgl : HostRead) (writeOk : Bool)
  /-- FLAG_WRITE: FLAG_WRITE sets a flag or atomically adds to it (R461) -/
  | flagWrite (k : Nat)
  /-- SEQ_FORK: SEQ_FORK shares a region's first pages with another region (R462) -/
  | seqFork (k : Nat)
  /-- SEQ_RELEASE: SEQ_RELEASE releases shared references and returns private frames to a pool (R464) -/
  | seqRelease (k : Nat)
  /-- THERMAL_PROFILE: THERMAL_PROFILE sets power cap, ramp bound, keep-warm and dew floor (R466) -/
  | thermalProfile (k : Nat)
  /-- LICENCE_INSTALL: LICENCE_INSTALL checks a signed licence and adds its features (R561) -/
  | licenceInstall (k : Nat) (data : HostRead)
  /-- LICENCE_QUERY: LICENCE_QUERY returns the feature mask (R445) -/
  | licenceQuery (k : Nat)
  /-- BAR0_BAD_ACCESS: A BAR0 access of the wrong size or alignment is completed harmlessly and recorded (R16) -/
  | bar0BadAccess (isWrite : Bool) (off : BitVec 27) (size : Nat)
  /-- BAR_READ_TIMEOUT: An unanswered BAR read completes with all ones after bar_timeout_us (R430) -/
  | barReadTimeout (bar4 : Bool) (off : BitVec 40)
  /-- SKY_WINDOW_READ: A BAR4 read is served as a REQ through its slot's vault (R432) -/
  | skyWindowRead (off : BitVec 40) (len : Nat)
  /-- SKY_WINDOW_WRITE: A BAR4 posted write is served as a REQ through its slot's vault (R432) -/
  | skyWindowWrite (off : BitVec 40) (data : List PByte)
  /-- REGISTER_WRITE: A write to a register without behaviour of its own updates fields by their type (R13) -/
  | registerWrite (off : BitVec 27) (wide : Bool) (v : BitVec 64)
  /-- SENSOR_SAMPLE: Every 20 µs the hardware samples every sensor and applies comparators, detector and trip (R478) -/
  | sensorSample (readings : List (Nat × Int))
  /-- SENSOR_SILENT: A sensor with no new sample for 200 µs is declared broken (R480) -/
  | sensorSilent (k : Nat)
  /-- SENSOR_REARM: A write of PTM_SENSOR_CTRL.rearm clears a sensor's broken state (R480) -/
  | sensorRearm
  /-- QUIESCE_DONE: Firmware sets PTM_T_STATE.quiesce_done after the tower quiesces (R489) -/
  | quiesceDone (t : Tower)
  /-- QUIESCE_TIMEOUT: quiesce_done still 0 5 ms after Storm entry trips the tower (R490) -/
  | quiesceTimeout (t : Tower)
  /-- RATE_REQUEST_EXPIRE: The detector's Overcast request lapses 10 ms after its last tripping sample (R492) -/
  | rateRequestExpire (t : Tower)
  /-- POWER_SAMPLE: Every 100 µs the manager reads activity and rails and adjusts duties to the bounds (R479) -/
  | powerSample (rails : List (Nat × Option (Nat × Nat))) (model : PowerModel)
  /-- FORECAST_STEP: Every 100 µs firmware steps the thermal model, publishes forecasts and sets levels (R493) -/
  | forecastStep (hot : List (Nat × Int)) (zones : List (Nat × Int))
  /-- GATE_PERIOD: A 1 µs gate period starts and applies the core's duty (R487) -/
  | gatePeriod
  /-- RISE_WINDOW_END: A 10 ms rate-of-rise window ends and sets the next BEST_EFFORT ceiling (R491) -/
  | riseWindowEnd (t : Tower)
  /-- POWER_WINDOW_END: A 100 ms power window ends and its excursion accounting restarts (R496) -/
  | powerWindowEnd
  /-- FLOW_WINDOW_END: A 100 ms window ends and towers are judged flow-suspect or clear (R503) -/
  | flowWindowEnd (theta : List (Nat × Nat))
  /-- COOLANT_WRITE: The board controller writes inlet and flow into PTM_COOLANT (R502) -/
  | coolantWrite (inlet flow : BitVec 12)
  /-- COOLANT_STALE: PTM_COOLANT unwritten for 1 s sets coolant_stale and assumes worst values (R502) -/
  | coolantStale
  /-- DEW_RISK: All permitted heaters on for 1 s with layer 7 below the floor sets dew_risk (R500) -/
  | dewRisk (t : Tower)
  /-- TRIM_STEP: Every 10 ms firmware trims references and standby oscillators (R499) -/
  | trimStep
  /-- VCORE_UPDATE: Every 1 ms firmware updates each tower's VCORE target (R505) -/
  | vcoreUpdate (t : Tower) (target : Nat)
  /-- HEARTBEAT: Firmware advances GLB_HEARTBEAT every 1 ms (R472) -/
  | heartbeat
  /-- FW_ALIVE_LOST: No heartbeat for 10 ms drops fw_alive and hardware fallback takes over (R507) -/
  | fwAliveLost
  /-- COLD_RESET: VAUX rising above its threshold resets everything (R510) -/
  | coldReset
  /-- SYS_RESET_N_LOW: SYS_RESET_N low for 100 ns starts a full reset (R512) -/
  | sysResetNLow (ns : Nat)
  /-- PERST_N_ASSERT: PERST_N asserted by the host starts a full reset (R510) -/
  | perstNAssert
  /-- HOT_RESET: A PCI Express hot reset starts a full reset unless the option bytes disable it (R525) -/
  | hotReset
  /-- PCIE_LINK_DOWN: A host link-down without hot reset retrains the link and causes no reset (R510) -/
  | pcieLinkDown
  /-- FULL_ARM: A write of RST_CTRL.full_arm arms full_go for 1 ms (R510) -/
  | fullArm
  /-- FULL_GO: A write of RST_CTRL.full_go when armed starts a full reset (R510) -/
  | fullGo
  /-- REFERENCE_LOSS: Loss of the reference or of root-PLL lock starts a held full reset (R527) -/
  | referenceLoss (pll : Bool)
  /-- SERDES_UNLOCK: A SerDes PLL losing lock retrains only its own link or port (R527) -/
  | serdesUnlock (which : SerDes)
  /-- FULL_RESET_RELEASE: SYS_RESET_N high for 1 µs starts the ordered exit from full reset (R513) -/
  | fullResetRelease (ns : Nat)
  /-- STARTUP_STEP_TIMEOUT: A reset-exit step exceeding its bound leaves the device BOOTING with stuck set (R513) -/
  | startupStepTimeout
  /-- TICK_SYNC_CHECK: Every 1 ms each tower checks and corrects its time-tick offset (R528) -/
  | tickSyncCheck (t : Tower) (offset : Int)
  /-- COMPUTE_GO: A write of RST_CTRL.compute_go starts a compute-only reset of the masked towers (R514) -/
  | computeGo
  /-- DRAIN_END: Drain completes or drain_us expires, and the reset goes to HELD (R515) -/
  | drainEnd
  /-- HELD_END: The HELD phase ends and the compute domain is released (R515) -/
  | heldEnd
  /-- RELEASE_COMPLETE: Release completes, refusals end and CHANNEL_FAULT events are posted (R517) -/
  | releaseComplete
  /-- BLOCK_RESET_GO: A write of RST_BLOCK.go requests idle of one block of one site (R519) -/
  | blockResetGo (v : BitVec 32)
  /-- BLOCK_IDLE: The block reports idle and is held in reset for 1 µs (R520) -/
  | blockIdle
  /-- BLOCK_RESET_RELEASE: The 1 µs hold ends and the block is released (R520) -/
  | blockResetRelease
  /-- BLOCK_RESET_TIMEOUT: The idle timeout expires, and the request is withdrawn or forced (R520) -/
  | blockResetTimeout
  /-- ROM_START: The boot ROM reads fuses and boot options and takes the flash (R531) -/
  | romStart (flash : Option Nat)
  /-- MANIFEST: The ROM reads and checks the manifest (R538) -/
  | manifest (bytes : Option (List Byte))
  /-- MGMT_LOAD: The ROM loads and checks MGMT segments and starts the firmware (R539) -/
  | mgmtLoad
  /-- SEGMENT_READ: A segment read from flash is digest-checked and reread on mismatch (R539) -/
  | segmentRead (k : Nat) (bytes : List (List Byte))
  /-- FW_INIT: Firmware applies yield-log retirements and starts reading DATA and CORE segments (R555) -/
  | fwInit (log : List (List Byte))
  /-- MEM_TEST: Each vault controller runs the start-up memory test and retires failing rows (R547) -/
  | memTest (rows : List (Nat × Nat)) (vaults : List Nat)
  /-- INIT_FILL: Every vault in service is filled with pattern 0 (R241) -/
  | initFill
  /-- RAINFALL: The I/O die broadcasts CORE segments to every eligible site (R541) -/
  | rainfall (k : Nat)
  /-- RAINFALL_PIECE: A boot receiver writes a rained piece into its vault or drops it (R542) -/
  | rainfallPiece (i : Site) (num : Nat) (full : Bool)
  /-- END_MARKER: A receiver takes the end marker and marks missed segments (R543) -/
  | endMarker (i : Site) (count : Nat)
  /-- END_MARKER_TIMEOUT: No end marker within 1 ms of the last piece acts as one (R543) -/
  | endMarkerTimeout (i : Site)
  /-- SEGMENT_FETCH: The I/O die serves a receiver's fetch of a missed segment (R544) -/
  | segmentFetch (reread : Option (List (List Byte)))
  /-- FETCH_ATTEMPT_END: A fetch answer arrives or 2 ms expire, and the segment is done, retried or the core is ABSENT (R546) -/
  | fetchAttemptEnd (i : Site) (answer : Option (List Byte))
  /-- FETCH_STAGE_TIMEOUT: Stage 7's bound expires and receivers still working are declared ABSENT (R546) -/
  | fetchStageTimeout
  /-- CORE_TEST: Each core runs BIST, march and test streams (R548) -/
  | coreTest (failed towers : List Nat)
  /-- RECONCILE: Firmware decides the yield map, writes the log, releases the flash and sets READY or GRADE_FAULT (R551) -/
  | reconcile
  /-- BOOT_STAGE_TIMEOUT: A boot stage exceeding its bound stops boot in FAILED (R532) -/
  | bootStageTimeout
  /-- SVN_ARM: A write of SEC_SVN_COMMIT.arm arms go for 1 ms (R556) -/
  | svnArm
  /-- SVN_COMMIT: A write of SEC_SVN_COMMIT.go when armed raises the svn floor and blows revoke fuses (R556) -/
  | svnCommit
  /-- GET_VERSION: SPDM GET_VERSION is answered (R558) -/
  | getVersion (request : List Byte) (answer : List Byte)
  /-- GET_CAPABILITIES: SPDM GET_CAPABILITIES is answered (R558) -/
  | getCapabilities (request : List Byte) (answer : List Byte)
  /-- NEGOTIATE_ALGORITHMS: SPDM NEGOTIATE_ALGORITHMS selects P-384 and SHA-384 (R558) -/
  | negotiateAlgorithms (request : List Byte) (answer : List Byte)
  /-- GET_DIGESTS: SPDM GET_DIGESTS returns the slot 0 chain digest (R558) -/
  | getDigests (request : List Byte) (answer : List Byte)
  /-- GET_CERTIFICATE: SPDM GET_CERTIFICATE returns the chain to the Alias key (R558) -/
  | getCertificate (request : List Byte) (answer : List Byte)
  /-- CHALLENGE: SPDM CHALLENGE is answered with a signed response (R558) -/
  | challenge (request : List Byte) (answer : List Byte)
  /-- GET_MEASUREMENTS: SPDM GET_MEASUREMENTS returns the signed measurement blocks (R559) -/
  | getMeasurements (request : List Byte) (answer : List Byte)
  /-- SPDM_UNSUPPORTED: An unsupported SPDM request receives UnsupportedRequest (R558) -/
  | spdmUnsupported (request : List Byte) (answer : List Byte)
  /-- GET_SENSOR_READING: PLDM GetSensorReading returns a numeric sensor (R605) -/
  | getSensorReading (sensor : Nat)
  /-- GET_STATE_SENSOR_READINGS: PLDM GetStateSensorReadings returns a state sensor (R605) -/
  | getStateSensorReadings (sensor : Nat)
  /-- SETDASA: An I3C SETDASA assigns the dynamic address (R620) -/
  | setdasa (addr : BitVec 7)
  /-- ERROR_RECORD: The RAS block logs an error record, dropping or overwriting when full (R571) -/
  | errorRecord
  /-- WATCHDOG_EXPIRE: A management watchdog expires and the device wedges (R583) -/
  | watchdogExpire (x : WatchdogExpiry)
  /-- MGMT_SRAM_UNCORRECTABLE: An uncorrectable management SRAM read wedges the device (R583) -/
  | mgmtSramUncorrectable
  /-- CRASH_WRITER_TIMEOUT: No valid crash header 1 ms after entry makes the hardware crash writer write it (R585) -/
  | crashWriterTimeout
  /-- CRASH_RELEASE: A write of RAS_CRASH_CTRL.release invalidates the crash record and clears the lock (R587) -/
  | crashRelease
  /-- DBG_STEP: A write of DBG_STEP issues up to n instructions from BREAK (R593) -/
  | dbgStep (v : BitVec 32)
  /-- SNAPSHOT: A write of DBG_SNAP.go writes a wait-graph snapshot of a channel to host memory (R595) -/
  | snapshot (v : BitVec 32) (writeOk : Bool)
  /-- TRACE_RECORD: A traced completion or routing event is stored as a record or dropped (R602) -/
  | traceRecord
  /-- TRACE_WRITE: The trace unit writes one stored record to the trace range (R598) -/
  | traceWrite
  /-- TELEMETRY_LATCH: Every 1,000,000 ticks TEL latches per-tower counter increases (R604) -/
  | telemetryLatch
  /-- PORT_TRAINED: A fabric port in TRAINING finishes training and goes to UP, learning its peer and delay, or fails and goes to DEAD (R380) -/
  | portTrained (t : Tower) (p : Port) (peer : Option TrainedPeer)
  /-- SKY_CTRL_ENABLE_WRITE: A write of SKY_CTRL.enable lets the tower's enabled ports train and carry traffic, or stops them (R402) -/
  | skyCtrlEnableWrite (t : Tower) (b : Bool)
  /-- REFERENCE_RESTORED: The board reference returns and the root PLL relocks, which ends the held full reset (R527) -/
  | referenceRestored
  /-- PERST_N_DEASSERT: The host deasserts PERST_N, ending that full-reset source so that the device may release SYS_RESET_N (R512) -/
  | perstNDeassert
  /-- RESET_STRETCH_END: The device's minimum SYS_RESET_N drive of 20 µs plus the stretch time expires, and the device releases the pin (R512) -/
  | resetStretchEnd
  /-- VAUX_LOSS: VAUX leaves its range, so retained SRAM, backup registers, keepers and the VCORE enables are lost or forced low (R616) -/
  | vauxLoss
  /-- HOST_LINK_UP: The PCI Express host link finishes training or retraining and HIF_LINK.up becomes 1 (R510) -/
  | hostLinkUp (wide : Bool) (rate : Fin 3)
  /-- FIRMWARE_PANIC: The firmware panics and enters the crash handler, which writes a crash record with cause 4 without wedging the device (R585) -/
  | firmwarePanic (h : CrashWork)
  deriving DecidableEq, Repr

end Sys2Proof
end

