-- ==== Sys2Proof/Decode.lean ====
section
/-!
DEFINITION. The command a table word spells. No row of the opcode table gives bits, so no word spells one.
-/
namespace Sys2Proof

/-- The command spelled by a word of a number of bits. -/
def decodeTableWord (_nbits _w : Nat) : Option Instr := none

end Sys2Proof
end

