-- ==== Sys2Proof/Config.lean ====
section
/-!
DEFINITION. The free values: constants without a body, one for each place where the spec leaves a value open. A claim
about the model is true whatever they are.
-/
namespace Sys2Proof

/-- The value of a poisoned accumulator element or tile lane (03 R138, 05 R180), by the index of its event. -/
opaque Config.freeLane : Nat → BitVec 32

/-- The arithmetic flags a poisoned accumulator element raises (03 R138): nan_op, inv, ovf, isat from bit 0 up. -/
opaque Config.freeFlags : Nat → BitVec 4

/-- The result a stepping gives a transcendental operation of an opcode on an input, wherever 05 R191 allows it. -/
opaque Config.transcendental : Nat → BitVec 32 → BitVec 32

/-- What a vault word holds before its initialisation fill (06 R241), by vault and physical word: 64 data bits and
8 check bits. -/
opaque Config.vaultWord : Nat → Nat → BitVec 72

/-- A 64-bit value the spec leaves open, by the index of its event. -/
opaque Config.freeWord : Nat → BitVec 64

/-- A natural number the spec leaves open, by the index of its event. -/
opaque Config.freeNat : Nat → Nat

/-- Byte j of a digest of contents the spec does not give: block 1 is the boot ROM, block 4 the fuse map of the part of
a serial (15 R559). -/
opaque Config.freeDigest : Nat → Nat → Nat → BitVec 8

end Sys2Proof
end

