-- ==== Sys2Proof/Machine/SMap.lean ====
section
/-!
DEFINITION. Look-up and update of the sparse tables (SMap): sorted by key, and, where a default is given,
holding no entry equal to what an unlisted key reads as.
-/
namespace Sys2Proof

/-- The entry listed under a key. -/
def SMap.find {α : Type} : SMap α → Nat → Option α
  | [], _ => none
  | (k, v) :: m, j => if j = k then some v else SMap.find m j

/-- What a key reads as: its entry, or the default. -/
def SMap.get {α : Type} (d : Nat → α) (m : SMap α) (k : Nat) : α :=
  match SMap.find m k with
  | some v => v
  | none => d k

/-- Lists a value under a key, in key order. -/
def SMap.insert {α : Type} (k : Nat) (v : α) : SMap α → SMap α
  | [] => [(k, v)]
  | (j, w) :: m =>
    if k < j then (k, v) :: (j, w) :: m
    else if k = j then (k, v) :: m
    else (j, w) :: SMap.insert k v m

/-- Takes a key out. -/
def SMap.erase {α : Type} (k : Nat) : SMap α → SMap α
  | [] => []
  | (j, w) :: m => if k = j then SMap.erase k m else (j, w) :: SMap.erase k m

/-- Writes a value: a value equal to the default leaves no entry. -/
def SMap.put {α : Type} [DecidableEq α] (d : Nat → α) (k : Nat) (v : α) (m : SMap α) : SMap α :=
  if v = d k then SMap.erase k m else SMap.insert k v m

/-- Keys strictly rise from a bound. -/
def SMap.sortedFrom {α : Type} : Option Nat → SMap α → Bool
  | _, [] => true
  | b, (k, _) :: m =>
    (match b with
     | none => true
     | some j => decide (j < k)) && SMap.sortedFrom (some k) m

/-- No entry equals the default of its key. -/
def SMap.noDefault {α : Type} [DecidableEq α] (d : Nat → α) : SMap α → Bool
  | [] => true
  | (k, v) :: m => !decide (v = d k) && SMap.noDefault d m

/-- The canonical form: keys strictly rising and no entry equal to the default. -/
def SMap.wf {α : Type} [DecidableEq α] (d : Nat → α) (m : SMap α) : Bool :=
  SMap.sortedFrom none m && SMap.noDefault d m

/-- Keeps the entries whose key meets a test. -/
def SMap.keep {α : Type} (p : Nat → Bool) (m : SMap α) : SMap α :=
  List.filter (fun e => p e.1) m

/-- Applies a function to every listed value. -/
def SMap.mapVal {α β : Type} (f : Nat → α → β) (m : SMap α) : SMap β :=
  List.map (fun e => (e.1, f e.1 e.2)) m

end Sys2Proof
end

