-- ==== Sys2Proof/Machine/Bits.lean ====
section
/-!
DEFINITION. Bit fields, sign extension and byte order (00 R9, 04 R142), and small list helpers.
-/
namespace Sys2Proof

/-- Bits [hi:lo] of a number. -/
def bits (x hi lo : Nat) : Nat := x / 2 ^ lo % 2 ^ (hi + 1 - lo)

/-- One bit of a number. -/
def bit (x n : Nat) : Bool := x / 2 ^ n % 2 == 1

/-- The number with bits [hi:lo] replaced. -/
def setBits (x hi lo v : Nat) : Nat :=
  x / 2 ^ (hi + 1) * 2 ^ (hi + 1) + v % 2 ^ (hi + 1 - lo) * 2 ^ lo + x % 2 ^ lo

/-- 1 for true. -/
def b2n (b : Bool) : Nat := if b then 1 else 0

/-- The two's-complement value of a w-bit pattern. -/
def sext (w x : Nat) : Int :=
  if x % 2 ^ w < 2 ^ (w - 1) then (x % 2 ^ w : Nat) else (x % 2 ^ w : Nat) - (2 ^ w : Nat)

/-- The w-bit two's-complement pattern of an integer. -/
def wrap (w : Nat) (x : Int) : Nat := (x % ((2 ^ w : Nat) : Int)).toNat

/-- Little-endian value of bytes, the first lowest (00 R9). -/
def leNat : List Byte → Nat
  | [] => 0
  | b :: bs => b.toNat + 256 * leNat bs

/-- The n low bytes of a number, the lowest first (00 R9). -/
def toLE : Nat → Nat → List Byte
  | 0, _ => []
  | n + 1, x => BitVec.ofNat 8 x :: toLE n (x / 256)

/-- Big-endian value of bytes, for the byte strings of a cryptographic standard (00 R9). -/
def beNat (bs : List Byte) : Nat := bs.foldl (fun a b => a * 256 + b.toNat) 0

/-- Clean bytes in transit. -/
def clean (bs : List Byte) : List PByte := bs.map (fun b => (b, false))

/-- The value of bytes in transit. -/
def leP (bs : List PByte) : Nat := leNat (bs.map Prod.fst)

/-- Does any byte carry poison? -/
def anyPoison (bs : List PByte) : Bool := bs.any Prod.snd

/-- n bytes from byte offset o of a list. -/
def slice {α : Type} (bs : List α) (o n : Nat) : List α := (bs.drop o).take n

/-- The little-endian field of w bytes at byte offset o. -/
def fieldLE (bs : List Byte) (o w : Nat) : Nat := leNat (slice bs o w)

/-- Element i of a run of w-bit elements packed as a little-endian bit stream (04 R142). -/
def packedElem (run w i : Nat) : Nat := run / 2 ^ (w * i) % 2 ^ w

/-- Saturating sum. -/
def satAdd (w x n : Nat) : Nat := Nat.min (x + n) (2 ^ w - 1)

/-- Wrapping sum. -/
def wrapAdd (w x n : Nat) : Nat := (x + n) % 2 ^ w

/-- x held in [lo, hi]. -/
def clampNat (lo hi x : Nat) : Nat := Nat.max lo (Nat.min hi x)

/-- x held in [lo, hi]. -/
def clampInt (lo hi x : Int) : Int := max lo (min hi x)

/-- Ceiling of a quotient. -/
def ceilDiv (a b : Nat) : Nat := (a + b - 1) / b

/-- Splits a list into pieces of n, at most k of them. -/
def chunks {α : Type} (n : Nat) : Nat → List α → List (List α)
  | 0, _ => []
  | k + 1, xs => if xs.isEmpty then [] else xs.take n :: chunks n k (xs.drop n)

/-- Replaces entry i of a list. -/
def setAt {α : Type} (xs : List α) (i : Nat) (v : α) : List α := xs.set i v

/-- The first index and entry that meets a test. -/
def findIdx {α : Type} (p : α → Bool) : List α → Nat → Option (Nat × α)
  | [], _ => none
  | x :: xs, i => if p x then some (i, x) else findIdx p xs (i + 1)

/-- Takes out entry i. -/
def dropAt {α : Type} (xs : List α) (i : Nat) : List α := xs.eraseIdx i

/-- Largest of a list, or a given least. -/
def maxNat (d : Nat) (xs : List Nat) : Nat := xs.foldl Nat.max d

/-- The highest set bit's position, floor(log2 x); 0 for 0. -/
def log2 (x : Nat) : Nat := Nat.log2 x

/-- CRC of a bit string, the most significant bit first: register of w bits, polynomial without its top term. -/
def crcBits (w poly : Nat) : Nat → List Bool → Nat
  | r, [] => r
  | r, b :: bs =>
    let top := bit r (w - 1)
    let r' := (r * 2) % 2 ^ w
    crcBits w poly (if xor top b then Nat.xor r' poly else r') bs

/-- The bits of a byte, most significant first. -/
def byteBitsMsb (b : Byte) : List Bool := [7, 6, 5, 4, 3, 2, 1, 0].map (fun i => bit b.toNat i)

/-- The bits of a byte, least significant first. -/
def byteBitsLsb (b : Byte) : List Bool := [0, 1, 2, 3, 4, 5, 6, 7].map (fun i => bit b.toNat i)

/-- A w-bit number with its bit order reversed. -/
def revBits : Nat → Nat → Nat
  | 0, _ => 0
  | w + 1, x => x % 2 * 2 ^ w + revBits w (x / 2)

/-- CRC-32 of IEEE 802.3 over bytes (15 R554). -/
def crc32 (bs : List Byte) : Nat :=
  Nat.xor (revBits 32 (crcBits 32 0x04C11DB7 0xFFFFFFFF (bs.flatMap byteBitsLsb))) 0xFFFFFFFF

end Sys2Proof
end

