-- ==== Sys2Proof/Machine/Ecc.lean ====
section
/-!
DEFINITION. The SEC-DED code of vault words, the scratchpad and retained SRAM, its decoding, and the poison mark
(06 R234, R236, R237); byte reads and writes over words of 8 B, with the merge of a partial write (06 R218).
-/
namespace Sys2Proof

/-- A stored 72-bit codeword: 64 data bits and 8 check bits (06 R234). -/
structure Codeword where
  d : BitVec 64
  c : BitVec 8
  deriving DecidableEq, Repr

/-- pos(i): the (i + 1)-th integer from 1 to 71 that is not a power of two (06 R234). -/
def eccPos (i : Nat) : Nat :=
  if i = 0 then 3 else if i < 4 then i + 4 else if i < 11 then i + 5 else if i < 26 then i + 6
  else if i < 57 then i + 7 else i + 8

/-- The data bits whose position has bit j set, as a mask. -/
def eccMask (j : Nat) : Nat :=
  (List.range 64).foldl (fun m i => if bit (eccPos i) j then m + 2 ^ i else m) 0

/-- Parity of a number below 2^64. -/
def parity64 (x : Nat) : Nat :=
  let x := Nat.xor x (x / 2 ^ 32)
  let x := Nat.xor x (x / 2 ^ 16)
  let x := Nat.xor x (x / 2 ^ 8)
  let x := Nat.xor x (x / 2 ^ 4)
  let x := Nat.xor x (x / 2 ^ 2)
  let x := Nat.xor x (x / 2)
  x % 2

/-- Check bits c[6:0] of data (06 R234). -/
def eccLow (d : Nat) : Nat :=
  (List.range 7).foldl (fun c j => c + parity64 (Nat.land d (eccMask j)) * 2 ^ j) 0

/-- The codeword of clean data (06 R234). -/
def Codeword.enc (d : BitVec 64) : Codeword :=
  let c := eccLow d.toNat
  ⟨d, BitVec.ofNat 8 (c + (parity64 d.toNat + parity64 c) % 2 * 128)⟩

/-- The poison mark (06 R236). -/
def Codeword.mark : Codeword := ⟨0, 0xFF⟩

/-- The zero word with its check bits. -/
def Codeword.zero : Codeword := ⟨0, 0⟩

/-- What decoding a stored word finds (06 R237). -/
inductive WordKind where
  | clean
  | corrected
  | uncorrectable
  | poisoned
  deriving DecidableEq, Repr

/-- A decoded word: its kind, the (corrected) data, s and p (06 R237). -/
structure Decoded where
  kind : WordKind
  data : BitVec 64
  s : Nat
  p : Nat
  deriving DecidableEq, Repr

/-- Is the word the mark, or one bit away from it? -/
def Codeword.nearMark (w : Codeword) : Bool :=
  let dc := Nat.xor w.c.toNat 0xFF
  let x := w.d.toNat + dc * 2 ^ 64
  x == 0 || x == 2 ^ log2 x

/-- The data bit at a position, if the position is a data bit's. -/
def eccBitAt (s : Nat) : Option Nat := (List.range 64).find? (fun i => eccPos i == s)

/-- Decodes a stored word by the table of 06 R237, tested in order. -/
def Codeword.decode (w : Codeword) : Decoded :=
  let s := Nat.xor (bits w.c.toNat 6 0) (eccLow w.d.toNat)
  let p := (parity64 w.d.toNat + parity64 w.c.toNat) % 2
  if w.nearMark then ⟨.poisoned, 0, s, p⟩
  else if s = 0 ∧ p = 0 then ⟨.clean, w.d, s, p⟩
  else if p = 1 ∧ s ≤ 71 then
    match eccBitAt s with
    | some i => ⟨.corrected, w.d ^^^ BitVec.ofNat 64 (2 ^ i), s, p⟩
    | none => ⟨.corrected, w.d, s, p⟩
  else ⟨.uncorrectable, w.d, s, p⟩

/-- Does the word read as poison (06 R239)? -/
def WordKind.bad : WordKind → Bool
  | .clean => false
  | .corrected => false
  | .uncorrectable => true
  | .poisoned => true

/-- A memory of codewords by word index. -/
abbrev EccMem := SMap Codeword

/-- The canonical form of a memory: word indices strictly rising, no word listed that holds what an unlisted one does. -/
def Memory.wf (d : Nat → Codeword) (m : EccMem) : Bool := SMap.wf d m

/-- The stored word at a word index; `d` says what an unlisted word holds. -/
def EccMem.word (d : Nat → Codeword) (m : EccMem) (k : Nat) : Codeword := SMap.get d m k

/-- Byte i of a word. -/
def byteOf (x : BitVec 64) (i : Nat) : Byte := BitVec.ofNat 8 (x.toNat / 2 ^ (8 * i))

/-- The byte at an address, with its word's poison. -/
def EccMem.byte (d : Nat → Codeword) (m : EccMem) (a : Nat) : PByte :=
  let r := (EccMem.word d m (a / 8)).decode
  if r.kind.bad then (0, true) else (byteOf r.data (a % 8), false)

/-- n bytes from an address. -/
def EccMem.read (d : Nat → Codeword) (m : EccMem) (a n : Nat) : List PByte :=
  (List.range n).map (fun i => EccMem.byte d m (a + i))

/-- The word left by writing bytes into a word from byte o. A whole word takes the new bytes alone (16 R577); a part
keeps the old word's other bytes and its poison (06 R218). -/
def mergeWord (old : Codeword) (o : Nat) (bs : List PByte) : Codeword :=
  if o = 0 ∧ bs.length = 8 then
    if anyPoison bs then .mark else .enc (BitVec.ofNat 64 (leP bs))
  else
    let r := old.decode
    if r.kind.bad || anyPoison bs then .mark
    else .enc (BitVec.ofNat 64 (setBits r.data.toNat (8 * (o + bs.length) - 1) (8 * o) (leP bs)))

/-- Writes bytes word by word; `k` bounds the words. -/
def EccMem.writeWords (d : Nat → Codeword) : Nat → EccMem → Nat → List PByte → EccMem
  | 0, m, _, _ => m
  | k + 1, m, a, bs =>
    match bs with
    | [] => m
    | _ :: _ =>
      let o := a % 8
      let n := 8 - o
      let w := mergeWord (EccMem.word d m (a / 8)) o (bs.take n)
      EccMem.writeWords d k (SMap.put d (a / 8) w m) (a + n) (bs.drop n)

/-- Writes bytes from an address. -/
def EccMem.write (d : Nat → Codeword) (m : EccMem) (a : Nat) (bs : List PByte) : EccMem :=
  EccMem.writeWords d (bs.length / 8 + 2) m a bs

/-- Does a partial word of the write meet a poisoned or uncorrectable old word (06 R218)? -/
def EccMem.mergeMeetsPoison (d : Nat → Codeword) (m : EccMem) (a n : Nat) : Bool :=
  let first := a / 8
  let last := (a + n - 1) / 8
  (a % 8 != 0 && ((EccMem.word d m first).decode).kind.bad) ||
  ((a + n) % 8 != 0 && ((EccMem.word d m last).decode).kind.bad)

/-- The words of a range with how each decodes. -/
def EccMem.scan (d : Nat → Codeword) (m : EccMem) (a n : Nat) : List (Nat × Decoded) :=
  if n = 0 then []
  else (List.range ((a + n - 1) / 8 - a / 8 + 1)).map (fun i =>
    (a / 8 + i, (EccMem.word d m (a / 8 + i)).decode))

end Sys2Proof
end

