-- ==== Sys2Proof/Machine/Flags.lean ====
section
/-!
DEFINITION. The arithmetic flags that conversions and tile and matrix arithmetic raise (04 R158, 05 R166, R194, 03 R139),
and their unions.
-/
namespace Sys2Proof

/-- Conversion and arithmetic flags of a lane (04 R158, 05 R166). -/
structure Flags where
  nanOp : Bool
  inv : Bool
  ovf : Bool
  isat : Bool
  deriving DecidableEq, Repr

/-- No flag. -/
def Flags.none : Flags := ⟨false, false, false, false⟩

/-- The union of flags. -/
def Flags.or (a b : Flags) : Flags := ⟨a.nanOp || b.nanOp, a.inv || b.inv, a.ovf || b.ovf, a.isat || b.isat⟩

/-- The flag nan_op alone. -/
def Flags.ofNan : Flags := ⟨true, false, false, false⟩
/-- The flag inv alone. -/
def Flags.ofInv : Flags := ⟨false, true, false, false⟩
/-- The flag ovf alone. -/
def Flags.ofOvf : Flags := ⟨false, false, true, false⟩
/-- The flag isat alone. -/
def Flags.ofIsat : Flags := ⟨false, false, false, true⟩

/-- The flags a list of lanes raised. -/
def orFlags (fs : List Flags) : Flags := fs.foldl Flags.or .none

/-- The flags of a lane, nan_op lowest. -/
def flagBits (f : Flags) : Nat := b2n f.nanOp + 2 * b2n f.inv + 4 * b2n f.ovf + 8 * b2n f.isat

end Sys2Proof
end

