-- ==== Sys2Proof/Machine/Format.lean ====
section
/-!
DEFINITION. The sixteen number formats: their values, the one rounding, conversions and their flags, block scales and
row biases (chapter 04).
-/
namespace Sys2Proof

/-- A format code (04 R141). -/
inductive Fmt where
  | binary32 | binary16 | bfloat16 | e4m3 | e5m2 | e3m2 | e2m3 | e2m1
  | int32 | int16 | int8 | uint8 | int4 | uint4 | lt10 | e8m0
  deriving DecidableEq, Repr

/-- The format of a 4-bit code (04 R141). -/
def Fmt.ofCode (c : Nat) : Fmt :=
  match c % 16 with
  | 0 => .binary32 | 1 => .binary16 | 2 => .bfloat16 | 3 => .e4m3 | 4 => .e5m2 | 5 => .e3m2 | 6 => .e2m3 | 7 => .e2m1
  | 8 => .int32 | 9 => .int16 | 10 => .int8 | 11 => .uint8 | 12 => .int4 | 13 => .uint4 | 14 => .lt10 | _ => .e8m0

/-- The width in bits (04 R141). -/
def Fmt.width : Fmt → Nat
  | .binary32 => 32 | .binary16 => 16 | .bfloat16 => 16 | .e4m3 => 8 | .e5m2 => 8 | .e3m2 => 6 | .e2m3 => 6
  | .e2m1 => 4 | .int32 => 32 | .int16 => 16 | .int8 => 8 | .uint8 => 8 | .int4 => 4 | .uint4 => 4 | .lt10 => 10
  | .e8m0 => 8

/-- Fraction bits of a floating format. -/
def Fmt.frac : Fmt → Nat
  | .binary32 => 23 | .binary16 => 10 | .bfloat16 => 7 | .e4m3 => 3 | .e5m2 => 2 | .e3m2 => 2 | .e2m3 => 3
  | .e2m1 => 1 | .lt10 => 5 | _ => 0

/-- Exponent bias (04 R141). -/
def Fmt.bias : Fmt → Nat
  | .binary32 => 127 | .binary16 => 15 | .bfloat16 => 127 | .e4m3 => 7 | .e5m2 => 15 | .e3m2 => 3 | .e2m3 => 1
  | .e2m1 => 1 | .lt10 => 7 | .e8m0 => 127 | _ => 0

/-- Magnitude code of the largest finite value (04 R144). -/
def Fmt.maxCode : Fmt → Nat
  | .binary32 => 0x7F7FFFFF | .binary16 => 0x7BFF | .bfloat16 => 0x7F7F | .e4m3 => 0x7E | .e5m2 => 0x7B
  | .e3m2 => 0x1F | .e2m3 => 0x1F | .e2m1 => 7 | .lt10 => 0x1FF | _ => 0

/-- Has the format an infinity and NaNs (04 R144)? -/
def Fmt.hasInf : Fmt → Bool
  | .binary32 => true | .binary16 => true | .bfloat16 => true | .e5m2 => true | _ => false

/-- Is the format a floating one? -/
def Fmt.isFloat : Fmt → Bool
  | .binary32 => true | .binary16 => true | .bfloat16 => true | .e4m3 => true | .e5m2 => true | .e3m2 => true
  | .e2m3 => true | .e2m1 => true | .lt10 => true | _ => false

/-- Is the format an integer one? -/
def Fmt.isInt : Fmt → Bool
  | .int32 => true | .int16 => true | .int8 => true | .uint8 => true | .int4 => true | .uint4 => true | _ => false

/-- Is the format an MX element format (04 R148)? -/
def Fmt.isMx : Fmt → Bool
  | .e4m3 => true | .e5m2 => true | .e3m2 => true | .e2m3 => true | .e2m1 => true | _ => false

/-- emax of an MX element format (04 R160). -/
def Fmt.emax : Fmt → Nat
  | .e4m3 => 8 | .e5m2 => 15 | .e3m2 => 4 | _ => 2

/-- The canonical NaN the device writes (04 R145). -/
def Fmt.nan : Fmt → Nat
  | .binary32 => 0x7FC00000 | .binary16 => 0x7E00 | .bfloat16 => 0x7FC0 | .e4m3 => 0x7F | .e5m2 => 0x7E
  | .e8m0 => 0xFF | _ => 0

/-- A value: NaN, an infinity, or sign, magnitude and binary exponent, (-1)^neg * m * 2^e exactly. -/
inductive Val where
  | nan
  | inf (neg : Bool)
  | fin (neg : Bool) (m : Nat) (e : Int)
  deriving DecidableEq, Repr

/-- Zero. -/
def Val.zero : Val := .fin false 0 0

/-- Positive one. -/
def Val.one : Val := .fin false 1 0

/-- The value of an integer; an integer zero is +0 (04 R154). -/
def Val.ofInt (x : Int) : Val := .fin (decide (x < 0)) x.natAbs 0

/-- Is it NaN? -/
def Val.isNan : Val → Bool
  | .nan => true | _ => false

/-- Is it finite? -/
def Val.isFin : Val → Bool
  | .fin _ _ _ => true | _ => false

/-- Is it a zero? -/
def Val.isZero : Val → Bool
  | .fin _ m _ => m == 0 | _ => false

/-- Is the sign bit set? -/
def Val.signBit : Val → Bool
  | .nan => false | .inf n => n | .fin n _ _ => n

/-- The value with its sign flipped. -/
def Val.neg : Val → Val
  | .nan => .nan | .inf n => .inf (!n) | .fin n m e => .fin (!n) m e

/-- The value with its sign cleared. -/
def Val.abs : Val → Val
  | .nan => .nan | .inf _ => .inf false | .fin _ m e => .fin false m e

/-- The value times 2^d, exactly (04 R148, R150). -/
def Val.scale (d : Int) : Val → Val
  | .nan => .nan | .inf n => .inf n | .fin n m e => .fin n m (e + d)

/-- The magnitude as an integer at a common exponent not above its own. -/
def alignTo (e0 : Int) (m : Nat) (e : Int) : Nat := m * 2 ^ (e - e0).toNat

/-- The signed integer of a finite value at a common exponent. -/
def signedAt (e0 : Int) (n : Bool) (m : Nat) (e : Int) : Int :=
  if n then -(alignTo e0 m e : Int) else (alignTo e0 m e : Int)

/-- The exact sum. Two zeros of one sign keep it; an exact zero sum of other operands is +0 under every rounding this
device uses in arithmetic (IEEE 754-2019, 6.3). inf - inf is NaN. -/
def Val.add (x y : Val) : Val :=
  match x, y with
  | .nan, _ => .nan
  | _, .nan => .nan
  | .inf a, .inf b => if a = b then .inf a else .nan
  | .inf a, .fin _ _ _ => .inf a
  | .fin _ _ _, .inf b => .inf b
  | .fin a m e, .fin b n f =>
    let e0 := min e f
    let t := signedAt e0 a m e + signedAt e0 b n f
    if t = 0 then .fin (if m = 0 ∧ n = 0 then a && b else false) 0 0 else .fin (decide (t < 0)) t.natAbs e0

/-- The exact product; 0 times an infinity is NaN. -/
def Val.mul (x y : Val) : Val :=
  match x, y with
  | .nan, _ => .nan
  | _, .nan => .nan
  | .inf a, .inf b => .inf (xor a b)
  | .inf a, .fin b n _ => if n = 0 then .nan else .inf (xor a b)
  | .fin a m _, .inf b => if m = 0 then .nan else .inf (xor a b)
  | .fin a m e, .fin b n f => .fin (xor a b) (m * n) (e + f)

/-- The numeric order of two values that are not NaN; zeros of either sign are equal. -/
def Val.lt (x y : Val) : Bool :=
  match x, y with
  | .nan, _ => false
  | _, .nan => false
  | .inf a, .inf b => a && !b
  | .inf a, .fin _ _ _ => a
  | .fin _ _ _, .inf b => !b
  | .fin a m e, .fin b n f =>
    let e0 := min e f
    decide (signedAt e0 a m e < signedAt e0 b n f)

/-- Numeric equality; NaN equals nothing. -/
def Val.eq (x y : Val) : Bool := !x.isNan && !y.isNan && !x.lt y && !y.lt x

/-- floor(log2 |x|) of a nonzero finite value. -/
def Val.floorLog2 : Val → Int
  | .fin _ m e => (log2 m : Int) + e
  | _ => 0

/-- A rounding mode (04 R153). -/
inductive RMode where
  | rne | rtz | rdn | rup
  deriving DecidableEq, Repr

/-- The rounding mode of a 2-bit rmode (04 R153). -/
def RMode.ofCode (c : Nat) : RMode :=
  match c % 4 with
  | 0 => .rne | 1 => .rtz | 2 => .rdn | _ => .rup

/-- Rounds m / 2^sh to an integer under a mode; `neg` is the sign of the value. -/
def roundShift (mode : RMode) (neg : Bool) (m sh : Nat) : Nat :=
  let q := m / 2 ^ sh
  let r := m % 2 ^ sh
  if r = 0 then q
  else
    match mode with
    | .rtz => q
    | .rdn => if neg then q + 1 else q
    | .rup => if neg then q else q + 1
    | .rne => if 2 * r < 2 ^ sh then q else if 2 * r > 2 ^ sh then q + 1 else q + q % 2

/-- The magnitude code of m * 2^e rounded once to a format's precision, the exponent unbounded above (04 R153). -/
def roundCode (f : Fmt) (mode : RMode) (neg : Bool) (m : Nat) (e : Int) : Nat :=
  if m = 0 then 0
  else
    let qmin : Int := 1 - (f.bias : Int) - (f.frac : Int)
    let q := max ((log2 m : Int) + e - (f.frac : Int)) qmin
    let r := if q ≤ e then m * 2 ^ (e - q).toNat else roundShift mode neg m (q - e).toNat
    (q - qmin).toNat * 2 ^ f.frac + r

/-- A code with its sign. -/
def Fmt.signed (f : Fmt) (neg : Bool) (c : Nat) : Nat := c + (if neg then 2 ^ (f.width - 1) else 0)

/-- Does a mode round away from zero for a sign (04 R155)? -/
def RMode.outward (mode : RMode) (neg : Bool) : Bool :=
  match mode with
  | .rne => true | .rtz => false | .rdn => neg | .rup => !neg

/-- The overflow result of 04 R155. -/
def Fmt.overflow (f : Fmt) (mode : RMode) (sat neg : Bool) : Nat :=
  if sat || !mode.outward neg then f.signed neg f.maxCode
  else if f.hasInf then f.signed neg (f.maxCode + 1)
  else if f = .e4m3 then f.nan
  else f.signed neg f.maxCode

/-- Conversion of a value into a floating format (04 R153 to R156). -/
def convF (f : Fmt) (mode : RMode) (sat : Bool) (v : Val) : Nat × Flags :=
  match v with
  | .nan => if f.hasInf || f = .e4m3 then (f.nan, .none) else (0, .ofInv)
  | .inf n =>
    if f.hasInf then (f.signed n (f.maxCode + 1), .none)
    else if f = .e4m3 then (if sat then f.signed n f.maxCode else f.nan, .ofOvf)
    else (f.signed n f.maxCode, .ofOvf)
  | .fin n m e =>
    let c := roundCode f mode n m e
    if c > f.maxCode then (f.overflow mode sat n, .ofOvf) else (f.signed n c, .none)

/-- The least integer of an integer format (04 R152). -/
def Fmt.intMin : Fmt → Int
  | .int32 => -2147483648 | .int16 => -32768 | .int8 => -128 | .int4 => -8 | _ => 0

/-- The greatest integer of an integer format (04 R152). -/
def Fmt.intMax : Fmt → Int
  | .int32 => 2147483647 | .int16 => 32767 | .int8 => 127 | .uint8 => 255 | .int4 => 7 | .uint4 => 15 | _ => 0

/-- Clamp of an integer into an integer format (04 R157). -/
def clampTo (f : Fmt) (x : Int) : Int × Flags :=
  if x < f.intMin then (f.intMin, .ofIsat) else if f.intMax < x then (f.intMax, .ofIsat) else (x, .none)

/-- The value rounded to an integer. -/
def roundInt (mode : RMode) (n : Bool) (m : Nat) (e : Int) : Int :=
  let r := if 0 ≤ e then m * 2 ^ e.toNat else roundShift mode n m (-e).toNat
  if n then -(r : Int) else (r : Int)

/-- Conversion of a value into an integer format (04 R156, R157). -/
def convI (f : Fmt) (mode : RMode) (v : Val) : Int × Flags :=
  match v with
  | .nan => (0, .ofInv)
  | .inf n => (if n then f.intMin else f.intMax, .ofIsat)
  | .fin n m e => clampTo f (roundInt mode n m e)

/-- The value of an element of a floating format; the special encodings of 04 R144. -/
def valF (f : Fmt) (x : Nat) : Val :=
  let n := bit x (f.width - 1)
  let c := x % 2 ^ (f.width - 1)
  let e := c / 2 ^ f.frac
  let p := c % 2 ^ f.frac
  if f.hasInf && decide (c > f.maxCode) then (if c = f.maxCode + 1 then .inf n else .nan)
  else if f = .e4m3 ∧ c = 0x7F then .nan
  else if e = 0 then .fin n p (1 - (f.bias : Int) - (f.frac : Int))
  else .fin n (2 ^ f.frac + p) ((e : Int) - (f.bias : Int) - (f.frac : Int))

/-- The integer of an element of an integer format (04 R152). -/
def valI (f : Fmt) (x : Nat) : Int :=
  match f with
  | .uint8 => (x % 256 : Nat)
  | .uint4 => (x % 16 : Nat)
  | _ => sext f.width x

/-- The value of an element of any format but E8M0. -/
def valOf (f : Fmt) (x : Nat) : Val := if f.isInt then .ofInt (valI f x) else valF f x

/-- An element scaled by an E8M0 byte; 0xFF makes it NaN (04 R147, R148). -/
def mxScale (sc : Nat) (v : Val) : Val := if sc = 0xFF then .nan else v.scale ((sc : Int) - 127)

/-- The pattern of a result in a format: floating formats convert, integer formats clamp (04 R153 to R157). -/
def convTo (f : Fmt) (mode : RMode) (sat : Bool) (v : Val) : Nat × Flags :=
  if f.isInt then
    let r := convI f mode v
    (wrap f.width r.1, r.2)
  else convF f mode sat v

/-- Rounds to binary32, nearest even (04 R163). -/
def toB32 (v : Val) : Nat := (convF .binary32 .rne false v).1

/-- The binary32 value. -/
def ofB32 (x : Nat) : Val := valF .binary32 x

/-- The greater of two magnitudes of finite values. -/
def maxAbs (x y : Val) : Val := if x.abs.lt y.abs then y.abs else x.abs

/-- One block of 32 converted into an MX element format: the scale byte, the codes and each element's flags
(04 R160). -/
def mxBlock (f : Fmt) (mode : RMode) (xs : List Val) : Nat × List (Nat × Flags) :=
  if xs.any (fun v => !v.isFin) then
    (0xFF, xs.map (fun v =>
      match v with
      | .nan => (0, Flags.ofInv)
      | .inf _ => (0, Flags.ofOvf)
      | .fin _ _ _ => (0, Flags.none)))
  else
    let m := xs.foldl maxAbs .zero
    let sc : Nat := if m.isZero then 0x7F else (clampInt (-127) 127 (m.floorLog2 - (f.emax : Int)) + 127).toNat
    (sc, xs.map (fun v => convF f mode true (v.scale (127 - (sc : Int)))))

/-- The row bias the device chooses for an LT10 row (04 R161). -/
def lt10Bias (xs : List Val) : Int :=
  let m := (xs.filter Val.isFin).foldl maxAbs .zero
  if m.isZero then 0 else clampInt (-128) 127 (m.floorLog2 - 8)

/-- A row converted into LT10 under a bias (04 R161). -/
def lt10Row (mode : RMode) (d : Int) (xs : List Val) : List (Nat × Flags) :=
  xs.map (fun v => convF .lt10 mode false (v.scale (-d)))

end Sys2Proof
end

