-- ==== Sys2Proof/Machine/MxaMath.lean ====
section
/-!
DEFINITION. The arithmetic of one MMA on its accumulators: operand layouts, block sums, passes, poison
(03 R105, R110 to R113, R124 to R138).
-/
namespace Sys2Proof

/-- One accumulator element with its poison bit (03 R124). -/
structure AccEl where
  v : BitVec 32
  poison : Bool
  deriving DecidableEq, Repr

/-- +0, or 0, without poison. -/
def AccEl.zero : AccEl := ⟨0, false⟩

/-- An accumulator: its type (none, INT32 or binary32) and its elements by 32 * j + n (03 R124). -/
structure Acc where
  isInt : Option Bool
  el : SMap AccEl
  deriving DecidableEq, Repr

/-- An accumulator at stream start (03 R124). -/
def Acc.start : Acc := ⟨none, []⟩

/-- Element n of result vector j. -/
def Acc.at (a : Acc) (j n : Nat) : AccEl := SMap.get (fun _ => AccEl.zero) a.el (32 * j + n)

/-- The held stationary tile: its format code and its stored bytes (03 R110, R116). -/
structure Held where
  sfmt : BitVec 4
  bytes : List PByte
  deriving DecidableEq, Repr

/-- An operand group (03 R105). -/
inductive Group where
  | f8 | pf | i8 | i4 | h
  deriving DecidableEq, Repr

/-- The group of a pair of formats, if both lie in one row of 03 R105. -/
def groupOf (sf vf : Fmt) : Option Group :=
  let f8 := fun f => decide (f = Fmt.e4m3 ∨ f = Fmt.e5m2)
  let pf := fun f => decide (f = Fmt.e3m2 ∨ f = Fmt.e2m3 ∨ f = Fmt.e2m1)
  let i8 := fun f => decide (f = Fmt.int8 ∨ f = Fmt.uint8)
  let i4 := fun f => decide (f = Fmt.int4 ∨ f = Fmt.uint4)
  let h := fun f => decide (f = Fmt.bfloat16 ∨ f = Fmt.binary16)
  if f8 sf && (f8 vf || decide (vf = Fmt.lt10)) then some .f8
  else if pf sf && pf vf then some .pf
  else if i8 sf && i8 vf then some .i8
  else if i4 sf && i4 vf then some .i4
  else if h sf && h vf then some .h
  else none

/-- Has the group INT32 accumulators? -/
def Group.isInt : Group → Bool
  | .i8 => true | .i4 => true | _ => false

/-- Elements in a PE operand: two in the packed groups. -/
def Group.packed : Group → Bool
  | .pf => true | .i4 => true | _ => false

/-- Bytes in a stored stationary row (03 R110). -/
def rowBytes (g : Group) (f : Fmt) : Nat :=
  match g with
  | .f8 => 32 | .i8 => 32 | .i4 => 32 | .h => 64
  | .pf => if f.width = 6 then 48 else 32

/-- Pitch of the streamed vectors (03 R111). -/
def vecPitch (g : Group) (f : Fmt) : Nat := if f = .lt10 then 40 else rowBytes g f

/-- Bytes of the stationary operand (03 R110). -/
def statBytes (g : Group) (f : Fmt) (cplx : Bool) : Nat := 32 * rowBytes g f * (if cplx then 2 else 1)

/-- Bytes of the streamed operand (03 R111). -/
def vecBytes (g : Group) (f : Fmt) (cplx : Bool) : Nat := 32 * vecPitch g f * (if cplx then 2 else 1)

/-- Bytes of the scale area, 0 when it is not read (03 R109, R112). -/
def scaleBytes (g : Group) (vf : Fmt) (mx : Bool) : Nat :=
  if vf = .lt10 then 32 else if mx then (if g = .pf then 128 else 64) else 0

/-- Passes of an MMA (03 R105). -/
def passesOf (g : Group) (cplx : Bool) : Nat := if cplx then 4 else if g = .h then 3 else 1

/-- Code of element i of a run of packed w-bit elements. -/
def runElem (run : List PByte) (w i : Nat) : Nat := packedElem (leP run) w i

/-- Does element i of a run lie in a poisoned byte? -/
def runPoison (run : List PByte) (w i : Nat) : Bool :=
  anyPoison (slice run (w * i / 8) ((w * i + w - 1) / 8 - w * i / 8 + 1))

/-- The stationary codes of column n in reduction order, and whether any byte that feeds the column is poisoned
(03 R110, R138). -/
def statColumn (g : Group) (f : Fmt) (plane : List PByte) (n : Nat) : List Nat × Bool :=
  let rb := rowBytes g f
  let rows := (List.range 32).map (fun k => slice plane (rb * k) rb)
  if g.packed then
    (rows.flatMap (fun r => [runElem r f.width (2 * n), runElem r f.width (2 * n + 1)]),
     rows.any (fun r => runPoison r f.width (2 * n) || runPoison r f.width (2 * n + 1)))
  else (rows.map (fun r => runElem r f.width n), rows.any (fun r => runPoison r f.width n))

/-- The codes of streamed vector j and whether any of its bytes is poisoned (03 R111, R138). -/
def vecRow (g : Group) (f : Fmt) (plane : List PByte) (j : Nat) : List Nat × Bool :=
  let p := vecPitch g f
  let r := slice plane (p * j) p
  ((List.range (if g.packed then 64 else 32)).map (runElem r f.width), anyPoison r)

/-- The exact block sum of paired operands with its flags (03 R128, R131): each condition of R131 sets its own. -/
def blockSum (xs ys : List Val) : Val × Flags :=
  let ps := List.zipWith Val.mul xs ys
  let nan := xs.any Val.isNan || ys.any Val.isNan
  let inv := (List.zip xs ys).any (fun p => !p.1.isNan && !p.2.isNan && (p.1.mul p.2).isNan) ||
    ps.any (· == Val.inf false) && ps.any (· == Val.inf true)
  if nan || inv then (.nan, ⟨nan, inv, false, false⟩)
  else
    let t := ps.foldl Val.add .zero
    (if t.isZero then .zero else t, .none)

/-- One rounded addition into a binary32 accumulator element (03 R129 to R131). -/
def accAdd (sat : Bool) (a : BitVec 32) (p : Val) : BitVec 32 × Flags :=
  let x := ofB32 a.toNat
  let t := x.add p
  if t.isNan then
    (BitVec.ofNat 32 0x7FC00000, if x.isNan || p.isNan then .none else .ofInv)
  else
    let r := convF .binary32 .rne sat t
    (BitVec.ofNat 32 r.1, r.2)

/-- One clamped addition into an INT32 accumulator element (03 R132). -/
def accAddInt (a : BitVec 32) (p : Int) : BitVec 32 × Flags :=
  let r := clampTo .int32 (a.toInt + p)
  (BitVec.ofInt 32 r.1, r.2)

/-- Integer block sum. -/
def intSum (xs ys : List Int) : Int := (List.zipWith (· * ·) xs ys).foldl (· + ·) 0

/-- A running accumulator element with its flags. -/
abbrev AccRun := BitVec 32 × Flags

/-- Adds a scaled floating block; a scale of 0xFF makes every element NaN before any product (04 R148, 03 R131). -/
def stepBlock (sat negate : Bool) (sc : Val → Val) (xs ys : List Val) (r : AccRun) : AccRun :=
  let p := if (sc Val.one).isNan then (Val.nan, Flags.ofNan) else blockSum xs ys
  let q := sc p.1
  let a := accAdd sat r.1 (if negate then q.neg else q)
  (a.1, (r.2.or p.2).or a.2)

/-- The two scales of a block (03 R129); 0xFF makes the block NaN (03 R131). -/
def twoScales (es ev : Nat) (v : Val) : Val := mxScale ev (mxScale es v)

/-- The floating single-pass update of one element (03 R129). -/
def elemFloat (g : Group) (sat mx : Bool) (es ev : Nat → Nat) (xs ys : List Val) (r : AccRun) : AccRun :=
  if g = .pf ∧ mx then
    let r1 := stepBlock sat false (twoScales (es 0) (ev 0)) (xs.take 32) (ys.take 32) r
    stepBlock sat false (twoScales (es 1) (ev 1)) (xs.drop 32) (ys.drop 32) r1
  else stepBlock sat false (if mx then twoScales (es 0) (ev 0) else id) xs ys r

/-- The signed significand of a finite value and the exponent of its last bit. -/
def sigOf (f : Fmt) (x : Nat) : Int × Int :=
  match valF f x with
  | .fin n m e => (if n then -(m : Int) else (m : Int), e)
  | _ => (0, 0)

/-- High or low piece of a 16-bit operand as an exact value (03 R133). -/
def pieceH (f : Fmt) (high : Bool) (x : Nat) : Val :=
  let k : Nat := if f = .binary16 then 4 else 1
  let se := sigOf f x
  let h := se.1 / ((2 ^ k : Nat) : Int)
  if high then (Val.ofInt h).scale (se.2 + k)
  else (Val.ofInt (se.1 - h * ((2 ^ k : Nat) : Int))).scale se.2

/-- A binary32 chain of products from +0, rounding after each addition (03 R134). -/
def chainH (sat : Bool) (xs ys : List Val) : AccRun :=
  (List.zipWith Val.mul xs ys).foldl
    (fun r p => let a := accAdd sat r.1 p; (a.1, r.2.or a.2)) (0, Flags.none)

/-- The three passes of group H on one element (03 R133, R134). -/
def elemH (sf vf : Fmt) (sat : Bool) (ss vs : List Nat) (r : AccRun) : AccRun :=
  let xs := ss.map (valF sf)
  let ys := vs.map (valF vf)
  if xs.all Val.isFin && ys.all Val.isFin then
    let pass := fun (hs hv : Bool) (r : AccRun) =>
      let c := chainH sat (ss.map (pieceH sf hs)) (vs.map (pieceH vf hv))
      let a := accAdd sat r.1 (ofB32 c.1.toNat)
      (a.1, (r.2.or c.2).or a.2)
    pass true true (pass true false (pass false true r))
  else stepBlock sat false id xs ys r

/-- The operands of an MMA after the checks of 03 R108. -/
structure MmaIn where
  g : Group
  sf : Fmt
  vf : Fmt
  cplx : Bool
  mx : Bool
  sat : Bool
  zero : Bool
  stat : List PByte
  vec : List PByte
  scale : List PByte
  deriving DecidableEq, Repr

/-- The byte at an offset of the scale area. -/
def MmaIn.sc (m : MmaIn) (i : Nat) : Nat := leP (slice m.scale i 1)

/-- Is the scale byte poisoned? -/
def MmaIn.scP (m : MmaIn) (i : Nat) : Bool := anyPoison (slice m.scale i 1)

/-- The stationary plane p. -/
def MmaIn.splane (m : MmaIn) (p : Nat) : List PByte :=
  slice m.stat (p * (32 * rowBytes m.g m.sf)) (32 * rowBytes m.g m.sf)

/-- The streamed plane p. -/
def MmaIn.vplane (m : MmaIn) (p : Nat) : List PByte :=
  slice m.vec (p * (32 * vecPitch m.g m.vf)) (32 * vecPitch m.g m.vf)

/-- Offset of stationary scale b of column n. -/
def MmaIn.es (m : MmaIn) (n b : Nat) : Nat := if m.g = .pf then 2 * n + b else n

/-- Offset of streamed scale b of vector j. -/
def MmaIn.ev (m : MmaIn) (j b : Nat) : Nat := if m.g = .pf then 64 + 2 * j + b else 32 + j

/-- Values of streamed vector j, its row bias applied for LT10 (03 R112, 04 R150). -/
def MmaIn.vecVals (m : MmaIn) (p j : Nat) : List Val :=
  let d := if m.vf = .lt10 then sext 8 (m.sc j) else 0
  ((vecRow m.g m.vf (m.vplane p) j).1).map (fun x => (valF m.vf x).scale d)

/-- Does poison reach element (j, n) from the operands and scales (03 R138)? `cs` is the column's poison. -/
def MmaIn.poisonAt (m : MmaIn) (cs : Bool) (j n : Nat) : Bool :=
  cs || (List.range (if m.cplx then 2 else 1)).any (fun p => (vecRow m.g m.vf (m.vplane p) j).2) ||
  (decide (m.vf = .lt10) && m.scP j) ||
  (m.mx && (List.range (if m.g = .pf then 2 else 1)).any (fun b => m.scP (m.es n b) || m.scP (m.ev j b)))

/-- What an MMA leaves of an element of acc0 (and, for CX, of acc1): value and flags, poison apart. -/
def MmaIn.elem (m : MmaIn) (j n : Nat) (a0 a1 : BitVec 32) : AccRun × AccRun :=
  let r0 : AccRun := (a0, .none)
  let r1 : AccRun := (a1, .none)
  let col := fun p => (statColumn m.g m.sf (m.splane p) n).1
  let row := fun p => (vecRow m.g m.vf (m.vplane p) j).1
  if m.cplx then
    if m.g.isInt then
      let sum := fun ps pv => intSum ((col ps).map (valI m.sf)) ((row pv).map (valI m.vf))
      let add := fun (p : Int) (r : AccRun) => let a := accAddInt r.1 p; (a.1, r.2.or a.2)
      (add (-(sum 1 1)) (add (sum 0 0) r0), add (sum 1 0) (add (sum 0 1) r1))
    else
      let sc := if m.mx then twoScales (m.sc (m.es n 0)) (m.sc (m.ev j 0)) else id
      let st := fun (neg : Bool) ps pv (r : AccRun) =>
        stepBlock m.sat neg sc ((col ps).map (valF m.sf)) (m.vecVals pv j) r
      (st true 1 1 (st false 0 0 r0), st false 1 0 (st false 0 1 r1))
  else
    if m.g.isInt then
      let a := accAddInt a0 (intSum ((col 0).map (valI m.sf)) ((row 0).map (valI m.vf)))
      (a, r1)
    else if m.g = .h then (elemH m.sf m.vf m.sat (col 0) (row 0) r0, r1)
    else
      (elemFloat m.g m.sat m.mx (fun b => m.sc (m.es n b)) (fun b => m.sc (m.ev j b))
        ((col 0).map (valF m.sf)) (m.vecVals 0 j) r0, r1)

/-- The start value of an element: zero = 1 clears value and poison first (03 R125). -/
def MmaIn.base (m : MmaIn) (a : Acc) (j n : Nat) : AccEl := if m.zero then .zero else a.at j n

/-- The result of an MMA on its accumulators. -/
structure MmaOut where
  a0 : Acc
  a1 : Acc
  flags : Flags
  poison : Bool
  deriving DecidableEq, Repr

/-- The accumulator rows and flags of an MMA. `a0` is the accumulator the MMA names (acc0 for CX), `a1` is acc1 for CX.
The value of a poisoned element is free, and so are the flags it raises (03 R138). -/
def MmaIn.run (m : MmaIn) (a0 a1 : Acc) (fresh : Nat) : MmaOut :=
  let cells := (List.range 32).flatMap (fun n =>
    let cs := (List.range (if m.cplx then 2 else 1)).any (fun p => (statColumn m.g m.sf (m.splane p) n).2)
    (List.range 32).map (fun j =>
      let b0 := m.base a0 j n
      let b1 := m.base a1 j n
      let e := m.elem j n b0.v b1.v
      let ps := m.poisonAt cs j n
      let mk := fun (b : AccEl) (r : AccRun) (o : Nat) =>
        if b.poison || ps then
          let i := fresh * 4096 + o + 32 * j + n
          (AccEl.mk (Config.freeLane i) true,
           let f := Config.freeFlags i
           Flags.mk (f.getLsbD 0) (f.getLsbD 1) (f.getLsbD 2) (f.getLsbD 3))
        else (AccEl.mk r.1 false, r.2)
      (32 * j + n, mk b0 e.1 0, mk b1 e.2 1024)))
  let put := fun (el : SMap AccEl) (k : Nat) (v : AccEl) => SMap.put (fun _ => AccEl.zero) k v el
  let t := some m.g.isInt
  { a0 := ⟨t, cells.foldl (fun el c => put el c.1 c.2.1.1) a0.el⟩
    a1 := if m.cplx then ⟨t, cells.foldl (fun el c => put el c.1 c.2.2.1) a1.el⟩ else a1
    flags := cells.foldl (fun f c => (f.or c.2.1.2).or (if m.cplx then c.2.2.2 else .none)) .none
    poison := cells.any (fun c => c.2.1.1.poison || (m.cplx && c.2.2.1.poison)) }

/-- Row j of an accumulator as the 128 bytes of a flush (03 R113, R139). -/
def Acc.rowBytes (a : Acc) (j : Nat) : List PByte :=
  (List.range 32).flatMap (fun n =>
    let e := a.at j n
    (toLE 4 e.v.toNat).map (fun b => (b, e.poison)))

end Sys2Proof
end

