-- ==== Sys2Proof/Machine/Regs.lean ====
section
/-!
DEFINITION. The register map of BAR0: every register's block, offset, width and fields with their type codes and
reset values, as the register section of each chapter gives them (02 R103, 03 R140, 05 R207, 06 R250, 07 R279,
08 R324 R325, 09 R358, 10 R402 R403, 11 R423, 12 R472-R475, 13 R508 R509, 14 R530, 15 R563-R565, 16 R592, 17 R606),
and the name of every field. Registers that show other state (address generators, peek rows, windows, directory
entries, latch validity, broken sensors, measurements, the retained-SRAM and log windows) are views: Machine/Bar.lean.
-/
namespace Sys2Proof

/-- Field type codes (00 R13). Bits no field covers are RSV. -/
inductive FieldTy where
  | ro | rw | rw1c | rw1s | wo
  deriving DecidableEq, Repr

/-- One field of a register map: bits [hi:lo], its type code and its reset value. -/
structure FieldDesc where
  hi : Nat
  lo : Nat
  ty : FieldTy
  reset : Nat
  deriving DecidableEq, Repr

/-- One register of a block: `count` copies, `stride` bytes apart, from offset `off`, of `width` bits. -/
structure RegDesc where
  off : Nat
  stride : Nat
  count : Nat
  width : Nat
  fields : List FieldDesc
  deriving DecidableEq, Repr

/-- The register blocks (12 R427, R428). -/
inductive RegBlock where
  | glb | hif | cmp | chn | pfx | ptm | rst | boot | sec | lic | ras | dbg | tel | dlk
  | core | mxa | tle | kvx | sq | vlt | bku | sky | opt | ptmt
  deriving DecidableEq, Repr

/-- A field of a register in BAR0: the register's offset and the field's bits. -/
structure Fld where
  off : Nat
  hi : Nat
  lo : Nat
  deriving DecidableEq, Repr

/-- Offset of a tower window in BAR0 (12 R427). -/
def towerBase (t : Nat) : Nat := 0x01000000 + t * 0x01000000

/-- Offset of a site window in BAR0, by package site index (12 R428, 01 R29). -/
def siteBase (i : Nat) : Nat := towerBase (i / 576) + (i % 576) * 0x4000

/-- The CORE block (02 R103). -/
def coreRegs : List RegDesc := [
  ⟨0x0, 0x0, 1, 32, [⟨4, 0, .ro, 0⟩, ⟨9, 5, .ro, 0⟩, ⟨11, 10, .ro, 0⟩, ⟨12, 12, .ro, 0⟩]⟩,  -- CORE_ID
  ⟨0x8, 0x0, 1, 32, [⟨0, 0, .wo, 0⟩, ⟨1, 1, .wo, 0⟩, ⟨2, 2, .wo, 0⟩, ⟨3, 3, .rw, 0⟩, ⟨4, 4, .rw, 0⟩, ⟨5, 5, .rw, 0⟩]⟩,  -- CORE_CTRL
  ⟨0x10, 0x0, 1, 32, [⟨2, 0, .ro, 1⟩, ⟨10, 3, .ro, 0⟩, ⟨11, 11, .ro, 0⟩]⟩,  -- CORE_STATUS
  ⟨0x18, 0x0, 1, 32, [⟨28, 7, .rw, 0⟩]⟩,  -- CORE_STREAM_BASE
  ⟨0x1C, 0x0, 1, 32, [⟨28, 4, .rw, 0⟩]⟩,  -- CORE_STREAM_LEN
  ⟨0x20, 0x0, 1, 32, [⟨28, 0, .ro, 0⟩]⟩,  -- CORE_PC
  ⟨0x28, 0x0, 1, 64, [⟨47, 0, .ro, 0⟩]⟩,  -- CORE_RETIRED
  ⟨0x30, 0x0, 1, 64, [⟨47, 0, .rw, 0⟩]⟩,  -- CORE_BRK_COUNT
  ⟨0x38, 0x0, 1, 32, [⟨15, 0, .rw, 0⟩, ⟨31, 16, .rw, 0⟩]⟩,  -- CORE_BRK_TAG
  ⟨0x40, 0x0, 1, 32, [⟨7, 0, .ro, 0⟩, ⟨11, 8, .ro, 0⟩, ⟨27, 12, .ro, 0⟩]⟩,  -- CORE_FAULT_STATUS
  ⟨0x48, 0x0, 1, 64, [⟨63, 0, .ro, 0⟩]⟩,  -- CORE_FAULT_ADDR
  ⟨0x50, 0x0, 1, 64, [⟨31, 0, .ro, 0⟩, ⟨33, 32, .ro, 0⟩, ⟨35, 34, .ro, 0⟩, ⟨63, 36, .ro, 0⟩]⟩,  -- CORE_FAULT_INFO
  ⟨0x58, 0x0, 1, 32, [⟨15, 0, .ro, 0⟩, ⟨31, 16, .ro, 0⟩]⟩,  -- CORE_WAIT_STATE
  ⟨0x60, 0x0, 1, 32, [⟨15, 0, .rw1c, 0⟩, ⟨23, 16, .ro, 0⟩, ⟨31, 24, .ro, 0⟩]⟩,  -- CORE_SOFT_ERR
  ⟨0x68, 0x0, 1, 32, [⟨23, 0, .ro, 0⟩, ⟨31, 24, .ro, 0⟩]⟩  -- CORE_IC_STAT
]

/-- The MXA block (03 R140). -/
def mxaRegs : List RegDesc := [
  ⟨0x0, 0x0, 1, 32, [⟨0, 0, .rw, 1⟩]⟩,  -- MXA_CTRL
  ⟨0x4, 0x0, 1, 32, [⟨6, 0, .rw, 64⟩, ⟨15, 8, .rw, 0⟩]⟩,  -- MXA_FILLER
  ⟨0x8, 0x0, 1, 32, [⟨1, 0, .ro, 0⟩, ⟨8, 8, .rw1c, 0⟩, ⟨9, 9, .rw1c, 0⟩, ⟨10, 10, .rw1c, 0⟩, ⟨11, 11, .rw1c, 0⟩, ⟨12, 12, .rw1c, 0⟩, ⟨19, 16, .ro, 0⟩]⟩,  -- MXA_STATUS
  ⟨0xC, 0x0, 1, 32, [⟨0, 0, .ro, 0⟩, ⟨7, 4, .ro, 0⟩, ⟨8, 8, .ro, 0⟩]⟩,  -- MXA_HELD
  ⟨0x10, 0x0, 1, 32, [⟨7, 0, .ro, 0⟩, ⟨23, 8, .ro, 0⟩]⟩,  -- MXA_LAST
  ⟨0x18, 0x0, 1, 64, [⟨47, 0, .ro, 0⟩]⟩,  -- MXA_CNT_STEP
  ⟨0x20, 0x0, 1, 64, [⟨47, 0, .ro, 0⟩]⟩,  -- MXA_CNT_FILLER
  ⟨0x28, 0x0, 1, 64, [⟨20, 0, .ro, 0⟩, ⟨41, 21, .ro, 0⟩, ⟨62, 42, .ro, 0⟩]⟩  -- MXA_CNT_FREEZE
]

/-- The TLE block (05 R207). -/
def tleRegs : List RegDesc := [
  ⟨0x0, 0x0, 1, 32, [⟨0, 0, .rw1c, 0⟩, ⟨1, 1, .rw1c, 0⟩, ⟨2, 2, .rw1c, 0⟩, ⟨3, 3, .rw1c, 0⟩, ⟨4, 4, .rw1c, 0⟩, ⟨12, 8, .ro, 0⟩, ⟨16, 16, .ro, 0⟩]⟩,  -- TLE_STATUS
  ⟨0x4, 0x0, 1, 32, [⟨7, 0, .ro, 0⟩, ⟨23, 8, .ro, 0⟩, ⟨31, 24, .ro, 0⟩]⟩,  -- TLE_LAST
  ⟨0x8, 0x0, 1, 32, [⟨7, 0, .ro, 0⟩]⟩,  -- TLE_KPOISON
  ⟨0x10, 0x0, 1, 64, [⟨47, 0, .ro, 0⟩]⟩,  -- TLE_CNT_LANE
  ⟨0x18, 0x0, 1, 64, [⟨47, 0, .ro, 0⟩]⟩,  -- TLE_CNT_XCN
  ⟨0x20, 0x0, 1, 64, [⟨47, 0, .ro, 0⟩]⟩,  -- TLE_CNT_BUSY
  ⟨0x40, 0x0, 1, 32, [⟨3, 0, .rw, 0⟩, ⟨4, 4, .rw, 0⟩, ⟨9, 5, .rw, 0⟩]⟩,  -- TLE_PEEK_SEL
  ⟨0x100, 0x0, 1, 32, [⟨31, 0, .ro, 0⟩]⟩  -- TLE_PEEK_POISON
]

/-- The VLT block (06 R250). -/
def vltRegs : List RegDesc := [
  ⟨0x0, 0x0, 1, 32, [⟨11, 0, .ro, 0⟩, ⟨12, 12, .ro, 0⟩]⟩,  -- VLT_ID
  ⟨0x8, 0x0, 1, 32, [⟨0, 0, .wo, 0⟩, ⟨1, 1, .wo, 0⟩, ⟨2, 2, .wo, 0⟩, ⟨3, 3, .rw, 0⟩, ⟨4, 4, .rw, 0⟩, ⟨5, 5, .rw, 0⟩, ⟨6, 6, .wo, 0⟩]⟩,  -- VLT_CTRL
  ⟨0xC, 0x0, 1, 32, [⟨1, 0, .ro, 0⟩, ⟨2, 2, .ro, 0⟩, ⟨3, 3, .ro, 0⟩, ⟨4, 4, .rw1c, 0⟩, ⟨5, 5, .rw1c, 0⟩, ⟨6, 6, .ro, 0⟩, ⟨8, 7, .ro, 1⟩, ⟨15, 9, .ro, 0⟩]⟩,  -- VLT_STATUS
  ⟨0x10, 0x0, 1, 32, [⟨5, 0, .rw, 32⟩]⟩,  -- VLT_MAP
  ⟨0x14, 0x0, 1, 32, [⟨3, 0, .rw, 8⟩, ⟨7, 4, .rw, 4⟩, ⟨11, 8, .rw, 4⟩, ⟨15, 12, .rw, 1⟩]⟩,  -- VLT_ARB
  ⟨0x18, 0x0, 1, 32, [⟨15, 0, .ro, 1000⟩, ⟨23, 16, .ro, 0⟩, ⟨26, 24, .ro, 0⟩]⟩,  -- VLT_REFRESH
  ⟨0x1C, 0x0, 1, 32, [⟨7, 0, .rw, 8⟩]⟩,  -- VLT_ECC_CTRL
  ⟨0x20, 0x0, 1, 64, [⟨63, 0, .rw, 0⟩]⟩,  -- VLT_INIT_PATTERN
  ⟨0x28, 0x0, 1, 32, [⟨28, 7, .rw, 0⟩]⟩,  -- VLT_SCRUB_BASE
  ⟨0x2C, 0x0, 1, 32, [⟨29, 7, .rw, 0⟩]⟩,  -- VLT_SCRUB_LEN
  ⟨0x30, 0x0, 1, 64, [⟨23, 0, .rw1c, 0⟩, ⟨47, 24, .rw1c, 0⟩, ⟨63, 48, .rw1c, 0⟩]⟩,  -- VLT_ECC_CNT
  ⟨0x38, 0x0, 1, 64, [⟨28, 0, .ro, 0⟩, ⟨35, 29, .ro, 0⟩, ⟨36, 36, .ro, 0⟩, ⟨38, 37, .ro, 0⟩, ⟨39, 39, .rw1c, 0⟩]⟩,  -- VLT_ECC_FIRST
  ⟨0x40, 0x0, 1, 32, [⟨28, 3, .rw, 0⟩, ⟨29, 29, .rw, 0⟩, ⟨30, 30, .wo, 0⟩, ⟨31, 31, .ro, 0⟩]⟩,  -- VLT_RAW_CTRL
  ⟨0x48, 0x0, 1, 64, [⟨63, 0, .rw, 0⟩]⟩,  -- VLT_RAW_DATA
  ⟨0x50, 0x0, 1, 32, [⟨7, 0, .rw, 0⟩]⟩,  -- VLT_RAW_CHECK
  ⟨0x58, 0x0, 1, 32, [⟨28, 10, .wo, 0⟩]⟩,  -- VLT_RETIRE
  ⟨0x60, 0x0, 1, 64, [⟨47, 0, .ro, 0⟩]⟩,  -- VLT_CNT_RD
  ⟨0x68, 0x0, 1, 64, [⟨47, 0, .ro, 0⟩]⟩,  -- VLT_CNT_WR
  ⟨0x70, 0x0, 1, 64, [⟨47, 0, .ro, 0⟩]⟩,  -- VLT_CNT_ACT
  ⟨0x78, 0x0, 1, 64, [⟨47, 0, .ro, 0⟩]⟩  -- VLT_CNT_HELD
]

/-- The BKU block (07 R279). -/
def bkuRegs : List RegDesc := [
  ⟨0x0, 0x0, 1, 32, [⟨5, 0, .rw, 16⟩]⟩,  -- BKU_CTRL
  ⟨0x4, 0x0, 1, 32, [⟨5, 0, .ro, 0⟩, ⟨10, 6, .ro, 0⟩, ⟨11, 11, .ro, 0⟩, ⟨12, 12, .ro, 0⟩, ⟨13, 13, .ro, 0⟩]⟩,  -- BKU_STATUS
  ⟨0x8, 0x0, 1, 32, [⟨15, 0, .ro, 0xBB8⟩, ⟨31, 16, .ro, 0⟩]⟩,  -- BKU_BUDGET
  ⟨0xC, 0x0, 1, 32, [⟨7, 0, .ro, 0⟩, ⟨23, 8, .ro, 0⟩, ⟨31, 24, .ro, 0⟩]⟩,  -- BKU_LAST
  ⟨0x10, 0x0, 1, 32, [⟨0, 0, .rw, 0⟩]⟩,  -- BKU_INJECT
  ⟨0x18, 0x0, 1, 64, [⟨47, 0, .ro, 0⟩]⟩,  -- BKU_CNT_CMD
  ⟨0x20, 0x0, 1, 64, [⟨47, 0, .ro, 0⟩]⟩,  -- BKU_CNT_BUSY
  ⟨0x28, 0x0, 1, 64, [⟨47, 0, .ro, 0⟩]⟩,  -- BKU_CNT_WAIT
  ⟨0x30, 0x0, 1, 32, [⟨15, 0, .rw1c, 0⟩, ⟨31, 16, .rw1c, 0⟩]⟩  -- BKU_CNT_SPECIAL
]

/-- The KVX block (08 R324). -/
def kvxRegs : List RegDesc := [
  ⟨0x0, 0x0, 1, 32, [⟨15, 0, .rw, 64⟩]⟩,  -- KVX_CTRL
  ⟨0x4, 0x0, 1, 32, [⟨2, 0, .ro, 0⟩, ⟨6, 3, .ro, 0⟩, ⟨7, 7, .ro, 0⟩]⟩,  -- KVX_STATUS
  ⟨0x8, 0x0, 1, 32, [⟨7, 0, .ro, 0⟩, ⟨23, 8, .ro, 0⟩, ⟨31, 24, .ro, 0⟩]⟩,  -- KVX_LAST
  ⟨0x10, 0x0, 1, 64, [⟨47, 0, .ro, 0⟩]⟩,  -- KVX_CNT_WALK
  ⟨0x18, 0x0, 1, 64, [⟨47, 0, .ro, 0⟩]⟩,  -- KVX_CNT_SKIP
  ⟨0x20, 0x0, 1, 32, [⟨15, 0, .rw1c, 0⟩, ⟨31, 16, .rw1c, 0⟩]⟩,  -- KVX_CNT_ALLOC
  ⟨0x28, 0x0, 1, 64, [⟨0, 0, .rw1c, 0⟩, ⟨63, 17, .ro, 0⟩]⟩  -- KVX_LOST
]

/-- The PFX block (08 R325). -/
def pfxRegs : List RegDesc := [
  ⟨0x0, 0x0, 1, 32, [⟨0, 0, .rw, 1⟩]⟩,  -- PFX_CTRL
  ⟨0x4, 0x0, 1, 32, [⟨18, 0, .ro, 0⟩, ⟨19, 19, .ro, 0⟩, ⟨20, 20, .ro, 0⟩, ⟨27, 21, .ro, 0⟩]⟩,  -- PFX_STATUS
  ⟨0x10, 0x0, 1, 64, [⟨47, 0, .ro, 0⟩]⟩,  -- PFX_CNT_LOOKUP
  ⟨0x18, 0x0, 1, 64, [⟨23, 0, .rw1c, 0⟩, ⟨39, 24, .rw1c, 0⟩, ⟨55, 40, .rw1c, 0⟩, ⟨63, 56, .rw1c, 0⟩]⟩,  -- PFX_CNT_RESULT
  ⟨0x40, 0x0, 1, 32, [⟨17, 0, .rw, 0⟩]⟩,  -- PFX_ENTRY_SEL
  ⟨0x80, 0x0, 1, 32, [⟨17, 0, .ro, 0⟩, ⟨30, 30, .wo, 0⟩, ⟨31, 31, .ro, 0⟩]⟩,  -- PFX_RECLAIM
  ⟨0x88, 0x0, 1, 32, [⟨0, 0, .rw, 0⟩]⟩  -- PFX_INJECT
]

/-- The SQ block (09 R358). -/
def sqRegs : List RegDesc := [
  ⟨0x0, 0x0, 1, 32, [⟨0, 0, .rw, 0⟩, ⟨8, 1, .rw, 0⟩]⟩,  -- SQ_CTRL
  ⟨0x4, 0x0, 1, 32, [⟨23, 0, .rw, 1000⟩]⟩,  -- SQ_STALL
  ⟨0x8, 0x0, 1, 32, [⟨1, 0, .ro, 0⟩, ⟨2, 2, .ro, 0⟩, ⟨3, 3, .ro, 0⟩, ⟨11, 4, .ro, 0⟩, ⟨17, 12, .ro, 0⟩, ⟨18, 18, .ro, 0⟩]⟩,  -- SQ_STATUS
  ⟨0xC, 0x0, 1, 32, [⟨17, 0, .ro, 0⟩]⟩,  -- SQ_FILL
  ⟨0x10, 0x0, 1, 32, [⟨7, 0, .ro, 0⟩, ⟨23, 8, .ro, 0⟩, ⟨31, 24, .ro, 0⟩]⟩,  -- SQ_LAST
  ⟨0x18, 0x0, 1, 64, [⟨47, 0, .ro, 0⟩]⟩,  -- SQ_CNT_IN
  ⟨0x20, 0x0, 1, 64, [⟨47, 0, .ro, 0⟩]⟩,  -- SQ_CNT_BYTES
  ⟨0x28, 0x0, 1, 64, [⟨47, 0, .ro, 0⟩]⟩,  -- SQ_CNT_STALL
  ⟨0x30, 0x0, 1, 32, [⟨15, 0, .rw1c, 0⟩, ⟨23, 16, .rw1c, 0⟩, ⟨31, 24, .rw1c, 0⟩]⟩,  -- SQ_ERR
  ⟨0x38, 0x0, 1, 32, [⟨0, 0, .rw, 0⟩]⟩,  -- SQ_INJECT
  ⟨0x40, 0x0, 1, 64, [⟨63, 0, .ro, 0⟩]⟩  -- SQ_HEAD
]

/-- The SKY block (10 R402). -/
def skyRegs : List RegDesc := [
  ⟨0x0, 0x0, 1, 32, [⟨19, 0, .rw, 0⟩]⟩,  -- SKY_NODE
  ⟨0x4, 0x0, 1, 32, [⟨0, 0, .rw, 0⟩, ⟨1, 1, .rw, 0⟩]⟩,  -- SKY_CTRL
  ⟨0x8, 0x0, 1, 32, [⟨0, 0, .ro, 0⟩, ⟨1, 1, .rw1c, 0⟩, ⟨2, 2, .ro, 0⟩, ⟨3, 3, .ro, 0⟩, ⟨4, 4, .ro, 0⟩, ⟨13, 8, .ro, 0⟩]⟩,  -- SKY_STATUS
  ⟨0xC, 0x0, 1, 32, [⟨15, 0, .rw, 1000⟩, ⟨23, 16, .rw, 5⟩]⟩,  -- SKY_E2E
  ⟨0x10, 0x0, 1, 64, [⟨7, 0, .rw, 64⟩, ⟨15, 8, .rw, 16⟩, ⟨23, 16, .rw, 64⟩, ⟨31, 24, .rw, 16⟩, ⟨39, 32, .rw, 56⟩, ⟨47, 40, .rw, 16⟩, ⟨55, 48, .rw, 12⟩, ⟨63, 56, .rw, 12⟩]⟩,  -- SKY_CREDIT
  ⟨0x18, 0x0, 1, 32, [⟨3, 0, .rw, 4⟩, ⟨7, 4, .rw, 4⟩, ⟨11, 8, .rw, 4⟩, ⟨15, 12, .rw, 1⟩]⟩,  -- SKY_ARB
  ⟨0x1C, 0x0, 1, 32, [⟨0, 0, .rw, 0⟩, ⟨1, 1, .rw, 0⟩]⟩,  -- SKY_INJECT
  ⟨0x20, 0x0, 1, 64, [⟨47, 0, .ro, 0⟩]⟩,  -- SKY_CNT_TX
  ⟨0x28, 0x0, 1, 64, [⟨47, 0, .ro, 0⟩]⟩,  -- SKY_CNT_RX
  ⟨0x30, 0x0, 1, 32, [⟨15, 0, .rw1c, 0⟩, ⟨31, 16, .rw1c, 0⟩]⟩,  -- SKY_CNT_LOST
  ⟨0x38, 0x0, 1, 64, [⟨31, 0, .ro, 0⟩, ⟨35, 32, .ro, 0⟩, ⟨37, 36, .ro, 0⟩, ⟨43, 38, .ro, 0⟩, ⟨48, 44, .ro, 0⟩, ⟨63, 63, .rw1c, 0⟩]⟩,  -- SKY_LOST_FIRST
  ⟨0x1000, 0x8, 256, 64, [⟨0, 0, .rw, 0⟩, ⟨2, 1, .rw, 0⟩, ⟨3, 3, .rw, 0⟩, ⟨47, 16, .rw, 0⟩, ⟨63, 56, .ro, 0⟩]⟩,  -- SKY_ROUTE_M
  ⟨0x2000, 0x8, 4096, 64, [⟨0, 0, .rw, 0⟩, ⟨2, 1, .rw, 0⟩, ⟨3, 3, .rw, 0⟩, ⟨47, 16, .rw, 0⟩, ⟨63, 56, .ro, 0⟩]⟩  -- SKY_ROUTE_G
]

/-- The OPT block (10 R403). -/
def optRegs : List RegDesc := [
  ⟨0x0, 0x20, 32, 32, [⟨0, 0, .rw, 1⟩, ⟨1, 1, .wo, 0⟩]⟩,  -- OPT_PORT_CTRL
  ⟨0x8, 0x20, 32, 64, [⟨2, 0, .ro, 1⟩, ⟨27, 8, .ro, 0⟩, ⟨34, 28, .ro, 0⟩, ⟨51, 36, .ro, 0⟩, ⟨52, 52, .rw1c, 0⟩]⟩,  -- OPT_PORT_STATUS
  ⟨0x10, 0x20, 32, 64, [⟨23, 0, .rw1c, 0⟩, ⟨39, 24, .rw1c, 0⟩, ⟨47, 40, .rw1c, 0⟩]⟩,  -- OPT_PORT_ERR
  ⟨0x400, 0x4, 4, 32, [⟨7, 0, .ro, 0⟩, ⟨15, 8, .ro, 0⟩, ⟨16, 16, .ro, 0⟩, ⟨17, 17, .ro, 0⟩]⟩,  -- OPT_LASER
  ⟨0x420, 0x0, 1, 32, [⟨4, 0, .rw, 0⟩, ⟨5, 5, .rw, 0⟩]⟩  -- OPT_INJECT
]

/-- The DLK block (11 R423). -/
def dlkRegs : List RegDesc := [
  ⟨0x0, 0x0, 1, 32, [⟨0, 0, .rw, 1⟩]⟩,  -- DLK_CTRL
  ⟨0x4, 0x0, 1, 32, [⟨7, 0, .ro, 0⟩, ⟨8, 8, .ro, 0⟩, ⟨9, 9, .ro, 0⟩, ⟨10, 10, .rw1c, 0⟩, ⟨11, 11, .rw1c, 0⟩]⟩,  -- DLK_STATUS
  ⟨0x10, 0x4, 5, 32, [⟨2, 0, .ro, 0⟩, ⟨3, 3, .ro, 0⟩, ⟨4, 4, .ro, 0⟩, ⟨15, 8, .ro, 0⟩]⟩,  -- DLK_DIE_ID
  ⟨0x40, 0x4, 5, 32, [⟨14, 0, .ro, 0⟩]⟩,  -- DLK_ROUTE
  ⟨0x100, 0x40, 8, 32, [⟨0, 0, .wo, 0⟩, ⟨1, 1, .rw, 0⟩]⟩,  -- DLK_LINK_CTRL
  ⟨0x108, 0x40, 8, 64, [⟨2, 0, .ro, 0⟩, ⟨6, 3, .ro, 0⟩, ⟨7, 7, .ro, 0⟩, ⟨10, 8, .ro, 0⟩, ⟨17, 12, .ro, 0⟩, ⟨18, 18, .rw1c, 0⟩, ⟨39, 32, .ro, 64⟩]⟩,  -- DLK_LINK_STATUS
  ⟨0x110, 0x40, 8, 64, [⟨7, 0, .ro, 0⟩, ⟨15, 8, .ro, 0⟩, ⟨16, 16, .ro, 0⟩, ⟨17, 17, .ro, 0⟩, ⟨18, 18, .ro, 0⟩, ⟨19, 19, .ro, 0⟩, ⟨20, 20, .ro, 0⟩, ⟨41, 32, .ro, 0⟩]⟩,  -- DLK_LINK_CAP
  ⟨0x118, 0x40, 8, 64, [⟨23, 0, .rw1c, 0⟩, ⟨39, 24, .rw1c, 0⟩, ⟨47, 40, .rw1c, 0⟩, ⟨63, 48, .rw1c, 0⟩]⟩,  -- DLK_LINK_ERR
  ⟨0x120, 0x40, 8, 32, [⟨15, 0, .ro, 0⟩, ⟨23, 16, .ro, 0⟩]⟩,  -- DLK_LANE_MAP
  ⟨0x128, 0x40, 8, 32, [⟨0, 0, .rw, 0⟩, ⟨1, 1, .rw, 0⟩, ⟨4, 2, .rw, 0⟩]⟩  -- DLK_INJECT
]

/-- The GLB block (12 R472). -/
def glbRegs : List RegDesc := [
  ⟨0x0, 0x0, 1, 32, [⟨15, 0, .ro, 0x744⟩, ⟨19, 16, .ro, 1⟩, ⟨23, 20, .ro, 0⟩]⟩,  -- GLB_ID
  ⟨0x8, 0x0, 1, 64, [⟨63, 0, .ro, 0⟩]⟩,  -- GLB_SERIAL
  ⟨0x10, 0x0, 1, 32, [⟨2, 0, .ro, 0⟩, ⟨15, 8, .ro, 0⟩, ⟨16, 16, .ro, 0⟩, ⟨17, 17, .ro, 0⟩]⟩,  -- GLB_STATE
  ⟨0x14, 0x0, 1, 32, [⟨31, 0, .ro, 0⟩]⟩,  -- GLB_HEARTBEAT
  ⟨0x18, 0x0, 1, 64, [⟨63, 0, .ro, 0⟩]⟩,  -- GLB_TICK
  ⟨0x20, 0x0, 1, 32, [⟨15, 0, .ro, 0⟩, ⟨31, 16, .ro, 0x7D0⟩]⟩,  -- GLB_POWER
  ⟨0x24, 0x0, 1, 32, [⟨7, 0, .ro, 0⟩, ⟨15, 8, .ro, 0⟩, ⟨23, 16, .ro, 0⟩]⟩,  -- GLB_TEMP
  ⟨0x28, 0x0, 1, 32, [⟨0, 0, .rw1c, 0⟩, ⟨1, 1, .ro, 0⟩, ⟨2, 2, .ro, 0⟩]⟩  -- GLB_ERR
]

/-- The HIF block (12 R473). -/
def hifRegs : List RegDesc := [
  ⟨0x0, 0x0, 1, 32, [⟨4, 0, .ro, 0⟩, ⟨7, 5, .ro, 0⟩, ⟨8, 8, .ro, 1⟩, ⟨9, 9, .ro, 0⟩]⟩,  -- HIF_LINK
  ⟨0x4, 0x0, 1, 32, [⟨13, 0, .rw, 1000⟩]⟩,  -- HIF_CTRL
  ⟨0x8, 0x0, 1, 64, [⟨11, 0, .rw1c, 0⟩, ⟨23, 12, .rw1c, 0⟩, ⟨35, 24, .rw1c, 0⟩, ⟨47, 36, .rw1c, 0⟩, ⟨59, 48, .rw1c, 0⟩]⟩,  -- HIF_ERR
  ⟨0x10, 0x0, 1, 64, [⟨39, 0, .ro, 0⟩, ⟨41, 40, .ro, 0⟩, ⟨44, 42, .ro, 0⟩, ⟨63, 63, .rw1c, 0⟩]⟩,  -- HIF_ERR_FIRST
  ⟨0x1000, 0x8, 2048, 64, [⟨0, 0, .rw, 1⟩, ⟨63, 32, .rw, 0⟩]⟩  -- HIF_SKY_SLOT
]

/-- The CMP block (12 R474). -/
def cmpRegs : List RegDesc := [
  ⟨0x0, 0x0, 1, 32, [⟨0, 0, .ro, 0⟩, ⟨14, 8, .ro, 0⟩]⟩,  -- CMP_STATUS
  ⟨0x4, 0x0, 1, 32, [⟨14, 0, .ro, 0⟩]⟩,  -- CMP_CHANNELS
  ⟨0x1000, 0x40, 64, 64, [⟨63, 12, .rw, 0⟩]⟩,  -- CMP_SQ_BASE
  ⟨0x1008, 0x40, 64, 64, [⟨63, 12, .rw, 0⟩]⟩,  -- CMP_CQ_BASE
  ⟨0x1010, 0x40, 64, 32, [⟨4, 0, .rw, 4⟩, ⟨8, 8, .rw, 0⟩]⟩,  -- CMP_RING_CFG
  ⟨0x1014, 0x40, 64, 32, [⟨1, 0, .ro, 0⟩, ⟨2, 2, .rw1c, 0⟩, ⟨3, 3, .rw1c, 0⟩, ⟨4, 4, .ro, 0⟩, ⟨31, 16, .ro, 0⟩]⟩,  -- CMP_RING_STATUS
  ⟨0x1018, 0x40, 64, 32, [⟨15, 0, .ro, 0⟩, ⟨31, 16, .ro, 0⟩]⟩,  -- CMP_RING_IDX
  ⟨0x3000, 0x20, 64, 64, [⟨63, 12, .rw, 0⟩]⟩,  -- CMP_EQ_BASE
  ⟨0x3008, 0x20, 64, 32, [⟨4, 0, .rw, 4⟩, ⟨8, 8, .rw, 0⟩]⟩,  -- CMP_EQ_CFG
  ⟨0x300C, 0x20, 64, 32, [⟨15, 0, .ro, 0⟩, ⟨24, 16, .ro, 0⟩]⟩,  -- CMP_EQ_STATUS
  ⟨0x3010, 0x20, 64, 32, [⟨31, 0, .rw1c, 0⟩]⟩  -- CMP_EQ_DROP
]

/-- The CHN block (12 R475). -/
def chnRegs : List RegDesc := [
  ⟨0x0, 0x0, 1, 32, [⟨13, 0, .rw, 0⟩]⟩,  -- CHN_SEL
  ⟨0x8, 0x0, 1, 64, [⟨7, 0, .ro, 0⟩, ⟨9, 8, .ro, 0⟩, ⟨10, 10, .ro, 0⟩, ⟨18, 11, .ro, 0⟩, ⟨24, 19, .ro, 0⟩, ⟨36, 25, .ro, 0⟩]⟩  -- CHN_INFO
]

/-- The PTM block (13 R508). -/
def ptmRegs : List RegDesc := [
  ⟨0x0, 0x0, 1, 32, [⟨11, 0, .rw, 0x7D0⟩, ⟨19, 12, .rw, 150⟩, ⟨20, 20, .rw, 0⟩, ⟨26, 21, .rw, 35⟩]⟩,  -- PTM_PROFILE
  ⟨0x4, 0x0, 1, 32, [⟨0, 0, .ro, 0⟩, ⟨1, 1, .ro, 0⟩, ⟨2, 2, .ro, 0⟩, ⟨3, 3, .ro, 0⟩, ⟨4, 4, .rw1c, 0⟩, ⟨5, 5, .rw1c, 0⟩, ⟨6, 6, .ro, 0⟩]⟩,  -- PTM_STATUS
  ⟨0x8, 0x0, 1, 64, [⟨11, 0, .ro, 0x7D0⟩, ⟨27, 16, .ro, 0x7D0⟩, ⟨43, 32, .ro, 0x7D0⟩]⟩,  -- PTM_CAP
  ⟨0x10, 0x0, 1, 64, [⟨11, 0, .ro, 0⟩, ⟨27, 16, .ro, 0⟩, ⟨45, 32, .ro, 0⟩]⟩,  -- PTM_POWER
  ⟨0x18, 0x0, 1, 32, [⟨11, 0, .ro, 0⟩, ⟨23, 12, .ro, 0⟩, ⟨31, 24, .ro, 255⟩]⟩,  -- PTM_COOLANT
  ⟨0x20, 0x0, 1, 64, [⟨2, 0, .ro, 0⟩, ⟨9, 3, .ro, 0⟩, ⟨21, 10, .ro, 0⟩, ⟨63, 63, .rw1c, 0⟩]⟩,  -- PTM_DISAGREE
  ⟨0x28, 0x0, 1, 32, [⟨2, 0, .rw, 0⟩, ⟨9, 3, .rw, 0⟩]⟩,  -- PTM_SENSOR_SEL
  ⟨0x2C, 0x0, 1, 32, [⟨11, 0, .ro, 0⟩, ⟨12, 12, .ro, 0⟩]⟩,  -- PTM_SENSOR_DATA
  ⟨0x30, 0x0, 1, 32, [⟨0, 0, .wo, 0⟩]⟩,  -- PTM_SENSOR_CTRL
  ⟨0x38, 0x0, 1, 32, [⟨0, 0, .rw, 0⟩, ⟨1, 1, .rw, 0⟩, ⟨9, 2, .rw, 0⟩, ⟨10, 10, .rw, 0⟩, ⟨11, 11, .rw, 0⟩, ⟨13, 12, .rw, 0⟩]⟩,  -- PTM_INJECT
  ⟨0x100, 0x8, 9, 64, [⟨15, 0, .ro, 0⟩, ⟨31, 16, .ro, 0⟩, ⟨47, 32, .ro, 0⟩, ⟨48, 48, .ro, 0⟩]⟩  -- PTM_RAIL
]

/-- The tower PTM block (13 R509). -/
def ptmtRegs : List RegDesc := [
  ⟨0x0, 0x0, 1, 32, [⟨1, 0, .ro, 2⟩, ⟨4, 2, .ro, 0⟩, ⟨5, 5, .rw1s, 0⟩, ⟨6, 6, .ro, 0⟩, ⟨7, 7, .ro, 0⟩]⟩,  -- PTM_T_STATE
  ⟨0x4, 0x0, 1, 32, [⟨4, 0, .ro, 8⟩, ⟨9, 5, .ro, 4⟩, ⟨14, 10, .ro, 8⟩, ⟨19, 15, .ro, 4⟩]⟩,  -- PTM_T_DUTY
  ⟨0x8, 0x0, 1, 64, [⟨11, 0, .ro, 0⟩, ⟨23, 12, .ro, 0⟩, ⟨35, 24, .ro, 0⟩, ⟨47, 36, .ro, 0⟩, ⟨63, 48, .rw1c, 0⟩]⟩,  -- PTM_T_TEMP
  ⟨0x20, 0x0, 1, 32, [⟨5, 0, .ro, 0⟩, ⟨15, 8, .rw, 150⟩]⟩,  -- PTM_T_KEEPWARM
  ⟨0x24, 0x0, 1, 32, [⟨15, 0, .ro, 0⟩, ⟨31, 16, .ro, 0⟩]⟩,  -- PTM_T_VCORE
  ⟨0x28, 0x0, 1, 32, [⟨1, 0, .ro, 0⟩, ⟨8, 2, .ro, 0⟩, ⟨31, 31, .rw1c, 0⟩]⟩,  -- PTM_T_TRIP
  ⟨0x100, 0x4, 96, 32, [⟨11, 0, .ro, 0⟩, ⟨23, 12, .ro, 0⟩, ⟨25, 24, .ro, 2⟩, ⟨26, 26, .ro, 0⟩]⟩  -- PTM_T_ZONE
]

/-- The RST block (14 R530). -/
def rstRegs : List RegDesc := [
  ⟨0x0, 0x0, 1, 32, [⟨0, 0, .rw1c, 0⟩, ⟨1, 1, .rw1c, 0⟩, ⟨2, 2, .rw1c, 0⟩, ⟨3, 3, .rw1c, 0⟩, ⟨4, 4, .rw1c, 0⟩, ⟨5, 5, .rw1c, 0⟩, ⟨6, 6, .rw1c, 0⟩, ⟨31, 16, .ro, 0⟩]⟩,  -- RST_CAUSE
  ⟨0x8, 0x0, 1, 32, [⟨0, 0, .wo, 0⟩, ⟨1, 1, .wo, 0⟩, ⟨2, 2, .wo, 0⟩, ⟨7, 4, .rw, 0⟩]⟩,  -- RST_CTRL
  ⟨0xC, 0x0, 1, 32, [⟨1, 0, .ro, 0⟩, ⟨5, 2, .ro, 0⟩, ⟨6, 6, .rw1c, 0⟩, ⟨7, 7, .rw1c, 0⟩, ⟨13, 8, .ro, 0⟩]⟩,  -- RST_STATUS
  ⟨0x10, 0x0, 1, 32, [⟨15, 0, .rw, 1000⟩]⟩,  -- RST_CR_CFG
  ⟨0x18, 0x0, 1, 32, [⟨11, 0, .rw, 0⟩, ⟨13, 12, .rw, 0⟩, ⟨14, 14, .rw, 0⟩, ⟨15, 15, .wo, 0⟩, ⟨31, 16, .rw, 100⟩]⟩,  -- RST_BLOCK
  ⟨0x1C, 0x0, 1, 32, [⟨1, 0, .ro, 0⟩, ⟨9, 2, .ro, 0⟩, ⟨10, 10, .rw1c, 0⟩, ⟨11, 11, .rw1c, 0⟩]⟩,  -- RST_BLOCK_STATUS
  ⟨0x100, 0x4, 32, 32, [⟨31, 0, .rw, 0⟩]⟩,  -- RST_BACKUP
  ⟨0x200, 0x0, 1, 32, [⟨0, 0, .rw1s, 0⟩]⟩,  -- RST_RET_CTRL
  ⟨0x204, 0x0, 1, 32, [⟨15, 0, .rw1c, 0⟩, ⟨31, 16, .rw1c, 0⟩]⟩,  -- RST_RET_ERR
  ⟨0x8000, 0x0, 1, 32, [⟨0, 0, .ro, 0⟩, ⟨1, 1, .ro, 0⟩, ⟨2, 2, .ro, 0⟩, ⟨15, 8, .rw1c, 0⟩]⟩,  -- CLK_STATUS
  ⟨0x8010, 0x4, 4, 32, [⟨0, 0, .ro, 0⟩, ⟨1, 1, .ro, 0⟩, ⟨9, 2, .ro, 0⟩, ⟨31, 16, .rw1c, 0⟩]⟩  -- CLK_TICK_SYNC
]

/-- The BOOT block (15 R563). -/
def bootRegs : List RegDesc := [
  ⟨0x0, 0x0, 1, 32, [⟨3, 0, .ro, 0⟩, ⟨11, 4, .ro, 0⟩, ⟨12, 12, .rw1c, 0⟩, ⟨13, 13, .ro, 0⟩, ⟨14, 14, .ro, 0⟩, ⟨15, 15, .rw1c, 0⟩]⟩,  -- BOOT_STATUS
  ⟨0x8, 0x0, 1, 64, [⟨31, 0, .ro, 0⟩, ⟨37, 32, .ro, 0⟩, ⟨39, 38, .ro, 0⟩, ⟨49, 40, .ro, 0⟩]⟩,  -- BOOT_IMAGE
  ⟨0x10, 0x0, 1, 64, [⟨11, 0, .ro, 0⟩, ⟨21, 12, .ro, 0⟩, ⟨31, 22, .ro, 0⟩, ⟨41, 32, .ro, 0⟩, ⟨53, 42, .ro, 0⟩]⟩,  -- BOOT_COUNTS
  ⟨0x20, 0x4, 4, 32, [⟨9, 0, .ro, 0⟩, ⟨19, 10, .ro, 0⟩, ⟨20, 20, .ro, 0⟩, ⟨21, 21, .ro, 0⟩]⟩,  -- BOOT_TOWER
  ⟨0x30, 0x0, 1, 64, [⟨31, 0, .ro, 0⟩, ⟨47, 32, .ro, 0⟩, ⟨63, 48, .ro, 0⟩]⟩,  -- BOOT_RAIN
  ⟨0x40, 0x0, 1, 32, [⟨11, 0, .rw, 0⟩, ⟨12, 12, .rw, 0⟩, ⟨13, 13, .rw, 0⟩, ⟨14, 14, .rw, 0⟩, ⟨15, 15, .rw, 0⟩, ⟨16, 16, .rw, 0⟩]⟩,  -- BOOT_INJECT
  ⟨0x1000, 0x4, 576, 32, [⟨31, 0, .ro, 0⟩]⟩  -- BOOT_YIELD
]

/-- The SEC block (15 R564). -/
def secRegs : List RegDesc := [
  ⟨0x0, 0x0, 1, 32, [⟨5, 0, .ro, 0⟩, ⟨11, 8, .ro, 0⟩, ⟨13, 12, .ro, 0⟩, ⟨14, 14, .ro, 1⟩]⟩,  -- SEC_STATUS
  ⟨0x8, 0x0, 1, 32, [⟨0, 0, .wo, 0⟩, ⟨1, 1, .wo, 0⟩, ⟨2, 2, .rw1c, 0⟩]⟩  -- SEC_SVN_COMMIT
]

/-- The LIC block (15 R565). -/
def licRegs : List RegDesc := [
  ⟨0x0, 0x0, 1, 32, [⟨3, 0, .ro, 0⟩, ⟨11, 4, .ro, 0⟩, ⟨19, 12, .ro, 0⟩]⟩,  -- LIC_STATUS
  ⟨0x8, 0x0, 1, 32, [⟨0, 0, .rw, 0⟩]⟩  -- LIC_INJECT
]

/-- The RAS block (16 R592). -/
def rasRegs : List RegDesc := [
  ⟨0x0, 0x0, 1, 32, [⟨10, 0, .ro, 0⟩, ⟨11, 11, .rw1c, 0⟩, ⟨27, 12, .rw1c, 0⟩]⟩,  -- RAS_STATUS
  ⟨0x4, 0x0, 1, 32, [⟨9, 0, .rw, 100⟩]⟩,  -- RAS_CTRL
  ⟨0x8, 0x0, 1, 32, [⟨9, 0, .rw, 0⟩, ⟨25, 16, .ro, 0⟩]⟩,  -- RAS_LOG_IDX
  ⟨0x10, 0x0, 1, 64, [⟨23, 0, .rw1c, 0⟩, ⟨35, 24, .rw1c, 0⟩, ⟨47, 36, .rw1c, 0⟩, ⟨59, 48, .rw1c, 0⟩, ⟨63, 60, .rw1c, 0⟩]⟩,  -- RAS_COUNT
  ⟨0x18, 0x0, 1, 32, [⟨9, 0, .rw, 20⟩, ⟨13, 10, .ro, 0⟩, ⟨14, 14, .ro, 0⟩]⟩,  -- RAS_WDOG
  ⟨0x20, 0x0, 1, 32, [⟨3, 0, .rw, 0⟩, ⟨4, 4, .rw, 0⟩, ⟨5, 5, .rw, 0⟩, ⟨23, 6, .rw, 0⟩]⟩,  -- RAS_INJECT
  ⟨0x24, 0x0, 1, 32, [⟨31, 0, .rw, 0⟩]⟩,  -- RAS_INJECT_ADDR
  ⟨0x28, 0x0, 1, 32, [⟨0, 0, .wo, 0⟩]⟩  -- RAS_CRASH_CTRL
]

/-- The DBG block (17 R606). -/
def dbgRegs : List RegDesc := [
  ⟨0x0, 0x0, 1, 32, [⟨0, 0, .ro, 0⟩, ⟨1, 1, .rw1c, 0⟩, ⟨2, 2, .rw1c, 0⟩, ⟨3, 3, .rw1c, 0⟩, ⟨4, 4, .rw1c, 0⟩, ⟨5, 5, .rw1c, 0⟩]⟩,  -- DBG_STATUS
  ⟨0x4, 0x0, 1, 32, [⟨11, 0, .wo, 0⟩, ⟨19, 12, .wo, 0⟩]⟩,  -- DBG_STEP
  ⟨0x8, 0x0, 1, 32, [⟨13, 0, .rw, 0⟩, ⟨14, 14, .wo, 0⟩]⟩,  -- DBG_SNAP
  ⟨0x10, 0x0, 1, 64, [⟨63, 6, .rw, 0⟩]⟩,  -- DBG_SNAP_ADDR
  ⟨0x18, 0x0, 1, 32, [⟨0, 0, .rw, 0⟩, ⟨1, 1, .rw, 0⟩, ⟨2, 2, .rw, 0⟩, ⟨3, 3, .rw, 0⟩, ⟨17, 4, .rw, 0⟩]⟩,  -- DBG_TRACE_CTRL
  ⟨0x20, 0x0, 1, 64, [⟨63, 0, .rw, 0⟩]⟩,  -- DBG_TRACE_BASE
  ⟨0x28, 0x0, 1, 32, [⟨28, 0, .rw, 0⟩]⟩,  -- DBG_TRACE_LEN
  ⟨0x30, 0x0, 1, 64, [⟨63, 0, .rw, 0⟩]⟩,  -- DBG_TRACE_START
  ⟨0x40, 0x4, 8, 32, [⟨11, 0, .rw, 0⟩, ⟨12, 12, .rw, 0⟩]⟩,  -- DBG_TRACE_SITE
  ⟨0x60, 0x0, 1, 64, [⟨39, 0, .ro, 0⟩, ⟨63, 40, .rw1c, 0⟩]⟩,  -- DBG_TRACE_CNT
  ⟨0x38, 0x0, 1, 64, [⟨63, 0, .rw, 0⟩]⟩  -- DBG_TRACE_END
]

/-- The TEL block (17 R606). -/
def telRegs : List RegDesc := [
  ⟨0x0, 0x8, 32, 64, [⟨47, 0, .ro, 0⟩]⟩  -- TEL_SUM
]

/-- The register map of a block. -/
def RegBlock.regs : RegBlock → List RegDesc
  | .glb => glbRegs
  | .hif => hifRegs
  | .cmp => cmpRegs
  | .chn => chnRegs
  | .pfx => pfxRegs
  | .ptm => ptmRegs
  | .rst => rstRegs
  | .boot => bootRegs
  | .sec => secRegs
  | .lic => licRegs
  | .ras => rasRegs
  | .dbg => dbgRegs
  | .tel => telRegs
  | .dlk => dlkRegs
  | .core => coreRegs
  | .mxa => mxaRegs
  | .tle => tleRegs
  | .kvx => kvxRegs
  | .sq => sqRegs
  | .vlt => vltRegs
  | .bku => bkuRegs
  | .sky => skyRegs
  | .opt => optRegs
  | .ptmt => ptmtRegs

/-- Where a BAR0 offset lies: its block, the block's site or tower, and the offset within the block (12 R427, R428). -/
def barLocate (a : Nat) : Option (RegBlock × Nat × Nat) :=
  if a < 0x00100000 then some (.glb, 0, a)
  else if a < 0x00200000 then some (.hif, 0, a - 0x00100000)
  else if a < 0x00240000 then some (.cmp, 0, a - 0x00200000)
  else if a < 0x00280000 then some (.chn, 0, a - 0x00240000)
  else if a < 0x00300000 then some (.pfx, 0, a - 0x00280000)
  else if a < 0x00400000 then some (.ptm, 0, a - 0x00300000)
  else if a < 0x00500000 then some (.rst, 0, a - 0x00400000)
  else if a < 0x00504000 then some (.boot, 0, a - 0x00500000)
  else if a < 0x00506000 then some (.sec, 0, a - 0x00504000)
  else if a < 0x00600000 then some (.lic, 0, a - 0x00506000)
  else if a < 0x00700000 then some (.ras, 0, a - 0x00600000)
  else if a < 0x00708000 then some (.dbg, 0, a - 0x00700000)
  else if a < 0x00800000 then some (.tel, 0, a - 0x00708000)
  else if a < 0x01000000 then some (.dlk, 0, a - 0x00800000)
  else if a < 0x05000000 then
    let t := (a - 0x01000000) / 0x01000000
    let r := a % 0x01000000
    if r < 0x00900000 then
      let i := t * 576 + r / 0x4000
      let l := r % 0x4000
      if l < 0x0800 then some (.core, i, l)
      else if l < 0x0C00 then some (.mxa, i, l - 0x0800)
      else if l < 0x1000 then some (.tle, i, l - 0x0C00)
      else if l < 0x1400 then some (.kvx, i, l - 0x1000)
      else if l < 0x2000 then some (.sq, i, l - 0x1400)
      else if l < 0x2400 then some (.vlt, i, l - 0x2000)
      else some (.bku, i, l - 0x2400)
    else if r < 0x00C00000 then none
    else if r < 0x00C10000 then some (.sky, t, r - 0x00C00000)
    else if r < 0x00C20000 then some (.opt, t, r - 0x00C10000)
    else some (.ptmt, t, r - 0x00C20000)
  else none

/-- Does a register's map hold the 32-bit word at a block offset? The answer is the offset within the copy and its index. -/
def RegDesc.covers (d : RegDesc) (l : Nat) : Option (Nat × Nat) :=
  if l < d.off then none
  else
    let k := if d.stride = 0 then 0 else (l - d.off) / d.stride
    let r := l - d.off - k * d.stride
    if k < d.count ∧ r < d.width / 8 then some (r, k) else none

/-- The first register of a map that holds a block offset. -/
def findReg : List RegDesc → Nat → Option (RegDesc × Nat × Nat)
  | [], _ => none
  | d :: ds, l =>
    match d.covers l with
    | some (r, k) => some (d, r, k)
    | none => findReg ds l

/-- The register at a BAR0 offset: its map, the byte offset within it, and its copy's index. -/
def regAt (a : Nat) : Option (RegDesc × Nat × Nat) :=
  match barLocate a with
  | some (b, _, l) => findReg b.regs l
  | none => none

/-- The reset value a map gives, all fields together. -/
def FieldDesc.resetBits : List FieldDesc → Nat
  | [] => 0
  | f :: fs => f.reset * 2 ^ f.lo + FieldDesc.resetBits fs

/-- DLK_ROUTE.next of a source die while every link is ACTIVE (11 R419): 5 stands for the die itself. -/
def routeReset (s : Nat) : Nat :=
  [0, 1, 2, 3, 4].foldl (fun w d =>
    let h := if d = s then 5 else if s = 4 ∨ d = 4 ∨ d = (s + 1) % 4 ∨ d = (s + 3) % 4 then d else (s + 1) % 4
    w + h * 2 ^ (3 * d)) 0

/-- What an unlisted register reads as: its reset value (the slots of the sky window name the vaults of the own node
in site order, 12 R431; CORE_ID names its site, 02 R103). -/
def regReset (a : Nat) : BitVec 64 :=
  if 0x00101000 ≤ a ∧ a < 0x00101000 + 0x4000 then
    let s := (a - 0x00101000) / 8
    BitVec.ofNat 64 (1 + (0xFFFFF * 2 ^ 12 + (s / 576) * 2 ^ 10 + (s % 576 / 24) * 2 ^ 5 + s % 24) * 2 ^ 32)
  else if 0x00800040 ≤ a ∧ a < 0x00800054 then BitVec.ofNat 64 (routeReset ((a - 0x00800040) / 4))
  else if 0x01000000 ≤ a ∧ a < 0x05000000 ∧ a % 0x01000000 < 0x00900000 ∧ a % 0x4000 = 0 then
    let s := a % 0x01000000 / 0x4000
    BitVec.ofNat 64 (s % 24 + s / 24 * 2 ^ 5 + (a - 0x01000000) / 0x01000000 * 2 ^ 10)
  else
    match regAt a with
    | some (d, _, _) => BitVec.ofNat 64 (FieldDesc.resetBits d.fields)
    | none => 0

namespace Reg

/-! The fields, named block_REGISTER_field; `i` is the site or tower, `k` the copy. -/

def coreId_column (i : Nat) : Fld := ⟨siteBase i + 0x0, 4, 0⟩
def coreId_row (i : Nat) : Fld := ⟨siteBase i + 0x0, 9, 5⟩
def coreId_tower (i : Nat) : Fld := ⟨siteBase i + 0x0, 11, 10⟩
def coreId_enabled (i : Nat) : Fld := ⟨siteBase i + 0x0, 12, 12⟩
def coreCtrl_start (i : Nat) : Fld := ⟨siteBase i + 0x8, 0, 0⟩
def coreCtrl_stop (i : Nat) : Fld := ⟨siteBase i + 0x8, 1, 1⟩
def coreCtrl_resume (i : Nat) : Fld := ⟨siteBase i + 0x8, 2, 2⟩
def coreCtrl_count_brk_enable (i : Nat) : Fld := ⟨siteBase i + 0x8, 3, 3⟩
def coreCtrl_tag_brk_enable (i : Nat) : Fld := ⟨siteBase i + 0x8, 4, 4⟩
def coreCtrl_brk_bit_enable (i : Nat) : Fld := ⟨siteBase i + 0x8, 5, 5⟩
def coreStatus_state (i : Nat) : Fld := ⟨siteBase i + 0x10, 2, 0⟩
def coreStatus_last_status (i : Nat) : Fld := ⟨siteBase i + 0x10, 10, 3⟩
def coreStatus_wait_armed (i : Nat) : Fld := ⟨siteBase i + 0x10, 11, 11⟩
def coreStreamBase_base (i : Nat) : Fld := ⟨siteBase i + 0x18, 28, 7⟩
def coreStreamLen_len (i : Nat) : Fld := ⟨siteBase i + 0x1C, 28, 4⟩
def corePc_pc (i : Nat) : Fld := ⟨siteBase i + 0x20, 28, 0⟩
def coreRetired_count (i : Nat) : Fld := ⟨siteBase i + 0x28, 47, 0⟩
def coreBrkCount_count (i : Nat) : Fld := ⟨siteBase i + 0x30, 47, 0⟩
def coreBrkTag_tag (i : Nat) : Fld := ⟨siteBase i + 0x38, 15, 0⟩
def coreBrkTag_mask (i : Nat) : Fld := ⟨siteBase i + 0x38, 31, 16⟩
def coreFaultStatus_status (i : Nat) : Fld := ⟨siteBase i + 0x40, 7, 0⟩
def coreFaultStatus_engine (i : Nat) : Fld := ⟨siteBase i + 0x40, 11, 8⟩
def coreFaultStatus_tag (i : Nat) : Fld := ⟨siteBase i + 0x40, 27, 12⟩
def coreFaultAddr_addr (i : Nat) : Fld := ⟨siteBase i + 0x48, 63, 0⟩
def coreFaultInfo_expected (i : Nat) : Fld := ⟨siteBase i + 0x50, 31, 0⟩
def coreFaultInfo_cmp (i : Nat) : Fld := ⟨siteBase i + 0x50, 33, 32⟩
def coreFaultInfo_space (i : Nat) : Fld := ⟨siteBase i + 0x50, 35, 34⟩
def coreFaultInfo_seen_low (i : Nat) : Fld := ⟨siteBase i + 0x50, 63, 36⟩
def coreWaitState_rearms (i : Nat) : Fld := ⟨siteBase i + 0x58, 15, 0⟩
def coreWaitState_notices (i : Nat) : Fld := ⟨siteBase i + 0x58, 31, 16⟩
def coreSoftErr_count (i : Nat) : Fld := ⟨siteBase i + 0x60, 15, 0⟩
def coreSoftErr_first_status (i : Nat) : Fld := ⟨siteBase i + 0x60, 23, 16⟩
def coreSoftErr_first_engine (i : Nat) : Fld := ⟨siteBase i + 0x60, 31, 24⟩
def coreIcStat_misses (i : Nat) : Fld := ⟨siteBase i + 0x68, 23, 0⟩
def coreIcStat_parity_refetch (i : Nat) : Fld := ⟨siteBase i + 0x68, 31, 24⟩
def mxaCtrl_filler_enable (i : Nat) : Fld := ⟨siteBase i + 0x0800 + 0x0, 0, 0⟩
def mxaFiller_window (i : Nat) : Fld := ⟨siteBase i + 0x0800 + 0x4, 6, 0⟩
def mxaFiller_lead (i : Nat) : Fld := ⟨siteBase i + 0x0800 + 0x4, 15, 8⟩
def mxaStatus_state (i : Nat) : Fld := ⟨siteBase i + 0x0800 + 0x8, 1, 0⟩
def mxaStatus_nan_op (i : Nat) : Fld := ⟨siteBase i + 0x0800 + 0x8, 8, 8⟩
def mxaStatus_inv (i : Nat) : Fld := ⟨siteBase i + 0x0800 + 0x8, 9, 9⟩
def mxaStatus_ovf (i : Nat) : Fld := ⟨siteBase i + 0x0800 + 0x8, 10, 10⟩
def mxaStatus_isat (i : Nat) : Fld := ⟨siteBase i + 0x0800 + 0x8, 11, 11⟩
def mxaStatus_poison (i : Nat) : Fld := ⟨siteBase i + 0x0800 + 0x8, 12, 12⟩
def mxaStatus_pending (i : Nat) : Fld := ⟨siteBase i + 0x0800 + 0x8, 19, 16⟩
def mxaHeld_valid (i : Nat) : Fld := ⟨siteBase i + 0x0800 + 0xC, 0, 0⟩
def mxaHeld_sfmt (i : Nat) : Fld := ⟨siteBase i + 0x0800 + 0xC, 7, 4⟩
def mxaHeld_shadow_ready (i : Nat) : Fld := ⟨siteBase i + 0x0800 + 0xC, 8, 8⟩
def mxaLast_status (i : Nat) : Fld := ⟨siteBase i + 0x0800 + 0x10, 7, 0⟩
def mxaLast_tag (i : Nat) : Fld := ⟨siteBase i + 0x0800 + 0x10, 23, 8⟩
def mxaCntStep_steps (i : Nat) : Fld := ⟨siteBase i + 0x0800 + 0x18, 47, 0⟩
def mxaCntFiller_fillers (i : Nat) : Fld := ⟨siteBase i + 0x0800 + 0x20, 47, 0⟩
def mxaCntFreeze_feed_dry (i : Nat) : Fld := ⟨siteBase i + 0x0800 + 0x28, 20, 0⟩
def mxaCntFreeze_shadow_late (i : Nat) : Fld := ⟨siteBase i + 0x0800 + 0x28, 41, 21⟩
def mxaCntFreeze_drain_full (i : Nat) : Fld := ⟨siteBase i + 0x0800 + 0x28, 62, 42⟩
def tleStatus_nan_op (i : Nat) : Fld := ⟨siteBase i + 0x0C00 + 0x0, 0, 0⟩
def tleStatus_inv (i : Nat) : Fld := ⟨siteBase i + 0x0C00 + 0x0, 1, 1⟩
def tleStatus_ovf (i : Nat) : Fld := ⟨siteBase i + 0x0C00 + 0x0, 2, 2⟩
def tleStatus_isat (i : Nat) : Fld := ⟨siteBase i + 0x0C00 + 0x0, 3, 3⟩
def tleStatus_poison (i : Nat) : Fld := ⟨siteBase i + 0x0C00 + 0x0, 4, 4⟩
def tleStatus_pending (i : Nat) : Fld := ⟨siteBase i + 0x0C00 + 0x0, 12, 8⟩
def tleStatus_busy (i : Nat) : Fld := ⟨siteBase i + 0x0C00 + 0x0, 16, 16⟩
def tleLast_status (i : Nat) : Fld := ⟨siteBase i + 0x0C00 + 0x4, 7, 0⟩
def tleLast_tag (i : Nat) : Fld := ⟨siteBase i + 0x0C00 + 0x4, 23, 8⟩
def tleLast_op (i : Nat) : Fld := ⟨siteBase i + 0x0C00 + 0x4, 31, 24⟩
def tleKpoison_kpoison (i : Nat) : Fld := ⟨siteBase i + 0x0C00 + 0x8, 7, 0⟩
def tleCntLane_lanes (i : Nat) : Fld := ⟨siteBase i + 0x0C00 + 0x10, 47, 0⟩
def tleCntXcn_results (i : Nat) : Fld := ⟨siteBase i + 0x0C00 + 0x18, 47, 0⟩
def tleCntBusy_cycles (i : Nat) : Fld := ⟨siteBase i + 0x0C00 + 0x20, 47, 0⟩
def tlePeekSel_index (i : Nat) : Fld := ⟨siteBase i + 0x0C00 + 0x40, 3, 0⟩
def tlePeekSel_kind (i : Nat) : Fld := ⟨siteBase i + 0x0C00 + 0x40, 4, 4⟩
def tlePeekSel_row (i : Nat) : Fld := ⟨siteBase i + 0x0C00 + 0x40, 9, 5⟩
def tlePeekPoison_poison (i : Nat) : Fld := ⟨siteBase i + 0x0C00 + 0x100, 31, 0⟩
def vltId_vault (i : Nat) : Fld := ⟨siteBase i + 0x2000 + 0x0, 11, 0⟩
def vltId_core_present (i : Nat) : Fld := ⟨siteBase i + 0x2000 + 0x0, 12, 12⟩
def vltCtrl_init (i : Nat) : Fld := ⟨siteBase i + 0x2000 + 0x8, 0, 0⟩
def vltCtrl_scrub_start (i : Nat) : Fld := ⟨siteBase i + 0x2000 + 0x8, 1, 1⟩
def vltCtrl_scrub_abort (i : Nat) : Fld := ⟨siteBase i + 0x2000 + 0x8, 2, 2⟩
def vltCtrl_test_enable (i : Nat) : Fld := ⟨siteBase i + 0x2000 + 0x8, 3, 3⟩
def vltCtrl_force_band (i : Nat) : Fld := ⟨siteBase i + 0x2000 + 0x8, 4, 4⟩
def vltCtrl_hold (i : Nat) : Fld := ⟨siteBase i + 0x2000 + 0x8, 5, 5⟩
def vltCtrl_retire_vault (i : Nat) : Fld := ⟨siteBase i + 0x2000 + 0x8, 6, 6⟩
def vltStatus_state (i : Nat) : Fld := ⟨siteBase i + 0x2000 + 0xC, 1, 0⟩
def vltStatus_held (i : Nat) : Fld := ⟨siteBase i + 0x2000 + 0xC, 2, 2⟩
def vltStatus_scrub_busy (i : Nat) : Fld := ⟨siteBase i + 0x2000 + 0xC, 3, 3⟩
def vltStatus_scrub_done (i : Nat) : Fld := ⟨siteBase i + 0x2000 + 0xC, 4, 4⟩
def vltStatus_scrub_refused (i : Nat) : Fld := ⟨siteBase i + 0x2000 + 0xC, 5, 5⟩
def vltStatus_hot_timing (i : Nat) : Fld := ⟨siteBase i + 0x2000 + 0xC, 6, 6⟩
def vltStatus_refresh_src (i : Nat) : Fld := ⟨siteBase i + 0x2000 + 0xC, 8, 7⟩
def vltStatus_retired_rows (i : Nat) : Fld := ⟨siteBase i + 0x2000 + 0xC, 15, 9⟩
def vltMap_frame_base (i : Nat) : Fld := ⟨siteBase i + 0x2000 + 0x10, 5, 0⟩
def vltArb_w_read (i : Nat) : Fld := ⟨siteBase i + 0x2000 + 0x14, 3, 0⟩
def vltArb_w_write (i : Nat) : Fld := ⟨siteBase i + 0x2000 + 0x14, 7, 4⟩
def vltArb_w_remote (i : Nat) : Fld := ⟨siteBase i + 0x2000 + 0x14, 11, 8⟩
def vltArb_w_scrub (i : Nat) : Fld := ⟨siteBase i + 0x2000 + 0x14, 15, 12⟩
def vltRefresh_trefw_us (i : Nat) : Fld := ⟨siteBase i + 0x2000 + 0x18, 15, 0⟩
def vltRefresh_temp (i : Nat) : Fld := ⟨siteBase i + 0x2000 + 0x18, 23, 16⟩
def vltRefresh_layer (i : Nat) : Fld := ⟨siteBase i + 0x2000 + 0x18, 26, 24⟩
def vltEccCtrl_ce_threshold (i : Nat) : Fld := ⟨siteBase i + 0x2000 + 0x1C, 7, 0⟩
def vltInitPattern_pattern (i : Nat) : Fld := ⟨siteBase i + 0x2000 + 0x20, 63, 0⟩
def vltScrubBase_base (i : Nat) : Fld := ⟨siteBase i + 0x2000 + 0x28, 28, 7⟩
def vltScrubLen_len (i : Nat) : Fld := ⟨siteBase i + 0x2000 + 0x2C, 29, 7⟩
def vltEccCnt_corrected (i : Nat) : Fld := ⟨siteBase i + 0x2000 + 0x30, 23, 0⟩
def vltEccCnt_uncorrectable (i : Nat) : Fld := ⟨siteBase i + 0x2000 + 0x30, 47, 24⟩
def vltEccCnt_poison_reads (i : Nat) : Fld := ⟨siteBase i + 0x2000 + 0x30, 63, 48⟩
def vltEccFirst_addr (i : Nat) : Fld := ⟨siteBase i + 0x2000 + 0x38, 28, 0⟩
def vltEccFirst_syndrome (i : Nat) : Fld := ⟨siteBase i + 0x2000 + 0x38, 35, 29⟩
def vltEccFirst_parity (i : Nat) : Fld := ⟨siteBase i + 0x2000 + 0x38, 36, 36⟩
def vltEccFirst_kind (i : Nat) : Fld := ⟨siteBase i + 0x2000 + 0x38, 38, 37⟩
def vltEccFirst_valid (i : Nat) : Fld := ⟨siteBase i + 0x2000 + 0x38, 39, 39⟩
def vltRawCtrl_addr (i : Nat) : Fld := ⟨siteBase i + 0x2000 + 0x40, 28, 3⟩
def vltRawCtrl_write (i : Nat) : Fld := ⟨siteBase i + 0x2000 + 0x40, 29, 29⟩
def vltRawCtrl_go (i : Nat) : Fld := ⟨siteBase i + 0x2000 + 0x40, 30, 30⟩
def vltRawCtrl_done (i : Nat) : Fld := ⟨siteBase i + 0x2000 + 0x40, 31, 31⟩
def vltRawData_data (i : Nat) : Fld := ⟨siteBase i + 0x2000 + 0x48, 63, 0⟩
def vltRawCheck_check (i : Nat) : Fld := ⟨siteBase i + 0x2000 + 0x50, 7, 0⟩
def vltRetire_row (i : Nat) : Fld := ⟨siteBase i + 0x2000 + 0x58, 28, 10⟩
def vltCntRd_bytes (i : Nat) : Fld := ⟨siteBase i + 0x2000 + 0x60, 47, 0⟩
def vltCntWr_bytes (i : Nat) : Fld := ⟨siteBase i + 0x2000 + 0x68, 47, 0⟩
def vltCntAct_activates (i : Nat) : Fld := ⟨siteBase i + 0x2000 + 0x70, 47, 0⟩
def vltCntHeld_cycles (i : Nat) : Fld := ⟨siteBase i + 0x2000 + 0x78, 47, 0⟩
def bkuCtrl_max_active (i : Nat) : Fld := ⟨siteBase i + 0x2400 + 0x0, 5, 0⟩
def bkuStatus_active (i : Nat) : Fld := ⟨siteBase i + 0x2400 + 0x4, 5, 0⟩
def bkuStatus_queued (i : Nat) : Fld := ⟨siteBase i + 0x2400 + 0x4, 10, 6⟩
def bkuStatus_results_pending (i : Nat) : Fld := ⟨siteBase i + 0x2400 + 0x4, 11, 11⟩
def bkuStatus_fill_token (i : Nat) : Fld := ⟨siteBase i + 0x2400 + 0x4, 12, 12⟩
def bkuStatus_fill_waiting (i : Nat) : Fld := ⟨siteBase i + 0x2400 + 0x4, 13, 13⟩
def bkuBudget_budget (i : Nat) : Fld := ⟨siteBase i + 0x2400 + 0x8, 15, 0⟩
def bkuBudget_remaining (i : Nat) : Fld := ⟨siteBase i + 0x2400 + 0x8, 31, 16⟩
def bkuLast_status (i : Nat) : Fld := ⟨siteBase i + 0x2400 + 0xC, 7, 0⟩
def bkuLast_tag (i : Nat) : Fld := ⟨siteBase i + 0x2400 + 0xC, 23, 8⟩
def bkuLast_op (i : Nat) : Fld := ⟨siteBase i + 0x2400 + 0xC, 31, 24⟩
def bkuInject_arm (i : Nat) : Fld := ⟨siteBase i + 0x2400 + 0x10, 0, 0⟩
def bkuCntCmd_commands (i : Nat) : Fld := ⟨siteBase i + 0x2400 + 0x18, 47, 0⟩
def bkuCntBusy_unit_cycles (i : Nat) : Fld := ⟨siteBase i + 0x2400 + 0x20, 47, 0⟩
def bkuCntWait_cycles (i : Nat) : Fld := ⟨siteBase i + 0x2400 + 0x28, 47, 0⟩
def bkuCntSpecial_nan_cmds (i : Nat) : Fld := ⟨siteBase i + 0x2400 + 0x30, 15, 0⟩
def bkuCntSpecial_inf_cmds (i : Nat) : Fld := ⟨siteBase i + 0x2400 + 0x30, 31, 16⟩
def kvxCtrl_low_water (i : Nat) : Fld := ⟨siteBase i + 0x1000 + 0x0, 15, 0⟩
def kvxStatus_in_progress (i : Nat) : Fld := ⟨siteBase i + 0x1000 + 0x4, 2, 0⟩
def kvxStatus_queued (i : Nat) : Fld := ⟨siteBase i + 0x1000 + 0x4, 6, 3⟩
def kvxStatus_busy (i : Nat) : Fld := ⟨siteBase i + 0x1000 + 0x4, 7, 7⟩
def kvxLast_status (i : Nat) : Fld := ⟨siteBase i + 0x1000 + 0x8, 7, 0⟩
def kvxLast_tag (i : Nat) : Fld := ⟨siteBase i + 0x1000 + 0x8, 23, 8⟩
def kvxLast_op (i : Nat) : Fld := ⟨siteBase i + 0x1000 + 0x8, 31, 24⟩
def kvxCntWalk_walks (i : Nat) : Fld := ⟨siteBase i + 0x1000 + 0x10, 47, 0⟩
def kvxCntSkip_pages (i : Nat) : Fld := ⟨siteBase i + 0x1000 + 0x18, 47, 0⟩
def kvxCntAlloc_frames (i : Nat) : Fld := ⟨siteBase i + 0x1000 + 0x20, 15, 0⟩
def kvxCntAlloc_copies (i : Nat) : Fld := ⟨siteBase i + 0x1000 + 0x20, 31, 16⟩
def kvxLost_valid (i : Nat) : Fld := ⟨siteBase i + 0x1000 + 0x28, 0, 0⟩
def kvxLost_frame (i : Nat) : Fld := ⟨siteBase i + 0x1000 + 0x28, 63, 17⟩
def pfxCtrl_enable : Fld := ⟨0x00280000 + 0x0, 0, 0⟩
def pfxStatus_live : Fld := ⟨0x00280000 + 0x4, 18, 0⟩
def pfxStatus_reclaim_pending : Fld := ⟨0x00280000 + 0x4, 19, 19⟩
def pfxStatus_multi_domain : Fld := ⟨0x00280000 + 0x4, 20, 20⟩
def pfxStatus_queue : Fld := ⟨0x00280000 + 0x4, 27, 21⟩
def pfxCntLookup_requests : Fld := ⟨0x00280000 + 0x10, 47, 0⟩
def pfxCntResult_linked : Fld := ⟨0x00280000 + 0x18, 23, 0⟩
def pfxCntResult_collisions : Fld := ⟨0x00280000 + 0x18, 39, 24⟩
def pfxCntResult_full : Fld := ⟨0x00280000 + 0x18, 55, 40⟩
def pfxCntResult_mismatch : Fld := ⟨0x00280000 + 0x18, 63, 56⟩
def pfxEntrySel_index : Fld := ⟨0x00280000 + 0x40, 17, 0⟩
def pfxReclaim_index : Fld := ⟨0x00280000 + 0x80, 17, 0⟩
def pfxReclaim_release : Fld := ⟨0x00280000 + 0x80, 30, 30⟩
def pfxReclaim_valid : Fld := ⟨0x00280000 + 0x80, 31, 31⟩
def pfxInject_arm : Fld := ⟨0x00280000 + 0x88, 0, 0⟩
def sqCtrl_open (i : Nat) : Fld := ⟨siteBase i + 0x1400 + 0x0, 0, 0⟩
def sqCtrl_cut (i : Nat) : Fld := ⟨siteBase i + 0x1400 + 0x0, 8, 1⟩
def sqStall_us (i : Nat) : Fld := ⟨siteBase i + 0x1400 + 0x4, 23, 0⟩
def sqStatus_state (i : Nat) : Fld := ⟨siteBase i + 0x1400 + 0x8, 1, 0⟩
def sqStatus_wb (i : Nat) : Fld := ⟨siteBase i + 0x1400 + 0x8, 2, 2⟩
def sqStatus_rb (i : Nat) : Fld := ⟨siteBase i + 0x1400 + 0x8, 3, 3⟩
def sqStatus_resident (i : Nat) : Fld := ⟨siteBase i + 0x1400 + 0x8, 11, 4⟩
def sqStatus_requests (i : Nat) : Fld := ⟨siteBase i + 0x1400 + 0x8, 17, 12⟩
def sqStatus_pop_waiting (i : Nat) : Fld := ⟨siteBase i + 0x1400 + 0x8, 18, 18⟩
def sqFill_bytes (i : Nat) : Fld := ⟨siteBase i + 0x1400 + 0xC, 17, 0⟩
def sqLast_status (i : Nat) : Fld := ⟨siteBase i + 0x1400 + 0x10, 7, 0⟩
def sqLast_tag (i : Nat) : Fld := ⟨siteBase i + 0x1400 + 0x10, 23, 8⟩
def sqLast_op (i : Nat) : Fld := ⟨siteBase i + 0x1400 + 0x10, 31, 24⟩
def sqCntIn_bundles (i : Nat) : Fld := ⟨siteBase i + 0x1400 + 0x18, 47, 0⟩
def sqCntBytes_words (i : Nat) : Fld := ⟨siteBase i + 0x1400 + 0x20, 47, 0⟩
def sqCntStall_cycles (i : Nat) : Fld := ⟨siteBase i + 0x1400 + 0x28, 47, 0⟩
def sqErr_parity (i : Nat) : Fld := ⟨siteBase i + 0x1400 + 0x30, 15, 0⟩
def sqErr_lost (i : Nat) : Fld := ⟨siteBase i + 0x1400 + 0x30, 23, 16⟩
def sqErr_refused (i : Nat) : Fld := ⟨siteBase i + 0x1400 + 0x30, 31, 24⟩
def sqInject_arm (i : Nat) : Fld := ⟨siteBase i + 0x1400 + 0x38, 0, 0⟩
def sqHead_header (i : Nat) : Fld := ⟨siteBase i + 0x1400 + 0x40, 63, 0⟩
def skyNode_node (i : Nat) : Fld := ⟨towerBase i + 0x00C00000 + 0x0, 19, 0⟩
def skyCtrl_enable (i : Nat) : Fld := ⟨towerBase i + 0x00C00000 + 0x4, 0, 0⟩
def skyCtrl_mgt_reg (i : Nat) : Fld := ⟨towerBase i + 0x00C00000 + 0x4, 1, 1⟩
def skyStatus_big_fabric (i : Nat) : Fld := ⟨towerBase i + 0x00C00000 + 0x8, 0, 0⟩
def skyStatus_cfg_err (i : Nat) : Fld := ⟨towerBase i + 0x00C00000 + 0x8, 1, 1⟩
def skyStatus_node_mismatch (i : Nat) : Fld := ⟨towerBase i + 0x00C00000 + 0x8, 2, 2⟩
def skyStatus_resetting (i : Nat) : Fld := ⟨towerBase i + 0x00C00000 + 0x8, 3, 3⟩
def skyStatus_refusals_held (i : Nat) : Fld := ⟨towerBase i + 0x00C00000 + 0x8, 4, 4⟩
def skyStatus_ports_up (i : Nat) : Fld := ⟨towerBase i + 0x00C00000 + 0x8, 13, 8⟩
def skyE2e_lifetime_us (i : Nat) : Fld := ⟨towerBase i + 0x00C00000 + 0xC, 15, 0⟩
def skyE2e_reroute_ms (i : Nat) : Fld := ⟨towerBase i + 0x00C00000 + 0xC, 23, 16⟩
def skyCredit_req0 (i : Nat) : Fld := ⟨towerBase i + 0x00C00000 + 0x10, 7, 0⟩
def skyCredit_req1 (i : Nat) : Fld := ⟨towerBase i + 0x00C00000 + 0x10, 15, 8⟩
def skyCredit_rsp0 (i : Nat) : Fld := ⟨towerBase i + 0x00C00000 + 0x10, 23, 16⟩
def skyCredit_rsp1 (i : Nat) : Fld := ⟨towerBase i + 0x00C00000 + 0x10, 31, 24⟩
def skyCredit_tok0 (i : Nat) : Fld := ⟨towerBase i + 0x00C00000 + 0x10, 39, 32⟩
def skyCredit_tok1 (i : Nat) : Fld := ⟨towerBase i + 0x00C00000 + 0x10, 47, 40⟩
def skyCredit_mgt0 (i : Nat) : Fld := ⟨towerBase i + 0x00C00000 + 0x10, 55, 48⟩
def skyCredit_mgt1 (i : Nat) : Fld := ⟨towerBase i + 0x00C00000 + 0x10, 63, 56⟩
def skyArb_w_req (i : Nat) : Fld := ⟨towerBase i + 0x00C00000 + 0x18, 3, 0⟩
def skyArb_w_rsp (i : Nat) : Fld := ⟨towerBase i + 0x00C00000 + 0x18, 7, 4⟩
def skyArb_w_tok (i : Nat) : Fld := ⟨towerBase i + 0x00C00000 + 0x18, 11, 8⟩
def skyArb_w_mgt (i : Nat) : Fld := ⟨towerBase i + 0x00C00000 + 0x18, 15, 12⟩
def skyInject_drop (i : Nat) : Fld := ⟨towerBase i + 0x00C00000 + 0x1C, 0, 0⟩
def skyInject_refuse (i : Nat) : Fld := ⟨towerBase i + 0x00C00000 + 0x1C, 1, 1⟩
def skyCntTx_flits (i : Nat) : Fld := ⟨towerBase i + 0x00C00000 + 0x20, 47, 0⟩
def skyCntRx_flits (i : Nat) : Fld := ⟨towerBase i + 0x00C00000 + 0x28, 47, 0⟩
def skyCntLost_declared (i : Nat) : Fld := ⟨towerBase i + 0x00C00000 + 0x30, 15, 0⟩
def skyCntLost_discarded (i : Nat) : Fld := ⟨towerBase i + 0x00C00000 + 0x30, 31, 16⟩
def skyLostFirst_dst_vault (i : Nat) : Fld := ⟨towerBase i + 0x00C00000 + 0x38, 31, 0⟩
def skyLostFirst_engine (i : Nat) : Fld := ⟨towerBase i + 0x00C00000 + 0x38, 35, 32⟩
def skyLostFirst_class (i : Nat) : Fld := ⟨towerBase i + 0x00C00000 + 0x38, 37, 36⟩
def skyLostFirst_op (i : Nat) : Fld := ⟨towerBase i + 0x00C00000 + 0x38, 43, 38⟩
def skyLostFirst_port (i : Nat) : Fld := ⟨towerBase i + 0x00C00000 + 0x38, 48, 44⟩
def skyLostFirst_valid (i : Nat) : Fld := ⟨towerBase i + 0x00C00000 + 0x38, 63, 63⟩
def skyRouteM_valid (i : Nat) (k : Nat) : Fld := ⟨towerBase i + 0x00C00000 + 0x1000 + k * 0x8, 0, 0⟩
def skyRouteM_egress (i : Nat) (k : Nat) : Fld := ⟨towerBase i + 0x00C00000 + 0x1000 + k * 0x8, 2, 1⟩
def skyRouteM_hold (i : Nat) (k : Nat) : Fld := ⟨towerBase i + 0x00C00000 + 0x1000 + k * 0x8, 3, 3⟩
def skyRouteM_mask (i : Nat) (k : Nat) : Fld := ⟨towerBase i + 0x00C00000 + 0x1000 + k * 0x8, 47, 16⟩
def skyRouteM_outstanding (i : Nat) (k : Nat) : Fld := ⟨towerBase i + 0x00C00000 + 0x1000 + k * 0x8, 63, 56⟩
def skyRouteG_valid (i : Nat) (k : Nat) : Fld := ⟨towerBase i + 0x00C00000 + 0x2000 + k * 0x8, 0, 0⟩
def skyRouteG_egress (i : Nat) (k : Nat) : Fld := ⟨towerBase i + 0x00C00000 + 0x2000 + k * 0x8, 2, 1⟩
def skyRouteG_hold (i : Nat) (k : Nat) : Fld := ⟨towerBase i + 0x00C00000 + 0x2000 + k * 0x8, 3, 3⟩
def skyRouteG_mask (i : Nat) (k : Nat) : Fld := ⟨towerBase i + 0x00C00000 + 0x2000 + k * 0x8, 47, 16⟩
def skyRouteG_outstanding (i : Nat) (k : Nat) : Fld := ⟨towerBase i + 0x00C00000 + 0x2000 + k * 0x8, 63, 56⟩
def optPortCtrl_enable (i : Nat) (k : Nat) : Fld := ⟨towerBase i + 0x00C10000 + 0x0 + k * 0x20, 0, 0⟩
def optPortCtrl_retrain (i : Nat) (k : Nat) : Fld := ⟨towerBase i + 0x00C10000 + 0x0 + k * 0x20, 1, 1⟩
def optPortStatus_state (i : Nat) (k : Nat) : Fld := ⟨towerBase i + 0x00C10000 + 0x8 + k * 0x20, 2, 0⟩
def optPortStatus_peer_node (i : Nat) (k : Nat) : Fld := ⟨towerBase i + 0x00C10000 + 0x8 + k * 0x20, 27, 8⟩
def optPortStatus_peer_port (i : Nat) (k : Nat) : Fld := ⟨towerBase i + 0x00C10000 + 0x8 + k * 0x20, 34, 28⟩
def optPortStatus_delay_ns (i : Nat) (k : Nat) : Fld := ⟨towerBase i + 0x00C10000 + 0x8 + k * 0x20, 51, 36⟩
def optPortStatus_changed (i : Nat) (k : Nat) : Fld := ⟨towerBase i + 0x00C10000 + 0x8 + k * 0x20, 52, 52⟩
def optPortErr_crc (i : Nat) (k : Nat) : Fld := ⟨towerBase i + 0x00C10000 + 0x10 + k * 0x20, 23, 0⟩
def optPortErr_replays (i : Nat) (k : Nat) : Fld := ⟨towerBase i + 0x00C10000 + 0x10 + k * 0x20, 39, 24⟩
def optPortErr_retrains (i : Nat) (k : Nat) : Fld := ⟨towerBase i + 0x00C10000 + 0x10 + k * 0x20, 47, 40⟩
def optLaser_power_a (i : Nat) (k : Nat) : Fld := ⟨towerBase i + 0x00C10000 + 0x400 + k * 0x4, 7, 0⟩
def optLaser_power_b (i : Nat) (k : Nat) : Fld := ⟨towerBase i + 0x00C10000 + 0x400 + k * 0x4, 15, 8⟩
def optLaser_low_a (i : Nat) (k : Nat) : Fld := ⟨towerBase i + 0x00C10000 + 0x400 + k * 0x4, 16, 16⟩
def optLaser_low_b (i : Nat) (k : Nat) : Fld := ⟨towerBase i + 0x00C10000 + 0x400 + k * 0x4, 17, 17⟩
def optInject_port (i : Nat) : Fld := ⟨towerBase i + 0x00C10000 + 0x420, 4, 0⟩
def optInject_arm (i : Nat) : Fld := ⟨towerBase i + 0x00C10000 + 0x420, 5, 5⟩
def dlkCtrl_failover_enable : Fld := ⟨0x00800000 + 0x0, 0, 0⟩
def dlkStatus_active : Fld := ⟨0x00800000 + 0x4, 7, 0⟩
def dlkStatus_rerouting : Fld := ⟨0x00800000 + 0x4, 8, 8⟩
def dlkStatus_unreachable : Fld := ⟨0x00800000 + 0x4, 9, 9⟩
def dlkStatus_opt_err : Fld := ⟨0x00800000 + 0x4, 10, 10⟩
def dlkStatus_cap_err : Fld := ⟨0x00800000 + 0x4, 11, 11⟩
def dlkDieId_strap (k : Nat) : Fld := ⟨0x00800000 + 0x10 + k * 0x4, 2, 0⟩
def dlkDieId_valid (k : Nat) : Fld := ⟨0x00800000 + 0x10 + k * 0x4, 3, 3⟩
def dlkDieId_conflict (k : Nat) : Fld := ⟨0x00800000 + 0x10 + k * 0x4, 4, 4⟩
def dlkDieId_version (k : Nat) : Fld := ⟨0x00800000 + 0x10 + k * 0x4, 15, 8⟩
def dlkRoute_next (k : Nat) : Fld := ⟨0x00800000 + 0x40 + k * 0x4, 14, 0⟩
def dlkLinkCtrl_retrain (k : Nat) : Fld := ⟨0x00800000 + 0x100 + k * 0x40, 0, 0⟩
def dlkLinkCtrl_force_down (k : Nat) : Fld := ⟨0x00800000 + 0x100 + k * 0x40, 1, 1⟩
def dlkLinkStatus_state (k : Nat) : Fld := ⟨0x00800000 + 0x108 + k * 0x40, 2, 0⟩
def dlkLinkStatus_modules_up (k : Nat) : Fld := ⟨0x00800000 + 0x108 + k * 0x40, 6, 3⟩
def dlkLinkStatus_sideband_up (k : Nat) : Fld := ⟨0x00800000 + 0x108 + k * 0x40, 7, 7⟩
def dlkLinkStatus_sideband_module (k : Nat) : Fld := ⟨0x00800000 + 0x108 + k * 0x40, 10, 8⟩
def dlkLinkStatus_lanes_repaired (k : Nat) : Fld := ⟨0x00800000 + 0x108 + k * 0x40, 17, 12⟩
def dlkLinkStatus_changed (k : Nat) : Fld := ⟨0x00800000 + 0x108 + k * 0x40, 18, 18⟩
def dlkLinkStatus_rate_gts (k : Nat) : Fld := ⟨0x00800000 + 0x108 + k * 0x40, 39, 32⟩
def dlkLinkCap_local_ver (k : Nat) : Fld := ⟨0x00800000 + 0x110 + k * 0x40, 7, 0⟩
def dlkLinkCap_peer_ver (k : Nat) : Fld := ⟨0x00800000 + 0x110 + k * 0x40, 15, 8⟩
def dlkLinkCap_payload_256 (k : Nat) : Fld := ⟨0x00800000 + 0x110 + k * 0x40, 16, 16⟩
def dlkLinkCap_keep_alive (k : Nat) : Fld := ⟨0x00800000 + 0x110 + k * 0x40, 17, 17⟩
def dlkLinkCap_tick_sync (k : Nat) : Fld := ⟨0x00800000 + 0x110 + k * 0x40, 18, 18⟩
def dlkLinkCap_poison_word (k : Nat) : Fld := ⟨0x00800000 + 0x110 + k * 0x40, 19, 19⟩
def dlkLinkCap_transit (k : Nat) : Fld := ⟨0x00800000 + 0x110 + k * 0x40, 20, 20⟩
def dlkLinkCap_tags (k : Nat) : Fld := ⟨0x00800000 + 0x110 + k * 0x40, 41, 32⟩
def dlkLinkErr_crc (k : Nat) : Fld := ⟨0x00800000 + 0x118 + k * 0x40, 23, 0⟩
def dlkLinkErr_replays (k : Nat) : Fld := ⟨0x00800000 + 0x118 + k * 0x40, 39, 24⟩
def dlkLinkErr_retrains (k : Nat) : Fld := ⟨0x00800000 + 0x118 + k * 0x40, 47, 40⟩
def dlkLinkErr_discarded (k : Nat) : Fld := ⟨0x00800000 + 0x118 + k * 0x40, 63, 48⟩
def dlkLaneMap_role (k : Nat) : Fld := ⟨0x00800000 + 0x120 + k * 0x40, 15, 0⟩
def dlkLaneMap_repaired (k : Nat) : Fld := ⟨0x00800000 + 0x120 + k * 0x40, 23, 16⟩
def dlkInject_crc (k : Nat) : Fld := ⟨0x00800000 + 0x128 + k * 0x40, 0, 0⟩
def dlkInject_module_fail (k : Nat) : Fld := ⟨0x00800000 + 0x128 + k * 0x40, 1, 1⟩
def dlkInject_mod (k : Nat) : Fld := ⟨0x00800000 + 0x128 + k * 0x40, 4, 2⟩
def glbId_part : Fld := ⟨0x0 + 0x0, 15, 0⟩
def glbId_grade : Fld := ⟨0x0 + 0x0, 19, 16⟩
def glbId_stepping : Fld := ⟨0x0 + 0x0, 23, 20⟩
def glbSerial_serial : Fld := ⟨0x0 + 0x8, 63, 0⟩
def glbState_state : Fld := ⟨0x0 + 0x10, 2, 0⟩
def glbState_thermal : Fld := ⟨0x0 + 0x10, 15, 8⟩
def glbState_crash_record : Fld := ⟨0x0 + 0x10, 16, 16⟩
def glbState_fw_alive : Fld := ⟨0x0 + 0x10, 17, 17⟩
def glbHeartbeat_count : Fld := ⟨0x0 + 0x14, 31, 0⟩
def glbTick_tick : Fld := ⟨0x0 + 0x18, 63, 0⟩
def glbPower_power_w : Fld := ⟨0x0 + 0x20, 15, 0⟩
def glbPower_cap_w : Fld := ⟨0x0 + 0x20, 31, 16⟩
def glbTemp_logic_max : Fld := ⟨0x0 + 0x24, 7, 0⟩
def glbTemp_dram_max : Fld := ⟨0x0 + 0x24, 15, 8⟩
def glbTemp_inlet : Fld := ⟨0x0 + 0x24, 23, 16⟩
def glbErr_uncorrected : Fld := ⟨0x0 + 0x28, 0, 0⟩
def glbErr_link_down : Fld := ⟨0x0 + 0x28, 1, 1⟩
def glbErr_fabric_degraded : Fld := ⟨0x0 + 0x28, 2, 2⟩
def hifLink_width : Fld := ⟨0x00100000 + 0x0, 4, 0⟩
def hifLink_rate : Fld := ⟨0x00100000 + 0x0, 7, 5⟩
def hifLink_flit : Fld := ⟨0x00100000 + 0x0, 8, 8⟩
def hifLink_up : Fld := ⟨0x00100000 + 0x0, 9, 9⟩
def hifCtrl_bar_timeout_us : Fld := ⟨0x00100000 + 0x4, 13, 0⟩
def hifErr_bad_access : Fld := ⟨0x00100000 + 0x8, 11, 0⟩
def hifErr_read_timeout : Fld := ⟨0x00100000 + 0x8, 23, 12⟩
def hifErr_unmapped : Fld := ⟨0x00100000 + 0x8, 35, 24⟩
def hifErr_poisoned_read : Fld := ⟨0x00100000 + 0x8, 47, 36⟩
def hifErr_write_lost : Fld := ⟨0x00100000 + 0x8, 59, 48⟩
def hifErrFirst_offset : Fld := ⟨0x00100000 + 0x10, 39, 0⟩
def hifErrFirst_bar : Fld := ⟨0x00100000 + 0x10, 41, 40⟩
def hifErrFirst_kind : Fld := ⟨0x00100000 + 0x10, 44, 42⟩
def hifErrFirst_valid : Fld := ⟨0x00100000 + 0x10, 63, 63⟩
def hifSkySlot_valid (k : Nat) : Fld := ⟨0x00100000 + 0x1000 + k * 0x8, 0, 0⟩
def hifSkySlot_vault (k : Nat) : Fld := ⟨0x00100000 + 0x1000 + k * 0x8, 63, 32⟩
def cmpStatus_ready : Fld := ⟨0x00200000 + 0x0, 0, 0⟩
def cmpStatus_inflight : Fld := ⟨0x00200000 + 0x0, 14, 8⟩
def cmpChannels_live : Fld := ⟨0x00200000 + 0x4, 14, 0⟩
def cmpSqBase_base (k : Nat) : Fld := ⟨0x00200000 + 0x1000 + k * 0x40, 63, 12⟩
def cmpCqBase_base (k : Nat) : Fld := ⟨0x00200000 + 0x1008 + k * 0x40, 63, 12⟩
def cmpRingCfg_log2_entries (k : Nat) : Fld := ⟨0x00200000 + 0x1010 + k * 0x40, 4, 0⟩
def cmpRingCfg_enable (k : Nat) : Fld := ⟨0x00200000 + 0x1010 + k * 0x40, 8, 8⟩
def cmpRingStatus_state (k : Nat) : Fld := ⟨0x00200000 + 0x1014 + k * 0x40, 1, 0⟩
def cmpRingStatus_db_err (k : Nat) : Fld := ⟨0x00200000 + 0x1014 + k * 0x40, 2, 2⟩
def cmpRingStatus_fetch_err (k : Nat) : Fld := ⟨0x00200000 + 0x1014 + k * 0x40, 3, 3⟩
def cmpRingStatus_cq_full (k : Nat) : Fld := ⟨0x00200000 + 0x1014 + k * 0x40, 4, 4⟩
def cmpRingStatus_sq_head (k : Nat) : Fld := ⟨0x00200000 + 0x1014 + k * 0x40, 31, 16⟩
def cmpRingIdx_sq_tail (k : Nat) : Fld := ⟨0x00200000 + 0x1018 + k * 0x40, 15, 0⟩
def cmpRingIdx_cq_tail (k : Nat) : Fld := ⟨0x00200000 + 0x1018 + k * 0x40, 31, 16⟩
def cmpEqBase_base (k : Nat) : Fld := ⟨0x00200000 + 0x3000 + k * 0x20, 63, 12⟩
def cmpEqCfg_log2_entries (k : Nat) : Fld := ⟨0x00200000 + 0x3008 + k * 0x20, 4, 0⟩
def cmpEqCfg_enable (k : Nat) : Fld := ⟨0x00200000 + 0x3008 + k * 0x20, 8, 8⟩
def cmpEqStatus_tail (k : Nat) : Fld := ⟨0x00200000 + 0x300C + k * 0x20, 15, 0⟩
def cmpEqStatus_held (k : Nat) : Fld := ⟨0x00200000 + 0x300C + k * 0x20, 24, 16⟩
def cmpEqDrop_dropped (k : Nat) : Fld := ⟨0x00200000 + 0x3010 + k * 0x20, 31, 0⟩
def chnSel_index : Fld := ⟨0x00240000 + 0x0, 13, 0⟩
def chnInfo_generation : Fld := ⟨0x00240000 + 0x8, 7, 0⟩
def chnInfo_state : Fld := ⟨0x00240000 + 0x8, 9, 8⟩
def chnInfo_class : Fld := ⟨0x00240000 + 0x8, 10, 10⟩
def chnInfo_domain : Fld := ⟨0x00240000 + 0x8, 18, 11⟩
def chnInfo_eq : Fld := ⟨0x00240000 + 0x8, 24, 19⟩
def chnInfo_cores : Fld := ⟨0x00240000 + 0x8, 36, 25⟩
def ptmProfile_cap_w : Fld := ⟨0x00300000 + 0x0, 11, 0⟩
def ptmProfile_ramp_wpms : Fld := ⟨0x00300000 + 0x0, 19, 12⟩
def ptmProfile_keep_warm : Fld := ⟨0x00300000 + 0x0, 20, 20⟩
def ptmProfile_dew_floor : Fld := ⟨0x00300000 + 0x0, 26, 21⟩
def ptmStatus_forecast_running : Fld := ⟨0x00300000 + 0x4, 0, 0⟩
def ptmStatus_fw_fallback : Fld := ⟨0x00300000 + 0x4, 1, 1⟩
def ptmStatus_flow_suspect : Fld := ⟨0x00300000 + 0x4, 2, 2⟩
def ptmStatus_coolant_stale : Fld := ⟨0x00300000 + 0x4, 3, 3⟩
def ptmStatus_avs_err : Fld := ⟨0x00300000 + 0x4, 4, 4⟩
def ptmStatus_dew_risk : Fld := ⟨0x00300000 + 0x4, 5, 5⟩
def ptmStatus_cap_limiting : Fld := ⟨0x00300000 + 0x4, 6, 6⟩
def ptmCap_effective_w : Fld := ⟨0x00300000 + 0x8, 11, 0⟩
def ptmCap_coolant_w : Fld := ⟨0x00300000 + 0x8, 27, 16⟩
def ptmCap_suspect_w : Fld := ⟨0x00300000 + 0x8, 43, 32⟩
def ptmPower_sample_w : Fld := ⟨0x00300000 + 0x10, 11, 0⟩
def ptmPower_avg_w : Fld := ⟨0x00300000 + 0x10, 27, 16⟩
def ptmPower_over_us : Fld := ⟨0x00300000 + 0x10, 45, 32⟩
def ptmCoolant_inlet : Fld := ⟨0x00300000 + 0x18, 11, 0⟩
def ptmCoolant_flow : Fld := ⟨0x00300000 + 0x18, 23, 12⟩
def ptmCoolant_age : Fld := ⟨0x00300000 + 0x18, 31, 24⟩
def ptmDisagree_die : Fld := ⟨0x00300000 + 0x20, 2, 0⟩
def ptmDisagree_sensor : Fld := ⟨0x00300000 + 0x20, 9, 3⟩
def ptmDisagree_diff : Fld := ⟨0x00300000 + 0x20, 21, 10⟩
def ptmDisagree_valid : Fld := ⟨0x00300000 + 0x20, 63, 63⟩
def ptmSensorSel_die : Fld := ⟨0x00300000 + 0x28, 2, 0⟩
def ptmSensorSel_index : Fld := ⟨0x00300000 + 0x28, 9, 3⟩
def ptmSensorData_value : Fld := ⟨0x00300000 + 0x2C, 11, 0⟩
def ptmSensorData_broken : Fld := ⟨0x00300000 + 0x2C, 12, 12⟩
def ptmSensorCtrl_rearm : Fld := ⟨0x00300000 + 0x30, 0, 0⟩
def ptmInject_force_broken : Fld := ⟨0x00300000 + 0x38, 0, 0⟩
def ptmInject_offset_en : Fld := ⟨0x00300000 + 0x38, 1, 1⟩
def ptmInject_offset : Fld := ⟨0x00300000 + 0x38, 9, 2⟩
def ptmInject_rate_trip : Fld := ⟨0x00300000 + 0x38, 10, 10⟩
def ptmInject_trip_dry : Fld := ⟨0x00300000 + 0x38, 11, 11⟩
def ptmInject_tsel : Fld := ⟨0x00300000 + 0x38, 13, 12⟩
def ptmRail_mv (k : Nat) : Fld := ⟨0x00300000 + 0x100 + k * 0x8, 15, 0⟩
def ptmRail_current (k : Nat) : Fld := ⟨0x00300000 + 0x100 + k * 0x8, 31, 16⟩
def ptmRail_target_mv (k : Nat) : Fld := ⟨0x00300000 + 0x100 + k * 0x8, 47, 32⟩
def ptmRail_stale (k : Nat) : Fld := ⟨0x00300000 + 0x100 + k * 0x8, 48, 48⟩
def ptmTState_level (i : Nat) : Fld := ⟨towerBase i + 0x00C20000 + 0x0, 1, 0⟩
def ptmTState_cause (i : Nat) : Fld := ⟨towerBase i + 0x00C20000 + 0x0, 4, 2⟩
def ptmTState_quiesce_done (i : Nat) : Fld := ⟨towerBase i + 0x00C20000 + 0x0, 5, 5⟩
def ptmTState_held (i : Nat) : Fld := ⟨towerBase i + 0x00C20000 + 0x0, 6, 6⟩
def ptmTState_tripped (i : Nat) : Fld := ⟨towerBase i + 0x00C20000 + 0x0, 7, 7⟩
def ptmTDuty_lat_ceiling (i : Nat) : Fld := ⟨towerBase i + 0x00C20000 + 0x4, 4, 0⟩
def ptmTDuty_be_ceiling (i : Nat) : Fld := ⟨towerBase i + 0x00C20000 + 0x4, 9, 5⟩
def ptmTDuty_lat_duty (i : Nat) : Fld := ⟨towerBase i + 0x00C20000 + 0x4, 14, 10⟩
def ptmTDuty_be_duty (i : Nat) : Fld := ⟨towerBase i + 0x00C20000 + 0x4, 19, 15⟩
def ptmTTemp_logic_max (i : Nat) : Fld := ⟨towerBase i + 0x00C20000 + 0x8, 11, 0⟩
def ptmTTemp_dram_max (i : Nat) : Fld := ⟨towerBase i + 0x00C20000 + 0x8, 23, 12⟩
def ptmTTemp_forecast_max (i : Nat) : Fld := ⟨towerBase i + 0x00C20000 + 0x8, 35, 24⟩
def ptmTTemp_rise (i : Nat) : Fld := ⟨towerBase i + 0x00C20000 + 0x8, 47, 36⟩
def ptmTTemp_rate_trips (i : Nat) : Fld := ⟨towerBase i + 0x00C20000 + 0x8, 63, 48⟩
def ptmTKeepwarm_on (i : Nat) : Fld := ⟨towerBase i + 0x00C20000 + 0x20, 5, 0⟩
def ptmTKeepwarm_max_w (i : Nat) : Fld := ⟨towerBase i + 0x00C20000 + 0x20, 15, 8⟩
def ptmTVcore_target_mv (i : Nat) : Fld := ⟨towerBase i + 0x00C20000 + 0x24, 15, 0⟩
def ptmTVcore_fused_mv (i : Nat) : Fld := ⟨towerBase i + 0x00C20000 + 0x24, 31, 16⟩
def ptmTTrip_cause (i : Nat) : Fld := ⟨towerBase i + 0x00C20000 + 0x28, 1, 0⟩
def ptmTTrip_sensor (i : Nat) : Fld := ⟨towerBase i + 0x00C20000 + 0x28, 8, 2⟩
def ptmTTrip_valid (i : Nat) : Fld := ⟨towerBase i + 0x00C20000 + 0x28, 31, 31⟩
def ptmTZone_temp (i : Nat) (k : Nat) : Fld := ⟨towerBase i + 0x00C20000 + 0x100 + k * 0x4, 11, 0⟩
def ptmTZone_forecast (i : Nat) (k : Nat) : Fld := ⟨towerBase i + 0x00C20000 + 0x100 + k * 0x4, 23, 12⟩
def ptmTZone_level (i : Nat) (k : Nat) : Fld := ⟨towerBase i + 0x00C20000 + 0x100 + k * 0x4, 25, 24⟩
def ptmTZone_degraded (i : Nat) (k : Nat) : Fld := ⟨towerBase i + 0x00C20000 + 0x100 + k * 0x4, 26, 26⟩
def rstCause_power_on : Fld := ⟨0x00400000 + 0x0, 0, 0⟩
def rstCause_pin : Fld := ⟨0x00400000 + 0x0, 1, 1⟩
def rstCause_perst : Fld := ⟨0x00400000 + 0x0, 2, 2⟩
def rstCause_hot_reset : Fld := ⟨0x00400000 + 0x0, 3, 3⟩
def rstCause_host_request : Fld := ⟨0x00400000 + 0x0, 4, 4⟩
def rstCause_pll_unlock : Fld := ⟨0x00400000 + 0x0, 5, 5⟩
def rstCause_ref_loss : Fld := ⟨0x00400000 + 0x0, 6, 6⟩
def rstCause_full_resets : Fld := ⟨0x00400000 + 0x0, 31, 16⟩
def rstCtrl_full_arm : Fld := ⟨0x00400000 + 0x8, 0, 0⟩
def rstCtrl_full_go : Fld := ⟨0x00400000 + 0x8, 1, 1⟩
def rstCtrl_compute_go : Fld := ⟨0x00400000 + 0x8, 2, 2⟩
def rstCtrl_compute_mask : Fld := ⟨0x00400000 + 0x8, 7, 4⟩
def rstStatus_cr_state : Fld := ⟨0x00400000 + 0xC, 1, 0⟩
def rstStatus_cr_mask : Fld := ⟨0x00400000 + 0xC, 5, 2⟩
def rstStatus_cr_refused : Fld := ⟨0x00400000 + 0xC, 6, 6⟩
def rstStatus_opt_err : Fld := ⟨0x00400000 + 0xC, 7, 7⟩
def rstStatus_stuck : Fld := ⟨0x00400000 + 0xC, 13, 8⟩
def rstCrCfg_drain_us : Fld := ⟨0x00400000 + 0x10, 15, 0⟩
def rstBlock_site : Fld := ⟨0x00400000 + 0x18, 11, 0⟩
def rstBlock_kind : Fld := ⟨0x00400000 + 0x18, 13, 12⟩
def rstBlock_force : Fld := ⟨0x00400000 + 0x18, 14, 14⟩
def rstBlock_go : Fld := ⟨0x00400000 + 0x18, 15, 15⟩
def rstBlock_timeout_us : Fld := ⟨0x00400000 + 0x18, 31, 16⟩
def rstBlockStatus_state : Fld := ⟨0x00400000 + 0x1C, 1, 0⟩
def rstBlockStatus_last_status : Fld := ⟨0x00400000 + 0x1C, 9, 2⟩
def rstBlockStatus_timed_out : Fld := ⟨0x00400000 + 0x1C, 10, 10⟩
def rstBlockStatus_busy_err : Fld := ⟨0x00400000 + 0x1C, 11, 11⟩
def rstBackup_value (k : Nat) : Fld := ⟨0x00400000 + 0x100 + k * 0x4, 31, 0⟩
def rstRetCtrl_crash_lock : Fld := ⟨0x00400000 + 0x200, 0, 0⟩
def rstRetErr_corrected : Fld := ⟨0x00400000 + 0x204, 15, 0⟩
def rstRetErr_uncorrectable : Fld := ⟨0x00400000 + 0x204, 31, 16⟩
def clkStatus_ref_ok : Fld := ⟨0x00400000 + 0x8000, 0, 0⟩
def clkStatus_pll_locked : Fld := ⟨0x00400000 + 0x8000, 1, 1⟩
def clkStatus_serdes_locked : Fld := ⟨0x00400000 + 0x8000, 2, 2⟩
def clkStatus_serdes_unlocks : Fld := ⟨0x00400000 + 0x8000, 15, 8⟩
def clkTickSync_synced (k : Nat) : Fld := ⟨0x00400000 + 0x8010 + k * 0x4, 0, 0⟩
def clkTickSync_via_neighbour (k : Nat) : Fld := ⟨0x00400000 + 0x8010 + k * 0x4, 1, 1⟩
def clkTickSync_offset (k : Nat) : Fld := ⟨0x00400000 + 0x8010 + k * 0x4, 9, 2⟩
def clkTickSync_corrections (k : Nat) : Fld := ⟨0x00400000 + 0x8010 + k * 0x4, 31, 16⟩
def bootStatus_stage : Fld := ⟨0x00500000 + 0x0, 3, 0⟩
def bootStatus_status : Fld := ⟨0x00500000 + 0x0, 11, 4⟩
def bootStatus_ylog_full : Fld := ⟨0x00500000 + 0x0, 12, 12⟩
def bootStatus_flash_released : Fld := ⟨0x00500000 + 0x0, 13, 13⟩
def bootStatus_mem_full : Fld := ⟨0x00500000 + 0x0, 14, 14⟩
def bootStatus_pending_full : Fld := ⟨0x00500000 + 0x0, 15, 15⟩
def bootImage_version : Fld := ⟨0x00500000 + 0x8, 31, 0⟩
def bootImage_svn : Fld := ⟨0x00500000 + 0x8, 37, 32⟩
def bootImage_key_slot : Fld := ⟨0x00500000 + 0x8, 39, 38⟩
def bootImage_segments : Fld := ⟨0x00500000 + 0x8, 49, 40⟩
def bootCounts_standby : Fld := ⟨0x00500000 + 0x10, 11, 0⟩
def bootCounts_test_failed : Fld := ⟨0x00500000 + 0x10, 21, 12⟩
def bootCounts_absent : Fld := ⟨0x00500000 + 0x10, 31, 22⟩
def bootCounts_retired_vaults : Fld := ⟨0x00500000 + 0x10, 41, 32⟩
def bootCounts_fused_bad : Fld := ⟨0x00500000 + 0x10, 53, 42⟩
def bootTower_enabled (k : Nat) : Fld := ⟨0x00500000 + 0x20 + k * 0x4, 9, 0⟩
def bootTower_standby (k : Nat) : Fld := ⟨0x00500000 + 0x20 + k * 0x4, 19, 10⟩
def bootTower_short (k : Nat) : Fld := ⟨0x00500000 + 0x20 + k * 0x4, 20, 20⟩
def bootTower_out_of_service (k : Nat) : Fld := ⟨0x00500000 + 0x20 + k * 0x4, 21, 21⟩
def bootRain_pieces : Fld := ⟨0x00500000 + 0x30, 31, 0⟩
def bootRain_fetches : Fld := ⟨0x00500000 + 0x30, 47, 32⟩
def bootRain_fetch_failed : Fld := ⟨0x00500000 + 0x30, 63, 48⟩
def bootInject_site : Fld := ⟨0x00500000 + 0x40, 11, 0⟩
def bootInject_drop : Fld := ⟨0x00500000 + 0x40, 12, 12⟩
def bootInject_absent : Fld := ⟨0x00500000 + 0x40, 13, 13⟩
def bootInject_core_fail : Fld := ⟨0x00500000 + 0x40, 14, 14⟩
def bootInject_row_fail : Fld := ⟨0x00500000 + 0x40, 15, 15⟩
def bootInject_sig_fail : Fld := ⟨0x00500000 + 0x40, 16, 16⟩
def bootYield_sites (k : Nat) : Fld := ⟨0x00500000 + 0x1000 + k * 0x4, 31, 0⟩
def secStatus_svn_floor : Fld := ⟨0x00504000 + 0x0, 5, 0⟩
def secStatus_image_revoked : Fld := ⟨0x00504000 + 0x0, 11, 8⟩
def secStatus_licence_revoked : Fld := ⟨0x00504000 + 0x0, 13, 12⟩
def secStatus_secret_locked : Fld := ⟨0x00504000 + 0x0, 14, 14⟩
def secSvnCommit_arm : Fld := ⟨0x00504000 + 0x8, 0, 0⟩
def secSvnCommit_go : Fld := ⟨0x00504000 + 0x8, 1, 1⟩
def secSvnCommit_done : Fld := ⟨0x00504000 + 0x8, 2, 2⟩
def licStatus_features : Fld := ⟨0x00506000 + 0x0, 3, 0⟩
def licStatus_installs : Fld := ⟨0x00506000 + 0x0, 11, 4⟩
def licStatus_last_status : Fld := ⟨0x00506000 + 0x0, 19, 12⟩
def licInject_arm : Fld := ⟨0x00506000 + 0x8, 0, 0⟩
def rasStatus_entries : Fld := ⟨0x00600000 + 0x0, 10, 0⟩
def rasStatus_pending : Fld := ⟨0x00600000 + 0x0, 11, 11⟩
def rasStatus_lost : Fld := ⟨0x00600000 + 0x0, 27, 12⟩
def rasCtrl_ce_interval_ms : Fld := ⟨0x00600000 + 0x4, 9, 0⟩
def rasLogIdx_head : Fld := ⟨0x00600000 + 0x8, 9, 0⟩
def rasLogIdx_tail : Fld := ⟨0x00600000 + 0x8, 25, 16⟩
def rasCount_ce : Fld := ⟨0x00600000 + 0x10, 23, 0⟩
def rasCount_degraded : Fld := ⟨0x00600000 + 0x10, 35, 24⟩
def rasCount_deferred : Fld := ⟨0x00600000 + 0x10, 47, 36⟩
def rasCount_contained : Fld := ⟨0x00600000 + 0x10, 59, 48⟩
def rasCount_fatal : Fld := ⟨0x00600000 + 0x10, 63, 60⟩
def rasWdog_timeout_ms : Fld := ⟨0x00600000 + 0x18, 9, 0⟩
def rasWdog_expired : Fld := ⟨0x00600000 + 0x18, 13, 10⟩
def rasWdog_mgmt_ecc : Fld := ⟨0x00600000 + 0x18, 14, 14⟩
def rasInject_kind : Fld := ⟨0x00600000 + 0x20, 3, 0⟩
def rasInject_mode : Fld := ⟨0x00600000 + 0x20, 4, 4⟩
def rasInject_arm : Fld := ⟨0x00600000 + 0x20, 5, 5⟩
def rasInject_index : Fld := ⟨0x00600000 + 0x20, 23, 6⟩
def rasInjectAddr_addr : Fld := ⟨0x00600000 + 0x24, 31, 0⟩
def rasCrashCtrl_release : Fld := ⟨0x00600000 + 0x28, 0, 0⟩
def dbgStatus_snap_busy : Fld := ⟨0x00700000 + 0x0, 0, 0⟩
def dbgStatus_snap_err : Fld := ⟨0x00700000 + 0x0, 1, 1⟩
def dbgStatus_step_err : Fld := ⟨0x00700000 + 0x0, 2, 2⟩
def dbgStatus_trace_full : Fld := ⟨0x00700000 + 0x0, 3, 3⟩
def dbgStatus_trace_err : Fld := ⟨0x00700000 + 0x0, 4, 4⟩
def dbgStatus_lic_err : Fld := ⟨0x00700000 + 0x0, 5, 5⟩
def dbgStep_site : Fld := ⟨0x00700000 + 0x4, 11, 0⟩
def dbgStep_n : Fld := ⟨0x00700000 + 0x4, 19, 12⟩
def dbgSnap_chan : Fld := ⟨0x00700000 + 0x8, 13, 0⟩
def dbgSnap_go : Fld := ⟨0x00700000 + 0x8, 14, 14⟩
def dbgSnapAddr_addr : Fld := ⟨0x00700000 + 0x10, 63, 6⟩
def dbgTraceCtrl_enable : Fld := ⟨0x00700000 + 0x18, 0, 0⟩
def dbgTraceCtrl_wrap : Fld := ⟨0x00700000 + 0x18, 1, 1⟩
def dbgTraceCtrl_instr_en : Fld := ⟨0x00700000 + 0x18, 2, 2⟩
def dbgTraceCtrl_route_en : Fld := ⟨0x00700000 + 0x18, 3, 3⟩
def dbgTraceCtrl_chan : Fld := ⟨0x00700000 + 0x18, 17, 4⟩
def dbgTraceBase_base : Fld := ⟨0x00700000 + 0x20, 63, 0⟩
def dbgTraceLen_len : Fld := ⟨0x00700000 + 0x28, 28, 0⟩
def dbgTraceStart_start : Fld := ⟨0x00700000 + 0x30, 63, 0⟩
def dbgTraceSite_site (k : Nat) : Fld := ⟨0x00700000 + 0x40 + k * 0x4, 11, 0⟩
def dbgTraceSite_valid (k : Nat) : Fld := ⟨0x00700000 + 0x40 + k * 0x4, 12, 12⟩
def dbgTraceCnt_written : Fld := ⟨0x00700000 + 0x60, 39, 0⟩
def dbgTraceCnt_dropped : Fld := ⟨0x00700000 + 0x60, 63, 40⟩
def telSum_sum (k : Nat) : Fld := ⟨0x00708000 + 0x0 + k * 0x8, 47, 0⟩
def dbgTraceEnd_stop : Fld := ⟨0x00700000 + 0x38, 63, 0⟩

end Reg

end Sys2Proof
end

