-- ==== Sys2Proof/Machine/Transc.lean ====
section
/-!
DEFINITION. Division, square root and the transcendental operations of the tile engine (05 R191). Exact results and
special inputs are the table's. Elsewhere the result is the one the hardware gives, a free value, held to the table's
bound by a high-precision enclosure of the exact result.
-/
namespace Sys2Proof

/-- Integer square root by bits: `k` bits are decided, the highest first. -/
def isqrtGo : Nat → Nat → Nat → Nat
  | 0, r, _ => r
  | k + 1, r, x =>
    let t := r + 2 ^ k
    isqrtGo k (if t * t ≤ x then t else r) x

/-- floor(sqrt x). -/
def isqrt (x : Nat) : Nat := isqrtGo (log2 x / 2 + 1) 0 x

/-- An exact quotient as magnitude and exponent, its last bit sticky. -/
def divMag (m : Nat) (e : Int) (n : Nat) (f : Int) : Nat × Int :=
  let a := m * 2 ^ 400
  let q := a / n
  (2 * q + (if a % n = 0 then 0 else 1), e - f - 401)

/-- An exact square root as magnitude and exponent, its last bit sticky. -/
def sqrtMag (m : Nat) (e : Int) : Nat × Int :=
  let m1 := if e % 2 = 0 then m else 2 * m
  let e1 := if e % 2 = 0 then e else e - 1
  let a := m1 * 2 ^ 200
  let q := isqrt a
  (2 * q + (if q * q = a then 0 else 1), e1 / 2 - 101)

/-- A result with its flags. -/
abbrev FRes := BitVec 32 × Flags

/-- A value with no flag. -/
def FRes.ok (x : Nat) : FRes := (BitVec.ofNat 32 x, .none)

/-- The canonical NaN with a flag. -/
def FRes.nan (f : Flags) : FRes := (BitVec.ofNat 32 0x7FC00000, f)

/-- A signed infinity with a flag. -/
def FRes.inf (n : Bool) (f : Flags) : FRes := (BitVec.ofNat 32 (Fmt.signed .binary32 n 0x7F800000), f)

/-- The rounded result of a finite value, nearest even; overflow by 04 R163. -/
def FRes.round (sat n : Bool) (m : Nat) (e : Int) : FRes :=
  let r := convF .binary32 .rne sat (.fin n m e)
  (BitVec.ofNat 32 r.1, r.2)

/-- Binary32 division (05 R182, 04 R163). -/
def fdiv (sat : Bool) (x y : Val) : FRes :=
  match x, y with
  | .nan, _ => .nan .ofNan
  | _, .nan => .nan .ofNan
  | .inf _, .inf _ => .nan .ofInv
  | .inf a, .fin b _ _ => .inf (xor a b) .none
  | .fin a _ _, .inf b => .ok (Fmt.signed .binary32 (xor a b) 0)
  | .fin a m e, .fin b n f =>
    if n = 0 then (if m = 0 then .nan .ofInv else .inf (xor a b) .ofInv)
    else
      let q := divMag m e n f
      .round sat (xor a b) q.1 q.2

/-- Binary32 square root (05 R191). -/
def fsqrt (x : Val) : FRes :=
  match x with
  | .nan => .nan .ofNan
  | .inf true => .nan .ofInv
  | .inf false => .inf false .none
  | .fin n m e =>
    if m = 0 then .ok (Fmt.signed .binary32 n 0)
    else if n then .nan .ofInv
    else let q := sqrtMag m e; .round false false q.1 q.2

/-- Fixed-point bits of the enclosures. -/
def fxBits : Nat := 200

/-- 1 in fixed point. -/
def fxOne : Nat := 2 ^ fxBits

/-- 2 * atanh(z) for z in fixed point below 1/2: k terms of z^(2i+1)/(2i+1). -/
def atanhGo : Nat → Nat → Nat → Nat → Nat → Nat
  | 0, _, _, _, acc => acc
  | k + 1, z2, p, i, acc => atanhGo k z2 (p * z2 / fxOne) (i + 1) (acc + p / (2 * i + 1))

/-- ln of a ratio a / b in [1, 2], in fixed point. -/
def lnRatio (a b : Nat) : Nat :=
  let z := (a - b) * fxOne / (a + b)
  2 * atanhGo 70 (z * z / fxOne) z 0 0

/-- ln 2 in fixed point. -/
def fxLn2 : Nat := lnRatio 2 1

/-- The Taylor sum of e^t for t in fixed point below 1. -/
def expGo : Nat → Nat → Nat → Nat → Nat → Nat
  | 0, _, _, _, acc => acc
  | k + 1, t, p, i, acc => expGo k t (p * t / fxOne / i) (i + 1) (acc + p * t / fxOne / i)

/-- e^t for t in fixed point, 0 ≤ t < 1. -/
def fxExp (t : Nat) : Nat := expGo 50 t fxOne 1 fxOne

/-- A positive real near m * 2^e. -/
structure Approx where
  m : Nat
  e : Int
  deriving DecidableEq, Repr

/-- A signed fixed-point value of m * 2^e, rounded down. -/
def toFx (n : Bool) (m : Nat) (e : Int) : Int :=
  let k := e + fxBits
  let s : Int := if n then -(m : Int) else m
  if 0 ≤ k then s * ((2 ^ k.toNat : Nat) : Int) else s / ((2 ^ (-k).toNat : Nat) : Int)

/-- e^y for y in signed fixed point. -/
def apExp (y : Int) : Approx :=
  let n : Int := y / (fxLn2 : Int)
  let t : Nat := (y - n * (fxLn2 : Int)).toNat
  ⟨fxExp t, n - fxBits⟩

/-- 2^y for y in signed fixed point. -/
def apExp2 (y : Int) : Approx :=
  let n : Int := y / (fxOne : Int)
  let t : Nat := (y - n * (fxOne : Int)).toNat * fxLn2 / fxOne
  ⟨fxExp t, n - fxBits⟩

/-- ln x in signed fixed point for x = m * 2^e, m > 0. -/
def fxLn (m : Nat) (e : Int) : Int :=
  let l := log2 m
  (e + l) * (fxLn2 : Int) + (lnRatio m (2 ^ l) : Int)

/-- Sum with 1, for an approximation not above 1. -/
def apOnePlus (a : Approx) : Nat := fxOne + (toFx false a.m a.e).toNat

/-- Quotient of an approximation by a fixed-point number. -/
def apDiv (a : Approx) (d : Nat) : Approx := ⟨a.m * 2 ^ fxBits * fxOne / d, a.e - fxBits⟩

/-- The exponent of the last place of binary32 at m * 2^e (05 R191). -/
def ulpExp (a : Approx) : Int := max ((log2 a.m : Int) + a.e - 23) (-149)

/-- Is the magnitude of a code within `bound` ulp of the exact value? The approximation is good to 2^-156 of itself, and
that much is kept clear of the bound. -/
def within (bound : Nat) (a : Approx) (c : Nat) : Bool :=
  let f : Nat := c / 2 ^ 23
  let cm : Nat := if f = 0 then c else 2 ^ 23 + c % 2 ^ 23
  let ce : Int := if f = 0 then -149 else (f : Int) - 150
  let q := ulpExp a
  let e0 := min (min ce a.e) q
  let d := ((alignTo e0 cm ce : Int) - (alignTo e0 a.m a.e : Int)).natAbs
  decide (d + alignTo e0 a.m a.e / 2 ^ 156 + 1 ≤ bound * alignTo e0 1 q)

/-- The result of an inexact operation: infinity, or the largest finite value under sat, where the exact value rounds past
the largest finite one; else the hardware's own where the bound allows it, of the result's sign, and the nearest value
where it does not (05 R191). -/
def bounded (op bound : Nat) (sat n : Bool) (x : BitVec 32) (a : Approx) : FRes :=
  let c := (Config.transcendental op x).toNat % 2 ^ 31
  let r := roundCode .binary32 .rne n a.m a.e
  if r > 0x7F7FFFFF then (BitVec.ofNat 32 (Fmt.overflow .binary32 .rne sat n), .ofOvf)
  else (BitVec.ofNat 32 (Fmt.signed .binary32 n (if c ≤ 0x7F7FFFFF && within bound a c then c else r)), .none)

/-- A transcendental operation. -/
inductive Xcn where
  | exp2 | exp | log2 | ln | rcp | sqrt | rsqrt | sigmoid | tanh | silu
  deriving DecidableEq, Repr

/-- Its opcode (05 R174). -/
def Xcn.op : Xcn → Nat
  | .exp2 => 0x28 | .exp => 0x29 | .log2 => 0x2A | .ln => 0x2B | .rcp => 0x2C | .sqrt => 0x2D | .rsqrt => 0x2E
  | .sigmoid => 0x2F | .tanh => 0x30 | .silu => 0x31

/-- Its bound in ulp (05 R191). -/
def Xcn.bound : Xcn → Nat
  | .exp2 => 1 | .exp => 2 | .log2 => 1 | .ln => 2 | .rcp => 0 | .sqrt => 0 | .rsqrt => 1 | .sigmoid => 2
  | .tanh => 2 | .silu => 3

/-- Is m * 2^e an integer? -/
def isIntVal (m : Nat) (e : Int) : Bool := decide (0 ≤ e) || m % 2 ^ (-e).toNat == 0

/-- e^-|x| where it does not vanish; the exponent is held to 2^10. -/
def apExpNeg (k : Nat) (m : Nat) (e : Int) : Approx :=
  let y := toFx false m e * k
  apExp (-(min y ((1024 * fxOne : Nat) : Int)))

/-- EXP2 and EXP on a finite input. -/
def expFin (base2 sat : Bool) (x : BitVec 32) (n : Bool) (m : Nat) (e : Int) : FRes :=
  let y := clampInt (-((512 * fxOne : Nat) : Int)) ((512 * fxOne : Nat) : Int) (toFx n m e)
  if m = 0 then .ok 0x3F800000
  else if base2 && isIntVal m e && decide (-149 * (fxOne : Int) ≤ y) && decide (y ≤ 127 * (fxOne : Int)) then
    .round sat false 1 (y / (fxOne : Int))
  else bounded (if base2 then 0x28 else 0x29) (if base2 then 1 else 2) sat false x
    (if base2 then apExp2 y else apExp y)

/-- LOG2 and LN on a positive finite input. -/
def logFin (base2 : Bool) (x : BitVec 32) (m : Nat) (e : Int) : FRes :=
  if m = 2 ^ log2 m ∧ (base2 ∨ e + log2 m = 0) then
    let k : Int := e + log2 m
    .round false (decide (k < 0)) k.natAbs 0
  else
    let y := fxLn m e
    let z := if base2 then y * (fxOne : Int) / (fxLn2 : Int) else y
    bounded (if base2 then 0x2A else 0x2B) (if base2 then 1 else 2) false (decide (z < 0)) x ⟨z.natAbs, -fxBits⟩

/-- tanh of a nonzero finite magnitude: a series below 2^-30, else by e^-2x. -/
def apTanh (m : Nat) (e : Int) : Approx :=
  if (log2 m : Int) + e < -30 then
    let f := (toFx false m e).toNat
    let f2 := f * f / fxOne
    let s := fxOne - f2 / 3 + 2 * (f2 * f2 / fxOne) / 15
    ⟨m * s, e - fxBits⟩
  else
    let u := apExpNeg 2 m e
    let v := (toFx false u.m u.e).toNat
    ⟨(fxOne - v) * fxOne / (fxOne + v), -fxBits⟩

/-- The reciprocal square root of m * 2^e. -/
def apRsqrt (m : Nat) (e : Int) : Approx :=
  let m1 := if e % 2 = 0 then m else 2 * m
  let e1 := if e % 2 = 0 then e else e - 1
  ⟨2 ^ 600 / isqrt (m1 * 2 ^ 500), -350 - e1 / 2⟩

/-- sigmoid of a finite value. -/
def apSigmoid (n : Bool) (m : Nat) (e : Int) : Approx :=
  let u := apExpNeg 1 m e
  if n then apDiv u (apOnePlus u) else ⟨fxOne * fxOne / apOnePlus u, -fxBits⟩

/-- A transcendental operation on one input (05 R191); `sat` acts on EXP2 and EXP alone. -/
def xcn (op : Xcn) (sat : Bool) (x : BitVec 32) : FRes :=
  let v := ofB32 x.toNat
  match op, v with
  | _, .nan => .nan .ofNan
  | .exp2, .inf n => if n then .ok 0 else .inf false .none
  | .exp, .inf n => if n then .ok 0 else .inf false .none
  | .exp2, .fin n m e => expFin true sat x n m e
  | .exp, .fin n m e => expFin false sat x n m e
  | .log2, .inf n => if n then .nan .ofInv else .inf false .none
  | .ln, .inf n => if n then .nan .ofInv else .inf false .none
  | .log2, .fin n m e =>
    if m = 0 then .inf true .ofInv else if n then .nan .ofInv else logFin true x m e
  | .ln, .fin n m e =>
    if m = 0 then .inf true .ofInv else if n then .nan .ofInv else logFin false x m e
  | .rcp, _ => fdiv false .one v
  | .sqrt, _ => fsqrt v
  | .rsqrt, .inf n => if n then .nan .ofInv else .ok 0
  | .rsqrt, .fin n m e =>
    if m = 0 then .inf n .ofInv
    else if n then .nan .ofInv
    else if m = 2 ^ log2 m ∧ (e + log2 m) % 2 = 0 then .round false false 1 (-((e + log2 m) / 2))
    else bounded 0x2E 1 false false x (apRsqrt m e)
  | .sigmoid, .inf n => if n then .ok 0 else .ok 0x3F800000
  | .sigmoid, .fin n m e => if m = 0 then .ok 0x3F000000 else bounded 0x2F 2 false false x (apSigmoid n m e)
  | .tanh, .inf n => .ok (if n then 0xBF800000 else 0x3F800000)
  | .tanh, .fin n m e =>
    if m = 0 then .ok (Fmt.signed .binary32 n 0) else bounded 0x30 2 false n x (apTanh m e)
  | .silu, .inf n => if n then .ok 0x80000000 else .inf false .none
  | .silu, .fin n m e =>
    if m = 0 then .ok (Fmt.signed .binary32 n 0)
    else
      let a := apSigmoid n m e
      bounded 0x31 3 false n x ⟨m * a.m, e + a.e⟩

end Sys2Proof
end

