-- ==== Sys2Proof/Machine/TleMath.lean ====
section
/-!
DEFINITION. Tile registers, masks, and what the tile engine's operations compute on them (05 R165 to R194, R200, R201).
-/
namespace Sys2Proof

/-- One lane: 32 bits, a poison bit and four sticky flags (05 R165). -/
structure Lane where
  v : BitVec 32
  poison : Bool
  flags : Flags
  deriving DecidableEq, Repr

/-- A lane at stream start (05 R168). -/
def Lane.zero : Lane := ⟨0, false, .none⟩

/-- A tile register: lane (r, l) under 32 * r + l. -/
abbrev Tile := SMap Lane

/-- Lane (r, l). -/
def Tile.at (t : Tile) (r l : Nat) : Lane := SMap.get (fun _ => Lane.zero) t (32 * r + l)

/-- Writes lane (r, l). -/
def Tile.put (t : Tile) (r l : Nat) (x : Lane) : Tile := SMap.put (fun _ => Lane.zero) (32 * r + l) x t

/-- A mask register (05 R167). -/
structure Mask where
  m : BitVec 1024
  poison : Bool
  deriving DecidableEq, Repr

/-- A mask at stream start. -/
def Mask.zero : Mask := ⟨0, false⟩

/-- Bit (r, l) of a mask. -/
def Mask.at (k : Mask) (r l : Nat) : Bool := k.m.getLsbD (32 * r + l)

/-- The state of a tile engine: t0 to t15 and k1 to k7. -/
structure Tle where
  tiles : SMap Tile
  masks : SMap Mask
  deriving DecidableEq, Repr

/-- The tile engine at stream start (05 R168). -/
def Tle.start : Tle := ⟨[], []⟩

/-- Tile register i. -/
def Tle.tile (t : Tle) (i : Nat) : Tile := SMap.get (fun _ => []) t.tiles i

/-- Writes tile register i. -/
def Tle.setTile (t : Tle) (i : Nat) (x : Tile) : Tle := { t with tiles := SMap.put (fun _ => []) i x t.tiles }

/-- Mask register i; k0 reads as all ones (05 R167). -/
def Tle.mask (t : Tle) (i : Nat) : Mask :=
  if i = 0 then ⟨BitVec.allOnes 1024, false⟩ else SMap.get (fun _ => Mask.zero) t.masks i

/-- Writes mask register i. -/
def Tle.setMask (t : Tle) (i : Nat) (x : Mask) : Tle :=
  { t with masks := SMap.put (fun _ => Mask.zero) i x t.masks }

/-- A mask from its bits. -/
def maskOf (p : Nat → Nat → Bool) : BitVec 1024 :=
  BitVec.ofNat 1024 ((List.range 32).foldl (fun a r =>
    a + ((List.range 32).foldl (fun b l => b + b2n (p r l) * 2 ^ l) 0) * 2 ^ (32 * r)) 0)

/-- The operand fields of layout A (05 R170). -/
structure LayA where
  td : Nat
  ta : Nat
  tb : Nat
  tc : Nat
  mreg : Nat
  mz : Bool
  isInt : Bool
  bsel : Nat
  rmode : RMode
  sat : Bool
  wcnt : Bool
  kd : Nat
  imode : Nat
  imm : Nat
  cond : Nat
  rfmt : Nat
  deriving DecidableEq, Repr

/-- Layout A of an instruction word (05 R170). -/
def layA (w : Nat) : LayA :=
  { td := bits w 35 32, ta := bits w 39 36, tb := bits w 43 40, tc := bits w 47 44, mreg := bits w 50 48
    mz := bit w 51, isInt := bit w 52, bsel := bits w 54 53, rmode := RMode.ofCode (bits w 56 55), sat := bit w 57
    wcnt := bit w 58, kd := bits w 61 59, imode := bits w 63 62, imm := bits w 95 64, cond := bits w 99 96
    rfmt := bits w 103 100 }

/-- Operand b of lane (r, l) (05 R179). -/
def bLane (t : Tle) (a : LayA) (r l : Nat) : Lane :=
  match a.bsel with
  | 0 => (t.tile a.tb).at r l
  | 1 => (t.tile a.tb).at 0 l
  | 2 => (t.tile a.tb).at r 0
  | _ => ⟨BitVec.ofNat 32 a.imm, false, .none⟩

/-- Writes every lane of a tile by a function. -/
def mapLanes (old : Tile) (f : Nat → Nat → Lane) : Tile :=
  (List.range 32).foldl (fun t r => (List.range 32).foldl (fun t l => t.put r l (f r l)) t) old

/-- The value an undefined lane takes (05 R180). -/
def poisonLane (fresh r l : Nat) (old : Flags) : Lane := ⟨Config.freeLane (fresh * 4096 + 32 * r + l), true, old⟩

/-- What an instruction leaves of lane (r, l), from the inputs' poison and the result (05 R178, R180, R181): `kp` is
the poison of mk. -/
def laneOut (old : Lane) (kp active mz inP : Bool) (fresh r l : Nat) (res : BitVec 32 × Flags) : Lane :=
  if active then
    if inP || kp then poisonLane fresh r l old.flags else ⟨res.1, false, old.flags.or res.2⟩
  else if mz then ⟨0, kp, old.flags⟩
  else old

/-- How a tile instruction ended: its new state, whether an active lane is poisoned, the flags raised, the active lane
operations and the transcendental results. -/
structure TleOut where
  t : Tle
  poison : Bool
  flags : Flags
  lanes : Nat
  xcns : Nat
  deriving DecidableEq, Repr

/-- The active lanes of a mask. -/
def activeLanes (k : Mask) : List (Nat × Nat) :=
  (List.range 32).flatMap (fun r => ((List.range 32).filter (fun l => k.at r l)).map (fun l => (r, l)))

/-- A layout A lane operation: the poison and result of each active lane are given (05 R178). -/
def laneOp (t : Tle) (a : LayA) (fresh : Nat) (isXcn : Bool) (inP : Nat → Nat → Bool)
    (f : Nat → Nat → BitVec 32 × Flags) : TleOut :=
  let k := t.mask a.mreg
  let act := activeLanes k
  let bad := k.poison || act.any (fun p => inP p.1 p.2)
  { t := t.setTile a.td (mapLanes (t.tile a.td) (fun r l =>
      laneOut ((t.tile a.td).at r l) k.poison (k.at r l) a.mz (inP r l) fresh r l (f r l)))
    poison := bad
    flags := orFlags ((act.filter (fun p => !(inP p.1 p.2 || k.poison))).map (fun p => (f p.1 p.2).2))
    lanes := act.length
    xcns := if isXcn then act.length else 0 }

/-- A two-operand or three-operand lane function. -/
inductive ArOp where
  | add | sub | mul | fma | div | min | max
  deriving DecidableEq, Repr

/-- The result of an exact binary32 operation: NaN operands, invalid operations and overflow by 04 R163. Infinity times
zero with a NaN addend meets the first two rows; the NaN row is taken (log entry 79). -/
def fres (sat nanIn : Bool) (v : Val) : FRes :=
  if nanIn then .nan .ofNan
  else if v.isNan then .nan .ofInv
  else
    let r := convF .binary32 .rne sat v
    (BitVec.ofNat 32 r.1, r.2)

/-- The lesser or greater of two binary32 values; -0 lies below +0 (05 R182). -/
def fminmax (wantMax : Bool) (x y : BitVec 32) : FRes :=
  let a := ofB32 x.toNat
  let b := ofB32 y.toNat
  if a.isNan || b.isNan then .nan .ofNan
  else if a.lt b then (if wantMax then y else x, .none)
  else if b.lt a then (if wantMax then x else y, .none)
  else if wantMax then (if a.signBit then y else x, .none)
  else (if a.signBit then x else y, .none)

/-- Binary32 lane arithmetic (05 R182). -/
def arFloat (op : ArOp) (sat : Bool) (x y z : BitVec 32) : FRes :=
  let a := ofB32 x.toNat
  let b := ofB32 y.toNat
  let c := ofB32 z.toNat
  match op with
  | .add => fres sat (a.isNan || b.isNan) (a.add b)
  | .sub => fres sat (a.isNan || b.isNan) (a.add b.neg)
  | .mul => fres sat (a.isNan || b.isNan) (a.mul b)
  | .fma => fres sat (a.isNan || b.isNan || c.isNan) ((a.mul b).add c)
  | .div => fdiv sat a b
  | .min => fminmax false x y
  | .max => fminmax true x y

/-- An INT32 result clamped once (05 R183). -/
def ires (x : Int) : FRes :=
  let r := clampTo .int32 x
  (BitVec.ofInt 32 r.1, r.2)

/-- INT32 lane arithmetic (05 R183). -/
def arInt (op : ArOp) (x y z : BitVec 32) : FRes :=
  let a := x.toInt
  let b := y.toInt
  match op with
  | .add => ires (a + b)
  | .sub => ires (a - b)
  | .mul => ires (a * b)
  | .fma => ires (a * b + z.toInt)
  | .div => if b = 0 then (0, .ofInv) else ires (a.tdiv b)
  | .min => (if a ≤ b then x else y, .none)
  | .max => (if a ≤ b then y else x, .none)

/-- ADD, SUB, MUL, FMA, DIV, MIN, MAX. -/
def tleArith (op : ArOp) (t : Tle) (a : LayA) (fresh : Nat) : TleOut :=
  let A := t.tile a.ta
  let C := t.tile a.tc
  laneOp t a fresh (op == .div)
    (fun r l => (A.at r l).poison || (bLane t a r l).poison || (op == .fma && (C.at r l).poison))
    (fun r l =>
      let x := (A.at r l).v
      let y := (bLane t a r l).v
      let z := (C.at r l).v
      if a.isInt then arInt op x y z else arFloat op a.sat x y z)

/-- ABS and NEG of one lane (05 R182, R183). -/
def absNeg (neg isInt : Bool) (x : BitVec 32) : FRes :=
  if isInt then
    let v := x.toInt
    ires (if neg then -v else if v < 0 then -v else v)
  else if (ofB32 x.toNat).isNan then .nan .ofNan
  else (if neg then x ^^^ 0x80000000 else x &&& 0x7FFFFFFF, .none)

/-- ABS and NEG. -/
def tleAbsNeg (neg : Bool) (t : Tle) (a : LayA) (fresh : Nat) : TleOut :=
  let A := t.tile a.ta
  laneOp t a fresh false (fun r l => (A.at r l).poison) (fun r l => absNeg neg a.isInt (A.at r l).v)

/-- A bitwise operation or shift. -/
inductive BitOp where
  | and | or | xor | shl | shrl | shra
  deriving DecidableEq, Repr

/-- A bitwise operation or shift on raw bits (05 R184). -/
def bitOp (op : BitOp) (x y : BitVec 32) : BitVec 32 :=
  match op with
  | .and => x &&& y
  | .or => x ||| y
  | .xor => x ^^^ y
  | .shl => x <<< (y.toNat % 32)
  | .shrl => x >>> (y.toNat % 32)
  | .shra => x.sshiftRight (y.toNat % 32)

/-- AND, OR, XOR and the shifts. -/
def tleBit (op : BitOp) (t : Tle) (a : LayA) (fresh : Nat) : TleOut :=
  let A := t.tile a.ta
  laneOp t a fresh false (fun r l => (A.at r l).poison || (bLane t a r l).poison)
    (fun r l => (bitOp op (A.at r l).v (bLane t a r l).v, .none))

/-- MOV (05 R184). -/
def tleMov (t : Tle) (a : LayA) (fresh : Nat) : TleOut :=
  laneOp t a fresh false (fun r l => (bLane t a r l).poison) (fun r l => ((bLane t a r l).v, .none))

/-- SEL: every lane takes ta or b by its mask bit (05 R174, R181). -/
def tleSel (t : Tle) (a : LayA) (fresh : Nat) : TleOut :=
  let k := t.mask a.mreg
  let pick := fun r l => if k.at r l then (t.tile a.ta).at r l else bLane t a r l
  let T := t.tile a.td
  { t := t.setTile a.td (mapLanes T (fun r l =>
      laneOut (T.at r l) k.poison true false (pick r l).poison fresh r l ((pick r l).v, .none)))
    poison := k.poison || (List.range 32).any (fun r => (List.range 32).any (fun l => (pick r l).poison))
    flags := .none
    lanes := 1024
    xcns := 0 }

/-- CVT of one lane (05 R185). -/
def cvtLane (isInt : Bool) (mode : RMode) (sat : Bool) (x : BitVec 32) : FRes :=
  if isInt then
    let r := convF .binary32 mode sat (.ofInt x.toInt)
    (BitVec.ofNat 32 r.1, r.2)
  else
    let r := convI .int32 mode (ofB32 x.toNat)
    (BitVec.ofInt 32 r.1, r.2)

/-- RND of one lane (05 R185). -/
def rndLane (f : Fmt) (mode : RMode) (sat : Bool) (x : BitVec 32) : FRes :=
  let r := convF f mode sat (ofB32 x.toNat)
  (BitVec.ofNat 32 (convF .binary32 .rne false (valF f r.1)).1, r.2)

/-- CVT. -/
def tleCvt (t : Tle) (a : LayA) (fresh : Nat) : TleOut :=
  let A := t.tile a.ta
  laneOp t a fresh false (fun r l => (A.at r l).poison) (fun r l => cvtLane a.isInt a.rmode a.sat (A.at r l).v)

/-- RND. -/
def tleRnd (t : Tle) (a : LayA) (fresh : Nat) : TleOut :=
  let A := t.tile a.ta
  laneOp t a fresh false (fun r l => (A.at r l).poison)
    (fun r l => rndLane (Fmt.ofCode a.rfmt) a.rmode a.sat (A.at r l).v)

/-- A transcendental operation, RCP or SQRT. -/
def tleXcn (op : Xcn) (t : Tle) (a : LayA) (fresh : Nat) : TleOut :=
  let A := t.tile a.ta
  laneOp t a fresh true (fun r l => (A.at r l).poison) (fun r l => xcn op a.sat (A.at r l).v)

/-- A reduction. -/
inductive RedOp where
  | sum | max | min
  deriving DecidableEq, Repr

/-- One level of the binary tree: an absent child passes the other on (05 R187). -/
def treeLevel (f : BitVec 32 → BitVec 32 → FRes) : List (Option FRes) → List (Option FRes)
  | x :: y :: rest =>
    (match x, y with
     | none, b => b
     | a, none => a
     | some a, some b => let c := f a.1 b.1; some (c.1, (a.2.or b.2).or c.2)) :: treeLevel f rest
  | xs => xs

/-- Five levels over 32 inputs (05 R187). -/
def tree32 (f : BitVec 32 → BitVec 32 → FRes) (xs : List (Option FRes)) : Option FRes :=
  match treeLevel f (treeLevel f (treeLevel f (treeLevel f (treeLevel f xs)))) with
  | x :: _ => x
  | [] => none

/-- An input of a sum: a NaN is the canonical one with nan_op, even alone (04 R145, R163). -/
def redLeaf (x : BitVec 32) : FRes := if (ofB32 x.toNat).isNan then .nan .ofNan else (x, .none)

/-- A reduction of the active inputs, with index order (05 R186 to R188). A NaN anywhere gives NaN with nan_op, even
alone. -/
def reduce (op : RedOp) (isInt sat : Bool) (xs : List (Option (BitVec 32))) : FRes :=
  let act := xs.filterMap id
  if isInt then
    match op with
    | .sum => ires (act.foldl (fun s x => s + x.toInt) 0)
    | .max => (act.foldl (fun m x => if m.toInt < x.toInt then x else m) 0x80000000, .none)
    | .min => (act.foldl (fun m x => if x.toInt < m.toInt then x else m) 0x7FFFFFFF, .none)
  else
    match op with
    | .sum =>
      match tree32 (fun x y => arFloat .add sat x y 0) (xs.map (fun o => o.map redLeaf)) with
      | some r => r
      | none => (0, .none)
    | .max =>
      match act with
      | [] => (0xFF800000, .none)
      | x :: rest => rest.foldl (fun m y => let c := fminmax true m.1 y; (c.1, m.2.or c.2)) (fminmax true x x)
    | .min =>
      match act with
      | [] => (0x7F800000, .none)
      | x :: rest => rest.foldl (fun m y => let c := fminmax false m.1 y; (c.1, m.2.or c.2)) (fminmax false x x)

/-- RSUM, RMAX, RMIN and the column forms (05 R186). -/
def tleReduce (op : RedOp) (byCol : Bool) (t : Tle) (a : LayA) (fresh : Nat) : TleOut :=
  let k := t.mask a.mreg
  let A := t.tile a.ta
  let T := t.tile a.td
  let at_ := fun (i j : Nat) => if byCol then (j, i) else (i, j)
  let ins := fun i => (List.range 32).map (fun j =>
    let p := at_ i j
    if k.at p.1 p.2 then some (A.at p.1 p.2) else none)
  let res := (List.range 32).map (fun i =>
    let xs := ins i
    let bad := k.poison || xs.any (fun o => match o with | some x => x.poison | none => false)
    (bad, reduce op a.isInt a.sat (xs.map (fun o => o.map Lane.v))))
  let get := fun i => (res[i]?).getD (false, (0, Flags.none))
  { t := t.setTile a.td (mapLanes T (fun r l =>
      let x := get (if byCol then l else r)
      let old := T.at r l
      let fl := if (if byCol then r else l) = 0 then old.flags.or x.2.2 else old.flags
      if x.1 then poisonLane fresh r l old.flags else ⟨x.2.1, false, fl⟩))
    poison := res.any Prod.fst
    flags := orFlags ((res.filter (fun x => !x.1)).map (fun x => x.2.2))
    lanes := (activeLanes k).length
    xcns := 0 }

/-- TRN (05 R189): bits and poison move, the lanes' sticky flags stay. -/
def tleTrn (t : Tle) (a : LayA) : TleOut :=
  let A := t.tile a.ta
  let T := t.tile a.td
  { t := t.setTile a.td (mapLanes T (fun r l =>
      let x := A.at l r
      ⟨x.v, x.poison, (T.at r l).flags⟩))
    poison := (List.range 32).any (fun r => (List.range 32).any (fun l => (A.at r l).poison))
    flags := .none
    lanes := 1024
    xcns := 0 }

/-- A comparison of two lanes (05 R170, R192). -/
def cmpLane (isInt : Bool) (cond : Nat) (x y : BitVec 32) : Bool :=
  let c : Bool × Bool × Bool :=
    if isInt then (decide (x.toInt < y.toInt), decide (x = y), decide (y.toInt < x.toInt))
    else
      let a := ofB32 x.toNat
      let b := ofB32 y.toNat
      (a.lt b, a.eq b, b.lt a)
  match cond with
  | 0 => c.2.1
  | 1 => !c.2.1
  | 2 => c.1
  | 3 => c.1 || c.2.1
  | 4 => c.2.2
  | _ => c.2.2 || c.2.1

/-- CMP (05 R181, R192). -/
def tleCmp (t : Tle) (a : LayA) : TleOut :=
  let k := t.mask a.mreg
  let A := t.tile a.ta
  let old := t.mask a.kd
  let act := activeLanes k
  let bad := k.poison || act.any (fun p => (A.at p.1 p.2).poison || (bLane t a p.1 p.2).poison)
  let full := a.mz || decide (act.length = 1024)
  { t := t.setMask a.kd
      ⟨maskOf (fun r l =>
        if k.at r l then cmpLane a.isInt a.cond (A.at r l).v (bLane t a r l).v
        else if a.mz then false else old.at r l),
       bad || (!full && old.poison)⟩
    poison := bad
    flags := .none
    lanes := act.length
    xcns := 0 }

/-- Does value x rank above value y (05 R193)? NaN lies below every other value. -/
def ranksAbove (isInt : Bool) (x y : BitVec 32) : Bool :=
  if isInt then decide (y.toInt < x.toInt)
  else
    let a := ofB32 x.toNat
    let b := ofB32 y.toNat
    if a.isNan then false else if b.isNan then true else b.lt a

/-- How many active lanes of a row come before lane l: those that rank above it, and equal ones of a lower index. -/
def rankOf (isInt : Bool) (row : List (Option (BitVec 32))) (l : Nat) (x : BitVec 32) : Nat :=
  ((List.range 32).filter (fun j =>
    match (row[j]?).getD none with
    | none => false
    | some y => ranksAbove isInt y x || (!ranksAbove isInt x y && decide (j < l)))).length

/-- TOPK (05 R193). -/
def tleTopk (t : Tle) (a : LayA) : TleOut :=
  let k := t.mask a.mreg
  let A := t.tile a.ta
  let act := activeLanes k
  let bad := k.poison || act.any (fun p => (A.at p.1 p.2).poison)
  let row := fun r => (List.range 32).map (fun l => if k.at r l then some (A.at r l).v else none)
  let rows := (List.range 32).map row
  { t := t.setMask a.kd
      ⟨maskOf (fun r l => k.at r l &&
        decide (rankOf a.isInt ((rows[r]?).getD []) l (A.at r l).v < a.imm)), bad⟩
    poison := bad
    flags := .none
    lanes := act.length
    xcns := 0 }

/-- KLOGIC (05 R173, R181, R194). -/
def tleKlogic (t : Tle) (kd ka kb fn : Nat) : TleOut :=
  let x := t.mask ka
  let y := t.mask kb
  let bad := x.poison || y.poison
  { t := t.setMask kd
      ⟨match fn with
        | 0 => x.m &&& y.m
        | 1 => x.m ||| y.m
        | 2 => x.m &&& ~~~y.m
        | _ => x.m ^^^ y.m, bad⟩
    poison := bad
    flags := .none
    lanes := 0
    xcns := 0 }

/-- One kind of flag (05 R173). -/
def Flags.kind (f : Flags) (k : Nat) : Bool :=
  match k with
  | 0 => f.nanOp
  | 1 => f.inv
  | 2 => f.ovf
  | _ => f.isat

/-- FLAGS (05 R194). -/
def tleFlags (t : Tle) (kd kind : Nat) (clear : Bool) : TleOut :=
  let m := maskOf (fun r l => (List.range 16).any (fun i => ((t.tile i).at r l).flags.kind kind))
  let t1 := t.setMask kd ⟨m, false⟩
  let wipe := fun (x : Tile) => x.foldl (fun acc e =>
    SMap.put (fun _ => Lane.zero) e.1 { e.2 with flags := .none } acc) ([] : Tile)
  { t := if clear then { t1 with tiles := t1.tiles.foldl (fun acc e => SMap.put (fun _ => []) e.1 (wipe e.2) acc) [] }
         else t1
    poison := false
    flags := .none
    lanes := 0
    xcns := 0 }

/-- The element a compress takes from lane (r, l) (05 R200). -/
def compressElem (t : Tle) (ta imode ibase r l : Nat) : BitVec 32 × Bool :=
  match imode with
  | 0 => (((t.tile ta).at r l).v, ((t.tile ta).at r l).poison)
  | 1 => (BitVec.ofNat 32 (ibase + 32 * r + l), false)
  | 2 => (BitVec.ofNat 32 (ibase + r), false)
  | _ => (BitVec.ofNat 32 (ibase + l), false)

/-- CMPR (05 R200). -/
def tleCmpr (t : Tle) (a : LayA) (fresh : Nat) : TleOut :=
  let k := t.mask a.mreg
  let T := t.tile a.td
  let C := t.tile a.tc
  let rows := (List.range 32).map (fun r =>
    ((List.range 32).filter (fun l => k.at r l)).map (fun l => compressElem t a.ta a.imode a.imm r l))
  let row := fun r => (rows[r]?).getD []
  let out := mapLanes T (fun r l =>
    let old := T.at r l
    match (row r)[l]? with
    | some e => if e.2 || k.poison then poisonLane fresh r l old.flags else ⟨e.1, false, old.flags⟩
    | none => ⟨0, k.poison, old.flags⟩)
  let t1 := t.setTile a.td out
  let bad := k.poison || rows.any (fun r => r.any Prod.snd)
  { t := if a.wcnt then t1.setTile a.tc (mapLanes C (fun r l =>
        let old := C.at r l
        if k.poison then poisonLane fresh (r + 32) l old.flags
        else ⟨BitVec.ofNat 32 (row r).length, false, old.flags⟩)) else t1
    poison := bad
    flags := .none
    lanes := (activeLanes k).length
    xcns := 0 }

/-- EXPR (05 R201). -/
def tleExpr (t : Tle) (a : LayA) (fresh : Nat) : TleOut :=
  let k := t.mask a.mreg
  let A := t.tile a.ta
  let idx := fun r l => ((List.range l).filter (fun j => k.at r j)).length
  laneOp t a fresh false (fun r l => (A.at r (idx r l)).poison) (fun r l => ((A.at r (idx r l)).v, .none))

/-- TMM (05 R190). -/
def tleTmm (t : Tle) (a : LayA) (fresh : Nat) : TleOut :=
  let A := t.tile a.ta
  let B := t.tile a.tb
  let C := t.tile a.tc
  let rowP := (List.range 32).map (fun i => (List.range 32).any (fun k => (A.at i k).poison))
  let colP := (List.range 32).map (fun n => (List.range 32).any (fun k => (B.at k n).poison))
  let o := laneOp t a fresh false
    (fun i n => (rowP[i]?).getD false || (colP[n]?).getD false || (C.at i n).poison)
    (fun i n => (List.range 32).foldl (fun acc k =>
      let r := arFloat .fma a.sat (A.at i k).v (B.at k n).v acc.1
      (r.1, acc.2.or r.2)) ((C.at i n).v, Flags.none))
  { o with lanes := 32 * o.lanes }

end Sys2Proof
end

