-- ==== Sys2Proof/Machine/State.lean ====
section
/-!
DEFINITION. The state of the LD-744: plain data. The registers of every block's register section stand in `regs` under
their BAR0 offsets (Machine/Regs.lean holds their maps); everything else the spec gives the machine stands in the
structures below. Tables are sparse: an absent entry reads as the reset value.
-/
namespace Sys2Proof.Machine

/-! ## Packets and jobs -/


/-- Where the data of an answer goes at its requester. -/
inductive Dest where
  /-- Nowhere. -/
  | none
  /-- A part of a transfer at a position, without data. -/
  | part (pos : Nat)
  /-- The scratchpad of a site. -/
  | scratch (site addr : Nat)
  /-- A vault of this package. -/
  | vault (v off : Nat)
  /-- The bytes gathered by the job, from a position on. -/
  | buf (pos : Nat)
  /-- A table of another node that an agent reads: its key, and the range. -/
  | table (key addr len : Nat)
  deriving DecidableEq, Repr

/-- Where bytes lie: a vault of this package, or a vault of another node by vault ID. -/
inductive Place where
  | vault (v off : Nat)
  | remote (vid off : Nat)
  deriving DecidableEq, Repr

/-- A piece of an access: its place, its position in the transfer, and its length. -/
structure Piece where
  place : Place
  pos : Nat
  len : Nat
  deriving DecidableEq, Repr

/-- A read of a table of another node (01 R44, 08 R286, R291): the agent that made it, by site and key (an engine, a
command or a job), the sky address and length, and the status and bytes of the answer. -/
structure TabRead where
  site : Nat
  key : Nat
  addr : Nat
  len : Nat
  ans : Option (Nat × List PByte)
  deriving DecidableEq, Repr

/-- The agent whose instruction or command runs, by site and key, and its look-ups so far: the page-layers it has walked
(the window's base and the page; whether the first level passed, the second-level entry's sky address and value), of
which one instruction walks each at most once (08 R286), and the ranges at other nodes that it has not read yet. -/
structure Asker where
  site : Nat
  key : Nat
  walks : List ((Nat × Nat) × (Bool × Nat × Nat))
  wanted : List (Nat × Nat)
  deriving DecidableEq, Repr

/-- Where an outstanding packet stands (10 R372, R384, R387). -/
inductive SentState where
  /-- Sent and unanswered. -/
  | flying
  /-- Waiting at the source for a port, an entry or its flow (10 R372, R382, R383). -/
  | waiting
  /-- Refused, to be resent or given up (10 R384). -/
  | refused
  deriving DecidableEq, Repr

/-- A REQ or TOK packet of a local source that has not completed; `ans` holds the status and data of an answer that waits
for earlier packets of its flow (10 R387), `noPort` one more than the tick since when it waits for a port or an entry (R372),
0 while it does not. -/
structure Sent where
  pkt : Packet
  tower : Nat
  site : Nat
  job : Nat
  dest : Dest
  st : SentState
  port : Nat
  since : Nat
  firstRefusal : Nat
  why : Nat
  noPort : Nat
  ans : Option (Nat × List PByte)
  deriving DecidableEq, Repr

/-- A LINK or PUBLISH that waits for the prefix directory (08 R319, R320): its job and core, S, the sharing domain, the
prefix block's inputs, the descriptor's address, the block's address, and the page's second-level entries: the sky
address and value of each. -/
structure PfxAsk where
  job : Nat
  site : Nat
  streams : Nat
  domain : Nat
  parent : List Byte
  mtag : List Byte
  tokens : List Byte
  desc : Nat
  block : Nat
  ents : List (Nat × Nat)
  deriving DecidableEq, Repr

/-- A request in the queue of the prefix directory (08 R319 to R323); `fork` keeps the place of a SEQ_FORK, by its
command's key. -/
inductive PfxReq where
  | link (a : PfxAsk)
  | publish (a : PfxAsk)
  | release (entry : Nat)
  | fork (key : Nat)
  deriving DecidableEq, Repr

/-- A request that has arrived at the prefix directory: when, and from where: T0 to T3, 4 the host (08 R323). -/
structure PfxArrival where
  tick : Nat
  source : Nat
  req : PfxReq
  deriving DecidableEq, Repr

/-- A page-layer that a KVX instruction touches: its window offset, its slots and tokens, its second-level entry's sky
address and value (08 R282, R285). -/
structure KvPage where
  off : Nat
  slot : Nat
  count : Nat
  tok : Nat
  at_ : Nat
  e2 : Nat
  deriving DecidableEq, Repr

/-- Where an APPEND stands with its first page-layer left (08 R291, R312, R313). -/
inductive AppStage where
  /-- It takes a frame if it needs one. -/
  | frame
  /-- The CAS of the pool's counter from a value is under way, for a frame; whether the pool is low then. -/
  | cas (cons f : Nat) (low : Bool)
  /-- It has its frame, taken or not: the copy and the records go out. -/
  | write (f : Nat) (taken : Bool)
  /-- The old frame's slots are being read. -/
  | copy (f : Nat)
  /-- The records are out; the entry follows. -/
  | entry (f : Nat) (taken : Bool)
  /-- The entry is out; the release of the old frame's directory entry follows. -/
  | after
  deriving DecidableEq, Repr

/-- An APPEND in progress (08 R312): its window and its pool with the cap read at its start, its record size and pitch,
its records, the page-layers left, whether it has posted POOL_LOW, and where it stands. -/
structure AppSt where
  window : Nat
  pool : Nat
  cap : Nat
  recBytes : Nat
  pitch : Nat
  rows : List PByte
  pages : List KvPage
  low : Bool
  stage : AppStage
  deriving DecidableEq, Repr

/-- A bank-unit command's work (07 R255 to R262). Addresses are physical byte addresses. -/
inductive BkuOp where
  | fill (addr rows : Nat) (pattern : BitVec 64)
  | copy (dst src rows : Nat)
  | gather (dst : Nat) (items : List (Nat × Nat))
  | qld (slot n : Nat) (units : List Nat) (data : List PByte)
  | score (base fmt slot count e0 n recBytes : Nat) (dst : Nat)
  | acc (base fmt slot count e0 n recBytes woff : Nat) (dst : Nat)
  deriving DecidableEq, Repr

/-- A bank-unit command of KVX that has not entered the vault's queue (08 R301 to R303): its work and units, the place of
its result, and the sky-virtual address that a failure records. -/
structure KvCmd where
  op : BkuOp
  units : List Nat
  part : Nat
  addr : Nat
  deriving DecidableEq, Repr

/-- A segment that REPLY returns (09 R356): its flag, its count, and its rows: slot and source address. -/
structure RepSeg where
  flag : Nat
  count : Nat
  rows : List (Nat × Nat)
  deriving DecidableEq, Repr

/-- What a command of the host does once its packets are answered: LOAD of some bytes, of which the first poisoned one
may be known, and whether its host reads failed; STORE in pieces of host memory, and whether those writes arrive;
FLAG_WRITE, which returns the old value for ADD; any other with its result (12 R458 to R464). -/
inductive HostEnd where
  | load (len : Nat) (first : Option Nat) (failed : Bool)
  | store (sgl : List (Nat × Nat)) (ok : Bool)
  | flag (add : Bool)
  | result (r : Nat)
  deriving DecidableEq, Repr

/-- What an instruction still does once everything it has outstanding is answered. -/
inductive JobEnd where
  /-- Nothing further. -/
  | plain
  /-- PUTF: add to the flag, here or at another node, if every write ended OK or POISONED (10 R399). -/
  | flagAdd (remote : Bool) (vault off addend : Nat)
  /-- REPLY: with the rows of the first segment written, add to its flag; with that done, the others (09 R356). -/
  | reply (flagSent : Bool) (segs : List RepSeg) (space rowBytes : Nat)
  /-- COPY from another node: the bytes read are written to the pieces of the destination, translated as it issued
(02 R97); the space and address of the destination. -/
  | copyOut (space ea src len : Nat) (narrow : Bool) (pieces : List Piece)
  /-- FETCH: the records gathered become staging operands (08 R299). -/
  | fetch (d x fmt e0 n nt recBytes : Nat)
  /-- APPEND goes on with its page-layers (08 R312). -/
  | append (a : AppSt)
  /-- SCORE and ACC of KVX: the commands not yet in the vault's queue; with all of them ended, the rows are written at an
  address for a group, n elements or nt tokens, and slot 1 of the units is given up (08 R301 to R303). -/
  | absorb (acc : Bool) (d g n nt : Nat) (cmds : List KvCmd) (units : List Nat)
  /-- KVX: it has ended and waits for earlier ones to complete (08 R296). -/
  | ready (halt : Bool)
  /-- PUBLISH: the request goes out once the descriptor has taken effect (08 R320). -/
  | publish (a : PfxAsk)
  /-- LINK, PUBLISH: the page's second-level entries are to be written, each at its sky address, then the prefix block
(08 R319, R320). -/
  | entries (ws : List (Nat × List PByte)) (addr : Nat) (data : List PByte)
  /-- LINK, PUBLISH: the prefix block is written last (08 R296). -/
  | block (addr : Nat) (data : List PByte)
  /-- A BAR4 read of some bytes at an offset: its TLP is completed (12 R432). -/
  | hostRead (off len : Nat)
  /-- A BAR4 write at an offset (12 R432). -/
  | hostWrite (off : Nat)
  /-- A write of the trace unit (17 R598). -/
  | traceWrite
  /-- A command of a ring, by the head after it was taken (12 R458 to R464). -/
  | command (ring head : Nat) (e : HostEnd)
  deriving DecidableEq, Repr

/-- An issued instruction that is not yet complete: packets outstanding, what its completion still does, the
scratchpad ranges and tile registers it will still write, which the scoreboard holds (02 R66, R68), the memory it will still write (01 R54:
a vault of the package or 4,096 past a vault ID, an offset and a length), the position of the part that gave
its status (10 R399), CORE_RETIRED as it issued, and what its routing record names: a vault ID, utag and row count
(17 R600). -/
structure Job where
  id : Nat
  site : Nat
  engine : Nat
  op : Nat
  itag : Nat
  status : Nat
  left : Nat
  buf : SMap (List PByte)
  fin : JobEnd
  addr : Nat
  space : Nat
  dests : List (Nat × Nat)
  tiles : List Nat
  mem : List (Nat × Nat × Nat)
  first : Nat
  issued : Nat
  route : Option (Nat × Nat × Nat)
  deriving DecidableEq, Repr

/-! ## Cores -/

/-- An address generator (02 R72). -/
structure Ag where
  base : BitVec 64
  space : BitVec 2
  s0 : BitVec 32
  s1 : BitVec 32
  s2 : BitVec 32
  deriving DecidableEq, Repr

/-- A cleared generator. -/
def Ag.zero : Ag := ⟨0, 0, 0, 0, 0⟩

/-- An open repeat body (02 R76, R77): the address after its REPEAT, the passes asked for and the pass running. -/
structure LoopFrame where
  body : Nat
  count : Nat
  iter : Nat
  deriving DecidableEq, Repr

/-- An armed WAIT (02 R82 to R86, 10 R394). -/
structure WaitSt where
  addr : BitVec 64
  space : Nat
  remote : Bool
  vid : Nat
  off : Nat
  cmp : Nat
  value : Nat
  deadline : Nat
  seen : Nat
  armed : Bool
  highest : Nat
  itag : Nat
  nextTry : Nat
  deriving DecidableEq, Repr

/-- What holds the sequencer. -/
inductive Hold where
  | none
  | fence (mask : Nat)
  | wait (x : WaitSt)
  | end_
  deriving DecidableEq, Repr

/-- What an instruction in the SYN queue does (02 R81, R93): a SIGNAL with its release mask, flag and value; TICK at a
scratchpad address; NOTIFY with its value. -/
inductive SynKind where
  | signal (mask : Nat) (addr : BitVec 64) (space : Nat) (add : Bool) (value : Nat)
  | tick (addr : Nat)
  | notify (value : Nat)
  deriving DecidableEq, Repr

/-- An instruction in the SYN queue (02 R67, R93), with its tag and CORE_RETIRED as it issued. -/
structure SynIns where
  kind : SynKind
  itag : Nat
  issued : Nat
  deriving DecidableEq, Repr

/-- An instruction in the queue of the SQ, FMV or KVX engine, in order (02 R66, 08 R296, 09 R338): its word, the operands
its generators gave as it issued (space, base, effective address), its job, and of a POP or POPA: its deadline, whether its
bundle has become available, the payload words copied so far, the status so far, and, of POPA, the first 32 B of the
payload as it read them (09 R337, R354). -/
structure EngIns where
  w : BitVec 128
  ops : List (Nat × Nat × Nat)
  job : Nat
  deadline : Nat
  begun : Bool
  copied : Nat
  st : Nat
  block : List PByte
  deriving DecidableEq, Repr

/-- A line of the instruction cache: eight words and its poison (02 R61, R63). -/
structure ICLine where
  words : List (BitVec 128)
  poison : Bool
  deriving DecidableEq, Repr

/-- What an MMA writes when it flushes (03 R113): the tile register, or the scratchpad address, its accumulators as its
last add left them (the second for CX), and the rows written so far. -/
structure MxaFlush where
  tile : Option Nat
  addr : Nat
  f0 : Acc
  f1 : Acc
  drained : Nat
  deriving DecidableEq, Repr

/-- An MMA in the queue of the matrix array, from its issue to its completion (03 R114 to R118, R126): its job, format
code and passes, the passes that take a new stationary plane, the bytes of a stored stationary row and of a feeder entry,
the scale bytes that have not arrived, its first slot at array row 0 and the number of its first plane, its flush, the
flags and status it ends with, and whether it has completed. -/
structure MxaEnt where
  job : Nat
  sfc : Nat
  passes : Nat
  swaps : List Nat
  rowBytes : Nat
  entBytes : Nat
  scale : Nat
  slot : Nat
  plane : Nat
  flush : Option MxaFlush
  flags : Flags
  st : Nat
  done : Bool
  deriving DecidableEq, Repr

/-- A row of the array (03 R115, R116). Slots and planes are numbered in queue order. The feeder holds the entries of the
slots from `used` up to `fetched`; the current plane is the last of the first `swapped`, and the shadow holds the next one
when `loaded` is one more. -/
structure MxaRow where
  fetched : Nat
  used : Nat
  loaded : Nat
  swapped : Nat
  deriving DecidableEq, Repr

/-- The matrix array (03 R114 to R123): its queue, its 32 rows, whether row 0 consumed an element in each of its last 31
steps (the newest first), the slots and planes queued so far, the drain buffer (job and result row of each vector), the
gap counter, whether a gap runs, whether the array is quiet, the filler configuration of the gap, and the lead cycles
that have run. -/
structure Mxa where
  queue : List MxaEnt
  rows : List MxaRow
  hist : List Bool
  slots : Nat
  planes : Nat
  drain : List (Nat × Nat)
  gap : Nat
  inGap : Bool
  quiet : Bool
  fillerOn : Bool
  window : Nat
  lead : Nat
  leadRun : Nat
  deriving DecidableEq, Repr

/-- The array after reset: quiet, its gap counter past the window (log entry 78). -/
def Mxa.reset : Mxa :=
  { queue := [], rows := List.replicate 32 ⟨0, 0, 0, 0⟩, hist := List.replicate 31 false, slots := 0, planes := 0
    drain := [], gap := 64, inGap := true, quiet := true, fillerOn := true, window := 64, lead := 0, leadRun := 0 }

/-- The state of a core site behind its registers. `touch` and `touchMem` note what an instruction that issues reads and
writes, while notes are taken (02 R66, 01 R54); `kvRun` holds the
jobs of the KVX instructions in progress, the oldest first (08 R296); `waits` holds the banks, by vault and bank, that
an access of the core waits for (07 R271, R272); `pastEnd` says that CORE_PC has passed the last address of its vault
(02 R64). -/
structure Core where
  ags : SMap Ag
  frames : List LoopFrame
  loopBuf : List (Nat × BitVec 128)
  hold : Hold
  cur : BitVec 128
  icache : SMap ICLine
  scratch : EccMem
  noBreak : Bool
  stepsLeft : Nat
  acc0 : Acc
  acc1 : Acc
  held : Option Held
  mxa : Mxa
  tle : Tle
  synq : List SynIns
  sq : List EngIns
  fmv : List EngIns
  kvq : List EngIns
  kvRun : List Nat
  touch : Option (List (Nat × Nat))
  touchMem : Option (List (Nat × Nat × Nat))
  waits : List (Nat × Nat)
  pastEnd : Bool
  areas : SMap Nat
  deriving DecidableEq, Repr

/-- A core after reset: the scratchpad zero with valid check bits (14 R513), nothing running. -/
def Core.reset : Core :=
  { ags := [], frames := [], loopBuf := [], hold := .none, cur := 0, icache := [], scratch := [], noBreak := false
    stepsLeft := 0, acc0 := Acc.start, acc1 := Acc.start, held := none, mxa := Mxa.reset
    tle := Tle.start, synq := [], sq := []
    fmv := [], kvq := [], kvRun := [], touch := none, touchMem := none, waits := [], pastEnd := false, areas := [] }

/-! ## Vaults and bank units -/

/-- Who a watch notifies. -/
inductive Watcher where
  | core (site : Nat)
  | remote (src engine tag count : Nat)
  deriving DecidableEq, Repr

/-- A watch on a flag (02 R82, R85). -/
structure Watch where
  off : Nat
  who : Watcher
  deriving DecidableEq, Repr

/-- What a request asks of a vault. -/
inductive VReq where
  | read (off len : Nat)
  | write (off : Nat) (data : List PByte)
  | atomic (off aop : Nat) (wide : Bool) (operand compare : List PByte)
  | watch (off : Nat) (who : Watcher)
  deriving DecidableEq, Repr

/-- A request at the vault port, with what it answers to (none: a request of this package), the accesses that its
arbiter has not granted yet (06 R216, R224), whether the controller has accepted it (06 R213): a write is accepted by the
write buffer only (R217), and the tower whose endpoint holds it (10 R401). -/
structure VWait where
  req : VReq
  cls : ReqClass
  narrow : Bool
  reply : Option Packet
  left : Nat
  acc : Bool
  via : Nat
  deriving DecidableEq, Repr

/-- A write whose merge read is outstanding (06 R218): its number among the vault's, its status so far, and the packet
it answers (none: a request of this package). -/
structure Merge where
  group : Nat
  st : Nat
  reply : Option Packet
  deriving DecidableEq, Repr

/-- A write buffer entry: bytes within one 128 B line, at a physical byte address (06 R217). -/
structure WEntry where
  addr : Nat
  data : List PByte
  merge : Option Merge
  deriving DecidableEq, Repr

/-- A queued or granted bank-unit command: the cycles it lasts, and those of them that BKU_CNT_BUSY has not counted yet;
for one of KVX, the place of its result in the instruction's and the address that a failure records. -/
structure BkuCmd where
  op : BkuOp
  itag : Nat
  job : Nat
  kvx : Option (Nat × Nat)
  units : List Nat
  cycles : Nat
  uncounted : Nat
  ends : Nat
  status : Nat
  writes : List (Nat × List PByte)
  result : List PByte
  deriving DecidableEq, Repr

/-- A result that waits in the result buffer (07 R265). -/
structure BkuResult where
  site : Nat
  dst : Nat
  data : List PByte
  job : Nat
  itag : Nat
  op : Nat
  status : Nat
  kvx : Option (Nat × Nat)
  deriving DecidableEq, Repr

/-- A row's entry in the correction table (06 R240): its physical row, count and age. -/
structure CeRow where
  row : Nat
  count : Nat
  age : Nat
  deriving DecidableEq, Repr

/-- A bank's row state (06 R221, R227, R231): its open row and last use, its refresh pointer, its owed refreshes and
when a refresh last fell due, in 1/4,096 of a tick. -/
structure Bank where
  openRow : Option Nat
  lastUse : Nat
  refPtr : Nat
  debt : Nat
  refAt : Nat
  deriving DecidableEq, Repr

/-- A bank after reset. -/
def Bank.zero : Bank := ⟨none, 0, 0, 0, 0⟩

/-- A layer's refresh state (06 R222, R228, R229): tREFW in microseconds, applied temperature in eighths of a degree,
timing set, and the source of its rate. -/
structure Layer where
  trefw : Nat
  temp : Int
  hot : Bool
  src : Nat
  deriving DecidableEq, Repr

/-- A layer after reset (06 R250). -/
def Layer.zero : Layer := ⟨1000, 0, false, 1⟩

/-- A weighted round-robin: credits and pointer (06 R224). -/
structure Arb where
  credit : List Nat
  ptr : Nat
  deriving DecidableEq, Repr

/-- The state of a vault and its controller behind its registers; `epoch` counts the losses of its contents, so that
lost words are fresh free values. `writeFirst` is the priority of writes (06 R225), `raw` a raw access and whether the
controller has accepted it (R213, R243), `rateAt` the last update of the refresh rates (R228). -/
structure Vault where
  epoch : Nat
  bg : Option (BitVec 64)
  mem : EccMem
  wbuf : List WEntry
  writeFirst : Bool
  retired : List Nat
  watches : List Watch
  notices : List (Watcher × Nat × List PByte)
  waiting : List VWait
  ceTable : List CeRow
  scrubAt : Nat
  scrubEnd : Nat
  scrubStop : Bool
  raw : Option Bool
  full : Arb
  narrowArb : Arb
  banks : SMap Bank
  layers : SMap Layer
  rateAt : Nat
  bandUntil : Nat
  keeper : Bool
  latches : SMap (List (BitVec 16 × Bool))
  latchValid : List Nat
  queue : List BkuCmd
  running : List BkuCmd
  results : List BkuResult
  deriving DecidableEq, Repr

/-- A vault after a full reset: contents unknown (06 R241). -/
def Vault.reset : Vault :=
  { epoch := 0, bg := none, mem := [], wbuf := [], writeFirst := false, retired := [], watches := [], notices := [], waiting := [], ceTable := []
    scrubAt := 0, scrubEnd := 0, scrubStop := false, raw := none, full := ⟨[0, 0, 0, 0], 0⟩
    narrowArb := ⟨[0, 0, 0, 0], 0⟩, banks := [], layers := [], rateAt := 0, bandUntil := 0, keeper := false, latches := []
    latchValid := [], queue := [], running := [], results := [] }

/-! ## Stage queues -/

/-- Who sends a bundle: source vault ID, engine and sequence (09 R332, 10 R389). -/
structure BundleId where
  src : Nat
  engine : Nat
  seq : Nat
  deriving DecidableEq, Repr

/-- A word of a bundle: data, poison, and whether its parity holds (09 R329, R339). -/
structure QWord where
  d : BitVec 64
  poison : Bool
  parityOk : Bool
  deriving DecidableEq, Repr

/-- A resident bundle: its descriptor and the words that have arrived (09 R331). -/
structure Bundle where
  id : BundleId
  header : BitVec 64
  bank : Nat
  pos : Nat
  words : SMap QWord
  lost : Bool
  lastWord : Nat
  remote : Bool
  deriving DecidableEq, Repr

/-- A recorded admission request (09 R332). -/
structure QReq where
  id : BundleId
  tag : Nat
  header : BitVec 64
  at_ : Nat
  remote : Bool
  abandoned : Bool
  deriving DecidableEq, Repr

/-- A stage queue behind its registers. -/
structure StageQueue where
  wb : Nat
  wp : Nat
  resident : List Bundle
  requests : List QReq
  remembered : List (BundleId × Nat)
  stallSent : Bool
  deriving DecidableEq, Repr

/-- An empty queue. -/
def StageQueue.reset : StageQueue :=
  { wb := 0, wp := 0, resident := [], requests := [], remembered := [], stallSent := false }

/-- Where a sender stands with its bundle (09 R332, R338, 10 R388). -/
inductive SendSt where
  /-- The admission request is still to be made, at or after a tick. -/
  | asking (at_ : Nat)
  /-- Recorded, not admitted. -/
  | recorded
  /-- Admitted: words are being delivered. -/
  | admitted
  /-- ABANDON sent (10 R387). -/
  | abandoned
  deriving DecidableEq, Repr

/-- A bundle that an SQ or FMV engine is sending. -/
structure Sender where
  site : Nat
  engine : Nat
  op : Nat
  itag : Nat
  seq : Nat
  dst : Nat
  remote : Bool
  header : BitVec 64
  words : List (BitVec 64 × Bool)
  next : Nat
  job : Nat
  st : SendSt
  firstRefusal : Nat
  deriving DecidableEq, Repr

/-- A bundle counter and the values that are not free yet (10 R389): value, and the tick from which it is free again
(none while its bundle is unresolved). -/
structure SeqCtr where
  next : Nat
  busy : List (Nat × Option Nat)
  deriving DecidableEq, Repr

/-! ## Fabric ports and die links -/

/-- A flit in a replay buffer: its sequence, the packet it begins or belongs to, and its bytes (10 R379). -/
structure ReplayFlit where
  seq : Nat
  tag : Nat
  bytes : List Byte
  deriving DecidableEq, Repr

/-- The retry state of a link (10 R379, R380, 11 R416): the sequence expected, the next sent, the last one
acknowledged by the peer, naks in a row for one sequence, the flits not acknowledged, when ack last advanced, what the
receiver owes, whether it waits for a replay, the credit held and the credit to be returned, in flits by class and lane
(R377, 11 R415). -/
structure Retry where
  expect : Nat
  next : Nat
  acked : Nat
  naks : Nat
  buf : List ReplayFlit
  ackAt : Nat
  owed : Nat
  owedAt : Nat
  nakSent : Bool
  credit : List Nat
  owes : List Nat
  deriving DecidableEq, Repr

/-- A link that has just trained. -/
def Retry.reset : Retry :=
  { expect := 0, next := 0, acked := 4095, naks := 0, buf := [], ackAt := 0, owed := 0, owedAt := 0
    nakSent := false, credit := [], owes := [] }

/-- What a packet does at the die it is on its way to. -/
inductive Goal where
  /-- It leaves by a port (10 R370). -/
  | port (p : Nat)
  /-- It leaves by the port that spray takes (10 R370). -/
  | spray
  /-- It came in at a tower and is for a site; a DATA packet's words that come with failed parity. -/
  | site (from_ q : Nat) (bad : List Nat)
  deriving DecidableEq, Repr

/-- A packet in a class queue (10 R400, 11 R418): the die links it has crossed, whether it is in transit through this
node, since when it waits, the port (numbered in the package) and the class and lane of the receive buffer it still
fills, the die it goes to, and what it does there. -/
structure TxEnt where
  pkt : Packet
  hop : Nat
  transit : Bool
  since : Nat
  back : Option (Nat × Nat)
  die : Nat
  goal : Goal
  deriving DecidableEq, Repr

/-- The class queues of a transmitter, in order of arrival, its class round-robin, and for each class the round-robin of
the local sources (10 R400, 11 R418). -/
structure Tx where
  q : List TxEnt
  arb : Arb
  rr : List Nat
  deriving DecidableEq, Repr

/-- An idle transmitter. -/
def Tx.reset : Tx := ⟨[], ⟨[], 0⟩, [0, 0, 0, 0]⟩

/-- A packet in the receive buffer of a port (10 R377), and when it came. -/
structure RxEnt where
  pkt : Packet
  bad : List Nat
  at_ : Nat
  deriving DecidableEq, Repr

/-- A fabric port behind its registers: its retry state, since when it retrains (10 R380), its class queues (R400) and
its receive buffer (R377). -/
structure Port where
  retry : Retry
  since : Nat
  tx : Tx
  rx : List RxEnt
  deriving DecidableEq, Repr

/-- A port after reset. -/
def Port.reset : Port := ⟨Retry.reset, 0, Tx.reset, []⟩

/-- The fabric state of a tower behind its registers: refusal table (10 R385), spray pointers (R370), RSP and MGT packets
for which no port has credit, and the pointer of the endpoint's round-robin over the ports (R400). -/
structure TowerFab where
  refusals : List Nat
  sprayRsp : Nat
  sprayMgt : Nat
  unsprayed : List TxEnt
  mesh : Nat
  deriving DecidableEq, Repr

/-- A tower's fabric block after reset. -/
def TowerFab.reset : TowerFab := ⟨[], 0, 0, [], 0⟩

/-- A die link behind its registers (11 R409 to R421): the reporting end's retry state, since when the link has trained or
retrained, the class queues of the reporting end and of the far end (R418), the spares its modules may not use (R409),
and the packet bytes that wait to fill a flit (R414). -/
structure DieLink where
  retry : Retry
  since : Nat
  tx : Tx
  txFar : Tx
  spares : List Nat
  stream : List Byte
  deriving DecidableEq, Repr

/-- A die link after reset. -/
def DieLink.reset : DieLink := ⟨Retry.reset, 0, Tx.reset, Tx.reset, [], []⟩

/-- A failover in progress (11 R420): when it began, the link that changed, the routes that change: pairs of a source and
a destination die, and the packets held for them, each at its die. -/
structure Failover where
  since : Nat
  link : Nat
  routes : List (Nat × Nat)
  held : List (Nat × TxEnt)
  deriving DecidableEq, Repr

/-- A packet that has reached its die and is to be served, or refused, there. -/
inductive Landing where
  /-- A packet that came in at a tower, at the site it is for. -/
  | site (t q : Nat) (k : Packet) (bad : List Nat)
  /-- A REQ or TOK packet that a tower refuses (10 R384, R386). -/
  | refuse (t : Nat) (k : Packet) (st : Nat)
  deriving DecidableEq, Repr

/-! ## Channels, rings, events -/

/-- A window descriptor with the copy of its vault list (01 R43, R44). -/
structure Window where
  desc : BitVec 256
  list : List Nat
  deriving DecidableEq, Repr

/-- Life of a channel index (12 R475). -/
inductive ChanSt where
  | free | live | faulted | destroying
  deriving DecidableEq, Repr

/-- A channel index (12 R448 to R453). -/
structure Channel where
  gen : Nat
  st : ChanSt
  bestEffort : Bool
  domain : Nat
  eq : Nat
  cores : List Nat
  windows : SMap Window
  deriving DecidableEq, Repr

/-- An index never used. -/
def Channel.free : Channel := ⟨0, .free, false, 0, 0, [], []⟩

/-- An event on its way to an event ring (12 R468). -/
structure Event where
  eq : Nat
  kind : Nat
  site : Nat
  handle : Nat
  status : Nat
  engine : Nat
  itag : Nat
  value : Nat
  addr : Nat
  deriving DecidableEq, Repr

/-- An error record on its way to the log (16 R569). -/
structure Record where
  cls : Nat
  block : Nat
  site : Nat
  status : Nat
  kind : Nat
  suppressed : Nat
  addr : Nat
  tick : Nat
  detail : Nat
  deriving DecidableEq, Repr

/-- A command the command processor has taken (12 R435 to R439): its ring, its 64 bytes, the head after it was taken,
the cores it has begun to act on (none before it has begun), and, once complete, its status and result. -/
structure Started where
  ring : Nat
  cmd : List Byte
  head : Nat
  work : Option (List Nat)
  done : Option (Nat × Nat)
  deriving DecidableEq, Repr

/-- A submission ring behind its registers (12 R433 to R441); after a failed completion write nothing is posted on it
(16 R582). -/
structure Ring where
  cqHead : Nat
  phase : Bool
  muted : Bool
  deriving DecidableEq, Repr

/-- A ring after reset; the phase of the first pass is 1 (12 R436). -/
def Ring.reset : Ring := ⟨0, true, false⟩

/-- An event ring behind its registers (12 R468 to R470). -/
structure EvRing where
  head : Nat
  phase : Bool
  held : List Event
  overflow : Nat
  deriving DecidableEq, Repr

/-- An event ring after reset. -/
def EvRing.reset : EvRing := ⟨0, true, [], 0⟩

/-- The prefix directory behind its registers (08 R318, R325). -/
structure Prefix where
  entries : SMap (BitVec 256)
  dead : List Nat
  queue : List PfxArrival
  reclaim : List Nat
  deriving DecidableEq, Repr

/-- An empty directory. -/
def Prefix.reset : Prefix := ⟨[], [], [], []⟩

/-- What the device sends outward. -/
inductive Out where
  /-- A write of host memory; poisoned where marked (12 R460). -/
  | hostWrite (addr : Nat) (data : List PByte)
  /-- An MSI-X vector (12 R425). -/
  | msix (vector : Nat)
  /-- A packet leaving by a port of a tower (10 R370). -/
  | packet (tower port : Nat) (p : Packet)
  /-- A flit that a port of a tower puts on its link, with its trailer; an idle flit has no bytes (10 R376). -/
  | flit (tower port : Nat) (bytes : List Byte) (trailer : Nat)
  /-- A flit that the reporting end of a die link puts on it, with its link control (11 R414). -/
  | dieFlit (link : Nat) (bytes : List Byte) (control : Nat)
  /-- The event to firmware of a port's change of state (10 R403). -/
  | portEvent (tower port state : Nat)
  /-- The event to firmware of a die link's change of state (11 R423). -/
  | linkEvent (link state : Nat)
  /-- The answer of a BAR read: data, and whether the TLP is poisoned (12 R430, R432). -/
  | barData (data : Nat) (poisoned : Bool)
  /-- The data of a vault read served for a requester in the package. -/
  | vaultData (v : Nat) (status : Nat) (data : List PByte)
  /-- The answer of an atomic or watch at a vault served for a requester in the package. -/
  | vaultAck (v : Nat) (status : Nat) (data : List PByte)
  /-- An SPDM, PLDM or I3C answer (15 R558, 17 R605, 18 R620). -/
  | message (data : List Byte)
  /-- The measurement blocks 1 to 7 that an SPDM answer reports (15 R559). -/
  | measurements (blocks : List (List Byte))
  /-- An I3C in-band interrupt (18 R620). -/
  | ibi
  /-- The reading of a PLDM sensor (17 R605). -/
  | reading (sensor : Nat) (value : Int)
  deriving DecidableEq, Repr

/-! ## Power, reset, boot, records, debug -/

/-- A temperature sensor (13 R477 to R480): its last sample in 0.125 degrees, when it was taken, and whether the sensor
is broken. -/
structure Sensor where
  value : Int
  at_ : Nat
  broken : Bool
  deriving DecidableEq, Repr

/-- A sensor after reset. -/
def Sensor.reset : Sensor := ⟨0, 0, false⟩

/-- A hot spot (13 R480 to R482, R491 to R494): its last six values, the newest first; consecutive samples over the
rate bound; its values at the rate detector's trips of the last 1 ms; whether its pair disagrees, and since when it has agreed again;
the first value of the rise window; the model's offset in 1/512 degree, since when it is clamped, and whether the model
is degraded; its last fifty forecasts, the newest first. -/
structure HotSpot where
  hist : List Int
  tripping : Nat
  trips : List (Nat × Int)
  disagree : Bool
  agreeSince : Nat
  winFirst : Option Int
  offset : Int
  clampSince : Option Nat
  degraded : Bool
  forecasts : List Int
  deriving DecidableEq, Repr

/-- A hot spot after reset. -/
def HotSpot.reset : HotSpot :=
  { hist := [], tripping := 0, trips := [], disagree := false, agreeSince := 0, winFirst := none, offset := 0
    clampSince := none, degraded := false, forecasts := [] }

/-- The power manager's state of a tower behind its registers (13 R485, R489 to R492, R494, R500, R503, R505): since
when it holds its level; what the rate detector requests (0, 2 Overcast, 3 Storm) and its last tripping sample;
the BEST_EFFORT ceiling of the rate-of-rise limit; when Storm began; since when every permitted heater is on;
flow-suspect windows in a row; the sum and number of residuals in the window, and those of a window that has ended and
is not judged yet; when the last rise window ended; when VCORE was last set. -/
structure TowerPwr where
  since : Nat
  detector : Nat
  detectorAt : Nat
  beCeiling : Nat
  stormAt : Nat
  heatersFullSince : Option Nat
  suspectRun : Nat
  residSum : Int
  residCount : Nat
  residPast : Option (Int × Nat)
  riseAt : Nat
  vcoreAt : Nat
  deriving DecidableEq, Repr

/-- A tower after reset. -/
def TowerPwr.reset : TowerPwr :=
  { since := 0, detector := 0, detectorAt := 0, beCeiling := 16, stormAt := 0, heatersFullSince := none
    suspectRun := 0, residSum := 0, residCount := 0, residPast := none, riseAt := 0, vcoreAt := 0 }

/-- The package's power state behind its registers (13 R472, R496 to R506): the sum and number of power samples of the
100 ms window and of the GLB interval, in 0.1 mW, when the power window and the flow window last ended, and when the GLB
interval began; when PTM_COOLANT was last written; the last
heartbeat; windows in a row without a suspect tower; failed AVSBus transactions by rail; when references were last
trimmed; until when a heater's rise uses the ramp bound; when the sensors were last sampled, zone temperatures published,
the rails read and the forecast stepped. -/
structure Power where
  winSum : Nat
  winCount : Nat
  winAt : Nat
  flowAt : Nat
  glbAt : Nat
  glbSum : Nat
  glbCount : Nat
  coolantAt : Option Nat
  beatAt : Nat
  clearRun : Nat
  railMiss : SMap Nat
  trimAt : Option Nat
  heatUntil : Nat
  sampledAt : Option Nat
  publishedAt : Option Nat
  powerAt : Option Nat
  forecastAt : Option Nat
  deriving DecidableEq, Repr

/-- The package after reset. -/
def Power.reset : Power :=
  { winSum := 0, winCount := 0, winAt := 0, flowAt := 0, glbAt := 0, glbSum := 0, glbCount := 0, coolantAt := none, beatAt := 0, clearRun := 0
    railMiss := [], trimAt := none, heatUntil := 0, sampledAt := none, publishedAt := none, powerAt := none, forecastAt := none }

/-- A full-reset source that still holds (14 R510, R512, R527). -/
inductive ResetSource where
  | powerOn | pin | perst | hotReset | host | pllUnlock | refLoss
  deriving DecidableEq, Repr

/-- Where the device stands in a full reset (14 R512, R513). -/
inductive FullPhase where
  /-- SYS_RESET_N is driven low by the device until a tick, and longer while a source persists. -/
  | driving (until_ : Nat)
  /-- The device has released the pin. -/
  | released
  /-- The exit is at a step of 14 R513. -/
  | exiting (step : Nat)
  /-- A step has exceeded its bound: the device stays in BOOTING. -/
  | stuck (step : Nat)
  /-- Out of full reset. -/
  | out
  deriving DecidableEq, Repr

/-- A block reset in progress (14 R519, R520): its site, kind and force, when it was asked for, its timeout, when the
block was held in reset, and its status. -/
structure BlockReset where
  site : Nat
  kind : Nat
  force : Bool
  since : Nat
  timeout : Nat
  heldAt : Nat
  status : Nat
  deriving DecidableEq, Repr

/-- Reset, clocks and retained storage behind their registers (chapter 14) and the board pins (chapter 18): where a full
reset stands and the sources that hold it; when full_go was armed; when a compute-only reset began and the channels it
faulted; the block reset; retained SRAM; the loaded option bytes; when the step of the exit began; SerDes PLLs that
unlocked; whether a trip holds a tower's VCORE_EN low; VAUX and when it came; the I3C dynamic address (0: none); when each tower last checked its
tick. -/
structure ResetSt where
  phase : FullPhase
  sources : List ResetSource
  armedAt : Option Nat
  crSince : Nat
  crChans : List Nat
  block : Option BlockReset
  retained : EccMem
  optBytes : List Byte
  stepAt : Nat
  unlocked : List Nat
  vcoreEn : List Bool
  vauxOk : Bool
  vauxAt : Nat
  i3cAddr : Nat
  syncAt : SMap Nat
  deriving DecidableEq, Repr

/-- A manifest that has passed its checks (15 R535, R536). -/
structure Manifest where
  version : Nat
  svn : Nat
  keySlot : Nat
  revoke : Nat
  digest : List Byte
  segs : List (Nat × Nat × Nat × List Byte)
  deriving DecidableEq, Repr

/-- A site's boot receiver (15 R542 to R546): the next piece number it expects and when its last piece came; the segments
it has marked missed; whether the end marker has come; its attempts at the first missed segment, when the present one
began, and whether the I/O die has served it; whether it has finished, and whether its core was declared ABSENT. -/
structure Receiver where
  next : Nat
  lastAt : Option Nat
  missed : List Nat
  marked : Bool
  attempts : Nat
  fetchAt : Nat
  served : Bool
  done : Bool
  absent : Bool
  deriving DecidableEq, Repr

/-- A receiver before rainfall. -/
def Receiver.reset : Receiver :=
  { next := 0, lastAt := none, missed := [], marked := false, attempts := 0, fetchAt := 0, served := false, done := false
    absent := false }

/-- Boot state behind its registers (chapter 15): when the stage began; the manifest; the checked segments; CORE
segments rained; the fetch queue; the receivers; what the tests found: cores that failed, towers out of service,
retirements; the yield log; when SEC_SVN_COMMIT was armed. -/
structure Boot where
  stageAt : Nat
  manifest : Option Manifest
  image : SMap (List Byte)
  rained : Nat
  fetchQ : List Nat
  receivers : SMap Receiver
  coreFail : List Nat
  towerBad : List Nat
  found : List (List Byte)
  ylog : List (List Byte)
  svnArmed : Option Nat
  deriving DecidableEq, Repr

/-- Boot state after a full reset. -/
def Boot.reset : Boot :=
  { stageAt := 0, manifest := none, image := [], rained := 0, fetchQ := [], receivers := [], coreFail := []
    towerBad := [], found := [], ylog := [], svnArmed := none }

/-- The record log and its limits (16 R571 to R575): its entries; for each source of CE records one more than its last
window, and the errors withheld since; when vector 0 was last raised for a record; the crashes whose record is not
written: tick of entry, cause, detail, and the cores that wrote their section (R585). -/
structure Ras where
  log : SMap (BitVec 256)
  ceWin : SMap (Nat × Nat)
  vecAt : Option Nat
  crashes : List (Nat × Nat × Nat × Nat)
  deriving DecidableEq, Repr

/-- An empty log. -/
def Ras.reset : Ras := { log := [], ceWin := [], vecAt := none, crashes := [] }

/-- A trace record in the trace unit's store (17 R600, R602). -/
abbrev TraceRec := List Byte

/-- The debug unit behind its registers (chapter 17): events of this cycle that wait for a record, the trace store, the
position in the trace range, records dropped since the last overflow record, the core that is stepped, the activity
counters at the last latch (by site or tower and counter), when they were latched, the management cycle in which a record
was last written, and whether tracing has stopped by itself. -/
structure Dbg where
  incoming : List TraceRec
  store : List TraceRec
  pos : Nat
  droppedSince : Nat
  stepSite : Option Nat
  last : SMap Nat
  latchedAt : Option Nat
  wroteAt : Option Nat
  stopped : Bool
  deriving DecidableEq, Repr

/-- The debug unit after reset. -/
def Dbg.reset : Dbg :=
  { incoming := [], store := [], pos := 0, droppedSince := 0, stepSite := none, last := [], latchedAt := none
    wroteAt := none, stopped := false }

/-- What is fixed at manufacture or kept in fuses (00 R1, 15 R538, R556, R557). `unread` are the regions of the OTP, by
offset, whose two reads never agree (14 R526). -/
structure Chip where
  w2 : Bool
  serial : BitVec 64
  stepping : Nat
  badCores : List Nat
  svnFloor : Nat
  imageRevoked : Nat
  licRevoked : Nat
  imageKeys : List (List Byte)
  licKeys : List (List Byte)
  otp : List Byte
  unread : List Nat
  vcoreFuse : List Nat
  dieVersion : List Nat
  straps : List Nat
  identity : List Byte
  deriving DecidableEq, Repr

/-! ## The state of the machine -/

/-- The package; `regs0` holds the registers as this tick found them (00 R14), `bkuWin` counts the power windows of the
bank units that have begun (07 R267), `skipped` holds the rings that the ring arbiter has passed over in this round (12
R438). -/
structure State where
  now : Nat
  regs : SMap (BitVec 64)
  regs0 : SMap (BitVec 64)
  rdLatch : SMap (BitVec 32)
  wrHold : SMap (BitVec 32)
  cores : SMap Core
  vaults : SMap Vault
  bkuWin : Nat
  epoch : Nat
  fillBg : Option (BitVec 64)
  queues : SMap StageQueue
  senders : List Sender
  seqs : SMap SeqCtr
  jobs : List Job
  jobCtr : Nat
  sent : List Sent
  tables : List TabRead
  asker : Option Asker
  quarantine : SMap Nat
  towers : SMap TowerFab
  ports : SMap Port
  links : SMap DieLink
  failover : Option Failover
  landed : List Landing
  pfx : Prefix
  chans : SMap Channel
  started : List Started
  arbPtr : Nat
  skipped : List Nat
  rings : SMap Ring
  evRings : SMap EvRing
  events : List Event
  records : List Record
  sensors : SMap Sensor
  zoneAt : SMap Nat
  hot : SMap HotSpot
  pwr : SMap TowerPwr
  gates : SMap Nat
  power : Power
  rst : ResetSt
  boot : Boot
  features : Nat
  ras : Ras
  dbg : Dbg
  chip : Chip
  out : List Out
  fresh : Nat
  pending : List Instr
  deriving DecidableEq, Repr

/-- Why the machine would stop with a fault: nothing does. Every status, poison, trip and reset of the spec is a next
state. -/
inductive Fault where
  deriving DecidableEq, Repr

/-- Why a command has no meaning. -/
inductive Refusal where
  /-- Raised by an arm of exec whose meaning is not written. Safe: nothing is claimed of the command. -/
  | notModelled (mnemonic : String)
  deriving DecidableEq, Repr

/-- The part as made: W1, serial 0, no bad core, OTP unprogrammed, the key slots without a key (log entry 5). -/
def Chip.default : Chip :=
  { w2 := false, serial := 0, stepping := 0, badCores := [], svnFloor := 0, imageRevoked := 0, licRevoked := 0
    imageKeys := [], licKeys := [], otp := List.replicate 512 0, unread := [], vcoreFuse := [750, 750, 750, 750]
    dieVersion := [3, 3, 3, 3, 2], straps := [0, 1, 2, 3, 4], identity := [] }

/-- Reset, clocks and pins just after the release of a full reset that followed a cold reset. -/
def ResetSt.reset : ResetSt :=
  { phase := .exiting 1, sources := [], armedAt := none, crSince := 0, crChans := []
    block := none, retained := [], optBytes := List.replicate 512 0, stepAt := 0, unlocked := [], vcoreEn := [true, true, true, true]
    vauxOk := true, vauxAt := 0, i3cAddr := 0, syncAt := [] }

/-- The machine right after reset: every register at the value its map gives, every other piece of state as the spec
says it is after a full reset (log entry 5 where it says nothing). -/
def State.reset : State :=
  { now := 0, regs := [], regs0 := [], rdLatch := [], wrHold := [], cores := [], vaults := [], bkuWin := 0, epoch := 0, fillBg := none, queues := []
    senders := [], seqs := [], jobs := [], jobCtr := 1, sent := [], tables := [], asker := none, quarantine := [], towers := [], ports := [], links := []
    failover := none, landed := [], pfx := Prefix.reset, chans := [], started := [], arbPtr := 0, skipped := [], rings := [], evRings := []
    events := [], records := [], sensors := [], zoneAt := [], hot := [], pwr := [], gates := [], power := Power.reset, rst := ResetSt.reset
    boot := Boot.reset, features := 0, ras := Ras.reset, dbg := Dbg.reset, chip := Chip.default, out := []
    fresh := 0, pending := [] }

end Sys2Proof.Machine
end

