-- ==== Sys2Proof/Machine/Ops.lean ====
section
/-!
DEFINITION. The named operations over the registers, sites, vaults and channels of the state: reading and writing a
register field, the status codes, error records, events, faulting a channel, soft errors, jobs and free values.
-/
namespace Sys2Proof.Machine

/-! ## Status codes (00 R23 and the chapters' tables) -/

/-- OK. -/
def stOk : Nat := 0x00
/-- BAD_OPCODE. -/
def stBadOpcode : Nat := 0x01
/-- BAD_HANDLE. -/
def stBadHandle : Nat := 0x02
/-- BAD_PARAM. -/
def stBadParam : Nat := 0x03
/-- NO_RESOURCE. -/
def stNoResource : Nat := 0x04
/-- LICENCE_ABSENT. -/
def stLicenceAbsent : Nat := 0x08
/-- ENGINE_ABSENT. -/
def stEngineAbsent : Nat := 0x09
/-- GRADE_FAULT. -/
def stGradeFault : Nat := 0x0A
/-- POISONED. -/
def stPoisoned : Nat := 0x10
/-- WAIT_TIMEOUT. -/
def stWaitTimeout : Nat := 0x11
/-- CHANNEL_FAULTED. -/
def stChannelFaulted : Nat := 0x12
/-- NODE_RESETTING. -/
def stNodeResetting : Nat := 0x13
/-- THERMAL_REFUSED. -/
def stThermalRefused : Nat := 0x14
/-- FABRIC_UNREACHABLE. -/
def stUnreachable : Nat := 0x15
/-- SIG_INVALID. -/
def stSigInvalid : Nat := 0x20
/-- IMAGE_INCOMPLETE. -/
def stImageIncomplete : Nat := 0x21
/-- TRANSLATION_FAULT (01 R46). -/
def stTranslation : Nat := 0x30
/-- WRITE_DENIED (01 R46). -/
def stWriteDenied : Nat := 0x31
/-- STREAM_OVERRUN (02 R65). -/
def stStreamOverrun : Nat := 0x32
/-- CORE_NOT_IDLE (02 R65). -/
def stCoreNotIdle : Nat := 0x33
/-- LIST_FULL (05 R206). -/
def stListFull : Nat := 0x34
/-- MEM_RETIRED (06 R249). -/
def stMemRetired : Nat := 0x35
/-- KV_POOL_EMPTY (08 R292). -/
def stPoolEmpty : Nat := 0x36
/-- BUNDLE_MISFIT (09 R344). -/
def stBundleMisfit : Nat := 0x37
/-- SQ_CLOSED (09 R344). -/
def stSqClosed : Nat := 0x38
/-- FABRIC_LOST (10 R391). -/
def stFabricLost : Nat := 0x39
/-- HOST_FAULT (12 R446). -/
def stHostFault : Nat := 0x3A
/-- STREAM_ABORTED (12 R446). -/
def stStreamAborted : Nat := 0x3B
/-- RESET_ABORTED (14 R518). -/
def stResetAborted : Nat := 0x3C
/-- BLOCK_BUSY (14 R518). -/
def stBlockBusy : Nat := 0x3D
/-- IMAGE_ROLLBACK (15 R538). -/
def stImageRollback : Nat := 0x3E
/-- KV_POOL_BAD (08 R292). -/
def stPoolBad : Nat := 0x3F

/-- Does the status leave no side effect and the channel live in a stream (00 R22, 02 R70)? -/
def isSoft (st : Nat) : Bool :=
  st == stBadOpcode || st == stBadParam || st == stLicenceAbsent || st == stEngineAbsent

/-! ## Registers -/

/-- A register's stored value. -/
def State.reg (s : State) (a : Nat) : BitVec 64 := SMap.get regReset s.regs a

/-- A register as this tick found it (00 R14). -/
def State.reg0 (s : State) (a : Nat) : BitVec 64 := SMap.get regReset s.regs0 a

/-- Stores a register. -/
def State.setReg (s : State) (a : Nat) (v : BitVec 64) : State := { s with regs := SMap.put regReset a v s.regs }

/-- The value of a field. -/
def State.getF (s : State) (f : Fld) : Nat := bits (s.reg f.off).toNat f.hi f.lo

/-- WEDGED of GLB_STATE.state. -/
def gsWedged : Nat := 4
/-- Is the device wedged (16 R584)? -/
def State.wedged (s : State) : Bool := s.getF Reg.glbState_state == gsWedged

/-- The number of bits of a field. -/
def fldWidth (f : Fld) : Nat := f.hi + 1 - f.lo

/-- Sets a field. -/
def State.setF (s : State) (f : Fld) (v : Nat) : State :=
  s.setReg f.off (BitVec.ofNat 64 (setBits (s.reg f.off).toNat f.hi f.lo v))

/-- Is a field nonzero? -/
def State.on (s : State) (f : Fld) : Bool := s.getF f != 0

/-- Adds to a field that saturates. -/
def State.incSat (s : State) (f : Fld) (n : Nat) : State := s.setF f (satAdd (fldWidth f) (s.getF f) n)

/-- Adds to a field that wraps. -/
def State.incWrap (s : State) (f : Fld) (n : Nat) : State := s.setF f (wrapAdd (fldWidth f) (s.getF f) n)

/-! ## Parts of the state by index -/

/-- The core of a site. -/
def State.core (s : State) (i : Nat) : Core := SMap.get (fun _ => Core.reset) s.cores i

/-- Stores a site's core. -/
def State.setCore (s : State) (i : Nat) (c : Core) : State :=
  { s with cores := SMap.put (fun _ => Core.reset) i c s.cores }

/-- A vault that nothing has touched: its words hold what the last fill of every vault left. -/
def State.vaultDefault (s : State) : Vault := { Vault.reset with epoch := s.epoch, bg := s.fillBg }

/-- The vault of a site. -/
def State.vault (s : State) (i : Nat) : Vault := SMap.get (fun _ => s.vaultDefault) s.vaults i

/-- Stores a vault. -/
def State.setVault (s : State) (i : Nat) (v : Vault) : State :=
  { s with vaults := SMap.put (fun _ => s.vaultDefault) i v s.vaults }

/-- The stage queue of a site. -/
def State.queue (s : State) (i : Nat) : StageQueue := SMap.get (fun _ => StageQueue.reset) s.queues i

/-- Stores a stage queue. -/
def State.setQueue (s : State) (i : Nat) (q : StageQueue) : State :=
  { s with queues := SMap.put (fun _ => StageQueue.reset) i q s.queues }

/-- The fabric block of a tower. -/
def State.tower (s : State) (t : Nat) : TowerFab := SMap.get (fun _ => TowerFab.reset) s.towers t

/-- Stores a tower's fabric block. -/
def State.setTower (s : State) (t : Nat) (x : TowerFab) : State :=
  { s with towers := SMap.put (fun _ => TowerFab.reset) t x s.towers }

/-- A port of a tower. -/
def State.port (s : State) (t p : Nat) : Port := SMap.get (fun _ => Port.reset) s.ports (32 * t + p)

/-- Stores a port. -/
def State.setPort (s : State) (t p : Nat) (x : Port) : State :=
  { s with ports := SMap.put (fun _ => Port.reset) (32 * t + p) x s.ports }

/-- A die link. -/
def State.link (s : State) (l : Nat) : DieLink := SMap.get (fun _ => DieLink.reset) s.links l

/-- Stores a die link. -/
def State.setLink (s : State) (l : Nat) (x : DieLink) : State :=
  { s with links := SMap.put (fun _ => DieLink.reset) l x s.links }

/-- A channel index. -/
def State.chan (s : State) (k : Nat) : Channel := SMap.get (fun _ => Channel.free) s.chans k

/-- Stores a channel. -/
def State.setChan (s : State) (k : Nat) (c : Channel) : State :=
  { s with chans := SMap.put (fun _ => Channel.free) k c s.chans }

/-- A submission ring. -/
def State.ring (s : State) (r : Nat) : Ring := SMap.get (fun _ => Ring.reset) s.rings r

/-- Stores a submission ring. -/
def State.setRing (s : State) (r : Nat) (x : Ring) : State :=
  { s with rings := SMap.put (fun _ => Ring.reset) r x s.rings }

/-- An event ring. -/
def State.evRing (s : State) (r : Nat) : EvRing := SMap.get (fun _ => EvRing.reset) s.evRings r

/-- Stores an event ring. -/
def State.setEvRing (s : State) (r : Nat) (x : EvRing) : State :=
  { s with evRings := SMap.put (fun _ => EvRing.reset) r x s.evRings }

/-- Does a block reset of a kind wait for a site's block, or hold it (14 R519: 0 CORE, 1 SQ, 2 VLT)? -/
def State.blockOn (s : State) (i kind : Nat) : Bool :=
  match s.rst.block with
  | some b => b.site == i && b.kind == kind
  | none => false

/-- Does a command act on a core now, so that host writes to its control and stream registers are ignored (12 R457)? -/
def State.locked (s : State) (i : Nat) : Bool :=
  s.started.any (fun c => c.done == none && (c.work.getD []).contains i)

/-- A tower's power state. -/
def State.tpwr (s : State) (t : Nat) : TowerPwr := SMap.get (fun _ => TowerPwr.reset) s.pwr t

/-- Stores a tower's power state. -/
def State.setTpwr (s : State) (t : Nat) (x : TowerPwr) : State :=
  { s with pwr := SMap.put (fun _ => TowerPwr.reset) t x s.pwr }

/-- A bundle counter: site * 8 + engine (10 R389). -/
def State.seqCtr (s : State) (i e : Nat) : SeqCtr := SMap.get (fun _ => ⟨0, []⟩) s.seqs (8 * i + e)

/-- Stores a bundle counter. -/
def State.setSeqCtr (s : State) (i e : Nat) (x : SeqCtr) : State :=
  { s with seqs := SMap.put (fun _ => ⟨0, []⟩) (8 * i + e) x s.seqs }

/-! ## Free values, output, records, events -/

/-- Moves past the free values just used. -/
def State.bump (s : State) (n : Nat) : State := { s with fresh := s.fresh + n }

/-- n bytes of a clean word each, whose values are free. -/
def State.freeBytes (s : State) (n : Nat) : State × List PByte :=
  (s.bump ((n + 7) / 8), clean ((List.range n).map (fun k =>
    BitVec.ofNat 8 ((Config.freeWord (s.fresh + k / 8)).toNat / 2 ^ (8 * (k % 8))))))

/-- Sends something outward. -/
def State.emit (s : State) (o : Out) : State := { s with out := s.out ++ [o] }

/-- Sends an error record toward the RAS block (16 R567); the block logs it at ERROR_RECORD. -/
def State.record (s : State) (r : Record) : State := { s with records := s.records ++ [r] }

/-- An error record of a class, block, site and detector. -/
def mkRecord (s : State) (cls block site status kind addr detail : Nat) : Record :=
  { cls := cls, block := block, site := site, status := status, kind := kind, suppressed := 0, addr := addr
    tick := s.now, detail := detail }

/-- An in-band interrupt, once the device has its dynamic address (18 R620). -/
def State.inBand (s : State) : State := if s.rst.i3cAddr = 0 then s else s.emit .ibi

/-- The channel a site's core belongs to: the index of a channel that is not free and lists it (12 R450). -/
def chanOfSite : SMap Channel → Nat → Option Nat
  | [], _ => none
  | (k, c) :: m, i => if c.st != .free && c.cores.contains i then some k else chanOfSite m i

/-- The handle of a channel index (12 R448). -/
def State.handle (s : State) (k : Nat) : Nat := (s.chan k).gen * 2 ^ 24 + k

/-- Raises an event of a channel's event ring (12 R468). -/
def State.event (s : State) (k : Nat) (kind site status engine itag value addr : Nat) : State :=
  { s with events := s.events ++ [{ eq := (s.chan k).eq, kind := kind, site := site, handle := s.handle k
                                    status := status, engine := engine, itag := itag, value := value, addr := addr }] }

/-- Raises an event of the channel a core belongs to; a core without a channel raises none. -/
def State.coreEvent (s : State) (site kind status engine itag value addr : Nat) : State :=
  match chanOfSite s.chans site with
  | some k => s.event k kind site status engine itag value addr
  | none => s

/-! ## Core states (02 R103) -/

/-- IDLE. -/
def csIdle : Nat := 1
/-- RUNNING. -/
def csRunning : Nat := 2
/-- BREAK. -/
def csBreak : Nat := 3
/-- FAULTED. -/
def csFaulted : Nat := 4
/-- DRAINING. -/
def csDraining : Nat := 5

/-- CORE_STATUS.state of a site. -/
def State.coreState (s : State) (i : Nat) : Nat := s.getF (Reg.coreStatus_state i)

/-- Is the core of a site enabled (02 R103 CORE_ID.enabled)? -/
def State.coreOn (s : State) (i : Nat) : Bool := s.on (Reg.coreId_enabled i)

/-- The tower of a site. -/
def towerOf (i : Nat) : Nat := i / 576

/-- The host link as a source: no site of the package. -/
def hostSite : Nat := 2304

/-- The 32-bit vault ID of a site of this package, as its source ID (10 R371); the host link's packets bear that of site
0 of T0. -/
def State.vidOf (s : State) (i : Nat) : Nat :=
  let i := if i < hostSite then i else 0
  s.getF (Reg.skyNode_node (towerOf i)) * 2 ^ 12 + towerOf i * 2 ^ 10 + (i % 576 / 24) * 2 ^ 5 + i % 24

/-- Takes away the watches a core holds in the vaults of the package, and their notices on the way (02 R82). -/
def State.dropWatches (s : State) (i : Nat) : State :=
  { s with vaults := SMap.mapVal (fun _ v =>
      { v with watches := v.watches.filter (fun w => w.who != .core i)
               notices := v.notices.filter (fun n => n.1 != .core i) }) s.vaults }

/-- The detector whose record a core's stop is (16 R591): a timeout, or a packet lost in the fabric. -/
def stopKind (st : Nat) : Nat := if st = stWaitTimeout then 19 else if st = stFabricLost then 11 else 0

/-- Faults the channel of a core, if it has one (02 R91): the CONTAINED record with the stop status (16 R568) and the
CHANNEL_FAULT event (12 R469) come from the first core that stops. -/
def State.faultChannel (s : State) (i st engine itag addr : Nat) : State :=
  match chanOfSite s.chans i with
  | some k =>
    let c := s.chan k
    if c.st = .live then
      ((s.setChan k { c with st := .faulted }).record (mkRecord s 3 5 i st (stopKind st) addr 0)).event k 3 i st engine itag 0 addr
    else s
  | none => s.record (mkRecord s 3 5 i st (stopKind st) addr 0)

/-- Counts a completion without side effect in CORE_SOFT_ERR (02 R70, R103). -/
def State.softErr (s : State) (i st engine : Nat) : State :=
  let s := if s.getF (Reg.coreSoftErr_count i) = 0 then
      (s.setF (Reg.coreSoftErr_first_status i) st).setF (Reg.coreSoftErr_first_engine i) engine
    else s
  s.incSat (Reg.coreSoftErr_count i) 1

/-- An instruction's status, with the address and space it records if it stops the core, and what its routing record
names (17 R600). -/
structure Done where
  st : Nat
  space : Nat
  addr : Nat
  stop : Bool
  route : Option (Nat × Nat × Nat)
  deriving DecidableEq, Repr

/-- A completion that stops nothing by itself. -/
def Done.of (st : Nat) : Done := ⟨st, 0, 0, false, none⟩

/-- A completion with the address it would record. -/
def Done.at_ (st space addr : Nat) : Done := ⟨st, space, addr, false, none⟩

/-- A completion that stops the core although its status may be POISONED (02 R70). -/
def Done.halt (st space addr : Nat) : Done := ⟨st, space, addr, true, none⟩

/-! ## Licences (00 R5) -/

/-- Bank-unit arithmetic. -/
def licBku : Nat := 0
/-- More than one prefix-sharing domain. -/
def licDomain : Nat := 1
/-- Fabric beyond 256 nodes. -/
def licFabric : Nat := 2
/-- Expert-routing trace. -/
def licTrace : Nat := 3

/-- Is a feature licensed (15 R561)? -/
def State.licensed (s : State) (f : Nat) : Bool := bit s.features f

/-- Is any of the RAS injections of a kind and index armed (16 R590)? -/
def State.injected (s : State) (kind index : Nat) : Bool :=
  s.on Reg.rasInject_arm && s.getF Reg.rasInject_kind == kind && s.getF Reg.rasInject_index == index

/-- Hardware clears the arm of an injection it has used (16 R590). -/
def State.usedInject (s : State) : State := s.setF Reg.rasInject_arm 0

/-- Bytes read from host memory, through an injected poisoned TLP or completion timeout of the host link
(16 R591 kind 20). -/
def State.hostRead (s : State) (r : Option (List PByte)) : State × Option (List PByte) :=
  if s.on Reg.rasInject_arm && s.getF Reg.rasInject_kind == 5 then
    (s.usedInject, if s.on Reg.rasInject_mode then none else r.map (fun bs => bs.map (fun b => (b.1, true))))
  else (s, r)

/-- A command whose meaning is a next state. -/
def next (s : State) : Host.Outcome State Fault Refusal := .next s

end Sys2Proof.Machine
end

