-- ==== Sys2Proof/Machine/FabricOps.lean ====
section
/-!
DEFINITION. The shared operations of the fabric and the die links: routes between dies (11 R419, R421), routing entries
and ports (10 R366 to R372), the class queues of ports and die links with their arbiters (10 R400, 11 R418), flits
(10 R376 to R379, 11 R414), sending answers and management packets, and the ordered packets of local sources with their
holds, limits, tags and jobs (10 R382, R383, R387).
-/
namespace Sys2Proof.Machine

/-! ## Die links -/

/-- The I/O die among the dies 0 to 4. -/
def ioDie : Nat := 4

/-- The link that joins two dies (11 R404). -/
def linkOf (a b : Nat) : Nat :=
  if a = ioDie then b else if b = ioDie then a else if b = (a + 1) % 4 then 4 + a else 4 + b

/-- DLK_ROUTE's next hop from a die toward another. -/
def State.nextHop (s : State) (a b : Nat) : Nat := bits (s.getF (Reg.dlkRoute_next a)) (3 * b + 2) (3 * b)

/-- The links of the route in use, at most three (11 R415); none where there is no path. -/
def State.dieRoute (s : State) : Nat → Nat → Nat → Option (List Nat)
  | 0, a, b => if a = b then some [] else none
  | k + 1, a, b =>
    if a = b then some []
    else
      let h := s.nextHop a b
      if h < 5 then (s.dieRoute k h b).map (fun ls => linkOf a h :: ls) else none

/-- ACTIVE of DLK_LINK_STATUS.state. -/
def lkActive : Nat := 5

/-- How a path between dies stands: no path, a path that carries now, or one that waits for a link or a route
change. -/
inductive PathSt where
  | none | now | later
  deriving DecidableEq, Repr

/-- Does a failover hold what goes from a die to another (11 R420 step 1)? -/
def State.dieHeld (s : State) (a b : Nat) : Bool :=
  match s.failover with
  | some f => f.routes.contains (a, b)
  | none => false

/-- Has a die no path to another (11 R421)? -/
def State.dieCut (s : State) (a b : Nat) : Bool := (s.dieRoute 3 a b).isNone

/-- The path between two dies (11 R419 to R421). -/
def State.diePath (s : State) (a b : Nat) : PathSt :=
  match s.dieRoute 3 a b with
  | none => .none
  | some ls =>
    if s.dieHeld a b then .later
    else if ls.all (fun l => s.getF (Reg.dlkLinkStatus_state l) == lkActive) then .now else .later

/-! ## Routing -/

/-- The ports of a tower that are not fused off (10 R361). -/
def State.usablePorts (s : State) : Nat := if s.chip.w2 then 0x0F0F0F0F else 0xFFFFFFFF

/-- The node ID of a tower's SKY block. -/
def State.nodeOf (s : State) (t : Nat) : Nat := s.getF (Reg.skyNode_node t)

/-- The offset of the routing entry that serves a node at a tower (10 R365, R367). -/
def State.entryOff (s : State) (t node : Nat) : Nat :=
  if node / 256 = s.nodeOf t / 256 then (Reg.skyRouteM_valid t (node % 256)).off
  else (Reg.skyRouteG_valid t (node / 256)).off

/-- The routing entry that serves a node at a tower. -/
def State.entry (s : State) (t node : Nat) : Nat := (s.reg (s.entryOff t node)).toNat

/-- The egress tower and the candidate ports toward a node from a tower (10 R368, R370); none where the tables give no
path, a valid entry whose mask is empty once fused ports are dropped among them (DEDUCED, log entry 23). -/
def State.route (s : State) (t node : Nat) : Option (Nat × Nat) :=
  let e := s.entry t node
  if !bit e 0 then none
  else
    let g := bits e 2 1
    let e' := if g = t then e else s.entry g node
    let cand := Nat.land (bits e' 47 16) s.usablePorts
    if !bit e' 0 || bits e' 2 1 != g || cand = 0 then none
    else some (g, cand)

/-- The set bits of a 32-bit mask, in order. -/
def maskBits (m : Nat) : List Nat := (List.range 32).filter (fun i => bit m i)

/-- A 32-bit number rotated left. -/
def rotl32 (x k : Nat) : Nat := (x * 2 ^ k) % 2 ^ 32 + x % 2 ^ 32 / 2 ^ (32 - k)

/-- The port of an ordered flow (10 R370). -/
def flowPort (cand src dst engine : Nat) : Nat :=
  let x := Nat.xor (Nat.xor src (rotl32 dst 13)) engine
  let h := Nat.xor x (x / 2 ^ 16) % 2 ^ 16
  let ps := maskBits cand
  ps.getD (h % ps.length) 0

/-- UP of OPT_PORT_STATUS.state. -/
def portUp : Nat := 3

/-- Is a port of a tower UP? -/
def State.portIsUp (s : State) (t p : Nat) : Bool := s.getF (Reg.optPortStatus_state t p) == portUp

/-- The class numbers (10 R373). -/
def clsReq : Nat := 0
/-- RSP. -/
def clsRsp : Nat := 1
/-- TOK. -/
def clsTok : Nat := 2
/-- MGT. -/
def clsMgt : Nat := 3

/-- Flits of a packet (10 R376). -/
def flitsOf (p : Packet) : Nat := 1 + ceilDiv (p.length - 32) 64

/-- The vault ID a packet is for. -/
def destVid (k : Packet) : Nat := k.dst / 2 ^ 32

/-- The node of a vault ID. -/
def vidNode (v : Nat) : Nat := v / 2 ^ 12
/-- The package site index a vault ID names; none where row or column is not below 24 (01 R37). -/
def vidSite (v : Nat) : Option Nat :=
  if bits v 9 5 < 24 ∧ bits v 4 0 < 24 then some (bits v 11 10 * 576 + bits v 9 5 * 24 + bits v 4 0) else none

/-- The poison mask of a payload: a bit for each 8 B word (10 R373). -/
def poisonMask (data : List PByte) : Nat :=
  (List.range (ceilDiv data.length 8)).foldl (fun m i => m + b2n (anyPoison (slice data (8 * i) 8)) * 2 ^ i) 0

/-- A packet as bytes: its header and payload (10 R373). -/
def pktBytes (k : Packet) : List Byte :=
  let w0 := k.cls + k.op * 2 ^ 2 + b2n k.hopsLeft * 2 ^ 8 + b2n k.resync * 2 ^ 9 + b2n k.narrow * 2 ^ 10 +
    k.srcEngine * 2 ^ 12 + k.length * 2 ^ 16 + k.status * 2 ^ 32 + k.aop * 2 ^ 40 + k.tag * 2 ^ 48
  let w2 := k.src + k.age * 2 ^ 32 + k.seq * 2 ^ 48
  let w3 := poisonMask k.payload + k.aux * 2 ^ 32
  toLE 8 w0 ++ toLE 8 k.dst ++ toLE 8 w2 ++ toLE 8 w3 ++ k.payload.map Prod.fst

/-- A list cut into pieces of n, the last filled up with 0. -/
def cutBytes (n count : Nat) (bs : List Byte) : List (List Byte) :=
  (List.range count).map (fun i =>
    let b := slice bs (n * i) n
    b ++ List.replicate (n - b.length) 0)

/-- The bits of bytes that travel as a flit, most significant first. -/
def flitBits (bs : List Byte) : List Bool := bs.flatMap byteBitsMsb

/-- The n low bits of a number, most significant first. -/
def lowBitsMsb (n x : Nat) : List Bool := (List.range n).map (fun i => bit x (n - 1 - i))

/-- CRC-24 over a flit and trailer bits [39:0] (10 R376). -/
def crc24 (flit : List Byte) (trailer : Nat) : Nat :=
  crcBits 24 0x864CFB 0xB704CE (flitBits flit ++ lowBitsMsb 40 (bits trailer 39 0))

/-! ## Arbiters -/

/-- The class that a round-robin grants among those that request, and the round-robin after it (06 R224): the credits are
loaded when no requesting class has one; a scrub weight of 0 is granted only where no other class requests, and takes no
credit (R225). -/
def arbPick (w : List Nat) (a : Arb) (req : List Bool) : Option (Nat × Arb) :=
  let idle := w.getD 3 0 == 0
  let order := ((List.range 4).map (fun k => (a.ptr + k) % 4)).filter (fun c => req.getD c false && !(idle && c == 3))
  if order.isEmpty then (if idle && req.getD 3 false then some (3, { a with ptr := 0 }) else none)
  else
    let cr := if order.any (fun c => decide (0 < a.credit.getD c 0)) then a.credit else w
    (order.find? (fun c => decide (0 < cr.getD c 0))).map (fun c => (c, ⟨cr.set c (cr.getD c 0 - 1), (c + 1) % 4⟩))

/-- Where a packet's source stands among the local sources: by site and engine (10 R400). -/
def sourceKey (k : Packet) : Nat := (vidSite k.src).getD 0 * 16 + k.srcEngine

/-- The least of some numbers. -/
def leastOf (xs : List Nat) : Option Nat :=
  xs.foldl (fun m x => some (match m with
    | none => x
    | some y => Nat.min x y)) none

/-- The first of some keys from a pointer on, wrapping. -/
def rrNext (ptr : Nat) (keys : List Nat) : Option Nat :=
  match leastOf (keys.filter (fun k => decide (ptr ≤ k))) with
  | some k => some k
  | none => leastOf keys

/-- Do two waiting packets keep their order: of one class, and of one lane in transit or of one local source? `rank` is 0
for a packet of a local source, and the higher the earlier a packet in transit goes. -/
def sameLine (rank : TxEnt → Nat) (a b : TxEnt) : Bool :=
  a.pkt.cls == b.pkt.cls && rank a == rank b && (rank a != 0 || sourceKey a.pkt == sourceKey b.pkt)

/-- The packets that nothing waits in front of. -/
def Tx.heads (x : Tx) (rank : TxEnt → Nat) : List TxEnt :=
  x.q.foldl (fun hs e => if hs.any (sameLine rank e) then hs else hs ++ [e]) []

/-- The packet of a class that goes first (10 R400, 11 R418): one in transit, of the highest rank; else the local sources
take turns. -/
def Tx.first (x : Tx) (rank : TxEnt → Nat) (ok : TxEnt → Bool) (c : Nat) : Option TxEnt :=
  let es := (x.heads rank).filter (fun e => e.pkt.cls == c && ok e)
  match es.find? (fun e => rank e == 2), es.find? (fun e => rank e == 1) with
  | some e, _ => some e
  | none, some e => some e
  | none, none =>
    match rrNext (x.rr.getD c 0) (es.map (fun e => sourceKey e.pkt)) with
    | none => none
    | some k => es.find? (fun e => sourceKey e.pkt == k)

/-- The packet that a transmitter sends next, and the transmitter after it (10 R400, 11 R418): the classes by weighted
round-robin, the pointers moving past the winners. -/
def Tx.pick (x : Tx) (w : List Nat) (rank : TxEnt → Nat) (ok : TxEnt → Bool) : Option (TxEnt × Tx) :=
  match arbPick w x.arb ((List.range 4).map (fun c => (x.first rank ok c).isSome)) with
  | none => none
  | some (c, a) =>
    (x.first rank ok c).map (fun e =>
      (e, { x with q := x.q.erase e, arb := a, rr := if rank e = 0 then x.rr.set c (sourceKey e.pkt + 1) else x.rr }))

/-! ## Flits -/

/-- Flits a sender keeps for replay (10 R379). -/
def replaySize : Nat := 1024

/-- The replay buffer with a flit added (10 R379). -/
def Retry.push (r : Retry) (itag now : Nat) (bs : List Byte) : Retry :=
  { r with
      next := (r.next + 1) % 4096
      buf := r.buf ++ [⟨r.next, itag, bs⟩]
      ackAt := if r.buf.isEmpty then now else r.ackAt }

/-- A list of counts with n more in place k. -/
def addAt (xs : List Nat) (k n : Nat) : List Nat :=
  let ys := xs ++ List.replicate (16 - xs.length) 0
  ys.set k (ys.getD k 0 + n)

/-- Takes the credit of some flits of a class and lane (10 R377). -/
def Retry.spend (r : Retry) (k n : Nat) : Retry := { r with credit := r.credit.set k (r.credit.getD k 0 - n) }

/-- The credit a flit returns: the first class and lane to which any is owed, at most 255 flits (10 R376). -/
def Retry.giveBack (r : Retry) : Nat × Nat :=
  let k := ((List.range 16).find? (fun k => decide (0 < r.owes.getD k 0))).getD 0
  (k, Nat.min 255 (r.owes.getD k 0))

/-- The link control that rides in a flit, without its CRC: sequence, ack, nak, and credit with its id from bit 25 on; `w`
is the width of the id (10 R376, 11 R414). -/
def Retry.control (r : Retry) (seq : Nat) (nak : Bool) (w : Nat) : Nat :=
  let c := r.giveBack
  seq + (r.expect + 4095) % 4096 * 2 ^ 12 + b2n nak * 2 ^ 24 + c.1 * 2 ^ 25 + c.2 * 2 ^ (25 + w)

/-- What the receiver owes once a flit has gone. -/
def Retry.controlSent (r : Retry) : Retry :=
  let c := r.giveBack
  { r with owes := r.owes.set c.1 (r.owes.getD c.1 0 - c.2), owed := 0 }

/-- How many places a 12-bit sequence lies after another. -/
def seqGap (a b : Nat) : Nat := (a + 4096 - b) % 4096

/-- Takes an acknowledgement: the flits up to it leave the replay buffer (10 R379). -/
def Retry.acknowledge (r : Retry) (a now : Nat) : Retry :=
  let n := seqGap a r.acked
  if n = 0 ∨ r.buf.length < n then r else { r with acked := a, buf := r.buf.drop n, naks := 0, ackAt := now }

/-- Adds returned credit (10 R377, 11 R415), by its credit_id. -/
def Retry.credited (r : Retry) (id n : Nat) : Retry :=
  { r with credit := addAt r.credit id n }

/-- A port puts a flit on its link, with its trailer (10 R376): an armed OPT_INJECT corrupts the CRC, by a free difference,
and is used up (R403). -/
def State.wireFlit (s : State) (t p seq : Nat) (nak : Bool) (bs : List Byte) : State :=
  let x := s.port t p
  let w := x.retry.control seq nak 3
  let s := s.setPort t p { x with retry := x.retry.controlSent }
  let c := crc24 bs w
  if s.on (Reg.optInject_arm t) && s.getF (Reg.optInject_port t) == p then
    let d := 1 + Config.freeNat s.fresh % (2 ^ 24 - 1)
    ((s.setF (Reg.optInject_arm t) 0).bump 1).emit (.flit t p bs (w + Nat.xor c d * 2 ^ 40))
  else s.emit (.flit t p bs (w + c * 2 ^ 40))

/-- A port sends an idle flit, which carries only its trailer (10 R376). -/
def State.idleFlit (s : State) (t p : Nat) (nak : Bool) : State :=
  s.wireFlit t p (((s.port t p).retry.next + 4095) % 4096) nak []

/-- A port sends the flits of its replay buffer again, in their order (10 R379); they are counted (R402). -/
def State.replay (s : State) (t p : Nat) : State :=
  let buf := (s.port t p).retry.buf
  let s := (s.incSat (Reg.optPortErr_replays t p) 1).incWrap (Reg.skyCntTx_flits t) buf.length
  buf.foldl (fun s f => s.wireFlit t p f.seq false f.bytes) s

/-- A port sends a new flit and keeps it for replay (10 R379). -/
def State.newFlit (s : State) (t p itag : Nat) (bs : List Byte) : State :=
  let x := s.port t p
  (s.setPort t p { x with retry := x.retry.push itag s.now bs }).wireFlit t p x.retry.next false bs

/-! ## Ports -/

/-- Counts a packet discarded at a tower (10 R396). -/
def State.discard (s : State) (t : Nat) : State := s.incSat (Reg.skyCntLost_discarded t) 1

/-- Has a packet reached its lifetime at a tower (10 R386)? -/
def State.expired (s : State) (t : Nat) (k : Packet) : Bool := decide (s.getF (Reg.skyE2e_lifetime_us t) ≤ k.age)

/-- A packet older by some nanoseconds, rounded up to microseconds (10 R386). -/
def olderBy (k : Packet) (ns : Nat) : Packet := { k with age := Nat.min 65535 (k.age + ceilDiv ns 1000) }

/-- The class and lane of a packet on a fabric link: lane 0 on its first, lane 1 on its second (10 R369, R376). -/
def creditId (k : Packet) : Nat := 2 * k.cls + (if k.hopsLeft then 0 else 1)

/-- The place of a packet in a receive buffer is free: its credit is to be returned (10 R377). -/
def State.freeRx (s : State) (back : Option (Nat × Nat)) (k : Packet) : State :=
  match back with
  | none => s
  | some (p, c) =>
    let x := s.port (p / 32) (p % 32)
    s.setPort (p / 32) (p % 32) { x with retry := { x.retry with owes := addAt x.retry.owes c (flitsOf k) } }

/-- A packet whose age reaches its lifetime is discarded and counted, and a REQ or TOK packet is to be refused
(10 R386). -/
def State.outlived (s : State) (t : Nat) (k : Packet) : State :=
  let s := s.discard t
  if k.cls = clsReq ∨ k.cls = clsTok then { s with landed := s.landed ++ [.refuse t k stUnreachable] } else s

/-- A packet that cannot go on: a REQ or TOK packet is to be refused, any other is discarded and counted (10 R369). -/
def State.bounce (s : State) (t : Nat) (k : Packet) (st : Nat) : State :=
  if k.cls = clsReq ∨ k.cls = clsTok then { s with landed := s.landed ++ [.refuse t k st] } else s.discard t

/-- A packet leaves by a port of a tower, with the time it waited here added to its age: its flits enter the replay buffer
and are counted (10 R379, R386, R402). -/
def State.sendOn (s : State) (t p : Nat) (e : TxEnt) : State :=
  let k := olderBy e.pkt (s.now - e.since)
  let s := s.freeRx e.back e.pkt
  if s.expired t k then s.outlived t k
  else
    let n := flitsOf k
    let x := s.port t p
    let s := s.setPort t p { x with retry := x.retry.spend (creditId k) n }
    let s := (s.incWrap (Reg.skyCntTx_flits t) n).emit (.packet t p k)
    (cutBytes 64 n (pktBytes k)).foldl (fun s b => s.newFlit t p k.tag b) s

/-- Has a port credit for a packet, and room for its flits in the replay buffer (10 R377, R379)? -/
def State.portRoom (s : State) (t p : Nat) (e : TxEnt) : Bool :=
  let r := (s.port t p).retry
  let n := flitsOf e.pkt
  decide (n ≤ r.credit.getD (creditId e.pkt) 0) && decide (r.buf.length + n ≤ replaySize)

/-- SKY_ARB: the class weights of a tower's ports (10 R400). -/
def State.skyWeights (s : State) (t : Nat) : List Nat :=
  [s.getF (Reg.skyArb_w_req t), s.getF (Reg.skyArb_w_rsp t), s.getF (Reg.skyArb_w_tok t), s.getF (Reg.skyArb_w_mgt t)]

/-- In transit or not. -/
def TxEnt.fabRank (e : TxEnt) : Nat := b2n e.transit

/-- A port that is UP sends what it may, in the order of its arbiter (10 R400). -/
def State.servePort (t p : Nat) : Nat → State → State
  | 0, s => s
  | n + 1, s =>
    if !s.portIsUp t p then s
    else
      match (s.port t p).tx.pick (s.skyWeights t) TxEnt.fabRank (s.portRoom t p) with
      | none => s
      | some (e, x) => State.servePort t p n ((s.setPort t p { s.port t p with tx := x }).sendOn t p e)

/-- Every port sends what it may. -/
def State.servePorts (s : State) : State :=
  s.ports.foldl (fun s e => State.servePort (e.1 / 32) (e.1 % 32) e.2.tx.q.length s) s

/-- A packet enters the class queue of a port. -/
def State.toPort (s : State) (t p : Nat) (e : TxEnt) : State :=
  let x := s.port t p
  s.setPort t p { x with tx := { x.tx with q := x.tx.q ++ [e] } }

/-- The port that spray takes for an RSP or MGT packet: the first candidate at or after the pointer that is UP and has
credit of its lane (10 R370). -/
def State.sprayPort (s : State) (t cand ptr : Nat) (k : Packet) : Option Nat :=
  ((List.range 32).map (fun i => (ptr + i) % 32)).find? (fun p =>
    bit cand p && s.portIsUp t p && decide (0 < (s.port t p).retry.credit.getD (creditId k) 0))

/-- Sends an RSP or MGT packet by the port of its egress tower that spray takes (10 R370); it waits while no port has
credit, and without a port that is UP it is discarded and counted. -/
def State.sprayHere (s : State) (e : TxEnt) : State :=
  let t := e.die
  match s.route t (vidNode (destVid e.pkt)) with
  | none => (s.freeRx e.back e.pkt).discard t
  | some (_, cand) =>
    let x := s.tower t
    if !(maskBits cand).any (fun p => s.portIsUp t p) then (s.freeRx e.back e.pkt).discard t
    else
      match s.sprayPort t cand (if e.pkt.cls = clsRsp then x.sprayRsp else x.sprayMgt) e.pkt with
      | none => s.setTower t { x with unsprayed := x.unsprayed ++ [e] }
      | some p =>
        let n := (p + 1) % 32
        (s.setTower t (if e.pkt.cls = clsRsp then { x with sprayRsp := n } else { x with sprayMgt := n })).toPort t p e

/-- A port has credit again or is UP: the RSP and MGT packets of its tower that wait for one try again. -/
def State.kickSpray (s : State) (t : Nat) : State :=
  let x := s.tower t
  x.unsprayed.foldl State.sprayHere (s.setTower t { x with unsprayed := [] })

/-! ## Crossing die links -/

/-- A packet that no path leads on (11 R421). -/
def State.noWay (s : State) (d : Nat) (e : TxEnt) : State :=
  (s.freeRx e.back e.pkt).bounce (if d = ioDie then 0 else d) e.pkt stUnreachable

/-- A packet at the die it was going to. -/
def State.atGoal (s : State) (e : TxEnt) : State :=
  match e.goal with
  | .port p => s.toPort e.die p e
  | .spray => s.sprayHere e
  | .site t q bad => { s with landed := s.landed ++ [.site t q e.pkt bad] }

/-- The class queues of an end of a link: of its reporting end, or of the far one. -/
def DieLink.txOf (x : DieLink) (far : Bool) : Tx := if far then x.txFar else x.tx

/-- A packet enters the class queue of the next link toward its die (11 R415, R419). -/
def State.toLink (s : State) (d : Nat) (e : TxEnt) : State :=
  let h := s.nextHop d e.die
  if 5 ≤ h ∨ 3 ≤ e.hop then s.noWay d e
  else
    let l := linkOf d h
    let x := s.link l
    if l % 4 = d then s.setLink l { x with tx := { x.tx with q := x.tx.q ++ [e] } }
    else s.setLink l { x with txFar := { x.txFar with q := x.txFar.q ++ [e] } }

/-- A packet at a die goes on: it reaches its goal, is held by a failover, or enters the class queue of the next link
(11 R419, R420). -/
def State.cross (s : State) (d : Nat) (e : TxEnt) : State :=
  if d = e.die then s.atGoal e
  else
    match s.failover with
    | none => s.toLink d e
    | some f =>
      if f.routes.contains (d, e.die) then { s with failover := some { f with held := f.held ++ [(d, e)] } }
      else s.toLink d e

/-- Flits a die link keeps for replay (11 R416). -/
def dieReplaySize : Nat := 512

/-- A packet as the mainband carries it: bytes filled up to an 8 B boundary (11 R414). -/
def pktWords (k : Packet) : List Byte := (cutBytes 8 (ceilDiv (pktBytes k).length 8) (pktBytes k)).flatten

/-- Is there room in the replay buffer for a packet's flits (11 R416)? -/
def DieLink.room (x : DieLink) (far : Bool) (e : TxEnt) : Bool :=
  far || decide (x.retry.buf.length + ceilDiv (x.stream.length + (pktWords e.pkt).length) 56 ≤ dieReplaySize)

/-- The class weights of die links (11 R418). -/
def dieWeights : List Nat := [4, 4, 4, 1]

/-- CRC-16 over the packet bytes of a flit and link control bits [47:0] (11 R414). -/
def crc16 (flit : List Byte) (control : Nat) : Nat :=
  crcBits 16 0x1021 0xFFFF (flitBits flit ++ lowBitsMsb 48 (bits control 47 0))

/-- The reporting end of a link puts a flit on it, with its link control (11 R414): an armed DLK_INJECT.crc corrupts the
CRC, by a free difference, the peer counts and records the failure and asks for a replay, and the injection is used up
(R416, R423, 16 R591 kind 13). -/
def State.wireDie (s : State) (l seq : Nat) (nak : Bool) (bs : List Byte) : State :=
  let x := s.link l
  let w := x.retry.control seq nak 4
  let s := s.setLink l { x with retry := x.retry.controlSent }
  let c := crc16 bs w
  if s.on (Reg.dlkInject_crc l) then
    let d := 1 + Config.freeNat s.fresh % (2 ^ 16 - 1)
    let s := ((s.setF (Reg.dlkInject_crc l) 0).bump 1).emit (.dieFlit l bs (w + Nat.xor c d * 2 ^ 48))
    ((s.incSat (Reg.dlkLinkErr_crc l) 1).incSat (Reg.dlkLinkErr_replays l) 1).record
      (mkRecord s 0 9 0xFFFF 0 13 l x.retry.next)
  else s.emit (.dieFlit l bs (w + c * 2 ^ 48))

/-- The reporting end sends an idle flit (11 R414). -/
def State.idleDie (s : State) (l : Nat) (nak : Bool) : State :=
  s.wireDie l (((s.link l).retry.next + 4095) % 4096) nak []

/-- The reporting end sends a new flit and keeps it for replay (11 R416). -/
def State.newDieFlit (s : State) (l : Nat) (bs : List Byte) : State :=
  let x := s.link l
  (s.setLink l { x with retry := x.retry.push 0 s.now bs }).wireDie l x.retry.next false bs

/-- The reporting end sends its replay buffer again, in its order (11 R416). -/
def State.replayDie (s : State) (l : Nat) : State :=
  (s.link l).retry.buf.foldl (fun s f => s.wireDie l f.seq false f.bytes) (s.incSat (Reg.dlkLinkErr_replays l) 1)

/-- The packet bytes that wait go out in flits of 56 B, the last filled up with 0 (11 R414). -/
def State.flushDie (s : State) (l : Nat) : State :=
  let x := s.link l
  (cutBytes 56 (ceilDiv x.stream.length 56) x.stream).foldl (fun s b => s.newDieFlit l b) (s.setLink l { x with stream := [] })

/-- The far end of a link from its reporting end or back. -/
def linkEnd (l : Nat) (far : Bool) : Nat := if !far then l % 4 else if l < 4 then ioDie else (l - 3) % 4

/-- An end of an ACTIVE link sends what waits there, in the order of its arbiter (11 R418); each packet has crossed it
then. The far end's flits are DIE_LINK_FLIT's. -/
def State.carry (l : Nat) (far : Bool) : Nat → State → State
  | 0, s => s
  | n + 1, s =>
    let x := s.link l
    if s.getF (Reg.dlkLinkStatus_state l) != lkActive then s
    else
      match (x.txOf far).pick dieWeights TxEnt.hop (x.room far) with
      | none => s
      | some (e, q) =>
        let s := s.setLink l (if far then { x with txFar := q } else { x with tx := q, stream := x.stream ++ pktWords e.pkt })
        State.carry l far n (s.cross (linkEnd l (!far)) { e with hop := e.hop + 1 })

/-- Every link carries what waits for it. -/
def State.serveLinks (s : State) : State :=
  s.links.foldl (fun s e =>
    (State.carry e.1 true e.2.txFar.q.length (State.carry e.1 false e.2.tx.q.length s)).flushDie e.1) s

/-- Packets move on as far as links, credit and arbiters let them: no route crosses more than three links (11 R415). -/
def State.pump (s : State) : State := s.serveLinks.serveLinks.serveLinks.servePorts

/-- Sends an RSP or MGT packet from a tower toward a node (10 R370); without an entry it is discarded and counted. -/
def State.sendSpray (s : State) (t node : Nat) (k : Packet) : State :=
  match s.route t node with
  | none => s.discard t
  | some (g, _) =>
    (s.cross t { pkt := k, hop := 0, transit := false, since := s.now, back := none, die := g, goal := .spray }).pump

/-- An empty packet. -/
def Packet.blank : Packet :=
  { cls := 0, op := 0, hopsLeft := true, resync := false, narrow := false, srcEngine := 0, length := 0, status := 0
    aop := 0, tag := 0, dst := 0, src := 0, age := 0, seq := 0, aux := 0, payload := [] }

/-- The answer to a packet: class RSP, to its source, from a vault ID (10 R373, R374). -/
def answerOf (k : Packet) (op st src : Nat) (data : List PByte) : Packet :=
  { Packet.blank with
      cls := clsRsp, op := op, srcEngine := 13, length := data.length, status := st, tag := k.tag
      dst := k.src * 2 ^ 32, src := src, payload := data }

/-- Answers a packet that reached a site of this package. -/
def State.answer (s : State) (site : Nat) (k : Packet) (op st : Nat) (data : List PByte) : State :=
  s.sendSpray (towerOf site) (vidNode k.src) (answerOf k op st (s.vidOf site) data)

/-! ## Ordered packets of local sources -/

/-- Are two packets of one flow: source, engine, class and destination (10 R370)? -/
def sameFlow (a b : Packet) : Bool :=
  a.cls == b.cls && a.src == b.src && a.srcEngine == b.srcEngine && a.dst / 2 ^ 32 == b.dst / 2 ^ 32

/-- REQ and TOK packets of a tower's sources to an entry's nodes that have been issued and not completed
(10 R367 outstanding). -/
def State.outstanding (s : State) (t off : Nat) : Nat :=
  (s.sent.filter (fun x => x.tower == t && x.st == .flying && s.entryOff t (vidNode (x.pkt.dst / 2 ^ 32)) == off)).length

/-- Those that are still in flight: neither answered nor lost (10 R384 step 2). -/
def State.inFlight (s : State) (t off : Nat) : Nat :=
  (s.sent.filter (fun x => x.tower == t && x.st == .flying && x.ans.isNone &&
    s.entryOff t (vidNode (x.pkt.dst / 2 ^ 32)) == off)).length

/-- Microseconds in ticks. -/
def us (n : Nat) : Nat := n * 1000
/-- Milliseconds in ticks. -/
def ms (n : Nat) : Nat := n * 1000000

/-- The lifetime of packets of a tower, in ticks. -/
def State.lifetime (s : State) (t : Nat) : Nat := us (s.getF (Reg.skyE2e_lifetime_us t))

/-- Packets an engine keeps outstanding: 64 of MOV, 256 of FMV (02 R96, 10 R397); no other engine has a limit. -/
def engineLimit (e : Nat) : Nat := if e = 1 then 64 else if e = 5 then 256 else 65536

/-- The key of a source's tag: source vault ID and tag. An RSP names no engine, so a site's engines share the tags. -/
def tagKey (src itag : Nat) : Nat := src * 65536 + itag

/-- May a source use a tag (10 R387)? -/
def State.tagFree (s : State) (src itag : Nat) : Bool :=
  !s.sent.any (fun x => x.pkt.src == src && x.pkt.tag == itag) &&
  decide (SMap.get (fun _ => 0) s.quarantine (tagKey src itag) ≤ s.now)

/-- The first number from one on that meets a test, or the last one tried. -/
def firstFrom (f : Nat → Bool) : Nat → Nat → Nat
  | 0, g => g
  | n + 1, g => if f g then g else firstFrom f n (g + 1)

/-- The lowest free tag of a source; the source chooses it (10 R373). A number above 65,535 is none: the packet waits for
a tag. -/
def State.pickTag (s : State) (src : Nat) : Nat := firstFrom (s.tagFree src) (s.sent.length + s.quarantine.length) 0

/-- Tags there are (10 R373). -/
def tagCount : Nat := 65536

/-- Requests that the I/O die has in flight toward a tower (11 R413). -/
def State.hostFlying (s : State) : Nat := (s.sent.filter (fun y => y.st == .flying && y.site == hostSite)).length

/-- Does the tag limit of an I/O-die link hold a packet of the host link back (11 R413)? -/
def State.tagsFull (s : State) (x : Sent) (g : Nat) : Bool :=
  x.site == hostSite &&
  (match s.dieRoute 3 ioDie g with
   | some (l :: _) => decide (s.getF (Reg.dlkLinkCap_tags l) ≤ s.hostFlying)
   | _ => false)

/-- May a packet of a local source go now, and by which egress tower and port (10 R372, R382, R383)? `earlier` are the
packets sent before it. -/
def State.mayGo (s : State) (x : Sent) (earlier : List Sent) : Option (Nat × Nat) :=
  let node := vidNode (x.pkt.dst / 2 ^ 32)
  let e := s.entry x.tower node
  match s.route x.tower node with
  | none => none
  | some (g, cand) =>
    let p := flowPort cand x.pkt.src (x.pkt.dst / 2 ^ 32) x.pkt.srcEngine
    let flow := earlier.filter (fun y => sameFlow y.pkt x.pkt)
    let toVault := s.sent.filter (fun y => y.st == .flying && y.pkt.cls == clsReq && y.pkt.src == x.pkt.src &&
      y.pkt.srcEngine == x.pkt.srcEngine && y.pkt.dst / 2 ^ 32 == x.pkt.dst / 2 ^ 32)
    let mine := s.sent.filter (fun y => y.st == .flying && y.pkt.src == x.pkt.src && y.pkt.srcEngine == x.pkt.srcEngine)
    if bit e 3 then none
    else if tagCount ≤ x.pkt.tag then none
    else if s.dieCut (towerOf x.site) g || s.dieHeld (towerOf x.site) g then none
    else if !s.portIsUp g p then none
    else if flow.any (fun y => y.st == .waiting || y.st == .refused) then none
    else if flow.any (fun y => y.st == .flying && y.port != 32 * g + p) then none
    else if x.pkt.cls == clsReq && 32 ≤ toVault.length then none
    else if engineLimit x.pkt.srcEngine ≤ mine.length then none
    else if s.tagsFull x g then none
    else some (g, p)

/-- Does a packet of a local source lack a port or a path: no entry, no way to its egress tower, or its port is not UP
(10 R372, 11 R421)? -/
def State.portless (s : State) (x : Sent) : Bool :=
  match s.route x.tower (vidNode (destVid x.pkt)) with
  | none => true
  | some (g, cand) =>
    s.dieCut (towerOf x.site) g || !s.portIsUp g (flowPort cand x.pkt.src (destVid x.pkt) x.pkt.srcEngine)

/-- A packet waits: the time for which it lacks a port runs while it lacks one (10 R372). -/
def State.timed (s : State) (x : Sent) : Sent :=
  if x.st = .waiting then
    { x with noPort := if !s.portless x then 0 else if x.noPort = 0 then s.now + 1 else x.noPort }
  else x

/-- Ports or entries have changed: the times of the packets that lack a port start or stop. -/
def State.timeWaits (s : State) : State := { s with sent := s.sent.map s.timed }

/-- Puts a packet on its way to its port, unless SKY_INJECT.drop takes it (10 R402). -/
def State.depart (s : State) (x : Sent) (g p : Nat) : State :=
  if s.on (Reg.skyInject_drop x.tower) then s.setF (Reg.skyInject_drop x.tower) 0
  else
    s.cross (towerOf x.site)
      { pkt := x.pkt, hop := 0, transit := false, since := s.now, back := none, die := g, goal := .port p }

/-- Issues a packet of a local source: it goes at once where it may, else it waits (10 R372, R382, R383). -/
def State.launch (s : State) (x : Sent) : State :=
  match s.mayGo x s.sent with
  | some (g, p) =>
    let x := { x with st := .flying, port := 32 * g + p, since := s.now }
    (({ s with sent := s.sent ++ [x] }).depart x g p).pump
  | none => { s with sent := s.sent ++ [s.timed { x with st := .waiting, since := s.now }] }

/-- A packet that waits for a tag takes one that is free. -/
def State.tagged (s : State) (x : Sent) : Sent :=
  let g := s.pickTag x.pkt.src
  if tagCount ≤ x.pkt.tag && decide (g < tagCount) then { x with pkt := { x.pkt with tag := g } } else x

/-- Sends a waiting packet, the k-th of the list, if it may go now. -/
def State.tryWaiting (s : State) (k : Nat) : State :=
  match s.sent[k]? with
  | none => s
  | some x =>
    if x.st = .waiting then
      let x := s.tagged x
      match s.mayGo x (s.sent.take k) with
      | some (g, p) =>
        let x := { x with st := .flying, port := 32 * g + p, since := s.now }
        ({ s with sent := s.sent.set k x }).depart x g p
      | none => s
    else s

/-- Every waiting packet that may go enters its class queue, and the arbiters send them. -/
def State.kickWaiting (s : State) : State := ((List.range s.sent.length).foldl (fun s k => s.tryWaiting k) s).pump

/-- Keeps a tag out of use for a lifetime (10 R387). -/
def State.quarantineTag (s : State) (t src itag : Nat) : State :=
  { s with quarantine := SMap.put (fun _ => 0) (tagKey src itag) (s.now + s.lifetime t) s.quarantine }

/-- The next job number. -/
def State.newJob (s : State) : Nat := Nat.max s.jobCtr ((s.jobs.foldl (fun m j => Nat.max m j.id) 0) + 1)

/-- Adds a job. -/
def State.addJob (s : State) (j : Job) : State := { s with jobs := s.jobs ++ [j], jobCtr := j.id + 1 }

/-- A job with nothing in it yet. -/
def Job.start (id site engine op itag : Nat) : Job :=
  { id := id, site := site, engine := engine, op := op, itag := itag, status := stOk, left := 0, buf := [], fin := .plain
    addr := 0, space := 0, dests := [], tiles := [], mem := [], first := 2 ^ 64, issued := 0, route := none }

/-- The status a job ends with after one more part has ended: the first one that stops the core, in order, else
POISONED if any part was (02 R70). -/
def worse (a b : Nat) : Nat :=
  if a != stOk && a != stPoisoned then a else if b != stOk && b != stPoisoned then b
  else if a == stPoisoned || b == stPoisoned then stPoisoned else stOk

/-- Replaces a job. -/
def State.setJob (s : State) (j : Job) : State :=
  { s with jobs := s.jobs.map (fun x => if x.id = j.id then j else x) }

/-- The job of a number. -/
def State.job? (s : State) (id : Nat) : Option Job := s.jobs.find? (fun j => j.id == id)

/-- Has an engine of a site a job outstanding? The mask selects engines. -/
def State.busyJobs (s : State) (site mask : Nat) : Bool := s.jobs.any (fun j => j.site == site && bit mask j.engine)

/-- Issues one REQ packet of a site's engine for a job; the host link's go out under the tables of T0. -/
def State.request (s : State) (site engine job : Nat) (dest : Dest) (k : Packet) : State :=
  let src := s.vidOf site
  let g := s.pickTag src
  let k := { k with src := src, srcEngine := engine, tag := g, hopsLeft := true }
  s.launch { pkt := k, tower := if site < hostSite then towerOf site else 0, site := site, job := job, dest := dest, st := .waiting, port := 0
             since := s.now, firstRefusal := 0, why := 0, noPort := 0, ans := none }

end Sys2Proof.Machine
end

