-- ==== Sys2Proof/Machine/VaultOps.lean ====
section
/-!
DEFINITION. The shared operations of a vault and its controller: the map (06 R209 to R211), reads with their checks and
counters (R237 to R240, R247), the write buffer (R217, R218), the arithmetic unit (R219), watches and their notices
(02 R82, R85, 10 R394), and when a request may be served (R213, R242, 07 R271).
-/
namespace Sys2Proof.Machine

/-- NOT_INIT. -/
def vsNotInit : Nat := 0
/-- INIT_BUSY. -/
def vsInitBusy : Nat := 1
/-- IN_SERVICE. -/
def vsInService : Nat := 2
/-- RETIRED. -/
def vsRetired : Nat := 3

/-- VLT_STATUS.state. -/
def State.vaultState (s : State) (v : Nat) : Nat := s.getF (Reg.vltStatus_state v)

/-- The frame boundary of a vault in bytes. -/
def State.frameBase (s : State) (v : Nat) : Nat := s.getF (Reg.vltMap_frame_base v) * 2 ^ 24

/-- Bytes of a vault. -/
def vaultSize : Nat := 0x20000000

/-- The physical byte address of a vault offset: ((layer * 16 + bank) * 4096 + row) * 1024 + column (06 R210, R211). -/
def physAddr (base a : Nat) : Nat :=
  if a < base then
    ((bits a 16 14 * 16 + bits a 13 10) * 4096 + bits a 28 17) * 1024 + bits a 9 0
  else
    let o := a - base
    let f := o / 2 ^ 17
    ((f % 128) * 4096 + (base / 2 ^ 17 + f / 128 * 128 + bits o 16 10)) * 1024 + bits o 9 0

/-- The vault offset of a physical byte address. -/
def offsetOf (base p : Nat) : Nat :=
  let col := p % 1024
  let row := p / 1024 % 4096
  let q := p / 2 ^ 22
  let rs := base / 2 ^ 17
  if row < rs then row * 2 ^ 17 + q / 16 * 2 ^ 14 + q % 16 * 2 ^ 10 + col
  else base + ((row - rs) / 128 * 128 + q) * 2 ^ 17 + (row - rs) % 128 * 1024 + col

/-- The physical row (1 KiB) of a physical address. -/
def rowOf (p : Nat) : Nat := p / 1024

/-- The bank (layer * 16 + bank) of a physical address. -/
def bankOf (p : Nat) : Nat := p / 2 ^ 22

/-- What an unlisted word of a vault holds: the last fill, or an open value before one (06 R241). -/
def wordDefault (v : Nat) (x : Vault) (k : Nat) : Codeword :=
  match x.bg with
  | some p => .enc p
  | none =>
    let w := Config.vaultWord (v + 2304 * x.epoch) k
    ⟨w.setWidth 64, (w >>> 64).setWidth 8⟩

/-- The bytes of an entry of the write buffer: they lie in its 128 B line (06 R217). -/
def WEntry.bytes (e : WEntry) : List PByte := e.data.take (128 - e.addr % 128)

/-- The words as later reads see them: the write buffer over the banks (06 R217). -/
def Vault.seen (v : Nat) (x : Vault) : EccMem :=
  x.wbuf.foldl (fun m e => EccMem.write (wordDefault v x) m e.addr e.bytes) x.mem

/-- Is the unit of a bank busy with a granted command (07 R271)? -/
def Vault.busyBank (x : Vault) (b : Nat) : Bool := x.running.any (fun c => c.units.contains b)

/-- May the write buffer not drain into a bank now: its unit is busy or a merge is outstanding? -/
def Vault.blocked (x : Vault) (b : Nat) : Bool :=
  x.busyBank b || x.wbuf.any (fun e => bankOf e.addr == b && e.merge.isSome)

/-- The banks of a vault. -/
def Vault.bank (x : Vault) (b : Nat) : Bank := SMap.get (fun _ => Bank.zero) x.banks b

/-- Stores a bank. -/
def Vault.setBank (x : Vault) (b : Nat) (y : Bank) : Vault :=
  { x with banks := SMap.put (fun _ => Bank.zero) b y x.banks }

/-- A request for a row of a bank arrives: the bank is in use, and another open row is closed (06 R221). -/
def State.rowAsked (s : State) (v p : Nat) : State :=
  let x := s.vault v
  let b := x.bank (bankOf p)
  s.setVault v (x.setBank (bankOf p) { b with
    lastUse := s.now, openRow := if b.openRow == some (rowOf p % 4096) then b.openRow else none })

/-- Entries of the write buffer from which writes go first, and down to which they do (06 R225). -/
def writeHigh : Nat := 28
/-- See `writeHigh`. -/
def writeLow : Nat := 16

/-- Stores the write buffer, and with it whether writes go first (06 R225). -/
def Vault.setBuf (x : Vault) (b : List WEntry) : Vault :=
  { x with wbuf := b
           writeFirst := decide (writeHigh ≤ b.length) || (x.writeFirst && decide (writeLow < b.length)) }

/-- An access to a row of a bank: the row is opened and counted unless it is open (06 R221). -/
def State.touchRow (s : State) (v p : Nat) : State :=
  let x := s.vault v
  let b := x.bank (bankOf p)
  let open_ := b.openRow == some (rowOf p % 4096)
  let b := { b with openRow := some (rowOf p % 4096), lastUse := s.now }
  let s := s.setVault v (x.setBank (bankOf p) b)
  if open_ then s else s.incWrap (Reg.vltCntAct_activates v) 1

/-- Pieces of a range that start on multiples of a size: offset and length. -/
def cuts (sz : Nat) : Nat → Nat → Nat → List (Nat × Nat)
  | 0, _, _ => []
  | k + 1, a, n =>
    if n = 0 then []
    else
      let m := Nat.min n (sz - a % sz)
      (a, m) :: cuts sz k (a + m) (n - m)

/-- A range cut at every multiple of a size. -/
def cutAt (sz a n : Nat) : List (Nat × Nat) := cuts sz (n / sz + 2) a n

/-- Does a request take the narrow path (06 R216)? -/
def narrowPath (narrow : Bool) (off n : Nat) : Bool := narrow || off / 32 == (off + n - 1) / 32

/-- 32 B units an access moves: its sectors on the narrow path, whole 128 B accesses on the full path (06 R214, R215). -/
def unitsMoved (narrow : Bool) (off n : Nat) : Nat :=
  if narrowPath narrow off n then (cutAt 32 off n).length else 4 * (cutAt 128 off n).length

/-! ## Arbitration (06 R223 to R226) -/

/-- The place of a class in the round-robin (06 R224). -/
def classSlot : ReqClass → Nat
  | .coreRead => 0
  | .coreWrite => 1
  | .remote => 2
  | .scrub => 3

/-- Grants in a row to a class that requests alone. -/
def arbAlone (w : List Nat) (c : Nat) : Nat → Arb → Arb
  | 0, a => a
  | k + 1, a =>
    match arbPick w a ((List.range 4).map (fun d => d == c)) with
    | some (_, b) => arbAlone w c k b
    | none => a

/-- The weights of a vault (VLT_ARB). -/
def State.arbWeights (s : State) (v : Nat) : List Nat :=
  [s.getF (Reg.vltArb_w_read v), s.getF (Reg.vltArb_w_write v), s.getF (Reg.vltArb_w_remote v), s.getF (Reg.vltArb_w_scrub v)]

/-- The grants of n accesses of a class that requests alone, on a path (06 R224, R226). -/
def State.bookAs (s : State) (v : Nat) (cls : ReqClass) (narrow : Bool) (n : Nat) : State :=
  let w := s.arbWeights v
  let x := s.vault v
  if narrow then s.setVault v { x with narrowArb := arbAlone w (classSlot cls) n x.narrowArb }
  else s.setVault v { x with full := arbAlone w (classSlot cls) n x.full }

/-- The grants of an access of a class to a range (06 R216, R224, R226). -/
def State.arbitrate (s : State) (v : Nat) (cls : ReqClass) (narrow : Bool) (off n : Nat) : State :=
  let p := narrowPath narrow off n
  s.bookAs v cls p (cutAt (if p then 32 else 128) off n).length

/-- The class of an access of a site to a vault (06 R223). -/
def accessClass (site v : Nat) (write : Bool) : ReqClass :=
  if site != v then .remote else if write then .coreWrite else .coreRead

/-! ## Reads -/

/-- The first error since valid was cleared (06 R250 VLT_ECC_FIRST). -/
def State.eccFirst (s : State) (v off kind : Nat) (d : Decoded) : State :=
  if s.on (Reg.vltEccFirst_valid v) then s
  else
    let s := s.setF (Reg.vltEccFirst_addr v) off
    let s := s.setF (Reg.vltEccFirst_syndrome v) d.s
    let s := s.setF (Reg.vltEccFirst_parity v) d.p
    let s := s.setF (Reg.vltEccFirst_kind v) kind
    s.setF (Reg.vltEccFirst_valid v) 1

/-- The entry that a new row replaces in a full correction table: the lowest count, the older on a tie (06 R240). -/
def ceVictim (t : List CeRow) : Nat :=
  match t with
  | [] => 0
  | e :: rest => (rest.foldl (fun (st : Nat × Nat × Nat) x =>
      let i := st.1 + 1
      if x.count < st.2.2 then (i, i, x.count) else (i, st.2.1, st.2.2)) (0, 0, e.count)).2.1

/-- A correction in a row: the table of 16 rows counts it, and at the threshold a retirement candidate goes to RAS
(06 R240). -/
def State.ceNote (s : State) (v off p : Nat) : State :=
  let x := s.vault v
  let r := rowOf p
  let t := x.ceTable
  let known := t.any (fun e => e.row == r)
  let t := if known then t.map (fun e => if e.row = r then { e with count := e.count + 1 } else e)
    else (if t.length < 16 then t else dropAt t (ceVictim t)) ++ [⟨r, 1, s.now⟩]
  let s := s.setVault v { x with ceTable := t }
  let n := ((t.find? (fun e => e.row == r)).map CeRow.count).getD 0
  if n = s.getF (Reg.vltEccCtrl_ce_threshold v) then s.record (mkRecord s 1 0 v 0 3 (off / 1024 * 1024) 0) else s

/-- What reading one word does to counters and records (06 R238, R239). -/
def State.noteWord (s : State) (v off p : Nat) (d : Decoded) : State :=
  match d.kind with
  | .clean => s
  | .corrected =>
    let s := s.incSat (Reg.vltEccCnt_corrected v) 1
    let s := s.eccFirst v off 0 d
    let s := s.record (mkRecord s 0 0 v 0 1 off (d.s + d.p * 128))
    s.ceNote v off p
  | .uncorrectable =>
    let s := s.incSat (Reg.vltEccCnt_uncorrectable v) 1
    let s := s.eccFirst v off 1 d
    s.record (mkRecord s 2 0 v stPoisoned 2 off (d.s + d.p * 128))
  | .poisoned =>
    let s := s.incSat (Reg.vltEccCnt_poison_reads v) 1
    s.eccFirst v off 2 d

/-- One word of a read: vault offset, physical address, decoding, and whether its row is retired. -/
structure WordRead where
  off : Nat
  phys : Nat
  dec : Decoded
  gone : Bool
  deriving DecidableEq, Repr

/-- The words of a range of a vault. -/
def State.wordsOf (s : State) (v off n : Nat) : List WordRead :=
  let x := s.vault v
  let m := x.seen v
  let base := s.frameBase v
  let d := wordDefault v x
  if n = 0 then []
  else (List.range ((off + n - 1) / 8 - off / 8 + 1)).map (fun i =>
    let a := (off / 8 + i) * 8
    let p := physAddr base a
    ⟨a, p, (EccMem.word d m (p / 8)).decode, x.retired.contains (rowOf p)⟩)

/-- The bytes of a word read; poison marks every byte of it. -/
def WordRead.bytes (w : WordRead) : List PByte :=
  if w.gone || w.dec.kind.bad then List.replicate 8 (0, true)
  else (List.range 8).map (fun i => (byteOf w.dec.data i, false))

/-- Bytes of a vault as a read returns them, without its side effects. -/
def State.peekVault (s : State) (v off n : Nat) : List PByte :=
  if s.vaultState v = vsRetired then List.replicate n (0, true)
  else slice ((s.wordsOf v off n).flatMap WordRead.bytes) (off % 8) n

/-- The status of a read (06 R239, R247). -/
def readStatus (ws : List WordRead) : Nat :=
  if ws.any WordRead.gone then stMemRetired
  else if ws.any (fun w => w.dec.kind.bad) then stPoisoned else stOk

/-- A read of a vault: its effect on counters, records and rows; its bytes and status (06 R237 to R239, R247, R248). -/
def State.readVault (s : State) (v off n : Nat) (narrow : Bool) : State × List PByte × Nat :=
  if s.vaultState v = vsRetired then (s, List.replicate n (0, true), stMemRetired)
  else
    let ws := s.wordsOf v off n
    let live := ws.filter (fun w => !w.gone)
    let s := (cutAt 1024 off n).foldl (fun s c => s.touchRow v (physAddr (s.frameBase v) c.1)) s
    let s := s.incWrap (Reg.vltCntRd_bytes v) (unitsMoved narrow off n)
    let s := live.foldl (fun s w => s.noteWord v w.off w.phys w.dec) s
    (s, slice (ws.flatMap WordRead.bytes) (off % 8) n, readStatus ws)

/-! ## Writes -/

/-- Drains the oldest entry of the write buffer that may drain (06 R217). -/
def State.drainOne (s : State) (v : Nat) : State :=
  let x := s.vault v
  match findIdx (fun e => !x.blocked (bankOf e.addr)) x.wbuf 0 with
  | none => s
  | some (k, e) =>
    (s.setVault v ({ x with mem := EccMem.write (wordDefault v x) x.mem e.addr e.bytes }.setBuf (dropAt x.wbuf k))).touchRow
      v e.addr

/-- Drains entries of the write buffer, while any may drain. -/
def State.drainSome (s : State) (v : Nat) : Nat → State
  | 0 => s
  | k + 1 => (s.drainOne v).drainSome v k

/-- Entries of the write buffer (06 R217). -/
def wbufSize : Nat := 32

/-- Drains what must leave the write buffer before n entries can enter (06 R217). -/
def State.makeRoom (s : State) (v n : Nat) : State := s.drainSome v ((s.vault v).wbuf.length + n - wbufSize)

/-- An entry enters the write buffer. -/
def State.bufPut (s : State) (v : Nat) (e : WEntry) : State :=
  let s := s.rowAsked v e.addr
  let x := s.vault v
  s.setVault v (x.setBuf (x.wbuf ++ [e]))

/-- Accepts one piece into the write buffer, draining an entry first if it is full (06 R217). -/
def State.accept (s : State) (v : Nat) (e : WEntry) : State := (s.makeRoom v 1).bufPut v e

/-- The watches whose granule a range touches, each told the flag's new value (02 R82). -/
def State.notify (s : State) (v off n : Nat) : State :=
  let x := s.vault v
  let hit := fun (w : Watch) => decide (off / 64 ≤ w.off / 64 ∧ w.off / 64 ≤ (off + n - 1) / 64) && n != 0
  if !x.watches.any hit then s
  else
    let bump := fun (w : Watch) =>
      if hit w then
        match w.who with
        | .core _ => w
        | .remote src e g c => { w with who := .remote src e g ((c + 1) % 65536) }
      else w
    let ws := x.watches.map bump
    let told := (ws.filter hit).map (fun w => (w.who, w.off, s.peekVault v w.off 8))
    let here := told.filter (fun t => match t.1 with | .core _ => true | .remote _ _ _ _ => false)
    let s := s.setVault v { x with watches := ws, notices := x.notices ++ here }
    told.foldl (fun s t =>
      match t.1 with
      | .core _ => s
      | .remote src _ g c =>
        s.sendSpray (towerOf v) (vidNode src)
          { Packet.blank with cls := clsRsp, op := 4, srcEngine := 13, length := 8, tag := g, seq := c
                              dst := src * 2 ^ 32, src := s.vidOf v, payload := t.2.2 }) s

/-- Does a write of a range cover part of an 8 B word (06 R218)? -/
def partialWords (off n : Nat) : Bool := off % 8 != 0 || (off + n) % 8 != 0

/-- The words that a partial write merges into. -/
def mergeWords (s : State) (v off n : Nat) : List WordRead :=
  (s.wordsOf v off n).filter (fun w => decide (w.off < off ∨ off + n < w.off + 8))

/-- A write of a vault that completes at once: what is not in a retired row enters the write buffer line by line, the
old words of a partial write are read and merged, and watches are told (06 R217, R218, R247). -/
def State.writeVault (s : State) (v off : Nat) (data : List PByte) (narrow : Bool) : State × Nat :=
  let n := data.length
  if s.vaultState v = vsRetired then (s, stMemRetired)
  else if n = 0 then (s, stOk)
  else
    let base := s.frameBase v
    let pieces := cutAt 128 off n
    let gone := fun (c : Nat × Nat) => (s.vault v).retired.contains (rowOf (physAddr base c.1))
    let olds := (mergeWords s v off n).filter (fun w => !w.gone)
    let s' := olds.foldl (fun s w => s.noteWord v w.off w.phys w.dec) s
    let live := pieces.filter (fun c => !gone c)
    let s' := live.foldl (fun s c =>
      s.accept v ⟨physAddr base c.1, slice data (c.1 - off) c.2, none⟩) s'
    let s' := s'.incWrap (Reg.vltCntWr_bytes v) (unitsMoved narrow off n)
    let s' := live.foldl (fun s c => s.notify v c.1 c.2) s'
    (s', if pieces.any gone then stMemRetired
         else if olds.any (fun w => w.dec.kind.bad) then stPoisoned else stOk)

/-! ## Atomics (02 R99, 06 R219) -/

/-- The new value of an atomic on w-bit values. -/
def atomicOp (w aop old operand compare : Nat) : Nat :=
  match aop with
  | 0 => (old + operand) % 2 ^ w
  | 1 => Nat.max old operand
  | 2 => Nat.min old operand
  | 3 => operand
  | 4 => if old = compare then operand else old
  | 5 => Nat.land old operand
  | 6 => Nat.lor old operand
  | _ => Nat.xor old operand

/-- An atomic at a vault: the old value as 8 B (zero-extended when narrow) and the status. A poisoned operand or
compare word writes the mark; a poisoned target stays poisoned and returns poison. -/
def State.atomicVault (s : State) (v off aop : Nat) (wide : Bool) (operand compare : List PByte) :
    State × List PByte × Nat :=
  if s.vaultState v = vsRetired then (s, List.replicate 8 (0, true), stMemRetired)
  else
    let w := off / 8 * 8
    let r := s.readVault v w 8 true
    let s := r.1
    if r.2.2 = stMemRetired then (s, List.replicate 8 (0, true), stMemRetired)
    else if anyPoison r.2.1 then
      let s := (s.writeVault v w (List.replicate 8 (0, true)) true).1
      (s, List.replicate 8 (0, true), stPoisoned)
    else
      let nb := if wide then 8 else 4
      let old := leP (slice r.2.1 (off - w) nb)
      let back := clean (toLE 8 old)
      if anyPoison operand || (aop == 4 && anyPoison compare) then
        ((s.writeVault v w (List.replicate 8 (0, true)) true).1, back, stPoisoned)
      else
        let new := atomicOp (8 * nb) aop old (leP (operand.take nb)) (leP (compare.take nb))
        ((s.writeVault v off (clean (toLE nb new)) true).1, back, stOk)

/-! ## Accesses of a site -/

/-- A read of a vault by a site, granted by the vault's arbiter. -/
def State.readAs (s : State) (site v off n : Nat) (narrow : Bool) : State × List PByte × Nat :=
  (s.arbitrate v (accessClass site v false) narrow off n).readVault v off n narrow

/-- A write of a vault by a site, granted by the vault's arbiter. -/
def State.writeAs (s : State) (site v off : Nat) (data : List PByte) (narrow : Bool) : State × Nat :=
  (s.arbitrate v (accessClass site v true) narrow off data.length).writeVault v off data narrow

/-- An atomic of a site at a vault, granted on the narrow path (06 R216). -/
def State.atomicAs (s : State) (site v off aop : Nat) (wide : Bool) (operand compare : List PByte) :
    State × List PByte × Nat :=
  (s.arbitrate v (accessClass site v true) true (off / 8 * 8) 8).atomicVault v off aop wide operand compare

/-! ## When a request may be served -/

/-- Is a vault held: by VLT_CTRL.hold, or by a VLT block reset that waits or holds it (06 R213, 14 R519)? -/
def State.vaultHolds (s : State) (v : Nat) : Bool :=
  s.on (Reg.vltCtrl_hold v) || s.blockOn v 2

/-- Does the vault port accept requests now (06 R213, R242)? -/
def State.portOpen (s : State) (v : Nat) : Bool :=
  !s.vaultHolds v && s.vaultState v != vsInitBusy

/-- The banks a range touches. -/
def State.banksOf (s : State) (v off n : Nat) : List Nat :=
  (cutAt 1024 off n).map (fun c => bankOf (physAddr (s.frameBase v) c.1))

/-- Is no bank of a range busy (07 R271)? -/
def State.banksIdle (s : State) (v off n : Nat) : Bool := (s.banksOf v off n).all (fun b => !(s.vault v).busyBank b)

/-- May a read of a range be served now (07 R271)? -/
def State.readReady (s : State) (v off n : Nat) : Bool := s.portOpen v && s.banksIdle v off n

/-- Entries of the write buffer that may not drain now. -/
def Vault.stuck (x : Vault) : Nat := (x.wbuf.filter (fun e => x.blocked (bankOf e.addr))).length

/-- Can the write buffer take a write of a range, and the write complete, now (06 R217, R218, 07 R270)? -/
def State.bufferReady (s : State) (v off n : Nat) : Bool :=
  let x := s.vault v
  let bs := s.banksOf v off n
  let stuck := x.stuck
  (decide (x.wbuf.length + (cutAt 128 off n).length ≤ wbufSize) ||
    (decide (stuck < wbufSize) && bs.all (fun b => !x.blocked b))) &&
  (!partialWords off n || bs.all (fun b => !x.busyBank b))

/-- May a write of a range be accepted and complete now (06 R213, R217)? -/
def State.writeReady (s : State) (v off n : Nat) : Bool := s.portOpen v && s.bufferReady v off n

/-- Watches of a controller (02 R85). -/
def watchMax : Nat := 64

/-- Installs a watch and reads the flag in one slot; none when all watches are in use (02 R82, R85). -/
def State.installWatch (s : State) (v off : Nat) (who : Watcher) : Option (State × List PByte × Nat) :=
  let x := s.vault v
  if watchMax ≤ x.watches.length then none
  else
    let s := s.setVault v { x with watches := x.watches ++ [⟨off, who⟩] }
    some (s.readVault v off 8 true)

end Sys2Proof.Machine
end

