-- ==== Sys2Proof/Machine/Operands.lean ====
section
/-!
DEFINITION. The operand forms: effective addresses (02 R73), the checks of the four spaces (02 R75, 01 R36 to R41),
windows and their translation (01 R42 to R48), the page-table walk (08 R284 to R287), and where an access lands.
-/
namespace Sys2Proof.Machine

/-! ## Effective addresses -/

/-- Space 0 ground, 1 sky, 2 sky-virtual, 3 scratchpad (02 R72). -/
def spGround : Nat := 0
/-- Sky. -/
def spSky : Nat := 1
/-- Sky-virtual. -/
def spVirt : Nat := 2
/-- Scratchpad. -/
def spScratch : Nat := 3

/-- Bytes of a scratchpad. -/
def scratchSize : Nat := 0x100000

/-- An address generator of a core. -/
def Core.ag (c : Core) (g : Nat) : Ag := SMap.get (fun _ => Ag.zero) c.ags g

/-- The iteration index of the repeat at a depth, 0 when none is open there (02 R73). The frames stand innermost
first. -/
def Core.iterAt (c : Core) (d : Nat) : Nat := ((c.frames.reverse[d]?).map LoopFrame.iter).getD 0

/-- The effective address of a generator and a displacement (02 R73): wrapping 64-bit arithmetic. -/
def Core.ea (c : Core) (g : Nat) (disp : Int) : Nat :=
  let a := c.ag g
  wrap 64 ((a.base.toNat : Int) + disp + c.iterAt 0 * a.s0.toInt + c.iterAt 1 * a.s1.toInt + c.iterAt 2 * a.s2.toInt)

/-- The space of a generator. -/
def Core.space (c : Core) (g : Nat) : Nat := (c.ag g).space.toNat

/-- An operand address: the generator's space, its base and the sum. -/
structure Opnd where
  space : Nat
  base : Nat
  ea : Nat
  deriving DecidableEq, Repr

/-- The operand a generator and a displacement name. -/
def Core.opnd (c : Core) (g : Nat) (disp : Int) : Opnd := ⟨c.space g, (c.ag g).base.toNat, c.ea g disp⟩

/-- An operand as an engine's queue keeps it, the k-th. -/
def opAt (ops : List (Nat × Nat × Nat)) (k : Nat) : Opnd :=
  let o := ops.getD k (0, 0, 0)
  ⟨o.1, o.2.1, o.2.2⟩

/-- Is an operand a scratchpad range that lies in the scratchpad (02 R75)? -/
def Opnd.inScratch (o : Opnd) (n : Nat) : Bool := o.space == spScratch && decide (o.ea + n ≤ scratchSize)

/-! ## Places -/

/-- Do the fields of a sky address pass (01 R37, R39)? -/
def skyOk (a : Nat) : Bool := bits a 41 37 < 24 && bits a 36 32 < 24 && bits a 31 29 == 0

/-- The place a sky address names for a source at a tower or the I/O die, or FABRIC_UNREACHABLE (01 R38, R40,
11 R421). -/
def State.placeOf (s : State) (die a : Nat) : Except Nat Place :=
  let node := bits a 63 44
  let t := if die < 4 then die else 0
  let v := bits a 43 42 * 576 + bits a 41 37 * 24 + bits a 36 32
  if node = 0xFFFFF ∨ node = s.nodeOf t then
    if s.diePath die (towerOf v) = .none then .error stUnreachable else .ok (.vault v (bits a 31 0))
  else
    match s.route t node with
    | none => .error stUnreachable
    | some _ => .ok (.remote (bits a 63 32) (bits a 31 0))

/-- May a piece in this package be served now for a source at a die (11 R420, 10 R385, 06 R213, 07 R271)? -/
def State.pieceReady (s : State) (die : Nat) (write : Bool) (p : Piece) : Bool :=
  match p.place with
  | .vault v off =>
    let t := towerOf v
    (die == t || (s.diePath die t == .now && !s.on (Reg.skyStatus_resetting t))) &&
    (if write then s.writeReady v off p.len else s.readReady v off p.len)
  | .remote _ _ => true

/-- May an atomic of n bytes at a piece be served now (07 R271)? -/
def State.atomicReady (s : State) (die : Nat) (p : Piece) : Bool :=
  s.pieceReady die true p &&
  match p.place with
  | .vault v off => s.banksIdle v (off / 8 * 8) 8
  | .remote _ _ => true

/-- An access after translation: the state after its walks, its status, its pieces, and whether every vault it needs
can serve it now. -/
structure Xlat where
  s : State
  st : Nat
  pieces : List Piece
  ready : Bool
  deriving DecidableEq, Repr

/-- A failed translation. -/
def Xlat.fail (s : State) (st : Nat) : Xlat := ⟨s, st, [], true⟩

/-- One contiguous range at a sky address; `bad` is the status of a failed check of R37 or R39. -/
def State.skyRange (s : State) (die a n bad : Nat) (write : Bool) (pos : Nat) : Xlat :=
  if !skyOk a || decide (vaultSize < bits a 31 0 + n) then .fail s bad
  else
    match s.placeOf die a with
    | .error e => .fail s e
    | .ok p =>
      let q : Piece := ⟨p, pos, n⟩
      ⟨s, stOk, [q], s.pieceReady die write q⟩

/-- Puts a further piece after an access. -/
def Xlat.andThen (x : Xlat) (f : State → Xlat) : Xlat :=
  if x.st = stOk then
    let y := f x.s
    ⟨y.s, y.st, x.pieces ++ y.pieces, x.ready && y.ready⟩
  else x

/-! ## Windows -/

/-- The fields of a window descriptor (01 R43). -/
def winKind (w : Window) : Nat := bits w.desc.toNat 1 0
/-- granule: log2 of its bytes. -/
def winGranLog (w : Window) : Nat := 12 + 2 * bits w.desc.toNat 3 2
/-- log2_n. -/
def winLogN (w : Window) : Nat := bits w.desc.toNat 7 4
/-- read_only. -/
def winReadOnly (w : Window) : Bool := bit w.desc.toNat 8
/-- The size in bytes. -/
def winSize (w : Window) : Nat := bits w.desc.toNat 47 16 * 4096
/-- base. -/
def winBase (w : Window) : Nat := bits w.desc.toNat 127 64
/-- list. -/
def winList (w : Window) : Nat := bits w.desc.toNat 191 128

/-- INVALID, with no list. -/
def Window.none : Window := ⟨0, []⟩

/-- The window of a channel. -/
def State.window (s : State) (ch w : Nat) : Window := SMap.get (fun _ => Window.none) (s.chan ch).windows w

/-- The sky address of an offset of an INTERLEAVED window (01 R48). -/
def interleave (w : Window) (off : Nat) : Nat :=
  let gl := winGranLog w
  let n := 2 ^ winLogN w
  let g := off / 2 ^ gl
  let hi := g / n
  let slot := Nat.xor (Nat.xor (g % n) (hi % n)) (hi / n % n)
  w.list.getD slot 0 * 2 ^ 32 + (bits (winBase w) 28 0 + hi * 2 ^ gl + off % 2 ^ gl)

/-- The engine number of the host link (10 R373). -/
def hostEngine : Nat := 15

/-- Bytes of a packet of the host link at most: those of an I/O-die link (11 R413). -/
def hostPkt : Nat := 128

/-- Bytes of a packet of KVX, FMV, or the host link at most (10 R392, 11 R413). -/
def sitePkt (site : Nat) : Nat := if site < hostSite then 256 else hostPkt

/-! ## Tables of other nodes (01 R44, 08 R286, R291) -/

/-- Begins the look-ups of an agent. -/
def State.ask (s : State) (site key : Nat) : State := { s with asker := some ⟨site, key, [], []⟩ }

/-- Is a table read of an agent? -/
def TabRead.ofAgent (t : TabRead) (site key : Nat) : Bool := t.site == site && t.key == key

/-- Forgets the tables that an agent has read: nothing is kept beyond the instruction (08 R286). -/
def State.dropTables (s : State) (site key : Nat) : State :=
  { s with tables := s.tables.filter (fun t => !t.ofAgent site key) }

/-- Ends the look-ups of an agent. -/
def State.forget (s : State) (site key : Nat) : State := { s.dropTables site key with asker := none }

/-- What the agent that runs has still to read. -/
def State.wanted (s : State) : List (Nat × Nat) := ((s.asker.map Asker.wanted).getD []).eraseDups

/-- Bytes of another node as the agent that runs has read them, and their status; what it has not read is wanted. -/
def State.tabRead (s : State) (vid off n : Nat) : State × List PByte × Nat :=
  match s.asker with
  | none => (s, List.replicate n (0, true), stPoisoned)
  | some a =>
    let got := (cutAt (sitePkt a.site) off n).map (fun c =>
      let at_ := vid * 2 ^ 32 + c.1
      ((at_, c.2), (s.tables.find? (fun t => t.ofAgent a.site a.key && t.addr == at_ && t.len == c.2)).bind TabRead.ans))
    let miss := (got.filter (fun g => g.2.isNone)).map Prod.fst
    if miss.isEmpty then
      (s, got.flatMap (fun g => (g.2.map Prod.snd).getD []), got.foldl (fun st g => worse st ((g.2.map Prod.fst).getD stOk)) stOk)
    else ({ s with asker := some { a with wanted := a.wanted ++ miss } }, List.replicate n (0, false), stOk)

/-- Sends a READ for each wanted range that an agent has not asked for yet. -/
def State.sendWanted (s : State) (site key eng : Nat) (ws : List (Nat × Nat)) : State :=
  ws.foldl (fun s w =>
    if s.tables.any (fun t => t.ofAgent site key && t.addr == w.1 && t.len == w.2) then s
    else
      let t : TabRead := { site := site, key := key, addr := w.1, len := w.2, ans := none }
      State.request { s with tables := s.tables ++ [t] } site eng 0 (.table key w.1 w.2)
        { Packet.blank with op := 0, narrow := true, aux := w.2, dst := w.1 }) s

/-- The answer to a READ of a table. -/
def State.tabAnswer (s : State) (site key addr len st : Nat) (data : List PByte) : State :=
  { s with tables := s.tables.map (fun t =>
      if t.ofAgent site key && t.addr == addr && t.len == len then { t with ans := some (st, data) } else t) }

/-- Has an agent a READ of a table outstanding? -/
def State.asked (s : State) (site key : Nat) : Bool := s.tables.any (fun t => t.ofAgent site key && t.ans.isNone)

/-- What became of an agent's attempt: it waits, with what it has sent so far, or it has taken effect. -/
inductive Tried (α : Type) where
  | waits (s : State)
  | done (s : State) (a : α)

/-- Runs what an agent does with its look-ups: it takes effect once all it has to read at other nodes is read; until then
READs go out and nothing else happens. -/
def State.lookUp {α : Type} (s : State) (site key eng : Nat) (f : State → Option (State × α)) : Tried α :=
  if s.asked site key then .waits s
  else
    match f (s.ask site key) with
    | none => .waits s
    | some r =>
      if r.1.wanted.isEmpty then .done (r.1.forget site key) r.2 else .waits (s.sendWanted site key eng r.1.wanted)

/-- Notes the banks that a core's access waits for. -/
def State.setWaits (s : State) (i : Nat) (bs : List (Nat × Nat)) : State :=
  if (s.core i).waits = bs then s else s.setCore i { s.core i with waits := bs }

/-! ## The page-table walk -/

/-- An entry read by a walk: the state after it, its value if it was read clean, and whether it can be read now. -/
structure WalkRead where
  s : State
  val : Option Nat
  ready : Bool
  deriving DecidableEq, Repr

/-- Reads n bytes of a table at a sky address (08 R286). -/
def State.walkRead (s : State) (die site a n : Nat) : WalkRead :=
  match s.placeOf die a with
  | .error _ => ⟨s, none, true⟩
  | .ok (.vault v off) =>
    let r := s.readAs site v off n true
    ⟨r.1, if anyPoison r.2.1 then none else some (leP r.2.1), s.pieceReady die false ⟨.vault v off, 0, n⟩⟩
  | .ok (.remote vid off) =>
    let r := s.tabRead vid off n
    ⟨r.1, if anyPoison r.2.1 || r.2.2 != stOk then none else some (leP r.2.1), true⟩

/-- The entries of a page-layer: the sky address of its second-level entry and the entry's value. -/
structure Walk where
  s : State
  ok : Bool
  at_ : Nat
  e2 : Nat
  ready : Bool
  deriving DecidableEq, Repr

/-- A walk that read a poisoned entry sends a CONTAINED record with the entry's address (16 R580). -/
def State.walkPoison (s : State) (site st a : Nat) : State := s.record (mkRecord s 3 6 site st 18 a 0)

/-- The walk to the second-level entry of a window offset (08 R284 to R287); `ok` is false on TRANSLATION_FAULT by
the first level or an unreadable entry. -/
def State.walkAnew (s : State) (die site : Nat) (w : Window) (off : Nat) : Walk :=
  let a1 := winBase w + 8 * bits off 39 28
  let r1 := s.walkRead die site a1 8
  match r1.val with
  | none => ⟨r1.s.walkPoison site stTranslation a1, false, 0, 0, r1.ready⟩
  | some x1 =>
    let e1 := x1 % 2 ^ 64
    let tbl := bits e1 63 12 * 2 ^ 12
    if !bit e1 0 || bits e1 11 1 != 0 || !skyOk tbl || tbl % 2 ^ 15 != 0 then ⟨r1.s, false, 0, 0, r1.ready⟩
    else
      let a2 := tbl + 16 * bits off 27 17
      let r2 := r1.s.walkRead die site a2 16
      match r2.val with
      | none => ⟨r2.s.walkPoison site stTranslation a2, false, a2, 0, r1.ready && r2.ready⟩
      | some x2 => ⟨r2.s, true, a2, x2, r1.ready && r2.ready⟩

/-- The page-layer of a window offset, as an agent remembers it. -/
def walkKey (w : Window) (off : Nat) : Nat × Nat := (winBase w, off / 2 ^ 17)

/-- The walk to the second-level entry of a window offset: one instruction makes it once (08 R286). -/
def State.walk (s : State) (die site : Nat) (w : Window) (off : Nat) : Walk :=
  match (s.asker.bind (fun a => a.walks.find? (fun e => e.1 == walkKey w off))) with
  | some e => ⟨s, e.2.1, e.2.2.1, e.2.2.2, true⟩
  | none =>
    let k := s.walkAnew die site w off
    { k with s := { k.s with asker := k.s.asker.map (fun a =>
      { a with walks := a.walks ++ [(walkKey w off, (k.ok, k.at_, k.e2))] }) } }

/-- Fields of a second-level entry (08 R285). -/
def pteValid (e : Nat) : Bool := bit e 0
/-- shared. -/
def pteShared (e : Nat) : Bool := bit e 1
/-- fill. -/
def pteFill (e : Nat) : Nat := bits e 12 4
/-- The frame's sky address. -/
def pteFrame (e : Nat) : Nat := bits e 63 17 * 2 ^ 17
/-- The directory index. -/
def pteEntry (e : Nat) : Nat := bits e 81 64
/-- Are the reserved fields of a second-level entry 0, and the index too when it is not shared? -/
def pteRsvOk (e : Nat) : Bool :=
  bits e 3 2 == 0 && bits e 16 13 == 0 && bits e 127 82 == 0

/-- The frame address of a backed page-layer, or the fault (08 R287). -/
def framePlace (w : Walk) (write : Bool) : Except Nat Nat :=
  if !w.ok || !pteValid w.e2 || !pteRsvOk w.e2 || !skyOk (pteFrame w.e2) then .error stTranslation
  else if write && pteShared w.e2 then .error stWriteDenied
  else .ok (pteFrame w.e2)

/-- The pieces of a window range in one window kind: each piece has its own sky address. -/
def State.windowRange (s : State) (die site : Nat) (w : Window) (off n : Nat) (write : Bool) : Xlat :=
  if winKind w = 1 then s.skyRange die (winBase w + off) n stTranslation write 0
  else if winKind w = 2 then
    (cutAt (2 ^ winGranLog w) off n).foldl (fun x c =>
      x.andThen (fun s => s.skyRange die (interleave w c.1) c.2 stTranslation write (c.1 - off))) ⟨s, stOk, [], true⟩
  else
    (cutAt (2 ^ 17) off n).foldl (fun x c =>
      x.andThen (fun s =>
        let k := s.walk die site w c.1
        match framePlace k write with
        | .error e => ⟨k.s, e, [], k.ready⟩
        | .ok f =>
          let y := k.s.skyRange die (f + c.1 % 2 ^ 17) c.2 stTranslation write (c.1 - off)
          { y with ready := y.ready && k.ready })) ⟨s, stOk, [], true⟩

/-- A sky-virtual range of a channel (01 R45). -/
def State.virtRange (s : State) (die site : Nat) (ch : Option Nat) (a n : Nat) (write : Bool) : Xlat :=
  match ch with
  | none => .fail s stTranslation
  | some k =>
    let w := s.window k (bits a 47 40)
    let off := bits a 39 0
    if bits a 63 48 != 0 || winKind w == 0 || decide (winSize w < off + n) then .fail s stTranslation
    else if write && winReadOnly w then .fail s stWriteDenied
    else s.windowRange die site w off n write

/-- The range of a piece as a job's `mem` names it. -/
def Piece.mem (p : Piece) : Nat × Nat × Nat :=
  match p.place with
  | .vault v off => (v, off, p.len)
  | .remote vid off => (4096 + vid, off, p.len)

/-- Notes memory that an issuing instruction of a core accesses, while notes are taken (01 R54). -/
def State.touchedMem (s : State) (i : Nat) (xs : List (Nat × Nat × Nat)) : State :=
  let c := s.core i
  match c.touchMem with
  | none => s
  | some ys => s.setCore i { c with touchMem := some (ys ++ xs) }

/-- A memory operand of a core over n bytes: every check of its space, before any side effect (01 R35, 02 R75); the
pieces are not noted. -/
def State.resolvePlain (s : State) (site : Nat) (o : Opnd) (n : Nat) (write : Bool) : Xlat :=
  let t := towerOf site
  if o.space = spGround then
    if vaultSize < o.ea + n then .fail s stBadParam
    else
      let q : Piece := ⟨.vault site o.ea, 0, n⟩
      ⟨s, stOk, [q], s.pieceReady t write q⟩
  else if o.space = spSky then s.skyRange t o.ea n stBadParam write 0
  else if o.space = spVirt then
    if o.ea / 2 ^ 40 != o.base / 2 ^ 40 then .fail s stTranslation
    else s.virtRange t site (chanOfSite s.chans site) o.ea n write
  else .fail s stBadParam

/-- A memory operand of a core over n bytes (01 R35, 02 R75), its pieces noted for the order of its engine (01 R54). -/
def State.resolve (s : State) (site : Nat) (o : Opnd) (n : Nat) (write : Bool) : Xlat :=
  let x := s.resolvePlain site o n write
  { x with s := x.s.touchedMem site (x.pieces.map Piece.mem) }

/-- Notes further banks that a core's access waits for. -/
def State.waitFor (s : State) (i : Nat) (bs : List (Nat × Nat)) : State := s.setWaits i ((s.core i).waits ++ bs).eraseDups

/-- A core's access to banks has been served. -/
def State.waitOver (s : State) (i : Nat) (bs : List (Nat × Nat)) : State :=
  s.setWaits i ((s.core i).waits.filter (fun b => !bs.contains b))

/-- The busy banks of a range of a vault, by vault and bank. -/
def State.busyAt (s : State) (v off n : Nat) : List (Nat × Nat) :=
  ((s.banksOf v off n).filter (s.vault v).busyBank).map (fun b => (v, b))

/-- The banks, by vault and bank, that an access of a core waits for: those that `act` would use, where `run`, all that
decides whether it goes on, passes were no unit busy (07 R271, R272). -/
def State.heldBanks {α : Type} (s : State) (i : Nat) (run act : State → Option (State × α)) : List (Nat × Nat) :=
  if s.vaults.all (fun e => e.2.running.isEmpty) then []
  else
    let probe : State := { s with vaults := SMap.mapVal (fun _ (x : Vault) => { x with running := [] }) s.vaults }
    match run (probe.ask i 0), act ((probe.setCore i { probe.core i with touchMem := some [] }).ask i 0) with
    | some _, some r =>
      ((((r.1.core i).touchMem.getD []).filter (fun a => decide (a.1 < 4096))).flatMap (fun a =>
        (s.banksOf a.1 a.2.1 a.2.2).map (fun b => (a.1, b)))).filter (fun e => (s.vault e.1).busyBank e.2)
    | _, _ => []

/-! ## Scratchpad -/

/-- What an unlisted scratchpad word holds: zero with valid check bits (14 R513). -/
def scratchZero : Nat → Codeword := fun _ => Codeword.zero

/-- Reading a word of a scratchpad: a single error is corrected and reported; an uncorrectable word becomes the mark
and is reported (16 R578). -/
def State.noteScratch (s : State) (i : Nat) (w : Nat × Decoded) : State :=
  match w.2.kind with
  | .clean => s
  | .corrected => s.record (mkRecord s 0 2 i 0 5 (8 * w.1) (w.2.s + w.2.p * 128))
  | .uncorrectable =>
    let c := s.core i
    (s.setCore i { c with scratch := SMap.put scratchZero w.1 Codeword.mark c.scratch }).record
      (mkRecord s 2 2 i stPoisoned 5 (8 * w.1) (w.2.s + w.2.p * 128))
  | .poisoned => s

/-- Notes a scratchpad range that an issuing instruction reads or writes, while notes are taken (02 R66). -/
def State.touched (s : State) (i a n : Nat) : State :=
  let c := s.core i
  match c.touch with
  | none => s
  | some xs => s.setCore i { c with touch := some (xs ++ [(a, n)]) }

/-- Reads n bytes of a site's scratchpad (16 R578). -/
def State.readScratch (s : State) (i a n : Nat) : State × List PByte :=
  let s := s.touched i a n
  let m := (s.core i).scratch
  let ws := EccMem.scan scratchZero m a n
  let s := ws.foldl (fun s w => s.noteScratch i w) s
  let bytes := ws.flatMap (fun w =>
    if w.2.kind.bad then List.replicate 8 ((0 : Byte), true) else (List.range 8).map (fun k => (byteOf w.2.data k, false)))
  (s, slice bytes (a % 8) n)

/-- Writes bytes to a site's scratchpad. -/
def State.writeScratch (s : State) (i a : Nat) (data : List PByte) : State :=
  let s := s.touched i a data.length
  let c := s.core i
  s.setCore i { c with scratch := EccMem.write scratchZero c.scratch a data }

/-! ## Reads and writes of pieces in this package -/

/-- Reads the pieces that lie in this package for a site, each at its position; others read as no bytes. -/
def State.readPieces (s : State) (site : Nat) (ps : List Piece) (narrow : Bool) : State × List (Nat × List PByte) × Nat :=
  ps.foldl (fun r p =>
    match p.place with
    | .vault v off =>
      let q := r.1.readAs site v off p.len narrow
      (q.1, r.2.1 ++ [(p.pos, q.2.1)], worse r.2.2 q.2.2)
    | .remote _ _ => r) (s, [], stOk)

/-- Does a status mean more than poison? -/
def hardSt (st : Nat) : Bool := st != stOk && st != stPoisoned

/-- Writes the bytes of a transfer of a site to the pieces that lie in this package: the state, the status, and the position of
the first piece whose status is more than poison. -/
def State.writePieces (s : State) (site : Nat) (ps : List Piece) (data : List PByte) (narrow : Bool) : State × Nat × Nat :=
  ps.foldl (fun r p =>
    match p.place with
    | .vault v off =>
      let q := r.1.writeAs site v off (slice data p.pos p.len) narrow
      (q.1, worse r.2.1 q.2, if hardSt q.2 then Nat.min r.2.2 p.pos else r.2.2)
    | .remote _ _ => r) (s, stOk, 2 ^ 64)

/-- The pieces at other nodes. -/
def remotePieces (ps : List Piece) : List Piece :=
  ps.filter (fun p => match p.place with | .remote _ _ => true | .vault _ _ => false)

/-- The pieces of a transfer in one run, where they have no remote part. -/
def gathered (xs : List (Nat × List PByte)) : List PByte := xs.flatMap Prod.snd

/-- Sends READ packets for remote pieces, cut at a size of the target address (10 R392); the answers go to `dest` at
their positions. -/
def State.sendReads (s : State) (site engine job sz : Nat) (narrow : Bool) (dest : Nat → Dest) (ps : List Piece) :
    State × Nat :=
  (remotePieces ps).foldl (fun r p =>
    match p.place with
    | .vault _ _ => r
    | .remote vid off =>
      let cs := cutAt sz off p.len
      (cs.foldl (fun s c => s.request site engine job (dest (p.pos + (c.1 - off)))
        { Packet.blank with op := 0, narrow := narrow, aux := c.2, dst := vid * 2 ^ 32 + c.1 }) r.1, r.2 + cs.length))
    (s, 0)

/-- The parts of a transfer of n bytes to an offset that packets carry: cut at a size of the target address, and, where
the source's granules lie askew of the target's, at the source's granules too (10 R392, log entry 80). -/
def packetCuts (sz src off n : Nat) : List (Nat × Nat) :=
  if src % 64 = off % 64 then cutAt sz off n
  else (cutAt sz off n).flatMap (fun c => (cutAt 64 (src + (c.1 - off)) c.2).map (fun d => (off + (d.1 - src), d.2)))

/-- Sends WRITE packets for remote pieces, cut as `packetCuts` says for a source address; `pos` gives a part's position in
the order of the transfer from its position in the data. -/
def State.sendWritesAt (s : State) (site engine job sz src : Nat) (narrow : Bool) (pos : Nat → Nat) (data : List PByte)
    (ps : List Piece) : State × Nat :=
  (remotePieces ps).foldl (fun r p =>
    match p.place with
    | .vault _ _ => r
    | .remote vid off =>
      let cs := packetCuts sz (src + p.pos) off p.len
      (cs.foldl (fun s c => s.request site engine job (.part (pos (p.pos + (c.1 - off))))
        { Packet.blank with op := 1, narrow := narrow, length := c.2, dst := vid * 2 ^ 32 + c.1
                            payload := slice data (p.pos + (c.1 - off)) c.2 }) r.1, r.2 + cs.length))
    (s, 0)

/-- Sends WRITE packets for remote pieces (10 R392). -/
def State.sendWrites (s : State) (site engine job sz src : Nat) (narrow : Bool) (data : List PByte) (ps : List Piece) :
    State × Nat :=
  s.sendWritesAt site engine job sz src narrow id data ps

end Sys2Proof.Machine
end

