-- ==== Sys2Proof/Machine/CoreOps.lean ====
section
/-!
DEFINITION. The shared operations of the sequencer (chapter 02): the fields of an instruction word, the word at
CORE_PC, when a core may issue (R66, R87, R90), counting and loops (R77, R89), holds and what ends them (R80, R81, R88),
stopping (R91), and `issue`, through which every instruction runs.
-/
namespace Sys2Proof.Machine

/-! ## The instruction word -/

/-- op. -/
def iOp (w : Nat) : Nat := bits w 7 0
/-- engine. -/
def iEng (w : Nat) : Nat := bits w 11 8
/-- brk. -/
def iBrk (w : Nat) : Bool := bit w 12
/-- last-of-repeat. -/
def iLast (w : Nat) : Bool := bit w 13
/-- tag. -/
def iTag (w : Nat) : Nat := bits w 31 16
/-- Is the word a REPEAT or REPEAT.IND? -/
def iRepeat (w : Nat) : Bool := iEng w == 0 && (iOp w == 5 || iOp w == 6)

/-- CORE_PC of a site. -/
def State.pc (s : State) (i : Nat) : Nat := s.getF (Reg.corePc_pc i)
/-- CORE_STREAM_BASE. -/
def State.streamBase (s : State) (i : Nat) : Nat := s.getF (Reg.coreStreamBase_base i) * 128
/-- CORE_STREAM_LEN. -/
def State.streamLen (s : State) (i : Nat) : Nat := s.getF (Reg.coreStreamLen_len i) * 16
/-- Just past the stream. -/
def State.streamEnd (s : State) (i : Nat) : Nat := s.streamBase i + s.streamLen i

/-- What the sequencer finds at a stream address. -/
inductive Fetched where
  /-- A word. -/
  | word (w : BitVec 128)
  /-- A line that carries poison (02 R63). -/
  | poison
  /-- A line that is not resident. -/
  | missing
  deriving DecidableEq, Repr

/-- The word at an address: from the loop buffer, else from the instruction cache (02 R61, R79). -/
def Core.wordAt (c : Core) (a : Nat) : Fetched :=
  match SMap.find c.loopBuf a with
  | some w => .word w
  | none =>
    match SMap.find c.icache (a / 128) with
    | none => .missing
    | some l => if l.poison then .poison else .word (l.words.getD (a % 128 / 16) 0)

/-! ## When a core issues -/

/-- The logic block of a site: 3 rows by 6 columns (13 R477). -/
def blockOf (i : Nat) : Nat := i % 576 / 24 / 3 * 4 + i % 24 / 6

/-- The duty in sixteenths, in the gate period that runs, of a class in a block of a tower: 8 and 4 at reset
(13 R487, R509). -/
def State.gate (s : State) (t b : Nat) (be : Bool) : Nat :=
  SMap.get (fun k => if k % 2 = 1 then 4 else 8) s.gates ((32 * t + b) * 2 + b2n be)

/-- The duty of a core: that of its channel's class (13 R487). -/
def State.duty (s : State) (i : Nat) : Nat :=
  s.gate (towerOf i) (blockOf i) (match chanOfSite s.chans i with
    | some k => (s.chan k).bestEffort
    | none => false)

/-- Is the issue gate of a core open (13 R487, R489, 16 R584)? A block reset of the core stops its issue (14 R519). -/
def State.gateOpen (s : State) (i : Nat) : Bool :=
  decide (s.now % 1000 * 16 < s.duty i * 1000) && s.getF (Reg.ptmTState_level (towerOf i)) != 3 && !s.wedged &&
    !s.blockOn i 0

/-- Does a breakpoint match the instruction at CORE_PC (02 R90)? -/
def State.breakHit (s : State) (i w : Nat) : Bool :=
  (s.on (Reg.coreCtrl_count_brk_enable i) && s.getF (Reg.coreRetired_count i) == s.getF (Reg.coreBrkCount_count i)) ||
  (s.on (Reg.coreCtrl_tag_brk_enable i) &&
    Nat.land (iTag w) (s.getF (Reg.coreBrkTag_mask i)) ==
      Nat.land (s.getF (Reg.coreBrkTag_tag i)) (s.getF (Reg.coreBrkTag_mask i))) ||
  (s.on (Reg.coreCtrl_brk_bit_enable i) && iBrk w)

/-- Has the channel of a core faulted, so that the core issues nothing further (02 R91)? -/
def State.chanFaulted (s : State) (i : Nat) : Bool :=
  match chanOfSite s.chans i with
  | some k => (s.chan k).st == .faulted
  | none => false

/-- Has CORE_PC reached the end of the stream (02 R64)? -/
def State.atEnd (s : State) (i : Nat) : Bool := (s.core i).pastEnd || decide (s.streamEnd i ≤ s.pc i)

/-- Stands the core at an instruction it could issue but for a breakpoint: running, not held, its channel not faulted,
gate open, the word at CORE_PC inside the stream? -/
def State.atWord (s : State) (i : Nat) (w : BitVec 128) : Bool :=
  let c := s.core i
  s.coreOn i && s.coreState i == csRunning && c.hold == .none && !s.chanFaulted i && s.gateOpen i && !s.atEnd i &&
    c.wordAt (s.pc i) == .word w

/-- May a core issue this word now (02 R66, R90)? -/
def State.canIssue (s : State) (i : Nat) (w : BitVec 128) : Bool :=
  s.atWord i w && ((s.core i).noBreak || !s.breakHit i w.toNat)

/-! ## Trace (17 R598 to R602) -/

/-- Does the trace unit record an event of this tick? -/
def State.traceOn (s : State) : Bool :=
  s.on Reg.dbgTraceCtrl_enable && !s.dbg.stopped && decide (s.getF Reg.dbgTraceStart_start ≤ s.now) &&
    (s.getF Reg.dbgTraceEnd_stop == 0 || decide (s.now < s.getF Reg.dbgTraceEnd_stop))

/-- An event on its way to the trace store. -/
def State.tracePut (s : State) (r : TraceRec) : State := { s with dbg := { s.dbg with incoming := s.dbg.incoming ++ [r] } }

/-- Bytes 12 to 15 of a record. -/
def traceTail (site ty st op : Nat) : List Byte := toLE 4 (site + ty * 2 ^ 12 + st * 2 ^ 16 + op * 2 ^ 24)

/-- The instruction record of a completed instruction of a traced core (17 R600, R601). -/
def State.traceIns (s : State) (i eng op itag st issued : Nat) : State :=
  if s.traceOn && s.on Reg.dbgTraceCtrl_instr_en &&
      (List.range 8).any (fun k => s.on (Reg.dbgTraceSite_valid k) && s.getF (Reg.dbgTraceSite_site k) == i) then
    s.tracePut (toLE 4 s.now ++ toLE 4 issued ++ toLE 2 itag ++ toLE 1 op ++ toLE 1 eng ++ traceTail i 0 st 0)
  else s

/-- The routing record of a TSEND or POPA of the traced channel (17 R600, R601). What an instruction that failed early
never learned of its bundle is not stated: free values. -/
def State.traceRoute (s : State) (i eng op st : Nat) (route : Option (Nat × Nat × Nat)) : State :=
  if s.traceOn && s.on Reg.dbgTraceCtrl_route_en && (eng == 5 && op == 0x10 || eng == 7 && op == 2) &&
      chanOfSite s.chans i == some (s.getF Reg.dbgTraceCtrl_chan) then
    match route with
    | some r => s.tracePut (toLE 4 s.now ++ toLE 4 r.1 ++ toLE 2 r.2.1 ++ toLE 2 r.2.2 ++ traceTail i 1 st op)
    | none => (s.bump 1).tracePut (toLE 4 s.now ++ toLE 8 (Config.freeWord s.fresh).toNat ++ traceTail i 1 st op)
  else s

/-- An instruction has completed: its records. -/
def State.traced (s : State) (i eng op itag st issued : Nat) (route : Option (Nat × Nat × Nat)) : State :=
  (s.traceIns i eng op itag st issued).traceRoute i eng op st route

/-- The instruction at CORE_PC, which has not been counted yet, completes with a status. -/
def State.tracedHere (s : State) (i : Nat) (w : BitVec 128) (st : Nat) : State :=
  s.traced i (iEng w.toNat) (iOp w.toNat) (iTag w.toNat) st (s.getF (Reg.coreRetired_count i)) none

/-- The jobs an instruction has begun bear CORE_RETIRED as it issued. -/
def State.stampJobs (s : State) (i before issued : Nat) : State :=
  { s with jobs := s.jobs.map (fun j => if j.site = i ∧ before ≤ j.id then { j with issued := issued } else j) }

/-- Has the site a job begun since? -/
def State.begun (s : State) (i before : Nat) : Bool := s.jobs.any (fun j => j.site == i && decide (before ≤ j.id))

/-! ## Counting and loops -/

/-- Ends a debug step (17 R593, R594). -/
def State.endStep (s : State) (i : Nat) : State :=
  let s := s.setCore i { s.core i with stepsLeft := 0 }
  if s.dbg.stepSite = some i then { s with dbg := { s.dbg with stepSite := none } } else s

/-- Withdraws what holds the sequencer: the watches of an armed WAIT, here or at its node (02 R91, 10 R394). -/
def State.withdraw (s : State) (i : Nat) : State :=
  let c := s.core i
  let s := (s.setCore i { c with hold := .none, waits := [] }).dropTables i 0
  match c.hold with
  | .wait x =>
    let s := (s.dropWatches i).setF (Reg.coreStatus_wait_armed i) 0
    if x.remote then s.request i 0 0 .none { Packet.blank with op := 4, dst := x.vid * 2 ^ 32 + x.off } else s
  | .none => s
  | .fence _ => s
  | .end_ => s

/-- Stops a core on a status (02 R91): it records status, engine, tag and address, becomes FAULTED, withdraws an armed
WAIT and faults its channel. -/
def State.stopCore (s : State) (i st engine itag space addr : Nat) : State :=
  let s := (s.withdraw i).endStep i
  let s := s.setF (Reg.coreStatus_state i) csFaulted
  let s := s.setF (Reg.coreStatus_last_status i) st
  let s := s.setF (Reg.coreFaultStatus_status i) st
  let s := s.setF (Reg.coreFaultStatus_engine i) engine
  let s := s.setF (Reg.coreFaultStatus_tag i) itag
  let s := s.setF (Reg.coreFaultAddr_addr i) addr
  let s := s.setF (Reg.coreFaultInfo_space i) space
  s.faultChannel i st engine itag addr

/-- What the core does with the status of an instruction (02 R70). A core that has already stopped keeps its first
record. -/
def State.settle (s : State) (i engine itag : Nat) (d : Done) : State :=
  if d.st = stOk then s
  else if isSoft d.st && !d.stop then s.softErr i d.st engine
  else if d.st = stPoisoned && !d.stop then s
  else if s.coreState i = csFaulted then s
  else s.stopCore i d.st engine itag d.space d.addr

/-- Fetch of the next instruction from a poisoned line stops the core (02 R63). -/
def State.checkLine (s : State) (i : Nat) : State :=
  if s.coreState i = csRunning && !(s.core i).pastEnd && (s.core i).wordAt (s.pc i) = .poison then
    s.stopCore i stPoisoned 0 0 spGround (s.pc i / 128 * 128)
  else s

/-- Counts an instruction that leaves the sequencer and steps a debug step (02 R89, 17 R593). -/
def State.retire (s : State) (i : Nat) : State :=
  let s := s.incWrap (Reg.coreRetired_count i) 1
  let c := s.core i
  let s := s.setCore i { c with noBreak := false, stepsLeft := c.stepsLeft - 1 }
  if c.stepsLeft = 1 then (s.endStep i).setF (Reg.coreStatus_state i) csBreak else s

/-- CORE_PC set; an address past the vault wraps in the register and is remembered as past the end (02 R64). -/
def State.setPc (s : State) (i a : Nat) : State :=
  (s.setCore i { s.core i with pastEnd := decide (vaultSize ≤ a) }).setF (Reg.corePc_pc i) a

/-- The loop buffer captures an instruction of an open body as it issues on the first pass (02 R79). -/
def State.capture (s : State) (i : Nat) (w : BitVec 128) : State :=
  let c := s.core i
  if c.frames.isEmpty || (SMap.find c.loopBuf (s.pc i)).isSome then s
  else s.setCore i { c with loopBuf := SMap.insert (s.pc i) w c.loopBuf }

/-- Moves past an instruction that opens no body, a refused REPEAT among them: a last-of-repeat closes the innermost
open body (02 R77). -/
def State.stepPc (s : State) (i : Nat) (last : Bool) : State :=
  let c := s.core i
  let a := s.pc i + 16
  match c.frames with
  | [] => s.setPc i a
  | f :: fs =>
    if !last then s.setPc i a
    else if f.iter + 1 < f.count then (s.setCore i { c with frames := { f with iter := f.iter + 1 } :: fs }).setPc i f.body
    else (s.setCore i { c with frames := fs, loopBuf := if fs.isEmpty then [] else c.loopBuf }).setPc i a

/-- An instruction leaves the sequencer: it is counted, CORE_PC moves on, and a poisoned next line stops the core. -/
def State.advance (s : State) (i : Nat) (w : BitVec 128) : State :=
  (((s.capture i w).stepPc i (iLast w.toNat)).retire i).checkLine i

/-! ## Holds and the SYN queue -/

/-- Are instructions of the masked engines outstanding? The SYN queue's are of engine 0. -/
def State.engBusy (s : State) (i mask : Nat) : Bool :=
  s.busyJobs i mask || (bit mask 0 && !(s.core i).synq.isEmpty)

/-- Did an instruction issue before another, by CORE_RETIRED as they issued, which wraps at 48 bits (02 R89)? -/
def issuedBefore (a b : Nat) : Bool :=
  let d := (b + 2 ^ 48 - a) % 2 ^ 48
  decide (1 ≤ d) && decide (d < 2 ^ 47)

/-- Performs a SIGNAL whose mask is satisfied (02 R81, 10 R393). -/
def State.doSignal (s : State) (i : Nat) (g : SynIns) (addr space value : Nat) (add : Bool) : Option State :=
  let x := s.resolve i ⟨space, addr, addr⟩ 8 true
  let d := fun (s : State) (st : Nat) =>
    (s.traced i 0 3 g.itag st g.issued none).settle i 0 g.itag (.at_ st space addr)
  if x.st != stOk then some (d x.s x.st)
  else if !x.ready || (add && !x.pieces.all (s.atomicReady (towerOf i))) then none
  else
    let v := clean (toLE 8 value)
    match x.pieces with
    | ⟨.vault vt off, _, _⟩ :: _ =>
      if add then
        let r := x.s.atomicAs i vt off 0 true v []
        some (d r.1 r.2.2)
      else
        let r := x.s.writeAs i vt off v true
        some (d r.1 r.2)
    | ⟨.remote vid off, _, _⟩ :: _ =>
      let s := x.s
      let id := s.newJob
      let s := s.addJob { Job.start id i 0 3 g.itag with left := 1, issued := g.issued, addr := addr, space := space }
      some (s.request i 0 id .none { Packet.blank with
        op := if add then 2 else 1, aop := if add then 16 else 0, length := 8, narrow := true
        dst := vid * 2 ^ 32 + off, payload := v })
    | [] => some x.s

/-- Are instructions of the masked engines that issued before another outstanding (02 R81)? -/
def State.earlierBusy (s : State) (i mask issued : Nat) : Bool :=
  s.jobs.any (fun j => j.site == i && bit mask j.engine && issuedBefore j.issued issued)

/-- The SYN queue as an agent that reads tables: past the engines' keys. -/
def synKey : Nat := 8

/-- Performs the instruction at the head of the SYN queue, if it need wait for nothing more (02 R81, R93, 12 R469). -/
def State.synHead (s : State) (i : Nat) : Tried Unit :=
  match (s.core i).synq with
  | [] => .waits s
  | g :: gs =>
    let t := s.setCore i { s.core i with synq := gs }
    match g.kind with
    | .signal mask addr space add value =>
      if s.earlierBusy i mask g.issued then .waits s
      else
        let go := fun (s : State) => ((s.setCore i { s.core i with synq := gs }).doSignal i g addr.toNat space value add).map
          (fun r => (r, ()))
        match s.lookUp i synKey 0 go with
        | .waits s' => .waits (s'.waitFor i (s.heldBanks i go go))
        | .done s' _ => .done s' ()
    | .tick a => .done ((t.writeScratch i a (clean (toLE 8 s.now))).traced i 0 0xC g.itag stOk g.issued none) ()
    | .notify v => .done ((t.coreEvent i 2 stOk 0 g.itag v 0).traced i 0 0xD g.itag stOk g.issued none) ()

/-- Performs the instructions at the head of the SYN queue that need wait for nothing more (02 R81, R93). -/
def State.runSyn (s : State) (i : Nat) : Nat → State
  | 0 => s
  | k + 1 =>
    match s.synHead i with
    | .done s' _ => s'.runSyn i k
    | .waits s' => s'

/-- Entries of the SYN queue (02 R67). -/
def synDepth : Nat := 4

/-- STREAM_DONE of a core's channel (02 R88, 12 R456). -/
def State.streamDone (s : State) (i st : Nat) : State := s.coreEvent i 1 st 0 0 0 0

/-- Lets a core go on where what it waited for has ended: the SYN queue, a FENCE, an END, an ABORT's drain
(02 R80, R81, R88, 12 R456). -/
def State.wake (s : State) (i : Nat) : State :=
  let s := s.runSyn i synDepth
  let c := s.core i
  let quiet := !s.engBusy i 255
  match c.hold with
  | .fence m => if s.engBusy i m then s else ((s.setCore i { c with hold := .none }).tracedHere i c.cur stOk).advance i c.cur
  | .end_ =>
    if quiet then
      let s := s.traced i 0 1 (iTag c.cur.toNat) stOk (s.getF (Reg.coreRetired_count i) - 1) none
      ((s.setCore i { c with hold := .none }).setF (Reg.coreStatus_state i) csIdle).streamDone i stOk
    else s
  | .wait _ => s
  | .none =>
    if s.coreState i = csDraining && quiet && !s.on (Reg.skyStatus_resetting (towerOf i)) then
      (s.setF (Reg.coreStatus_state i) csIdle).streamDone i stStreamAborted
    else s

/-- MXA_LAST, KVX_LAST and SQ_LAST of a completed instruction (03 R140, 08 R324, 09 R358). -/
def State.queuedLast (s : State) (i eng st itag op : Nat) : State :=
  if eng = 2 then (s.setF (Reg.mxaLast_status i) st).setF (Reg.mxaLast_tag i) itag
  else if eng = 6 then ((s.setF (Reg.kvxLast_status i) st).setF (Reg.kvxLast_tag i) itag).setF (Reg.kvxLast_op i) op
  else if eng = 7 then ((s.setF (Reg.sqLast_status i) st).setF (Reg.sqLast_tag i) itag).setF (Reg.sqLast_op i) op
  else s

/-- Ends one outstanding instruction: its status is settled and its core goes on. -/
def State.endJob (s : State) (j : Job) (st : Nat) (halt : Bool) : State :=
  let s := { s with jobs := s.jobs.filter (fun x => x.id != j.id) }
  let s := s.queuedLast j.site j.engine st j.itag j.op
  let s := s.traced j.site j.engine j.op j.itag st j.issued j.route
  let s := s.settle j.site j.engine j.itag ⟨st, j.space, j.addr, halt, none⟩
  s.wake j.site

/-! ## Issue -/

/-- What an instruction does as it issues: nothing yet (it cannot issue), or a state and how it completed. -/
abbrev Act := State → Option (State × Done)

/-- BKU_LAST of a completed command (07 R279). -/
def State.bkuLast (s : State) (i st itag op : Nat) : State :=
  ((s.setF (Reg.bkuLast_status i) st).setF (Reg.bkuLast_tag i) itag).setF (Reg.bkuLast_op i) op

/-- TLE_LAST of a completed instruction (05 R207), and MXA_LAST, BKU_LAST, KVX_LAST and SQ_LAST of one that completes as
it starts (03 R140, 08 R324); `begun` says that it is still outstanding. -/
def State.lastOf (s : State) (i eng n st : Nat) (begun : Bool) : State :=
  if eng = 3 then
    let s := ((s.setF (Reg.tleLast_status i) st).setF (Reg.tleLast_tag i) (iTag n)).setF (Reg.tleLast_op i) (iOp n)
    if st = stPoisoned then s.setF (Reg.tleStatus_poison i) 1 else s
  else if eng = 4 ∧ st ≠ stOk then s.bkuLast i st (iTag n) (iOp n)
  else if begun || ((eng == 7 || eng == 2) && st == stOk) then s
  else s.queuedLast i eng st (iTag n) (iOp n)

/-! ### The scoreboard -/

/-- The scratchpad range that an instruction in the SYN queue will write. -/
def SynIns.dests (g : SynIns) : List (Nat × Nat) :=
  match g.kind with
  | .tick a => [(a, 8)]
  | .signal _ _ _ _ _ => []
  | .notify _ => []

/-- The scratchpad ranges that outstanding instructions of a core still write (02 R68). -/
def State.pendingDests (s : State) (i : Nat) : List (Nat × Nat) :=
  (s.core i).synq.flatMap SynIns.dests ++ (s.jobs.filter (fun j => j.site == i)).flatMap Job.dests

/-- Entries of the scoreboard (02 R68). -/
def boardSize : Nat := 64

/-- The tile registers that outstanding instructions of a core still write (02 R68). -/
def State.pendingTiles (s : State) (i : Nat) : List Nat := (s.jobs.filter (fun j => j.site == i)).flatMap Job.tiles

/-- Does an earlier instruction still write one of these tile registers (02 R66)? -/
def State.tilesBusy (s : State) (i : Nat) (ts : List Nat) : Bool := (s.pendingTiles i).any ts.contains

/-- Is no entry of a core's scoreboard free (02 R66, R68)? An outstanding instruction that still writes the scratchpad or
a tile register holds one. -/
def State.boardFull (s : State) (i : Nat) : Bool :=
  decide (boardSize ≤ ((s.core i).synq.filter (fun g => !g.dests.isEmpty)).length +
    (s.jobs.filter (fun j => j.site == i && (!j.dests.isEmpty || !j.tiles.isEmpty))).length)

/-- Does an instruction write the scratchpad or a tile register by its engine and opcode alone (02 R66)? BKD, FMV, KVX
and SQ instructions show it by their jobs. -/
def takesEntry (n : Nat) : Bool :=
  let op := iOp n
  match iEng n with
  | 0 => op == 0xC
  | 1 => op == 0 || op == 3 || op == 5 || op == 7 || op == 8
  | 2 => bit n 83
  | 3 => !(op == 3 || op == 0x40 || op == 0x41 || op == 0x42 || op == 0x43)
  | 6 => op == 4 || op == 5 || op == 6 || op == 7
  | _ => false

/-- The memory that outstanding instructions of an engine of a core still write (01 R54). -/
def State.pendingMem (s : State) (i eng : Nat) : List (Nat × Nat × Nat) :=
  (s.jobs.filter (fun j => j.site == i && j.engine == eng)).flatMap Job.mem

/-- Do two ranges meet at 64 B granularity (02 R68)? -/
def rangesMeet (a b : Nat × Nat) : Bool :=
  a.2 != 0 && b.2 != 0 && decide (a.1 / 64 ≤ (b.1 + b.2 - 1) / 64 ∧ b.1 / 64 ≤ (a.1 + a.2 - 1) / 64)

/-- Does a scratchpad range meet an outstanding write (02 R66)? -/
def State.scratchBusy (s : State) (i a n : Nat) : Bool := (s.pendingDests i).any (fun d => rangesMeet d (a, n))

/-- Do two ranges of memory share a granule (01 R51)? -/
def memMeets (a b : Nat × Nat × Nat) : Bool := a.1 == b.1 && rangesMeet a.2 b.2

/-- An instruction's effect unless it must wait: the scoreboard has no free entry for what it will write; a range that it
reads or writes, now or later, meets one that an earlier instruction still writes (02 R66); or it accesses a granule that
an earlier instruction of its engine still writes (01 R54, 02 R100). -/
def State.guarded (s : State) (i eng : Nat) (act : Act) : Option (State × Done) :=
  let old := s.pendingDests i
  let mem := s.pendingMem i eng
  let full := s.boardFull i
  if old.isEmpty && mem.isEmpty && !full then act s
  else
    match act (s.setCore i { s.core i with touch := some [], touchMem := some [] }) with
    | none => none
    | some r =>
      let c := r.1.core i
      let new_ := r.1.jobs.filter (fun j => j.site == i && decide (s.newJob ≤ j.id))
      let mine := new_.flatMap Job.dests
      if full && !mine.isEmpty || ((c.touch.getD []) ++ mine).any (fun a => old.any (fun d => rangesMeet d a)) ||
          ((c.touchMem.getD []) ++ new_.flatMap Job.mem).any (fun a => mem.any (fun d => memMeets d a)) then none
      else some (r.1.setCore i { c with touch := none, touchMem := none }, r.2)

/-- Entries of the KVX queue (02 R67). -/
def kvxDepth : Nat := 8

/-- Is an engine's queue full (02 R67)? A MOV, FMV or SQ instruction keeps its entry until it completes; a KVX instruction
leaves the queue as it starts (08 R296, R324). -/
def State.engFull (s : State) (i eng : Nat) : Bool :=
  (eng == 1 || eng == 5 || eng == 7) && decide (16 ≤ (s.jobs.filter (fun j => j.site == i && j.engine == eng)).length) ||
    eng == 6 && decide (kvxDepth ≤ (s.core i).kvq.length)

/-- Does an opcode need the bank-unit licence, and is it absent (00 R6, 07 R264, 08 R293)? -/
def State.unlicensed (s : State) (eng op : Nat) : Bool :=
  (eng == 4 && (op == 2 || op == 8 || op == 9 || op == 0xA) || eng == 6 && (op == 1 || op == 2)) && !s.licensed licBku

/-- Issues the word at CORE_PC if it is this word, of this engine and opcode: its effect, its count, CORE_PC, its
status (02 R66, R70, R89). An opcode without its licence is refused for that first (07 R264, 08 R293); bits [15:14] are reserved (R21). Otherwise nothing
happens. -/
def State.issue (s : State) (i : Nat) (w : BitVec 128) (eng : Nat) (ops : List Nat) (act : Act) : State :=
  let n := w.toNat
  if !s.canIssue i w || iEng n != eng || !ops.contains (iOp n) || s.engFull i eng ||
      (takesEntry n && s.boardFull i) then s
  else
    let run := fun (s : State) =>
      if s.unlicensed eng (iOp n) then some (s, Done.of stLicenceAbsent)
      else if bits n 15 14 != 0 then some (s, Done.of stBadParam) else s.guarded i eng act
    match s.lookUp i eng eng run with
    | .waits s' => s'.setWaits i (s.heldBanks i run act)
    | .done s' d =>
      let s' := s'.setWaits i []
      let k := s.getF (Reg.coreRetired_count i)
      let begun := s'.begun i s.newJob
      let s' := (s'.lastOf i eng n d.st begun).stampJobs i s.newJob k
      let later := begun || ((eng == 7 || (eng == 0 && [1, 3, 0xC, 0xD].contains (iOp n))) && d.st == stOk)
      let s' := if later then s' else s'.traced i eng (iOp n) (iTag n) d.st k d.route
      ((s'.advance i w).settle i eng (iTag n) d).wake i

/-- An instruction that is refused for a field, with no side effect (00 R21). -/
def refuse (s : State) (st : Nat) : Option (State × Done) := some (s, Done.of st)

/-- An instruction that completes. -/
def complete (s : State) (st : Nat) : Option (State × Done) := some (s, Done.of st)

/-- The effect of an instruction as it issues where its engine is free and it can start, else its entry in the engine's
queue (02 R66, R67). -/
def State.startOr (s : State) (free : Bool) (act : Act) (queued : State) : Option (State × Done) :=
  if !free then complete queued stOk
  else
    match act s with
    | none => complete queued stOk
    | some r => if r.1.wanted.isEmpty then some r else complete queued stOk

end Sys2Proof.Machine
end

