-- ==== Sys2Proof/Machine/Syn.lean ====
section
/-!
DEFINITION. The SYN instructions (chapter 02, R76 to R95) and the reserved opcodes (00 R19).
-/
namespace Sys2Proof.Machine

/-- Are the operand bits outside the listed fields 0 (00 R21, 02 R94)? -/
def rsvOk (n : Nat) (fields : List (Nat × Nat)) : Bool :=
  fields.foldl (fun x f => setBits x f.1 f.2 0) (bits n 127 32 * 2 ^ 32) == 0

/-- A signed field of a word. -/
def sbits (n hi lo : Nat) : Int := sext (hi + 1 - lo) (bits n hi lo)

/-! ## NOP, END, FENCE, SIGNAL, NOTIFY, TICK -/

/-- Nothing, if its reserved bits are 0. -/
def plainAct (n : Nat) (fields : List (Nat × Nat)) (f : State → State) : Act := fun s =>
  if rsvOk n fields then some (f s, Done.of stOk) else refuse s stBadParam

/-- NOP (02 R93). -/
def execNop (i : Site) (w : BitVec 128) (s : State) : Host.Outcome State Fault Refusal :=
  next (s.issue i w 0 [0] (plainAct w.toNat [] id))

/-- END (02 R78, R88): inside a body it does nothing; else it enters the SYN queue and holds the sequencer until all is
complete. -/
def execEndStream (i : Site) (w : BitVec 128) (s : State) : Host.Outcome State Fault Refusal :=
  next (s.issue i w 0 [1] (fun s =>
    let c := s.core i
    if !rsvOk w.toNat [] || !c.frames.isEmpty then refuse s stBadParam
    else if synDepth ≤ c.synq.length then none
    else complete (s.setCore i { c with hold := .end_, cur := w }) stOk))

/-- Puts a hold on the sequencer: the instruction at CORE_PC stays there until the hold ends. -/
def State.holdAt (s : State) (i : Nat) (w : BitVec 128) (h : Hold) : State :=
  s.setCore i { s.core i with hold := h, cur := w }

/-- FENCE (02 R80); a mask of 0 means all eight engines. -/
def fenceMask (n : Nat) : Nat := if bits n 39 32 = 0 then 255 else bits n 39 32

/-- FENCE. -/
def execFence (i : Site) (w : BitVec 128) (s : State) : Host.Outcome State Fault Refusal :=
  let m := fenceMask w.toNat
  if s.canIssue i w && iEng w.toNat == 0 && iOp w.toNat == 2 && bits w.toNat 15 14 == 0 &&
      rsvOk w.toNat [(39, 32)] && s.engBusy i m then
    next (s.holdAt i w (.fence m))
  else next (s.issue i w 0 [2] (plainAct w.toNat [(39, 32)] id))

/-- A flag address that R95 refuses: in the scratchpad, or not 8 B aligned. -/
def badFlag (o : Opnd) : Bool := o.space == spScratch || o.ea % 8 != 0

/-- Puts an instruction into the SYN queue, if it has a free entry (02 R66, R67, R93). -/
def synEnter (i itag : Nat) (k : SynKind) : Act := fun s =>
  let c := s.core i
  if synDepth ≤ c.synq.length then none
  else complete (s.setCore i { c with
    synq := c.synq ++ [⟨k, itag, s.getF (Reg.coreRetired_count i)⟩] }) stOk

/-- SIGNAL (02 R81, R95): its address is checked as it issues; it then waits in the SYN queue. -/
def execSignal (i : Site) (w : BitVec 128) (s : State) : Host.Outcome State Fault Refusal :=
  next (s.issue i w 0 [3] (fun s =>
    let n := w.toNat
    let c := s.core i
    let o := c.opnd (bits n 35 32) (sbits n 59 36)
    if !rsvOk n [(35, 32), (59, 36), (61, 60), (95, 64), (103, 96)] || decide (2 ≤ bits n 61 60) || badFlag o then
      refuse s stBadParam
    else
      let x := s.resolve i o 8 true
      if x.st != stOk then some (x.s, Done.at_ x.st o.space o.ea)
      else
        let m := if bits n 103 96 = 0 then 254 else bits n 103 96
        synEnter i (iTag n) (.signal m (BitVec.ofNat 64 o.ea) o.space (bits n 61 60 == 1) (bits n 95 64)) x.s))

/-- TICK (02 R93): in the SYN queue, the time tick to an 8 B aligned scratchpad address. -/
def execTick (i : Site) (w : BitVec 128) (s : State) : Host.Outcome State Fault Refusal :=
  next (s.issue i w 0 [0xC] (fun s =>
    let n := w.toNat
    let c := s.core i
    let o := c.opnd (bits n 35 32) (sbits n 59 36)
    if !rsvOk n [(35, 32), (59, 36)] || !o.inScratch 8 || o.ea % 8 != 0 then refuse s stBadParam
    else synEnter i (iTag n) (.tick o.ea) (s.touched i o.ea 8)))

/-- NOTIFY (02 R93, 12 R469): in the SYN queue, an event with the value to the channel's event ring. -/
def execNotify (i : Site) (w : BitVec 128) (s : State) : Host.Outcome State Fault Refusal :=
  next (s.issue i w 0 [0xD] (fun s =>
    let n := w.toNat
    if !rsvOk n [(63, 32)] then refuse s stBadParam
    else synEnter i (iTag n) (.notify (bits n 63 32)) s))

/-! ## Address generators -/

/-- Replaces a generator. -/
def State.setAg (s : State) (i g : Nat) (a : Ag) : State :=
  let c := s.core i
  s.setCore i { c with ags := SMap.put (fun _ => Ag.zero) g a c.ags }

/-- AGSET.BASE (02 R93). -/
def execAgsetBase (i : Site) (w : BitVec 128) (s : State) : Host.Outcome State Fault Refusal :=
  next (s.issue i w 0 [8] (plainAct w.toNat [(35, 32), (37, 36), (127, 64)] (fun s =>
    let n := w.toNat
    let g := bits n 35 32
    s.setAg i g { (s.core i).ag g with base := BitVec.ofNat 64 (bits n 127 64), space := BitVec.ofNat 2 (bits n 37 36) })))

/-- AGSET.STRIDE (02 R93); depth 3 is refused (R95). -/
def execAgsetStride (i : Site) (w : BitVec 128) (s : State) : Host.Outcome State Fault Refusal :=
  next (s.issue i w 0 [9] (fun s =>
    let n := w.toNat
    let g := bits n 35 32
    let a := (s.core i).ag g
    let v := BitVec.ofNat 32 (bits n 95 64)
    if !rsvOk n [(35, 32), (37, 36), (95, 64)] || bits n 37 36 == 3 then refuse s stBadParam
    else
      let a := match bits n 37 36 with
        | 0 => { a with s0 := v }
        | 1 => { a with s1 := v }
        | _ => { a with s2 := v }
      complete (s.setAg i g a) stOk))

/-- AGADD (02 R93): adds a signed 32-bit value to the base, wrapping (R73). -/
def execAgadd (i : Site) (w : BitVec 128) (s : State) : Host.Outcome State Fault Refusal :=
  next (s.issue i w 0 [0xA] (plainAct w.toNat [(35, 32), (95, 64)] (fun s =>
    let n := w.toNat
    let g := bits n 35 32
    let a := (s.core i).ag g
    s.setAg i g { a with base := BitVec.ofNat 64 (wrap 64 ((a.base.toNat : Int) + sbits n 95 64)) })))

/-! ## REPEAT -/

/-- What the look-ahead from a REPEAT finds (02 R76, R78): the address of the closing instruction with the words of the
body, no closing instruction, a poisoned line, or the address of a word not yet resident. -/
inductive Look where
  | closes (a : Nat)
  | never
  | poison (a : Nat)
  | wait (a : Nat)
  deriving DecidableEq, Repr

/-- Would this REPEAT open a body at a nesting level, by its own fields (02 R77, R78)? -/
def opensBody (level : Nat) (n : Nat) : Bool :=
  decide (level < 3) && bits n 15 14 == 0 &&
  (if iOp n == 5 then rsvOk n [(47, 32)] else rsvOk n [(51, 32)] && bits n 51 32 % 4 == 0)

/-- Looks for the closing instruction of a body; `nest` counts the bodies open around the one looked for and `level`
those open inside it, itself included. -/
def Core.look (c : Core) (stop nest : Nat) : Nat → Nat → Nat → Look
  | 0, _, _ => .never
  | k + 1, a, level =>
    if stop ≤ a then .never
    else
      match c.wordAt a with
      | .missing => .wait a
      | .poison => .poison a
      | .word w =>
        if iRepeat w.toNat && opensBody (nest + level) w.toNat then c.look stop nest k (a + 16) (level + 1)
        else if iLast w.toNat then
          if level = 1 then .closes a else c.look stop nest k (a + 16) (level - 1)
        else c.look stop nest k (a + 16) level

/-- The look-ahead of the REPEAT at CORE_PC: at most 64 instructions after the outermost REPEAT (02 R76), within the
stream. -/
def State.lookBody (s : State) (i : Nat) : Look :=
  let c := s.core i
  let a := s.pc i + 16
  let first := (c.frames.getLast?.map LoopFrame.body).getD a
  c.look (Nat.min (first + 64 * 16) (s.streamEnd i)) c.frames.length 64 a 1

/-- The line that the look-ahead of a REPEAT at CORE_PC next needs (02 R76, R78). -/
def State.scanLine (s : State) (i : Nat) : Option Nat :=
  match (s.core i).wordAt (s.pc i) with
  | .word w =>
    if iRepeat w.toNat then
      match s.lookBody i with
      | .wait a => some (a / 128)
      | .closes _ => none
      | .never => none
      | .poison _ => none
    else none
  | .poison => none
  | .missing => none

/-- Opens a body of at least one pass (02 R76): a REPEAT inside a body is itself captured (R79). -/
def State.openBody (s : State) (i count : Nat) (w : BitVec 128) : State :=
  let s := s.capture i w
  let c := s.core i
  let a := s.pc i + 16
  ((s.setCore i { c with
      frames := ⟨a, count, 0⟩ :: c.frames
      loopBuf := if c.frames.isEmpty then [] else c.loopBuf }).setPc i a).retire i

/-- What a REPEAT does once its count is known (02 R78): `bad` is the status of a count that skips the body. A poisoned
line that the look-ahead meets stops the core at the REPEAT (log entry 77). -/
def State.repeatBody (s : State) (i : Nat) (w : BitVec 128) (count : Nat) (bad : Nat) : State :=
  let soft := fun (s : State) => s.settle i 0 (iTag w.toNat) (Done.of stBadParam)
  if 3 ≤ (s.core i).frames.length then soft ((s.tracedHere i w stBadParam).advance i w)
  else
    match s.lookBody i with
    | .wait _ => s
    | .poison a => s.stopCore i stPoisoned 0 (iTag w.toNat) spGround (a / 128 * 128)
    | .never => soft ((s.tracedHere i w stBadParam).advance i w)
    | .closes a =>
      let s := s.tracedHere i w bad
      if count = 0 ∨ bad != stOk then
        ((((s.capture i w).setPc i (a + 16)).retire i).checkLine i).settle i 0 (iTag w.toNat) (Done.of bad)
      else (s.openBody i count w).checkLine i

/-- May the REPEAT at CORE_PC issue? -/
def State.atRepeat (s : State) (i : Nat) (w : BitVec 128) (op : Nat) : Bool :=
  s.canIssue i w && iEng w.toNat == 0 && iOp w.toNat == op

/-- A REPEAT that R21 or R94 refuses opens no body (02 R77). -/
def State.refuseRepeat (s : State) (i : Nat) (w : BitVec 128) : State :=
  ((s.tracedHere i w stBadParam).advance i w).settle i 0 (iTag w.toNat) (Done.of stBadParam)

/-- REPEAT (02 R76). -/
def execRepeatImm (i : Site) (w : BitVec 128) (s : State) : Host.Outcome State Fault Refusal :=
  let n := w.toNat
  if !s.atRepeat i w 5 then next s
  else if bits n 15 14 != 0 || !rsvOk n [(47, 32)] then next (s.refuseRepeat i w)
  else next (s.repeatBody i w (bits n 47 32) stOk)

/-- REPEAT.IND (02 R76, R78): the count is a 32-bit scratchpad word, read as the instruction issues. A poisoned count is
judged before the nesting (log entry 77). -/
def execRepeatInd (i : Site) (w : BitVec 128) (s : State) : Host.Outcome State Fault Refusal :=
  let n := w.toNat
  let a := bits n 51 32
  if !s.atRepeat i w 6 || s.scratchBusy i a 4 then next s
  else if bits n 15 14 != 0 || !rsvOk n [(51, 32)] || a % 4 != 0 then next (s.refuseRepeat i w)
  else
    let r := s.readScratch i a 4
    if anyPoison r.2 then next (((r.1.tracedHere i w stPoisoned).advance i w).settle i 0 (iTag n) (.halt stPoisoned spScratch a))
    else
      let k := leP r.2
      next (r.1.repeatBody i w k (if 65535 < k then stBadParam else stOk))

/-! ## WAIT -/

/-- The condition of a WAIT on a flag's value (02 R82). -/
def waitHolds (cmp value flag : Nat) : Bool :=
  match cmp with
  | 0 => flag == value
  | 1 => decide (value ≤ flag)
  | _ => flag != value

/-- The WAIT that holds a core completes (02 R83, 10 R394). -/
def State.finishWait (s : State) (i : Nat) : State :=
  let w := (s.core i).cur
  ((s.withdraw i).tracedHere i w stOk).advance i w

/-- A WAIT stops the core at its flag (02 R84, R86): the comparison, the expected value and the last one seen are
recorded. CORE_PC stays at the WAIT, which is not counted (log entry 77). -/
def State.failWait (s : State) (i : Nat) (x : WaitSt) (st : Nat) : State :=
  let n := (s.core i).cur.toNat
  let s := (s.tracedHere i (s.core i).cur st).stopCore i st 0 (iTag n) x.space x.addr.toNat
  let s := s.setF (Reg.coreFaultInfo_expected i) x.value
  let s := s.setF (Reg.coreFaultInfo_cmp i) x.cmp
  s.setF (Reg.coreFaultInfo_seen_low i) (x.seen % 2 ^ 28)

/-- A core takes a value of its flag: a poisoned one stops it, one that satisfies the condition before the deadline
completes the WAIT, any other is remembered (02 R82, R83, R86). -/
def State.seeFlag (s : State) (i : Nat) (x : WaitSt) (v : List PByte) : State :=
  if anyPoison v then s.failWait i x stPoisoned
  else
    let x := { x with seen := leP v }
    if waitHolds x.cmp x.value (leP v) && decide (s.now < x.deadline) then
      (s.setCore i { s.core i with hold := .wait x }).finishWait i
    else s.setCore i { s.core i with hold := .wait x }

/-- Tries to arm the watch of a WAIT at a vault of the package (02 R82, R85). -/
def State.armLocal (s : State) (i v off : Nat) (x : WaitSt) : State :=
  match (s.arbitrate v (accessClass i v false) true off 8).installWatch v off (.core i) with
  | none => s.setCore i { s.core i with hold := .wait { x with armed := false, nextTry := s.now + us 2 } }
  | some (s, bytes, st) =>
    let x := { x with armed := true }
    if st = stMemRetired then s.failWait i x st else s.seeFlag i x bytes

/-- Sends the arm of a WAIT on a remote flag (10 R394). -/
def State.armRemote (s : State) (i : Nat) (x : WaitSt) : State :=
  let g := s.pickTag (s.vidOf i)
  (s.setCore i { s.core i with hold := .wait { x with
      armed := false, itag := g, highest := 0, nextTry := s.now + us 2 } }).request i 0 0 .none
    { Packet.blank with op := 3, dst := x.vid * 2 ^ 32 + x.off }

/-- Arms a WAIT at its flag. -/
def State.arm (s : State) (i : Nat) (x : WaitSt) : State :=
  if x.remote then s.armRemote i x else s.armLocal i x.vid x.off x

/-- Begins a WAIT: it holds the sequencer and arms its watch. -/
def State.startWait (s : State) (i : Nat) (w : BitVec 128) (x : WaitSt) : State :=
  let s := s.holdAt i w (.wait x)
  let s := s.setF (Reg.coreStatus_wait_armed i) 1
  let s := s.setF (Reg.coreWaitState_rearms i) 0
  let s := s.setF (Reg.coreWaitState_notices i) 0
  s.arm i x

/-- WAIT (02 R82 to R86, R95). -/
def execWait (i : Site) (w : BitVec 128) (s : State) : Host.Outcome State Fault Refusal :=
  let n := w.toNat
  let c := s.core i
  let o := c.opnd (bits n 35 32) (sbits n 59 36)
  let bad := bits n 15 14 != 0 || !rsvOk n [(35, 32), (59, 36), (61, 60), (95, 64), (119, 96)] ||
    bits n 61 60 == 3 || bits n 119 96 == 0 || badFlag o
  if !s.canIssue i w || iEng n != 0 || iOp n != 4 then next s
  else if bad then next (s.issue i w 0 [4] (fun s => refuse s stBadParam))
  else
    let x := s.resolve i o 8 false
    if x.st != stOk then next (s.issue i w 0 [4] (fun _ => some (x.s, Done.at_ x.st o.space o.ea)))
    else if !x.ready then next s
    else
      let wt : WaitSt := { addr := BitVec.ofNat 64 o.ea, space := o.space, remote := false, vid := 0, off := 0
                           cmp := bits n 61 60, value := bits n 95 64, deadline := s.now + us (bits n 119 96), seen := 0
                           armed := false, highest := 0, itag := 0, nextTry := 0 }
      match x.pieces with
      | ⟨.vault v off, _, _⟩ :: _ => next (x.s.startWait i w { wt with vid := v, off := off })
      | ⟨.remote vid off, _, _⟩ :: _ => next (x.s.startWait i w { wt with remote := true, vid := vid, off := off })
      | [] => next s

/-! ## Reserved opcodes -/

/-- The opcodes each engine defines (02 R93, R96, 03 R106, 05, 07, 10 R397, 09 R345, R350, 08 R293). -/
def definedOp (eng op : Nat) : Bool :=
  match eng with
  | 0 => [0, 1, 2, 3, 4, 5, 6, 8, 9, 0xA, 0xC, 0xD].contains op
  | 1 => decide (op ≤ 8)
  | 2 => op == 0
  | 3 => decide (1 ≤ op ∧ op ≤ 4) || decide (8 ≤ op ∧ op ≤ 0x18) || op == 0x20 || op == 0x21 ||
      decide (0x28 ≤ op ∧ op ≤ 0x31) || decide (0x38 ≤ op ∧ op ≤ 0x3E) || decide (0x40 ≤ op ∧ op ≤ 0x43) ||
      decide (0x48 ≤ op ∧ op ≤ 0x4B) || op == 0x50
  | 4 => [0, 1, 2, 8, 9, 0xA].contains op
  | 5 => [0, 1, 2, 0x10, 0x11].contains op
  | 6 => [0, 1, 2, 4, 5, 6, 7, 8, 0x10, 0x11].contains op
  | 7 => [0, 1, 2].contains op
  | _ => false

/-- A word with a reserved opcode or engine completes with BAD_OPCODE (00 R19), its reserved bits not judged (log entry
77). -/
def execReservedOpcode (i : Site) (w : BitVec 128) (s : State) : Host.Outcome State Fault Refusal :=
  let n := w.toNat
  if !s.canIssue i w || definedOp (iEng n) (iOp n) then next s
  else next (((s.tracedHere i w stBadOpcode).advance i w).settle i (iEng n) (iTag n) (Done.of stBadOpcode))

end Sys2Proof.Machine
end

