-- ==== Sys2Proof/Machine/Mov.lean ====
section
/-!
DEFINITION. The MOV instructions (chapter 02, R96 to R102, R632) and the movement of bytes they share with FMV.
-/
namespace Sys2Proof.Machine

/-- POISONED when a source byte carries poison (02 R102). -/
def srcStatus (data : List PByte) : Nat := if anyPoison data then stPoisoned else stOk

/-- Bytes of a MOV request at most (02, MOV instructions). -/
def movPkt : Nat := 128

/-- Longest MOV transfer. -/
def movMax : Nat := 1048576

/-- Memory to the scratchpad: the pieces of this package at once, the others by READ packets (02 R97, 10 R392). -/
def State.pull (s : State) (i eng op itag sz : Nat) (o : Opnd) (dst n : Nat) (narrow : Bool) :
    Option (State × Done) :=
  let x := s.resolve i o n false
  if x.st != stOk then some (x.s, Done.at_ x.st o.space o.ea)
  else if !x.ready then none
  else
    let r := x.s.readPieces i x.pieces narrow
    let s := r.2.1.foldl (fun s p => s.writeScratch i (dst + p.1) p.2) r.1
    let id := s.newJob
    let j := { Job.start id i eng op itag with
      status := r.2.2, addr := o.ea, space := o.space, dests := [(dst, n)] }
    let s := s.addJob j
    let q := s.sendReads i eng id sz narrow (fun pos => .scratch i (dst + pos)) x.pieces
    if q.2 = 0 then some ({ q.1 with jobs := q.1.jobs.filter (fun y => y.id != id) }, Done.at_ r.2.2 o.space o.ea)
    else some (q.1.setJob { j with left := q.2 }, Done.of stOk)

/-- The bytes of a transfer to memory, whose pieces are translated: those of this package at once, the others by WRITE
packets. The source was read with a status; where it is more than poison, the source's address is the one recorded
(02 R91). -/
def State.push (s : State) (i op itag : Nat) (src o : Opnd) (pieces : List Piece) (data : List PByte) (narrow : Bool)
    (st : Nat) : State × Done :=
  let r := s.writePieces i pieces data narrow
  let f := if hardSt st then src else o
  let first := if hardSt st then 0 else r.2.2
  let st := worse st r.2.1
  let s := r.1
  let id := s.newJob
  let j := { Job.start id i 1 op itag with status := st, first := first, addr := f.ea, space := f.space }
  let s := s.addJob j
  let q := s.sendWrites i 1 id movPkt src.ea narrow data pieces
  if q.2 = 0 then ({ q.1 with jobs := q.1.jobs.filter (fun y => y.id != id) }, Done.at_ st f.space f.ea)
  else (q.1.setJob { j with left := q.2 }, Done.of stOk)

/-- LOAD with its operands known (02 R97). -/
def movLoadAct (i op itag : Nat) (dst src : Opnd) (n : Nat) (narrow : Bool) : Act := fun s =>
  if !dst.inScratch n || src.space == spScratch then refuse s stBadParam
  else s.pull i 1 op itag movPkt src dst.ea n narrow

/-- STORE with its operands known (02 R97). -/
def movStoreAct (i op itag : Nat) (dst src : Opnd) (n : Nat) (narrow : Bool) : Act := fun s =>
  if !src.inScratch n || dst.space == spScratch then refuse s stBadParam
  else
    let x := s.resolve i dst n true
    if x.st != stOk then some (x.s, Done.at_ x.st dst.space dst.ea)
    else if !x.ready then none
    else
      let r := x.s.readScratch i src.ea n
      some (r.1.push i op itag src dst x.pieces r.2 narrow (srcStatus r.2))

/-- The destination and source operands of R97. -/
def movOpnds (c : Core) (n : Nat) : Opnd × Opnd :=
  (c.opnd (bits n 35 32) (sbits n 63 40), c.opnd (bits n 39 36) (sbits n 95 64))

/-- Is a field of R97 wrong: length, the reserved scale, the reserved top bits? -/
def movBad (n : Nat) : Bool :=
  bits n 116 96 == 0 || decide (movMax < bits n 116 96) || bits n 119 117 != 0 || bits n 127 121 != 0

/-- LOAD. -/
def execMovLoad (i : Site) (w : BitVec 128) (s : State) : Host.Outcome State Fault Refusal :=
  next (s.issue i w 1 [0] (fun s =>
    let n := w.toNat
    let o := movOpnds (s.core i) n
    if movBad n then refuse s stBadParam else movLoadAct i 0 (iTag n) o.1 o.2 (bits n 116 96) (bit n 120) s))

/-- STORE. -/
def execMovStore (i : Site) (w : BitVec 128) (s : State) : Host.Outcome State Fault Refusal :=
  next (s.issue i w 1 [1] (fun s =>
    let n := w.toNat
    let o := movOpnds (s.core i) n
    if movBad n then refuse s stBadParam else movStoreAct i 1 (iTag n) o.1 o.2 (bits n 116 96) (bit n 120) s))

/-- COPY (02 R97): both operands name memory. A source at another node is gathered first. -/
def execMovCopy (i : Site) (w : BitVec 128) (s : State) : Host.Outcome State Fault Refusal :=
  next (s.issue i w 1 [2] (fun s =>
    let n := w.toNat
    let o := movOpnds (s.core i) n
    let dst := o.1
    let src := o.2
    let len := bits n 116 96
    let narrow := bit n 120
    if movBad n || dst.space == spScratch || src.space == spScratch then refuse s stBadParam
    else
      let x := s.resolve i src len false
      if x.st != stOk then some (x.s, Done.at_ x.st src.space src.ea)
      else
        let y := x.s.resolve i dst len true
        if y.st != stOk then some (y.s, Done.at_ y.st dst.space dst.ea)
        else if !x.ready || !y.ready then none
        else
          let r := y.s.readPieces i x.pieces narrow
          if (remotePieces x.pieces).isEmpty then
            some (r.1.push i 2 (iTag n) src dst y.pieces (gathered r.2.1) narrow r.2.2)
          else
            let s := r.1
            let id := s.newJob
            let j := { Job.start id i 1 2 (iTag n) with
              status := r.2.2, addr := src.ea, space := src.space
              buf := r.2.1.foldl (fun m p => SMap.insert p.1 p.2 m) []
              fin := .copyOut dst.space dst.ea src.ea len narrow y.pieces, mem := y.pieces.map Piece.mem }
            let q := (s.addJob j).sendReads i 1 id movPkt narrow .buf x.pieces
            some (q.1.setJob { j with left := q.2 }, Done.of stOk)))

/-- The length a .N form takes from its count word (02 R101), or how the instruction ends without moving. -/
def State.countLen (s : State) (i a scale : Nat) : State × Except Done Nat :=
  let r := s.readScratch i a 4
  let k := leP r.2
  if anyPoison r.2 then (r.1, .error (.halt stPoisoned spScratch a))
  else if k = 0 then (r.1, .error (.of stOk))
  else if movMax < k * 2 ^ scale then (r.1, .error (.of stBadParam))
  else (r.1, .ok (k * 2 ^ scale))

/-- Is a field of a .N form wrong? -/
def movNBad (n : Nat) : Bool := bits n 115 96 % 4 != 0 || bit n 116 || bits n 127 121 != 0

/-- LOAD.N. -/
def execLoadN (i : Site) (w : BitVec 128) (s : State) : Host.Outcome State Fault Refusal :=
  next (s.issue i w 1 [3] (fun s =>
    let n := w.toNat
    let o := movOpnds (s.core i) n
    if movNBad n || o.1.space != spScratch || o.2.space == spScratch then refuse s stBadParam
    else
      match s.countLen i (bits n 115 96) (bits n 119 117) with
      | (s, .error d) => some (s, d)
      | (s, .ok len) => movLoadAct i 3 (iTag n) o.1 o.2 len (bit n 120) s))

/-- STORE.N. -/
def execStoreN (i : Site) (w : BitVec 128) (s : State) : Host.Outcome State Fault Refusal :=
  next (s.issue i w 1 [4] (fun s =>
    let n := w.toNat
    let o := movOpnds (s.core i) n
    if movNBad n || o.2.space != spScratch || o.1.space == spScratch then refuse s stBadParam
    else
      match s.countLen i (bits n 115 96) (bits n 119 117) with
      | (s, .error d) => some (s, d)
      | (s, .ok len) => movStoreAct i 4 (iTag n) o.1 o.2 len (bit n 120) s))

/-! ## GATHER and SCATTER -/

/-- The operands of R98. -/
structure RowOps where
  sp : Opnd
  mem : Opnd
  idx : Opnd
  ind : Bool
  count : Nat
  rowBytes : Nat
  pitch : Nat
  deriving DecidableEq, Repr

/-- The operands of R98 from a word. -/
def rowOps (c : Core) (n : Nat) : RowOps :=
  { sp := c.opnd (bits n 35 32) 0, mem := c.opnd (bits n 39 36) 0, idx := c.opnd (bits n 43 40) 0, ind := bit n 47
    count := bits n 63 48, rowBytes := bits n 79 64, pitch := bits n 127 96 }

/-- Is a field of R98 wrong? -/
def rowBad (n : Nat) (r : RowOps) : Bool :=
  bits n 46 44 != 0 || bits n 95 80 != 0 || r.sp.space != spScratch || r.idx.space != spScratch ||
  r.mem.space == spScratch || r.idx.ea % 4 != 0 || !r.idx.inScratch 4 || (!r.ind && r.count == 0) ||
  decide (r.rowBytes < 32) || decide (32768 < r.rowBytes) || r.rowBytes % 32 != 0

/-- The index list: its state after the reads, and either how the instruction ends or the indices, none where the
word is poisoned (02 R98, R101). -/
def State.rowIndices (s : State) (i : Nat) (r : RowOps) : State × Except Done (List (Option Nat)) :=
  let c := s.readScratch i r.idx.ea 4
  let s := if r.ind then c.1 else s
  let k := if r.ind then leP c.2 else r.count
  let a := if r.ind then r.idx.ea + 4 else r.idx.ea
  if r.ind && anyPoison c.2 then (s, .error (.halt stPoisoned spScratch r.idx.ea))
  else if k = 0 then (s, .error (.of stOk))
  else if 65535 < k ∨ scratchSize < a + 4 * k ∨ scratchSize < r.sp.ea + k * r.rowBytes then
    (s, .error (.of stBadParam))
  else
    let q := s.readScratch i a (4 * k)
    (q.1, .ok ((List.range k).map (fun m =>
      let b := slice q.2 (4 * m) 4
      if anyPoison b then none else some (leP b))))

/-- The rows of a GATHER or SCATTER after every address is checked: a row that fails R75 gives BAD_PARAM (02 R101). -/
structure Rows where
  s : State
  d : Done
  rows : List (Nat × Option (List Piece))
  ready : Bool
  deriving DecidableEq, Repr

/-- The address of a row. -/
def RowOps.row (r : RowOps) (m : Nat) : Opnd := { r.mem with ea := (r.mem.ea + m * r.pitch) % 2 ^ 64 }

/-- The status and the address of the rows so far, after one more row: the address is that of the first row whose
status is more than poison (02 R91). -/
def nextRow (q : Nat × Nat) (st a : Nat) : Nat × Nat :=
  (worse q.1 st, if hardSt st && !hardSt q.1 then a else q.2)

/-- Checks every row. -/
def State.checkRows (s : State) (i : Nat) (r : RowOps) (xs : List (Option Nat)) (write : Bool) : Rows :=
  xs.foldl (fun (q : Rows) x =>
    if q.d.st != stOk then q
    else
      let k := q.rows.length
      match x with
      | none => { q with rows := q.rows ++ [(k, none)] }
      | some m =>
        let o := r.row m
        let y := q.s.resolve i o r.rowBytes write
        if y.st = stOk then ⟨y.s, q.d, q.rows ++ [(k, some y.pieces)], q.ready && y.ready⟩
        else if o.space == spSky || (o.space == spVirt && o.ea / 2 ^ 40 != o.base / 2 ^ 40) then
          { q with d := Done.of stBadParam }
        else ⟨y.s, Done.at_ y.st o.space o.ea, q.rows, q.ready⟩) ⟨s, Done.of stOk, [], true⟩

/-- GATHER (02 R98, R101): each row lands packed in the scratchpad; a poisoned index leaves a poisoned row. -/
def execMovGather (i : Site) (w : BitVec 128) (s : State) : Host.Outcome State Fault Refusal :=
  next (s.issue i w 1 [5] (fun s =>
    let n := w.toNat
    let r := rowOps (s.core i) n
    if rowBad n r then refuse s stBadParam
    else
      match s.rowIndices i r with
      | (s, .error d) => some (s, d)
      | (s, .ok xs) =>
        let at_ := fun k => (r.row ((xs.getD k none).getD 0)).ea
        let q := s.checkRows i r xs false
        if q.d.st != stOk then some (q.s, q.d)
        else if !q.ready then none
        else
          let id := q.s.newJob
          let j := { Job.start id i 1 5 (iTag n) with
            addr := r.mem.ea, space := r.mem.space, dests := [(r.sp.ea, xs.length * r.rowBytes)] }
          let z := q.rows.foldl (fun (z : State × (Nat × Nat) × Nat) row =>
            let dst := r.sp.ea + row.1 * r.rowBytes
            match row.2 with
            | none => (z.1.writeScratch i dst (List.replicate r.rowBytes (0, true)), nextRow z.2.1 stPoisoned 0, z.2.2)
            | some ps =>
              let b := z.1.readPieces i ps (r.rowBytes == 32)
              let s := b.2.1.foldl (fun s p => s.writeScratch i (dst + p.1) p.2) b.1
              let t := s.sendReads i 1 id movPkt (r.rowBytes == 32) (fun pos => .scratch i (dst + pos)) ps
              (t.1, nextRow z.2.1 b.2.2 (at_ row.1), z.2.2 + t.2)) (q.s.addJob j, (stOk, r.mem.ea), 0)
          let s := z.1
          if z.2.2 = 0 then
            some ({ s with jobs := s.jobs.filter (fun y => y.id != id) }, Done.at_ z.2.1.1 r.mem.space z.2.1.2)
          else some (s.setJob { j with left := z.2.2, status := z.2.1.1, addr := z.2.1.2 }, Done.of stOk)))

/-- SCATTER (02 R98, R101): a poisoned index writes nothing. -/
def execScatter (i : Site) (w : BitVec 128) (s : State) : Host.Outcome State Fault Refusal :=
  next (s.issue i w 1 [6] (fun s =>
    let n := w.toNat
    let r := rowOps (s.core i) n
    if rowBad n r then refuse s stBadParam
    else
      match s.rowIndices i r with
      | (s, .error d) => some (s, d)
      | (s, .ok xs) =>
        let at_ := fun k => (r.row ((xs.getD k none).getD 0)).ea
        let q := s.checkRows i r xs true
        if q.d.st != stOk then some (q.s, q.d)
        else if !q.ready then none
        else
          let id := q.s.newJob
          let j := { Job.start id i 1 6 (iTag n) with addr := r.mem.ea, space := r.mem.space }
          let z := q.rows.foldl (fun (z : State × (Nat × Nat) × Nat) row =>
            match row.2 with
            | none => (z.1, nextRow z.2.1 stPoisoned 0, z.2.2)
            | some ps =>
              let b := z.1.readScratch i (r.sp.ea + row.1 * r.rowBytes) r.rowBytes
              let y := b.1.writePieces i ps b.2 false
              let t := y.1.sendWrites i 1 id movPkt (r.sp.ea + row.1 * r.rowBytes) false b.2 ps
              (t.1, nextRow z.2.1 (worse y.2.1 (srcStatus b.2)) (at_ row.1), z.2.2 + t.2))
            (q.s.addJob j, (stOk, r.mem.ea), 0)
          let s := z.1
          if z.2.2 = 0 then
            some ({ s with jobs := s.jobs.filter (fun y => y.id != id) }, Done.at_ z.2.1.1 r.mem.space z.2.1.2)
          else some (s.setJob { j with left := z.2.2, status := z.2.1.1, addr := z.2.1.2 }, Done.of stOk)))

/-! ## FILL and ATOMIC -/

/-- n bytes of a 32-bit pattern that starts afresh (02 R632). -/
def patternBytes (pat n : Nat) : List PByte :=
  (List.range n).map (fun k => (BitVec.ofNat 8 (pat / 2 ^ (8 * (k % 4))), false))

/-- FILL (02 R632). -/
def execMovFill (i : Site) (w : BitVec 128) (s : State) : Host.Outcome State Fault Refusal :=
  next (s.issue i w 1 [7] (fun s =>
    let n := w.toNat
    let o := (s.core i).opnd (bits n 35 32) (sbits n 63 40)
    let len := bits n 116 96
    if bits n 39 36 != 0 || bits n 127 117 != 0 || len == 0 || decide (movMax < len) || !o.inScratch len then
      refuse s stBadParam
    else complete (s.writeScratch i o.ea (patternBytes (bits n 95 64) len)) stOk))

/-- ATOMIC (02 R99, 06 R219, 10 R393). It reads and writes 8 B scratchpad words at res_ag: an address off them is refused
(log entry 77). -/
def execMovAtomic (i : Site) (w : BitVec 128) (s : State) : Host.Outcome State Fault Refusal :=
  next (s.issue i w 1 [8] (fun s =>
    let n := w.toNat
    let c := s.core i
    let res := c.opnd (bits n 35 32) (sbits n 63 40)
    let tgt := c.opnd (bits n 39 36) (sbits n 95 64)
    let aop := bits n 99 96
    let wide := bit n 100
    let nb := if wide then 8 else 4
    let span := if aop = 4 then 16 else 8
    if bits n 127 101 != 0 || decide (8 ≤ aop) || !res.inScratch span || res.ea % 8 != 0 ||
        tgt.space == spScratch || tgt.ea % nb != 0 then refuse s stBadParam
    else
      let x := s.resolve i tgt nb true
      if x.st != stOk then some (x.s, Done.at_ x.st tgt.space tgt.ea)
      else if !x.ready || !x.pieces.all (s.atomicReady (towerOf i)) then none
      else
        let r := x.s.readScratch i res.ea span
        let operand := r.2.take 8
        let compare := slice r.2 8 8
        match x.pieces with
        | ⟨.vault v off, _, _⟩ :: _ =>
          let a := r.1.atomicAs i v off aop wide operand compare
          some (a.1.writeScratch i res.ea a.2.1, Done.at_ a.2.2 tgt.space tgt.ea)
        | ⟨.remote vid off, _, _⟩ :: _ =>
          let s := r.1
          let id := s.newJob
          let s := s.addJob { Job.start id i 1 8 (iTag n) with
            left := 1, addr := tgt.ea, space := tgt.space, dests := [(res.ea, 8)] }
          some (s.request i 1 id (.scratch i res.ea) { Packet.blank with
            op := 2, aop := aop + (if wide then 16 else 0), length := span, narrow := true
            dst := vid * 2 ^ 32 + off, payload := r.2 }, Done.of stOk)
        | [] => refuse s stBadParam))

end Sys2Proof.Machine
end

