-- ==== Sys2Proof/Machine/Serve.lean ====
section
/-!
DEFINITION. Requests at a vault port: when a request may be served, what serving it does and answers (06 R217 to R219,
10 R392 to R394), the requests that wait (06 R213, R242, 07 R271) and the arbiters that choose among them (R223 to R226),
merges (R218) and the drain of the write buffer (R217).
-/
namespace Sys2Proof.Machine

/-! ## Requests -/

/-- The offset a request starts at. -/
def VReq.off : VReq → Nat
  | .read off _ => off
  | .write off _ => off
  | .atomic off _ _ _ _ => off
  | .watch off _ => off

/-- The bytes a request covers. -/
def VReq.len : VReq → Nat
  | .read _ n => n
  | .write _ data => data.length
  | .atomic _ _ wide _ _ => if wide then 8 else 4
  | .watch _ _ => 8

/-- Is a request a write? -/
def VReq.isWrite : VReq → Bool
  | .write _ _ => true
  | _ => false

/-- Do two requests touch a common granule (06 R220)? -/
def VReq.meets (a b : VReq) : Bool :=
  decide (a.off / 64 ≤ (b.off + b.len - 1) / 64 ∧ b.off / 64 ≤ (a.off + a.len - 1) / 64)

/-- Does a request keep behind an earlier one: to its granule (06 R220), or of its flow (10 R401)? -/
def VWait.behind (a b : VWait) : Bool :=
  a.req.meets b.req || (match a.reply, b.reply with
    | some k, some l => sameFlow k l
    | _, _ => false)

/-- Does a request take the narrow path (06 R216)? -/
def VWait.onNarrow (q : VWait) : Bool := narrowPath q.narrow q.req.off q.req.len

/-- The pieces of a write that cover part of a word: at most its first and its last (06 R218). -/
def partialPieces (off n : Nat) : Nat := ((cutAt 128 off n).filter (fun c => partialWords c.1 c.2)).length

/-- May the write buffer take the pieces of a write (06 R217)? Those that cover part of a word stay until they are
merged. -/
def State.acceptReady (s : State) (v off n : Nat) : Bool :=
  let x := s.vault v
  s.portOpen v &&
  (decide (x.wbuf.length + (cutAt 128 off n).length ≤ wbufSize) ||
    (decide (x.stuck + Nat.max 1 (partialPieces off n) ≤ wbufSize) &&
      (s.banksOf v off n).all (fun b => !x.blocked b)))

/-- May a request be served now? A request that the controller has accepted is served while the port is held (06 R213);
a retired vault answers everything (06 R248). -/
def State.reqReady (s : State) (v : Nat) (acc : Bool) (q : VReq) : Bool :=
  let port := s.portOpen v || (acc && s.vaultState v != vsInitBusy)
  if s.vaultState v = vsRetired then !s.vaultHolds v || acc
  else
    match q with
    | .read off n => port && s.banksIdle v off n
    | .write off data => s.acceptReady v off data.length
    | .atomic off _ _ _ _ =>
      port && s.banksIdle v (off / 8 * 8) 8 && s.bufferReady v (off / 8 * 8) 8
    | .watch off _ => port && s.banksIdle v off 8

/-- Answers a read: READ_DATA to a packet, else the data to the requester in the package. -/
def State.respondRead (s : State) (v : Nat) (reply : Option Packet) (st : Nat) (data : List PByte) : State :=
  match reply with
  | some k => s.answer v k 0 st data
  | none => s.emit (.vaultData v st data)

/-- Answers any other request with the opcode of its answer (10 R374). -/
def State.respond (s : State) (v op : Nat) (reply : Option Packet) (st : Nat) (data : List PByte) : State :=
  match reply with
  | some k => s.answer v k op st data
  | none => s.emit (.vaultAck v st data)

/-- The next number of a write whose merge is outstanding. -/
def nextGroup (x : Vault) : Nat :=
  x.wbuf.foldl (fun m e => match e.merge with | some g => Nat.max m (g.group + 1) | none => m) 1

/-- Accepts a write that covers part of a word: it takes effect now, and its completion waits for its merge
(06 R218). The pieces that need no merge enter first, so that all may leave again. -/
def State.acceptPartial (s : State) (v off : Nat) (data : List PByte) (narrow : Bool) (reply : Option Packet) : State :=
  let base := s.frameBase v
  let pieces := cutAt 128 off data.length
  let gone := fun (c : Nat × Nat) => (s.vault v).retired.contains (rowOf (physAddr base c.1))
  let live := pieces.filter (fun c => !gone c)
  let st := if pieces.any gone then stMemRetired else stOk
  let g : Merge := ⟨nextGroup (s.vault v), st, reply⟩
  let entry := fun (c : Nat × Nat) (m : Option Merge) => (⟨physAddr base c.1, slice data (c.1 - off) c.2, m⟩ : WEntry)
  let parts := live.filter (fun c => partialWords c.1 c.2)
  let s := s.incWrap (Reg.vltCntWr_bytes v) (unitsMoved narrow off data.length)
  let s := (live.filter (fun c => !partialWords c.1 c.2)).foldl (fun s c => s.accept v (entry c none)) s
  let s := parts.foldl (fun s c => s.bufPut v (entry c (some g))) (s.makeRoom v parts.length)
  let s := live.foldl (fun s c => s.notify v c.1 c.2) s
  if parts.isEmpty then s.respond v 1 reply st [] else s

/-- Serves a request that has been granted (10 R392 to R394). -/
def State.serve (s : State) (v : Nat) (q : VWait) : State :=
  match q.req with
  | .read off n =>
    let r := s.readVault v off n q.narrow
    r.1.respondRead v q.reply r.2.2 r.2.1
  | .write off data =>
    if partialWords off data.length && s.vaultState v != vsRetired then s.acceptPartial v off data q.narrow q.reply
    else
      let r := s.writeVault v off data q.narrow
      r.1.respond v 1 q.reply r.2 []
  | .atomic off aop wide operand compare =>
    let r := s.atomicVault v off aop wide operand compare
    r.1.respond v 2 q.reply r.2.2 r.2.1
  | .watch off who =>
    match s.installWatch v off who with
    | none => s.respond v 5 q.reply stNoResource []
    | some r => r.1.respond v 3 q.reply r.2.2 r.2.1

/-! ## Grants among the requests that wait (06 R223 to R226) -/

/-- The requests that may be granted now, with their places: ready, with none before them that they keep behind. -/
def State.grantable (s : State) (v : Nat) : List VWait → List VWait → Nat → List (Nat × VWait)
  | _, [], _ => []
  | before, q :: rest, k =>
    let more := s.grantable v (before ++ [q]) rest (k + 1)
    if s.reqReady v q.acc q.req && !before.any (fun e => e.behind q) then (k, q) :: more else more

/-- The requests that an arbiter chooses from: while writes go first, only the writes if there are any (06 R225). -/
def preferWrites (first : Bool) (xs : List (Nat × VWait)) : List (Nat × VWait) :=
  let ws := xs.filter (fun e => e.2.req.isWrite)
  if first && !ws.isEmpty then ws else xs

/-- One grant of a path's arbiter: the class in turn, the oldest eligible request of the class, one of its accesses; a
request is served when its last access is granted (06 R223, R224). -/
def State.grantOne (s : State) (v : Nat) (narrow : Bool) : State × Bool :=
  let x := s.vault v
  let xs := preferWrites x.writeFirst ((s.grantable v [] x.waiting 0).filter (fun e => e.2.onNarrow == narrow))
  let req := (List.range 4).map (fun c => xs.any (fun e => classSlot e.2.cls == c))
  match arbPick (s.arbWeights v) (if narrow then x.narrowArb else x.full) req with
  | none => (s, false)
  | some (c, a) =>
    match xs.find? (fun e => classSlot e.2.cls == c) with
    | none => (s, false)
    | some (k, q) =>
      let x := if narrow then { x with narrowArb := a } else { x with full := a }
      if q.left ≤ 1 then ((s.setVault v { x with waiting := dropAt x.waiting k }).serve v q, true)
      else (s.setVault v { x with waiting := x.waiting.set k { q with left := q.left - 1 } }, true)

/-- Vault cycles of grants: one of each path, until none is left. -/
def State.grants (s : State) (v : Nat) : Nat → State
  | 0 => s
  | k + 1 =>
    let a := s.grantOne v false
    let b := a.1.grantOne v true
    if a.2 || b.2 then b.1.grants v k else s

/-- The cycles that the waiting requests can take. -/
def Vault.turns (x : Vault) : Nat := x.waiting.foldl (fun n q => n + q.left + 1) 1

/-- The accesses of a request, one grant each (06 R216, R224). -/
def VWait.accesses (q : VWait) : Nat := (cutAt (if q.onNarrow then 32 else 128) q.req.off q.req.len).length

/-- A request reaches the vault port: it is accepted unless the port is shut (06 R213, R242) or it is a write, which the
write buffer accepts (R217). Alone and ready it is granted and served; else it waits behind one to its granule or for the
port, its bank or the write buffer, and the arbiters choose (R220, R223, 07 R271). -/
def State.arrive (s : State) (v : Nat) (q : VWait) : State :=
  let x := s.vault v
  let q := { q with left := q.accesses, acc := q.acc || (s.portOpen v && !q.req.isWrite) }
  if x.waiting.isEmpty && s.reqReady v q.acc q.req then
    (s.bookAs v q.cls (q.onNarrow) q.left).serve v q
  else
    let s := if s.portOpen v then (cutAt 1024 q.req.off q.req.len).foldl (fun s c => s.rowAsked v (physAddr (s.frameBase v) c.1)) s
      else s
    let x := s.vault v
    let x := { x with waiting := x.waiting ++ [q] }
    (s.setVault v x).grants v x.turns

/-- Grants the requests that may be granted now. -/
def State.serveWaiting (s : State) (v : Nat) : State := s.grants v (s.vault v).turns

/-- The port opens: the requests that wait there are released in arrival order (06 R213, R242), each accepted as it is
released; so is a raw access. -/
def State.openPort (s : State) (v : Nat) : State :=
  let x := s.vault v
  x.waiting.foldl (fun s q => s.arrive v q) (s.setVault v { x with waiting := [], raw := x.raw.map (fun _ => true) })

/-! ## Merging and draining -/

/-- The words a buffer entry covers in part: physical word and its stored codeword. -/
def entryOlds (d : Nat → Codeword) (m : EccMem) (e : WEntry) : List (Nat × Codeword) :=
  let a := e.addr
  let n := e.bytes.length
  let first := if a % 8 != 0 || n < 8 then [a / 8] else []
  let last := if (a + n) % 8 != 0 then [(a + n) / 8] else []
  ((first ++ last).eraseDups).map (fun k => (k, EccMem.word d m k))

/-- Completes the merge of a write: the old words are read, and its answer goes out (06 R218, R238, R239). -/
def State.mergeGroup (s : State) (v : Nat) (g : Merge) : State :=
  let x := s.vault v
  let mine := x.wbuf.filter (fun e => e.merge == some g)
  let d := wordDefault v x
  let m := (x.wbuf.takeWhile (fun e => e.merge != some g)).foldl (fun m e => EccMem.write d m e.addr e.bytes) x.mem
  let olds := (mine.flatMap (entryOlds d m)).map (fun w => (w.1, w.2.decode))
  let base := s.frameBase v
  let s := olds.foldl (fun s w => s.noteWord v (offsetOf base (8 * w.1)) (8 * w.1) w.2) s
  let x := s.vault v
  let s := s.setVault v { x with wbuf := x.wbuf.map (fun e => if e.merge = some g then { e with merge := none } else e) }
  let st := if g.st != stOk then g.st else if olds.any (fun w => w.2.kind.bad) then stPoisoned else stOk
  (s.respond v 1 g.reply st []).serveWaiting v

/-- Drains one entry of the write buffer into its bank, unless its bank is blocked or an earlier entry holds bytes of
its line (06 R217). -/
def State.drainAt (s : State) (v k : Nat) : State :=
  let x := s.vault v
  match x.wbuf[k]? with
  | none => s
  | some e =>
    if x.blocked (bankOf e.addr) || (x.wbuf.take k).any (fun f => f.addr / 128 == e.addr / 128) then s
    else
      ((s.setVault v ({ x with mem := EccMem.write (wordDefault v x) x.mem e.addr e.bytes }.setBuf
        (dropAt x.wbuf k))).touchRow v e.addr)

/-- Drains every entry of a bank (07 R270). -/
def State.drainBank (s : State) (v b : Nat) : State :=
  let x := s.vault v
  let mine := x.wbuf.filter (fun e => bankOf e.addr == b)
  let m := mine.foldl (fun m e => EccMem.write (wordDefault v x) m e.addr e.bytes) x.mem
  let s := s.setVault v ({ x with mem := m }.setBuf (x.wbuf.filter (fun e => bankOf e.addr != b)))
  mine.foldl (fun s e => s.touchRow v e.addr) s

end Sys2Proof.Machine
end

