-- ==== Sys2Proof/Machine/YieldOps.lean ====
section
/-!
DEFINITION. The yield map (15 R553), the grade checks (00 R4, 15 R552), and the retirement of rows and vaults
(06 R246 to R248).
-/
namespace Sys2Proof.Machine

/-! ## The yield map -/

/-- The yield entry of a site (15 R553). -/
def State.yieldOf (s : State) (i : Nat) : Nat := s.getF (Reg.bootYield_sites (i / 4)) / 2 ^ (8 * (i % 4)) % 256

/-- Sets a site's yield entry. -/
def State.setYield (s : State) (i v : Nat) : State :=
  let f := Reg.bootYield_sites (i / 4)
  s.setF f (setBits (s.getF f) (8 * (i % 4) + 7) (8 * (i % 4)) v)

/-- The core state of a yield entry: 0 ENABLED, 1 STANDBY, 2 FUSED_BAD, 3 TEST_FAILED, 4 ABSENT, 5 NO_VAULT. -/
def yCore (v : Nat) : Nat := bits v 2 0
/-- The vault state of a yield entry: 0 in service. -/
def yVault (v : Nat) : Nat := bits v 4 3

/-- Boot has finished. -/
def stageDone : Nat := 10
/-- Boot has failed. -/
def stageFailed : Nat := 15

/-- The cores a grade enables in a tower (00 R4). -/
def State.gradeCount (s : State) : Nat := if s.chip.w2 then 384 else 512

/-- Sites of the package. -/
def siteCount : Nat := 2304

/-- Vaults in service (15 R552). -/
def State.vaultsUp (s : State) : Nat := ((List.range siteCount).filter (fun i => yVault (s.yieldOf i) == 0)).length

/-- READY of GLB_STATE.state. -/
def gsReady : Nat := 1
/-- GRADE_FAULT. -/
def gsGradeFault : Nat := 2

/-- Does the yield fail the grade: a tower short of cores, or less than 1,024 GiB in service (00 R4, 15 R552)? -/
def State.gradeFails (s : State) : Bool :=
  (List.range 4).any (fun t => decide (s.getF (Reg.bootTower_enabled t) < s.gradeCount)) || decide (s.vaultsUp < 2048)

/-- A vault retired in service, once the map is final (15 R553). -/
def State.yieldLost (s : State) (v : Nat) : State :=
  if s.getF Reg.bootStatus_stage != stageDone then s
  else
    let y := s.yieldOf v
    let t := towerOf v
    let s := if yCore y = 0 then
        (s.setYield v (5 + 3 * 8)).setF (Reg.bootTower_enabled t) (s.getF (Reg.bootTower_enabled t) - 1)
      else s.setYield v (yCore y + 3 * 8)
    let s := s.incSat Reg.bootCounts_retired_vaults 1
    if s.getF Reg.glbState_state = gsReady && s.gradeFails then s.setF Reg.glbState_state gsGradeFault else s

/-! ## Retained SRAM (14 R523) -/

/-- What an unlisted word of retained SRAM holds (14 R523). -/
def retZero : Nat → Codeword := fun _ => Codeword.zero

/-- Bytes of retained SRAM as a read returns them: all ones where a word is uncorrectable (14 R523). -/
def State.retBytes (s : State) (a n : Nat) : List Byte :=
  (EccMem.read retZero s.rst.retained a n).map (fun b => if b.2 then 255 else b.1)

/-- What the reads of a range of retained SRAM detect: counted in RST_RET_ERR, and recorded (14 R523, 16 R591
kind 21). -/
def State.retNote (s : State) (a n : Nat) : State :=
  (EccMem.scan retZero s.rst.retained a n).foldl (fun s w =>
    let note := fun (cls : Nat) (f : Fld) =>
      (s.incSat f 1).record (mkRecord s cls 14 0xFFFF 0 21 (8 * w.1) (w.2.s + w.2.p * 2 ^ 7))
    match w.2.kind with
    | .clean => s
    | .corrected => note 0 Reg.rstRetErr_corrected
    | .uncorrectable => note 1 Reg.rstRetErr_uncorrectable
    | .poisoned => note 1 Reg.rstRetErr_uncorrectable) s

/-- Writes bytes of retained SRAM. -/
def State.retWrite (s : State) (a : Nat) (bs : List Byte) : State :=
  { s with rst := { s.rst with retained := EccMem.write retZero s.rst.retained a (clean bs) } }

/-- Does the firmware run: started by stage 2 of boot, boot not failed, the device not wedged (15 R531, R532, 16 R584)? -/
def State.fwUp (s : State) : Bool :=
  let g := s.getF Reg.bootStatus_stage
  decide (3 ≤ g) && g != stageFailed && !s.wedged && s.rst.phase == .out

/-! ## Yield-log records (15 R554, R555) -/

/-- A record: kind 1 a row, 2 a vault; its source; the vault; the physical row. -/
def yieldRecord (s : State) (kind source v row : Nat) : List Byte :=
  let row := if kind = 1 then row else 0
  let body := toLE 4 0x594C4F47 ++ toLE 1 kind ++ toLE 1 source ++ toLE 2 v ++ toLE 8 s.chip.serial.toNat ++
    toLE 1 (row / 65536) ++ toLE 1 (row / 4096 % 16) ++ toLE 2 (row % 4096) ++ List.replicate 40 0
  body ++ toLE 4 (crc32 body)

/-- Is a record valid: magic, serial and CRC? -/
def State.recordValid (s : State) (r : List Byte) : Bool :=
  r.length == 64 && fieldLE r 0 4 == 0x594C4F47 && fieldLE r 8 8 == s.chip.serial.toNat &&
    fieldLE r 60 4 == crc32 (slice r 0 60)

/-- The pending area of retained SRAM (15 R555). -/
def pendBase : Nat := 0x4000
/-- Records it holds. -/
def pendMax : Nat := 64

/-- A record of the pending area. -/
def State.pendRecord (s : State) (k : Nat) : List Byte := s.retBytes (pendBase + 64 * k) 64

/-- The firmware keeps a record of a retirement made in service; where the area is full it keeps none and says so
(15 R555). -/
def State.pend (s : State) (kind v row : Nat) : State :=
  if s.getF Reg.bootStatus_stage != stageDone || !s.fwUp then s
  else
    match (List.range pendMax).find? (fun k => !s.recordValid (s.pendRecord k)) with
    | some k => s.retWrite (pendBase + 64 * k) (yieldRecord s kind 2 v row)
    | none =>
      let off := if kind = 1 then row % 4096 * 2 ^ 17 + row / 65536 * 2 ^ 14 + row / 4096 % 16 * 2 ^ 10 else 0
      (s.setF Reg.bootStatus_pending_full 1).record (mkRecord s 1 15 v 0 26 off 0)

/-! ## Retirement -/

/-- Retires a whole vault: every request to it then completes with MEM_RETIRED (06 R248). -/
def State.retireVault (s : State) (v : Nat) : State :=
  if s.vaultState v = vsRetired then s
  else
    let s := s.setF (Reg.vltStatus_state v) vsRetired
    let s := (s.setF (Reg.bkuStatus_fill_token v) 0).setF (Reg.bkuStatus_fill_waiting v) 0
    ((s.yieldLost v).pend 2 v 0).serveWaiting v

/-- Rows a vault can retire (06 R246). -/
def rowMax : Nat := 64

/-- Retires a physical row: its contents are lost (06 R246). -/
def State.retireRow (s : State) (v row : Nat) : State :=
  let x := s.vault v
  if x.retired.contains row || s.vaultState v == vsRetired then s
  else if rowMax ≤ x.retired.length then s.retireVault v
  else
    let x := { x with
      retired := x.retired ++ [row]
      mem := SMap.keep (fun k => k / 128 != row) x.mem }
    let x := x.setBuf (x.wbuf.filter (fun e => rowOf e.addr != row || e.merge.isSome))
    ((s.setVault v x).setF (Reg.vltStatus_retired_rows v) x.retired.length).pend 1 v row

end Sys2Proof.Machine
end

