-- ==== Sys2Proof/Machine/Vault.lean ====
section
/-!
DEFINITION. The commands of a vault and its controller (chapter 06): requests, merges and drains, refresh, the
initialisation fill, scrub, hold and map, retirement, raw access.
-/
namespace Sys2Proof.Machine

/-! ## Requests -/

/-- A request of the package reaches a vault port. -/
def State.submit (s : State) (v : Nat) (q : VReq) (cls : ReqClass) (narrow : Bool) : State :=
  s.arrive v { req := q, cls := cls, narrow := narrow, reply := none, left := 0, acc := false, via := 0 }

/-- VAULT_READ (06 R217, R237 to R239). -/
def execVaultRead (i : Site) (off : BitVec 29) (len : Nat) (cls : ReqClass) (narrow : Bool) (s : State) :
    Host.Outcome State Fault Refusal :=
  if len = 0 ∨ vaultSize < off.toNat + len then next s
  else next (s.submit i (.read off.toNat len) cls narrow)

/-- VAULT_WRITE (06 R217, R218). -/
def execVaultWrite (i : Site) (off : BitVec 29) (data : List PByte) (cls : ReqClass) (narrow : Bool) (s : State) :
    Host.Outcome State Fault Refusal :=
  if data.length = 0 ∨ vaultSize < off.toNat + data.length then next s
  else next (s.submit i (.write off.toNat data) cls narrow)

/-- PARTIAL_WORD_MERGE (06 R218): it waits for a bank whose unit is busy (07 R270). -/
def execPartialWordMerge (i : Site) (k : Nat) (s : State) : Host.Outcome State Fault Refusal :=
  let x := s.vault i
  match (x.wbuf[k]?).bind WEntry.merge with
  | none => next s
  | some g =>
    if (x.wbuf.filter (fun e => e.merge == some g)).any (fun e => x.busyBank (bankOf e.addr)) then next s
    else next (s.mergeGroup i g)

/-- VAULT_ATOMIC (06 R219): atomics take the narrow path (R216). -/
def execVaultAtomic (i : Site) (off : BitVec 29) (aop : Nat) (wide : Bool) (operand compare : List PByte) (s : State) :
    Host.Outcome State Fault Refusal :=
  if 8 ≤ aop ∨ operand.length ≠ 8 ∨ (aop = 4 ∧ compare.length ≠ 8) ∨ off.toNat % (if wide then 8 else 4) ≠ 0 then next s
  else next (s.submit i (.atomic off.toNat aop wide operand compare) .remote true)

/-- WATCH_INSTALL (02 R82, R85). -/
def execWatchInstall (i : Site) (off : BitVec 29) (who : Site) (s : State) : Host.Outcome State Fault Refusal :=
  if off.toNat % 8 ≠ 0 then next s
  else next (s.submit i (.watch off.toNat (.core who)) (if who = i then .coreRead else .remote) true)

/-- WRITE_BUFFER_DRAIN (06 R217). -/
def execWriteBufferDrain (i : Site) (k : Nat) (s : State) : Host.Outcome State Fault Refusal :=
  next ((s.drainAt i k).serveWaiting i)

/-! ## Rows and refresh -/

/-- Vault cycles in nanoseconds, rounded up. -/
def vaultCycles (n : Nat) : Nat := ceilDiv (4 * n) 3

/-- ROW_IDLE_PRECHARGE (06 R221): no request for 32 vault cycles. -/
def execRowIdlePrecharge (i : Site) (bank : Fin 128) (s : State) : Host.Outcome State Fault Refusal :=
  let x := s.vault i
  let b := x.bank bank
  if b.openRow = none ∨ s.now < b.lastUse + vaultCycles 32 then next s
  else next (s.setVault i (x.setBank bank { b with openRow := none }))

/-- A layer of a vault. -/
def Vault.layer (x : Vault) (l : Nat) : Layer := SMap.get (fun _ => Layer.zero) x.layers l

/-- Owed refreshes a bank keeps at most (06 R231). -/
def debtMax : Nat := 8

/-- The refresh zone of a site in its layer (06 R228). -/
def zoneOf (i : Nat) : Nat := i % 576 / 24 / 12 * 4 + i % 24 / 6

/-- The index of a layer's zone among a tower's 96 zones (13 PTM_T_ZONE). -/
def zoneIx (i l : Nat) : Nat := 32 + 8 * l + zoneOf i

/-- The published temperature of a layer's zone above a site, in eighths of a degree. -/
def State.zoneTemp (s : State) (i l : Nat) : Int := sext 12 (s.getF (Reg.ptmTZone_temp (towerOf i) (zoneIx i l)))
/-- Its forecast. -/
def State.zoneForecast (s : State) (i l : Nat) : Int :=
  sext 12 (s.getF (Reg.ptmTZone_forecast (towerOf i) (zoneIx i l)))

/-- The greatest n below `hi` with n^80 * 2^d ≤ 8000^80 * 2^u, by halving. -/
def rootSearch (u d : Nat) : Nat → Nat → Nat → Nat
  | 0, lo, _ => lo
  | k + 1, lo, hi =>
    let m := (lo + hi) / 2
    if hi ≤ lo + 1 then lo
    else if m ^ 80 * 2 ^ d ≤ 8000 ^ 80 * 2 ^ u then rootSearch u d k m hi else rootSearch u d k lo m

/-- tREFW in microseconds at an applied temperature in eighths of a degree, rounded down (06 R228). -/
def trefwOf (t : Int) : Nat :=
  let k := 680 - t
  if k ≤ -240 then 1000 else if 160 ≤ k then 32000 else rootSearch k.toNat (-k).toNat 16 1000 32000

/-- The timing set at an applied temperature (06 R222): hot from 95 degrees, normal again below 92. -/
def hotSet (was : Bool) (t : Int) : Bool := decide (760 ≤ t) || (was && decide (736 ≤ t))

/-- A temperature sensor by die and index (13 R477) but for an injection. -/
def State.rawSensor (s : State) (die k : Nat) : Sensor := SMap.get (fun _ => Sensor.reset) s.sensors (128 * die + k)

/-- Is a sensor selected by PTM_SENSOR_SEL (13 R508)? -/
def State.sensorSelected (s : State) (die k : Nat) : Bool :=
  s.getF Reg.ptmSensorSel_die == die && s.getF Reg.ptmSensorSel_index == k

/-- A temperature sensor as the manager sees it: PTM_INJECT.force_broken reports the selected one broken (13 R508). -/
def State.sensor (s : State) (die k : Nat) : Sensor :=
  let x := s.rawSensor die k
  if s.on Reg.ptmInject_force_broken && s.sensorSelected die k then { x with broken := true } else x

/-- Boot is in its memory test, stage 4 (15 R531). -/
def stageMemTest : Nat := 4

/-- Is band mode in force for a vault (06 R230)? -/
def State.bandMode (s : State) (v : Nat) : Bool :=
  !s.on Reg.ptmStatus_forecast_running || s.getF Reg.bootStatus_stage == stageMemTest ||
    decide (s.now < (s.vault v).bandUntil) || s.on (Reg.vltCtrl_force_band v)

/-- The layer state in band mode: the higher of the two layer sensors of the site's quadrant (06 R230, 13 R477). -/
def State.bandLayer (s : State) (v l src : Nat) : Layer :=
  let q := v % 576 / 24 / 12 * 2 + v % 24 / 12
  let a := s.sensor (towerOf v) (64 + 8 * l + 2 * q)
  let b := s.sensor (towerOf v) (64 + 8 * l + 2 * q + 1)
  let t := max a.value b.value
  if a.broken || b.broken || decide (760 ≤ t) then ⟨1000, t, true, src⟩
  else if 680 ≤ t then ⟨2000, t, false, src⟩
  else if 520 ≤ t then ⟨4000, t, false, src⟩
  else ⟨8000, t, false, src⟩

/-- Is a layer's zone temperature stale: not updated for 1 ms (06 R229)? -/
def State.zoneStale (s : State) (v l : Nat) : Bool :=
  decide (SMap.get (fun _ => 0) s.zoneAt (96 * towerOf v + zoneIx v l) + ms 1 ≤ s.now)

/-- The refresh state of a layer as recomputed now (06 R228 to R230, R232). -/
def State.layerNow (s : State) (v l : Nat) : Layer :=
  let was := (s.vault v).layer l
  if (s.vault v).keeper then s.bandLayer v l 2
  else if s.bandMode v then s.bandLayer v l 1
  else if s.zoneStale v l then ⟨1000, was.temp, true, 3⟩
  else
    let t := max (s.zoneTemp v l) (s.zoneForecast v l) + 16
    ⟨trefwOf t, t, hotSet was.hot t, 0⟩

/-- The refresh state of a layer in force: the keeper's and the bands follow the comparators at every moment; in normal
service it is the one of the last update, and a layer that has just left the bands is computed anew (06 R228, R230,
R232). -/
def State.layerLive (s : State) (v l : Nat) : Layer :=
  let was := (s.vault v).layer l
  if (s.vault v).keeper || s.bandMode v || was.src == 1 || was.src == 2 then s.layerNow v l else was

/-- A bank's progress toward its next refresh is kept where its layer's tREFW changes: what has passed of the old interval
passes of the new one (06 R227, R229). -/
def Bank.rescale (b : Bank) (now old new : Nat) : Bank :=
  { b with refAt := 4096 * now - (4096 * now - b.refAt) * us new / us old }

/-- Stores the refresh state of a layer. -/
def State.putLayer (s : State) (v l : Nat) (y : Layer) : State :=
  let x := s.vault v
  let old := (x.layer l).trefw
  let z := if old = y.trefw then x
    else (List.range 16).foldl (fun x k => x.setBank (16 * l + k) ((x.bank (16 * l + k)).rescale s.now old y.trefw)) x
  s.setVault v { z with layers := SMap.put (fun _ => Layer.zero) l y z.layers }

/-- The layers of a vault take the refresh state that is in force. -/
def State.settleRates (s : State) (v : Nat) : State :=
  (List.range 8).foldl (fun s l =>
    let y := s.layerLive v l
    if y = (s.vault v).layer l then s else s.putLayer v l y) s

/-- Recomputes every layer of a vault. -/
def State.refreshRates (s : State) (v : Nat) : State := (List.range 8).foldl (fun s l => s.putLayer v l (s.layerNow v l)) s

/-- REFRESH_RATE_UPDATE (06 R228): every 100 microseconds. -/
def execRefreshRateUpdate (i : Site) (s : State) : Host.Outcome State Fault Refusal :=
  if s.now < (s.vault i).rateAt + us 100 then next s
  else
    let s := s.refreshRates i
    next (s.setVault i { s.vault i with rateAt := s.now })

/-- ZONE_TEMP_STALE (06 R229): 1 ms refresh and the hot set until fresh readings arrive. -/
def execZoneTempStale (i : Site) (layer : Fin 8) (s : State) : Host.Outcome State Fault Refusal :=
  let x := s.vault i
  if x.keeper || s.bandMode i || !s.zoneStale i layer then next s
  else next (s.putLayer i layer ⟨1000, (x.layer layer).temp, true, 3⟩)

/-- BAND_MODE_END (06 R230): 10 ms after a compute-only reset or a Storm. -/
def execBandModeEnd (i : Site) (s : State) : Host.Outcome State Fault Refusal :=
  let x := s.vault i
  if x.bandUntil = 0 ∨ s.now < x.bandUntil then next s
  else next ((s.setVault i { x with bandUntil := 0 }).refreshRates i)

/-! ## Refresh -/

/-- The layer that VLT_REFRESH shows: the hottest of those with the shortest tREFW, the lowest on a tie (06 R250). -/
def hottestLayer (ls : List Layer) : Nat :=
  (List.range ls.length).foldl (fun m l =>
    let a := ls.getD l Layer.zero
    let b := ls.getD m Layer.zero
    if a.trefw < b.trefw || (a.trefw == b.trefw && decide (b.temp < a.temp)) then l else m) 0

/-- Refreshes n rows of a bank in turn; a retired row is skipped, and a row that is refreshed closes the open one
(06 R227, R247). -/
def Vault.refreshRows (x : Vault) (bank : Nat) : Nat → Bank → Bank
  | 0, b => b
  | k + 1, b =>
    let gone := x.retired.contains (4096 * bank + b.refPtr)
    x.refreshRows bank k { b with
      refPtr := (b.refPtr + 1) % 4096, openRow := if gone then b.openRow else none }

/-- A refresh falls due when a fraction 1/4,096 of tREFW has passed since the last fell due, in 1/4,096 of a tick
(06 R227). -/
def Vault.refreshTime (x : Vault) (b : Nat) : Nat := (x.bank b).refAt + us (x.layer (b / 16)).trefw

/-- Is a refresh of a bank due (06 R227)? -/
def State.refreshDue (s : State) (v b : Nat) : Bool := decide ((s.vault v).refreshTime b ≤ s.now * 4096)

/-- The owed refreshes of a bank are issued, and n that have fallen due (06 R227, R231). Whole passes over the bank's rows
change nothing but its open row. -/
def Vault.refreshBank (x : Vault) (b n : Nat) : Vault :=
  let y := x.bank b
  let k := y.debt + n
  let z := x.refreshRows b (if k < 8192 then k else 4096 + k % 4096) y
  x.setBank b { z with debt := 0, refAt := y.refAt + n * us (x.layer (b / 16)).trefw }

/-- Refreshes of a bank that have fallen due and are not issued (06 R227). -/
def State.duesOf (s : State) (v b : Nat) : Nat :=
  let x := s.vault v
  if s.refreshDue v b then (s.now * 4096 - x.refreshTime b) / us (x.layer (b / 16)).trefw + 1 else 0

/-- REFRESH (06 R227, R231): behind a bank-unit command it becomes debt. -/
def execRefresh (i : Site) (bank : Fin 128) (s : State) : Host.Outcome State Fault Refusal :=
  if (s.vault i).keeper then next s
  else
    let s := s.settleRates i
    let x := s.vault i
    if !s.refreshDue i bank then next s
    else if x.busyBank bank then
      let b := x.bank bank
      next (s.setVault i (x.setBank bank { b with debt := Nat.min debtMax (b.debt + 1), refAt := x.refreshTime bank }))
    else next (s.setVault i (x.refreshBank bank 1))

/-- KEEPER_REFRESH (06 R232): the keeper goes on from the bank's pointer and debt. -/
def execKeeperRefresh (i : Site) (bank : Fin 128) (s : State) : Host.Outcome State Fault Refusal :=
  if !(s.vault i).keeper then next s
  else
    let s := s.settleRates i
    let x := s.vault i
    if !s.refreshDue i bank || x.busyBank bank then next s else next (s.setVault i (x.refreshBank bank 1))

/-! ## Initialisation -/

/-- Vaults of a tower that may fill at once (07 R268). -/
def fillTokens : Nat := 64

/-- Vaults of a tower that hold a fill token. -/
def State.filling (s : State) (t : Nat) : Nat :=
  ((List.range 576).filter (fun k => s.on (Reg.bkuStatus_fill_token (576 * t + k)))).length

/-- Does a vault of a tower wait for a fill token? -/
def State.fillWaits (s : State) (t : Nat) : Bool := (List.range 576).any (fun k => s.on (Reg.bkuStatus_fill_waiting (576 * t + k)))

/-- VLT_INIT (06 R242, 07 R268): while another vault of the tower waits for a token, a free one is not for this. -/
def execVltInit (i : Site) (s : State) : Host.Outcome State Fault Refusal :=
  let st := s.vaultState i
  if st = vsInitBusy ∨ st = vsRetired then next s
  else
    let s := s.setF (Reg.vltStatus_state i) vsInitBusy
    if s.filling (towerOf i) < fillTokens && !s.fillWaits (towerOf i) then next (s.setF (Reg.bkuStatus_fill_token i) 1)
    else next (s.setF (Reg.bkuStatus_fill_waiting i) 1)

/-- FILL_TOKEN_GRANT (07 R268): the waiting vault with the lowest index takes a free token. -/
def execFillTokenGrant (t : Tower) (s : State) : Host.Outcome State Fault Refusal :=
  match (List.range 576).find? (fun k => s.on (Reg.bkuStatus_fill_waiting (576 * t.val + k))) with
  | none => next s
  | some k =>
    if fillTokens ≤ s.filling t then next s
    else
      let v := 576 * t.val + k
      next ((s.setF (Reg.bkuStatus_fill_waiting v) 0).setF (Reg.bkuStatus_fill_token v) 1)

/-- Answers every write whose merge is outstanding. -/
def State.mergeAll (s : State) (v : Nat) : State :=
  (((s.vault v).wbuf.filterMap WEntry.merge).eraseDups).foldl (fun s g => s.mergeGroup v g) s

/-- Rows of a vault. -/
def vaultRows : Nat := 524288

/-- A fill of a vault counts each row that is not retired as one activate, and as one one-row fill command of its bank's
unit (06 R250, 07 R265, R279). -/
def State.fillCounts (s : State) (v : Nat) : State :=
  let x := s.vault v
  let s := s.incWrap (Reg.vltCntAct_activates v) (vaultRows - x.retired.length)
  s.incWrap (Reg.bkuCntBusy_unit_cycles v) ((List.range 8).foldl (fun n l =>
    n + (if (s.layerLive v l).hot then 23 else 19) * (vaultRows / 8 - (x.retired.filter (fun r => r / 65536 == l)).length)) 0)

/-- The fill of a vault ends: every word of every row not retired holds the pattern, watches are told, and the waiting
requests are served in arrival order (06 R242, 07 R273). Each row was one one-row fill command of its bank's unit
(R250, 07 R265, R279). -/
def State.fillDone (s : State) (v : Nat) : State :=
  let s := s.mergeAll v
  let x := s.vault v
  let pat := BitVec.ofNat 64 (s.getF (Reg.vltInitPattern_pattern v))
  let s := s.setVault v ({ x with bg := some pat, mem := [] }.setBuf [])
  let s := s.fillCounts v
  let s := s.setF (Reg.vltStatus_state v) vsInService
  let s := s.setF (Reg.bkuStatus_fill_token v) 0
  let s := ((x.watches.map (fun w => w.off / 64 * 64)).eraseDups).foldl (fun s g => s.notify v g 64) s
  s.openPort v

/-- INIT_FILL_DONE (06 R242): commands that a bank unit had begun end first. -/
def execInitFillDone (i : Site) (s : State) : Host.Outcome State Fault Refusal :=
  if s.vaultState i = vsInitBusy && s.on (Reg.bkuStatus_fill_token i) && (s.vault i).running.isEmpty then
    next (s.fillDone i)
  else next s

/-! ## Scrub -/

/-- SCRUB_START (06 R244, R245). -/
def execScrubStart (i : Site) (s : State) : Host.Outcome State Fault Refusal :=
  let base := s.getF (Reg.vltScrubBase_base i) * 128
  let len := s.getF (Reg.vltScrubLen_len i) * 128
  if s.on (Reg.vltStatus_scrub_busy i) then next s
  else if len = 0 ∨ vaultSize < base + len then
    next ((s.setF (Reg.vltStatus_scrub_done i) 1).setF (Reg.vltStatus_scrub_refused i) 1)
  else
    next ((s.setVault i { s.vault i with scrubAt := base, scrubEnd := base + len, scrubStop := false }).setF
      (Reg.vltStatus_scrub_busy i) 1)

/-- SCRUB_ABORT (06 R245): the scrub stops after its current granule. -/
def execScrubAbort (i : Site) (s : State) : Host.Outcome State Fault Refusal :=
  if s.on (Reg.vltStatus_scrub_busy i) then next (s.setVault i { s.vault i with scrubStop := true }) else next s

/-- What the scrubber does with one word, as later reads see it (06 R217, R244). -/
def State.scrubWord (s : State) (v off : Nat) : State :=
  let p := physAddr (s.frameBase v) off
  let x := s.vault v
  let d := (EccMem.word (wordDefault v x) (x.seen v) (p / 8)).decode
  let s := s.noteWord v off p d
  let x := s.vault v
  match d.kind with
  | .clean => s
  | .poisoned => s
  | .corrected => s.setVault v { x with mem := SMap.put (wordDefault v x) (p / 8) (.enc d.data) x.mem }
  | .uncorrectable => s.setVault v { x with mem := SMap.put (wordDefault v x) (p / 8) .mark x.mem }

/-- SCRUB_GRANULE (06 R244, R245): one granule in one step; retired rows are skipped; the scrub ends at the end of its
range, or when it was told to stop. -/
def execScrubGranule (i : Site) (s : State) : Host.Outcome State Fault Refusal :=
  let x := s.vault i
  let p := physAddr (s.frameBase i) x.scrubAt
  if !s.on (Reg.vltStatus_scrub_busy i) || !s.portOpen i || x.busyBank (bankOf p) then next s
  else
    let gone := s.vaultState i == vsRetired || x.retired.contains (rowOf p)
    let s := if gone then s
      else
        let s := (s.arbitrate i .scrub false x.scrubAt 64).touchRow i p
        let s := s.incWrap (Reg.vltCntRd_bytes i) 4
        (List.range 8).foldl (fun s k => s.scrubWord i (x.scrubAt + 8 * k)) s
    let x := s.vault i
    let at_ := x.scrubAt + 64
    let s := s.setVault i { x with scrubAt := at_, scrubStop := false }
    if x.scrubEnd ≤ at_ then next ((s.setF (Reg.vltStatus_scrub_busy i) 0).setF (Reg.vltStatus_scrub_done i) 1)
    else if x.scrubStop then next (s.setF (Reg.vltStatus_scrub_busy i) 0)
    else next s

/-! ## Hold and map -/

/-- VLT_HOLD (06 R213): releasing serves what waits, in arrival order, and clears held. -/
def execVltHold (i : Site) (b : Bool) (s : State) : Host.Outcome State Fault Refusal :=
  if b then next (s.setF (Reg.vltCtrl_hold i) 1)
  else next (((s.setF (Reg.vltCtrl_hold i) 0).setF (Reg.vltStatus_held i) 0).openPort i)

/-- Is everything a vault accepted done (06 R213, 07 R274)? -/
def State.vaultQuiet (s : State) (v : Nat) : Bool :=
  let x := s.vault v
  x.wbuf.isEmpty && x.running.isEmpty && x.results.isEmpty && x.raw != some true && !x.waiting.any VWait.acc

/-- VAULT_HELD (06 R213). -/
def execVaultHeld (i : Site) (s : State) : Host.Outcome State Fault Refusal :=
  if s.on (Reg.vltCtrl_hold i) && s.vaultQuiet i then next (s.setF (Reg.vltStatus_held i) 1) else next s

/-- VLT_MAP_WRITE (06 R212): only while held; values above 32 are stored as 32. No data moves. -/
def execVltMapWrite (i : Site) (v : BitVec 32) (s : State) : Host.Outcome State Fault Refusal :=
  if s.on (Reg.vltStatus_held i) then next (s.setF (Reg.vltMap_frame_base i) (Nat.min 32 (bits v.toNat 5 0))) else next s

/-! ## Retirement and raw access -/

/-- VLT_RETIRE (06 R246): the row that the 1 KiB block maps to now. -/
def execVltRetire (i : Site) (v : BitVec 32) (s : State) : Host.Outcome State Fault Refusal :=
  next (s.retireRow i (rowOf (physAddr (s.frameBase i) (bits v.toNat 28 10 * 1024))))

/-- RETIRE_VAULT (06 R248). -/
def execRetireVault (i : Site) (s : State) : Host.Outcome State Fault Refusal := next (s.retireVault i)

/-- RAW_ACCESS (06 R243): a write of VLT_RAW_CTRL; go clears done, and is ignored while test_enable is 0. -/
def execRawAccess (i : Site) (v : BitVec 32) (s : State) : Host.Outcome State Fault Refusal :=
  let n := v.toNat
  if (s.vault i).raw.isSome then next s
  else
    let s := (s.setF (Reg.vltRawCtrl_addr i) (bits n 28 3)).setF (Reg.vltRawCtrl_write i) (bits n 29 29)
    if bit n 30 && s.on (Reg.vltCtrl_test_enable i) then
      next ((s.setVault i { s.vault i with raw := some (s.portOpen i) }).setF (Reg.vltRawCtrl_done i) 0)
    else next s

/-- RAW_ACCESS_DONE (06 R243): the stored 72 bits, without correction, counting or records. A retired row keeps
nothing and reads as the mark. A raw access that began while the port was shut waits for it (R213, R242). -/
def execRawAccessDone (i : Site) (s : State) : Host.Outcome State Fault Refusal :=
  let x := s.vault i
  let p := physAddr (s.frameBase i) (s.getF (Reg.vltRawCtrl_addr i) * 8)
  let open_ := s.portOpen i || (x.raw == some true && s.vaultState i != vsInitBusy)
  if x.raw.isNone || !open_ || x.blocked (bankOf p) then next s
  else
    let s := (s.arbitrate i .scrub true (s.getF (Reg.vltRawCtrl_addr i) * 8) 8).drainBank i (bankOf p)
    let gone := s.vaultState i == vsRetired || x.retired.contains (rowOf p)
    let s := if gone then s else s.touchRow i p
    let x := { s.vault i with raw := none }
    let s := if s.on (Reg.vltRawCtrl_write i) then
        let w : Codeword := ⟨BitVec.ofNat 64 (s.getF (Reg.vltRawData_data i)), BitVec.ofNat 8 (s.getF (Reg.vltRawCheck_check i))⟩
        s.setVault i (if gone then x else { x with mem := SMap.put (wordDefault i x) (p / 8) w x.mem })
      else
        let w := if gone then Codeword.mark else EccMem.word (wordDefault i x) x.mem (p / 8)
        ((s.setVault i x).setF (Reg.vltRawData_data i) w.d.toNat).setF (Reg.vltRawCheck_check i) w.c.toNat
    next (s.setF (Reg.vltRawCtrl_done i) 1)

end Sys2Proof.Machine
end

