-- ==== Sys2Proof/Machine/Bkd.lean ====
section
/-!
DEFINITION. Bank units (chapter 07): the BKD instructions, their refusals and their queue (R253 to R264), and what a
unit computes (R255 to R263, R275, R276).
-/
namespace Sys2Proof.Machine

/-! ## Operands -/

/-- Physical rows a range of a vault touches. -/
def rowsOf (base off n : Nat) : List Nat := (cutAt 1024 off n).map (fun c => rowOf (physAddr base c.1))

/-- The bank that holds every given row, if one does (07 R254). -/
def oneBank (rows : List Nat) : Option Nat :=
  match rows with
  | [] => none
  | r :: rs => if rs.all (fun x => x / 4096 == r / 4096) then some (r / 4096) else none

/-- Does a ground range lie in the vault (01 R36)? -/
def Opnd.inGround (o : Opnd) (n : Nat) : Bool := o.space == spGround && decide (o.ea + n ≤ vaultSize)

/-- Commands that BKD and the vault's queue hold together: 8 (02 R67) and 16 (07 R266). -/
def bkuDepth : Nat := 24

/-- Commands of the vault's queue (07 R266). -/
def bkuQueue : Nat := 16

/-- BKU_STATUS shows the queue, the busy units and the results (07 R279). -/
def State.bkuShow (s : State) (v : Nat) : State :=
  let x := s.vault v
  let act := x.running.foldl (fun n c => n + c.units.length) 0
  let s := s.setF (Reg.bkuStatus_active v) (Nat.min 63 act)
  let s := s.setF (Reg.bkuStatus_queued v) (Nat.min bkuQueue x.queue.length)
  s.setF (Reg.bkuStatus_results_pending v) (b2n (!x.results.isEmpty))

/-- The scratchpad range a command's results go to (07 R261, R262). -/
def bkuDests (op : BkuOp) : List (Nat × Nat) :=
  match op with
  | .score _ _ _ count _ _ _ dst => [(dst, 4 * count)]
  | .acc _ _ _ _ _ n _ _ dst => [(dst, 4 * n)]
  | _ => []

/-- A command as it enters a vault's queue. -/
def BkuCmd.of (op : BkuOp) (itag job : Nat) (units : List Nat) (kvx : Option (Nat × Nat)) : BkuCmd :=
  { op := op, itag := itag, job := job, kvx := kvx, units := units, cycles := 0, uncounted := 0, ends := 0, status := stOk
    writes := [], result := [] }

/-- Queues a command of a core (07 R264 to R266). `spans` are the ranges of the vault it touches: it is refused when the
vault, or a row it touches, is retired, and the address recorded is that of the first such range (06 R247). -/
def State.queueBku (s : State) (i itag opc : Nat) (spans : List (Nat × Nat)) (units : List Nat) (op : BkuOp) :
    Option (State × Done) :=
  let x := s.vault i
  let gone := fun (r : Nat × Nat) =>
    s.vaultState i == vsRetired || (rowsOf (s.frameBase i) r.1 r.2).any x.retired.contains
  if s.vaultState i = vsRetired ∨ spans.any gone then
    some (s, Done.at_ stMemRetired spGround ((spans.find? gone).map Prod.fst |>.getD 0))
  else if bkuDepth ≤ x.queue.length then none
  else
    let id := s.newJob
    let s := s.addJob { Job.start id i 4 opc itag with left := 1, dests := bkuDests op }
    some ((s.setVault i { x with queue := x.queue ++ [BkuCmd.of op itag id units none] }).bkuShow i, Done.of stOk)

/-- A BKD instruction: the licence, then its checks, then the queue. -/
def State.bkd (s : State) (i : Nat) (w : BitVec 128) (op : Nat) (licence : Bool) (act : Nat → Act) : State :=
  s.issue i w 4 [op] (fun s =>
    if licence && !s.licensed licBku then refuse s stLicenceAbsent else act w.toNat s)

/-! ## FILL, COPY, GATHER, QLD -/

/-- BKD FILL (07 R255). -/
def execBkdFill (i : Site) (w : BitVec 128) (s : State) : Host.Outcome State Fault Refusal :=
  next (s.bkd i w 0x00 false (fun n s =>
    let o := (s.core i).opnd (bits n 35 32) (sbits n 59 36)
    let r := bits n 63 60
    let rows := rowsOf (s.frameBase i) o.ea (1024 * r)
    match oneBank rows with
    | some b =>
      if r = 0 ∨ 11 < r ∨ o.ea % 1024 ≠ 0 ∨ !o.inGround (1024 * r) then refuse s stBadParam
      else s.queueBku i (iTag n) 0 [(o.ea, 1024 * r)] [b] (.fill (physAddr (s.frameBase i) o.ea) r (BitVec.ofNat 64 (bits n 127 64)))
    | none => refuse s stBadParam))

/-- BKD COPY (07 R256). -/
def execBkdCopy (i : Site) (w : BitVec 128) (s : State) : Host.Outcome State Fault Refusal :=
  next (s.bkd i w 0x01 false (fun n s =>
    let c := s.core i
    let d := c.opnd (bits n 35 32) (sbits n 63 40)
    let o := c.opnd (bits n 39 36) (sbits n 87 64)
    let r := bits n 90 88
    let base := s.frameBase i
    let rows := rowsOf base d.ea (1024 * r) ++ rowsOf base o.ea (1024 * r)
    match oneBank rows with
    | some b =>
      if bits n 127 91 ≠ 0 ∨ r = 0 ∨ 6 < r ∨ d.ea % 1024 ≠ 0 ∨ o.ea % 1024 ≠ 0 ∨ !d.inGround (1024 * r) ∨
          !o.inGround (1024 * r) ∨ (d.ea < o.ea + 1024 * r ∧ o.ea < d.ea + 1024 * r) then refuse s stBadParam
      else s.queueBku i (iTag n) 1 [(d.ea, 1024 * r), (o.ea, 1024 * r)] [b] (.copy (physAddr base d.ea) (physAddr base o.ea) r)
    | none => refuse s stBadParam))

/-- An entry of a GATHER list: its source offset and bytes; none where it is malformed (07 R257). -/
def gatherItem (e : Nat) : Option (Nat × Nat) :=
  let off := bits e 23 0 * 32
  let n := bits e 29 24 * 32
  if bits e 31 30 ≠ 0 ∨ n = 0 ∨ 1024 < n ∨ 1024 < off % 1024 + n then none else some (off, n)

/-- BKD GATHER (07 R257): the list is read as it issues. -/
def execBkdGather (i : Site) (w : BitVec 128) (s : State) : Host.Outcome State Fault Refusal :=
  next (s.bkd i w 0x02 true (fun n s =>
    let c := s.core i
    let d := c.opnd (bits n 35 32) (sbits n 59 36)
    let l := c.opnd (bits n 63 60) (sbits n 83 64)
    let m := bits n 87 84
    if bits n 127 88 ≠ 0 ∨ m = 0 ∨ 13 < m ∨ l.ea % 4 ≠ 0 ∨ !l.inScratch (4 * m) ∨ d.ea % 32 ≠ 0 ∨ !d.inGround 32 then
      refuse s stBadParam
    else
      let q := s.readScratch i l.ea (4 * m)
      let es := (List.range m).map (fun k => slice q.2 (4 * k) 4)
      match findIdx anyPoison es 0 with
      | some (k, _) => some (q.1, Done.halt stPoisoned spScratch (l.ea + 4 * k))
      | none =>
        let items := es.map (fun e => gatherItem (leP e))
        let its := items.filterMap id
        let total := its.foldl (fun a e => a + e.2) 0
        let base := s.frameBase i
        let rows := rowsOf base d.ea 1 ++ its.flatMap (fun e => rowsOf base e.1 e.2)
        match oneBank rows with
        | some b =>
          if items.any Option.isNone ∨ 1024 < d.ea % 1024 + total then refuse s stBadParam
          else q.1.queueBku i (iTag n) 2 ((d.ea, 1) :: its) [b]
            (.gather (physAddr base d.ea) (its.map (fun e => (physAddr base e.1, e.2))))
        | none => refuse s stBadParam))

/-- The units whose layer and bank bits are set (07 R258). -/
def unitsOf (layers banks : Nat) : List Nat :=
  (List.range 128).filter (fun u => bit layers (u / 16) && bit banks (u % 16))

/-- QLD (07 R258). -/
def execQld (i : Site) (w : BitVec 128) (s : State) : Host.Outcome State Fault Refusal :=
  next (s.bkd i w 0x08 true (fun n s =>
    let o := (s.core i).opnd (bits n 35 32) (sbits n 55 36)
    let k := bits n 66 57
    let us := unitsOf (bits n 91 84) (bits n 83 68)
    if bit n 67 ∨ bits n 127 92 ≠ 0 ∨ k = 0 ∨ 512 < k ∨ us.isEmpty ∨ o.ea % 8 ≠ 0 ∨ !o.inScratch (2 * k) then
      refuse s stBadParam
    else
      let q := s.readScratch i o.ea (2 * k)
      q.1.queueBku i (iTag n) 8 [] us (.qld (bits n 56 56) k us q.2)))

/-! ## SCORE and ACC -/

/-- The operands of R259. -/
structure ScoreF where
  m : Opnd
  d : Opnd
  fmt : Nat
  slot : Nat
  count : Nat
  e0 : Nat
  n : Nat
  recBytes : Nat
  woff : Nat
  deriving DecidableEq, Repr

/-- The operands of R259 from a word. -/
def scoreF (c : Core) (w : Nat) : ScoreF :=
  { m := c.opnd (bits w 35 32) (sbits w 55 36), d := c.opnd (bits w 59 56) (sbits w 75 60), fmt := bits w 79 76
    slot := bits w 80 80, count := bits w 85 81, e0 := bits w 94 86, n := bits w 104 95, recBytes := bits w 114 105
    woff := bits w 123 115 }

/-- Elements a record holds (07 R260). -/
def recElems (fmt recBytes : Nat) : Nat := if fmt = 14 then 8 * (recBytes - 1) / 10 else recBytes

/-- Does a QLD in the queue or running load a latch? Commands to one bank take effect in order (07 R269). -/
def qldAhead (x : Vault) (unit slot : Nat) : Bool :=
  (x.queue ++ x.running).any (fun c =>
    match c.op with
    | .qld sl _ us _ => sl == slot && us.contains unit
    | _ => false)

/-- The refusals SCORE and ACC share, but for the destination's length and woff (07 R259, R260, R264). -/
def ScoreF.ok (f : ScoreF) (w : Nat) : Bool :=
  bits w 127 124 == 0 && (f.fmt == 3 || f.fmt == 4 || f.fmt == 14) && decide (1 ≤ f.count) && decide (f.count ≤ 30) &&
  decide (1 ≤ f.n) && decide (f.n ≤ 512) && decide (1 ≤ f.recBytes) && decide (f.recBytes ≤ 512) &&
  decide (f.e0 + f.n ≤ recElems f.fmt f.recBytes) && f.m.ea % 512 == 0 && f.m.inGround (512 * f.count) &&
  decide (f.m.ea % 1024 + 512 * f.count ≤ 15 * 1024) && f.d.ea % 8 == 0

/-- A SCORE or ACC that passed its checks goes to the queue. -/
def ScoreF.run (f : ScoreF) (i itag opc : Nat) (mk : Nat → BkuOp) : Act := fun s =>
  let base := s.frameBase i
  let x := s.vault i
  let rows := rowsOf base f.m.ea (512 * (f.count - 1) + f.recBytes)
  match oneBank rows with
  | some b =>
    if !x.latchValid.contains (2 * b + f.slot) && !qldAhead x b f.slot then refuse s stBadParam
    else s.queueBku i itag opc [(f.m.ea, 512 * (f.count - 1) + f.recBytes)] [b] (mk (physAddr base f.m.ea))
  | none => refuse s stBadParam

/-- BKD SCORE (07 R261). -/
def execBkdScore (i : Site) (w : BitVec 128) (s : State) : Host.Outcome State Fault Refusal :=
  next (s.bkd i w 0x09 true (fun n s =>
    let f := scoreF (s.core i) n
    if !f.ok n || f.woff != 0 || !f.d.inScratch (4 * f.count) then refuse s stBadParam
    else f.run i (iTag n) 9 (fun p => .score p f.fmt f.slot f.count f.e0 f.n f.recBytes f.d.ea) s))

/-- BKD ACC (07 R262). -/
def execBkdAcc (i : Site) (w : BitVec 128) (s : State) : Host.Outcome State Fault Refusal :=
  next (s.bkd i w 0x0A true (fun n s =>
    let f := scoreF (s.core i) n
    if !f.ok n || decide (512 < f.woff + f.count) || !f.d.inScratch (4 * f.n) then refuse s stBadParam
    else f.run i (iTag n) 10 (fun p => .acc p f.fmt f.slot f.count f.e0 f.n f.recBytes f.woff f.d.ea) s))

/-! ## What a unit computes -/

/-- Reads bytes of a bank at a physical address, word by word: counted as controller reads are, an uncorrectable word
reported by the unit (07 R275); with `inject`, the first word decodes as uncorrectable (R277). -/
def State.readBank (s : State) (v p n : Nat) (inject : Bool) : State × List PByte :=
  let x := s.vault v
  let base := s.frameBase v
  let ws := (List.range ((p + n - 1) / 8 - p / 8 + 1)).map (fun k =>
    let q := (p / 8 + k) * 8
    let d := (EccMem.word (wordDefault v x) x.mem (q / 8)).decode
    let d := if inject && k == 0 then { d with kind := WordKind.uncorrectable } else d
    (q, if x.retired.contains (rowOf q) then { d with kind := WordKind.poisoned } else d))
  let s := ws.foldl (fun s w =>
    match w.2.kind with
    | .clean => s
    | .corrected => s.noteWord v (offsetOf base w.1) w.1 w.2
    | .poisoned => s.noteWord v (offsetOf base w.1) w.1 w.2
    | .uncorrectable =>
      let s := (s.incSat (Reg.vltEccCnt_uncorrectable v) 1).eccFirst v (offsetOf base w.1) 1 w.2
      s.record (mkRecord s 2 1 v stPoisoned 4 (offsetOf base w.1) (w.2.s + w.2.p * 128))) s
  let bytes := ws.flatMap (fun w =>
    if w.2.kind.bad then List.replicate 8 ((0 : Byte), true) else (List.range 8).map (fun k => (byteOf w.2.data k, false)))
  (s, slice bytes (p % 8) n)

/-- A value with its poison. -/
abbrev PVal := Val × Bool

/-- The elements e0 to e0 + n - 1 of a record (07 R260): a bias byte in poison poisons them all. -/
def recVals (fmt e0 n : Nat) (bytes : List PByte) : List PVal :=
  let f := Fmt.ofCode fmt
  let wd := f.width
  let bias := bytes.getLast?.getD (0, false)
  let run := leP bytes
  (List.range n).map (fun k =>
    let b := wd * (e0 + k)
    let v := valOf f (bits run (b + wd - 1) b)
    let bad := anyPoison (slice bytes (b / 8) ((b + wd - 1) / 8 + 1 - b / 8))
    if fmt = 14 then (v.scale (sext 8 bias.1.toNat), bad || bias.2) else (v, bad))

/-- The latch elements of a unit's slot as values (07 R251). -/
def Vault.latchVals (x : Vault) (unit slot : Nat) : List PVal :=
  (SMap.get (fun _ => []) x.latches (2 * unit + slot)).map (fun e => (valF .bfloat16 e.1.toNat, e.2))

/-- A score: exact sums of groups of 32, each added with one rounding (07 R261). -/
def scoreSum : Nat → List Val → Nat → Nat
  | 0, _, acc => acc
  | k + 1, ps, acc =>
    if ps.isEmpty then acc
    else scoreSum k (ps.drop 32) (toB32 ((ofB32 acc).add ((ps.take 32).foldl Val.add .zero)))

/-- The score of a record (07 R261, R276). -/
def scoreOf (q v : List PVal) : Nat × Bool :=
  let ps := List.zipWith (fun (a b : PVal) => (a.1.mul b.1, a.2 || b.2)) q v
  (scoreSum (ps.length / 32 + 1) (ps.map Prod.fst) 0, ps.any Prod.snd)

/-- The weighted sum of one element over the records (07 R262, R276). -/
def accOf (ws vs : List PVal) : Nat × Bool :=
  let ps := List.zipWith (fun (a b : PVal) => (a.1.mul b.1, a.2 || b.2)) ws vs
  (ps.foldl (fun acc p => toB32 ((ofB32 acc).add p.1)) 0, ps.any Prod.snd)

/-- What a granted command yields: writes at physical addresses, result bytes and status. -/
structure BkuOut where
  s : State
  writes : List (Nat × List PByte)
  result : List PByte
  status : Nat
  deriving DecidableEq, Repr

/-- A source word that carries poison marks each destination word that receives any of its bytes (07 R276); the
destination's other bytes stay. -/
def copyStatus (data : List PByte) : Nat := if anyPoison data then stPoisoned else stOk

/-- Results as bytes: a poisoned one poisons its word. -/
def resultBytes (rs : List (Nat × Bool)) : List PByte :=
  rs.flatMap (fun r => (toLE 4 r.1).map (fun b => (b, r.2)))

/-- The records of a SCORE or ACC, read in order. -/
def State.readRecs (s : State) (v p count recBytes : Nat) (inject : Bool) : State × List (List PByte) :=
  (List.range count).foldl (fun x r =>
    let y := x.1.readBank v (p + 512 * r) recBytes (inject && r == 0)
    (y.1, x.2 ++ [y.2])) (s, [])

/-- The work of a granted command (07 R255 to R262). -/
def State.bkuWork (s : State) (v : Nat) (c : BkuCmd) (inject : Bool) : BkuOut :=
  match c.op with
  | .fill a rows pat =>
    ⟨s, [(a, (List.range (128 * rows)).flatMap (fun _ => clean (toLE 8 pat.toNat)))], [], stOk⟩
  | .copy d a rows =>
    let r := s.readBank v a (1024 * rows) inject
    ⟨r.1, [(d, r.2)], [], copyStatus r.2⟩
  | .gather d items =>
    let r := items.foldl (fun (x : State × List PByte × Bool) it =>
      let y := x.1.readBank v it.1 it.2 x.2.2
      (y.1, x.2.1 ++ y.2, false)) (s, [], inject)
    ⟨r.1, [(d, r.2.1)], [], copyStatus r.2.1⟩
  | .qld _ _ _ data => ⟨s, [], [], copyStatus data⟩
  | .score p fmt slot count e0 n recBytes _ =>
    let r := s.readRecs v p count recBytes inject
    let q := ((s.vault v).latchVals (bankOf p) slot).take n
    let rs := r.2.map (fun b => scoreOf q (recVals fmt e0 n b))
    ⟨r.1, [], resultBytes rs, if rs.any Prod.snd then stPoisoned else stOk⟩
  | .acc p fmt slot count e0 n recBytes woff _ =>
    let r := s.readRecs v p count recBytes inject
    let ws := slice ((s.vault v).latchVals (bankOf p) slot) woff count
    let recs := r.2.map (fun b => recVals fmt e0 n b)
    let rs := (List.range n).map (fun k => accOf ws (recs.map (fun x => x.getD k (Val.zero, false))))
    let bias := fmt = 14 ∧ r.2.any (fun b => (b.getLast?.getD (0, false)).2)
    let rs := if bias ∨ ws.any Prod.snd then rs.map (fun x => (x.1, true)) else rs
    ⟨r.1, [], resultBytes rs, if rs.any Prod.snd then stPoisoned else stOk⟩

/-- Row steps of a command, each an activate (06 R250, 07 R265). -/
def bkuSteps (op : BkuOp) : Nat :=
  match op with
  | .fill _ r _ => r
  | .copy _ _ r => 2 * r
  | .gather _ items => items.length + 1
  | .qld _ _ _ _ => 0
  | .score p _ _ count _ _ recBytes _ => (cutAt 1024 p (512 * (count - 1) + recBytes)).length
  | .acc p _ _ count _ _ recBytes _ _ => (cutAt 1024 p (512 * (count - 1) + recBytes)).length

/-- A command's duration in vault cycles (07 R265). -/
def bkuCycles (op : BkuOp) (hot : Bool) : Nat :=
  match op with
  | .fill _ r _ => 1 + (if hot then 22 else 18) * r
  | .copy _ _ r => 1 + (if hot then 39 else 34) * r
  | .gather _ items => if hot then 23 + 17 * items.length else 19 + 16 * items.length
  | .qld _ n _ _ => ceilDiv (2 * n) 64
  | .score _ _ _ _ _ _ _ _ => 1 + (if hot then 17 else 16) * bkuSteps op
  | .acc _ _ _ _ _ _ _ _ _ => 1 + (if hot then 17 else 16) * bkuSteps op

/-- Bytes of results a command leaves in the result buffer (07 R265). -/
def bkuResultBytes (op : BkuOp) : Nat :=
  match op with
  | .score _ _ _ count _ _ _ _ => 4 * count
  | .acc _ _ _ _ _ n _ _ _ => 4 * n
  | _ => 0

/-- The ranges of the vault that a command touches, by physical address. -/
def bkuSpans (op : BkuOp) : List (Nat × Nat) :=
  match op with
  | .fill a rows _ => [(a, 1024 * rows)]
  | .copy d a rows => [(d, 1024 * rows), (a, 1024 * rows)]
  | .gather d items => (d, 1) :: items
  | .qld _ _ _ _ => []
  | .score p _ _ count _ _ recBytes _ => [(p, 512 * (count - 1) + recBytes)]
  | .acc p _ _ count _ _ recBytes _ _ => [(p, 512 * (count - 1) + recBytes)]

/-- Does a command read no vault word (07 R277)? -/
def readsNoWord (op : BkuOp) : Bool :=
  match op with
  | .fill _ _ _ => true
  | .qld _ _ _ _ => true
  | _ => false

end Sys2Proof.Machine
end

