-- ==== Sys2Proof/Machine/Kvx.lean ====
section
/-!
DEFINITION. The key-value agent (chapter 08): stream blocks and page-layers (R280 to R288), FETCH (R298, R299), SCORE
and ACC in the bank units (R301 to R304), and APPEND with its frame pool (R289 to R291, R312, R313).
-/
namespace Sys2Proof.Machine

/-! ## Operands -/

/-- Pitch of a row of 2 B elements (08 R295). -/
def p2 (k : Nat) : Nat := 8 * ceilDiv (2 * k) 8
/-- Pitch of a row of 4 B elements. -/
def p4 (k : Nat) : Nat := 8 * ceilDiv (4 * k) 8

/-- The fields of both forms (08 R294). `dClear` and `xClear`: generator and displacement are 0. -/
structure KvxF where
  b : Opnd
  d : Opnd
  x : Opnd
  dClear : Bool
  xClear : Bool
  g : Nat
  first : Bool
  len : Nat
  top : Nat
  deriving DecidableEq, Repr

/-- The operands that the generators of a word give, as its queue keeps them. -/
def kvxOps (c : Core) (n : Nat) : List (Nat × Nat × Nat) :=
  [c.opnd (bits n 35 32) (sbits n 51 36), c.opnd (bits n 55 52) (sbits n 75 56), c.opnd (bits n 79 76) (sbits n 99 80)].map
    (fun o => (o.space, o.base, o.ea))

/-- The fields from a word and its operands. -/
def kvxF (n : Nat) (ops : List (Nat × Nat × Nat)) : KvxF :=
  { b := opAt ops 0, d := opAt ops 1, x := opAt ops 2, dClear := bits n 75 52 == 0, xClear := bits n 99 76 == 0
    g := bits n 103 100 + 1, first := bit n 104, len := bits n 117 105, top := bits n 127 118 }

/-- An operand in the scratchpad, 8 B aligned, of n bytes (08 R294, R297). -/
def Opnd.kvx (o : Opnd) (n : Nat) : Bool := o.inScratch n && o.ea % 8 == 0

/-- A stream block (08 R295). -/
structure StreamBlk where
  window : Nat
  streams : Nat
  layer : Nat
  fmt : Nat
  recBytes : Nat
  e0 : Nat
  n : Nat
  t0 : Nat
  nt : Nat
  pool : Nat
  rsv : Bool
  deriving DecidableEq, Repr

/-- The block from its 32 bytes. -/
def StreamBlk.parse (b : List Byte) : StreamBlk :=
  let s := fieldLE b 1 1
  { window := fieldLE b 0 1, streams := if s = 0 then 256 else s, layer := fieldLE b 2 1, fmt := fieldLE b 3 1 % 16
    recBytes := fieldLE b 4 2, e0 := fieldLE b 6 2, n := fieldLE b 8 2, t0 := fieldLE b 12 4, nt := fieldLE b 16 4
    pool := fieldLE b 24 8
    rsv := fieldLE b 3 1 / 16 != 0 || fieldLE b 10 2 != 0 || fieldLE b 20 4 != 0 }

/-- The checks of R297 on a block, but for those an opcode adds. -/
def StreamBlk.ok (k : StreamBlk) : Bool :=
  !k.rsv && decide (k.layer < k.streams) && (k.fmt == 3 || k.fmt == 4 || k.fmt == 14) && decide (1 ≤ k.recBytes) &&
  decide (k.recBytes ≤ 512) && decide (1 ≤ k.n) && decide (k.n ≤ 512) && decide (1 ≤ k.nt) &&
  decide (k.e0 + k.n ≤ recElems k.fmt k.recBytes)

/-! ### The queue (02 R67, 08 R296) -/

/-- Instructions in progress at once. -/
def kvxRuns : Nat := 4

/-- A KVX instruction in progress ends: it is ready, and completes once those before it have. -/
def State.retireKvx (s : State) (i : Nat) : Nat → State
  | 0 => s
  | k + 1 =>
    match (s.core i).kvRun with
    | [] => s
    | id :: rest =>
      let t := s.setCore i { s.core i with kvRun := rest }
      match s.job? id with
      | none => t.retireKvx i k
      | some j =>
        match j.fin with
        | .ready halt => (t.endJob j j.status halt).retireKvx i k
        | _ => s

/-- Ends a KVX instruction in progress with a status. -/
def State.endKvx (s : State) (j : Job) (st : Nat) (halt : Bool) : State :=
  (s.setJob { j with status := st, fin := .ready halt, left := 0, buf := [] }).retireKvx j.site (kvxRuns + 1)

/-- The effect of a KVX instruction as it starts, among those in progress: one that has done everything at once completes
if it is alone, else it is ready. -/
def kvStarts (i n : Nat) (act : Act) : Act := fun s =>
  match act s with
  | none => none
  | some (t, d) =>
    match t.jobs.find? (fun j => j.site == i && j.engine == 6 && decide (s.newJob ≤ j.id)) with
    | some j => some (t.setCore i { t.core i with kvRun := (t.core i).kvRun ++ [j.id] }, d)
    | none =>
      if (s.core i).kvRun.isEmpty then some (t, d)
      else
        let id := t.newJob
        let j := { Job.start id i 6 (iOp n) (iTag n) with
          status := d.st, space := d.space, addr := d.addr, fin := .ready d.stop }
        some ((t.addJob j).setCore i { t.core i with kvRun := (t.core i).kvRun ++ [id] }, Done.of stOk)

/-- The scratchpad ranges that a queued KVX instruction will read and write, by its fields and its block as it stands
(02 R66, 08 R295, R305). -/
def State.kvxRanges (s : State) (i n : Nat) (f : KvxF) : List (Nat × Nat) × List (Nat × Nat) :=
  let op := iOp n
  let blk := StreamBlk.parse ((EccMem.read scratchZero (s.core i).scratch f.b.ea 32).map Prod.fst)
  let g := f.g
  let soft := 16 + 16 * g
  match op with
  | 0 =>
    let groups := ceilDiv blk.nt 32
    ([(f.b.ea, 32)], [(f.d.ea, groups * (blk.n / 32) * 1280), (f.x.ea, if blk.fmt = 14 then 32 * groups else 0)])
  | 1 => ([(f.b.ea, 32), (f.x.ea, g * p2 blk.n)], [(f.d.ea, g * p4 blk.nt)])
  | 2 => ([(f.b.ea, 32), (f.x.ea, g * p2 blk.nt)], [(f.d.ea, g * p4 blk.n)])
  | 4 => ([(f.b.ea, soft), (f.x.ea, g * p4 f.len)], [(f.b.ea, soft), (f.d.ea, g * p2 f.len)])
  | 5 => ([(f.b.ea, soft), (f.d.ea, g * p4 f.len), (f.x.ea, g * p4 f.len)], [(f.d.ea, g * p4 f.len)])
  | 6 => ([(f.b.ea, soft), (f.d.ea, g * p4 f.len), (f.x.ea, soft + g * p4 f.len)], [(f.b.ea, soft), (f.d.ea, g * p4 f.len)])
  | 7 => ([(f.b.ea, soft), (f.d.ea, g * p4 f.len)], [(f.b.ea, soft), (f.d.ea, g * p4 f.len)])
  | 8 => ([(f.b.ea, 32), (f.x.ea, blk.nt * (8 * ceilDiv blk.recBytes 8))], [])
  | _ => ([(f.b.ea, 32), (f.d.ea, 64), (f.x.ea, 1024)], [])

/-- Ranges that lie in the scratchpad. -/
def inPad (xs : List (Nat × Nat)) : List (Nat × Nat) := xs.filter (fun r => decide (r.1 + r.2 ≤ scratchSize))

/-- Queues a KVX instruction (02 R66, R67): it is outstanding from then on. -/
def State.kvEnqueue (s : State) (i : Nat) (w : BitVec 128) (ops : List (Nat × Nat × Nat)) : State :=
  let n := w.toNat
  let r := s.kvxRanges i n (kvxF n ops)
  let s := (inPad r.1).foldl (fun s a => s.touched i a.1 a.2) s
  let id := s.newJob
  let s := s.addJob { Job.start id i 6 (iOp n) (iTag n) with
    left := 1, dests := inPad r.2, issued := s.getF (Reg.coreRetired_count i) }
  let c := s.core i
  s.setCore i { c with kvq := c.kvq ++ [⟨w, ops, id, 0, false, 0, stOk, []⟩] }

/-- A KVX instruction as it issues: the licence first (08 R293); it starts at once where it is next and may, else it
enters the queue (08 R296). -/
def State.kvx (s : State) (i : Nat) (w : BitVec 128) (op : Nat) (licence : Bool)
    (act : Nat → List (Nat × Nat × Nat) → Act) : State :=
  s.issue i w 6 [op] (fun s =>
    let n := w.toNat
    let ops := kvxOps (s.core i) n
    if licence && !s.licensed licBku then refuse s stLicenceAbsent
    else
      s.startOr ((s.core i).kvq.isEmpty && decide ((s.core i).kvRun.length < kvxRuns)) (kvStarts i n (act n ops))
        (s.kvEnqueue i w ops))

/-- A stream-form instruction: its block is read, a poisoned block stops the core, and its fields and its window are
checked (08 R296, R297). -/
def streamForm (i : Nat) (n : Nat) (ops : List (Nat × Nat × Nat)) (act : KvxF → StreamBlk → Window → Act) : Act := fun s =>
  let f := kvxF n ops
  if f.first || f.len != 0 || f.top != 0 || !f.b.kvx 32 then refuse s stBadParam
  else
    let r := s.readScratch i f.b.ea 32
    if anyPoison r.2 then some (r.1, Done.halt stPoisoned spScratch f.b.ea)
    else
      let k := StreamBlk.parse (r.2.map Prod.fst)
      let w := match chanOfSite s.chans i with
        | some ch => s.window ch k.window
        | none => Window.none
      if !k.ok || winKind w != 3 then refuse r.1 stBadParam else act f k w r.1

/-! ## Page-layers -/

/-- The range of a place as a job's `mem` names it. -/
def Place.mem (p : Place) (n : Nat) : Nat × Nat × Nat := Piece.mem ⟨p, 0, n⟩

/-- A range at a sky address as a job's `mem` names it; none where no path leads there. -/
def State.skyMem (s : State) (i a n : Nat) : List (Nat × Nat × Nat) :=
  match s.placeOf (towerOf i) a with
  | .ok p => [p.mem n]
  | .error _ => []

/-- The walk of an instruction's page-layers: the state after it, its status, the address a failure records. -/
structure KvWalk where
  s : State
  st : Nat
  addr : Nat
  pages : List KvPage
  ready : Bool
  deriving DecidableEq, Repr

/-- The sky-virtual address of an offset of a window. -/
def virtAddr (win off : Nat) : Nat := win * 2 ^ 40 + off

/-- Walks one page-layer (08 R282, R284 to R287): page `page`, layer-stream `layer`, from a slot on. -/
def KvWalk.step (q : KvWalk) (die site : Nat) (w : Window) (k : StreamBlk) (layer page slot count tok : Nat)
    (needValid : Bool) : KvWalk :=
  if q.st != stOk then q
  else
    let off := (page * k.streams + layer) * 2 ^ 17
    let fault := fun (s : State) (r : Bool) => (⟨s, stTranslation, virtAddr k.window off, q.pages, r⟩ : KvWalk)
    if 2 ^ 23 ≤ page * k.streams + k.streams - 1 ∨ winSize w ≤ off + (slot + count - 1) * 512 then fault q.s q.ready
    else
      let x := q.s.walk die site w off
      let s := x.s.incWrap (Reg.kvxCntWalk_walks site) 1
      let r := q.ready && x.ready
      if !x.ok || !pteRsvOk x.e2 || (needValid && !pteValid x.e2) || (pteValid x.e2 && !skyOk (pteFrame x.e2)) then
        fault s r
      else ⟨s.touchedMem site (s.skyMem site x.at_ 16), stOk, 0, q.pages ++ [⟨off, slot, count, tok, x.at_, x.e2⟩], r⟩

/-- Walks the page-layers of tokens [t0, t0 + nt) of the block's layer-stream. -/
def State.kvWalk (s : State) (die site : Nat) (w : Window) (k : StreamBlk) (needValid : Bool) : KvWalk :=
  (cutAt 256 k.t0 k.nt).foldl (fun q c =>
    q.step die site w k k.layer (c.1 / 256) (c.1 % 256) c.2 (c.1 - k.t0) needValid) ⟨s, stOk, 0, [], true⟩

/-! ## Reads and writes of tables, pools, frames and descriptors -/

/-- A read at a sky address: state, bytes, status, and whether it can be made now. -/
structure SkyRead where
  s : State
  data : List PByte
  st : Nat
  ready : Bool
  deriving DecidableEq, Repr

/-- Reads n bytes at a sky address for a site, or for the host link. -/
def State.skyRead (s : State) (site a n : Nat) (narrow : Bool) : SkyRead :=
  let die := towerOf site
  if !skyOk a || decide (vaultSize < bits a 31 0 + n) then ⟨s, [], stBadParam, true⟩
  else
    match s.placeOf die a with
    | .error e => ⟨s, [], e, true⟩
    | .ok (.vault v off) =>
      let r := s.readAs site v off n narrow
      ⟨r.1, r.2.1, r.2.2, s.pieceReady die false ⟨.vault v off, 0, n⟩⟩
    | .ok (.remote vid off) =>
      let r := s.tabRead vid off n
      ⟨r.1, r.2.1, r.2.2, true⟩

/-- A write at a sky address: state, status, packets sent, and whether it can be made now. -/
structure SkyWrite where
  s : State
  st : Nat
  sent : Nat
  ready : Bool
  deriving DecidableEq, Repr

/-- Writes bytes at a sky address for a job of a core or of the host link: at once in this package, by packets
elsewhere, whose positions in the job `pos` gives. -/
def State.skyWriteAt (s : State) (site job a : Nat) (pos : Nat → Nat) (data : List PByte) (narrow : Bool) : SkyWrite :=
  let die := towerOf site
  if !skyOk a || decide (vaultSize < bits a 31 0 + data.length) then ⟨s, stTranslation, 0, true⟩
  else
    match s.placeOf die a with
    | .error e => ⟨s, e, 0, true⟩
    | .ok (.vault v off) =>
      let r := s.writeAs site v off data narrow
      ⟨r.1, r.2, 0, s.pieceReady die true ⟨.vault v off, 0, data.length⟩⟩
    | .ok (.remote vid off) =>
      let eng := if site < hostSite then 6 else hostEngine
      let q := s.sendWritesAt site eng job (sitePkt site) a narrow pos data [⟨.remote vid off, 0, data.length⟩]
      ⟨q.1, stOk, q.2, true⟩

/-- Writes bytes at a sky address, each packet at the position of its data. -/
def State.skyWrite (s : State) (site job a : Nat) (data : List PByte) (narrow : Bool) : SkyWrite :=
  s.skyWriteAt site job a id data narrow

/-- The effects of a job's parts so far. -/
def SkyWrite.and (x : SkyWrite) (f : State → SkyWrite) : SkyWrite :=
  let y := f x.s
  ⟨y.s, worse x.st y.st, x.sent + y.sent, x.ready && y.ready⟩

/-! ## FETCH -/

/-- The bytes of a record gathered at positions 512 * t on. -/
def recOf (buf : SMap (List PByte)) (t : Nat) : List PByte :=
  (buf.filter (fun e => e.1 / 512 == t)).flatMap Prod.snd

/-- Vector of a staging operand: slice c of a token's elements (08 R299). A staging byte carries poison where any
source byte of its bits does. -/
def stageVec (wd e0 c : Nat) (r : List PByte) : List PByte :=
  let lo := wd * (e0 + 32 * c)
  let run := leP r / 2 ^ lo
  (List.range (4 * wd)).map (fun k =>
    let a := lo + 8 * k
    (BitVec.ofNat 8 (run / 2 ^ (8 * k)), anyPoison (slice r (a / 8) ((a + 7) / 8 + 1 - a / 8))))

/-- Writes the staging operands of a FETCH, and says whether any byte carries poison (08 R299). -/
def State.stage (s : State) (i d x fmt e0 n nt : Nat) (buf : SMap (List PByte)) : State × Bool :=
  let wd := if fmt = 14 then 10 else 8
  let slices := n / 32
  (List.range (ceilDiv nt 32)).foldl (fun q g =>
    let recs := (List.range 32).map (fun j => if 32 * g + j < nt then recOf buf (32 * g + j) else [])
    let q := (List.range slices).foldl (fun (q : State × Bool) c =>
      let op := recs.flatMap (fun r => if r.isEmpty then clean (List.replicate (4 * wd) 0) else stageVec wd e0 c r)
      (q.1.writeScratch i (d + (g * slices + c) * (128 * wd)) op, q.2 || anyPoison op)) q
    if fmt = 14 then
      let bias := recs.map (fun r => r.getLast?.getD (0, false))
      (q.1.writeScratch i (x + 32 * g) bias, q.2 || anyPoison bias)
    else q) (s, false)

/-- The status of a FETCH: a retired row's, else POISONED where a staging word is poisoned. -/
def fetchStatus (st : Nat) (poison : Bool) : Nat :=
  if st != stOk && st != stPoisoned then st else if poison then stPoisoned else stOk

/-- A place further on. -/
def Place.plus (p : Place) (n : Nat) : Place :=
  match p with
  | .vault v off => .vault v (off + n)
  | .remote v off => .remote v (off + n)

/-- The record reads of a FETCH, or the status of an unreachable frame. -/
def State.fetchPieces (s : State) (die recBytes : Nat) (ps : List KvPage) : Except Nat (List Piece) :=
  ps.foldl (fun r p =>
    match r with
    | .error e => .error e
    | .ok xs =>
      match s.placeOf die (pteFrame p.e2) with
      | .error e => .error e
      | .ok f => .ok (xs ++ (List.range p.count).map (fun k =>
          ⟨f.plus (512 * (p.slot + k)), 512 * (p.tok + k), recBytes⟩))) (.ok [])

/-- FETCH as it starts (08 R298, R299). -/
def fetchAct (i n : Nat) (ops : List (Nat × Nat × Nat)) : Act :=
  streamForm i n ops (fun f k win s =>
    let groups := ceilDiv k.nt 32
    let size := if k.fmt = 14 then 1280 else 1024
    if f.g != 1 || k.n % 32 != 0 || decide (256 < k.nt) || k.pool != 0 || !f.d.kvx (groups * (k.n / 32) * size) ||
        (if k.fmt = 14 then !f.x.kvx (32 * groups) else !f.xClear) then refuse s stBadParam
    else
      let q := s.kvWalk (towerOf i) i win k true
      if q.st != stOk then some (q.s, Done.at_ q.st spVirt q.addr)
      else
        match q.s.fetchPieces (towerOf i) k.recBytes q.pages with
        | .error e => some (q.s, Done.at_ e spVirt (virtAddr k.window ((q.pages.map KvPage.off).headD 0)))
        | .ok ps =>
          if !q.ready || !ps.all (q.s.pieceReady (towerOf i) false) then none
          else
            let r := (q.s.touchedMem i (ps.map Piece.mem)).readPieces i ps false
            let buf := r.2.1.foldl (fun m p => SMap.insert p.1 p.2 m) []
            let a := virtAddr k.window ((q.pages.map KvPage.off).headD 0)
            if (remotePieces ps).isEmpty then
              let t := r.1.stage i f.d.ea f.x.ea k.fmt k.e0 k.n k.nt buf
              some (t.1, Done.at_ (fetchStatus r.2.2 t.2) spVirt a)
            else
              let id := r.1.newJob
              let j := { Job.start id i 6 0 (iTag n) with
                status := r.2.2, addr := a, space := spVirt, buf := buf
                fin := .fetch f.d.ea f.x.ea k.fmt k.e0 k.n k.nt k.recBytes
                dests := [(f.d.ea, groups * (k.n / 32) * size), (f.x.ea, if k.fmt = 14 then 32 * groups else 0)] }
              let t := (r.1.addJob j).sendReads i 6 id (sitePkt i) false .buf ps
              some (t.1.setJob { j with left := t.2 }, Done.of stOk))

/-- FETCH (08 R298, R299). -/
def execFetch (i : Site) (w : BitVec 128) (s : State) : Host.Outcome State Fault Refusal :=
  next (s.kvx i w 0x00 false (fetchAct i))

/-! ## SCORE and ACC -/

/-- A page-layer whose frame lies in the core's own vault: its physical start, its records and tokens (08 R289). -/
structure KvLocal where
  phys : Nat
  slot : Nat
  count : Nat
  tok : Nat
  deriving DecidableEq, Repr

/-- Does a frame lie in a core's own vault, and at which offset? -/
def State.ownFrame (s : State) (i f : Nat) : Option Nat :=
  if bits f 63 44 = 0xFFFFF ∨ bits f 63 44 = s.nodeOf (towerOf i) then
    if bits f 43 42 * 576 + bits f 41 37 * 24 + bits f 36 32 = i then some (bits f 31 0) else none
  else none

/-- The slot of a bank unit's latch that KVX uses (08 R303). -/
def kvSlot : Nat := 1

/-- The place of a result among an instruction's: its head and its first token. -/
def kvKey (h tok : Nat) : Nat := 65536 * h + tok

/-- The commands of one page for one head: its QLD, and its records in commands of at most 30, cut at slots 0, 30 to
240 (08 R301, R302). -/
def kvHead (k : StreamBlk) (acc : Bool) (units : List Nat) (p : KvLocal) (h : Nat) (row : List PByte) : List KvCmd :=
  let a := virtAddr k.window (((k.t0 + p.tok) / 256 * k.streams + k.layer) * 2 ^ 17)
  let us := if acc then [bankOf p.phys] else units
  ⟨.qld kvSlot (row.length / 2) us row, us, 0, a⟩ ::
    (cutAt 30 p.slot p.count).map (fun c =>
      let at_ := p.phys + 512 * c.1
      let op : BkuOp := if acc then .acc at_ k.fmt kvSlot c.2 k.e0 k.n k.recBytes (c.1 - p.slot) 0
        else .score at_ k.fmt kvSlot c.2 k.e0 k.n k.recBytes 0
      ⟨op, [bankOf p.phys], kvKey h (p.tok + (c.1 - p.slot)), a⟩)

/-- The rows that the QLDs load, by page and head in order (08 R301, R302): the query row of the head; the weights of the
page's tokens, those of skipped tokens unread. -/
def State.kvRows (s : State) (i : Nat) (acc : Bool) (g x pitch n : Nat) (ps : List KvLocal) :
    State × List (KvLocal × Nat × List PByte) :=
  let hs := List.range g
  if acc then
    ps.foldl (fun r p => hs.foldl (fun (r : State × List (KvLocal × Nat × List PByte)) h =>
      let q := r.1.readScratch i (x + h * pitch + 2 * p.tok) (2 * p.count)
      (q.1, r.2 ++ [(p, h, q.2)])) r) (s, [])
  else if ps.isEmpty then (s, [])
  else
    let rows := hs.foldl (fun (r : State × List (List PByte)) h =>
      let q := r.1.readScratch i (x + h * pitch) (2 * n)
      (q.1, r.2 ++ [q.2])) (s, [])
    (rows.1, ps.flatMap (fun p => hs.map (fun h => (p, h, rows.2.getD h []))))

/-- The valid bit of slot 1 of every unit used is cleared (08 R303). -/
def State.dropSlot (s : State) (v : Nat) (units : List Nat) : State :=
  let x := s.vault v
  s.setVault v { x with latchValid := x.latchValid.filter (fun l => !units.any (fun u => 2 * u + kvSlot == l)) }

/-- The local pages of a walk, the count of others, and whether one lies below frame_base (08 R301, R304). -/
def State.kvLocals (s : State) (i : Nat) (ps : List KvPage) : List KvLocal × Nat × Bool :=
  ps.foldl (fun r p =>
    match s.ownFrame i (pteFrame p.e2) with
    | none => (r.1, r.2.1 + 1, r.2.2)
    | some off => (r.1 ++ [⟨physAddr (s.frameBase i) off, p.slot, p.count, p.tok⟩], r.2.1,
        r.2.2 || decide (off < s.frameBase i))) ([], 0, false)

/-- The results of an instruction for one head, in token order. -/
def headResults (buf : SMap (List PByte)) (h : Nat) : List (Nat × List PByte) :=
  (buf.filter (fun e => e.1 / 65536 == h)).map (fun e => (e.1 % 65536, e.2))

/-- Writes the score rows: −infinity where no local page gave a score (08 R301). -/
def State.scoreRows (s : State) (i d g nt : Nat) (buf : SMap (List PByte)) : State × Bool :=
  (List.range g).foldl (fun (q : State × Bool) h =>
    let a := d + h * p4 nt
    let s := q.1.writeScratch i a ((List.range nt).flatMap (fun _ => clean (toLE 4 0xFF800000)))
    let mine := headResults buf h
    (mine.foldl (fun s r => s.writeScratch i (a + 4 * r.1) r.2) s, q.2 || mine.any (fun r => anyPoison r.2))) (s, false)

/-- Writes the sum rows: the commands' results added in token order from +0 (08 R302). -/
def State.sumRows (s : State) (i d g n : Nat) (buf : SMap (List PByte)) : State × Bool :=
  (List.range g).foldl (fun (q : State × Bool) h =>
    let mine := headResults buf h
    let row := (List.range n).map (fun e => mine.foldl (fun (a : Nat × Bool) r =>
      let b := slice r.2 (4 * e) 4
      (toB32 ((ofB32 a.1).add (ofB32 (leP b))), a.2 || anyPoison b)) (0, false))
    (q.1.writeScratch i (d + h * p4 n) (resultBytes row), q.2 || row.any Prod.snd)) (s, false)

/-- The end of SCORE or ACC once its commands have ended: the rows, and slot 1 is given up (08 R301 to R303). -/
def State.absorbEnd (s : State) (i : Nat) (acc : Bool) (d g n nt : Nat) (units : List Nat) (buf : SMap (List PByte)) :
    State × Nat :=
  let t := if acc then s.sumRows i d g n buf else s.scoreRows i d g nt buf
  (t.1.dropSlot i units, if t.2 then stPoisoned else stOk)

/-- SCORE and ACC as they start: their checks and their walk; their commands go to the vault's queue (08 R301 to R304). -/
def absorbAct (acc : Bool) (i n : Nat) (ops : List (Nat × Nat × Nat)) : Act :=
  streamForm i n ops (fun f k win s =>
    let dk := if acc then k.n else k.nt
    let xk := if acc then k.nt else k.n
    if decide (4096 < k.nt) || decide (65536 < f.g * k.nt) || k.pool != 0 || !f.d.kvx (f.g * p4 dk) ||
        !f.x.kvx (f.g * p2 xk) then refuse s stBadParam
    else
      let q := s.kvWalk (towerOf i) i win k true
      let ls := q.s.kvLocals i q.pages
      let units := (ls.1.map (fun p => bankOf p.phys)).eraseDups
      let gone := fun (p : KvLocal) => q.s.vaultState i == vsRetired ||
        (cutAt 1024 (p.phys + 512 * p.slot) (512 * (p.count - 1) + k.recBytes)).any
          (fun c => (q.s.vault i).retired.contains (rowOf c.1))
      if q.st != stOk then some (q.s, Done.at_ q.st spVirt q.addr)
      else if ls.2.2 then refuse q.s stBadParam
      else
        match ls.1.find? gone with
        | some p =>
          let off := ((k.t0 + p.tok) / 256 * k.streams + k.layer) * 2 ^ 17
          some (q.s, Done.at_ stMemRetired spVirt (virtAddr k.window off))
        | none =>
          if !q.ready then none
          else
            let s := q.s.incWrap (Reg.kvxCntSkip_pages i) ls.2.1
            let r := s.kvRows i acc f.g f.x.ea (p2 xk) k.n ls.1
            if ls.1.isEmpty then
              let t := r.1.absorbEnd i acc f.d.ea f.g k.n k.nt [] []
              some (t.1, Done.of t.2)
            else
              let cmds := r.2.flatMap (fun e => kvHead k acc units e.1 e.2.1 e.2.2)
              let j := { Job.start r.1.newJob i 6 (iOp n) (iTag n) with
                left := cmds.length, dests := [(f.d.ea, f.g * p4 dk)], space := spVirt
                fin := .absorb acc f.d.ea f.g k.n k.nt cmds units }
              some (r.1.addJob j, Done.of stOk))

/-- SCORE of KVX (08 R301). -/
def execKvxScore (i : Site) (w : BitVec 128) (s : State) : Host.Outcome State Fault Refusal :=
  next (s.kvx i w 0x01 true (absorbAct false i))

/-- ACC of KVX (08 R302). -/
def execKvxAcc (i : Site) (w : BitVec 128) (s : State) : Host.Outcome State Fault Refusal :=
  next (s.kvx i w 0x02 true (absorbAct true i))

/-- The commands of the oldest SCORE or ACC in progress at a core enter the vault's queue while it has room: slot 1 serves
one instruction at a time (07 R266, 08 R303). -/
def State.kvFeed (s : State) (i : Nat) : State :=
  match ((s.core i).kvRun.filterMap (fun id => (s.job? id).bind (fun j =>
      match j.fin with
      | .absorb acc d g n nt cmds units => some (j, acc, d, g, n, nt, cmds, units)
      | _ => none))).head? with
  | none => s
  | some (j, acc, d, g, n, nt, cmds, units) =>
    let x := s.vault i
    let m := bkuQueue - x.queue.length
    if cmds.isEmpty || m = 0 then s
    else
      let go := (cmds.take m).map (fun c => BkuCmd.of c.op j.itag j.id c.units (some (c.part, c.addr)))
      ((s.setVault i { x with queue := x.queue ++ go }).setJob
        { j with fin := .absorb acc d g n nt (cmds.drop m) units }).bkuShow i

/-! ## Pools -/

/-- Is a number a power of two from 1 to 65,536 (08 R290)? -/
def capOk (c : Nat) : Bool := decide (1 ≤ c) && decide (c ≤ 65536) && c == 2 ^ log2 c

/-- The cap of a pool whose header is read and passes, or the status (08 R313). -/
def State.poolCap (s : State) (site pool : Nat) : SkyRead × Except Nat Nat :=
  let h := s.skyRead site pool 64 true
  if h.st != stOk then (h, .error h.st)
  else
    let cap := leP (slice h.data 8 4)
    if !capOk cap || leP (slice h.data 12 52) != 0 then (h, .error stPoolBad) else (h, .ok cap)

/-- What a pool offers as its header and entry are read (08 R291, R313): none where they cannot be read now; a status, or
the value of cons, the frame, and the entries that a take leaves. -/
def State.poolOffer (s : State) (i pool cap : Nat) : Option (State × Except Nat (Nat × Nat × Nat)) :=
  let h := s.skyRead i pool 8 true
  if !h.ready then none
  else if h.st != stOk then some (h.s, .error h.st)
  else
    let prod := leP (h.data.take 4)
    let cons := leP (slice h.data 4 4)
    let left := (prod + 2 ^ 32 - cons) % 2 ^ 32
    if left = 0 then some (h.s, .error stPoolEmpty)
    else
      let e := h.s.skyRead i (pool + 64 + 8 * (cons % cap)) 8 true
      let f := leP e.data
      if !e.ready then none
      else if e.st = stBadParam then some (e.s, .error stPoolBad)
      else if e.st != stOk then some (e.s, .error e.st)
      else if bits f 16 0 != 0 || !skyOk f then some (e.s, .error stPoolBad)
      else some (e.s, .ok (cons, f, left - 1))

/-! ## APPEND -/

/-- Does a page-layer need a frame? -/
def needsFrame (e : Nat) : Bool := !pteValid e || pteShared e

/-- The fill of a page-layer (08 R312). -/
def fillOf (e : Nat) : Nat := if pteValid e then pteFill e else 0

/-- The value of a second-level entry (08 R285). -/
def pteValue (frame fill : Nat) (shared : Bool) (entry : Nat) : Nat :=
  1 + b2n shared * 2 + fill * 16 + bits frame 63 17 * 2 ^ 17 + entry * 2 ^ 64

/-- The pitch of an APPEND's records in its input (08 R295). -/
def StreamBlk.pitch (k : StreamBlk) : Nat := 8 * ceilDiv k.recBytes 8

/-- A request arrives at the directory: those of one tick stand in the order T0 to T3, then the host (08 R323); one that
meets a full queue of 64 waits behind it. -/
def State.askPfx (s : State) (source : Nat) (r : PfxReq) : State :=
  let before := fun (a : PfxArrival) => decide (a.tick < s.now) || decide (a.source ≤ source)
  let q := s.pfx.queue
  { s with pfx := { s.pfx with queue := q.takeWhile before ++ ⟨s.now, source, r⟩ :: q.dropWhile before } }

/-- Releases of references of directory entries arrive (08 R321). -/
def State.releaseAll (s : State) (source : Nat) (es : List Nat) : State :=
  es.foldl (fun s e => s.askPfx source (.release e)) s

/-- A frame taken and not used: KVX_LOST keeps the first, an event reports each (08 R313, R324). -/
def State.frameLost (s : State) (i f itag : Nat) : State :=
  let s := if s.on (Reg.kvxLost_valid i) then s
    else (s.setF (Reg.kvxLost_frame i) (bits f 63 17)).setF (Reg.kvxLost_valid i) 1
  s.coreEvent i 5 stOk 6 itag 0 f

/-- What a step of an APPEND comes to: it goes on, it waits (for answers, or for a vault), or it has ended with a status,
the space and address to record, and whether it stops the core whatever the status. -/
inductive AppOut where
  | on (s : State) (j : Job) (a : AppSt)
  | waits (s : State) (j : Job) (a : AppSt)
  | ends (s : State) (j : Job) (st space addr : Nat) (halt : Bool)

/-- The sky-virtual address of a page-layer. -/
def AppSt.at_ (a : AppSt) (p : KvPage) : Nat := virtAddr a.window p.off

/-- The key under which a job reads tables: past the engines' and the SYN queue's. -/
def jobKey (id : Nat) : Nat := 16 + id

/-- A frame has been taken (08 R291, R324): the count, and one POOL_LOW event per instruction. -/
def AppSt.took (a : AppSt) (s : State) (j : Job) (f : Nat) (low : Bool) : AppOut :=
  let s := s.incSat (Reg.kvxCntAlloc_frames j.site) 1
  let s := if low && !a.low then s.coreEvent j.site 4 stOk 6 j.itag 0 a.pool else s
  .on s { j with buf := [], mem := j.mem ++ s.skyMem j.site f (2 ^ 17) } { a with low := a.low || low, stage := .write f true }

/-- A step of taking a frame (08 R291): the header and the entry are read, and the CAS of cons made. -/
def AppSt.take (a : AppSt) (s : State) (j : Job) : AppOut :=
  match s.lookUp j.site (jobKey j.id) 6 (fun s => s.poolOffer j.site a.pool a.cap) with
  | .waits s' => .waits s' j a
  | .done t (.error st) => .ends t j st spSky a.pool true
  | .done t (.ok (cons, f, left)) =>
    let low := decide (left < t.getF (Reg.kvxCtrl_low_water j.site))
    let old := clean (toLE 8 cons)
    let new := clean (toLE 8 ((cons + 1) % 2 ^ 32))
    match t.placeOf (towerOf j.site) (a.pool + 4) with
    | .error st => .ends t j st spSky a.pool true
    | .ok (.vault v off) =>
      if !t.atomicReady (towerOf j.site) ⟨.vault v off, 0, 4⟩ then .waits s j a
      else a.took (t.atomicAs j.site v off 4 false new old).1 j f low
    | .ok (.remote vid off) =>
      .waits (t.request j.site 6 j.id (.buf 0) { Packet.blank with
        op := 2, aop := 4, length := 16, narrow := true, dst := vid * 2 ^ 32 + off, payload := new ++ old })
        { j with left := 1, buf := [] } { a with stage := .cas cons f low }

/-- The copied slots and the records of a page-layer go out (08 R283, R312): the copy first. -/
def AppSt.send (a : AppSt) (s : State) (j : Job) (p : KvPage) (f : Nat) (taken : Bool) (copied : List PByte) : AppOut :=
  let w : SkyWrite := if copied.isEmpty then ⟨s, stOk, 0, true⟩
    else SkyWrite.and ⟨s.incSat (Reg.kvxCntAlloc_copies j.site) 1, stOk, 0, true⟩
      (fun s => s.skyWrite j.site j.id f copied false)
  let w := (List.range p.count).foldl (fun (x : SkyWrite) m =>
    let b := slice a.rows ((p.tok + m) * a.pitch) a.recBytes
    (x.and (fun s => s.skyWrite j.site j.id (f + 512 * (p.slot + m)) b false)).and (fun s => ⟨s, srcStatus b, 0, true⟩)) w
  let j' := { j with left := w.sent, buf := [], status := worse j.status w.st }
  let a' := { a with stage := .entry f taken }
  if !w.ready then .waits s j a
  else if w.sent = 0 then .on w.s j' a' else .waits w.s j' a'

/-- The records of a page-layer may be written once its old frame, if it is shared, is read (08 R312 step 3). -/
def AppSt.copy (a : AppSt) (s : State) (j : Job) (p : KvPage) (f : Nat) (taken : Bool) : AppOut :=
  let n := 512 * pteFill p.e2
  if !taken || !pteValid p.e2 || n = 0 then a.send s j p f taken []
  else
    match s.placeOf (towerOf j.site) (pteFrame p.e2) with
    | .error st => .ends s j st spVirt (a.at_ p) false
    | .ok (.vault v off) =>
      if !s.pieceReady (towerOf j.site) false ⟨.vault v off, 0, n⟩ then .waits s j a
      else
        let r := s.readAs j.site v off n false
        if hardSt r.2.2 then .ends r.1 j r.2.2 spVirt (a.at_ p) false
        else a.send r.1 { j with status := worse j.status r.2.2 } p f taken r.2.1
    | .ok (.remote vid off) =>
      let q := s.sendReads j.site 6 j.id (sitePkt j.site) false .buf [⟨.remote vid off, 0, n⟩]
      .waits q.1 { j with left := q.2, buf := [] } { a with stage := .copy f }

/-- The next page-layer. -/
def AppSt.next (a : AppSt) (s : State) (j : Job) : AppOut := .on s { j with buf := [] } { a with pages := a.pages.drop 1, stage := .frame }

/-- The release of one reference of the old frame's directory entry, after a copy (08 R312 step 5). -/
def AppSt.release (a : AppSt) (s : State) (j : Job) (p : KvPage) : AppOut :=
  a.next (if pteValid p.e2 && pteShared p.e2 then s.releaseAll (towerOf j.site) [pteEntry p.e2] else s) j

/-- The entry of a page-layer whose records have taken effect (08 R288, R312 step 4); one that has become valid meanwhile
stays, and the frame taken for it is lost (R313). -/
def AppSt.install (a : AppSt) (s : State) (j : Job) (p : KvPage) (f : Nat) (taken : Bool) : AppOut :=
  let put := fun (s' : State) =>
    let w := s'.skyWrite j.site j.id p.at_ (clean (toLE 16 (pteValue f (p.slot + p.count) false 0))) true
    if !w.ready then AppOut.waits s j a
    else if hardSt w.st then .ends w.s j w.st spVirt (a.at_ p) false
    else
      let j := { j with left := w.sent, status := worse j.status w.st }
      if w.sent = 0 then a.release w.s j p else .waits w.s j { a with stage := .after }
  if pteValid p.e2 || !taken then put s
  else
    match s.lookUp j.site (jobKey j.id) 6 (fun s =>
        let r := s.skyRead j.site p.at_ 16 true
        if r.ready then some (r.s, pteValid (leP r.data)) else none) with
    | .waits s' => .waits s' j a
    | .done t true => a.next (t.frameLost j.site f j.itag) j
    | .done t false => put t

/-- One step of an APPEND (08 R312, R313). A part that completed with more than poison has not taken effect: the
instruction ends at its page-layer. -/
def AppSt.step (a : AppSt) (s : State) (j : Job) : AppOut :=
  match a.pages with
  | [] => .ends s j j.status j.space j.addr false
  | p :: _ =>
    if hardSt j.status then .ends s j j.status spVirt (a.at_ p) false
    else
      match a.stage with
      | .frame => if needsFrame p.e2 then a.take s j else .on s j { a with stage := .write (pteFrame p.e2) false }
      | .cas cons f low =>
        let old := j.buf.flatMap Prod.snd
        if anyPoison old then .ends s j stPoisoned spSky a.pool true
        else if leP (old.take 4) = cons then a.took s j f low
        else .on s { j with buf := [] } { a with stage := .frame }
      | .write f taken => a.copy s j p f taken
      | .copy f => a.send s j p f true (j.buf.flatMap Prod.snd)
      | .entry f taken => a.install s j p f taken
      | .after => a.release s j p

/-- An APPEND goes on while it can. -/
def AppOut.run : Nat → AppOut → AppOut
  | k + 1, .on s j a => AppOut.run k (a.step s j)
  | 0, .on s j a => .waits s j a
  | _, o => o

/-- Steps that an APPEND can take without waiting. -/
def AppSt.steps (a : AppSt) : Nat := 4 * a.pages.length + 4

/-- APPEND as it starts (08 R296, R312, R313). -/
def appendAct (i n : Nat) (ops : List (Nat × Nat × Nat)) : Act :=
  streamForm i n ops (fun f k win s =>
    if f.g != 1 || decide (256 < k.nt) || k.pool % 64 != 0 || !f.dClear || !f.x.kvx (k.nt * k.pitch) then
      refuse s stBadParam
    else
      let q := s.kvWalk (towerOf i) i win k false
      let unreach := q.pages.find? (fun p => pteValid p.e2 &&
        match q.s.placeOf (towerOf i) (pteFrame p.e2) with
        | .error _ => true
        | .ok _ => false)
      let need := q.pages.any (fun p => needsFrame p.e2)
      if q.st != stOk then some (q.s, Done.at_ q.st spVirt q.addr)
      else if winReadOnly win then
        some (q.s, Done.at_ stWriteDenied spVirt (virtAddr k.window ((q.pages.map KvPage.off).headD 0)))
      else if q.pages.any (fun p => p.slot != fillOf p.e2) then refuse q.s stBadParam
      else
        match unreach with
        | some p => some (q.s, Done.at_ stUnreachable spVirt (virtAddr k.window p.off))
        | none =>
          let c := if need then q.s.poolCap i k.pool else (⟨q.s, [], stOk, true⟩, .ok 1)
          match c.2 with
          | .error st =>
            if !q.ready || !c.1.ready then none
            else if st = stBadParam then refuse q.s stBadParam
            else some (c.1.s, Done.halt st spSky k.pool)
          | .ok cap =>
            let r := c.1.s.readScratch i f.x.ea (k.nt * k.pitch)
            if !r.1.wanted.isEmpty then complete r.1 stOk
            else if !q.ready || !c.1.ready then none
            else
              let id := r.1.newJob
              let a : AppSt :=
                { window := k.window, pool := k.pool, cap := cap, recBytes := k.recBytes, pitch := k.pitch, rows := r.2
                  pages := q.pages, low := false, stage := .frame }
              let j := { Job.start id i 6 8 (iTag n) with
                space := spVirt, addr := virtAddr k.window ((q.pages.map KvPage.off).headD 0)
                mem := q.pages.flatMap (fun p => r.1.skyMem i p.at_ 16 ++
                  (if needsFrame p.e2 then [] else r.1.skyMem i (pteFrame p.e2) (2 ^ 17))) }
              match AppOut.run a.steps (.on (r.1.addJob j) j a) with
              | .waits s j a => some (s.setJob { j with fin := .append a }, Done.of stOk)
              | .ends s j st space addr halt =>
                some ({ s with jobs := s.jobs.filter (fun y => y.id != j.id) }, ⟨st, space, addr, halt, none⟩)
              | .on s j a => some (s.setJob { j with fin := .append a }, Done.of stOk))

/-- APPEND (08 R312, R313). -/
def execAppend (i : Site) (w : BitVec 128) (s : State) : Host.Outcome State Fault Refusal :=
  next (s.kvx i w 0x08 false (appendAct i))

end Sys2Proof.Machine
end

