-- ==== Sys2Proof/Machine/Sha.lean ====
section
/-!
DEFINITION. SHA-384 (FIPS 180-4), which 08 R316 and chapter 15 name, over lists of bytes.
-/
namespace Sys2Proof

/-- A 64-bit rotation to the right. -/
def rotr64 (x k : Nat) : Nat := Nat.lor (x / 2 ^ k) (x * 2 ^ (64 - k) % 2 ^ 64)

/-- The constants of rounds 0 to 39. -/
def shaKLow : List Nat := [
  0x428A2F98D728AE22, 0x7137449123EF65CD, 0xB5C0FBCFEC4D3B2F, 0xE9B5DBA58189DBBC,
  0x3956C25BF348B538, 0x59F111F1B605D019, 0x923F82A4AF194F9B, 0xAB1C5ED5DA6D8118,
  0xD807AA98A3030242, 0x12835B0145706FBE, 0x243185BE4EE4B28C, 0x550C7DC3D5FFB4E2,
  0x72BE5D74F27B896F, 0x80DEB1FE3B1696B1, 0x9BDC06A725C71235, 0xC19BF174CF692694,
  0xE49B69C19EF14AD2, 0xEFBE4786384F25E3, 0x0FC19DC68B8CD5B5, 0x240CA1CC77AC9C65,
  0x2DE92C6F592B0275, 0x4A7484AA6EA6E483, 0x5CB0A9DCBD41FBD4, 0x76F988DA831153B5,
  0x983E5152EE66DFAB, 0xA831C66D2DB43210, 0xB00327C898FB213F, 0xBF597FC7BEEF0EE4,
  0xC6E00BF33DA88FC2, 0xD5A79147930AA725, 0x06CA6351E003826F, 0x142929670A0E6E70,
  0x27B70A8546D22FFC, 0x2E1B21385C26C926, 0x4D2C6DFC5AC42AED, 0x53380D139D95B3DF,
  0x650A73548BAF63DE, 0x766A0ABB3C77B2A8, 0x81C2C92E47EDAEE6, 0x92722C851482353B]

/-- The constants of rounds 40 to 79. -/
def shaKHigh : List Nat := [
  0xA2BFE8A14CF10364, 0xA81A664BBC423001, 0xC24B8B70D0F89791, 0xC76C51A30654BE30,
  0xD192E819D6EF5218, 0xD69906245565A910, 0xF40E35855771202A, 0x106AA07032BBD1B8,
  0x19A4C116B8D2D0C8, 0x1E376C085141AB53, 0x2748774CDF8EEB99, 0x34B0BCB5E19B48A8,
  0x391C0CB3C5C95A63, 0x4ED8AA4AE3418ACB, 0x5B9CCA4F7763E373, 0x682E6FF3D6B2B8A3,
  0x748F82EE5DEFB2FC, 0x78A5636F43172F60, 0x84C87814A1F0AB72, 0x8CC702081A6439EC,
  0x90BEFFFA23631E28, 0xA4506CEBDE82BDE9, 0xBEF9A3F7B2C67915, 0xC67178F2E372532B,
  0xCA273ECEEA26619C, 0xD186B8C721C0C207, 0xEADA7DD6CDE0EB1E, 0xF57D4F7FEE6ED178,
  0x06F067AA72176FBA, 0x0A637DC5A2C898A6, 0x113F9804BEF90DAE, 0x1B710B35131C471B,
  0x28DB77F523047D84, 0x32CAAB7B40C72493, 0x3C9EBE0A15C9BEBC, 0x431D67C49C100D4C,
  0x4CC5D4BECB3E42B6, 0x597F299CFC657E2A, 0x5FCB6FAB3AD6FAEC, 0x6C44198C4A475817]

/-- The initial hash value of SHA-384. -/
def sha384Init : List Nat := [
  0xCBBB9D5DC1059ED8, 0x629A292A367CD507, 0x9159015A3070DD17, 0x152FECD8F70E5939,
  0x67332667FFC00B31, 0x8EB44A8768581511, 0xDB0C2E0D64F98FA7, 0x47B5481DBEFA4FA4]

/-- The eight working variables. -/
structure ShaVars where
  a : Nat
  b : Nat
  c : Nat
  d : Nat
  e : Nat
  f : Nat
  g : Nat
  h : Nat
  deriving DecidableEq, Repr

/-- One round under a constant and a word of the schedule. -/
def ShaVars.round (v : ShaVars) (k w : Nat) : ShaVars :=
  let s1 := Nat.xor (Nat.xor (rotr64 v.e 14) (rotr64 v.e 18)) (rotr64 v.e 41)
  let ch := Nat.xor (Nat.land v.e v.f) (Nat.land (2 ^ 64 - 1 - v.e) v.g)
  let t1 := v.h + s1 + ch + k + w
  let s0 := Nat.xor (Nat.xor (rotr64 v.a 28) (rotr64 v.a 34)) (rotr64 v.a 39)
  let maj := Nat.xor (Nat.xor (Nat.land v.a v.b) (Nat.land v.a v.c)) (Nat.land v.b v.c)
  ⟨(t1 + s0 + maj) % 2 ^ 64, v.a, v.b, v.c, (v.d + t1) % 2 ^ 64, v.e, v.f, v.g⟩

/-- The next word of the schedule from the last sixteen, the oldest first. -/
def shaNext (w : List Nat) : Nat :=
  let x := w.getD 14 0
  let y := w.getD 1 0
  let s1 := Nat.xor (Nat.xor (rotr64 x 19) (rotr64 x 61)) (x / 2 ^ 6)
  let s0 := Nat.xor (Nat.xor (rotr64 y 1) (rotr64 y 8)) (y / 2 ^ 7)
  (s1 + w.getD 9 0 + s0 + w.getD 0 0) % 2 ^ 64

/-- The rounds over a list of constants, the schedule's window moving on. -/
def shaRounds : List Nat → List Nat → ShaVars → ShaVars
  | [], _, v => v
  | k :: ks, w, v => shaRounds ks (w.tail ++ [shaNext w]) (v.round k (w.getD 0 0))

/-- The hash value after one block of sixteen words. -/
def shaBlock (h w : List Nat) : List Nat :=
  let at_ := fun i => h.getD i 0
  let v := shaRounds (shaKLow ++ shaKHigh) w ⟨at_ 0, at_ 1, at_ 2, at_ 3, at_ 4, at_ 5, at_ 6, at_ 7⟩
  List.zipWith (fun x y => (x + y) % 2 ^ 64) h [v.a, v.b, v.c, v.d, v.e, v.f, v.g, v.h]

/-- n bytes of a number, the most significant first. -/
def toBE (n x : Nat) : List Byte := (List.range n).map (fun i => BitVec.ofNat 8 (x / 256 ^ (n - 1 - i)))

/-- Blocks of 128 B hashed in order. -/
def shaBlocks : Nat → List Byte → List Nat → List Nat
  | 0, _, h => h
  | k + 1, bs, h =>
    shaBlocks k (bs.drop 128) (shaBlock h ((List.range 16).map (fun i => beNat (slice bs (8 * i) 8))))

/-- A message with its padding and its length in bits. -/
def shaPad (bs : List Byte) : List Byte :=
  let n := bs.length
  let z := (128 - (n + 17) % 128) % 128
  bs ++ [0x80] ++ List.replicate z 0 ++ toBE 16 (8 * n)

/-- SHA-384: 48 bytes. -/
def sha384 (bs : List Byte) : List Byte :=
  let p := shaPad bs
  ((shaBlocks (p.length / 128) p sha384Init).take 6).flatMap (toBE 8)

end Sys2Proof
end

