-- ==== Sys2Proof/Machine/Prefix.lean ====
section
/-!
DEFINITION. Prefix sharing (08 R315 to R323, R325, 16 R581): LINK and PUBLISH, the prefix directory's entries, its
service of requests, releases and reclaim.
-/
namespace Sys2Proof.Machine

/-! ## Entries (08 R318) -/

/-- Ways of the directory. -/
def pfxWays : Nat := 262144

/-- LIVE. -/
def pfxLive : Nat := 1
/-- RECLAIM. -/
def pfxReclaimed : Nat := 2

/-- An entry of the directory. -/
def Prefix.entry (p : Prefix) (e : Nat) : Nat := (SMap.get (fun _ => (0 : BitVec 256)) p.entries e).toNat

/-- Stores an entry. -/
def Prefix.setEntry (p : Prefix) (e v : Nat) : Prefix :=
  { p with entries := SMap.put (fun _ => (0 : BitVec 256)) e (BitVec.ofNat 256 v) p.entries }

/-- key. -/
def peKey (e : Nat) : Nat := bits e 127 0
/-- desc. -/
def peDesc (e : Nat) : Nat := bits e 191 128
/-- refs. -/
def peRefs (e : Nat) : Nat := bits e 215 192
/-- domain. -/
def peDomain (e : Nat) : Nat := bits e 223 216
/-- state. -/
def peState (e : Nat) : Nat := bits e 225 224
/-- keyed. -/
def peKeyed (e : Nat) : Bool := bit e 226

/-- A LIVE entry. -/
def peNew (key desc refs domain : Nat) (keyed : Bool) : Nat :=
  key + desc * 2 ^ 128 + refs * 2 ^ 192 + domain * 2 ^ 216 + pfxLive * 2 ^ 224 + b2n keyed * 2 ^ 226

/-- References an entry counts at most (08 R319). -/
def refMax : Nat := 2 ^ 24 - 1

/-- The key of a page (08 R316). -/
def pageKey (a : PfxAsk) : List Byte := (sha384 (a.parent ++ a.mtag ++ a.tokens)).take 16

/-- The first entry of the set of a key (08 R318). -/
def setBase (key : List Byte) : Nat := leNat key % 16384 * 16

/-- An entry of a set that has an armed error becomes one out of use (16 R581, R590): it is read as its set is
searched. -/
def State.pfxScan (s : State) (b : Nat) : State :=
  match (List.range 16).find? (fun k => s.injected 8 (b + k)) with
  | none => s
  | some k =>
    let s := s.usedInject
    if s.pfx.dead.contains (b + k) then s
    else
      ({ s with pfx := { s.pfx with dead := s.pfx.dead ++ [b + k] } }).record (mkRecord s 1 12 0xFFFF 0 23 (b + k) 0)

/-- The LIVE keyed entry of a domain with a key (08 R319). -/
def Prefix.match_ (p : Prefix) (key : List Byte) (domain : Nat) : Option Nat :=
  ((List.range 16).map (fun k => setBase key + k)).find? (fun e =>
    let v := p.entry e
    !p.dead.contains e && peState v == pfxLive && peKeyed v && peDomain v == domain && peKey v == leNat key)

/-- A FREE way of a key's set. -/
def Prefix.freeWay (p : Prefix) (key : List Byte) : Option Nat :=
  ((List.range 16).map (fun k => setBase key + k)).find? (fun e => !p.dead.contains e && peState (p.entry e) == 0)

/-! ## The instructions -/

/-- Walks the S page-layers of a page (08 R319, R320). -/
def State.pageWalk (s : State) (i : Nat) (w : Window) (k : StreamBlk) (needValid : Bool) : KvWalk :=
  (List.range k.streams).foldl (fun q j => q.step (towerOf i) i w k j (k.t0 / 256) 0 256 0 needValid)
    ⟨s, stOk, 0, [], true⟩

/-- Bytes of a page descriptor (08 R317). -/
def descSize (streams : Nat) : Nat := 1088 + 8 * streams

/-- The prefix block's outputs in poison: its inputs were (08 R315). -/
def State.blockPoison (s : State) (i a : Nat) : State := s.writeScratch i (a + 32) (List.replicate 32 (0, true))

/-- The result bytes of a prefix block from its key on (08 R315). -/
def blockOut (key : List Byte) (result entry : Nat) : List PByte :=
  clean (key ++ [BitVec.ofNat 8 result] ++ List.replicate 3 0 ++ toLE 4 entry ++ List.replicate 8 0)

/-- What LINK and PUBLISH share: checks, walk, the block and the tokens; `act` gets the walk and the request. -/
def prefixForm (i op n : Nat) (ops : List (Nat × Nat × Nat)) (publish : Bool)
    (act : StreamBlk → KvWalk → PfxAsk → Option (State × Done)) : Act :=
  streamForm i n ops (fun f k win s =>
    if f.g != 1 || k.t0 % 256 != 0 || k.nt != 256 || k.pool != 0 || !f.d.kvx 64 || !f.x.kvx 1024 then
      refuse s stBadParam
    else
      let q := s.pageWalk i win k publish
      if q.st != stOk then some (q.s, Done.at_ q.st spVirt q.addr)
      else
        let good := fun (p : KvPage) =>
          if publish then pteFill p.e2 == 256 && !pteShared p.e2 else !pteValid p.e2
        if !q.pages.all good then refuse q.s stBadParam
        else
          let b := q.s.readScratch i f.d.ea 32
          let x := b.1.readScratch i f.x.ea 1024
          if !q.ready then none
          else if anyPoison (b.2.take (if publish then 32 else 24)) || anyPoison x.2 then
            complete (x.1.blockPoison i f.d.ea) stPoisoned
          else
            let bs := b.2.map Prod.fst
            let dom := match chanOfSite s.chans i with
              | some ch => (s.chan ch).domain
              | none => 0
            let id := x.1.newJob
            act k { q with s := x.1.addJob { Job.start id i 6 op (iTag n) with left := 1 } }
              { job := id, site := i, streams := k.streams, domain := dom, parent := bs.take 16, mtag := slice bs 16 8
                tokens := x.2.map Prod.fst, desc := fieldLE bs 24 8, block := f.d.ea
                ents := q.pages.map (fun p => (p.at_, p.e2)) })

/-- LINK as it starts: its request goes to the directory (08 R319). -/
def linkAct (i n : Nat) (ops : List (Nat × Nat × Nat)) : Act :=
  prefixForm i 0x10 n ops false (fun _ q a => complete (q.s.askPfx (towerOf i) (.link a)) stOk)

/-- LINK of KVX (08 R319). -/
def execLink (i : Site) (w : BitVec 128) (s : State) : Host.Outcome State Fault Refusal :=
  next (s.kvx i w 0x10 false (linkAct i))

/-- The descriptor that PUBLISH writes, around its key (08 R317, R320). -/
def descHead (a : PfxAsk) : List Byte := a.mtag ++ [BitVec.ofNat 8 a.streams] ++ List.replicate 7 0
/-- The descriptor from offset 32 on. -/
def descTail (a : PfxAsk) : List Byte :=
  List.replicate 32 0 ++ a.tokens ++ a.ents.flatMap (fun e => toLE 8 (pteFrame e.2))

/-- PUBLISH as it starts: it writes the descriptor, and its request follows once that has taken effect (08 R320). -/
def publishAct (i n : Nat) (ops : List (Nat × Nat × Nat)) : Act :=
  prefixForm i 0x11 n ops true (fun k q a =>
    if a.desc % 64 != 0 || !skyOk a.desc || decide (vaultSize < bits a.desc 31 0 + descSize k.streams) then
      refuse { q.s with jobs := q.s.jobs.filter (fun y => y.id != a.job) } stBadParam
    else
      let x := (q.s.skyWrite i a.job a.desc (clean (descHead a)) false).and
        (fun s => s.skyWrite i a.job (a.desc + 32) (clean (descTail a)) false)
      if x.st != stOk then
        some ({ x.s with jobs := x.s.jobs.filter (fun y => y.id != a.job) }, Done.at_ x.st spSky a.desc)
      else if !x.ready then none
      else if x.sent = 0 then complete (x.s.askPfx (towerOf i) (.publish a)) stOk
      else
        match x.s.job? a.job with
        | none => none
        | some j => complete (x.s.setJob { j with left := x.sent, fin := .publish a }) stOk)

/-- PUBLISH of KVX (08 R320). -/
def execPublish (i : Site) (w : BitVec 128) (s : State) : Host.Outcome State Fault Refusal :=
  next (s.kvx i w 0x11 false (publishAct i))

/-! ## The directory -/

/-- Results (08 R315). -/
def prDone : Nat := 0
/-- MISS. -/
def prMiss : Nat := 1
/-- EXISTS. -/
def prExists : Nat := 2
/-- COLLISION. -/
def prCollision : Nat := 3
/-- FULL. -/
def prFull : Nat := 4
/-- MISMATCH. -/
def prMismatch : Nat := 5

/-- Counts a result (08 R325). -/
def State.pfxCount (s : State) (link : Bool) (r : Nat) : State :=
  if r = prDone ∧ link then s.incSat Reg.pfxCntResult_linked 1
  else if r = prCollision then s.incSat Reg.pfxCntResult_collisions 1
  else if r = prFull then s.incSat Reg.pfxCntResult_full 1
  else if r = prMismatch then s.incSat Reg.pfxCntResult_mismatch 1
  else s

/-- KVX writes the entries of a LINK or PUBLISH that has its answer, once their vaults serve it, then its block
(08 R319, R320). -/
def State.writeEntries (s : State) (j : Job) (ws : List (Nat × List PByte)) (addr : Nat) (fill : List PByte) : State :=
  let x := ws.foldl (fun (x : SkyWrite) e =>
    (x.and (fun s => s.skyWrite j.site j.id e.1 e.2 true)).and (fun s => ⟨s, srcStatus e.2, 0, true⟩)) ⟨s, stOk, 0, true⟩
  let st := worse j.status x.st
  if !x.ready then s.setJob { j with left := 0, fin := .entries ws addr fill }
  else if x.sent = 0 then (x.s.writeScratch j.site addr fill).endKvx j st false
  else x.s.setJob { j with left := x.sent, status := st, fin := .block addr fill }

/-- Ends the wait of a LINK or PUBLISH; a job that a reset took has no end. -/
def State.pfxAnswer (s : State) (a : PfxAsk) (ws : List (Nat × List PByte)) (fill : List PByte) : State :=
  match s.job? a.job with
  | none => s
  | some j => s.writeEntries j ws (a.block + 64 - fill.length) fill

/-- A matched entry compared with a request: tag and tokens, S, and the frame words of its descriptor (08 R319, R320). -/
structure PfxCmp where
  s : State
  same : Bool
  streams : Bool
  frames : List PByte
  ready : Bool
  deriving DecidableEq, Repr

/-- Compares a request with the descriptor of a matched entry, by its own S. What poison in the descriptor hides differs;
an armed injection differs once (08 R325). -/
def State.pfxCompare (s : State) (a : PfxAsk) (e : Nat) : PfxCmp :=
  let d := peDesc (s.pfx.entry e)
  let r := s.skyRead hostSite d 1088 false
  let bad := anyPoison (r.data.take 16) || anyPoison (slice r.data 64 1024)
  let bs := r.data.map Prod.fst
  let same := !bad && bs.take 8 == a.mtag && slice bs 64 1024 == a.tokens && !r.data.isEmpty &&
    !r.s.on Reg.pfxInject_arm
  let streams := fieldLE bs 8 1 == a.streams % 256
  let s := r.s.setF Reg.pfxInject_arm 0
  if !same || !streams then ⟨s, same, streams, [], r.ready⟩
  else
    let f := s.skyRead hostSite (d + 1088) (8 * a.streams) false
    ⟨f.s, same, streams, if f.data.isEmpty then List.replicate (8 * a.streams) (0, true) else f.data, r.ready && f.ready⟩

/-- The bytes of a second-level entry that takes a frame word of a descriptor: its poison stays in the word it fills
(08 R285, 16 R577). -/
def entryOf (frame : List PByte) (e : Nat) : List PByte :=
  let v := toLE 16 (pteValue (leP frame) 256 true e)
  (v.take 8).map (fun b => (b, anyPoison frame)) ++ clean (v.drop 8)

/-- Serves a LINK (08 R319, R323): its result, entry, and the second-level entries to write; none where the descriptor
cannot be read now. -/
def State.serveLink (s : State) (a : PfxAsk) : Option State :=
  let key := pageKey a
  let s := (s.incWrap Reg.pfxCntLookup_requests 1).pfxScan (setBase key)
  let out := fun (s : State) (r : Nat) => (s.pfxCount true r).pfxAnswer a [] (blockOut key r 0)
  if !s.on Reg.pfxCtrl_enable then some (out s prMiss)
  else
    match s.pfx.match_ key a.domain with
    | none => some (out s prMiss)
    | some e =>
      let c := s.pfxCompare a e
      let v := c.s.pfx.entry e
      if !c.ready then none
      else if !c.same then some (out c.s prCollision)
      else if !c.streams then some (out c.s prMismatch)
      else if refMax < peRefs v + a.streams then some (out c.s prFull)
      else
        let s := { c.s with pfx := c.s.pfx.setEntry e (setBits v 215 192 (peRefs v + a.streams)) }
        let ws := (List.range a.ents.length).map (fun j => ((a.ents.getD j (0, 0)).1, entryOf (slice c.frames (8 * j) 8) e))
        some ((s.pfxCount true prDone).pfxAnswer a ws (clean (toLE 8 (peDesc v)) ++ blockOut key prDone e))

/-- Serves a PUBLISH (08 R320, R323); none where the key cannot be written, or a descriptor read, now. -/
def State.servePublish (s : State) (a : PfxAsk) : Option State :=
  let key := pageKey a
  let s := (s.incWrap Reg.pfxCntLookup_requests 1).pfxScan (setBase key)
  let w := s.skyWrite hostSite 0 (a.desc + 16) (clean key) false
  let out := fun (s : State) (r e : Nat) => (s.pfxCount false r).pfxAnswer a [] (blockOut key r e)
  if !w.ready then none
  else if !w.s.on Reg.pfxCtrl_enable then some (out w.s prFull 0)
  else
    match w.s.pfx.match_ key a.domain with
    | some e =>
      let c := w.s.pfxCompare a e
      if !c.ready then none else if c.same then some (out c.s prExists e) else some (out c.s prCollision 0)
    | none =>
      match w.s.pfx.freeWay key with
      | none => some (out w.s prFull 0)
      | some e =>
        let s := { w.s with pfx := w.s.pfx.setEntry e (peNew (leNat key) a.desc a.streams a.domain true) }
        let ws := a.ents.map (fun x => (x.1, clean (toLE 16 (pteValue (pteFrame x.2) 256 true e))))
        some ((s.pfxCount false prDone).pfxAnswer a ws (blockOut key prDone e))

/-- Drops one reference of an entry; at 0 it becomes RECLAIM and is posted (08 R321). One out of use is not counted
(16 R581). -/
def State.pfxRelease (s : State) (e : Nat) : State :=
  let s := s.pfxScan (e / 16 * 16)
  let v := s.pfx.entry e
  if s.pfx.dead.contains e ∨ peState v ≠ pfxLive ∨ peRefs v = 0 then s
  else
    let v := setBits v 215 192 (peRefs v - 1)
    if peRefs v = 0 then
      { s with pfx := { s.pfx.setEntry e (setBits v 225 224 pfxReclaimed) with reclaim := s.pfx.reclaim ++ [e] } }
    else { s with pfx := s.pfx.setEntry e v }

/-! ## Service (08 R323) -/

/-- The command of the host that a fork's place in the queue belongs to, if it is still to run. -/
def State.forkLives (s : State) (key : Nat) : Bool :=
  s.started.any (fun c => 2 ^ 16 * c.ring + c.head == key && c.done.isNone)

/-- A fork whose command has ended gives up its place. -/
def State.pfxTidy (s : State) : State :=
  { s with pfx := { s.pfx with queue := s.pfx.queue.dropWhile (fun x =>
      match x.req with
      | .fork key => !s.forkLives key
      | _ => false) } }

/-- The directory as an agent that reads tables. -/
def pfxKey : Nat := 2 ^ 40

/-- Serves the oldest request, if `serve` knows it and can serve it now; what it must read at other nodes first is
asked for. -/
def State.pfxServe (s : State) (serve : State → PfxReq → Option State) : State :=
  let s := s.pfxTidy
  match s.pfx.queue with
  | [] => s
  | x :: rest =>
    match s.lookUp hostSite pfxKey hostEngine (fun s =>
        (serve { s with pfx := { s.pfx with queue := rest } } x.req).map (fun t => (t, ()))) with
    | .waits s' => s'
    | .done s' _ => s'

/-- Serves a LINK. -/
def linkRequest (s : State) : PfxReq → Option State
  | .link a => s.serveLink a
  | _ => none

/-- Serves a PUBLISH. -/
def publishRequest (s : State) : PfxReq → Option State
  | .publish a => s.servePublish a
  | _ => none

/-- Serves a release. -/
def releaseRequest (s : State) : PfxReq → Option State
  | .release e => some (s.pfxRelease e)
  | _ => none

/-- The directory goes on with a request that it has begun to read for. -/
def State.pfxGo (s : State) : State :=
  if s.tables.any (fun t => t.ofAgent hostSite pfxKey) then (s.pfxServe linkRequest).pfxServe publishRequest else s

/-- PREFIX_LINK_REQUEST (08 R319, R323): the oldest request, if it is a LINK. -/
def execPrefixLinkRequest (s : State) : Host.Outcome State Fault Refusal := next (s.pfxServe linkRequest)

/-- PREFIX_PUBLISH_REQUEST (08 R320, R323). -/
def execPrefixPublishRequest (s : State) : Host.Outcome State Fault Refusal := next (s.pfxServe publishRequest)

/-- PREFIX_RELEASE (08 R321, R323). -/
def execPrefixRelease (s : State) : Host.Outcome State Fault Refusal := next (s.pfxServe releaseRequest)

/-- PFX_RECLAIM_RELEASE (08 R321, R325): frees the oldest entry in RECLAIM, which index names. -/
def execPfxReclaimRelease (v : BitVec 32) (s : State) : Host.Outcome State Fault Refusal :=
  match s.pfx.reclaim with
  | [] => next s
  | e :: rest =>
    if bit v.toNat 30 then next { s with pfx := { s.pfx.setEntry e 0 with reclaim := rest } } else next s

end Sys2Proof.Machine
end

