-- ==== Sys2Proof/Machine/Softmax.lean ====
section
/-!
DEFINITION. The softmax form of KVX (08 R305 to R311): state blocks, SMAX, MERGE, COMB and FIN, in binary32 with round
to nearest even.
-/
namespace Sys2Proof.Machine

/-! ## Arithmetic -/

/-- Sum. -/
def fAdd (x y : BitVec 32) : BitVec 32 := (arFloat .add false x y 0).1
/-- Difference. -/
def fSub (x y : BitVec 32) : BitVec 32 := (arFloat .sub false x y 0).1
/-- Product. -/
def fMul (x y : BitVec 32) : BitVec 32 := (arFloat .mul false x y 0).1
/-- Fused multiply-add. -/
def fFma (x y z : BitVec 32) : BitVec 32 := (arFloat .fma false x y z).1
/-- Quotient. -/
def fDiv (x y : BitVec 32) : BitVec 32 := (arFloat .div false x y 0).1
/-- Maximum. -/
def fMax (x y : BitVec 32) : BitVec 32 := (arFloat .max false x y 0).1
/-- The tile engine's EXP (05 R191). -/
def fExp (x : BitVec 32) : BitVec 32 := (xcn .exp false x).1
/-- The canonical NaN. -/
def fNan : BitVec 32 := 0x7FC00000
/-- −infinity. -/
def fNegInf : BitVec 32 := 0xFF800000
/-- One. -/
def fOne : BitVec 32 := 0x3F800000

/-- The bfloat16 code of a value, rounded to nearest even. -/
def bf16Of (x : BitVec 32) : Nat := (convF .bfloat16 .rne false (ofB32 x.toNat)).1
/-- The value of a bfloat16 code. -/
def ofBf16 (c : Nat) : BitVec 32 := BitVec.ofNat 32 (toB32 (valF .bfloat16 c))

/-- Levels of the tree, up to 4,096 leaves. -/
def treeLevels : Nat → List (Option FRes) → List (Option FRes)
  | 0, xs => xs
  | k + 1, xs => treeLevels k (treeLevel (fun x y => arFloat .add false x y 0) xs)

/-- treesum (08 R306): the binary tree of 05 R187 over the tokens in order. -/
def treeSum (xs : List (BitVec 32)) : BitVec 32 :=
  match treeLevels 12 (xs.map (fun x => some (x, Flags.none))) with
  | some r :: _ => r.1
  | _ => 0

/-! ## State blocks -/

/-- A head of a state block (08 R305) and whether its state carries poison. -/
structure Head where
  m : BitVec 32
  l : BitVec 32
  alpha : BitVec 32
  seen : Bool
  invalid : Bool
  masked : Bool
  bad : Bool
  deriving DecidableEq, Repr

/-- The 32-bit word at an offset of bytes. -/
def word32 (bs : List PByte) (o : Nat) : BitVec 32 := BitVec.ofNat 32 (leP (slice bs o 4))

/-- A head from its 16 bytes; reserved bits are ignored. -/
def Head.ofBytes (b : List PByte) : Head :=
  let fl := (word32 b 12).toNat
  { m := word32 b 0, l := word32 b 4, alpha := word32 b 8, seen := bit fl 0, invalid := bit fl 1, masked := bit fl 2
    bad := anyPoison b }

/-- A head's 16 bytes: reserved bits 0, all poison where it carries poison. -/
def Head.bytes (h : Head) : List PByte :=
  if h.bad then List.replicate 16 (0, true)
  else clean (toLE 4 h.m.toNat ++ toLE 4 h.l.toNat ++ toLE 4 h.alpha.toNat ++
    toLE 4 (b2n h.seen + b2n h.invalid * 2 + b2n h.masked * 4))

/-- The state a new softmax starts from (08 R306). -/
def Head.start : Head := ⟨fNegInf, 0, fOne, false, false, false, false⟩

/-- A head whose state and outputs are poisoned (08 R311). -/
def Head.poison (h : Head) : Head := { h with bad := true }

/-- A head that is invalid: m, l and alpha are the canonical NaN (08 R311). -/
def Head.nan (h : Head) : Head := { h with m := fNan, l := fNan, alpha := fNan, invalid := true }

/-- Bytes of a state block (08 R305). -/
def stateSize (g : Nat) : Nat := 16 + 16 * g

/-- The heads of a state block's bytes. -/
def headsOf (bs : List PByte) (g : Nat) : List Head := (List.range g).map (fun h => Head.ofBytes (slice bs (16 + 16 * h) 16))

/-- A row of n 4 B values, with whether any carries poison. -/
def State.row32 (s : State) (i a n : Nat) : State × List (BitVec 32) × Bool :=
  let r := s.readScratch i a (4 * n)
  (r.1, (List.range n).map (fun k => word32 r.2 (4 * k)), anyPoison r.2)

/-- Rows of a group, in head order. -/
def State.rows32 (s : State) (i a n g : Nat) : State × List (List (BitVec 32) × Bool) :=
  (List.range g).foldl (fun q h =>
    let r := q.1.row32 i (a + h * p4 n) n
    (r.1, q.2 ++ [r.2])) (s, [])

/-- Writes a row of codes of some bytes each, all poison where told. -/
def State.putRow (s : State) (i a width : Nat) (xs : List Nat) (bad : Bool) : State :=
  s.writeScratch i a (xs.flatMap (fun x => (toLE width x).map (fun b => (b, bad))))

/-- Writes the heads back, and the reserved fields of the block as 0 (08 R305). -/
def State.putHeads (s : State) (i a : Nat) (bs : List PByte) (hs : List Head) : State :=
  let any := leP (slice bs 4 4) % 4
  let s := s.writeScratch i (a + 4) ((toLE 4 any).map (fun b => (b, anyPoison (slice bs 0 8))))
  let s := s.writeScratch i (a + 8) (clean (List.replicate 8 0))
  s.writeScratch i (a + 16) (hs.flatMap Head.bytes)

/-! ## The steps on one head -/

/-- SMAX on a head: its new state and the codes of its weights (08 R306, R311). -/
def smaxHead (h : Head) (scale : BitVec 32) (scores : List (BitVec 32)) : Head × List Nat :=
  let xs := scores.map (fun v => fMul v scale)
  let mn := if h.invalid then fNan else fMax h.m (xs.foldl fMax fNegInf)
  let al := fExp (fSub h.m mn)
  let ps := xs.map (fun x => bf16Of (fExp (fSub x mn)))
  if mn = fNegInf then ({ h with alpha := fOne }, scores.map (fun _ => 0))
  else if h.invalid || xs.any (fun x => (ofB32 x.toNat).isNan || x == 0x7F800000) then ({ h.nan with seen := true }, ps)
  else ({ h with m := mn, l := fFma h.l al (treeSum (ps.map ofBf16)), alpha := al, seen := true }, ps)

/-- MERGE on a head: its accumulator row (08 R307, R311). -/
def mergeRow (h : Head) (first : Bool) (acc sums : List (BitVec 32)) : List (BitVec 32) :=
  if h.invalid then acc.map (fun _ => fNan)
  else if first then sums
  else List.zipWith (fun a x => fFma a h.alpha x) acc sums

/-- COMB on a head: its new state and accumulator row (08 R308, R311). -/
def combHead (a b : Head) (acc sums : List (BitVec 32)) : Head × List (BitVec 32) :=
  let h := { a with seen := a.seen || b.seen, invalid := a.invalid || b.invalid }
  if h.invalid then (h.nan, acc.map (fun _ => fNan))
  else
    let mn := fMax a.m b.m
    if mn = fNegInf then (h, acc)
    else
      let ea := fExp (fSub a.m mn)
      let eb := fExp (fSub b.m mn)
      ({ h with m := mn, l := fFma a.l ea (fMul b.l eb), alpha := ea },
        List.zipWith (fun x y => fFma x ea (fMul y eb)) acc sums)

/-- FIN on a head: its new state and its result row (08 R309, R311). -/
def finHead (h : Head) (acc : List (BitVec 32)) : Head × List (BitVec 32) :=
  if h.invalid then (h, acc.map (fun _ => fNan))
  else if h.seen then (h, acc.map (fun x => fDiv x h.l))
  else ({ h with masked := true }, acc.map (fun _ => 0))

/-! ## The instructions -/

/-- A softmax-form instruction (08 R294, R297): `dRow` and `xBytes` give the bytes of its operands. -/
def softForm (i n : Nat) (ops : List (Nat × Nat × Nat)) (maxLen : Nat) (useFirst useX : Bool)
    (dBytes xBytes : Nat → Nat → Nat) (act : KvxF → State → List PByte → Option (State × Done)) : Act := fun s =>
  let f := kvxF n ops
  if f.top != 0 || f.len == 0 || decide (maxLen < f.len) || (!useFirst && f.first) || !f.b.kvx (stateSize f.g) ||
      !f.d.kvx (dBytes f.g f.len) || (if useX then !f.x.kvx (xBytes f.g f.len) else !f.xClear) then
    refuse s stBadParam
  else
    let r := s.readScratch i f.b.ea (stateSize f.g)
    act f r.1 r.2

/-- POISONED where a head carries poison. -/
def headStatus (hs : List Head) : Nat := if hs.any Head.bad then stPoisoned else stOk

/-- A scale that is positive and finite (08 R297). -/
def scaleOk (x : BitVec 32) : Bool :=
  let v := ofB32 x.toNat
  v.isFin && !v.isZero && !v.signBit

/-- SMAX (08 R306). -/
def smaxAct (i n : Nat) (ops : List (Nat × Nat × Nat)) : Act :=
  softForm i n ops 4096 true true (fun g l => g * p2 l) (fun g l => g * p4 l)
  (fun f s bs =>
    let top := anyPoison (slice bs 0 8)
    let scale := word32 bs 0
    if !top && !scaleOk scale then refuse s stBadParam
    else
      let q := s.rows32 i f.x.ea f.len f.g
      let hs := (headsOf bs f.g).zip q.2
      let rs := hs.map (fun (p : Head × (List (BitVec 32) × Bool)) =>
        let h := if f.first then Head.start else p.1
        if h.bad || top || p.2.2 then (h.poison, p.2.1.map (fun _ => 0)) else smaxHead h scale p.2.1)
      let s := (List.range f.g).foldl (fun s h =>
        match rs[h]? with
        | some r => s.putRow i (f.d.ea + h * p2 f.len) 2 r.2 r.1.bad
        | none => s) q.1
      complete (s.putHeads i f.b.ea bs (rs.map Prod.fst)) (headStatus (rs.map Prod.fst)))

/-- SMAX (08 R306). -/
def execSmax (i : Site) (w : BitVec 128) (s : State) : Host.Outcome State Fault Refusal :=
  next (s.kvx i w 0x04 false (smaxAct i))

/-- Writes the accumulator rows of a group. -/
def State.putAcc (s : State) (i a n : Nat) (rs : List (Head × List (BitVec 32))) : State :=
  (List.range rs.length).foldl (fun s h =>
    match rs[h]? with
    | some r => s.putRow i (a + h * p4 n) 4 (r.2.map BitVec.toNat) r.1.bad
    | none => s) s

/-- MERGE (08 R307): it writes the state only of heads that poison reaches (R311). -/
def mergeAct (i n : Nat) (ops : List (Nat × Nat × Nat)) : Act :=
  softForm i n ops 512 true true (fun g l => g * p4 l) (fun g l => g * p4 l)
  (fun f s bs =>
    let top := anyPoison (slice bs 0 8)
    let a := s.rows32 i f.d.ea f.len f.g
    let x := a.1.rows32 i f.x.ea f.len f.g
    let rs := (List.range f.g).map (fun h =>
      let hd := (headsOf bs f.g).getD h Head.start
      let av := a.2.getD h ([], false)
      let xv := x.2.getD h ([], false)
      if hd.bad || top || xv.2 || (av.2 && !f.first) then (hd.poison, av.1)
      else (hd, mergeRow hd f.first av.1 xv.1))
    let s := x.1.putAcc i f.d.ea f.len rs
    let hs := rs.map Prod.fst
    complete (if hs.any Head.bad then s.putHeads i f.b.ea bs hs else s) (headStatus hs))

/-- MERGE (08 R307). -/
def execMerge (i : Site) (w : BitVec 128) (s : State) : Host.Outcome State Fault Refusal :=
  next (s.kvx i w 0x05 false (mergeAct i))

/-- COMB (08 R308): B is a state block, then its accumulator. -/
def combAct (i n : Nat) (ops : List (Nat × Nat × Nat)) : Act :=
  softForm i n ops 512 false true (fun g l => g * p4 l)
  (fun g l => stateSize g + g * p4 l)
  (fun f s bs =>
    let top := anyPoison (slice bs 0 8)
    let a := s.rows32 i f.d.ea f.len f.g
    let b := a.1.readScratch i f.x.ea (stateSize f.g)
    let x := b.1.rows32 i (f.x.ea + stateSize f.g) f.len f.g
    let rs := (List.range f.g).map (fun h =>
      let hd := (headsOf bs f.g).getD h Head.start
      let hb := (headsOf b.2 f.g).getD h Head.start
      let av := a.2.getD h ([], false)
      let xv := x.2.getD h ([], false)
      if hd.bad || top || hb.bad || av.2 || xv.2 then (hd.poison, av.1) else combHead hd hb av.1 xv.1)
    let hs := rs.map Prod.fst
    complete ((x.1.putAcc i f.d.ea f.len rs).putHeads i f.b.ea bs hs) (headStatus hs))

/-- COMB (08 R308). -/
def execComb (i : Site) (w : BitVec 128) (s : State) : Host.Outcome State Fault Refusal :=
  next (s.kvx i w 0x06 false (combAct i))

/-- FIN (08 R309): it then updates `any`, with poison where a head's state is unknown. -/
def finAct (i n : Nat) (ops : List (Nat × Nat × Nat)) : Act :=
  softForm i n ops 512 false false (fun g l => g * p4 l) (fun _ _ => 0)
  (fun f s bs =>
    let top := anyPoison (slice bs 0 8)
    let a := s.rows32 i f.d.ea f.len f.g
    let rs := (List.range f.g).map (fun h =>
      let hd := (headsOf bs f.g).getD h Head.start
      let av := a.2.getD h ([], false)
      if hd.bad || top || av.2 then (hd.poison, av.1) else finHead hd av.1)
    let hs := rs.map Prod.fst
    let s := (a.1.putAcc i f.d.ea f.len rs).putHeads i f.b.ea bs hs
    let any := b2n (hs.any Head.masked) + b2n (hs.any Head.invalid) * 2
    complete (s.putRow i (f.b.ea + 4) 4 [any] (hs.any Head.bad)) (headStatus hs))

/-- FIN (08 R309). -/
def execFin (i : Site) (w : BitVec 128) (s : State) : Host.Outcome State Fault Refusal :=
  next (s.kvx i w 0x07 false (finAct i))

end Sys2Proof.Machine
end

