-- ==== Sys2Proof/Machine/QueueOps.lean ====
section
/-!
DEFINITION. The shared operations of stage queues and senders (chapter 09): requests and their record (R332), placement
(R334), arrival of words (R336), loss (R340), taking the head (R337, R339), closing (R342), and the bundle counters
(10 R389, R390).
-/
namespace Sys2Proof.Machine

/-! ## Bundles -/

/-- CLOSED of SQ_STATUS.state. -/
def sqClosed : Nat := 0
/-- OPEN. -/
def sqOpen : Nat := 1
/-- LOST (09 R341). -/
def sqLost : Nat := 2

/-- SQ_STATUS.state of a site's queue. -/
def State.sqState (s : State) (q : Nat) : Nat := s.getF (Reg.sqStatus_state q)

/-- Payload words of a header (09 R330). -/
def hdrWords (h : BitVec 64) : Nat := bits h.toNat 12 0

/-- The header of a bundle. -/
def bundleHeader (words utag src : Nat) : BitVec 64 := BitVec.ofNat 64 (words + utag * 2 ^ 16 + src * 2 ^ 32)

/-- A header with its lost bit set. -/
def lostHeader (h : BitVec 64) : BitVec 64 := BitVec.ofNat 64 (setBits h.toNat 13 13 1)

/-- Payload words of a bundle. -/
def Bundle.size (b : Bundle) : Nat := hdrWords b.header
/-- Have all its words arrived? -/
def Bundle.whole (b : Bundle) : Bool := decide (b.size ≤ b.words.length)

/-- Words of a bundle that have arrived, in payload order, from one on (09 R336). -/
def wordRun : Nat → SMap QWord → Nat
  | _, [] => 0
  | k, e :: m => if e.1 = k then wordRun (k + 1) m + 1 else 0

/-- The words of a bundle that have arrived. -/
def Bundle.arrived (b : Bundle) : Nat := wordRun 0 b.words

/-- SQ_STATUS, SQ_FILL and SQ_HEAD show the queue (09 R358). -/
def State.queueShow (s : State) (q : Nat) : State :=
  let x := s.queue q
  let s := s.setF (Reg.sqStatus_wb q) x.wb
  let s := s.setF (Reg.sqStatus_rb q) ((x.resident.head?.map Bundle.bank).getD 0)
  let s := s.setF (Reg.sqStatus_resident q) x.resident.length
  let s := s.setF (Reg.sqStatus_requests q) x.requests.length
  let s := s.setF (Reg.sqFill_bytes q) (x.resident.foldl (fun n b => n + 8 + 8 * b.size) 0)
  s.setF (Reg.sqHead_header q) ((x.resident.head?.map (fun b => b.header.toNat)).getD 0)

/-! ## Senders -/

/-- The bundle a sender sends. -/
def State.senderId (s : State) (x : Sender) : BundleId := ⟨s.vidOf x.site, x.engine, x.seq⟩

/-- The sender of an engine of a site. -/
def State.sender? (s : State) (i e : Nat) : Option Sender := s.senders.find? (fun x => x.site == i && x.engine == e)

/-- Replaces the sender of an engine of a site. -/
def State.setSender (s : State) (x : Sender) : State :=
  { s with senders := s.senders.map (fun y => if y.site = x.site ∧ y.engine = x.engine then x else y) }

/-- A sequence value is resolved: it becomes free a lifetime of the sending tower later (10 R389). -/
def State.resolveSeq (s : State) (i e seq : Nat) : State :=
  let c := s.seqCtr i e
  s.setSeqCtr i e { c with
    busy := c.busy.map (fun b => if b.1 = seq ∧ b.2 = none then (b.1, some (s.now + s.lifetime (towerOf i))) else b) }

/-- The instruction of a sender completes with a status (09 R338, R342). -/
def State.endSender (s : State) (x : Sender) (st : Nat) : State :=
  let s := { s with senders := s.senders.filter (fun y => !(y.site == x.site && y.engine == x.engine))
                    sent := s.sent.filter (fun y => y.job != x.job || y.pkt.cls != clsTok) }
  let s := s.resolveSeq x.site x.engine x.seq
  match s.job? x.job with
  | none => s
  | some j => s.endJob j st false

/-- The status of a bundle that arrived whole: POISONED where a source word carried poison (00 R26). -/
def sentStatus (x : Sender) : Nat := if x.words.any Prod.snd then stPoisoned else stOk

/-- The POP or POPA in progress at a site: the head of its SQ queue, where no PUSH is sending (09 R338, R347, R354). -/
def State.popHead (s : State) (i : Nat) : Option EngIns :=
  if (s.sender? i 7).isSome then none else (s.core i).sq.head?.filter (fun e => iOp e.w.toNat != 0)

/-- A POP or POPA waits for a bundle at a site (09 R347, R354, R358). -/
def State.popWaits (s : State) (i : Nat) : Bool := (s.popHead i).any (fun e => !e.begun)

/-- A sender of this package that sends a bundle. -/
def State.localSender (s : State) (id : BundleId) : Option Sender :=
  s.senders.find? (fun x => !x.remote && s.senderId x == id)

/-! ## Requests -/

/-- What a request meets (09 R332, 10 R388). -/
inductive ReqAns where
  | recorded
  | again
  | refused (st : Nat)
  deriving DecidableEq, Repr

/-- Requests a queue records (09 R332). -/
def reqMax : Nat := 32

/-- Records or refuses an admission request (09 R326, R332, R341, R342, 10 R388). -/
def State.recordReq (s : State) (q : Nat) (r : QReq) : State × ReqAns :=
  let x := s.queue q
  if !s.coreOn q then (s, .refused stEngineAbsent)
  else if s.sqState q != sqOpen then (s.incSat (Reg.sqErr_refused q) 1, .refused stSqClosed)
  else if x.requests.any (fun y => y.id == r.id) then
    (s.setQueue q { x with requests := x.requests.map (fun y => if y.id = r.id then { y with tag := r.tag } else y) },
      .recorded)
  else if x.resident.any (fun b => b.id == r.id && !b.whole) then (s, .again)
  else if reqMax ≤ x.requests.length then (s, .refused stNoResource)
  else ((s.setQueue q { x with requests := x.requests ++ [r] }).queueShow q, .recorded)

/-! ## Placement (09 R334) -/

/-- Bytes of a bank. -/
def sqBank : Nat := 65536
/-- Descriptors of a queue. -/
def sqDescs : Nat := 128

/-- Where a bundle of z bytes goes: the bank and offset written next, its bank and its offset. -/
def StageQueue.place (x : StageQueue) (z : Nat) : Option (Nat × Nat × Nat × Nat) :=
  let wp := if x.resident.isEmpty then 0 else x.wp
  if sqDescs ≤ x.resident.length then none
  else if wp + z ≤ sqBank then some (x.wb, wp + z, x.wb, wp)
  else if !x.resident.any (fun b => b.bank == 1 - x.wb) then some (1 - x.wb, z, 1 - x.wb, 0)
  else none

/-- Every word of a bundle, poisoned. -/
def poisonWords (n : Nat) : SMap QWord := (List.range n).map (fun k => (k, ⟨0, true, true⟩))

/-- The answer to a packet that a queue keeps only the tag of. -/
def tokPacket (src engine tag_ : Nat) : Packet := { Packet.blank with cls := clsTok, src := src, srcEngine := engine, tag := tag_ }

/-- What the admission of a bundle tells its sender (09 R332, 10 R374): one without payload has arrived. -/
def State.tellAdmitted (s : State) (q : Nat) (r : QReq) : State :=
  if r.abandoned then s
  else if r.remote then s.answer q (tokPacket r.id.src r.id.engine r.tag) 6 stOk []
  else
    match s.localSender r.id with
    | none => s
    | some x => if x.words.isEmpty then s.endSender x (sentStatus x) else s.setSender { x with st := .admitted }

/-- Remembered bundles of a queue (10 R390). -/
def rememberMax : Nat := 1024

/-- Remembers a bundle that has arrived whole. -/
def State.remember (s : State) (q : Nat) (id : BundleId) : State :=
  let x := s.queue q
  let xs := x.remembered ++ [(id, s.now + 2 * s.lifetime (towerOf q))]
  s.setQueue q { x with remembered := xs.drop (xs.length - rememberMax) }

/-- Admits the oldest request if it can be placed (09 R334); a queue that is LOST admits nothing (10 R388). -/
def State.admitReq (s : State) (q : Nat) : State :=
  let x := s.queue q
  match x.requests with
  | [] => s
  | r :: rest =>
    let n := hdrWords r.header
    match if s.sqState q = sqLost then none else x.place (8 + 8 * n) with
    | none => s
    | some (wb, wp, bank, pos) =>
      let b : Bundle :=
        { id := r.id, header := if r.abandoned then lostHeader r.header else r.header, bank := bank, pos := pos
          words := if r.abandoned then poisonWords n else [], lost := r.abandoned, lastWord := s.now, remote := r.remote }
      let s := s.setQueue q { x with
        wb := wb, wp := wp, requests := rest, resident := x.resident ++ [b], stallSent := false }
      let s := (s.incWrap (Reg.sqCntIn_bundles q) 1).incWrap (Reg.sqCntBytes_words q) n
      let s := if n = 0 ∧ !r.abandoned then s.remember q r.id else s
      (s.tellAdmitted q r).queueShow q

/-! ## Words -/

/-- Replaces a resident bundle. -/
def State.setBundle (s : State) (q : Nat) (b : Bundle) : State :=
  let x := s.queue q
  s.setQueue q { x with resident := x.resident.map (fun y => if y.id = b.id ∧ !y.whole then b else y) }

/-- Puts words that arrived into a bundle from an offset on; the bundle is remembered once it is whole (09 R336,
10 R390). -/
def State.putWords (s : State) (q : Nat) (b : Bundle) (off : Nat) (ws : List QWord) : State × Bundle :=
  let ws := ws.take (b.size - off)
  let words := (List.range ws.length).foldl (fun m k =>
    match ws[k]? with
    | some w => SMap.insert (off + k) w m
    | none => m) b.words
  let b' := { b with words := words, lastWord := s.now }
  let s := s.setBundle q b'
  (if b'.whole then s.remember q b.id else s, b')

/-- Completes a bundle whose missing words are undeliverable: they are poisoned and its lost bit is set (09 R340). -/
def State.loseBundle (s : State) (q : Nat) (b : Bundle) : State :=
  let words := (List.range b.size).foldl (fun m k =>
    match SMap.find m k with
    | some _ => m
    | none => SMap.insert k (⟨0, true, true⟩ : QWord) m) b.words
  let s := s.setBundle q { b with words := words, lost := true, header := lostHeader b.header }
  (s.incSat (Reg.sqErr_lost q) 1).queueShow q

/-! ## The head -/

/-- Is the head bundle available (09 R337)? -/
def State.headReady (s : State) (q : Nat) : Bool :=
  match (s.queue q).resident with
  | [] => false
  | b :: _ =>
    let cut := s.getF (Reg.sqCtrl_cut q)
    b.whole || (cut != 0 && decide (cut * 256 ≤ 8 * b.words.length))

/-- A word that is read: its bytes, poisoned where its poison bit is set or its parity fails (09 R339). -/
def QWord.read (w : QWord) (bad : Bool) : List PByte :=
  (toLE 8 w.d.toNat).map (fun b => (b, w.poison || !w.parityOk || bad))

/-- Counts and reports words of a queue that are read with failed parity (09 R339). -/
def State.parityFails (s : State) (q n : Nat) : State :=
  (List.range n).foldl (fun s _ => s.record (mkRecord s 2 4 q stPoisoned 7 0 0)) (s.incSat (Reg.sqErr_parity q) n)

/-- Reads m words of the head bundle from the k-th on (09 R339, R358): an armed injection makes its first payload word
fail. -/
def State.readWords (s : State) (q : Nat) (b : Bundle) (k m : Nat) : State × List PByte :=
  let arm := s.on (Reg.sqInject_arm q) && k == 0 && m != 0
  let ws := (((b.words.map Prod.snd).drop k).take m).zip (arm :: List.replicate m false)
  let fails := (ws.filter (fun w => !w.1.parityOk || w.2)).length
  ((if arm then s.setF (Reg.sqInject_arm q) 0 else s).parityFails q fails, ws.flatMap (fun w => w.1.read w.2))

/-- Reads the header word of the head bundle: an armed injection makes it fail where the payload is empty. -/
def State.readHeader (s : State) (q : Nat) (b : Bundle) : State × List PByte :=
  let arm := s.on (Reg.sqInject_arm q) && b.size == 0
  (if arm then (s.setF (Reg.sqInject_arm q) 0).parityFails q 1 else s, (toLE 8 b.header.toNat).map (fun x => (x, arm)))

/-- The head bundle is released (09 R334, R347). -/
def State.releaseHead (s : State) (q : Nat) : State :=
  let x := s.queue q
  (s.setQueue q { x with resident := x.resident.drop 1 }).queueShow q

/-! ## Closing -/

/-- A request that is refused is made again later where it may be (09 R332, R352, 10 R384): after 1 µs where the record was
full; after 10 µs, for 100 ms, where the tower is in reset. -/
def State.askAgain (s : State) (x : Sender) (st : Nat) : Option State :=
  if st = stNoResource then some (s.setSender { x with st := .asking (s.now + us 1), firstRefusal := 1 })
  else if st = stNodeResetting then
    let first := if x.firstRefusal ≤ 1 then s.now + 2 else x.firstRefusal
    if first + ms 100 ≤ s.now + 2 then none
    else some (s.setSender { x with st := .asking (s.now + us 10), firstRefusal := first })
  else none

/-- A POP or POPA that has begun on a bundle that is discarded waits for the next one. -/
def State.unbegin (s : State) (q : Nat) : State :=
  match (s.core q).sq with
  | [] => s
  | e :: rest =>
    if e.begun then s.setCore q { s.core q with sq := { e with begun := false, copied := 0, st := stOk, block := [] } :: rest }
    else s

/-- Empties a queue: its bundles are discarded, its requests refused and counted, its memory forgotten (09 R342, R358,
10 R390). A sender of this package completes with the status; one whose request a reset refuses makes it again
(R352). -/
def State.emptyQueue (s : State) (q st : Nat) : State :=
  let x := s.queue q
  let ids := x.requests.map QReq.id ++ (x.resident.filter (fun b => !b.whole)).map Bundle.id
  let s := (s.setQueue q StageQueue.reset).unbegin q
  let s := if st = stSqClosed then s.incSat (Reg.sqErr_refused q) (x.requests.filter (fun r => !r.abandoned)).length else s
  let s := x.requests.foldl (fun s r =>
    if r.remote ∧ !r.abandoned then s.answer q (tokPacket r.id.src r.id.engine r.tag) 5 st [] else s) s
  let s := ids.foldl (fun s id =>
    match s.localSender id with
    | some y =>
      if y.dst != q then s
      else
        match if y.st = .recorded then s.askAgain y st else none with
        | some s' => s'
        | none => s.endSender y st
    | none => s) s
  s.queueShow q

/-! ## Counters -/

/-- The value of the next bundle of an engine of a site, and the counter past it (10 R389). -/
def State.takeSeq (s : State) (i e : Nat) : State × Nat :=
  let c := s.seqCtr i e
  (s.setSeqCtr i e { c with next := (c.next + 1) % 65536 }, c.next)

/-- Is a value free to use (10 R389)? -/
def State.seqFree (s : State) (i e seq : Nat) : Bool :=
  !(s.seqCtr i e).busy.any (fun b => b.1 == seq &&
    match b.2 with
    | none => true
    | some t => decide (s.now < t))

/-- A value is in use. -/
def State.useSeq (s : State) (i e seq : Nat) : State :=
  let c := s.seqCtr i e
  s.setSeqCtr i e { c with busy := (c.busy.filter (fun b => b.1 != seq)) ++ [(seq, none)] }

/-- Begins to send a bundle for an instruction (09 R332): the request goes out at ADMISSION_REQUEST. -/
def State.startSender (s : State) (i e op itag dst : Nat) (remote : Bool) (utag : Nat) (payload : List PByte)
    (addr : Nat) : State :=
  let n := payload.length / 8
  let words := (List.range n).map (fun k =>
    let b := slice payload (8 * k) 8
    (BitVec.ofNat 64 (leP b), anyPoison b))
  let r := s.takeSeq i e
  let id := r.1.newJob
  let s := r.1.addJob { Job.start id i e op itag with left := 1, addr := addr, space := 1 }
  { s with senders := s.senders ++
      [{ site := i, engine := e, op := op, itag := itag, seq := r.2, dst := dst, remote := remote
         header := bundleHeader n utag (s.vidOf i), words := words, next := 0, job := id, st := .asking s.now
         firstRefusal := 0 }] }

end Sys2Proof.Machine
end

