-- ==== Sys2Proof/Machine/FmvOps.lean ====
section
/-!
DEFINITION. What the FMV instructions do once their engine starts them: PUT, GET and PUTF (10 R397 to R399), TSEND
(09 R351, R352) and REPLY (09 R355, R356).
-/
namespace Sys2Proof.Machine

/-- The operands of the four generator fields at displacement 0: space, base and effective address. -/
def engOps (c : Core) (n : Nat) : List (Nat × Nat × Nat) :=
  [bits n 35 32, bits n 39 36, bits n 43 40, bits n 47 44].map (fun g =>
    let o := c.opnd g 0
    (o.space, o.base, o.ea))

/-- A range of the scratchpad or the own vault (01 R36, 02 R75). -/
def Opnd.near (o : Opnd) (n : Nat) : Bool := o.inScratch n || (o.space == spGround && decide (o.ea + n ≤ vaultSize))

/-- Can a near range be read now? -/
def State.nearReady (s : State) (i : Nat) (o : Opnd) (n : Nat) (write : Bool) : Bool :=
  o.space == spScratch || s.pieceReady (towerOf i) write ⟨.vault i o.ea, 0, n⟩

/-- Reads a near range. -/
def State.readNear (s : State) (i space a n : Nat) (narrow : Bool) : State × List PByte × Nat :=
  if space = spScratch then
    let r := s.readScratch i a n
    (r.1, r.2, srcStatus r.2)
  else (s.touchedMem i [(i, a, n)]).readAs i i a n narrow

/-- Bytes of an FMV packet (10 R373, R392). -/
def fmvPkt : Nat := 256

/-! ## PUT, GET, PUTF -/

/-- The length of R398. -/
def bulkLen (n : Nat) : Nat := if bits n 72 48 = 0 then 16777216 else bits n 72 48

/-- Is a reserved field or the length of R398 wrong? PUT and GET hold no flag and no addend. -/
def bulkBad (n : Nat) (flag : Bool) : Bool :=
  bits n 47 44 != 0 || bits n 127 106 != 0 || decide (16777216 < bits n 72 48) ||
  (!flag && (bits n 43 40 != 0 || bits n 104 73 != 0))

/-- A status with which PUTF and REPLY still make their add (10 R399). -/
def addsAnyway (st : Nat) : Bool := !hardSt st

/-- Makes a flag add at a vault of this package, or sends it (10 R393, R399): the state, the status, packets sent. -/
def State.addFlag (s : State) (i job : Nat) (remote : Bool) (v off addend : Nat) : State × Nat × Nat :=
  let x := clean (toLE 8 addend)
  if remote then
    (s.request i 5 job .none { Packet.blank with
      op := 2, aop := 16, length := 8, narrow := true, dst := v * 2 ^ 32 + off, payload := x }, stOk, 1)
  else
    let r := s.atomicAs i v off 0 true x []
    (r.1, r.2.2, 0)

/-- PUT and PUTF (10 R398, R399). -/
def putAct (i n : Nat) (flag : Bool) (ops : List (Nat × Nat × Nat)) : Act := fun s =>
  let dst := opAt ops 0
  let src := opAt ops 1
  let f := opAt ops 2
  let len := bulkLen n
  let narrow := bit n 105
  let op := if flag then 2 else 0
  if bulkBad n flag || !src.near len || (dst.space != spSky && dst.space != spVirt) || (flag && badFlag f) then
    refuse s stBadParam
  else
    let x := s.resolve i dst len true
    if x.st != stOk then some (x.s, Done.at_ x.st dst.space dst.ea)
    else
      let y := if flag then x.s.resolve i f 8 true else ⟨x.s, stOk, [], true⟩
      if y.st != stOk then some (y.s, Done.at_ y.st f.space f.ea)
      else if !x.ready || !y.ready || !y.pieces.all (y.s.atomicReady (towerOf i)) || !y.s.nearReady i src len false then none
      else
        let d := y.s.readNear i src.space src.ea len narrow
        let r := d.1.writePieces i x.pieces d.2.1 narrow
        let bad := hardSt d.2.2
        let e := if bad then src else dst
        let st := worse d.2.2 r.2.1
        let id := r.1.newJob
        let at_ := match y.pieces with
          | ⟨.vault v off, _, _⟩ :: _ => (false, v, off)
          | ⟨.remote vid off, _, _⟩ :: _ => (true, vid, off)
          | [] => (false, 0, 0)
        let fin := if flag then JobEnd.flagAdd at_.1 at_.2.1 at_.2.2 (bits n 104 73) else .plain
        let j := { Job.start id i 5 op (iTag n) with
          status := st, first := if bad then 0 else r.2.2, addr := e.ea, space := e.space, fin := fin }
        let q := (r.1.addJob j).sendWrites i 5 id fmvPkt src.ea narrow d.2.1 x.pieces
        if q.2 != 0 then some (q.1.setJob { j with left := q.2 }, Done.of stOk)
        else
          let drop := fun (s : State) => { s with jobs := s.jobs.filter (fun z => z.id != id) }
          if !flag || !addsAnyway st then some (drop q.1, Done.at_ st e.space e.ea)
          else
            let a := q.1.addFlag i id at_.1 at_.2.1 at_.2.2 (bits n 104 73)
            if a.2.2 != 0 then some (a.1.setJob { j with left := a.2.2, fin := .plain }, Done.of stOk)
            else some (drop a.1, Done.at_ (worse st a.2.1) f.space f.ea)

/-- GET (10 R398). -/
def getAct (i n : Nat) (ops : List (Nat × Nat × Nat)) : Act := fun s =>
  let dst := opAt ops 0
  let src := opAt ops 1
  let len := bulkLen n
  let narrow := bit n 105
  if bulkBad n false || !dst.near len || (src.space != spSky && src.space != spVirt) then refuse s stBadParam
  else if dst.space = spScratch then s.pull i 5 1 (iTag n) fmvPkt src dst.ea len narrow
  else
    let x := s.resolve i src len false
    if x.st != stOk then some (x.s, Done.at_ x.st src.space src.ea)
    else if !x.ready || !x.s.nearReady i dst len true then none
    else
      let r := x.s.readPieces i x.pieces narrow
      let w := r.2.1.foldl (fun (q : State × Nat) p =>
        let y := q.1.writeAs i i (dst.ea + p.1) p.2 false
        (y.1, worse q.2 y.2)) (r.1.touchedMem i [(i, dst.ea, len)], r.2.2)
      let e := if hardSt w.2 && !hardSt r.2.2 then dst else src
      let id := w.1.newJob
      let j := { Job.start id i 5 1 (iTag n) with
        status := w.2, addr := e.ea, space := e.space, mem := [(i, dst.ea, len)] }
      let q := (w.1.addJob j).sendReads i 5 id fmvPkt narrow (fun pos => .vault i (dst.ea + pos)) x.pieces
      if q.2 = 0 then some ({ q.1 with jobs := q.1.jobs.filter (fun z => z.id != id) }, Done.at_ w.2 e.space e.ea)
      else some (q.1.setJob { j with left := q.2 }, Done.of stOk)

/-! ## TSEND -/

/-- A sky address with room for n bytes of a vault (01 R37, R39). -/
def skyRoom (a n : Nat) : Bool := skyOk a && decide (bits a 31 0 + n ≤ vaultSize)

/-- The queue that a queue address names: a site of this package, or a vault ID of another node (09 R345, R352). -/
def State.queueAt (s : State) (i q : Nat) : Except Nat (Bool × Nat) :=
  let node := bits q 63 44
  let t := towerOf i
  if node = 0xFFFFF ∨ node = s.nodeOf t then
    let v := bits q 43 42 * 576 + bits q 41 37 * 24 + bits q 36 32
    if s.diePath t (towerOf v) = .none then .error stUnreachable
    else if !s.coreOn v then .error stEngineAbsent
    else .ok (false, v)
  else
    match s.route t node with
    | none => .error stUnreachable
    | some _ => .ok (true, q / 2 ^ 32)

/-- Is a queue address malformed? -/
def badQueue (q : Nat) : Bool := bits q 31 0 != 0 || !skyOk q

/-- Payload bytes at most (09 R330). -/
def payloadMax : Nat := 65528

/-- The dispatch block of R351. -/
structure Dispatch where
  base : Nat
  flag : Nat
  pitch : Nat
  srcPitch : Nat
  sel : Nat
  shift : Nat
  rsv : Nat
  deriving DecidableEq, Repr

/-- The block from its bytes. -/
def Dispatch.parse (b : List PByte) : Dispatch :=
  let f := fun (o n : Nat) => leP (slice b o n)
  { base := f 0 8, flag := f 8 8, pitch := f 16 4, srcPitch := f 24 4, sel := f 28 1, shift := f 29 1, rsv := f 30 2 }

/-- The checks of R352 on a block; a poisoned reply field is not judged, it travels as poison. -/
def Dispatch.ok (d : Dispatch) (b : List PByte) : Bool :=
  let p := fun (o n : Nat) => anyPoison (slice b o n)
  d.rsv == 0 && decide (d.sel ≤ 1) && decide (d.shift ≤ 31) && (p 0 8 || skyRoom d.base 1) &&
  (p 8 8 || (skyRoom d.flag 8 && d.flag % 8 == 0)) && (p 16 8 || (decide (32 ≤ d.pitch) && d.pitch % 32 == 0))

/-- A row size of R351, R353, R355. -/
def rowOk (rb : Nat) : Bool := decide (32 ≤ rb) && decide (rb ≤ 32768) && rb % 32 == 0

/-- The rows of a token bundle: each an address, or none where a poisoned index names no row. -/
def tsendRows (d : Dispatch) (src : Opnd) (idx : List PByte) (c : Nat) : List (Option Nat) :=
  (List.range c).map (fun k =>
    let b := slice idx (4 * k) 4
    if d.sel = 1 ∧ anyPoison b then none
    else some ((src.ea + (if d.sel = 1 then leP b / 2 ^ d.shift else k) * d.srcPitch) % 2 ^ 64))

/-- TSEND (09 R349, R351, R352). -/
def tsendAct (i n : Nat) (ops : List (Nat × Nat × Nat)) : Act := fun s =>
  let q := opAt ops 0
  let l := opAt ops 1
  let src := opAt ops 2
  let b := opAt ops 3
  let rb := bits n 63 48
  if bits n 127 80 != 0 || !rowOk rb || !q.inScratch 8 || !l.inScratch 4 || !b.inScratch 32 ||
      (src.space != spScratch && src.space != spGround) then refuse s stBadParam
  else
    let qw := s.readScratch i q.ea 8
    let bl := qw.1.readScratch i b.ea 32
    let cw := bl.1.readScratch i l.ea 4
    let s := cw.1
    if anyPoison qw.2 || anyPoison cw.2 || anyPoison (slice bl.2 24 8) then complete s stPoisoned
    else
      let c := leP cw.2
      let d := Dispatch.parse bl.2
      let addr := leP qw.2
      if scratchSize < l.ea + 4 + 4 * c ∨ !d.ok bl.2 ∨ badQueue addr then refuse s stBadParam
      else
        let ix := s.readScratch i (l.ea + 4) (4 * c)
        let dst := match ix.1.queueAt i addr with
          | .ok (false, v) => s.vidOf v
          | _ => addr / 2 ^ 32
        let route := some (dst, bits n 79 64, c)
        let rows := tsendRows d src ix.2 c
        if rows.any (fun r => match r with | some a => !({ src with ea := a } : Opnd).near rb | none => false) then
          some (ix.1, { Done.of stBadParam with route := route })
        else
          match ix.1.queueAt i addr with
          | .error st => some (ix.1, { Done.at_ st spSky addr with route := route })
          | .ok dst =>
            if payloadMax < 32 + 8 * ceilDiv c 2 + c * rb then
              some (ix.1, { Done.at_ stBundleMisfit spSky addr with route := route })
            else if !rows.all (fun r => match r with
                | some a => ix.1.nearReady i { src with ea := a } rb false
                | none => true) then none
            else
              let rs := rows.foldl (fun (x : State × List PByte × Nat) r =>
                match r with
                | some a =>
                  let y := x.1.readNear i src.space a rb false
                  (y.1, x.2.1 ++ y.2.1, if y.2.2 = stMemRetired then y.2.2 else x.2.2)
                | none => (x.1, x.2.1 ++ List.replicate rb (0, true), x.2.2)) (ix.1, [], stOk)
              if rs.2.2 != stOk then some (rs.1, { Done.at_ rs.2.2 src.space src.ea with route := route })
              else
                let pad := List.replicate (8 * ceilDiv c 2 - 4 * c) ((0 : Byte), false)
                let payload := clean (toLE 4 c ++ List.replicate 4 0) ++ bl.2.take 24 ++ ix.2 ++ pad ++ rs.2.1
                let id := rs.1.newJob
                let s := rs.1.startSender i 5 0x10 (iTag n) dst.2 dst.1 (bits n 79 64) payload addr
                complete { s with jobs := s.jobs.map (fun j => if j.id = id then { j with route := route } else j) } stOk

/-! ## REPLY -/

/-- What a plan for REPLY yields: its segments and a status so far, or how it ends. -/
structure RepPlan where
  s : State
  st : Nat
  segs : List RepSeg
  bad : Bool

/-- One segment of the plan (09 R355, R356). -/
def RepPlan.seg (p : RepPlan) (rb ra nrows : Nat) (d idx : List PByte) : RepPlan :=
  let f := fun (o n : Nat) => leP (slice d o n)
  let first := f 0 4
  let c := f 4 4
  if p.bad then p
  else if anyPoison d then { p with st := stPoisoned }
  else if f 24 4 < rb then { p with bad := true }
  else if c = 0 then p
  else if anyPoison (slice idx (4 * first) (4 * c)) then { p with st := stPoisoned }
  else if nrows < first + c ∨ !skyRoom (f 16 8) 8 ∨ f 16 8 % 8 ≠ 0 then { p with bad := true }
  else
    let rows := (List.range c).map (fun k =>
      let x : Int := (leP (slice idx (4 * (first + k)) 4) : Int) - f 28 4
      (wrap 64 ((f 8 8 : Int) + x * f 24 4), ra + (first + k) * rb))
    if rows.all (fun r => skyRoom r.1 rb) then { p with segs := p.segs ++ [⟨f 16 8, c, rows⟩] } else { p with bad := true }

/-- What is left of a REPLY. -/
structure RepOut where
  s : State
  j : Job
  waits : Bool

/-- Writes the rows of a segment: local slots at once, the others by packets (09 R356). -/
def State.repRows (s : State) (i job space rb : Nat) (rows : List (Nat × Nat)) : State × Nat × Nat :=
  rows.foldl (fun (x : State × Nat × Nat) r =>
    let d := x.1.readNear i space r.2 rb false
    match d.1.placeOf (towerOf i) r.1 with
    | .error e => (d.1, worse x.2.1 e, x.2.2)
    | .ok (.vault v off) =>
      let w := (d.1.touchedMem i [(v, off, rb)]).writeAs i v off d.2.1 false
      (w.1, worse x.2.1 (worse w.2 d.2.2), x.2.2)
    | .ok (.remote vid off) =>
      let w := d.1.sendWrites i 5 job fmvPkt r.2 false d.2.1 [⟨.remote vid off, 0, rb⟩]
      (w.1, worse x.2.1 d.2.2, x.2.2 + w.2)) (s, stOk, 0)

/-- Goes through the segments in order: rows, then the flag (09 R356). A failed write ends it without the add. -/
def replyGo : List RepSeg → Bool → State → Job → Nat → Nat → RepOut
  | [], _, s, j, _, _ => ⟨s, j, false⟩
  | g :: gs, rowsDone, s, j, space, rb =>
    let r := if rowsDone then (s, stOk, 0) else s.repRows j.site j.id space rb g.rows
    let j := { j with status := worse j.status r.2.1, left := r.2.2, fin := .reply false (g :: gs) space rb }
    if r.2.2 != 0 then ⟨r.1, j, true⟩
    else if !addsAnyway j.status then ⟨r.1, j, false⟩
    else
      match r.1.placeOf (towerOf j.site) g.flag with
      | .error e => ⟨r.1, { j with status := worse j.status e, addr := g.flag, space := spSky }, false⟩
      | .ok p =>
        let a := match p with
          | .vault v off => (r.1.touchedMem j.site [(v, off, 8)]).addFlag j.site j.id false v off g.count
          | .remote vid off => r.1.addFlag j.site j.id true vid off g.count
        let j := { j with status := worse j.status a.2.1, left := a.2.2, fin := .reply true (g :: gs) space rb }
        if a.2.2 != 0 then ⟨a.1, j, true⟩
        else if !addsAnyway j.status then ⟨a.1, { j with addr := g.flag, space := spSky }, false⟩
        else replyGo gs false a.1 j space rb

/-- May a REPLY's accesses in this package be made now? -/
def State.repReady (s : State) (i rb : Nat) (segs : List RepSeg) : Bool :=
  let ok := fun (a n : Nat) =>
    match s.placeOf (towerOf i) a with
    | .ok p => s.pieceReady (towerOf i) true ⟨p, 0, n⟩
    | .error _ => true
  let adds := fun (a : Nat) =>
    match s.placeOf (towerOf i) a with
    | .ok p => s.atomicReady (towerOf i) ⟨p, 0, 8⟩
    | .error _ => true
  segs.all (fun g => adds g.flag && g.rows.all (fun r => ok r.1 rb))

/-- A REPLY that cannot reach a slot or a flag. -/
def State.repUnreachable (s : State) (i : Nat) (segs : List RepSeg) : Option Nat :=
  let no := fun (a : Nat) =>
    match s.placeOf (towerOf i) a with
    | .ok _ => false
    | .error _ => true
  (segs.flatMap (fun g => g.flag :: g.rows.map Prod.fst)).find? no

/-- REPLY (09 R355, R356). The area's list stands where the last POPA on the area put it. -/
def replyAct (i n : Nat) (ops : List (Nat × Nat × Nat)) : Act := fun s =>
  let a := opAt ops 0
  let r := opAt ops 1
  let rb := bits n 63 48
  if bits n 47 40 != 0 || bits n 127 64 != 0 || !rowOk rb || !a.inScratch 20 || a.ea % 8 != 0 ||
      (r.space != spScratch && r.space != spGround) then refuse s stBadParam
  else
    let sw := s.readScratch i (a.ea + 4) 4
    let cap := SMap.get (fun _ => leP sw.2) (s.core i).areas a.ea
    let top := 16 + 32 * cap
    if anyPoison sw.2 then complete sw.1 stPoisoned
    else if cap < leP sw.2 ∨ scratchSize < a.ea + top + 4 then refuse sw.1 stBadParam
    else
      let rw_ := sw.1.readScratch i (a.ea + top) 4
      let nrows := leP rw_.2
      if anyPoison rw_.2 then complete rw_.1 stPoisoned
      else if scratchSize < a.ea + top + 4 + 4 * nrows ∨ !r.near (nrows * rb) then refuse rw_.1 stBadParam
      else
        let ix := rw_.1.readScratch i (a.ea + top + 4) (4 * nrows)
        let sg := ix.1.readScratch i (a.ea + 16) (32 * leP sw.2)
        let sp := if r.space = spScratch then sg.1.touched i r.ea (nrows * rb) else sg.1
        let p := (List.range (leP sw.2)).foldl (fun (p : RepPlan) k => p.seg rb r.ea nrows (slice sg.2 (32 * k) 32) ix.2)
          ⟨sp, stOk, [], false⟩
        if p.bad then refuse p.s stBadParam
        else
          match p.s.repUnreachable i p.segs with
          | some x => some (p.s, Done.at_ stUnreachable spSky x)
          | none =>
            if !p.s.repReady i rb p.segs || !p.s.nearReady i r (nrows * rb) false then none
            else
              let id := p.s.newJob
              let j := { Job.start id i 5 0x11 (iTag n) with status := p.st, addr := a.ea, space := spScratch }
              let o := replyGo p.segs false (p.s.addJob j) j r.space rb
              if o.waits then some (o.s.setJob o.j, Done.of stOk)
              else some ({ o.s with jobs := o.s.jobs.filter (fun z => z.id != id) },
                Done.at_ o.j.status o.j.space o.j.addr)

end Sys2Proof.Machine
end

