-- ==== Sys2Proof/Machine/Sq.lean ====
section
/-!
DEFINITION. The SQ and FMV engines: their queues (02 R66, R67, 09 R338), PUSH (09 R345), POP (R346, R347), POPA (R353,
R354), and the instructions of both engines as they issue.
-/
namespace Sys2Proof.Machine

/-! ## PUSH -/

/-- PUSH (09 R345). -/
def pushAct (i n : Nat) (ops : List (Nat × Nat × Nat)) : Act := fun s =>
  let src := opAt ops 0
  let q := opAt ops 1
  let len := bits n 55 40
  let node := bits q.ea 63 44
  if bits n 127 72 != 0 || len % 8 != 0 || !src.inScratch len || q.space != spSky || badQueue q.ea ||
      !(node == 0xFFFFF || node == s.nodeOf (towerOf i)) then refuse s stBadParam
  else
    match s.queueAt i q.ea with
    | .error st => some (s, Done.at_ st spSky q.ea)
    | .ok dst =>
      let r := s.readScratch i src.ea len
      complete (r.1.startSender i 7 0 (iTag n) dst.2 false (bits n 71 56) r.2 q.ea) stOk

/-! ## POP and POPA -/

/-- The operands of POP (09 R346) or POPA (R353). -/
structure PopF where
  d : Opnd
  h : Opnd
  max : Nat
  append : Bool
  rb : Nat
  cap : Nat
  segCap : Nat
  timeout : Nat
  rsv : Nat
  deriving DecidableEq, Repr

/-- Them, from a word and its operands. POP: d and h. POPA: the row area as d, the gather area as h. -/
def popF (n : Nat) (ops : List (Nat × Nat × Nat)) : PopF :=
  if iOp n = 1 then
    { d := opAt ops 0, h := opAt ops 1, max := bits n 55 40, append := false, rb := 0, cap := 0, segCap := 0
      timeout := bits n 79 56, rsv := bits n 127 80 }
  else
    { d := opAt ops 1, h := opAt ops 0, max := 0, append := bit n 40, rb := bits n 63 48, cap := bits n 79 64
      segCap := bits n 87 80, timeout := bits n 111 88, rsv := bits n 127 112 + bits n 47 41 }

/-- Bytes of a gather area (09 R353). -/
def PopF.areaBytes (f : PopF) : Nat := 20 + 32 * f.segCap + 4 * f.cap

/-- The checks of R75, R346, R347, R353. -/
def PopF.ok (f : PopF) (pop : Bool) : Bool :=
  f.rsv == 0 && f.timeout != 0 &&
  (if pop then f.d.near f.max && f.d.ea % 8 == 0 && f.h.inScratch 16 && f.h.ea % 8 == 0 && f.max % 8 == 0
   else rowOk f.rb && f.cap != 0 && f.segCap != 0 && f.h.inScratch f.areaBytes && f.h.ea % 8 == 0 &&
    f.d.near (f.cap * f.rb) && f.d.ea % 32 == 0)

/-- The scratchpad ranges that POP or POPA writes: one scoreboard entry (09 R347, R354). -/
def PopF.dests (f : PopF) (pop : Bool) : List (Nat × Nat) :=
  let row := if pop then f.max else f.cap * f.rb
  (if f.d.space = spScratch then [(f.d.ea, row)] else []) ++ [(f.h.ea, if pop then 16 else f.areaBytes)]

/-- Writes bytes to the scratchpad or the own vault. -/
def State.writeNear (s : State) (i space a : Nat) (data : List PByte) : State × Nat :=
  if data.isEmpty then (s, stOk)
  else if space = spScratch then (s.writeScratch i a data, stOk)
  else (s.touchedMem i [(i, a, data.length)]).writeAs i i a data false

/-- The job of an entry of an engine's queue ends. -/
def State.endEntry (s : State) (e : EngIns) (st space addr : Nat) (halt : Bool) : State :=
  match s.job? e.job with
  | none => s
  | some j => s.endJob { j with addr := addr, space := space } st halt

/-- What the routing record of an instruction names (17 R600), noted in its job. -/
def State.noteRoute (s : State) (job : Nat) (r : Nat × Nat × Nat) : State :=
  match s.job? job with
  | none => s
  | some j => s.setJob { j with route := some r }

/-- Takes the head entry off the SQ queue. -/
def State.dropSq (s : State) (i : Nat) : State := s.setCore i { s.core i with sq := (s.core i).sq.drop 1 }

/-- The sky address of a site's own queue (09 R347). -/
def State.ownQueue (s : State) (i : Nat) : Nat := s.vidOf i * 2 ^ 32

/-- What a POP or POPA at the head of the SQ queue does now: it waits, or the state after it. -/
inductive PopNow where
  | waits (s : State)
  | done (s : State)

/-- Replaces the head entry of the SQ queue. -/
def State.setSq (s : State) (i : Nat) (e : EngIns) : State := s.setCore i { s.core i with sq := e :: (s.core i).sq.drop 1 }

/-- POP goes on with the head bundle: it copies the words that have arrived, and after the last it writes the header
record, releases the bundle and completes (09 R337, R346, R347). -/
def State.popOn (s : State) (i : Nat) (e : EngIns) (f : PopF) (b : Bundle) : PopNow :=
  let k := b.arrived - e.copied
  let a := f.d.ea + 8 * e.copied
  if !s.nearReady i { f.d with ea := a } (8 * k) true then .waits s
  else
    let r := s.readWords i b e.copied k
    let w := r.1.writeNear i f.d.space a r.2
    let e := { e with copied := e.copied + k, st := worse e.st (worse w.2 (srcStatus r.2)) }
    if e.copied < b.size then .waits (w.1.setSq i e)
    else
      let h := w.1.readHeader i b
      let s := h.1.writeScratch i f.h.ea (h.2 ++ clean (toLE 4 (8 * b.size) ++ List.replicate 4 0))
      .done (((s.dropSq i).releaseHead i).endEntry e (worse e.st (srcStatus h.2)) f.d.space f.d.ea false)

/-- The rows word and the segs word of a gather area as POPA finds them (09 R354), and the state after the reads. -/
def PopF.counts (f : PopF) (s : State) (i : Nat) : State × List PByte × List PByte :=
  let sw := s.readScratch i (f.h.ea + 4) 4
  let nw := sw.1.readScratch i (f.h.ea + 16 + 32 * f.segCap) 4
  (nw.1, nw.2, sw.2)

/-- Writes the words of a gather area that count (09 R353): blocks, segs and rows; an area that was emptied gets its
reserved bytes too. -/
def PopF.putCounts (f : PopF) (s : State) (i rows segs : Nat) : State :=
  let a := f.h.ea
  let s := s.writeScratch i a (clean (toLE 4 (ceilDiv rows 32) ++ toLE 4 segs))
  let s := if f.append then s else s.writeScratch i (a + 8) (clean (List.replicate 8 0))
  s.writeScratch i (a + 16 + 32 * f.segCap) (clean (toLE 4 rows))

/-- A POPA whose payload's first 32 B are poisoned: a segment of count 0 in poison (09 R354). -/
def State.popaBlind (s : State) (i : Nat) (e : EngIns) (f : PopF) (n0 s0 : Nat) : State :=
  let a := f.h.ea
  let s := s.writeScratch i (a + 16 + 32 * s0) ((toLE 4 n0 ++ List.replicate 28 0).map (fun x => (x, true)))
  let s := if f.append then s.writeScratch i (a + 4) (clean (toLE 4 (s0 + 1))) else f.putCounts s i 0 1
  ((s.dropSq i).releaseHead i).endEntry e stPoisoned spScratch a false

/-- POPA copies words of the head bundle that have arrived, from the k-th to the m-th: indices to the list, rows to the row
area; the bytes between them are padding (09 R349, R354). -/
def State.popaCopy (s : State) (i : Nat) (f : PopF) (b : Bundle) (n0 c k m : Nat) : State × Nat :=
  let r := s.readWords i b k (m - k)
  let rs := 32 + 8 * ceilDiv c 2
  let s := r.1.writeScratch i (f.h.ea + 20 + 32 * f.segCap + 4 * n0 + (8 * k - 32)) (r.2.take (32 + 4 * c - 8 * k))
  let w := s.writeNear i f.d.space (f.d.ea + n0 * f.rb + (8 * k - rs)) (r.2.drop (rs - 8 * k))
  (w.1, worse w.2 (srcStatus r.2))

/-- POPA goes on with the head bundle (09 R337, R354): it checks the bundle by its first 32 B, copies the words that have
arrived, and after the last it writes the segment and the counts, releases the bundle and completes. -/
def State.popaOn (s : State) (i : Nat) (e : EngIns) (f : PopF) (b : Bundle) : PopNow :=
  let a := f.h.ea
  let q := f.counts s i
  let n0 := if f.append then leP q.2.1 else 0
  let s0 := if f.append then leP q.2.2 else 0
  if f.append && (anyPoison q.2.1 || anyPoison q.2.2) then .done ((q.1.dropSq i).endEntry e stPoisoned spScratch a true)
  else if b.arrived < Nat.min 4 b.size then .waits s
  else
    let hd := if e.copied != 0 then (q.1, e.block) else if b.size = 0 then q.1.readHeader i b else q.1.readWords i b 0 4
    let blind := anyPoison hd.2
    let c := leP (hd.2.take 4)
    let h := b.header.toNat
    let noted := fun (s : State) => if blind then s else s.noteRoute e.job (bits h 63 32, bits h 31 16, c)
    let misfit := f.segCap ≤ s0 ∨ (!blind ∧ (b.size < 4 ∨ 8 * b.size ≠ 32 + 8 * ceilDiv c 2 + c * f.rb ∨ f.cap < n0 + c))
    if e.copied = 0 ∧ misfit then .done ((((noted q.1).dropSq i).queueShow i).endEntry e stBundleMisfit spSky (s.ownQueue i) false)
    else
      let e := { e with block := hd.2 }
      let t := noted hd.1
      if blind then
        if b.whole then .done (t.popaBlind i e f n0 s0) else .waits (t.setSq i { e with copied := 4 })
      else
        let k := Nat.max 4 e.copied
        let rs := 32 + 8 * ceilDiv c 2
        let m := b.arrived
        if decide (rs < 8 * m) && !t.nearReady i { f.d with ea := f.d.ea + n0 * f.rb + (8 * k - rs) } (8 * m - Nat.max rs (8 * k)) true then
          .waits s
        else
          let w := t.popaCopy i f b n0 c k m
          let e := { e with copied := m, st := worse e.st w.2 }
          if m < b.size then .waits (w.1.setSq i e)
          else
            let s := w.1.setCore i { w.1.core i with areas := SMap.insert a f.segCap (w.1.core i).areas }
            let s := s.writeScratch i (a + 16 + 32 * s0) (clean (toLE 4 n0 ++ toLE 4 c) ++ slice e.block 8 24)
            let s := f.putCounts s i (n0 + c) (s0 + 1)
            .done (((s.dropSq i).releaseHead i).endEntry e e.st f.d.space f.d.ea false)

/-- A queue whose descriptor read is uncorrectable becomes LOST (09 R341, 16 R590). -/
def State.descRead (s : State) (i : Nat) : State :=
  if s.injected 3 i then
    ((s.usedInject.setF (Reg.sqStatus_state i) sqLost).record (mkRecord s 3 4 i stPoisoned 8 0 0))
  else s

/-- A POP or POPA at the head of the SQ queue looks at the queue (09 R337, R341, R347, R354). -/
def State.tryPop (s : State) (i : Nat) (e : EngIns) : PopNow :=
  let n := e.w.toNat
  let pop := iOp n == 1
  let f := popF n e.ops
  let ready := s.headReady i
  let s := if ready then s.descRead i else s
  if s.sqState i = sqLost then
    .done (((s.dropSq i).queueShow i).endEntry e stPoisoned spSky (s.ownQueue i) true)
  else
    match (s.queue i).resident with
    | [] => .waits s
    | b :: _ =>
      if !e.begun && (!ready || decide (e.deadline ≤ s.now)) then .waits s
      else if pop && decide (f.max < 8 * b.size) then
        .done (((s.dropSq i).queueShow i).endEntry e stBundleMisfit spSky (s.ownQueue i) false)
      else
        let e := { e with begun := true }
        let s := s.setSq i e
        if pop then s.popOn i e f b else s.popaOn i e f b

/-! ## The engines' queues -/

/-- The effect of an FMV instruction by its opcode. -/
def fmvAct (i n : Nat) (ops : List (Nat × Nat × Nat)) : Act :=
  match iOp n with
  | 0 => putAct i n false ops
  | 1 => getAct i n ops
  | 2 => putAct i n true ops
  | 0x10 => tsendAct i n ops
  | _ => replyAct i n ops

/-- The effect of a queued instruction as it starts, unless it accesses a granule that an earlier instruction of its
engine still writes (01 R54). -/
def State.ordered (s : State) (i eng : Nat) (act : Act) : Option (State × Done) :=
  let mem := s.pendingMem i eng
  if mem.isEmpty then act s
  else
    match act (s.setCore i { s.core i with touchMem := some [] }) with
    | none => none
    | some r =>
      let c := r.1.core i
      if (c.touchMem.getD []).any (fun a => mem.any (fun d => memMeets d a)) then none
      else some (r.1.setCore i { c with touchMem := none }, r.2)

/-- Starts a queued instruction: its place in the queue and its waiting job go, and its effect comes. -/
def State.startEntry (s : State) (i eng : Nat) (e : EngIns) (act : Act) : Tried Unit :=
  let k := ((s.job? e.job).map Job.issued).getD 0
  let off := fun (s : State) =>
    let c := s.core i
    let s := s.setCore i (if eng = 7 then { c with sq := c.sq.drop 1 }
      else if eng = 6 then { c with kvq := c.kvq.drop 1 } else { c with fmv := c.fmv.drop 1 })
    { s with jobs := s.jobs.filter (fun j => j.id != e.job) }
  match s.lookUp i eng eng (fun s => (off s).ordered i eng act) with
  | .waits s' => .waits (s'.setWaits i (s.heldBanks i (fun s => (off s).ordered i eng act) (fun s => act (off s))))
  | .done t d =>
    let n := e.w.toNat
    let begun := t.begun i s.newJob
    let t := ((t.setWaits i []).lastOf i eng n d.st begun).stampJobs i s.newJob k
    let t := if begun then t else t.traced i eng (iOp n) (iTag n) d.st k d.route
    .done ((t.settle i eng (iTag n) d).wake i) ()

/-- The SQ engine goes on while it can; a bundle it sends, or one it waits for, holds it (09 R338, R347). -/
def State.runSq : Nat → State → Nat → State
  | 0, s, _ => s
  | k + 1, s, i =>
    match (s.core i).sq with
    | [] => s
    | e :: _ =>
      if (s.sender? i 7).isSome then s
      else if iOp e.w.toNat = 0 then
        match s.startEntry i 7 e (pushAct i e.w.toNat e.ops) with
        | .waits s' => s'
        | .done s' _ => State.runSq k s' i
      else
        match s.tryPop i e with
        | .waits s' => s'
        | .done s' => State.runSq k s' i

/-- The FMV engine goes on while it can; a bundle it sends holds it (09 R338). -/
def State.runFmv : Nat → State → Nat → State
  | 0, s, _ => s
  | k + 1, s, i =>
    match (s.core i).fmv with
    | [] => s
    | e :: _ =>
      if (s.sender? i 5).isSome then s
      else
        match s.startEntry i 5 e (fmvAct i e.w.toNat e.ops) with
        | .waits s' => s'
        | .done s' _ => State.runFmv k s' i

/-- Both engines of a site go on. -/
def State.runEngines (s : State) (i : Nat) : State := (s.runSq 17 i).runFmv 17 i

/-- Every site's queued engines go on. -/
def State.runQueues (s : State) : State :=
  (s.cores.filter (fun e => !e.2.sq.isEmpty || !e.2.fmv.isEmpty)).foldl (fun s e => s.runEngines e.1) s

/-- The scratchpad ranges that a queued instruction will read and write (02 R66). -/
def State.engRanges (s : State) (i n : Nat) (ops : List (Nat × Nat × Nat)) : List (Nat × Nat) × List (Nat × Nat) :=
  let near := fun (o : Opnd) (m : Nat) => if o.inScratch m then [(o.ea, m)] else []
  if iEng n = 7 then
    if iOp n = 0 then (near (opAt ops 0) (bits n 55 40), []) else ([], (popF n ops).dests (iOp n == 1))
  else
    match iOp n with
    | 1 => ([], near (opAt ops 0) (bulkLen n))
    | 0x10 =>
      let l := opAt ops 1
      let c := leP (EccMem.read scratchZero (s.core i).scratch l.ea 4)
      (near (opAt ops 0) 8 ++ near l (4 + 4 * c) ++ near (opAt ops 3) 32, [])
    | 0x11 => (near (opAt ops 0) (16 + 32 * 255), [])
    | _ => (near (opAt ops 1) (bulkLen n), [])

/-- Queues an instruction in its engine (02 R66, R67): it is outstanding from then on. -/
def State.enqueue (s : State) (i : Nat) (w : BitVec 128) (deadline : Nat) : State :=
  let n := w.toNat
  let ops := engOps (s.core i) n
  let r := s.engRanges i n ops
  let s := r.1.foldl (fun s a => s.touched i a.1 a.2) s
  let id := s.newJob
  let s := s.addJob { Job.start id i (iEng n) (iOp n) (iTag n) with
    left := 1, dests := r.2, issued := s.getF (Reg.coreRetired_count i) }
  let c := s.core i
  let e : EngIns := { w := w, ops := ops, job := id, deadline := deadline, begun := false, copied := 0
                      st := stOk, block := [] }
  s.setCore i (if iEng n = 7 then { c with sq := c.sq ++ [e] } else { c with fmv := c.fmv ++ [e] })

/-- An FMV instruction as it issues: at once where the engine is free, else into its queue. -/
def State.fmv (s : State) (i : Nat) (w : BitVec 128) (op : Nat) (act : List (Nat × Nat × Nat) → Act) : State :=
  s.issue i w 5 [op] (fun s =>
    s.startOr ((s.core i).fmv.isEmpty && (s.sender? i 5).isNone) (act (engOps (s.core i) w.toNat)) (s.enqueue i w 0))

/-! ## The instructions -/

/-- PUSH (09 R345). -/
def execPush (i : Site) (w : BitVec 128) (s : State) : Host.Outcome State Fault Refusal :=
  next (s.issue i w 7 [0] (fun s =>
    s.startOr ((s.core i).sq.isEmpty && (s.sender? i 7).isNone) (pushAct i w.toNat (engOps (s.core i) w.toNat))
      (s.enqueue i w 0)))

/-- POP and POPA as they issue: the deadline counts from the issue (02 R83, 09 R347). -/
def popIssue (i : Nat) (w : BitVec 128) : Act := fun s =>
  let n := w.toNat
  let f := popF n (engOps (s.core i) n)
  if !f.ok (iOp n == 1) then refuse s stBadParam
  else complete (((s.enqueue i w (s.now + us f.timeout)).runSq 1 i).queueShow i) stOk

/-- POP (09 R346, R347). -/
def execPop (i : Site) (w : BitVec 128) (s : State) : Host.Outcome State Fault Refusal :=
  next (s.issue i w 7 [1] (popIssue i w))

/-- POPA (09 R353, R354). -/
def execPopa (i : Site) (w : BitVec 128) (s : State) : Host.Outcome State Fault Refusal :=
  next (s.issue i w 7 [2] (popIssue i w))

/-- TSEND (09 R351, R352). -/
def execTsend (i : Site) (w : BitVec 128) (s : State) : Host.Outcome State Fault Refusal :=
  next (s.fmv i w 0x10 (tsendAct i w.toNat))

/-- REPLY (09 R355, R356). -/
def execReply (i : Site) (w : BitVec 128) (s : State) : Host.Outcome State Fault Refusal :=
  next (s.fmv i w 0x11 (replyAct i w.toNat))

/-- PUT (10 R397, R398). -/
def execPut (i : Site) (w : BitVec 128) (s : State) : Host.Outcome State Fault Refusal :=
  next (s.fmv i w 0x00 (putAct i w.toNat false))

/-- GET (10 R397, R398). -/
def execGet (i : Site) (w : BitVec 128) (s : State) : Host.Outcome State Fault Refusal :=
  next (s.fmv i w 0x01 (getAct i w.toNat))

/-- PUTF (10 R397 to R399). -/
def execPutf (i : Site) (w : BitVec 128) (s : State) : Host.Outcome State Fault Refusal :=
  next (s.fmv i w 0x02 (putAct i w.toNat true))

end Sys2Proof.Machine
end

