-- ==== Sys2Proof/Machine/Jobs.lean ====
section
/-!
DEFINITION. What an answer does to the instruction that waits for it: parts and their data (10 R387, R399), the order in
which the packets of a flow complete, and what each instruction still does once its parts have ended.
-/
namespace Sys2Proof.Machine

/-! ## Parts -/

/-- The position of a part in its transfer. -/
def Dest.pos : Dest → Nat
  | .none => 0
  | .part p => p
  | .scratch _ a => a
  | .vault _ off => off
  | .buf p => p
  | .table _ _ _ => 0

/-- A part of a job has ended: the status is that of the first part, in transfer order, that is more than poison, else
POISONED if any part was (02 R70, 10 R399). -/
def Job.part (j : Job) (pos st : Nat) : Job :=
  let j := { j with left := j.left - 1 }
  if !hardSt st then { j with status := worse j.status st }
  else if hardSt j.status && decide (j.first ≤ pos) then j
  else { j with status := st, first := pos }

/-- Puts the data of a part where it belongs. -/
def State.deliver (s : State) (j : Job) (d : Dest) (data : List PByte) : State × Job :=
  match d with
  | .scratch i a => (s.writeScratch i a data, j)
  | .vault v off =>
    let r := s.writeAs j.site v off data false
    (r.1, { j with status := worse j.status r.2 })
  | .buf p => (s, { j with buf := SMap.insert p data j.buf })
  | .table _ _ _ => (s, j)
  | .part _ => (s, j)
  | .none => (s, j)

/-! ## Commands of the host that wait for the fabric -/

/-- Ends a command of a ring: its status and result wait for COMPLETION_POST (12 R436). -/
def State.endCommand (s : State) (ring head st res : Nat) : State :=
  { s with
    skipped := []
    started := s.started.map (fun c =>
      if c.ring = ring ∧ c.head = head ∧ c.done = none then { c with done := some (st, res) } else c) }

/-- Bytes as STORE writes them: all ones, and poisoned TLPs, where a word was poisoned (12 R460). -/
def storeBytes (data : List PByte) : List PByte := data.map (fun b => if b.2 then (255, true) else b)

/-- The offset of the first poisoned byte. -/
def firstPoison (data : List PByte) : Option Nat := (findIdx Prod.snd data 0).map Prod.fst

/-- The record of poison or a fault met on the host link (12 R460, 16 R591 kind 20). -/
def State.hostRecord (s : State) (st : Nat) : State :=
  s.record (mkRecord s (if st = stPoisoned then 2 else 3) 10 0xFFFF st 20 0 0)

/-- The pieces of a buffer as writes of host memory (12 R458, R459). -/
def State.hostWrites (s : State) (sgl : List (Nat × Nat)) (data : List PByte) : State :=
  (sgl.foldl (fun (x : State × List PByte) e =>
    (x.1.emit (.hostWrite e.1 (x.2.take e.2)), x.2.drop e.2)) (s, data)).1

/-- HIF_ERR_FIRST captures the first error: its kind, BAR and offset (12 R473). -/
def State.hifFirst (s : State) (kind bar off : Nat) : State :=
  if s.on Reg.hifErrFirst_valid then s
  else
    let s := (s.setF Reg.hifErrFirst_kind kind).setF Reg.hifErrFirst_bar bar
    (s.setF Reg.hifErrFirst_offset off).setF Reg.hifErrFirst_valid 1

/-- A BAR4 read completes: poison, a retired row or a status other than OK gives a poisoned TLP of all ones, counted
(12 R432). -/
def State.endHostRead (s : State) (off len st : Nat) (data : List PByte) : State :=
  if st = stOk && !anyPoison data then s.emit (.barData (leP data) false)
  else ((s.emit (.barData (2 ^ (8 * len) - 1) true)).incSat Reg.hifErr_poisoned_read 1).hifFirst 3 2 off

/-- A BAR4 write that cannot take effect is discarded, counted and captured (12 R432). -/
def State.endHostWrite (s : State) (off st : Nat) : State :=
  if hardSt st then (s.incSat Reg.hifErr_write_lost 1).hifFirst 4 2 off else s

/-- A command of the host ends with the status of its parts and what it has read (12 R458 to R464). The spec states
no result for a LOAD that completes with POISONED by a poisoned word it merged into, or for a poisoned flag: free
values. -/
def State.endHost (s : State) (ring head : Nat) (e : HostEnd) (st : Nat) (data : List PByte) : State :=
  match e with
  | .load len first failed =>
    let st := if failed && !hardSt st then stHostFault else st
    let s := if failed then s.hostRecord stHostFault else s
    if st = stOk then s.endCommand ring head st len
    else if st = stPoisoned then
      match first with
      | some k => s.endCommand ring head st k
      | none => (s.bump 1).endCommand ring head st (Config.freeWord s.fresh).toNat
    else s.endCommand ring head st 0
  | .store sgl ok =>
    if hardSt st then s.endCommand ring head st 0
    else if !ok then (s.hostRecord stHostFault).endCommand ring head stHostFault 0
    else
      (s.hostWrites sgl (storeBytes data)).endCommand ring head st
        (if st = stOk then data.length else (firstPoison data).getD 0)
  | .flag add =>
    if !add || hardSt st then s.endCommand ring head st 0
    else if anyPoison data then (s.bump 1).endCommand ring head st (Config.freeWord s.fresh).toNat
    else s.endCommand ring head st (leP data)
  | .result r => s.endCommand ring head st (if hardSt st then 0 else r)

/-- A write of the trace unit has completed: any status but OK stops tracing (17 R598). -/
def State.traceWritten (s : State) (st : Nat) : State :=
  if st = stOk then s.incWrap Reg.dbgTraceCnt_written 1
  else { (s.setF Reg.dbgStatus_trace_err 1) with dbg := { s.dbg with stopped := true } }

/-! ## What an instruction does when its parts have ended -/

/-- A completed job leaves. -/
def State.dropJob (s : State) (id : Nat) : State := { s with jobs := s.jobs.filter (fun y => y.id != id) }

/-- COPY writes what it has read to the pieces its destination had as it issued (02 R97, 08 R286): all of it, poison in
place of a retired row (06 R247); where an answer brought no data, nothing. -/
def State.copyOn (s : State) (j : Job) (space ea src len : Nat) (narrow : Bool) (pieces : List Piece) : State :=
  let data := j.buf.flatMap Prod.snd
  if decide (data.length < len) then s.endJob j j.status false
  else if !pieces.all (s.pieceReady (towerOf j.site) true) then s
  else
    let r := s.writePieces j.site pieces data narrow
    let q := r.1.sendWrites j.site 1 j.id movPkt src narrow data pieces
    let bad := hardSt j.status
    let j := { j with
      status := worse j.status r.2.1, first := if bad then 0 else r.2.2, left := q.2, fin := .plain, buf := [], mem := []
      addr := if bad then j.addr else ea, space := if bad then j.space else space }
    if q.2 = 0 then q.1.endJob j j.status false else q.1.setJob j

/-- REPLY goes on with its segments (09 R356). -/
def State.replyOn (s : State) (j : Job) (flagSent : Bool) (segs : List RepSeg) (space rb : Nat) : State :=
  if !addsAnyway j.status then s.endJob j j.status false
  else if !s.repReady j.site rb segs then s
  else
    let o := if flagSent then replyGo (segs.drop 1) false s j space rb else replyGo segs true s j space rb
    if o.waits then o.s.setJob o.j else o.s.endJob o.j o.j.status false

/-- APPEND goes on with its page-layers (08 R312). -/
def State.appendOn (s : State) (j : Job) (a : AppSt) : State :=
  match AppOut.run a.steps (.on s j a) with
  | .on t k b => t.setJob { k with fin := .append b }
  | .waits t k b => t.setJob { k with fin := .append b }
  | .ends t k st space addr halt => t.endKvx { k with space := space, addr := addr } st halt

/-- SCORE or ACC whose commands have all ended: the rows, unless a page was retired, and slot 1 is given up (08 R301 to
R303). -/
def State.absorbOn (s : State) (j : Job) (acc : Bool) (d g n nt : Nat) (units : List Nat) : State :=
  if hardSt j.status then (s.dropSlot j.site units).endKvx j j.status false
  else
    let t := s.absorbEnd j.site acc d g n nt units j.buf
    t.1.endKvx j t.2 false

/-- A job whose parts have all ended goes on, or waits where the vaults it needs next cannot serve it. -/
def State.finishJob (s : State) (j : Job) : State :=
  match j.fin with
  | .plain => s.endJob j j.status false
  | .flagAdd remote v off addend =>
    if !addsAnyway j.status then s.endJob j j.status false
    else if !remote && !(s.readReady v off 8 && s.writeReady v off 8) then s
    else
      let a := s.addFlag j.site j.id remote v off addend
      if a.2.2 != 0 then a.1.setJob { j with left := a.2.2, fin := .plain }
      else a.1.endJob j (worse j.status a.2.1) false
  | .reply f segs space rb => s.replyOn j f segs space rb
  | .copyOut space ea src len narrow ps => s.copyOn j space ea src len narrow ps
  | .fetch d x fmt e0 n nt _ =>
    let t := s.stage j.site d x fmt e0 n nt j.buf
    t.1.endKvx j (fetchStatus j.status t.2) false
  | .append a => s.appendOn j a
  | .absorb acc d g n nt _ units => s.absorbOn j acc d g n nt units
  | .ready _ => s
  | .publish a =>
    if hardSt j.status then s.endKvx j j.status false
    else (s.setJob { j with left := 1, fin := .plain }).askPfx (towerOf j.site) (.publish a)
  | .entries ws a data => s.writeEntries j ws a data
  | .block a data => (s.writeScratch j.site a data).endKvx j j.status false
  | .hostRead off len => (s.dropJob j.id).endHostRead off len j.status (j.buf.flatMap Prod.snd)
  | .hostWrite off => (s.dropJob j.id).endHostWrite off j.status
  | .traceWrite => (s.dropJob j.id).traceWritten j.status
  | .command ring head e => (s.dropJob j.id).endHost ring head e j.status (j.buf.flatMap Prod.snd)

/-- Every job that waits for nothing but its next step takes it. -/
def State.finishJobs (s : State) : State :=
  s.jobs.foldl (fun s j =>
    if j.left = 0 then
      match s.job? j.id with
      | some k => if k.left = 0 then s.finishJob k else s
      | none => s
    else s) s

/-! ## The KVX engine goes on (08 R296) -/

/-- The effect of a KVX instruction by its opcode. -/
def kvxAct (i n : Nat) (ops : List (Nat × Nat × Nat)) : Act :=
  match iOp n with
  | 0 => fetchAct i n ops
  | 1 => absorbAct false i n ops
  | 2 => absorbAct true i n ops
  | 4 => smaxAct i n ops
  | 5 => mergeAct i n ops
  | 6 => combAct i n ops
  | 7 => finAct i n ops
  | 8 => appendAct i n ops
  | 0x10 => linkAct i n ops
  | _ => publishAct i n ops

/-- Queued KVX instructions start in order, up to four in progress. -/
def State.runKvx : Nat → State → Nat → State
  | 0, s, _ => s
  | k + 1, s, i =>
    match (s.core i).kvq with
    | [] => s
    | e :: _ =>
      if kvxRuns ≤ (s.core i).kvRun.length then s
      else
        match s.startEntry i 6 e (kvStarts i e.w.toNat (kvxAct i e.w.toNat e.ops)) with
        | .waits s' => s'
        | .done s' _ => State.runKvx k s' i

/-- The KVX instructions of a core that wait for nothing more go on, queued ones start, and the commands of a SCORE or ACC
enter the vault's queue. -/
def State.kvGo (s : State) (i : Nat) : State :=
  let s := (s.core i).kvRun.foldl (fun s id =>
    match s.job? id with
    | some j => if j.left = 0 then s.finishJob j else s
    | none => s) s
  (State.runKvx (kvxDepth + 1) s i).kvFeed i

/-! ## Answers in the order of their flow -/

/-- The WAIT of a site that armed with a tag. -/
def State.armedBy (s : State) (i tag_ : Nat) : Option WaitSt :=
  match (s.core i).hold with
  | .wait x => if x.remote && x.itag == tag_ then some x else none
  | _ => none

/-- A WATCH_ARM has ended (10 R387, R394, 02 R85): lost or refused for want of a watch it is sent again later. -/
def State.armEnded (s : State) (x : Sent) (st : Nat) (data : List PByte) : State :=
  match s.armedBy x.site x.pkt.tag with
  | none => s
  | some w =>
    if w.armed then s
    else if st = stNoResource ∨ st = stFabricLost then
      s.setCore x.site { s.core x.site with hold := .wait { w with itag := 2 ^ 16, nextTry := s.now + us 2 } }
    else if hardSt st then s.failWait x.site w st
    else s.seeFlag x.site { w with armed := true } data

/-- A REQ packet has ended with a status and data. -/
def State.partDone (s : State) (x : Sent) (st : Nat) (data : List PByte) : State :=
  if x.pkt.op = 3 then s.armEnded x st data
  else
    match x.dest with
    | .table key a n => s.tabAnswer x.site key a n st data
    | _ =>
    match s.job? x.job with
    | none => s
    | some j =>
      let d := s.deliver j x.dest data
      let k := d.2.part x.dest.pos st
      let s := d.1.setJob k
      if k.left = 0 then s.finishJob k else s

/-- Can the data of an answer be put where it belongs now? -/
def State.destReady (s : State) (x : Sent) : Bool :=
  match x.dest, x.ans with
  | .vault v off, some a => s.writeReady v off a.2.length
  | _, _ => true

/-- The first answered packet with no unfinished packet of its flow before it, whose data has somewhere to go. -/
def State.ripeAt (s : State) : List Sent → List Sent → Option Sent
  | _, [] => none
  | before, x :: rest =>
    if x.ans.isSome && !before.any (fun y => sameFlow y.pkt x.pkt) && s.destReady x then some x
    else s.ripeAt (before ++ [x]) rest

/-- The packets of each flow complete in the order they were sent (10 R387). -/
def State.ripen : Nat → State → State
  | 0, s => s
  | k + 1, s =>
    match s.ripeAt [] s.sent with
    | none => s
    | some x =>
      match x.ans with
      | none => s
      | some a =>
        let s := { s with sent := s.sent.filter (fun y => y.pkt.tag != x.pkt.tag || y.pkt.src != x.pkt.src) }
        State.ripen k (s.partDone x a.1 a.2)

/-- A REQ packet is answered or declared lost: its tag rests for a lifetime, what its flow allows completes, waiting
packets go, and the site's engines go on (10 R382, R387). -/
def State.answered (s : State) (x : Sent) (st : Nat) (data : List PByte) : State :=
  let s := s.quarantineTag x.tower x.pkt.src x.pkt.tag
  let s := { s with sent := s.sent.map (fun y =>
    if y.pkt.tag = x.pkt.tag ∧ y.pkt.src = x.pkt.src then { y with ans := some (st, data) } else y) }
  let s := (State.ripen s.sent.length s).kickWaiting
  if x.site < siteCount then (s.runEngines x.site).kvGo x.site else s

/-- The outstanding packet that an answer with a tag reaches at a source. -/
def State.sentBy (s : State) (src tag_ : Nat) : Option Sent :=
  s.sent.find? (fun x => x.pkt.src == src && x.pkt.tag == tag_ && x.ans == none)

/-- What only waited for a vault or an engine goes on: answers, jobs, the prefix directory, SYN queues and queued
instructions. -/
def State.goOn (s : State) : State :=
  let s := (State.ripen s.sent.length s).finishJobs.pfxGo
  let s := (s.cores.filter (fun e => !e.2.kvRun.isEmpty || !e.2.kvq.isEmpty)).foldl (fun s e => s.kvGo e.1) s
  let s := (s.cores.filter (fun e => !e.2.synq.isEmpty)).foldl (fun s e => s.wake e.1) s
  s.runQueues

/-- How a lost REQ packet completes (10 R387). -/
def lostAnswer (k : Packet) : Nat × List PByte :=
  if k.op = 0 then (stPoisoned, List.replicate k.aux (0, true))
  else if k.op = 2 then (stFabricLost, List.replicate 8 (0, true)) else (stFabricLost, [])

end Sys2Proof.Machine
end

