-- ==== Sys2Proof/Machine/Banks.lean ====
section
/-!
DEFINITION. The bank-unit queue of a vault (chapter 07): grants, ends and results of commands (R265 to R277), the power
windows (R267), and what the counters of a vault count in every vault cycle (06 R250, 07 R279).
-/
namespace Sys2Proof.Machine

/-! ## Grants -/

/-- The result buffer (07 R265). -/
def bkuBuffer : Nat := 4096

/-- The remaining budget of a window, two's complement (07 R267, R279). -/
def State.bkuRemaining (s : State) (v : Nat) : Int := sext 16 (s.getF (Reg.bkuBudget_remaining v))

/-- The bank of the granule that a scrub of a vault reads next: none while no scrub runs, or where its row is retired. -/
def State.scrubBank (s : State) (v : Nat) : List Nat :=
  let x := s.vault v
  let p := physAddr (s.frameBase v) x.scrubAt
  if s.on (Reg.vltStatus_scrub_busy v) && !x.retired.contains (rowOf p) then [bankOf p] else []

/-- The banks that ordinary requests of a vault wait for (07 R271, R272): requests that it has accepted, a raw access, a
scrub, and accesses of cores. -/
def State.bankWaits (s : State) (v : Nat) : List Nat :=
  let x := s.vault v
  (x.waiting.filter VWait.acc).flatMap (fun q => s.banksOf v q.req.off q.req.len) ++
    (if x.raw == some true then [bankOf (physAddr (s.frameBase v) (s.getF (Reg.vltRawCtrl_addr v) * 8))] else []) ++
    s.scrubBank v ++
    s.cores.flatMap (fun e => (e.2.waits.filter (fun w => w.1 == v)).map Prod.snd)

/-- Does a queued command meet every condition of R266 but the budget? -/
def State.bkuEligible (s : State) (v : Nat) (earlier : List BkuCmd) (c : BkuCmd) : Bool :=
  let x := s.vault v
  let busy := x.running.flatMap BkuCmd.units
  let buffered := x.results.foldl (fun n r => n + r.data.length) 0 +
    x.running.foldl (fun n r => n + bkuResultBytes r.op) 0
  !earlier.any (fun e => e.units.any c.units.contains) &&
  c.units.all (fun u => !busy.contains u && decide ((x.bank u).debt < debtMax)) &&
  !(s.bankWaits v).any c.units.contains &&
  !x.wbuf.any (fun e => e.merge.isSome && c.units.contains (bankOf e.addr)) &&
  c.units.all (fun u => decide ((busy.filter (fun b => b / 16 == u / 16)).length < 4)) &&
  decide (busy.length < s.getF (Reg.bkuCtrl_max_active v)) &&
  decide (buffered + bkuResultBytes c.op ≤ bkuBuffer) &&
  !s.vaultHolds v && s.vaultState v != vsInitBusy

/-- The oldest queued command that meets the conditions. -/
def State.bkuPick (s : State) (v : Nat) : Option (Nat × BkuCmd) :=
  let q := (s.vault v).queue.take bkuQueue
  (List.range q.length).findSome? (fun k =>
    match q[k]? with
    | some c => if s.bkuEligible v (q.take k) c then some (k, c) else none
    | none => none)

/-- The first range of a command that lies in a retired row, or its first one where the vault is retired (06 R247,
R248). -/
def State.bkuGone (s : State) (v : Nat) (op : BkuOp) : Option Nat :=
  let x := s.vault v
  if s.vaultState v = vsRetired then some (((bkuSpans op).map Prod.fst).headD 0)
  else ((bkuSpans op).find? (fun r => (cutAt 1024 r.1 r.2).any (fun c => x.retired.contains (rowOf c.1)))).map Prod.fst

/-! ## Completion -/

/-- The instruction of a command has one command less outstanding: for one of KVX its result is put in its place, and a
retired row decides the status with the address of its page (08 R301, R302, 06 R247); what remains of it follows
(`kvGo`). -/
def State.bkuEnded (s : State) (j : Job) (c : Option (Nat × Nat)) (st : Nat) (result : List PByte) : State :=
  match c with
  | none => s.endJob j st false
  | some (part, addr) =>
    let bad := hardSt st && !hardSt j.status
    s.setJob { j with
      left := j.left - 1, status := if bad then st else j.status, addr := if bad then addr else j.addr
      buf := if result.isEmpty then j.buf else SMap.insert part result j.buf }

/-- BKU_LAST and the counters of a completed command (07 R263, R279). -/
def State.bkuNote (s : State) (v itag opc st : Nat) (result : List PByte) : State :=
  let s := s.bkuLast v st itag opc
  let s := s.incWrap (Reg.bkuCntCmd_commands v) 1
  let vals := ((List.range (result.length / 4)).filter (fun k => !anyPoison (slice result (4 * k) 4))).map
    (fun k => ofB32 (leP (slice result (4 * k) 4)))
  let s := if vals.any Val.isNan then s.incSat (Reg.bkuCntSpecial_nan_cmds v) 1 else s
  if vals.any (fun x => !x.isNan && !x.isFin) then s.incSat (Reg.bkuCntSpecial_inf_cmds v) 1 else s

/-- A command completes: BKU_LAST, the counters, its instruction (07 R263, R269, R279). A command whose core was reset
has no instruction any more. -/
def State.bkuDone (s : State) (v job itag opc st : Nat) (kvx : Option (Nat × Nat)) (result : List PByte) : State :=
  match s.job? job with
  | none => s
  | some j => (s.bkuNote v itag opc st result).bkuEnded j kvx st result

/-- The opcode of a command (07 R253). -/
def bkuOpcode (op : BkuOp) : Nat :=
  match op with
  | .fill _ _ _ => 0
  | .copy _ _ _ => 1
  | .gather _ _ => 2
  | .qld _ _ _ _ => 8
  | .score _ _ _ _ _ _ _ _ => 9
  | .acc _ _ _ _ _ _ _ _ _ => 10

/-- Where a command's results go in the scratchpad. -/
def bkuDst (op : BkuOp) : Nat :=
  match op with
  | .score _ _ _ _ _ _ _ d => d
  | .acc _ _ _ _ _ _ _ _ d => d
  | _ => 0

/-- A queued command whose vault, or a row of it, has been retired completes with MEM_RETIRED and does nothing
(06 R247, R248, 07 R264). -/
def State.bkuRetired (s : State) (v : Nat) (c : BkuCmd) (p : Nat) : State :=
  match s.job? c.job with
  | none => s
  | some j =>
    let s := s.bkuLast v stMemRetired c.itag (bkuOpcode c.op)
    s.bkuEnded (if c.kvx.isSome then j else { j with space := spGround, addr := offsetOf (s.frameBase v) p }) c.kvx
      stMemRetired []

/-- Grants a command: refreshes that are due on its banks go first (06 R223, R231), its banks' writes drain (07 R270), and
its work is done with what it reads now; the budget pays for it (R265, R267, R277). -/
def State.bkuGrant (s : State) (i k : Nat) (c : BkuCmd) : State :=
  let s := s.settleRates i
  let s := c.units.foldl (fun s u => s.setVault i ((s.vault i).refreshBank u (s.duesOf i u))) s
  let s := c.units.foldl (fun s u => s.drainBank i u) s
  let inject := s.on (Reg.bkuInject_arm i) && !readsNoWord c.op
  let r := s.bkuWork i c inject
  let s := if inject then r.s.setF (Reg.bkuInject_arm i) 0 else r.s
  let s := s.incWrap (Reg.vltCntAct_activates i) (bkuSteps c.op)
  let hot := c.units.any (fun u => ((s.vault i).layer (u / 16)).hot)
  let cyc := bkuCycles c.op hot
  let cost := cyc * (match c.op with | .qld _ _ us _ => us.length | _ => 1)
  let c := { c with
    cycles := cyc, uncounted := cyc, ends := s.now + vaultCycles cyc, status := r.status, writes := r.writes
    result := r.result }
  let x := s.vault i
  let s := s.setVault i { x with queue := dropAt x.queue k, running := x.running ++ [c] }
  s.setF (Reg.bkuBudget_remaining i) (wrap 16 (s.bkuRemaining i - cost))

/-- BANK_UNIT_GRANT (07 R266, R267, R270, R277). -/
def execBankUnitGrant (i : Site) (s : State) : Host.Outcome State Fault Refusal :=
  match s.bkuPick i with
  | none => next s
  | some (k, c) =>
    match s.bkuGone i c.op with
    | some p =>
      let x := s.vault i
      next ((((s.setVault i { x with queue := dropAt x.queue k }).bkuRetired i c p).kvGo i).bkuShow i)
    | none => if s.bkuRemaining i ≤ 0 then next s else next (((s.bkuGrant i k c).kvGo i).bkuShow i)

/-! ## Ends and results -/

/-- Writes of a bank unit to its bank, with its watches told; a retired row takes nothing (07 R273, R276). -/
def State.writeBank (s : State) (v p : Nat) (data : List PByte) : State :=
  (cutAt 1024 p data.length).foldl (fun s c =>
    let x := s.vault v
    if x.retired.contains (rowOf c.1) then s
    else
      let d := slice data (c.1 - p) c.2
      let s := s.setVault v { x with mem := EccMem.write (wordDefault v x) x.mem c.1 d }
      s.notify v (offsetOf (s.frameBase v) c.1) c.2) s

/-- Latches a QLD's elements; the others become undefined, a free value each (07 R258, R276). -/
def State.loadLatch (s : State) (v slot n : Nat) (units : List Nat) (data : List PByte) : State :=
  let els := (List.range n).map (fun k =>
    let b := slice data (2 * k) 2
    (BitVec.ofNat 16 (leP b), anyPoison b))
  let rest := (List.range (512 - n)).map (fun k =>
    let f := Config.freeLane (s.fresh * 4096 + k)
    (f.setWidth 16, f.getLsbD 16))
  let x := s.vault v
  let x := { x with
    latches := units.foldl (fun m u => SMap.insert (2 * u + slot) (els ++ rest) m) x.latches
    latchValid := (x.latchValid ++ units.map (fun u => 2 * u + slot)).eraseDups }
  (s.setVault v x).bump 1

/-- The bank of a unit that falls idle: its row is closed, and the refreshes that it owes are issued (06 R231, 07 R265). -/
def Vault.freeBank (x : Vault) (u : Nat) : Vault := (x.setBank u { x.bank u with openRow := none }).refreshBank u 0

/-- BANK_UNIT_COMMAND_END (07 R269 to R273): owed refreshes are issued, and the requests that waited are served. -/
def execBankUnitCommandEnd (i : Site) (k : Nat) (s : State) : Host.Outcome State Fault Refusal :=
  let x := s.vault i
  match x.running[k]? with
  | none => next s
  | some c =>
    if s.now < c.ends then next s
    else
      let s := s.setVault i (c.units.foldl Vault.freeBank { x with running := dropAt x.running k })
      let s := c.writes.foldl (fun s w => s.writeBank i w.1 w.2) s
      let s := s.incWrap (Reg.bkuCntBusy_unit_cycles i) (c.uncounted * c.units.length)
      let s := match c.op with
        | .qld slot n us data => s.loadLatch i slot n us data
        | _ => s
      let s := if c.result.isEmpty then s.bkuDone i c.job c.itag (bkuOpcode c.op) c.status c.kvx []
        else if (State.job? s c.job).isNone then s
        else
          let x := s.vault i
          s.setVault i { x with results := x.results ++
            [{ site := i, dst := bkuDst c.op, data := c.result, job := c.job, itag := c.itag, op := bkuOpcode c.op
               status := c.status, kvx := c.kvx }] }
      next (((s.serveWaiting i).kvGo i).bkuShow i)

/-- BANK_UNIT_RESULT_DRAIN (07 R265, R269, R276): a result of BKD goes to the scratchpad, one of KVX to its instruction
(08 R301, R302). -/
def execBankUnitResultDrain (i : Site) (s : State) : Host.Outcome State Fault Refusal :=
  let x := s.vault i
  match x.results with
  | [] => next s
  | r :: rest =>
    let s := s.setVault i { x with results := rest }
    let s := if (State.job? s r.job).isNone || r.kvx.isSome then s else s.writeScratch r.site r.dst r.data
    next (((s.bkuDone i r.job r.itag r.op r.status r.kvx r.data).kvGo i).bkuShow i)

/-! ## Time -/

/-- BANK_UNIT_WINDOW_START (07 R267): once at each multiple of 1,000 ticks, the budget plus a negative remainder. -/
def execBankUnitWindowStart (s : State) : Host.Outcome State Fault Refusal :=
  if s.now % 1000 ≠ 0 ∨ s.now / 1000 < s.bkuWin then next s
  else
    next ((List.range siteCount).foldl (fun s v =>
      s.setF (Reg.bkuBudget_remaining v) (wrap 16 ((s.getF (Reg.bkuBudget_budget v) : Int) + min 0 (s.bkuRemaining v))))
      { s with bkuWin := s.now / 1000 + 1 })

/-- Vault cycles that have begun by a tick: three in four ticks (06 R222). -/
def cyclesBy (t : Nat) : Nat := 3 * t / 4

/-- A vault cycle of a vault's counters: busy units, reads held behind a busy unit, and a command that only the budget
keeps from its grant (06 R250, 07 R279). -/
def State.vaultCycle (s : State) (v : Nat) : State :=
  let x := s.vault v
  let s := if (s.bankWaits v).any x.busyBank then s.incWrap (Reg.vltCntHeld_cycles v) 1 else s
  let s := if !x.queue.isEmpty && decide (s.bkuRemaining v ≤ 0) && (s.bkuPick v).isSome then
      s.incWrap (Reg.bkuCntWait_cycles v) 1
    else s
  let n := ((x.running.filter (fun c => c.uncounted != 0)).map (fun c => c.units.length)).sum
  if n = 0 then s
  else
    (s.incWrap (Reg.bkuCntBusy_unit_cycles v) n).setVault v
      { x with running := x.running.map (fun c => { c with uncounted := c.uncounted - 1 }) }

/-- What the vaults count in a tick: those whose bank units have work. -/
def State.unitTicks (s : State) : State :=
  if cyclesBy s.now = cyclesBy (s.now - 1) then s
  else (s.vaults.filter (fun e => !e.2.running.isEmpty || !e.2.queue.isEmpty)).foldl (fun s e => s.vaultCycle e.1) s

end Sys2Proof.Machine
end

