-- ==== Sys2Proof/Machine/Ecdsa.lean ====
section
/-!
DEFINITION. ECDSA over NIST P-384 with SHA-384 (15 R537, R560), as FIPS 186-5 defines it. PRESUMED (log entry 17): the
curve's constants are FIPS 186-5's; the spec names the curve and does not print them.
-/
namespace Sys2Proof.Machine

/-- The field's prime. -/
def ecP : Nat := 2 ^ 384 - 2 ^ 128 - 2 ^ 96 + 2 ^ 32 - 1
/-- The order of the base point. -/
def ecN : Nat :=
  0xFFFFFFFFFFFFFFFFFFFFFFFFFFFFFFFFFFFFFFFFFFFFFFFFC7634D81F4372DDF581A0DB248B0A77AECEC196ACCC52973
/-- The coefficient b; a is -3. -/
def ecB : Nat :=
  0xB3312FA7E23EE7E4988E056BE3F82D19181D9C6EFE8141120314088F5013875AC656398D8A2ED19D2A85C8EDD3EC2AEF
/-- The base point's x. -/
def ecGx : Nat :=
  0xAA87CA22BE8B05378EB1C71EF320AD746E1D3B628BA79B9859F741E082542A385502F25DBF55296C3A545E3872760AB7
/-- The base point's y. -/
def ecGy : Nat :=
  0x3617DE4A96262C6F5D9E98BF9292DC29F8F41DBD289A147CE9DA3113B5F0B8C00A60B1CE1D7E819D7A431D7C90EA0E5F

/-- b^e mod m, by `bits` bits of e, from the lowest. -/
def powBits (m : Nat) : Nat → Nat → Nat → Nat
  | 0, _, _ => 1 % m
  | k + 1, b, e =>
    let r := powBits m k (b * b % m) (e / 2)
    if e % 2 = 1 then b * r % m else r

/-- The inverse modulo a prime below 2^384. -/
def invMod (m x : Nat) : Nat := powBits m 384 (x % m) (m - 2)

/-- A difference in the field. -/
def subP (a b : Nat) : Nat := (a + ecP - b % ecP) % ecP

/-- A point (x / z^2, y / z^3); z = 0 is the point at infinity. -/
abbrev EcPoint := Nat × Nat × Nat

/-- Twice a point. -/
def ecDouble : EcPoint → EcPoint
  | (x, y, z) =>
    if z = 0 ∨ y = 0 then (1, 1, 0)
    else
      let zz := z * z % ecP
      let m := 3 * (subP x zz * ((x + zz) % ecP) % ecP) % ecP
      let yy := y * y % ecP
      let q := 4 * x * yy % ecP
      let x' := subP (m * m % ecP) (2 * q)
      (x', subP (m * subP q x' % ecP) (8 * yy * yy % ecP), 2 * y * z % ecP)

/-- The sum of two points. -/
def ecAdd : EcPoint → EcPoint → EcPoint
  | (x, y, z), (x', y', z') =>
    if z = 0 then (x', y', z')
    else if z' = 0 then (x, y, z)
    else
      let u := x * (z' * z') % ecP
      let u' := x' * (z * z) % ecP
      let v := y * (z' * z' * z') % ecP
      let v' := y' * (z * z * z) % ecP
      if u = u' then (if v = v' then ecDouble (x, y, z) else (1, 1, 0))
      else
        let h := subP u' u
        let r := subP v' v
        let hh := h * h % ecP
        let hhh := h * hh % ecP
        let q := u * hh % ecP
        let x3 := subP (subP (r * r % ecP) hhh) (2 * q)
        (x3, subP (r * subP q x3 % ecP) (v * hhh % ecP), h * z % ecP * z' % ecP)

/-- A multiple of a point, by the lowest `bits` bits of the factor. -/
def ecMul : Nat → Nat → EcPoint → EcPoint
  | 0, _, _ => (1, 1, 0)
  | k + 1, e, q =>
    let r := ecMul k (e / 2) (ecDouble q)
    if e % 2 = 1 then ecAdd q r else r

/-- Is a pair of coordinates a point of the curve? -/
def onCurve (x y : Nat) : Bool :=
  decide (x < ecP) && decide (y < ecP) && (y * y + 3 * x) % ecP == (x * x * x + ecB) % ecP

/-- The number a big-endian byte string spells. -/
def beNat (bs : List Byte) : Nat := bs.foldl (fun n b => n * 256 + b.toNat) 0

/-- Does a signature (r, then s, 48 bytes each) over a message verify under a public key: 0x04, then x and y? -/
def ecdsaOk (key msg sig : List Byte) : Bool :=
  let x := beNat (slice key 1 48)
  let y := beNat (slice key 49 48)
  let r := beNat (slice sig 0 48)
  let s := beNat (slice sig 48 48)
  if key.length != 97 || sig.length != 96 || fieldLE key 0 1 != 4 || !onCurve x y || r == 0 || s == 0 ||
      decide (ecN ≤ r) || decide (ecN ≤ s) then false
  else
    let w := invMod ecN s
    let e := beNat (sha384 msg)
    let p := ecAdd (ecMul 384 (e * w % ecN) (ecGx, ecGy, 1)) (ecMul 384 (r * w % ecN) (x, y, 1))
    if p.2.2 = 0 then false
    else
      let zi := invMod ecP p.2.2
      p.1 * (zi * zi) % ecP % ecN == r

end Sys2Proof.Machine
end

