-- ==== Sys2Proof/Machine/StageQ.lean ====
section
/-!
DEFINITION. The events of the stage queues (chapter 09; 10 R388 to R390): admission, words, availability, stalls, loss,
opening and closing, and the deadline of a POP.
-/
namespace Sys2Proof.Machine

/-! ## Admission -/

/-- The engine of a sender: FMV or SQ. -/
def sendEngine (fmv : Bool) : Nat := if fmv then 5 else 7

/-- A refused request is made again later, or its sender ends (09 R332, R352, 10 R384). -/
def State.refusedReq (s : State) (x : Sender) (st : Nat) : State :=
  match s.askAgain x st with
  | some s' => s'
  | none => (s.endSender x st).runEngines x.site

/-- A TOK packet of a sender. -/
def State.sendTok (s : State) (x : Sender) (op aux : Nat) (data : List PByte) : State :=
  let src := s.vidOf x.site
  let g := s.pickTag src
  s.launch {
    pkt := { Packet.blank with
      cls := clsTok, op := op, srcEngine := x.engine, length := data.length, tag := g, dst := x.dst * 2 ^ 32
      src := src, seq := x.seq, aux := aux, payload := data }
    tower := towerOf x.site, site := x.site, job := x.job, dest := .none, st := .waiting, port := 0, since := s.now
    firstRefusal := 0, why := 0, noPort := 0, ans := none }

/-- Makes a sender's request: at its queue in the package, or by an ADMIT packet (09 R332, 10 R374, R389). -/
def State.askQueue (s : State) (x : Sender) : State :=
  if x.remote then
    ((s.useSeq x.site x.engine x.seq).setSender { x with st := .recorded }).sendTok x 0 0
      (clean (toLE 8 x.header.toNat))
  else
    match s.diePath (towerOf x.site) (towerOf x.dst) with
    | .none => (s.endSender x stUnreachable).runEngines x.site
    | .later => s
    | .now =>
      let s := s.useSeq x.site x.engine x.seq
      if s.on (Reg.skyStatus_resetting (towerOf x.dst)) then s.refusedReq x stNodeResetting
      else
        let r := s.recordReq x.dst
          { id := s.senderId x, tag := 0, header := x.header, at_ := s.now, remote := false, abandoned := false }
        match r.2 with
        | .recorded => r.1.setSender { x with st := .recorded }
        | .again => r.1.setSender { x with st := .admitted }
        | .refused st => r.1.refusedReq x st

/-- A sender whose request is due; `again` tells a repeated request from a first one. -/
def State.dueSender (s : State) (i : Nat) (fmv again : Bool) : Option Sender :=
  match s.sender? i (sendEngine fmv) with
  | none => none
  | some x =>
    match x.st with
    | .asking t =>
      let mine := (s.seqCtr i x.engine).busy.any (fun b => b.1 == x.seq && b.2 == none)
      if t ≤ s.now && (x.firstRefusal != 0) == again && ((again && mine) || s.seqFree i x.engine x.seq) then some x
      else none
    | _ => none

/-- ADMISSION_REQUEST (09 R332, 10 R389). -/
def execAdmissionRequest (i : Site) (fmv : Bool) (s : State) : Host.Outcome State Fault Refusal :=
  match s.dueSender i fmv false with
  | none => next s
  | some x => next (s.askQueue x)

/-- ADMISSION_RETRY (09 R332). -/
def execAdmissionRetry (i : Site) (fmv : Bool) (s : State) : Host.Outcome State Fault Refusal :=
  match s.dueSender i fmv true with
  | none => next s
  | some x => next (s.askQueue x)

/-- The site of the local sender whose request heads a queue's record. -/
def State.headSender (s : State) (q : Nat) : Option Nat :=
  match (s.queue q).requests with
  | [] => none
  | r :: _ => if r.remote then none else (s.localSender r.id).map Sender.site

/-- BUNDLE_ADMIT (09 R334). -/
def execBundleAdmit (i : Site) (s : State) : Host.Outcome State Fault Refusal :=
  match s.headSender i with
  | none => next (s.admitReq i)
  | some k => next ((s.admitReq i).runEngines k)

/-! ## Words -/

/-- Delivers a local sender's next word (09 R336, R338); with its last one its instruction completes. -/
def State.deliverWord (s : State) (x : Sender) (parityOk : Bool) : State :=
  match (s.queue x.dst).resident.find? (fun b => b.id == s.senderId x && !b.whole), x.words[x.next]? with
  | some b, some w =>
    let r := s.putWords x.dst b x.next [⟨w.1, w.2, parityOk⟩]
    let x := { x with next := x.next + 1 }
    if x.next < x.words.length then r.1.setSender x else (r.1.endSender x (sentStatus x)).runEngines x.site
  | _, _ => s

/-- BUNDLE_WORD (09 R336). -/
def execBundleWord (i : Site) (fmv parityOk : Bool) (s : State) : Host.Outcome State Fault Refusal :=
  match s.sender? i (sendEngine fmv) with
  | none => next s
  | some x =>
    if x.remote || x.st != .admitted || s.diePath (towerOf x.site) (towerOf x.dst) != .now then next s
    else next (s.deliverWord x parityOk)

/-- BUNDLE_AVAILABLE (09 R337, R347): a POP or POPA that waits for the head goes on. -/
def execBundleAvailable (i : Site) (s : State) : Host.Outcome State Fault Refusal :=
  if s.headReady i then next (s.runSq 17 i) else next s

/-! ## Stalls and loss -/

/-- SQ_STALL (09 R338): one event for the oldest request. -/
def execSqStall (i : Site) (s : State) : Host.Outcome State Fault Refusal :=
  let q := s.queue i
  let t := s.getF (Reg.sqStall_us i)
  match q.requests with
  | [] => next s
  | r :: _ =>
    if t = 0 ∨ q.stallSent = true ∨ s.now ≤ r.at_ + us t then next s
    else next ((s.setQueue i { q with stallSent := true }).coreEvent i 6 stOk 0 0 r.id.src 0)

/-- Core cycles that have begun by a tick: three in two ticks. -/
def coreCyclesBy (t : Nat) : Nat := 3 * t / 2

/-- SQ_CNT_STALL counts the core cycles of a tick in which the oldest request of a queue waits for space or a descriptor
(09 R334, R358). -/
def State.stallTicks (s : State) : State :=
  let n := coreCyclesBy s.now - coreCyclesBy (s.now - 1)
  s.queues.foldl (fun s e =>
    match e.2.requests with
    | [] => s
    | r :: _ =>
      if s.sqState e.1 != sqLost && (e.2.place (8 + 8 * hdrWords r.header)).isNone then s.incWrap (Reg.sqCntStall_cycles e.1) n
      else s) s

/-- Completes a bundle that lost its words; its sender in this package completes with POISONED (09 R340). -/
def State.bundleGone (s : State) (q : Nat) (b : Bundle) : State :=
  let s := s.loseBundle q b
  match s.localSender b.id with
  | none => s
  | some x => if x.dst = q then (s.endSender x stPoisoned).runEngines x.site else s

/-- BUNDLE_LOST (09 R340). -/
def execBundleLost (i : Site) (src engine seq : Nat) (s : State) : Host.Outcome State Fault Refusal :=
  match (s.queue i).resident.find? (fun b => b.id == ⟨src, engine, seq⟩ && !b.whole) with
  | none => next s
  | some b => next (s.bundleGone i b)

/-- BUNDLE_WORD_TIMEOUT (10 R388): the k-th resident bundle has had no word for 2 × lifetime_us. -/
def execBundleWordTimeout (i : Site) (k : Nat) (s : State) : Host.Outcome State Fault Refusal :=
  match (s.queue i).resident[k]? with
  | none => next s
  | some b =>
    if b.whole || decide (s.now < b.lastWord + 2 * s.lifetime (towerOf i)) then next s else next (s.bundleGone i b)

/-- BUNDLE_MEMORY_EXPIRE (10 R390). -/
def execBundleMemoryExpire (i : Site) (s : State) : Host.Outcome State Fault Refusal :=
  let q := s.queue i
  next (s.setQueue i { q with remembered := q.remembered.filter (fun e => decide (s.now < e.2)) })

/-- BUNDLE_SEQ_FREE (10 R389). -/
def execBundleSeqFree (i : Site) (fmv : Bool) (s : State) : Host.Outcome State Fault Refusal :=
  let c := s.seqCtr i (sendEngine fmv)
  next (s.setSeqCtr i (sendEngine fmv) { c with busy := c.busy.filter (fun b =>
    match b.2 with
    | none => true
    | some t => decide (s.now < t)) })

/-! ## Opening, closing, deadlines -/

/-- Closes a queue (09 R342): one that is LOST stays so until its channel is destroyed (R341). -/
def State.closeQueue (s : State) (q : Nat) : State :=
  let lost := s.sqState q == sqLost
  let s := (s.setF (Reg.sqCtrl_open q) 0).emptyQueue q stSqClosed
  if lost then s else s.setF (Reg.sqStatus_state q) sqClosed

/-- Opens a queue (09 R327). -/
def State.openQueue (s : State) (q : Nat) : State :=
  let s := s.setF (Reg.sqCtrl_open q) 1
  if s.sqState q = sqLost then s else s.setF (Reg.sqStatus_state q) sqOpen

/-- SQ_OPEN_WRITE (09 R327, R342, R358). -/
def execSqOpenWrite (i : Site) (b : Bool) (s : State) : Host.Outcome State Fault Refusal :=
  if !s.coreOn i then next s else if b then next (s.openQueue i) else next (s.closeQueue i).runQueues

/-- POP_TIMEOUT (09 R347, 02 R84): the bundle stays; the flag address is the core's own queue. -/
def execPopTimeout (i : Site) (s : State) : Host.Outcome State Fault Refusal :=
  match (s.core i).sq with
  | [] => next s
  | e :: _ =>
    if iOp e.w.toNat = 0 || (e.begun && !(s.queue i).resident.isEmpty) || decide (s.now < e.deadline) then next s
    else next (((s.dropSq i).queueShow i).endEntry e stWaitTimeout spSky (s.ownQueue i) false)

end Sys2Proof.Machine
end

