-- ==== Sys2Proof/Machine/CoreCtl.lean ====
section
/-!
DEFINITION. What happens to a core from outside its stream: its instruction cache (02 R61 to R63), stops (R64, R84, R90,
R91), notices and re-arming of a WAIT (R82, R85, 10 R394), and the writes of CORE_CTRL (R60, R61, R90 to R92, R103).
-/
namespace Sys2Proof.Machine

/-! ## Starting, stopping, resuming -/

/-- Are a stream's base and length as R60 asks? -/
def streamOk (base len : Nat) : Bool :=
  base % 128 == 0 && len != 0 && len % 16 == 0 && decide (len ≤ 0x10000000) && decide (base + len ≤ vaultSize)

/-- Discards the planes loaded into the shadows (03 R127). -/
def Mxa.discard (a : Mxa) : Mxa := { a with rows := a.rows.map (fun r => { r with loaded := r.swapped }) }

/-- Starts the stream of an IDLE core (02 R61, R89, 03 R124, R127, R140, 05 R168, R207, 07 R252, 08 R324). -/
def State.startStream (s : State) (i : Nat) : State :=
  let c := s.core i
  let s := s.setCore i { c with
    ags := [], frames := [], loopBuf := [], hold := .none, icache := [], noBreak := false, stepsLeft := 0
    acc0 := Acc.start, acc1 := Acc.start, held := none, mxa := c.mxa.discard, tle := Tle.start }
  let v := s.vault i
  let s := s.setVault i { v with latchValid := [] }
  let s := s.setPc i (s.streamBase i)
  let s := [Reg.coreRetired_count i, Reg.coreIcStat_misses i, Reg.mxaStatus_nan_op i, Reg.mxaStatus_inv i,
    Reg.mxaStatus_ovf i, Reg.mxaHeld_valid i, Reg.mxaHeld_sfmt i, Reg.mxaHeld_shadow_ready i, Reg.mxaStatus_isat i, Reg.mxaStatus_poison i, Reg.mxaCntFreeze_feed_dry i,
    Reg.mxaCntFreeze_shadow_late i, Reg.mxaCntFreeze_drain_full i, Reg.tleStatus_nan_op i, Reg.tleStatus_inv i,
    Reg.tleStatus_ovf i, Reg.tleStatus_isat i, Reg.tleStatus_poison i, Reg.tleKpoison_kpoison i, Reg.kvxLast_status i, Reg.kvxLast_tag i,
    Reg.kvxLast_op i, Reg.kvxLost_valid i, Reg.kvxLost_frame i].foldl (fun s f => s.setF f 0) s
  s.setF (Reg.coreStatus_state i) csRunning

/-- The live channel a core belongs to. -/
def State.liveChan (s : State) (i : Nat) : Option Nat :=
  match chanOfSite s.chans i with
  | some k => if (s.chan k).st = .live then some k else none
  | none => none

/-- CORE_CTRL_START (02 R60, R61, R92, 12 R457). -/
def execCoreCtrlStart (i : Site) (s : State) : Host.Outcome State Fault Refusal :=
  if s.locked i || !s.coreOn i || s.coreState i != csIdle || (s.liveChan i).isNone then next s
  else if !streamOk (s.streamBase i) (s.streamLen i) then next (s.setF (Reg.coreStatus_last_status i) stBadParam)
  else next (s.startStream i)

/-- Stops a RUNNING core in BREAK at the next issue boundary (02 R91, R103); an END that drains goes on. No status code
is one of such a stop: CORE_STATUS.last_status stays (log entry 77). -/
def State.pauseCore (s : State) (i : Nat) : State :=
  if s.coreState i != csRunning || (s.core i).hold == .end_ then s
  else ((s.withdraw i).endStep i).setF (Reg.coreStatus_state i) csBreak

/-- CORE_CTRL_STOP. -/
def execCoreCtrlStop (i : Site) (s : State) : Host.Outcome State Fault Refusal :=
  if s.locked i then next s else next (s.pauseCore i)

/-- Continues a core in BREAK: the held instruction issues without being matched again (02 R90). -/
def State.resumeCore (s : State) (i : Nat) : State :=
  if s.coreState i != csBreak then s
  else ((s.setCore i { s.core i with noBreak := true }).setF (Reg.coreStatus_state i) csRunning).checkLine i

/-- CORE_CTRL_RESUME. -/
def execCoreCtrlResume (i : Site) (s : State) : Host.Outcome State Fault Refusal :=
  if s.locked i then next s else next (s.resumeCore i)

/-! ## The instruction cache -/

/-- Lines of the cache (02 R61). -/
def icLines : Nat := 512

/-- A line fetched from the vault. -/
def lineOf (data : List PByte) : ICLine :=
  { words := (List.range 8).map (fun k => BitVec.ofNat 128 (leP (slice data (16 * k) 16))), poison := anyPoison data }

/-- Puts a line into the cache in place of another. -/
def State.putLine (s : State) (i l victim : Nat) (data : List PByte) : State :=
  let c := s.core i
  let kept := SMap.keep (fun k => k != victim || k == l) c.icache
  (s.setCore i { c with icache := SMap.insert l (lineOf data) kept }).checkLine i

/-- May a line take the place of another? A run of 64 KiB of stream evicts none of its own lines; which line goes is
otherwise open (02 R61): the command names it. -/
def Core.victimOk (c : Core) (l victim : Nat) : Bool :=
  let resident := (SMap.find c.icache victim).isSome && victim != l
  if resident then decide (icLines ≤ l - victim + (victim - l)) else decide (c.icache.length < icLines)

/-- ICACHE_LINE_FILL (02 R61, R63): the line at CORE_PC, one of the four ahead, or the one that the look-ahead of a
REPEAT at CORE_PC needs (R78); with `parityFail`, a resident line whose read failed parity. A fill of the line at
CORE_PC is a line miss, one of a line ahead is none (log entry 77). -/
def execIcacheLineFill (i : Site) (ahead : Fin 16) (parityFail : Bool) (victim : Nat) (s : State) :
    Host.Outcome State Fault Refusal :=
  let c := s.core i
  let l := s.pc i / 128 + ahead
  let have_ := (SMap.find c.icache l).isSome
  if s.coreState i != csRunning || c.pastEnd || decide (s.streamEnd i ≤ 128 * l) ||
      (decide (4 < ahead.val) && s.scanLine i != some l) || have_ != parityFail ||
      !(parityFail || c.victimOk l victim) || !s.portOpen i then next s
  else if !s.readReady i (128 * l) 128 then next (s.waitFor i (s.busyAt i (128 * l) 128))
  else
    let s := s.waitOver i ((s.banksOf i (128 * l) 128).map (fun b => (i.val, b)))
    let r := (s.arbitrate i .coreRead false (128 * l) 128).readVault i (128 * l) 128 false
    let t := if parityFail then
        ((if r.1.injected 2 i then r.1.usedInject else r.1).incSat (Reg.coreIcStat_parity_refetch i) 1).record
          (mkRecord s 0 3 i 0 6 (128 * l) 0)
      else if ahead = 0 then r.1.incSat (Reg.coreIcStat_misses i) 1 else r.1
    if r.2.2 = stMemRetired then
      if ahead = 0 then next (t.stopCore i stMemRetired 0 0 spGround (128 * l)) else next t
    else next (t.putLine i l (if parityFail then l else victim) r.2.1)

/-! ## Stops -/

/-- BREAKPOINT_STOP (02 R90). -/
def execBreakpointStop (i : Site) (s : State) : Host.Outcome State Fault Refusal :=
  let c := s.core i
  match c.wordAt (s.pc i) with
  | .word w =>
    if s.atWord i w && !c.noBreak && s.breakHit i w.toNat then
      next ((s.endStep i).setF (Reg.coreStatus_state i) csBreak)
    else next s
  | .poison => next s
  | .missing => next s

/-- STREAM_OVERRUN (02 R64). -/
def execStreamOverrun (i : Site) (s : State) : Host.Outcome State Fault Refusal :=
  if s.coreState i == csRunning && (s.core i).hold == .none && s.atEnd i then
    next (s.stopCore i stStreamOverrun 0 0 spGround (s.streamEnd i))
  else next s

/-- CHANNEL_FAULT_STOP (02 R91): no instruction of its own is at fault, so engine, tag and address are 0. -/
def execChannelFaultStop (i : Site) (s : State) : Host.Outcome State Fault Refusal :=
  match chanOfSite s.chans i with
  | none => next s
  | some k =>
    if (s.chan k).st == .faulted && s.coreState i == csRunning && (s.core i).hold != .end_ then
      next (s.stopCore i stChannelFaulted 0 0 spGround 0)
    else next s

/-! ## WAIT -/

/-- The WAIT that holds a core. -/
def State.waiting (s : State) (i : Nat) : Option WaitSt :=
  match (s.core i).hold with
  | .wait x => if s.coreState i = csRunning then some x else none
  | _ => none

/-- WAIT_TIMEOUT (02 R84). -/
def execWaitTimeout (i : Site) (s : State) : Host.Outcome State Fault Refusal :=
  match s.waiting i with
  | none => next s
  | some x => if x.deadline ≤ s.now then next (s.failWait i x stWaitTimeout) else next s

/-- WAIT_REARM (02 R85, 10 R387, R395). -/
def execWaitRearm (i : Site) (s : State) : Host.Outcome State Fault Refusal :=
  match s.waiting i with
  | none => next s
  | some x =>
    let asked := x.remote && s.sent.any (fun y => y.pkt.op == 3 && y.site == i.val && y.pkt.tag == x.itag)
    if x.armed || asked || decide (s.now < x.nextTry) || decide (x.deadline ≤ s.now) ||
        (!x.remote && !s.portOpen x.vid) then next s
    else if !x.remote && !s.readReady x.vid x.off 8 then next (s.waitFor i (s.busyAt x.vid x.off 8))
    else next (((s.waitOver i ((s.banksOf x.vid x.off 8).map (fun b => (x.vid, b)))).incSat (Reg.coreWaitState_rearms i) 1).arm i x)

/-- A notice counts for the WAIT that holds a core. -/
def State.takeNotice (s : State) (i : Nat) (x : WaitSt) (v : List PByte) : State :=
  (s.incSat (Reg.coreWaitState_notices i) 1).seeFlag i x v

/-- Is a count newer than the newest one taken (10 R394)? -/
def newer (count highest : Nat) : Bool :=
  let d := (count + 65536 - highest) % 65536
  decide (1 ≤ d) && decide (d < 32768)

/-- Answers a notice that no WAIT of the core waits for with WATCH_CANCEL (10 R394): the packet keeps the notice's tag,
which names the watch, unless another packet uses it. -/
def State.cancelStray (s : State) (i : Nat) (k : Packet) : State :=
  let src := s.vidOf i
  let g := if s.sent.any (fun x => x.pkt.src == src && x.pkt.tag == k.tag) then s.pickTag src else k.tag
  s.launch {
    pkt := { Packet.blank with op := 4, tag := g, dst := k.src * 2 ^ 32, src := src }
    tower := towerOf i, site := i, job := 0, dest := .none, st := .waiting, port := 0, since := s.now
    firstRefusal := 0, why := 0, noPort := 0, ans := none }

/-- Takes the first notice for a core from a vault. -/
def dropNotice (i : Nat) : List (Watcher × Nat × List PByte) → Option ((Nat × List PByte) × List (Watcher × Nat × List PByte))
  | [] => none
  | x :: rest =>
    if x.1 = .core i then some (x.2, rest) else (dropNotice i rest).map (fun r => (r.1, x :: r.2))

/-- A notice from a vault of the package reaches a core (02 R82). -/
def State.noticeHere (s : State) (i v : Nat) : State :=
  let vt := s.vault v
  match dropNotice i vt.notices with
  | none => s
  | some (m, rest) =>
    let s := s.setVault v { vt with notices := rest }
    match s.waiting i with
    | none => s
    | some x => if !x.remote && x.vid == v && x.off == m.1 && x.armed then s.takeNotice i x m.2 else s

/-- A NOTICE packet reaches a core (10 R394); one for a site without a core is discarded and counted at the tower it came
in (R396). -/
def State.noticePkt (s : State) (t i : Nat) (k : Packet) : State :=
  if !s.coreOn i then s.discard t
  else
    match s.waiting i with
    | none => s.cancelStray i k
    | some x =>
      if !x.remote || x.itag != k.tag || x.vid != k.src then s.cancelStray i k
      else if newer k.seq x.highest then s.takeNotice i { x with highest := k.seq } k.payload
      else s

end Sys2Proof.Machine
end

