-- ==== Sys2Proof/Machine/Rings.lean ====
section
/-!
DEFINITION. The host's rings (12 R433 to R441, R468 to R470, 16 R582): doorbells, taking commands, posting completions and
events, enabling, draining and failing rings; and the format of commands (R442, R445, 00 R21).
-/
namespace Sys2Proof.Machine

/-! ## Submission rings -/

/-- DISABLED. -/
def rgDisabled : Nat := 0
/-- ACTIVE. -/
def rgActive : Nat := 1
/-- DRAINING. -/
def rgDraining : Nat := 2
/-- ERROR. -/
def rgError : Nat := 3

/-- CMP_RING_STATUS.state. -/
def State.ringState (s : State) (r : Nat) : Nat := s.getF (Reg.cmpRingStatus_state r)
/-- Entries of a submission ring. -/
def State.ringSize (s : State) (r : Nat) : Nat := 2 ^ s.getF (Reg.cmpRingCfg_log2_entries r)
/-- Entries of an event ring. -/
def State.eqSize (s : State) (e : Nat) : Nat := 2 ^ s.getF (Reg.cmpEqCfg_log2_entries e)

/-- Is a completion ring full (12 R436)? -/
def State.cqFull (s : State) (r : Nat) : Bool :=
  (s.getF (Reg.cmpRingIdx_cq_tail r) + 1) % s.ringSize r == (s.ring r).cqHead

/-- CMP_RING_STATUS.cq_full shows whether the completion ring is full. -/
def State.showFull (s : State) (r : Nat) : State := s.setF (Reg.cmpRingStatus_cq_full r) (b2n (s.cqFull r))

/-- A DISABLED ring becomes ACTIVE with its indices at 0 (12 R433, R436). -/
def State.enableRing (s : State) (r : Nat) : State :=
  if s.ringState r != rgDisabled then s
  else
    let s := [Reg.cmpRingStatus_sq_head r, Reg.cmpRingIdx_sq_tail r, Reg.cmpRingIdx_cq_tail r,
      Reg.cmpRingStatus_cq_full r].foldl (fun s f => s.setF f 0) s
    ((s.setRing r Ring.reset).setF (Reg.cmpRingCfg_enable r) 1).setF (Reg.cmpRingStatus_state r) rgActive

/-- A ring takes no further command and drains (12 R440, R441). -/
def State.drainRing (s : State) (r : Nat) : State :=
  let s := s.setF (Reg.cmpRingCfg_enable r) 0
  if s.ringState r = rgActive ∨ s.ringState r = rgError then s.setF (Reg.cmpRingStatus_state r) rgDraining else s

/-! ## Event rings -/

/-- Is an event ring enabled? -/
def State.eqOn (s : State) (e : Nat) : Bool := s.on (Reg.cmpEqCfg_enable e)

/-- Does a channel that lives name an event ring (12 R471, R474)? -/
def State.eqNamed (s : State) (e : Nat) : Bool := s.chans.any (fun c => c.2.st != .free && c.2.eq == e)

/-- CMP_EQ_STATUS.held shows the events held. -/
def State.showHeld (s : State) (e : Nat) : State := s.setF (Reg.cmpEqStatus_held e) (s.evRing e).held.length

/-- Enables an event ring, its tail and head at 0. -/
def State.enableEq (s : State) (e : Nat) : State :=
  if s.eqOn e then s
  else (((s.setEvRing e EvRing.reset).setF (Reg.cmpEqStatus_tail e) 0).showHeld e).setF (Reg.cmpEqCfg_enable e) 1

/-- Disables an event ring; the events it held are dropped and counted (16 R582). -/
def State.disableEq (s : State) (e : Nat) : State :=
  let x := s.evRing e
  ((s.incSat (Reg.cmpEqDrop_dropped e) x.held.length).setEvRing e EvRing.reset).showHeld e
    |>.setF (Reg.cmpEqCfg_enable e) 0

/-! ## Doorbells (12 R434) -/

/-- A doorbell that is ignored is captured (12 R434, R473). -/
def State.badDoorbell (s : State) (off : Nat) : State := s.hifFirst 5 1 off

/-- SQ_TAIL_DOORBELL: ignored while WEDGED (16 R584). -/
def execSqTailDoorbell (r : Ring64) (v : BitVec 32) (s : State) : Host.Outcome State Fault Refusal :=
  if s.wedged then next s
  else if s.ringState r = rgDisabled ∨ s.ringSize r ≤ v.toNat then
    next ((s.setF (Reg.cmpRingStatus_db_err r) 1).badDoorbell (r * 0x1000))
  else next (s.setF (Reg.cmpRingIdx_sq_tail r) v.toNat)

/-- CQ_HEAD_DOORBELL. -/
def execCqHeadDoorbell (r : Ring64) (v : BitVec 32) (s : State) : Host.Outcome State Fault Refusal :=
  if s.wedged then next s
  else if s.ringState r = rgDisabled ∨ s.ringSize r ≤ v.toNat then
    next ((s.setF (Reg.cmpRingStatus_db_err r) 1).badDoorbell (r * 0x1000 + 4))
  else next ((s.setRing r { s.ring r with cqHead := v.toNat }).showFull r)

/-- EQ_HEAD_DOORBELL: the event ring's status has no db_err. -/
def execEqHeadDoorbell (e : Ring64) (v : BitVec 32) (s : State) : Host.Outcome State Fault Refusal :=
  if s.wedged then next s
  else if !s.eqOn e || decide (s.eqSize e ≤ v.toNat) then next (s.badDoorbell (0x100000 + e * 0x1000))
  else next (s.setEvRing e { s.evRing e with head := v.toNat })

/-! ## Commands -/

/-- What an opcode's handle names: nothing, a channel, or either. -/
inductive Naming where
  | none | channel | either
  deriving DecidableEq, Repr

/-- An opcode: what its handle names, its parameters by byte offset and width, and the bits of byte 8 it uses
(12 R445). -/
structure CmdForm where
  naming : Naming
  params : List (Nat × Nat)
  byte8 : Nat
  deriving DecidableEq, Repr

/-- The opcodes the command processor defines (12 R445). -/
def cmdForm (op : Nat) : Option CmdForm :=
  match op with
  | 0x00 => some ⟨.none, [], 0⟩
  | 0x01 => some ⟨.none, [(8, 8)], 255⟩
  | 0x02 => some ⟨.none, [(8, 1), (9, 1), (16, 8), (24, 8)], 255⟩
  | 0x03 => some ⟨.none, [(8, 1)], 255⟩
  | 0x04 => some ⟨.none, [(8, 1), (9, 1), (16, 8)], 255⟩
  | 0x05 => some ⟨.none, [(8, 1)], 255⟩
  | 0x10 => some ⟨.none, [(8, 1), (9, 1), (10, 1), (11, 1), (12, 1), (16, 8), (24, 4)], 255⟩
  | 0x11 => some ⟨.channel, [], 0⟩
  | 0x13 => some ⟨.channel, [(8, 1), (32, 32)], 255⟩
  | 0x18 => some ⟨.channel, [(8, 1), (12, 4), (16, 4), (24, 8), (32, 4)], 1⟩
  | 0x19 => some ⟨.channel, [(8, 1), (24, 8), (32, 4)], 255⟩
  | 0x20 => some ⟨.either, [(8, 1), (12, 4), (16, 8), (24, 8)], 3⟩
  | 0x21 => some ⟨.either, [(8, 1), (12, 4), (16, 8), (24, 8)], 3⟩
  | 0x23 => some ⟨.either, [(8, 1), (16, 8), (24, 8)], 3⟩
  | 0x28 => some ⟨.channel, [(8, 1), (9, 1), (10, 1), (12, 4), (16, 8), (24, 8)], 255⟩
  | 0x29 => some ⟨.channel, [(8, 1), (10, 1), (12, 4), (16, 4), (24, 8)], 255⟩
  | 0x30 => some ⟨.none, [(8, 2), (10, 2), (12, 1), (13, 1)], 255⟩
  | 0x38 => some ⟨.none, [(8, 4), (16, 8)], 255⟩
  | 0x39 => some ⟨.none, [], 0⟩
  | _ => none

/-- opcode. -/
def cmdOp (c : List Byte) : Nat := fieldLE c 0 1
/-- flags.ordered. -/
def cmdOrdered (c : List Byte) : Bool := bit (fieldLE c 1 1) 0
/-- flags.irq. -/
def cmdIrq (c : List Byte) : Bool := bit (fieldLE c 1 1) 1
/-- handle. -/
def cmdHandle (c : List Byte) : Nat := fieldLE c 4 4

/-- Are the reserved bytes and bits of a command 0 (00 R21)? A handle where the opcode names no channel is reserved. -/
def cmdReservedOk (f : CmdForm) (c : List Byte) : Bool :=
  let used := fun i => f.params.any (fun p => decide (p.1 ≤ i ∧ i < p.1 + p.2))
  decide (fieldLE c 1 1 < 4) && (f.naming != .none || cmdHandle c == 0) &&
  Nat.land (fieldLE c 8 1) f.byte8 == fieldLE c 8 1 &&
  (List.range 56).all (fun k => used (8 + k) || fieldLE c (8 + k) 1 == 0)

/-- The handle by which a command names a channel. -/
def cmdNames (c : List Byte) : Option Nat :=
  match cmdForm (cmdOp c) with
  | none => none
  | some f =>
    match f.naming with
    | .none => none
    | .channel => some (cmdHandle c)
    | .either => if cmdHandle c = 0 then none else some (cmdHandle c)

/-- The channel a handle names, unless it is stale (12 R448, R449). -/
def State.byHandle (s : State) (h : Nat) : Option Nat :=
  let k := h % 2 ^ 24
  let c := s.chan k
  if 16384 ≤ k ∨ h / 2 ^ 24 = 0 ∨ h / 2 ^ 24 ≠ c.gen then none
  else
    match c.st with
    | .live => some k
    | .faulted => some k
    | .free => none
    | .destroying => none

/-- COMPUTE_RESET of GLB_STATE.state. -/
def gsComputeReset : Nat := 3
/-- BOOTING. -/
def gsBooting : Nat := 0

/-- Is a site in a tower that a compute-only reset covers now (12 R447, 14 R517)? -/
def State.inReset (s : State) (i : Nat) : Bool :=
  s.getF Reg.glbState_state == gsComputeReset && bit (s.getF Reg.rstStatus_cr_mask) (towerOf i)

/-- Does the device refuse channels because it is in grade-fault (00 R4, 12 R447)? -/
def State.gradeRefuses (s : State) : Bool :=
  s.getF Reg.glbState_state == gsGradeFault || (s.getF Reg.glbState_state == gsComputeReset && s.gradeFails)

/-- The status a command completes with when it is taken, before its opcode's own checks (00 R21, 12 R447, R449, R453). A
CHAN_CREATE in grade-fault has none here: GRADE_FAULT comes before every other check of it (00 R4; DESIGN CHOICE, log entry
43). -/
def State.precheck (s : State) (c : List Byte) : Option Nat :=
  match cmdForm (cmdOp c) with
  | none => none
  | some f =>
    if cmdOp c = 0x10 ∧ s.gradeRefuses then none
    else if !cmdReservedOk f c then some stBadParam
    else
      match cmdNames c with
      | none => none
      | some h =>
        match s.byHandle h with
        | none => some stBadHandle
        | some k =>
          if (s.chan k).cores.any s.inReset then some stNodeResetting
          else if (s.chan k).st = .faulted ∧ cmdOp c ≠ 0x11 then some stChannelFaulted
          else none

/-- May two commands that name one channel overlap (12 R439)? -/
def overlaps (op : Nat) : Bool := op == 0x20 || op == 0x21 || op == 0x23

/-- May a ring's next command start now (12 R437, R439)? -/
def State.mayStart (s : State) (r : Nat) (c : List Byte) : Bool :=
  let busy := s.started.filter (fun x => x.done == none)
  !(cmdOrdered c && busy.any (fun x => x.ring == r)) &&
  !(busy.any (fun x => (cmdNames c).isSome && cmdNames x.cmd == cmdNames c &&
    !(overlaps (cmdOp c) && overlaps (cmdOp x.cmd))))

/-- Commands in flight at most (12 R438). -/
def flightMax : Nat := 64

/-- The ring whose turn it is: the first from the pointer on that has a command and has not been passed over (12 R436,
R438). -/
def State.ringTurn (s : State) : Option Nat :=
  ((List.range 64).map (fun j => (s.arbPtr + j) % 64)).find? (fun r =>
    s.ringState r == rgActive && s.getF (Reg.cmpRingStatus_sq_head r) != s.getF (Reg.cmpRingIdx_sq_tail r) &&
      !s.cqFull r && !s.skipped.contains r)

/-- COMMAND_TAKE (12 R435, R438, R441, R447): the entry read from host memory, or a failed read. A ring whose command
cannot start is passed over, and the pointer moves past the winner only. A round in which every ring has been passed over
ends, and a complete command ends one too, since another may start then. -/
def execCommandTake (entry : Option (List Byte)) (s : State) : Host.Outcome State Fault Refusal :=
  let g := s.getF Reg.glbState_state
  let busy := s.started.filter (fun x => x.done == none)
  if g = gsBooting ∨ g = gsWedged ∨ flightMax ≤ busy.length then next s
  else
    match s.ringTurn with
    | none => next { s with skipped := [] }
    | some r =>
      match entry with
      | none =>
        next (((s.setF (Reg.cmpRingStatus_state r) rgError).setF (Reg.cmpRingStatus_fetch_err r) 1).emit (.msix 0))
      | some c =>
        if !s.mayStart r c then next { s with skipped := s.skipped ++ [r] }
        else
          let s := { s with arbPtr := (r + 1) % 64, skipped := [] }
          let h := (s.getF (Reg.cmpRingStatus_sq_head r) + 1) % s.ringSize r
          let s := s.setF (Reg.cmpRingStatus_sq_head r) h
          next { s with started := s.started ++ [⟨r, c, h, none, (s.precheck c).map (fun st => (st, 0))⟩] }

/-- Runs the k-th started command if it is of an opcode and not complete. -/
def State.command (s : State) (k op : Nat) (f : State → Started → State) : State :=
  match s.started[k]? with
  | none => s
  | some c =>
    if c.done = none ∧ cmdOp c.cmd = op then
      match s.lookUp hostSite (2 ^ 16 * c.ring + c.head) hostEngine (fun s => some (f s c, ())) with
      | .waits s' => s'
      | .done s' _ => s'
    else s

/-- Completes a command. -/
def State.done (s : State) (c : Started) (st res : Nat) : State := s.endCommand c.ring c.head st res

/-- Notes the cores a command has begun to act on. -/
def State.begin_ (s : State) (c : Started) (cores : List Nat) : State :=
  { s with started := s.started.map (fun x =>
      if x.ring = c.ring ∧ x.head = c.head ∧ x.done = none then { x with work := some cores } else x) }

/-! ## Completions (12 R436, R443) -/

/-- The 16 bytes of a completion. -/
def completion (c : Started) (st res : Nat) (phase : Bool) : List Byte :=
  slice c.cmd 2 2 ++ [BitVec.ofNat 8 st, BitVec.ofNat 8 (b2n phase)] ++ toLE 2 c.head ++ [0, 0] ++
    toLE 8 (if hardSt st then 0 else res)

/-- Takes the first command of a ring out of the list. -/
def dropStarted (r : Nat) : List Started → List Started
  | [] => []
  | c :: cs => if c.ring = r then cs else c :: dropStarted r cs

/-- The first command of a ring, once complete. -/
def State.oldestDone (s : State) (r : Nat) : Option (Started × Nat × Nat) :=
  (s.started.find? (fun c => c.ring == r)).bind (fun c => c.done.map (fun d => (c, d)))

/-- COMPLETION_POST. -/
def execCompletionPost (r : Ring64) (s : State) : Host.Outcome State Fault Refusal :=
  if s.wedged then next s
  else
    match s.oldestDone r with
    | none => next s
    | some (c, st, res) =>
      let x := s.ring r
      if x.muted then next { s with started := dropStarted r s.started }
      else if s.cqFull r then next (s.showFull r)
      else
        let t := s.getF (Reg.cmpRingIdx_cq_tail r)
        let t' := (t + 1) % s.ringSize r
        let s := { s with started := dropStarted r s.started }
        let s := s.emit (.hostWrite (s.getF (Reg.cmpCqBase_base r) * 4096 + 16 * t) (clean (completion c st res x.phase)))
        let s := (s.setF (Reg.cmpRingIdx_cq_tail r) t').setRing r { x with phase := if t' = 0 then !x.phase else x.phase }
        let s := s.showFull r
        next (if cmdIrq c.cmd then s.emit (.msix (1 + r)) else s)

/-- RING_DRAINED (12 R440). -/
def execRingDrained (r : Ring64) (s : State) : Host.Outcome State Fault Refusal :=
  if s.ringState r = rgDraining ∧ !s.started.any (fun c => c.ring == r.val) then
    next (s.setF (Reg.cmpRingStatus_state r) rgDisabled)
  else next s

/-- RING_ENABLE_WRITE (12 R440, R441, R474). -/
def execRingEnableWrite (event : Bool) (r : Ring64) (b : Bool) (s : State) : Host.Outcome State Fault Refusal :=
  if event then
    if b then next (s.enableEq r)
    else if !s.eqOn r || s.eqNamed r then next s
    else next (s.disableEq r)
  else if b then next (s.enableRing r)
  else next (s.drainRing r)

/-! ## Events (12 R468 to R470) -/

/-- The 32 bytes of an event. -/
def eventBytes (e : Event) (phase : Bool) (tick : Nat) : List Byte :=
  toLE 1 e.kind ++ toLE 1 (b2n phase) ++ toLE 2 e.site ++ toLE 4 e.handle ++ toLE 1 e.status ++ toLE 1 e.engine ++
    toLE 2 e.itag ++ toLE 4 e.value ++ toLE 8 e.addr ++ toLE 8 tick

/-- Is an event ring full? -/
def State.eqFull (s : State) (e : Nat) : Bool :=
  (s.getF (Reg.cmpEqStatus_tail e) + 1) % s.eqSize e == (s.evRing e).head

/-- Writes an event at the tail of its ring and raises the ring's vector. -/
def State.postEvent (s : State) (v : Event) : State :=
  let e := v.eq
  let x := s.evRing e
  let t := s.getF (Reg.cmpEqStatus_tail e)
  let t' := (t + 1) % s.eqSize e
  let s := s.emit (.hostWrite (s.getF (Reg.cmpEqBase_base e) * 4096 + 32 * t) (clean (eventBytes v x.phase s.now)))
  ((s.setEvRing e { x with phase := if t' = 0 then !x.phase else x.phase }).setF (Reg.cmpEqStatus_tail e) t').emit
    (.msix (65 + e))

/-- Events a ring holds at most (12 R470). -/
def heldMax : Nat := 256

/-- OVERFLOW of an event ring: how many events it dropped. -/
def overflowEvent (e n : Nat) : Event :=
  { eq := e, kind := 7, site := 0xFFFF, handle := 0, status := 0, engine := 0, itag := 0, value := n, addr := 0 }

/-- A ring with space that holds events, or has dropped some since its last OVERFLOW. -/
def State.owes (s : State) (e : Nat) : Bool :=
  let x := s.evRing e
  s.eqOn e && !s.eqFull e && (!x.held.isEmpty || x.overflow != 0)

/-- Posts what a ring owes: the oldest held event, or OVERFLOW with vector 0 (12 R425, R470). -/
def State.postOwed (s : State) (e : Nat) : State :=
  let x := s.evRing e
  match x.held with
  | v :: rest => ((s.setEvRing e { x with held := rest }).postEvent v).showHeld e
  | [] => ((s.setEvRing e { x with overflow := 0 }).postEvent (overflowEvent e x.overflow)).emit (.msix 0)

/-- Drops an event and counts it. -/
def State.dropEvent (s : State) (e : Nat) (full : Bool) : State :=
  let x := s.evRing e
  (if full then s.setEvRing e { x with overflow := x.overflow + 1 } else s).incSat (Reg.cmpEqDrop_dropped e) 1

/-- EVENT_POST: a ring with space first posts what it owes; else the next event is posted, held, or dropped. -/
def execEventPost (s : State) : Host.Outcome State Fault Refusal :=
  if s.wedged then next s
  else
    match (List.range 64).find? s.owes with
    | some e => next (s.postOwed e)
    | none =>
      match s.events with
      | [] => next s
      | v :: rest =>
        let s := { s with events := rest }
        let x := s.evRing v.eq
        if !s.eqOn v.eq then next (s.dropEvent v.eq false)
        else if !s.eqFull v.eq then next (s.postEvent v)
        else if x.held.length < heldMax then
          next ((s.setEvRing v.eq { x with held := x.held ++ [v] }).showHeld v.eq)
        else next (s.dropEvent v.eq true)

/-- Takes the first event of a ring out of the list. -/
def dropFirstEvent (e : Nat) : List Event → List Event
  | [] => []
  | v :: vs => if v.eq = e then vs else v :: dropFirstEvent e vs

/-- Has an event ring an entry to write? -/
def State.eqPosting (s : State) (e : Nat) : Bool :=
  s.owes e || (s.eqOn e && !s.eqFull e && s.events.any (fun v => v.eq == e))

/-- COMPLETION_WRITE_FAIL (16 R582): the write of the entry that is next to be posted fails; vector 0 carries ring
errors (12 R425). -/
def execCompletionWriteFail (event : Bool) (r : Ring64) (s : State) : Host.Outcome State Fault Refusal :=
  let note := fun (s : State) => (s.record (mkRecord s 3 11 0xFFFF stHostFault 20 r 0)).emit (.msix 0)
  if s.wedged then next s
  else if event then
    if !s.eqPosting r then next s
    else
      let x := s.evRing r
      let s := if x.held.isEmpty && x.overflow == 0 then { s with events := dropFirstEvent r s.events } else s
      let s := if x.held.isEmpty then s.incSat (Reg.cmpEqDrop_dropped r) 1 else s
      next (note (s.disableEq r))
  else
    match s.oldestDone r with
    | none => next s
    | some _ =>
      if (s.ring r).muted || s.cqFull r then next s
      else
        let s := { s with started := dropStarted r s.started }
        next (note ((s.setRing r { s.ring r with muted := true }).setF (Reg.cmpRingStatus_state r) rgError))

end Sys2Proof.Machine
end

