-- ==== Sys2Proof/Machine/Channels.lean ====
section
/-!
DEFINITION. The command processor's commands on rings, channels, windows and streams (12 R445 to R457, R471).
-/
namespace Sys2Proof.Machine

/-! ## NOP, IDENTIFY, rings -/

/-- CMD_NOP of the command processor. -/
def execCmdNop (k : Nat) (s : State) : Host.Outcome State Fault Refusal :=
  next (s.command k 0x00 (fun s c => s.done c stOk 0))

/-- UNDEFINED_COMMAND (00 R20). -/
def execUndefinedCommand (k : Nat) (s : State) : Host.Outcome State Fault Refusal :=
  match s.started[k]? with
  | none => next s
  | some c => if c.done = none ∧ cmdForm (cmdOp c.cmd) = none then next (s.done c stBadOpcode 0) else next s

/-- A bitmap of 288 bytes: bit i is package site i. -/
def bitmap (p : Nat → Bool) : List Byte :=
  (List.range 288).map (fun j => BitVec.ofNat 8 ((List.range 8).foldl (fun n b => n + b2n (p (8 * j + b)) * 2 ^ b) 0))

/-- Is the core of a site ENABLED: by its site, and still in the yield map (15 R551, R553)? -/
def State.enabled (s : State) (i : Nat) : Bool := s.coreOn i && yCore (s.yieldOf i) == 0

/-- The identity block (12 R447); usable memory is 512 MiB for each vault in service (15 R552). -/
def State.identity (s : State) : List Byte :=
  toLE 8 s.chip.serial.toNat ++ [if s.chip.w2 then 2 else 1] ++ toLE 1 (s.getF Reg.glbState_state) ++ [0, 0] ++
    toLE 4 (s.nodeOf 0) ++ toLE 8 ((s.boot.manifest.map Manifest.version).getD 0) ++ toLE 8 s.features ++ toLE 8 (s.vaultsUp * vaultSize) ++
    List.replicate 24 0 ++ bitmap s.enabled ++ bitmap (fun i => yVault (s.yieldOf i) == 0) ++ List.replicate 3456 0

/-- IDENTIFY; its write of host memory fails where the link is down (12 R446, log entry 13). -/
def execIdentify (k : Nat) (s : State) : Host.Outcome State Fault Refusal :=
  next (s.command k 0x01 (fun s c =>
    let a := fieldLE c.cmd 8 8
    if a % 4096 != 0 then s.done c stBadParam 0
    else if !s.on Reg.hifLink_up then (s.hostRecord stHostFault).done c stHostFault 0
    else (s.emit (.hostWrite a (clean s.identity))).done c stOk 4096))

/-- Is k a ring's log2_entries? -/
def kOk (k : Nat) : Bool := decide (4 ≤ k) && decide (k ≤ 16)

/-- RING_CREATE (12 R433): a ring that is not DISABLED is refused with BAD_PARAM. -/
def execRingCreate (k : Nat) (s : State) : Host.Outcome State Fault Refusal :=
  next (s.command k 0x02 (fun s c =>
    let r := fieldLE c.cmd 8 1
    let n := fieldLE c.cmd 9 1
    let sq := fieldLE c.cmd 16 8
    let cq := fieldLE c.cmd 24 8
    if r = 0 || decide (64 ≤ r) || !kOk n || sq % 4096 != 0 || cq % 4096 != 0 || s.ringState r != rgDisabled then
      s.done c stBadParam 0
    else
      let s := (s.setF (Reg.cmpSqBase_base r) (sq / 4096)).setF (Reg.cmpCqBase_base r) (cq / 4096)
      ((s.setF (Reg.cmpRingCfg_log2_entries r) n).enableRing r).done c stOk 0))

/-- RING_DESTROY (12 R440, R441): a ring that takes no commands already is refused with BAD_PARAM. -/
def execRingDestroy (k : Nat) (s : State) : Host.Outcome State Fault Refusal :=
  next (s.command k 0x03 (fun s c =>
    let r := fieldLE c.cmd 8 1
    if r = 0 || decide (64 ≤ r) || r == c.ring || s.ringState r == rgDisabled || s.ringState r == rgDraining then
      s.done c stBadParam 0
    else (s.drainRing r).done c stOk 0))

/-- EQ_CREATE (12 R468): an event ring that is enabled is refused with BAD_PARAM. -/
def execEqCreate (k : Nat) (s : State) : Host.Outcome State Fault Refusal :=
  next (s.command k 0x04 (fun s c =>
    let e := fieldLE c.cmd 8 1
    let n := fieldLE c.cmd 9 1
    let a := fieldLE c.cmd 16 8
    if 64 ≤ e || !kOk n || a % 4096 != 0 || s.eqOn e then s.done c stBadParam 0
    else
      let s := (s.setF (Reg.cmpEqBase_base e) (a / 4096)).setF (Reg.cmpEqCfg_log2_entries e) n
      (s.enableEq e).done c stOk 0))

/-- EQ_DESTROY (12 R471). -/
def execEqDestroy (k : Nat) (s : State) : Host.Outcome State Fault Refusal :=
  next (s.command k 0x05 (fun s c =>
    let e := fieldLE c.cmd 8 1
    if 64 ≤ e || !s.eqOn e || s.eqNamed e then s.done c stBadParam 0 else (s.disableEq e).done c stOk 0))

/-! ## Core lists -/

/-- A list of 16-bit site indices read from host memory (12 R450). A failed read gives HOST_FAULT and a poisoned one
POISONED; neither has a side effect. -/
def siteList (n : Nat) (r : HostRead) : Except Nat (List Nat) :=
  if n = 0 then .ok []
  else
    match r with
    | none => .error stHostFault
    | some bs =>
      if bs.length < 2 * n then .error stHostFault
      else if anyPoison (bs.take (2 * n)) then .error stPoisoned
      else .ok ((List.range n).map (fun j => leP (slice bs (2 * j) 2)))

/-- Has a list no repeats? -/
def distinct (xs : List Nat) : Bool := xs.eraseDups.length == xs.length

/-! ## Channels -/

/-- The lowest free channel index from k on. -/
def State.freeIndex (s : State) : Nat → Nat → Option Nat
  | 0, _ => none
  | n + 1, k => if (s.chan k).st = .free then some k else s.freeIndex n (k + 1)

/-- Channel indices (12 R448). -/
def chanMax : Nat := 16384

/-- The status of CHAN_CREATE's checks (12 R445, R447, R450), or OK. -/
def State.createCheck (s : State) (c : List Byte) (sites : List Nat) : Nat :=
  let eq := fieldLE c 10 1
  if sites.any s.inReset then stNodeResetting
  else if sites.any (fun i => decide (siteCount ≤ i)) || !distinct sites then stBadParam
  else if sites.any (fun i => !s.enabled i) then stEngineAbsent
  else if sites.any (fun i => (chanOfSite s.chans i).isSome) then stNoResource
  else if fieldLE c 9 1 != 0 && !s.licensed licDomain then stLicenceAbsent
  else if !s.eqOn eq then stBadParam
  else if (s.freeIndex chanMax 0).isNone then stNoResource
  else stOk

/-- Are the parameters of CHAN_CREATE in their ranges? -/
def createOk (c : List Byte) : Bool :=
  let fb := fieldLE c 11 1
  decide (fieldLE c 8 1 ≤ 1) && decide (fieldLE c 10 1 < 64) && (decide (fb ≤ 32) || fb == 255) &&
  decide (fieldLE c 24 4 ≤ 2048)

/-- Takes the lowest free index for a channel (12 R448, R451 step 3). -/
def State.newChannel (s : State) (c : List Byte) (sites : List Nat) : State :=
  match s.freeIndex chanMax 0 with
  | none => s
  | some k =>
    let g := (s.chan k).gen
    s.setChan k { gen := if g = 255 then 1 else g + 1, st := .live, bestEffort := fieldLE c 8 1 == 1
                  domain := fieldLE c 9 1, eq := fieldLE c 10 1, cores := sites, windows := [] }

/-- Holds the vaults of some sites (06 R213, 12 R451 step 1). -/
def State.holdVaults (s : State) (sites : List Nat) : State :=
  sites.foldl (fun s i => s.setF (Reg.vltCtrl_hold i) 1) s

/-- Writes the map of some held vaults and releases them (06 R212, R213, 12 R451 step 1). -/
def State.mapVaults (s : State) (fb : Nat) (sites : List Nat) : State :=
  sites.foldl (fun s i =>
    let s := (s.setF (Reg.vltMap_frame_base i) fb).setF (Reg.vltCtrl_hold i) 0
    (s.setF (Reg.vltStatus_held i) 0).openPort i) s

/-- Goes on with a CHAN_CREATE that has its channel: once every vault it holds is quiet, the maps are written, the
queues open, and it completes with the handle (12 R451). -/
def State.createOn (s : State) (c : Started) (sites : List Nat) (ch : Nat) : State :=
  let fb := fieldLE c.cmd 11 1
  if fb != 255 && !sites.all s.vaultQuiet then s
  else
    let s := if fb = 255 then s else s.mapVaults fb sites
    let s := sites.foldl (fun s i => (s.setF (Reg.sqCtrl_cut i) (fieldLE c.cmd 12 1)).openQueue i) s
    s.done c stOk (s.handle ch)

/-- CHAN_CREATE (12 R448, R450, R451). In grade-fault it ends GRADE_FAULT whatever its fields and list are (00 R4, 12 R447),
and otherwise BAD_PARAM, what the list's read gives, and the checks of R450 come in this order (DESIGN CHOICE, log entry
43). -/
def execChanCreate (k : Nat) (list : HostRead) (s : State) : Host.Outcome State Fault Refusal :=
  next (s.command k 0x10 (fun s c =>
    match c.work with
    | some sites =>
      match sites.findSome? (fun i => chanOfSite s.chans i) with
      | some ch => s.createOn c sites ch
      | none => s.done c stNodeResetting 0
    | none =>
      if s.gradeRefuses then s.done c stGradeFault 0
      else if !createOk c.cmd then s.done c stBadParam 0
      else
        let n := fieldLE c.cmd 24 4
        let r := if n = 0 then (s, list) else s.hostRead list
        match siteList n r.2 with
        | .error e => r.1.done c e 0
        | .ok sites =>
          let st := r.1.createCheck c.cmd sites
          if st != stOk then r.1.done c st 0
          else
            let ch := (r.1.freeIndex chanMax 0).getD 0
            let s := (r.1.newChannel c.cmd sites).begin_ c sites
            (if fieldLE c.cmd 11 1 = 255 then s else s.holdVaults sites).createOn c sites ch))

/-- Stops a RUNNING or BREAK core as ABORT does (12 R456): it issues nothing more and drains to IDLE. -/
def State.abortCore (s : State) (i : Nat) : State :=
  if s.coreState i = csRunning ∨ s.coreState i = csBreak then
    (((s.withdraw i).endStep i).setF (Reg.coreStatus_state i) csDraining).wake i
  else s

/-- A FAULTED core of a channel that is being destroyed becomes IDLE once nothing it issued is outstanding
(12 R452 step 1). -/
def State.settleFaulted (s : State) (i : Nat) : State :=
  if s.coreState i = csFaulted ∧ !s.engBusy i 255 then s.setF (Reg.coreStatus_state i) csIdle else s

/-- Steps 2 to 5 of CHAN_DESTROY (12 R452). A queue that is LOST is empty and CLOSED again (09 R341). -/
def State.freeChannel (s : State) (ch : Nat) : State :=
  let x := s.chan ch
  let h := s.handle ch
  let s := x.cores.foldl (fun s i =>
    let s := (s.dropWatches i).closeQueue i
    s.setF (Reg.sqStatus_state i) sqClosed) s
  let s := s.setChan ch { Channel.free with gen := x.gen }
  let s := { s with
    events := s.events.filter (fun v => v.handle != h)
    evRings := SMap.mapVal (fun _ (r : EvRing) => { r with held := r.held.filter (fun v => v.handle != h) }) s.evRings }
  s.showHeld x.eq

/-- CHAN_DESTROY (12 R452): it waits until every core of the channel is IDLE. -/
def execChanDestroy (k : Nat) (s : State) : Host.Outcome State Fault Refusal :=
  next (s.command k 0x11 (fun s c =>
    let ch := cmdHandle c.cmd % 2 ^ 24
    let cores := (s.chan ch).cores
    let s := if c.work.isSome then s
      else
        let s := s.setChan ch { s.chan ch with st := .destroying }
        (cores.foldl (fun s i => s.abortCore i) s).begin_ c cores
    let s := cores.foldl (fun s i => s.settleFaulted i) s
    if cores.all (fun i => s.coreState i == csIdle || !s.coreOn i) then ((s.freeChannel ch).runQueues).done c stOk 0
    else s))

/-! ## Windows -/

/-- The checks of R44 that need no list. -/
def descOk (d : Nat) : Bool :=
  let size := bits d 47 16 * 4096
  let base := bits d 127 64
  let list := bits d 191 128
  let il := bits d 8 2 % 64
  let rest := bits d 15 9 == 0 && bits d 63 48 == 0 && bits d 255 192 == 0 && decide (1 ≤ bits d 47 16) &&
    decide (bits d 47 16 ≤ 0x10000000)
  match bits d 1 0 with
  | 0 => true
  | 1 => rest && il == 0 && list == 0 && skyOk base && decide (bits base 31 0 + size ≤ vaultSize)
  | 2 =>
    let gl := 12 + 2 * bits d 3 2
    let n := bits d 7 4
    rest && bits d 3 2 != 3 && decide (1 ≤ n) && decide (n ≤ 12) && size % 2 ^ (n + gl) == 0 && decide (base < 2 ^ 29) &&
      decide (base + size / 2 ^ n ≤ vaultSize) && list % 64 == 0 && skyOk list &&
      decide (bits list 31 0 + 4 * 2 ^ n ≤ vaultSize)
  | _ => rest && il == 0 && list == 0 && skyOk base && base % 2 ^ 15 == 0

/-- WINDOW_SET (01 R44, R47, 12 R454). The vault list is read clean, or the window is refused. -/
def execWindowSet (k : Nat) (s : State) : Host.Outcome State Fault Refusal :=
  next (s.command k 0x13 (fun s c =>
    let d := fieldLE c.cmd 32 32
    let ch := cmdHandle c.cmd % 2 ^ 24
    let w := fieldLE c.cmd 8 1
    let put := fun (s : State) (x : Window) =>
      (s.setChan ch { s.chan ch with
        windows := SMap.put (fun _ => Window.none) w x (s.chan ch).windows }).done c stOk 0
    if !descOk d then s.done c stBadParam 0
    else if bits d 1 0 = 0 then put s Window.none
    else if bits d 1 0 = 2 then
      let n := 2 ^ bits d 7 4
      let r := s.skyRead hostSite (bits d 191 128) (4 * n) true
      if !r.ready then s
      else
        let ids := (List.range n).map (fun j => leP (slice r.data (4 * j) 4))
        if r.st != stOk || anyPoison r.data || !distinct ids || !ids.all (fun v => skyOk (v * 2 ^ 32)) then
          r.s.done c stBadParam 0
        else put r.s ⟨BitVec.ofNat 256 d, ids⟩
    else put s ⟨BitVec.ofNat 256 d, []⟩))

/-! ## Streams -/

/-- The cores a stream command names: the listed ones, or every core of the channel when the count is 0; one outside the
channel, or named twice, gives BAD_PARAM (12 R455). -/
def State.namedCores (s : State) (c : List Byte) (list : HostRead) : State × Except Nat (List Nat) :=
  let n := fieldLE c 32 4
  let cores := (s.chan (cmdHandle c % 2 ^ 24)).cores
  if n = 0 then (s, .ok cores)
  else if siteCount < n then (s, .error stBadParam)
  else
    let r := s.hostRead list
    match siteList n r.2 with
    | .error e => (r.1, .error e)
    | .ok xs => (r.1, if distinct xs && xs.all cores.contains then .ok xs else .error stBadParam)

/-- Starts a core on a stream (12 R455). -/
def State.launchStream (s : State) (i base len : Nat) : State :=
  ((s.setF (Reg.coreStreamBase_base i) (base / 128)).setF (Reg.coreStreamLen_len i) (len / 16)).startStream i

/-- STREAM_START (02 R60, R61, R90, R92, 12 R455): all of the cores or none. -/
def execStreamStart (k : Nat) (list : HostRead) (s : State) : Host.Outcome State Fault Refusal :=
  next (s.command k 0x18 (fun s c =>
    let resume := bit (fieldLE c.cmd 8 1) 0
    let base := fieldLE c.cmd 12 4
    let len := fieldLE c.cmd 16 4
    if (if resume then base != 0 || len != 0 else !streamOk base len) then s.done c stBadParam 0
    else
      let r := s.namedCores c.cmd list
      match r.2 with
      | .error e => r.1.done c e 0
      | .ok xs =>
        let s := r.1
        if xs.any (fun i => s.getF (Reg.ptmTState_level (towerOf i)) == 3) then s.done c stThermalRefused 0
        else if !xs.all (fun i => s.coreState i == (if resume then csBreak else csIdle)) then s.done c stCoreNotIdle 0
        else
          (xs.foldl (fun s i => if resume then s.resumeCore i else s.launchStream i base len) s).done c stOk xs.length))

/-- STREAM_STOP (12 R456): PAUSE stops at once; ABORT waits until the cores it stopped have drained. -/
def execStreamStop (k : Nat) (list : HostRead) (s : State) : Host.Outcome State Fault Refusal :=
  next (s.command k 0x19 (fun s c =>
    let mode := fieldLE c.cmd 8 1
    let finish := fun (s : State) (xs : List Nat) =>
      if xs.any (fun i => s.coreState i == csDraining) then s else s.done c stOk xs.length
    match c.work with
    | some xs => finish s xs
    | none =>
      if 1 < mode then s.done c stBadParam 0
      else
        let r := s.namedCores c.cmd list
        match r.2 with
        | .error e => r.1.done c e 0
        | .ok xs =>
          let s := r.1
          if mode = 0 then
            let hit := xs.filter (fun i => s.coreState i == csRunning && (s.core i).hold != .end_)
            (hit.foldl (fun s i => s.pauseCore i) s).done c stOk hit.length
          else
            let hit := xs.filter (fun i => s.coreState i == csRunning || s.coreState i == csBreak)
            finish ((hit.foldl (fun s i => s.abortCore i) s).begin_ c hit) hit))

end Sys2Proof.Machine
end

