-- ==== Sys2Proof/Machine/HostData.lean ====
section
/-!
DEFINITION. The command processor's commands on data: LOAD, STORE and FLAG_WRITE (12 R458 to R461), SEQ_FORK and
SEQ_RELEASE (R462 to R465).
-/
namespace Sys2Proof.Machine

/-! ## LOAD, STORE, FLAG_WRITE -/

/-- The device range a command names: a sky address, or a sky-virtual one of its channel (12 R458). -/
def State.hostRange (s : State) (c : List Byte) (virt : Bool) (a n : Nat) (write : Bool) : Xlat :=
  if virt then
    if cmdHandle c = 0 then .fail s stBadHandle
    else s.virtRange ioDie 0xFFFF (some (cmdHandle c % 2 ^ 24)) a n write
  else s.skyRange ioDie a n stBadParam write 0

/-- The pieces of host memory in a list, in order until a length is covered (12 R459): none when the list read brings
too little. -/
def sglPieces : Nat → List PByte → Nat → Option (List (Nat × Nat))
  | 0, _, n => if n = 0 then some [] else none
  | k + 1, bs, n =>
    if n = 0 then some []
    else if bs.length < 16 then none
    else
      let m := leP (slice bs 8 8)
      (sglPieces k (bs.drop 16) (n - m)).map (fun xs => (leP (bs.take 8), m) :: xs)

/-- The pieces of host memory of a LOAD or STORE (12 R458, R459). -/
def hostPieces (c : List Byte) (sgl : HostRead) : Except Nat (List (Nat × Nat)) :=
  let n := fieldLE c 12 4
  if !bit (fieldLE c 8 1) 1 then .ok [(fieldLE c 16 8, n)]
  else
    match sgl with
    | none => .error stHostFault
    | some bs =>
      match sglPieces (bs.length / 16) bs n with
      | none => .error stHostFault
      | some xs =>
        if anyPoison (bs.take (16 * xs.length)) then .error stPoisoned
        else if (xs.map Prod.snd).sum != n then .error stBadParam
        else .ok xs

/-- A job of the host link for a command. -/
def hostJob (id : Nat) (c : Started) (e : HostEnd) : Job :=
  { Job.start id hostSite hostEngine (cmdOp c.cmd) 0 with fin := .command c.ring c.head e }

/-- Ends a command now, or once the packets it has sent are answered. -/
def State.hostEnd (s : State) (c : Started) (id : Nat) (e : HostEnd) (st sent : Nat) (data : SMap (List PByte)) : State :=
  if sent = 0 then s.endHost c.ring c.head e st (data.flatMap Prod.snd)
  else s.addJob { hostJob id c e with status := st, left := sent, buf := data }

/-- Pieces cut to the first n bytes of their transfer. -/
def cutPieces (n : Nat) (ps : List Piece) : List Piece :=
  (ps.map (fun p => { p with len := Nat.min p.len (n - p.pos) })).filter (fun p => p.len != 0)

/-- LOAD (12 R458 to R461): `data` is what the host reads bring, shorter than the length where one fails. -/
def execLoad (k : Nat) (sgl data : HostRead) (s : State) : Host.Outcome State Fault Refusal :=
  next (s.command k 0x20 (fun s c =>
    let n := fieldLE c.cmd 12 4
    let x := s.hostRange c.cmd (bit (fieldLE c.cmd 8 1) 0) (fieldLE c.cmd 24 8) n true
    match hostPieces c.cmd sgl with
    | .error e => s.done c e 0
    | .ok _ =>
      if n = 0 then s.done c stBadParam 0
      else if x.st != stOk then x.s.done c x.st 0
      else if !x.ready then s
      else
        let r := x.s.hostRead data
        let bytes := (r.2.getD []).take n
        let ps := cutPieces bytes.length x.pieces
        let s := if anyPoison bytes then r.1.hostRecord stPoisoned else r.1
        let id := s.newJob
        let w := s.writePieces hostSite ps bytes false
        let q := w.1.sendWrites hostSite hostEngine id hostPkt (fieldLE c.cmd 24 8) false bytes ps
        let st := worse w.2.1 (if anyPoison bytes then stPoisoned else stOk)
        q.1.hostEnd c id (.load n (firstPoison bytes) (bytes.length != n)) st q.2 []))

/-- STORE (12 R458 to R460): `writeOk` says whether the writes of host memory arrive. -/
def execStore (k : Nat) (sgl : HostRead) (writeOk : Bool) (s : State) : Host.Outcome State Fault Refusal :=
  next (s.command k 0x21 (fun s c =>
    let n := fieldLE c.cmd 12 4
    let x := s.hostRange c.cmd (bit (fieldLE c.cmd 8 1) 0) (fieldLE c.cmd 24 8) n false
    match hostPieces c.cmd sgl with
    | .error e => s.done c e 0
    | .ok xs =>
      if n = 0 then s.done c stBadParam 0
      else if x.st != stOk then x.s.done c x.st 0
      else if !x.ready then s
      else
        let id := x.s.newJob
        let r := x.s.readPieces hostSite x.pieces false
        let q := r.1.sendReads hostSite hostEngine id hostPkt false .buf x.pieces
        q.1.hostEnd c id (.store xs writeOk) r.2.2 q.2 (r.2.1.foldl (fun m p => SMap.insert p.1 p.2 m) [])))

/-- FLAG_WRITE (02 R87, R99, 12 R458, R461). -/
def execFlagWrite (k : Nat) (s : State) : Host.Outcome State Fault Refusal :=
  next (s.command k 0x23 (fun s c =>
    let add := bit (fieldLE c.cmd 8 1) 0
    let a := fieldLE c.cmd 16 8
    let v := clean (toLE 8 (fieldLE c.cmd 24 8))
    let x := s.hostRange c.cmd (bit (fieldLE c.cmd 8 1) 1) a 8 true
    if a % 8 != 0 then s.done c stBadParam 0
    else if x.st != stOk then x.s.done c x.st 0
    else if !x.ready then s
    else
      let id := x.s.newJob
      match x.pieces with
      | ⟨.vault vt off, _, _⟩ :: _ =>
        if add then
          if !x.s.readReady vt off 8 then s
          else
            let r := x.s.atomicAs hostSite vt off 0 true v []
            r.1.hostEnd c id (.flag true) r.2.2 0 [(0, r.2.1)]
        else
          let r := x.s.writeAs hostSite vt off v true
          r.1.hostEnd c id (.flag false) r.2 0 []
      | ⟨.remote vid off, _, _⟩ :: _ =>
        let s := x.s.request hostSite hostEngine id (if add then .buf 0 else .none) { Packet.blank with
          op := if add then 2 else 1, aop := if add then 16 else 0, length := 8, narrow := true
          dst := vid * 2 ^ 32 + off, payload := v }
        s.hostEnd c id (.flag add) stOk 1 []
      | [] => s))

/-! ## Sequences -/

/-- A page-layer of a region: its page, its second-level entry's sky address and value. -/
structure SeqEnt where
  page : Nat
  layer : Nat
  at_ : Nat
  e2 : Nat
  deriving DecidableEq, Repr

/-- The walks of a region's page-layers: the state after them, their status, and whether all could be made now. -/
structure SeqWalk where
  s : State
  st : Nat
  ents : List SeqEnt
  ready : Bool
  deriving DecidableEq, Repr

/-- Walks the page-layers of some pages of a region of S layer-streams (08 R282, R284 to R287). -/
def State.seqWalk (s : State) (w : Window) (streams first pages : Nat) : SeqWalk :=
  if pages != 0 && (decide (2 ^ 23 < (first + pages) * streams) ||
      decide (winSize w < (first + pages) * streams * 2 ^ 17)) then ⟨s, stTranslation, [], true⟩
  else
    (List.range (pages * streams)).foldl (fun q j =>
      if q.st != stOk then q
      else
        let x := q.s.walk ioDie 0xFFFF w ((first * streams + j) * 2 ^ 17)
        let r := q.ready && x.ready
        if !x.ok || !pteRsvOk x.e2 || (pteValid x.e2 && !skyOk (pteFrame x.e2)) then ⟨x.s, stTranslation, q.ents, r⟩
        else ⟨x.s, stOk, q.ents ++ [⟨first + j / streams, j % streams, x.at_, x.e2⟩], r⟩) ⟨s, stOk, [], true⟩

/-- Is a page-layer valid and private? -/
def SeqEnt.priv (e : SeqEnt) : Bool := pteValid e.e2 && !pteShared e.e2
/-- Is it valid and shared? -/
def SeqEnt.shared (e : SeqEnt) : Bool := pteValid e.e2 && pteShared e.e2

/-- The first FREE way of the directory from e on (12 R462, 16 R581). -/
def Prefix.freeFrom (p : Prefix) : Nat → Nat → Option Nat
  | 0, _ => none
  | n + 1, e => if peState (p.entry e) == 0 && !p.dead.contains e then some e else p.freeFrom n (e + 1)

/-- The FREE ways that some fork entries take, in order (12 R462). -/
def Prefix.forkWays (p : Prefix) : Nat → Nat → Option (List Nat)
  | 0, _ => some []
  | n + 1, e =>
    match p.freeFrom (pfxWays - e) e with
    | none => none
    | some k => (p.forkWays n (k + 1)).map (fun ks => k :: ks)

/-- The references a directory entry gains from shared entries (12 R462). -/
def gains (ents : List SeqEnt) (e : Nat) : Nat := (ents.filter (fun x => x.shared && pteEntry x.e2 == e)).length

/-- Bytes of a fork's descriptor in its area (12 R462). -/
def forkSize (streams : Nat) : Nat := (descSize streams + 63) / 64 * 64

/-- The descriptor of a fork entry (08 R317, 12 R462): token IDs 0; its tag and key, and the frame words of page-layers
that are not private, are not stated: free values. -/
def State.forkDesc (s : State) (streams : Nat) (ents : List SeqEnt) : State × List PByte :=
  let f := s.freeBytes (24 + 8 * streams)
  let words := (List.range streams).flatMap (fun j =>
    match ents.find? (fun e => e.layer == j && e.priv) with
    | some e => clean (toLE 8 (pteFrame e.e2))
    | none => slice f.2 (24 + 8 * j) 8)
  (f.1, f.2.take 8 ++ clean (toLE 8 (streams % 256)) ++ slice f.2 8 16 ++ clean (List.replicate (32 + 1024) 0) ++ words)

/-- Shares the page-layers of one page: a new fork entry for the private ones, a reference for each shared one
(12 R462). -/
def SkyWrite.forkPage (x : SkyWrite) (job streams domain desc : Nat) (way : Option Nat) (ents : List SeqEnt) : SkyWrite :=
  let s := ents.foldl (fun s e =>
    if e.shared then
      let k := pteEntry e.e2
      let v := s.pfx.entry k
      { s with pfx := s.pfx.setEntry k (setBits v 215 192 (peRefs v + 1)) }
    else s) x.s
  match way with
  | none => { x with s := s }
  | some k =>
    let d := s.forkDesc streams ents
    let key := (Config.freeWord d.1.fresh).toNat + (Config.freeWord (d.1.fresh + 1)).toNat * 2 ^ 64
    let s := d.1.bump 2
    let n := (ents.filter SeqEnt.priv).length
    let s := { s with pfx := s.pfx.setEntry k (peNew key desc (2 * n) domain false) }
    SkyWrite.and { x with s := s } (fun s => s.skyWrite hostSite job desc d.2 false)

/-- Writes the entries of one page of a fork (12 R462): the destination's are shared copies of the source's, and a
private source entry becomes shared. -/
def SkyWrite.forkEnts (x : SkyWrite) (job : Nat) (way : Option Nat) (src dst : List SeqEnt) : SkyWrite :=
  (src.zip dst).foldl (fun x e =>
    if !pteValid e.1.e2 then x
    else
      let entry := if e.1.shared then pteEntry e.1.e2 else way.getD 0
      let v := clean (toLE 16 (pteValue (pteFrame e.1.e2) (pteFill e.1.e2) true entry))
      let x := x.and (fun s => s.skyWrite hostSite job e.2.at_ v true)
      if e.1.priv then x.and (fun s => s.skyWrite hostSite job e.1.at_ v true) else x) x

/-- The page-layers of a page. -/
def ofPage (ents : List SeqEnt) (p : Nat) : List SeqEnt := ents.filter (fun e => e.page == p)

/-- A fork's turn at the directory (08 R323): at once where no request waits, else at its place in the queue, which it
leaves. -/
def State.forkTurn (s : State) (key : Nat) : Tried Unit :=
  let s := s.pfxTidy
  match s.pfx.queue with
  | [] => .done s ()
  | x :: rest =>
    if x.req = .fork key then .done { s with pfx := { s.pfx with queue := rest } } ()
    else if s.pfx.queue.any (fun y => y.req == .fork key) then .waits s
    else .waits (s.askPfx 4 (.fork key))

/-- SEQ_FORK (12 R462, R463). -/
def execSeqFork (k : Nat) (s : State) : Host.Outcome State Fault Refusal :=
  next (s.command k 0x28 (fun s0 c =>
    match s0.forkTurn (2 ^ 16 * c.ring + c.head) with
    | .waits s => s
    | .done s _ =>
    let ch := cmdHandle c.cmd % 2 ^ 24
    let sw := s.window ch (fieldLE c.cmd 8 1)
    let dw := s.window ch (fieldLE c.cmd 9 1)
    let streams := if fieldLE c.cmd 10 1 = 0 then 256 else fieldLE c.cmd 10 1
    let pages := fieldLE c.cmd 12 4
    let area := fieldLE c.cmd 16 8
    let len := fieldLE c.cmd 24 8
    if winKind sw != 3 || winKind dw != 3 || area % 64 != 0 || !skyOk area ||
        decide (vaultSize < bits area 31 0 + len) then s.done c stBadParam 0
    else
      let a := s.seqWalk sw streams 0 pages
      if a.st != stOk then a.s.done c a.st 0
      else
        let b := a.s.seqWalk dw streams 0 pages
        if b.st != stOk then b.s.done c b.st 0
        else if b.ents.any (fun e => pteValid e.e2) then b.s.done c stBadParam 0
        else if !a.ready || !b.ready then s0
        else
          let forks := (List.range pages).filter (fun p => (ofPage a.ents p).any SeqEnt.priv)
          let shared := ((a.ents.filter SeqEnt.shared).map (fun e => pteEntry e.e2)).eraseDups
          match b.s.pfx.forkWays forks.length 0 with
          | none => b.s.done c stNoResource 0
          | some ways =>
            if decide (len < forks.length * forkSize streams) ||
                shared.any (fun e => decide (refMax < peRefs (b.s.pfx.entry e) + gains a.ents e)) then
              b.s.done c stNoResource 0
            else
              let id := b.s.newJob
              let dom := (s.chan ch).domain
              let x := (List.range pages).foldl (fun (x : SkyWrite × List Nat × Nat) p =>
                let src := ofPage a.ents p
                let isFork := src.any SeqEnt.priv
                let way := if isFork then x.2.1.head? else none
                let desc := area + x.2.2 * forkSize streams
                let y := (x.1.forkPage id streams dom desc way src).forkEnts id way src (ofPage b.ents p)
                if isFork then (y, x.2.1.drop 1, x.2.2 + 1) else (y, x.2.1, x.2.2))
                ((⟨b.s, stOk, 0, true⟩ : SkyWrite), ways, 0)
              if !x.1.ready then s0
              else x.1.s.hostEnd c id (.result pages) x.1.st x.1.sent []))

/-- SEQ_RELEASE (08 R290, R321, 12 R464): the pool is read when a private frame returns to it; a malformed header gives
KV_POOL_BAD. -/
def execSeqRelease (k : Nat) (s : State) : Host.Outcome State Fault Refusal :=
  next (s.command k 0x29 (fun s c =>
    let w := s.window (cmdHandle c.cmd % 2 ^ 24) (fieldLE c.cmd 8 1)
    let streams := if fieldLE c.cmd 10 1 = 0 then 256 else fieldLE c.cmd 10 1
    let pool := fieldLE c.cmd 24 8
    if winKind w != 3 || pool % 64 != 0 || !skyOk pool then s.done c stBadParam 0
    else
      let a := s.seqWalk w streams (fieldLE c.cmd 12 4) (fieldLE c.cmd 16 4)
      if a.st != stOk then a.s.done c a.st 0
      else
        let frames := (a.ents.filter SeqEnt.priv).map (fun e => pteFrame e.e2)
        let shared := (a.ents.filter SeqEnt.shared).map (fun e => pteEntry e.e2)
        let h := if frames.isEmpty then (⟨a.s, [], stOk, true⟩, .ok 0) else a.s.poolCap hostSite pool
        match h.2 with
        | .error e => if !a.ready || !h.1.ready then s else h.1.s.done c e 0
        | .ok cap =>
          let prod := leP (slice h.1.data 0 4)
          let room := cap - (prod + 2 ^ 32 - leP (slice h.1.data 4 4)) % 2 ^ 32
          if !a.ready || !h.1.ready then s
          else if room < frames.length then h.1.s.done c stNoResource 0
          else
            let id := h.1.s.newJob
            let x := (frames.zip (List.range frames.length)).foldl (fun (x : SkyWrite) f =>
              x.and (fun s => s.skyWrite hostSite id (pool + 64 + 8 * ((prod + f.2) % cap)) (clean (toLE 8 f.1)) true))
              ⟨h.1.s, stOk, 0, true⟩
            let x := if frames.isEmpty then x
              else x.and (fun s => s.skyWrite hostSite id pool (clean (toLE 4 ((prod + frames.length) % 2 ^ 32))) true)
            let x := (a.ents.filter (fun e => pteValid e.e2)).foldl (fun (x : SkyWrite) e =>
              x.and (fun s => s.skyWrite hostSite id e.at_ (clean (toLE 16 (setBits e.e2 0 0 0))) true)) x
            if !x.ready then s
            else
              (x.s.releaseAll 4 shared).hostEnd c id (.result (shared.length + frames.length * 2 ^ 32)) x.st x.sent []))

end Sys2Proof.Machine
end

