-- ==== Sys2Proof/Machine/Fabric.lean ====
section
/-!
DEFINITION. What packets of other nodes do at the site they are for (chapter 10): refusal (R385), requests at vaults and
stage queues (R388, R392 to R394), answers (R374, R384, R387), management packets, and what a source does with packets
that are refused, wait or are lost (R372, R382, R384, R387).
-/
namespace Sys2Proof.Machine

/-! ## Arrival -/

/-- The node and tower of a vault ID: a bit of the refusal table (10 R385). -/
def sourceBit (vid : Nat) : Nat := vid / 2 ^ 10

/-- Refuses a REQ or TOK packet from a tower, in the name of its destination (10 R369, R384, R385). -/
def State.refusePkt (s : State) (t : Nat) (k : Packet) (st : Nat) : State :=
  s.sendSpray t (vidNode k.src) (answerOf k 5 st (destVid k) [])

/-- SKY_STATUS.refusals_held shows whether any bit of the table is set (10 R402). -/
def State.setRefusals (s : State) (t : Nat) (xs : List Nat) : State :=
  (s.setTower t { s.tower t with refusals := xs }).setF (Reg.skyStatus_refusals_held t) (b2n (!xs.isEmpty))

/-- A REQ or TOK packet meets the refusals of its tower (10 R385, R402 SKY_INJECT): refused, or served. `gentle` packets
are answered ACCEPTED with a status during the reset. -/
def State.admission (s : State) (k : Packet) (q : Nat) (gentle : Option Nat) (f : State → State) : State :=
  let t := towerOf q
  let b := sourceBit k.src
  let xs := (s.tower t).refusals
  if s.on (Reg.skyStatus_resetting t) then
    match gentle with
    | some st => s.answer q k 7 st []
    | none => (s.setRefusals t (if xs.contains b then xs else xs ++ [b])).refusePkt t k stNodeResetting
  else if xs.contains b && !k.resync then s.refusePkt t k stNodeResetting
  else if s.on (Reg.skyInject_refuse t) && k.cls == clsReq then
    (s.setF (Reg.skyInject_refuse t) 0).refusePkt t k stNodeResetting
  else f (if k.resync then s.setRefusals t (xs.filter (fun y => y != b)) else s)

/-- The offset in a vault that a packet names. -/
def destOff (k : Packet) : Nat := k.dst % 2 ^ 32

/-- A request packet at its vault, in the remote class, by a tower's endpoint (10 R392, R401). -/
def State.vaultPkt (s : State) (t : Nat) (k : Packet) (q : Nat) (r : VReq) : State :=
  s.admission k q none (fun s => s.arrive q
    { req := r, cls := .remote, narrow := k.narrow, reply := some k, left := 0, acc := false, via := t })

/-! ## Requests -/

/-- READ (10 R392). -/
def State.readPkt (s : State) (t q : Nat) (k : Packet) : State :=
  s.vaultPkt t k q (.read (destOff k) k.aux)

/-- WRITE (10 R392). -/
def State.writePkt (s : State) (t q : Nat) (k : Packet) : State :=
  s.vaultPkt t k q (.write (destOff k) k.payload)

/-- ATOMIC (10 R393). -/
def State.atomicPkt (s : State) (t q : Nat) (k : Packet) : State :=
  s.vaultPkt t k q (.atomic (destOff k) (bits k.aop 3 0) (bit k.aop 4) (k.payload.take 8) (slice k.payload 8 8))

/-- WATCH_ARM (10 R394). -/
def State.watchArmPkt (s : State) (t q : Nat) (k : Packet) : State :=
  s.vaultPkt t k q (.watch (destOff k) (.remote k.src k.srcEngine k.tag 0))

/-- The watch a WATCH_CANCEL names: of its source, at its address or with its tag. -/
def cancels (k : Packet) (w : Watch) : Bool :=
  match w.who with
  | .core _ => false
  | .remote src e g _ => src == k.src && e == k.srcEngine && (w.off == destOff k || g == k.tag)

/-- WATCH_CANCEL (10 R374, R385, R394). -/
def State.watchCancelPkt (s : State) (q : Nat) (k : Packet) : State :=
  s.admission k q (some stOk) (fun s =>
    let v := s.vault q
    (s.setVault q { v with watches := v.watches.filter (fun w => !cancels k w) }).answer q k 1 stOk [])

/-! ## Answers -/

/-- An answer for an outstanding REQ packet with one of some opcodes; any other is discarded and counted (10 R387,
R396). -/
def State.answerFor (s : State) (t : Nat) (k : Packet) (ops : List Nat) : State :=
  match s.sentBy (destVid k) k.tag with
  | none => s.discard t
  | some x =>
    if x.pkt.cls = clsReq && ops.contains x.pkt.op then s.answered x k.status k.payload else s.discard t

/-- READ_DATA (10 R374). -/
def State.readDataPkt (s : State) (t : Nat) (k : Packet) : State :=
  s.answerFor t k [0]

/-- WRITE_ACK (10 R374). -/
def State.writeAckPkt (s : State) (t : Nat) (k : Packet) : State :=
  s.answerFor t k [1, 4]

/-- ATOMIC_OLD (10 R374). -/
def State.atomicOldPkt (s : State) (t : Nat) (k : Packet) : State :=
  s.answerFor t k [2]

/-- WATCH_ACK (10 R394). -/
def State.watchAckPkt (s : State) (t : Nat) (k : Packet) : State :=
  s.answerFor t k [3]

/-- The sender whose bundle a packet of a source belongs to. -/
def State.senderOf (s : State) (x : Sent) : Option Sender :=
  s.senders.find? (fun y => y.site == x.site && y.engine == x.pkt.srcEngine && y.remote && y.job == x.job)

/-- Takes an answered TOK packet away and lets its tag rest (10 R387). -/
def State.dropTok (s : State) (x : Sent) : State :=
  ({ s with sent := s.sent.filter (fun y => y.pkt.tag != x.pkt.tag || y.pkt.src != x.pkt.src) }).quarantineTag
    x.tower x.pkt.src x.pkt.tag

/-- The remote bundle of a sender has ended (10 R387, R389). -/
def State.endRemote (s : State) (y : Sender) (st : Nat) : State :=
  ((s.endSender y st).kickWaiting).runEngines y.site

/-- Puts hold on the entry that serves a node at a tower, or takes it off (10 R383, R384). -/
def State.setHold (s : State) (t node v : Nat) : State := s.setF ⟨s.entryOff t node, 3, 3⟩ v

/-- WAITs of a tower whose watches at other nodes meet a test arm again (10 R395). -/
def State.rearm (s : State) (t : Nat) (test : Nat → Nat → Bool) : State :=
  { s with cores := SMap.mapVal (fun i c =>
      match c.hold with
      | .wait x =>
        if towerOf i == t && x.remote && test i x.vid then
          { c with hold := .wait { x with armed := false, nextTry := s.now } }
        else c
      | _ => c) s.cores }

/-- WAITs at the nodes of an entry arm again: its hold was set (10 R395). -/
def State.rearmEntry (s : State) (t off : Nat) : State := s.rearm t (fun _ vid => s.entryOff t (vidNode vid) == off)

/-- A packet is refused because its destination resets or cannot be reached: it is held for a resend (10 R384). -/
def State.holdRefused (s : State) (x : Sent) (why : Nat) : State :=
  let s := { s with sent := s.sent.map (fun (y : Sent) =>
    if y.pkt.tag = x.pkt.tag ∧ y.pkt.src = x.pkt.src then
      { y with st := .refused, why := why, since := s.now
               firstRefusal := if y.firstRefusal = 0 then s.now + 1 else y.firstRefusal }
    else y) }
  let node := vidNode (destVid x.pkt)
  (s.setHold x.tower node 1).rearmEntry x.tower (s.entryOff x.tower node)

/-- A refusal that answers no packet: of the watch that a WAIT holds, which its vault has given up, so the WAIT arms
again (14 R521, 02 R85); else discarded (10 R396). -/
def State.watchGone (s : State) (t : Nat) (k : Packet) : State :=
  match vidSite (destVid k) with
  | none => s.discard t
  | some i =>
    match s.armedBy i k.tag with
    | none => s.discard t
    | some w =>
      if w.armed && k.status == stNoResource && w.vid == k.src then
        s.setCore i { s.core i with hold := .wait { w with armed := false, nextTry := s.now } }
      else s.discard t

/-- REFUSE (10 R384, R388, R394, 09 R332). -/
def State.refusedPkt (s : State) (t : Nat) (k : Packet) : State :=
  match s.sentBy (destVid k) k.tag with
  | none => s.watchGone t k
  | some x =>
    if k.status = stNodeResetting ∨ k.status = stUnreachable then s.holdRefused x k.status
    else if x.pkt.cls = clsReq then s.answered x k.status []
    else
      match s.senderOf x with
      | none => s.discard t
      | some y =>
        if x.pkt.op = 0 && k.status = stNoResource then (s.dropTok x).refusedReq y stNoResource
        else (s.dropTok x).endRemote y k.status

/-- The words of a sender as bytes. -/
def Sender.bytes (y : Sender) : List PByte := y.words.flatMap (fun w => (toLE 8 w.1.toNat).map (fun b => (b, w.2)))

/-- Sends every DATA packet of an admitted bundle: 32 words in each (10 R373, R374). -/
def State.sendData (s : State) (y : Sender) : State :=
  (List.range (ceilDiv y.words.length 32)).foldl (fun s j =>
    s.sendTok y 1 (32 * j) (slice y.bytes (256 * j) 256)) s

/-- ADMITTED (10 R374): a bundle without payload has arrived. -/
def State.admittedPkt (s : State) (t : Nat) (k : Packet) : State :=
  match s.sentBy (destVid k) k.tag with
  | none => s.discard t
  | some x =>
    match s.senderOf x with
    | none => s.discard t
    | some y =>
      if x.pkt.cls != clsTok || x.pkt.op != 0 || y.st != .recorded then s.discard t
      else if y.words.isEmpty then (s.dropTok x).endRemote y stOk
      else ((s.dropTok x).setSender { y with st := .admitted }).sendData { y with st := .admitted }

/-- ACCEPTED (10 R385, R387, R388). -/
def State.acceptedPkt (s : State) (t : Nat) (k : Packet) : State :=
  match s.sentBy (destVid k) k.tag with
  | none => s.discard t
  | some x =>
    if x.pkt.cls = clsReq then
      if x.pkt.op = 4 then s.answered x k.status [] else s.discard t
    else
      match s.senderOf x with
      | none => s.discard t
      | some y =>
        if x.pkt.op = 2 then (s.dropTok x).endRemote y k.status
        else if x.pkt.op = 1 then (s.dropTok x).endRemote y (worse k.status (sentStatus y))
        else s.discard t

/-! ## Bundles from other nodes -/

/-- The bundle a TOK packet belongs to. -/
def bundleOf (k : Packet) : BundleId := ⟨k.src, k.srcEngine, k.seq⟩

/-- The header a TOK packet carries. -/
def headerOf (k : Packet) : BitVec 64 := BitVec.ofNat 64 (leP (k.payload.take 8))

/-- ADMIT (09 R332, 10 R388). -/
def State.admitPkt (s : State) (q : Nat) (k : Packet) : State :=
  s.admission k q none (fun s =>
    let r := s.recordReq q
      { id := bundleOf k, tag := k.tag, header := headerOf k, at_ := s.now, remote := true, abandoned := false }
    match r.2 with
    | .recorded => r.1
    | .again => r.1.answer q k 6 stOk []
    | .refused st => r.1.answer q k 5 st [])

/-- The words of a DATA packet; those of some places are stored with failed parity. -/
def wordsOfPkt (k : Packet) (bad : List Nat) : List QWord :=
  (List.range (k.payload.length / 8)).map (fun j =>
    let b := slice k.payload (8 * j) 8
    ⟨BitVec.ofNat 64 (leP b), anyPoison b, !bad.contains j⟩)

/-- DATA (09 R336, R342, 10 R374): words of a bundle the queue does not hold are discarded. -/
def State.dataPkt (s : State) (t q : Nat) (k : Packet) (bad : List Nat) : State :=
  s.admission k q none (fun s =>
    match (s.queue q).resident.find? (fun b => b.id == bundleOf k && !b.whole) with
    | none => if s.sqState q != sqOpen then s.answer q k 5 stSqClosed [] else s.discard t
    | some b =>
      let r := s.putWords q b k.aux (wordsOfPkt k bad)
      if r.2.whole then r.1.answer q k 7 stOk [] else r.1)

/-- What an ABANDON does at a queue, and its answer's status (10 R388). -/
def State.abandonAt (s : State) (q : Nat) (k : Packet) : State × Nat :=
  let x := s.queue q
  let id := bundleOf k
  if s.sqState q != sqOpen then (s, stSqClosed)
  else
    match x.resident.find? (fun b => b.id == id && (b.lost || !b.whole)) with
    | some b => (if b.whole then s else s.loseBundle q b, stPoisoned)
    | none =>
      if x.requests.any (fun r => r.id == id) then
        (s.setQueue q { x with requests := x.requests.map (fun r => if r.id = id then { r with abandoned := true } else r) },
          stPoisoned)
      else if x.remembered.any (fun e => e.1 == id) then (s, stOk)
      else
        let r : QReq := { id := id, tag := k.tag, header := headerOf k, at_ := s.now, remote := true, abandoned := true }
        ((s.setQueue q { x with requests := x.requests ++ [r] }).queueShow q, stPoisoned)

/-- ABANDON (10 R385, R388). -/
def State.abandonPkt (s : State) (q : Nat) (k : Packet) : State :=
  s.admission k q (some stSqClosed) (fun s =>
    let r := s.abandonAt q k
    r.1.answer q k 7 r.2 [])

/-! ## Management packets -/

/-- The vault ID of a tower's first site, by which its fabric block answers. -/
def State.towerVid (s : State) (t : Nat) : Nat := s.nodeOf t * 2 ^ 12 + t * 2 ^ 10

/-- PING (10 R374). -/
def State.pingPkt (s : State) (q : Nat) (k : Packet) : State :=
  s.sendSpray (towerOf q) (vidNode k.src) { Packet.blank with
    cls := clsMgt, op := 1, srcEngine := 12, length := k.length, tag := k.tag, dst := k.src * 2 ^ 32
    src := s.towerVid (towerOf q), payload := k.payload }

/-- PONG (10 R374, R396): nothing of this device waits for one, so it is discarded and counted. -/
def State.pongPkt (s : State) (t : Nat) : State :=
  s.discard t

/-- STATE (10 R374): the news of another node goes to the management cores. -/
def State.statePkt (s : State) (k : Packet) : State :=
  s.emit (.message (k.payload.map Prod.fst))

/-- REG_DATA (10 R374, R396): nothing of this device waits for one, so it is discarded and counted. -/
def State.regDataPkt (s : State) (t : Nat) : State :=
  s.discard t

/-- Is an opcode of a class reserved (10 R374)? -/
def reservedPkt (cls op : Nat) : Bool :=
  if cls = clsReq then decide (4 < op) else if cls = clsRsp then decide (7 < op)
  else if cls = clsTok then decide (2 < op) else decide (5 < op)

/-! ## At the source -/

/-- SKY_CNT_LOST and SKY_LOST_FIRST of a packet declared lost (10 R387, R402); a READ's record is DEFERRED (16 R591). A
lost write shows in the record of the core it stops. -/
def State.declareLost (s : State) (x : Sent) : State :=
  let t := x.tower
  let s := s.incSat (Reg.skyCntLost_declared t) 1
  let s := if s.on (Reg.skyLostFirst_valid t) then s
    else [(Reg.skyLostFirst_dst_vault t, destVid x.pkt), (Reg.skyLostFirst_engine t, x.pkt.srcEngine),
      (Reg.skyLostFirst_class t, x.pkt.cls), (Reg.skyLostFirst_op t, x.pkt.op),
      (Reg.skyLostFirst_port t, x.port % 32), (Reg.skyLostFirst_valid t, 1)].foldl (fun s f => s.setF f.1 f.2) s
  if x.pkt.cls = clsReq ∧ x.pkt.op = 0 then s.record (mkRecord s 2 7 (0xF000 + t) stPoisoned 11 x.pkt.dst 0)
  else if x.pkt.srcEngine = hostEngine then s.record (mkRecord s 3 7 (0xF000 + t) stFabricLost 11 x.pkt.dst 0)
  else s

/-- A sender gives its bundle up: its packets go and ABANDON is sent (10 R387). -/
def State.abandon (s : State) (y : Sender) : State :=
  let mine := s.sent.filter (fun x => x.job == y.job && x.pkt.cls == clsTok)
  let s := mine.foldl (fun s x => s.dropTok x) s
  let y := { y with st := .abandoned }
  (s.setSender y).sendTok y 2 0 (clean (toLE 8 y.header.toNat))

/-- PACKET_LOST_TIMEOUT (10 R387): the k-th outstanding packet has had no answer for 2 × lifetime_us. -/
def execPacketLostTimeout (k : Nat) (s : State) : Host.Outcome State Fault Refusal :=
  match s.sent[k]? with
  | none => next s
  | some x =>
    if x.st != .flying || x.ans.isSome || decide (s.now < x.since + 2 * s.lifetime x.tower) then next s
    else
      let s := s.declareLost x
      if x.pkt.cls = clsReq then
        let a := lostAnswer x.pkt
        next (s.answered x a.1 a.2)
      else
        match s.senderOf x with
        | none => next (s.dropTok x)
        | some y => if x.pkt.op = 2 then next ((s.dropTok x).endRemote y stFabricLost) else next (s.abandon y)

/-- A packet of a local source completes with a status and no side effect (10 R372, R384). -/
def State.failSent (s : State) (x : Sent) (st : Nat) : State :=
  if x.pkt.cls = clsReq then s.answered x st []
  else
    match s.senderOf x with
    | none => s.dropTok x
    | some y => (s.dropTok x).endRemote y st

/-- REROUTE_TIMEOUT (10 R372): the k-th packet has lacked a port, or an entry, for reroute_ms. -/
def execRerouteTimeout (k : Nat) (s : State) : Host.Outcome State Fault Refusal :=
  match s.sent[k]? with
  | none => next s
  | some x =>
    if x.st != .waiting || x.ans.isSome || !s.portless x || x.noPort == 0 ||
        decide (s.now + 1 < x.noPort + ms (s.getF (Reg.skyE2e_reroute_ms x.tower))) then next s
    else next (s.failSent x stUnreachable)

/-- The refused packets of a tower to the nodes of an entry. -/
def State.refusedOf (s : State) (t off : Nat) : List Sent :=
  s.sent.filter (fun x => x.tower == t && x.st == .refused && s.entryOff t (vidNode (destVid x.pkt)) == off)

/-- Sends a refused packet again with resync = 1 (10 R384). -/
def State.resend (s : State) (x : Sent) : State :=
  match s.route x.tower (vidNode (destVid x.pkt)) with
  | none => s
  | some (g, cand) =>
    let k := { x.pkt with resync := true }
    let p := flowPort cand k.src (destVid k) k.srcEngine
    let y := { x with pkt := k, st := .flying, since := s.now, port := 32 * g + p }
    ({ s with sent := s.sent.map (fun (z : Sent) => if z.pkt.tag = k.tag ∧ z.pkt.src = k.src then y else z) }).depart y g p

/-- REFUSAL_RESEND (10 R384): every 10 µs, once outstanding is 0 and each packet has a port that is UP. -/
def execRefusalResend (t : Tower) (node : BitVec 20) (s : State) : Host.Outcome State Fault Refusal :=
  let off := s.entryOff t node.toNat
  let xs := s.refusedOf t off
  if xs.isEmpty || s.inFlight t off != 0 || xs.any (fun x => decide (s.now < x.since + us 10)) ||
      xs.any s.portless then next s
  else next (((xs.foldl (fun s x => s.resend x) s).setHold t node.toNat 0).kickWaiting)

/-- REFUSAL_GIVE_UP (10 R384): 100 ms after the first refusal, an entry's refused packets complete. -/
def execRefusalGiveUp (t : Tower) (node : BitVec 20) (s : State) : Host.Outcome State Fault Refusal :=
  let off := s.entryOff t node.toNat
  let xs := s.refusedOf t off
  if !xs.any (fun x => decide (x.firstRefusal + ms 100 ≤ s.now + 1)) then next s
  else
    let s := xs.foldl (fun s x => s.failSent x x.why) s
    next (if (s.refusedOf t off).isEmpty then (s.setHold t node.toNat 0).kickWaiting else s)

/-- FLOW_PORT_CHANGE (10 R382): the k-th packet goes by its new port, where nothing of its flow is outstanding. -/
def execFlowPortChange (k : Nat) (s : State) : Host.Outcome State Fault Refusal := next (s.tryWaiting k).pump

end Sys2Proof.Machine
end

