-- ==== Sys2Proof/Machine/FabLink.lean ====
section
/-!
DEFINITION. Fabric ports and the writes of the SKY and OPT blocks (chapter 10): training, retraining and light (R361,
R363, R380), flits, their acknowledgement and credit (R376 to R380), the node ID (R364), the buffer split (R378) and
the routing entries (R365 to R367).
-/
namespace Sys2Proof.Machine

/-! ## Port states -/

/-- ABSENT of OPT_PORT_STATUS.state. -/
def ptAbsent : Nat := 0
/-- DISABLED. -/
def ptDisabled : Nat := 1
/-- TRAINING. -/
def ptTraining : Nat := 2
/-- RETRAIN. -/
def ptRetrain : Nat := 4
/-- DEAD. -/
def ptDead : Nat := 5
/-- NO_LIGHT. -/
def ptNoLight : Nat := 6

/-- The state of a port; a fused one is ABSENT (10 R361). -/
def State.portState (s : State) (t p : Nat) : Nat :=
  if bit s.usablePorts p then s.getF (Reg.optPortStatus_state t p) else ptAbsent

/-- The ports of a tower that are UP. -/
def State.countUp (s : State) (t : Nat) : Nat := ((List.range 32).filter (fun p => s.portIsUp t p)).length

/-- A packet whose port is not UP any more (10 R372): one of a local source waits at the source, one in transit is
refused, an RSP or MGT packet takes another port. -/
def State.unqueue (s : State) (t : Nat) (e : TxEnt) : State :=
  if e.pkt.cls = clsReq ∨ e.pkt.cls = clsTok then
    if e.transit then (s.freeRx e.back e.pkt).bounce t e.pkt stUnreachable
    else { s with sent := s.sent.map (fun x =>
      if x.pkt.tag = e.pkt.tag ∧ x.pkt.src = e.pkt.src ∧ x.st = .flying then { x with st := .waiting, since := s.now } else x) }
  else s.sprayHere e

/-- The packets in a port's class queues leave them. -/
def State.emptyPort (s : State) (t p : Nat) : State :=
  let x := s.port t p
  x.tx.q.foldl (fun s e => s.unqueue t e) (s.setPort t p { x with tx := { x.tx with q := [] } })

/-- A port changes its state: OPT_PORT_STATUS.changed and SKY_STATUS.ports_up follow, and an event goes to firmware
(10 R402, R403); a port that leaves UP sends nothing new (R372). -/
def State.setPortState (s : State) (t p st : Nat) : State :=
  if !bit s.usablePorts p || s.portState t p == st then s
  else
    let s := (s.setF (Reg.optPortStatus_state t p) st).setF (Reg.optPortStatus_changed t p) 1
    let s := (s.setF (Reg.skyStatus_ports_up t) (s.countUp t)).emit (.portEvent t p st)
    (if st = portUp then s else s.emptyPort t p).timeWaits

/-- A port stops carrying traffic: its replay buffer is discarded (10 R380). -/
def State.stopPort (s : State) (t p st : Nat) : State :=
  let x := s.port t p
  (s.setPort t p { x with retry := { x.retry with buf := [], owed := 0 } }).setPortState t p st

/-- A port becomes DEAD or NO_LIGHT: a DEGRADED record, and every WAIT with a watch at a node whose entry uses it arms
again (10 R380, R395). -/
def State.losePort (s : State) (t p st : Nat) : State :=
  if !bit s.usablePorts p then s
  else
    let s := (s.stopPort t p st).record (mkRecord s 1 8 (0xF000 + t) 0 10 (32 * t + p) (s.port t p).retry.expect)
    [0, 1, 2, 3].foldl (fun s u => s.rearm u (fun _ vid =>
      match s.route u (vidNode vid) with
      | none => false
      | some (g, cand) => g == t && bit cand p)) s

/-- May the ports of a tower train (10 R364, R402)? -/
def State.mayTrain (s : State) (t : Nat) : Bool :=
  s.on (Reg.skyCtrl_enable t) && !s.on (Reg.skyStatus_node_mismatch t)

/-- A port begins to train. -/
def State.trainPort (s : State) (t p : Nat) : State :=
  if s.mayTrain t && s.on (Reg.optPortCtrl_enable t p) then s.stopPort t p ptTraining else s

/-- What a port learns of its peer (10 R403). -/
def State.learnPeer (s : State) (t p : Nat) (x : TrainedPeer) : State :=
  let s := s.setF (Reg.optPortStatus_peer_node t p) x.node.toNat
  let s := s.setF (Reg.optPortStatus_peer_port t p) x.port.toNat
  s.setF (Reg.optPortStatus_delay_ns t p) x.delay.toNat

/-- Does an armed injection make the next retrain of a port fail (16 R591 kind 10)? -/
def State.portFails (s : State) (t p : Nat) : Bool := s.injected 4 (32 * t + p)

/-- A port that comes up: what its peer's receiver holds of each class and lane is its credit (10 R377, R378). -/
def Port.trained (x : TrainedPeer) : Port :=
  { Port.reset with retry := { Retry.reset with
      credit := (List.range 8).map (fun k => 8 * bits x.split.toNat (8 * k + 7) (8 * k)) } }

/-- Packets that waited for a port go. -/
def State.portOpens (s : State) (t : Nat) : State := (s.kickSpray t).kickWaiting

/-- PORT_TRAINED (10 R364, R380): a port whose tower may not train does not come up. -/
def execPortTrained (t : Tower) (p : Sys2Proof.Port) (peer : Option TrainedPeer) (s : State) :
    Host.Outcome State Fault Refusal :=
  if s.portState t p != ptTraining || !s.mayTrain t then next s
  else
    match peer with
    | none => next (s.losePort t p ptDead)
    | some x =>
      next ((((s.setPort t p { Port.trained x with rx := (s.port t p).rx }).learnPeer t p x).setPortState t p portUp).portOpens t)

/-- The longest a link retrains (10 R380). -/
def retrainMax : Nat := ms 1

/-- The flits of a replay buffer that come before a sequence have arrived. -/
def Retry.arrived (r : Retry) (expect now : Nat) : Retry := { r.acknowledge ((expect + 4095) % 4096) now with naks := 0, ackAt := now }

/-- FABRIC_RETRAIN_END (10 R380): within 1 ms, a replay from the receiver's expected sequence on success, else the port is
DEAD. -/
def execFabricRetrainEnd (t : Tower) (p : Sys2Proof.Port) (peer : Option TrainedPeer) (s : State) :
    Host.Outcome State Fault Refusal :=
  if s.portState t p != ptRetrain then next s
  else
    match peer with
    | none => next ((if s.portFails t p then s.usedInject else s).losePort t p ptDead)
    | some x =>
      if s.portFails t p then next (s.usedInject.losePort t p ptDead)
      else if (s.port t p).since + retrainMax < s.now then next (s.losePort t p ptDead)
      else
        let y := s.port t p
        let s := (s.setPort t p { y with retry := y.retry.arrived x.expect.toNat s.now }).learnPeer t p x
        next (((s.setPortState t p portUp).replay t p).portOpens t)

/-- A link goes to RETRAIN (10 R380). -/
def State.retrain (s : State) (t p : Nat) : State :=
  ((s.incSat (Reg.optPortErr_retrains t p) 1).setPort t p { s.port t p with since := s.now }).setPortState t p ptRetrain

/-- FABRIC_NO_PROGRESS (10 R380). -/
def execFabricNoProgress (t : Tower) (p : Sys2Proof.Port) (s : State) : Host.Outcome State Fault Refusal :=
  let r := (s.port t p).retry
  if s.portIsUp t p && !r.buf.isEmpty && decide (r.ackAt + us 10 ≤ s.now) then next (s.retrain t p) else next s

/-- PORT_RETRAIN (10 R380, R403): from DEAD or DISABLED only. -/
def execPortRetrain (t : Tower) (p : Sys2Proof.Port) (s : State) : Host.Outcome State Fault Refusal :=
  let st := s.portState t p
  if st = ptDead ∨ st = ptDisabled then next (s.trainPort t p) else next s

/-- PORT_ENABLE_WRITE (10 R403): ignored on a fused port; a port that becomes enabled trains where its tower may. A port
without light stays NO_LIGHT (R363). -/
def execPortEnableWrite (t : Tower) (p : Sys2Proof.Port) (b : Bool) (s : State) : Host.Outcome State Fault Refusal :=
  if s.portState t p = ptAbsent then next s
  else
    let s := s.setF (Reg.optPortCtrl_enable t p) (b2n b)
    if s.portState t p = ptNoLight then next s
    else if !b then next (s.stopPort t p ptDisabled)
    else if s.portState t p = ptDisabled then next (s.trainPort t p) else next s

/-- SKY_CTRL_ENABLE_WRITE (10 R402). -/
def execSkyCtrlEnableWrite (t : Tower) (b : Bool) (s : State) : Host.Outcome State Fault Refusal :=
  let s := s.setF (Reg.skyCtrl_enable t) (b2n b)
  let live := fun (st : Nat) => st == ptTraining || st == portUp || st == ptRetrain
  next ((List.range 32).foldl (fun s p =>
    if b then (if s.portState t p = ptDisabled then s.trainPort t p else s)
    else if live (s.portState t p) then s.stopPort t p ptDisabled else s) s)

/-! ## Light -/

/-- The ports that a laser input feeds (10 R362). -/
def laserPorts (e : Nat) (inputB : Bool) : List Nat :=
  (List.range 4).map (fun l => 8 * e + (if inputB then 4 else 0) + l)

/-- 7 dBm in tenths. -/
def lightMin : Int := 70

/-- OPT_LASER shows an input's power and whether it is low. -/
def State.showLaser (s : State) (t e : Nat) (inputB : Bool) (power : BitVec 8) (low : Bool) : State :=
  if inputB then (s.setF (Reg.optLaser_power_b t e) power.toNat).setF (Reg.optLaser_low_b t e) (b2n low)
  else (s.setF (Reg.optLaser_power_a t e) power.toNat).setF (Reg.optLaser_low_a t e) (b2n low)

/-- LASER_LOW (10 R363): a wavelength has been below 7 dBm for 10 µs. -/
def execLaserLow (t : Tower) (e : Fin 4) (inputB : Bool) (power : BitVec 8) (s : State) :
    Host.Outcome State Fault Refusal :=
  if lightMin ≤ power.toInt then next s
  else
    next ((laserPorts e inputB).foldl (fun s p =>
      if s.portState t p = ptNoLight then s else s.losePort t p ptNoLight) (s.showLaser t e inputB power true))

/-- LASER_RESTORED (10 R363): every wavelength has been at 7 dBm or above for 1 ms. -/
def execLaserRestored (t : Tower) (e : Fin 4) (inputB : Bool) (power : BitVec 8) (s : State) :
    Host.Outcome State Fault Refusal :=
  if power.toInt < lightMin then next s
  else
    next ((laserPorts e inputB).foldl (fun s p =>
      if s.portState t p = ptNoLight then s.setPortState t p ptDead else s) (s.showLaser t e inputB power false))

/-! ## Flits -/

/-- What the trailer of a good flit does: ack, nak with its replay, credit (10 R376, R379, R380). -/
def State.takeTrailer (s : State) (t p w : Nat) : State :=
  let r := ((s.port t p).retry.acknowledge (bits w 23 12) s.now).credited (bits w 27 25) (bits w 35 28)
  let s :=
    if !bit w 24 then s.setPort t p { s.port t p with retry := r }
    else
      let r := { r with naks := r.naks + 1 }
      let s := (s.setPort t p { s.port t p with retry := r }).replay t p
      if 16 ≤ r.naks then s.retrain t p else s
  (s.kickSpray t).pump

/-- A flit in its order is received; every 32nd is acknowledged at once (10 R379). -/
def Retry.received (r : Retry) (now : Nat) : Retry :=
  let owed := r.owed + 1
  { r with
      expect := (r.expect + 1) % 4096
      nakSent := false
      owed := if 32 ≤ owed then 0 else owed
      owedAt := if r.owed = 0 then now else r.owedAt }

/-- FABRIC_FLIT (10 R376, R379): an idle flit has no flit bytes and repeats the last sequence. A flit that fails its CRC
is answered by a nak, and so is the first that comes out of its order. -/
def execFabricFlit (t : Tower) (p : Sys2Proof.Port) (flit : List Byte) (trailer : BitVec 64) (s : State) :
    Host.Outcome State Fault Refusal :=
  let w := trailer.toNat
  let r := (s.port t p).retry
  let wait := fun (s : State) => s.setPort t p { s.port t p with retry := { (s.port t p).retry with nakSent := true } }
  let nak := fun (s : State) => (wait s).idleFlit t p true
  if !s.portIsUp t p then next s
  else if crc24 flit w != bits w 63 40 then
    let s := (s.incSat (Reg.optPortErr_crc t p) 1).record
      (mkRecord s 0 8 (0xF000 + t.val) 0 9 (32 * t.val + p.val) r.expect)
    next (nak s)
  else
    let s := s.takeTrailer t p w
    let r := (s.port t p).retry
    if flit.isEmpty then
      if bits w 11 0 = (r.expect + 4095) % 4096 then next s else next (if r.nakSent then s else nak s)
    else if bits w 11 0 != r.expect then next (if r.nakSent then s else nak s)
    else
      let u := (s.setPort t p { s.port t p with retry := r.received s.now }).incWrap (Reg.skyCntRx_flits t) 1
      next (if (u.port t p).retry.owed = 0 then u.idleFlit t p false else u)

/-- FABRIC_ACK_TIMER (10 R379): an ack goes out within 64 ns. -/
def execFabricAckTimer (t : Tower) (p : Sys2Proof.Port) (s : State) : Host.Outcome State Fault Refusal :=
  let r := (s.port t p).retry
  if r.owed != 0 && decide (r.owedAt + 64 ≤ s.now) then
    next (s.idleFlit t p false)
  else next s

/-! ## SKY registers -/

/-- SKY_STATUS.node_mismatch of every tower (10 R364). -/
def State.showMismatch (s : State) : State :=
  [0, 1, 2, 3].foldl (fun s t => s.setF (Reg.skyStatus_node_mismatch t) (b2n (s.nodeOf t != s.nodeOf 0))) s

/-- SKY_NODE_WRITE (10 R364, R402). -/
def execSkyNodeWrite (t : Tower) (v : BitVec 32) (s : State) : Host.Outcome State Fault Refusal :=
  let n := bits v.toNat 19 0
  if s.on (Reg.skyCtrl_enable t) || n == 0xFFFFF then next s
  else next ((s.setF (Reg.skyNode_node t) n).showMismatch)

/-- SKY_CREDIT_WRITE (10 R378): only while no port of the tower trains or carries traffic. -/
def execSkyCreditWrite (t : Tower) (v : BitVec 64) (s : State) : Host.Outcome State Fault Refusal :=
  let fields := (List.range 8).map (fun k => bits v.toNat (8 * k + 7) (8 * k))
  let idle := (List.range 32).all (fun p => [ptAbsent, ptDisabled, ptDead, ptNoLight].contains (s.portState t p))
  if !idle || fields.contains 0 || decide (256 < fields.foldl (· + ·) 0) then
    next (s.setF (Reg.skyStatus_cfg_err t) 1)
  else next (s.setReg (Reg.skyCredit_req0 t).off v)

/-- ROUTING_ENTRY_WRITE (10 R361, R366, R367): fused ports leave the mask, and a group entry is valid only with its
licence. Setting hold makes the WAITs it serves arm again (R395). -/
def execRoutingEntryWrite (t : Tower) (group : Bool) (k : BitVec 12) (v : BitVec 64) (s : State) :
    Host.Outcome State Fault Refusal :=
  let w := v.toNat
  let off := if group then (Reg.skyRouteG_valid t k.toNat).off else (Reg.skyRouteM_valid t k.toNat).off
  let barred := group && bit w 0 && !s.licensed licFabric
  let e := b2n (bit w 0 && !barred) + bits w 3 1 * 2 + Nat.land (bits w 47 16) s.usablePorts * 2 ^ 16
  if !group && decide (256 ≤ k.toNat) then next s
  else
    let s := if barred then s.setF (Reg.skyStatus_cfg_err t) 1 else s
    let held := bit (s.reg off).toNat 3
    let s := s.setReg off (BitVec.ofNat 64 e)
    next ((if bit w 3 && !held then s.rearmEntry t off else s).timeWaits.kickWaiting)

end Sys2Proof.Machine
end

