-- ==== Sys2Proof/Machine/DieLinks.lean ====
section
/-!
DEFINITION. The die links (chapter 11): training and capabilities (R408 to R413), flits and retry (R414, R416, R417),
routes, failover and the writes of DLK_LINK_CTRL (R419 to R421, R423). Packets of other nodes cross them by their class
queues; an access within the package crosses with the step that makes it (log entry 20).
-/
namespace Sys2Proof.Machine

/-! ## Routes -/

/-- The ways from a die to another, the first preferred (11 R419, R420): each a list of dies. -/
def dieWays (a b : Nat) : List (List Nat) :=
  if a = ioDie then [[a, b], [a, (b + 1) % 4, b], [a, (b + 3) % 4, b]]
  else if b = ioDie then [[a, b], [a, (a + 1) % 4, b], [a, (a + 3) % 4, b]]
  else if b = (a + 1) % 4 then [[a, b], [a, (a + 3) % 4, (a + 2) % 4, b]]
  else if b = (a + 3) % 4 then [[a, b], [a, (a + 1) % 4, (a + 2) % 4, b]]
  else [[a, (a + 1) % 4, b], [a, (a + 3) % 4, b]]

/-- The links of a way. -/
def wayLinks : List Nat → List Nat
  | a :: b :: rest => linkOf a b :: wayLinks (b :: rest)
  | _ => []

/-- The next hop from a die to another as the links stand: 5 for itself, 7 for no path (11 R419 to R421). -/
def State.bestHop (s : State) (a b : Nat) : Nat :=
  if a = b then 5
  else
    let ways := if s.on Reg.dlkCtrl_failover_enable then dieWays a b else (dieWays a b).take 1
    match ways.find? (fun w => (wayLinks w).all (fun l => s.getF (Reg.dlkLinkStatus_state l) != 7)) with
    | some w => w.getD 1 7
    | none => 7

/-- DLK_ROUTE.next of a die as the links stand. -/
def State.bestRow (s : State) (a : Nat) : Nat :=
  [0, 1, 2, 3, 4].foldl (fun w b => w + s.bestHop a b * 2 ^ (3 * b)) 0

/-- Every pair of different dies. -/
def diePairs : List (Nat × Nat) :=
  [0, 1, 2, 3, 4].flatMap (fun a => ([0, 1, 2, 3, 4].filter (fun b => a != b)).map (fun b => (a, b)))

/-- The pairs whose route in use passes a link that is DOWN, or is not the one the links now give (11 R420). -/
def State.changedRoutes (s : State) : List (Nat × Nat) :=
  diePairs.filter (fun p => s.nextHop p.1 p.2 != s.bestHop p.1 p.2 ||
    (match s.dieRoute 3 p.1 p.2 with
     | none => false
     | some ls => ls.any (fun l => s.getF (Reg.dlkLinkStatus_state l) == 7)))

/-- Takes the routes that the links give into use (11 R420 step 4, R421). -/
def State.takeRoutes (s : State) : State :=
  let rows := [0, 1, 2, 3, 4].map s.bestRow
  let s := [0, 1, 2, 3, 4].foldl (fun s a => s.setF (Reg.dlkRoute_next a) (rows.getD a 0)) s
  let cut := diePairs.any (fun p => (s.dieRoute 3 p.1 p.2).isNone)
  ((s.setF Reg.dlkStatus_unreachable (b2n cut)).setF Reg.dlkStatus_rerouting 0).timeWaits.kickWaiting

/-- The packets that wait in a link's class queues, each at its die. -/
def State.onLink (s : State) (l : Nat) : List (Nat × TxEnt) :=
  (s.link l).tx.q.map (fun e => (linkEnd l false, e)) ++ (s.link l).txFar.q.map (fun e => (linkEnd l true, e))

/-- Keeps the packets of a link's class queues that meet a test. -/
def State.keepOnLink (s : State) (l : Nat) (f : Nat → TxEnt → Bool) : State :=
  let x := s.link l
  s.setLink l { x with
    tx := { x.tx with q := x.tx.q.filter (f (linkEnd l false)) }, txFar := { x.txFar with q := x.txFar.q.filter (f (linkEnd l true)) } }

/-- Some packets are discarded, and counted at a link (11 R420): their sources will declare them lost. -/
def State.lostOnLink (s : State) (l : Nat) (xs : List (Nat × TxEnt)) : State :=
  xs.foldl (fun s e => s.freeRx e.2.back e.2.pkt) (s.incSat (Reg.dlkLinkErr_discarded l) xs.length)

/-- Holds the routes that change, and takes what waits in a failed link's class queues back, to be sent on the new routes,
or, where its sideband is down, to be discarded (11 R420 steps 1 and 2). -/
def State.startReroute (s : State) (l : Nat) : State :=
  let rs := s.changedRoutes
  if rs.isEmpty then s
  else
    let down := s.getF (Reg.dlkLinkStatus_state l) == 7
    let mine := if down then (s.onLink l).filter (fun e => rs.contains (e.1, e.2.die)) else []
    let s := s.keepOnLink l (fun d e => !(down && rs.contains (d, e.die)))
    let up := s.on (Reg.dlkLinkStatus_sideband_up l)
    let s := if up then s else s.lostOnLink l mine
    ({ s with failover := some ⟨s.now, l, rs, if up then mine else []⟩ }).setF Reg.dlkStatus_rerouting 1

/-- Step 3 of a failover ends: what is still on an old route is discarded, and the held packets go once the new routes are
in use (11 R420 step 4). -/
def State.endReroute (s : State) (f : Failover) : State :=
  let old := (List.range 8).flatMap (fun l => (s.onLink l).filter (fun e => f.routes.contains (e.1, e.2.die)))
  let s := (List.range 8).foldl (fun s l => s.keepOnLink l (fun d e => !f.routes.contains (d, e.die))) s
  let s := ({ s with failover := none }.lostOnLink f.link old).takeRoutes
  (f.held.foldl (fun s e => s.cross e.1 e.2) s).pump

/-! ## Link states -/

/-- DOWN. -/
def lkDown : Nat := 7
/-- RETRAIN. -/
def lkRetrain : Nat := 6
/-- SBINIT. -/
def lkSbinit : Nat := 1

/-- DLK_LINK_STATUS.state. -/
def State.linkState (s : State) (l : Nat) : Nat := s.getF (Reg.dlkLinkStatus_state l)

/-- A link changes its state, and an event goes to firmware (11 R423). -/
def State.setLinkState (s : State) (l st : Nat) : State :=
  if s.linkState l = st then s
  else
    let s := (s.setF (Reg.dlkLinkStatus_state l) st).setF (Reg.dlkLinkStatus_changed l) 1
    (s.setF ⟨Reg.dlkStatus_active.off, l, l⟩ (b2n (st == lkActive))).emit (.linkEvent l st)

/-- A link passes through the states of training up to one: 2 MBINIT, 3 MBTRAIN, 4 CAP (11 R412). -/
def State.passTo (s : State) (l st : Nat) : State :=
  ([2, 3, 4].filter (fun k => decide (k ≤ st))).foldl (fun s k => s.setLinkState l k) s

/-- Are all links of a tower DOWN? -/
def State.towerAlone (s : State) (t : Nat) : Bool := [t, 4 + t, 4 + (t + 3) % 4].all (fun l => s.linkState l == lkDown)

/-- A tower in service loses its last link: it is held out of service, its cores count as absent, and the device falls
below its grade (11 R408, 00 R4). -/
def State.loseTower (s : State) (t : Nat) : State :=
  if s.getF Reg.bootStatus_stage != stageDone || !s.towerAlone t then s
  else
    let gone := (List.range 576).filter (fun j => decide (yCore (s.yieldOf (576 * t + j)) ≤ 1))
    let s := gone.foldl (fun s j =>
      let i := 576 * t + j
      (s.setYield i (4 + yVault (s.yieldOf i) * 8)).setF (Reg.coreId_enabled i) 0) s
    let s := (s.setF (Reg.bootTower_enabled t) 0).setF (Reg.bootTower_standby t) 0
    let s := s.setF Reg.bootCounts_absent (s.getF Reg.bootCounts_absent + gone.length)
    if s.getF Reg.glbState_state = gsReady && s.gradeFails then s.setF Reg.glbState_state gsGradeFault else s

/-- A link goes to DOWN: a DEGRADED record; without failover its routes have no path, and what waits for it goes no
further (11 R420, R421). -/
def State.downLink (s : State) (l : Nat) : State :=
  let s := (s.setLinkState l lkDown).record (mkRecord s 1 9 0xFFFF 0 14 l (s.link l).retry.expect)
  let s := (s.loseTower (l % 4)).loseTower ((l + 1) % 4)
  if s.on Reg.dlkCtrl_failover_enable then s
  else
    let xs := s.onLink l
    xs.foldl (fun s e => s.noWay e.1 e.2) ((s.keepOnLink l (fun _ _ => false)).takeRoutes)

/-- A link becomes ACTIVE: routes that it restores change by the steps of 11 R420 (R421). -/
def State.upLink (s : State) (l : Nat) : State :=
  let s := s.setLinkState l lkActive
  if s.failover.isSome then s else (s.startReroute l).kickWaiting

/-! ## Training -/

/-- The dies a link joins, the reporting end first (11 R404, R423). -/
def linkEnds (l : Nat) : Nat × Nat := if l < 4 then (l, ioDie) else (l - 4, (l - 3) % 4)

/-- Modules of a link (11 R404). -/
def linkModules (l : Nat) : Nat := if l < 4 then 4 else 8

/-- The role of a module: 0 DATA, 1 OFF, 2 SIDEBAND_ONLY, 3 out of service. -/
def State.roleOf (s : State) (l m : Nat) : Nat := bits (s.getF (Reg.dlkLaneMap_role l)) (2 * m + 1) (2 * m)

/-- Can the permitted spares of a module give the repair it needs (11 R409, R411)? -/
def State.repairable (s : State) (l m : Nat) (x : TrainResult) : Bool :=
  Nat.land (x.needs.getD m 0) ((s.link l).spares.getD m 0) == 0

/-- What training leaves of a link's modules (11 R409 to R411): DATA modules that do not reach their rate, or need spares
they may not use, leave service with a record each. A module out of service at an earlier training is tried again. -/
def State.trainModules (s : State) (l : Nat) (x : TrainResult) : State :=
  let inject := s.on (Reg.dlkInject_module_fail l)
  let bad := s.getF (Reg.dlkInject_mod l)
  let ms := List.range (linkModules l)
  let data := ms.filter (fun m => s.roleOf l m == 0 || s.roleOf l m == 3)
  let good := data.filter (fun m => x.works.contains m && s.repairable l m x && !(inject && m == bad))
  let lost := data.filter (fun m => !good.contains m)
  let side := ms.find? (fun m => s.roleOf l m != 1 && x.sideband.contains m)
  let s := data.foldl (fun s m =>
    s.setF ⟨(Reg.dlkLaneMap_role l).off, 2 * m + 1, 2 * m⟩ (if good.contains m then 0 else 3)) s
  let s := lost.foldl (fun s m => s.record (mkRecord s 1 9 0xFFFF 0 14 l m)) s
  let s := s.setF (Reg.dlkInject_module_fail l) 0
  let s := s.setF (Reg.dlkLaneMap_repaired l) ((good.filter (fun m => x.needs.getD m 0 != 0)).foldl (fun w m => w + 2 ^ m) 0)
  let s := s.setF (Reg.dlkLinkStatus_modules_up l) good.length
  let s := s.setF (Reg.dlkLinkStatus_lanes_repaired l) x.lanes
  let s := s.setF (Reg.dlkLinkStatus_sideband_up l) (b2n side.isSome)
  s.setF (Reg.dlkLinkStatus_sideband_module l) (side.getD 0)

/-- The capabilities of a die (11 R413). -/
def State.caps (s : State) (d : Nat) : CapRecord :=
  { version := s.chip.dieVersion.getD d 0, strap := s.chip.straps.getD d 7
    maxPayload := if d = ioDie then 128 else 256, tags := if d = ioDie then 256 else 512
    keepAlive := true, tickSync := true, poisonWord := true, transit := d != ioDie }

/-- DLK_LINK_CAP holds what both ends agree on (11 R413). -/
def State.agree (s : State) (l : Nat) (a b : CapRecord) : State :=
  [(Reg.dlkLinkCap_local_ver l, a.version), (Reg.dlkLinkCap_peer_ver l, b.version),
    (Reg.dlkLinkCap_payload_256 l, b2n (decide (256 ≤ Nat.min a.maxPayload b.maxPayload))),
    (Reg.dlkLinkCap_keep_alive l, b2n (a.keepAlive && b.keepAlive)),
    (Reg.dlkLinkCap_tick_sync l, b2n (a.tickSync && b.tickSync)),
    (Reg.dlkLinkCap_poison_word l, b2n (a.poisonWord && b.poisonWord)),
    (Reg.dlkLinkCap_transit l, b2n (a.transit && b.transit)),
    (Reg.dlkLinkCap_tags l, Nat.min a.tags b.tags)].foldl (fun s f => s.setF f.1 f.2) s

/-- Is a link between RESET and ACTIVE? -/
def State.linkTraining (s : State) (l : Nat) : Bool := decide (1 ≤ s.linkState l) && decide (s.linkState l ≤ 4)

/-- Is a link as it stays after training: ACTIVE, DOWN, or kept in RESET by an invalid strap (11 R407, R412)? -/
def State.linkSettled (s : State) (l : Nat) : Bool :=
  let e := linkEnds l
  s.linkState l == lkActive || s.linkState l == lkDown ||
    (s.linkState l == 0 && (decide (4 < s.chip.straps.getD e.1 7) || decide (4 < s.chip.straps.getD e.2 7)))

/-- CLK_TICK_SYNC of a tower: over its own link, through a neighbour, or not at all (14 R528, R529). -/
def State.tickSync (s : State) (t : Nat) : State :=
  let own := s.linkState t == lkActive
  let via := !own && (s.dieRoute 3 ioDie t).isSome
  (s.setF (Reg.clkTickSync_synced t) (b2n (own || via))).setF (Reg.clkTickSync_via_neighbour t) (b2n via)

/-- Step 3 of the exit from full reset ends when every link has settled; the towers' ticks synchronise, their logic
leaves reset, and the boot ROM may run (14 R513 steps 3 to 6). -/
def State.settleExit (s : State) : State :=
  if s.rst.phase == .exiting 3 && (List.range 8).all s.linkSettled then
    let s := [0, 1, 2, 3].foldl State.tickSync s
    { s with rst := { s.rst with phase := .out, stepAt := s.now }, boot := { s.boot with stageAt := s.now } }
  else s

/-- MBINIT to CAP of a link (11 R408, R411 to R413): the link with its modules and capabilities, or DOWN for want of a
module, by a strap that does not fit its place, or by a peer that lacks what the protocol needs. -/
def State.trainOn (s : State) (l : Nat) (peer : CapRecord) (x : TrainResult) : State × Bool :=
  let e := linkEnds l
  let me := s.caps e.1
  let s := s.trainModules l x
  if s.getF (Reg.dlkLinkStatus_modules_up l) = 0 then (s.downLink l, false)
  else
    let s := (if s.linkState l = lkRetrain then s else s.passTo l 4).agree l me peer
    if me.strap != e.1 || peer.strap != e.2 then
      (((s.setF (Reg.dlkDieId_conflict e.1) 1).setF (Reg.dlkDieId_conflict e.2) 1).downLink l, false)
    else if peer.version < 2 || !peer.keepAlive || !peer.tickSync || !peer.poisonWord then
      ((s.setF Reg.dlkStatus_cap_err 1).downLink l, false)
    else (s, true)

/-- The longest a link trains (11 R412). -/
def trainMax : Nat := ms 5

/-- DIE_LINK_TRAINED (11 R408, R411 to R413): within 5 ms, else the link is DOWN. -/
def execDieLinkTrained (l : Link) (peer : CapRecord) (train : TrainResult) (s : State) :
    Host.Outcome State Fault Refusal :=
  if !s.linkTraining l then next s
  else if (s.link l).since + trainMax < s.now then next (s.downLink l).settleExit
  else
    let r := s.trainOn l peer train
    if !r.2 then next r.1.settleExit
    else next ((r.1.setLink l { r.1.link l with retry := Retry.reset, since := s.now }).upLink l).pump.settleExit

/-- DIE_LINK_TRAIN_TIMEOUT (11 R412). -/
def execDieLinkTrainTimeout (l : Link) (s : State) : Host.Outcome State Fault Refusal :=
  if s.linkTraining l && decide ((s.link l).since + trainMax ≤ s.now) then next (s.downLink l).settleExit
  else next s

/-- A link begins RETRAIN: counted, and a CE record (11 R417, 16 R591 kind 13). -/
def State.retrainLink (s : State) (l : Nat) : State :=
  let s := s.incSat (Reg.dlkLinkErr_retrains l) 1
  let s := s.record (mkRecord s 0 9 0xFFFF 0 13 l (s.link l).retry.expect)
  (s.setLink l { s.link l with since := s.now }).setLinkState l lkRetrain

/-- How long ack may stand still on a die link with flits outstanding (11 R417). -/
def dieStall : Nat := us 2

/-- DIE_LINK_NO_PROGRESS (11 R417): the reporting end has seen no advance of ack for 2 µs with flits outstanding, or the
far end says so. -/
def execDieLinkNoProgress (e : LinkEnd) (s : State) : Host.Outcome State Fault Refusal :=
  let l := e.link
  let r := (s.link l).retry
  if s.linkState l = lkActive && (e.far || (!r.buf.isEmpty && decide (r.ackAt + dieStall ≤ s.now))) then
    next (s.retrainLink l)
  else next s

/-- The longest a die link retrains (11 R417). -/
def dieRetrainMax : Nat := us 100

/-- DIE_LINK_RETRAIN_END (11 R411, R412, R417): MBINIT to CAP again, and within 100 µs a replay from the receiver's
expected sequence on success, else DOWN. -/
def execDieLinkRetrainEnd (l : Link) (train : Option (CapRecord × TrainResult)) (s : State) :
    Host.Outcome State Fault Refusal :=
  if s.linkState l != lkRetrain then next s
  else
    match train with
    | none => next ((s.setF (Reg.dlkLinkStatus_modules_up l) 0).downLink l)
    | some (peer, x) =>
      if (s.link l).since + dieRetrainMax < s.now then next (s.downLink l)
      else
        let r := s.trainOn l peer x
        if !r.2 then next r.1
        else
          let y := r.1.link l
          let u := r.1.setLink l { y with retry := y.retry.arrived x.expect.toNat s.now }
          next ((u.upLink l).replayDie l).pump

/-- DLK_LINK_RETRAIN (11 R423): trains from DOWN unless force_down holds it there, retrains from ACTIVE. -/
def execDlkLinkRetrain (l : Link) (s : State) : Host.Outcome State Fault Refusal :=
  if s.linkState l = lkActive then next (s.retrainLink l)
  else if s.linkState l = lkDown && !s.on (Reg.dlkLinkCtrl_force_down l) then
    next ((s.setLink l { s.link l with since := s.now }).setLinkState l lkSbinit)
  else next s

/-- FORCE_DOWN (11 R423): the sideband stays up. -/
def execForceDown (l : Link) (b : Bool) (s : State) : Host.Outcome State Fault Refusal :=
  let s := s.setF (Reg.dlkLinkCtrl_force_down l) (b2n b)
  if b && s.linkState l != lkDown && s.linkState l != 0 then next (s.downLink l) else next s

/-! ## Failover -/

/-- FAILOVER_START (11 R420): the routes of a link that is DOWN are held. -/
def execFailoverStart (l : Link) (s : State) : Host.Outcome State Fault Refusal :=
  if s.linkState l = lkDown && s.on Reg.dlkCtrl_failover_enable && s.failover.isNone then next (s.startReroute l)
  else next s

/-- FAILOVER_COMPLETE (11 R420): `late` packets are discarded, because the sideband was down or 100 µs have passed. -/
def execFailoverComplete (late : Nat) (s : State) : Host.Outcome State Fault Refusal :=
  match s.failover with
  | none => next s
  | some f =>
    let sure := late == 0 || !s.on (Reg.dlkLinkStatus_sideband_up f.link) || decide (f.since + us 100 ≤ s.now)
    if !sure then next s else next ((s.incSat (Reg.dlkLinkErr_discarded f.link) late).endReroute f)

/-! ## Flits -/

/-- What the link control of a good flit does (11 R414, R416, R417): credit of the reserved lane 3 is none. -/
def State.takeControl (s : State) (l w : Nat) : State :=
  let x := s.link l
  let r := x.retry.acknowledge (bits w 23 12) s.now
  let r := if bits w 26 25 = 3 then r else r.credited (bits w 28 25) (bits w 36 29)
  let s :=
    if !bit w 24 then s.setLink l { x with retry := r }
    else
      let r := { r with naks := r.naks + 1 }
      let s := (s.setLink l { x with retry := r }).replayDie l
      if 8 ≤ r.naks then s.retrainLink l else s
  s.pump

/-- A flit in its order is received; every 16th is acknowledged at once (11 R416). -/
def Retry.dieReceived (r : Retry) (now : Nat) : Retry :=
  let owed := r.owed + 1
  { r with
      expect := (r.expect + 1) % 4096
      nakSent := false
      owed := if 16 ≤ owed then 0 else owed
      owedAt := if r.owed = 0 then now else r.owedAt }

/-- DIE_LINK_FLIT (11 R414, R416): an idle flit has no packet bytes. A flit that fails its CRC is answered by a nak, and so
is the first that comes out of its order. -/
def execDieLinkFlit (l : Link) (flit : List Byte) (control : BitVec 64) (s : State) :
    Host.Outcome State Fault Refusal :=
  let w := control.toNat
  let nak := fun (s : State) => (s.setLink l { s.link l with retry := { (s.link l).retry with nakSent := true } }).idleDie l true
  if s.linkState l != lkActive then next s
  else if crc16 flit w != bits w 63 48 then
    next (nak ((s.incSat (Reg.dlkLinkErr_crc l) 1).record (mkRecord s 0 9 0xFFFF 0 13 l (s.link l).retry.expect)))
  else
    let s := s.takeControl l w
    let x := s.link l
    if flit.isEmpty then
      if bits w 11 0 = (x.retry.expect + 4095) % 4096 then next s else next (if x.retry.nakSent then s else nak s)
    else if bits w 11 0 != x.retry.expect then next (if x.retry.nakSent then s else nak s)
    else
      let t := s.setLink l { x with retry := x.retry.dieReceived s.now }
      next (if (t.link l).retry.owed = 0 then t.idleDie l false else t)

/-- DIE_LINK_ACK_TIMER (11 R416): an ack goes out within 8 ns. -/
def execDieLinkAckTimer (l : Link) (s : State) : Host.Outcome State Fault Refusal :=
  let x := s.link l
  if x.retry.owed != 0 && decide (x.retry.owedAt + 8 ≤ s.now) then
    next (s.idleDie l false)
  else next s

end Sys2Proof.Machine
end

