-- ==== Sys2Proof/Machine/Views.lean ====
section
/-!
DEFINITION. What a read of BAR0 returns: the stored registers, and the registers that show other state (02 R103, 05 R207,
07 R279, 08 R324 R325, 10 R367, 12 R472, R474, R475, 13 R508, R509, 14 R530, 15 R564, R565, 16 R592).
-/
namespace Sys2Proof.Machine

/-! ## Words -/

/-- The 32-bit word of a list of bytes. -/
def wordOf (bs : List Byte) (a : Nat) : Nat := fieldLE bs a 4

/-- The 32-bit word r of a wide number. -/
def nth32 (x r : Nat) : Nat := x / 2 ^ (32 * r) % 2 ^ 32

/-! ## Measurements (15 R559) -/

/-- The bytes of BOOT_YIELD. -/
def State.yieldBytes (s : State) : List Byte := (List.range siteCount).map (fun i => BitVec.ofNat 8 (s.yieldOf i))

/-- The bytes of measurement block i. The contents of the boot ROM and of the fuse map are not given: their digests are
free values. Block 3 holds svn, the floor, and the revoked image and licence slots, a byte each. -/
def State.measurement (s : State) (i : Nat) : List Byte :=
  match i with
  | 1 => (List.range 48).map (fun j => Config.freeDigest 1 0 j)
  | 2 => (s.boot.manifest.map Manifest.digest).getD (List.replicate 48 0)
  | 3 => toLE 1 ((s.boot.manifest.map Manifest.svn).getD 0) ++ toLE 1 s.chip.svnFloor ++ toLE 1 s.chip.imageRevoked ++
      toLE 1 s.chip.licRevoked
  | 4 => (List.range 48).map (fun j => Config.freeDigest 4 s.chip.serial.toNat j)
  | 5 => sha384 s.rst.optBytes
  | 6 => sha384 s.yieldBytes
  | _ => toLE 8 s.features

/-! ## The log window (16 R569, R571, R592) -/

/-- A record as its 32 bytes. -/
def recordBytes (r : Record) : List Byte :=
  toLE 1 r.cls ++ toLE 1 r.block ++ toLE 2 r.site ++ toLE 1 r.status ++ toLE 1 r.kind ++ toLE 2 r.suppressed ++
    toLE 8 r.addr ++ toLE 8 r.tick ++ toLE 8 r.detail

/-- An entry of the log. -/
def State.logEntry (s : State) (k : Nat) : Nat := (SMap.get (fun _ => (0 : BitVec 256)) s.ras.log k).toNat

/-- Entries the host has not freed. -/
def State.logCount (s : State) : Nat := (s.getF Reg.rasLogIdx_tail + 1024 - s.getF Reg.rasLogIdx_head) % 1024

/-! ## Views -/

/-- A number with bits [hi:lo] shown as another value. -/
def shown (x hi lo v : Nat) : Nat := setBits x hi lo v

/-- CHN_INFO of the selected channel (12 R475). -/
def State.chnInfo (s : State) : Nat :=
  let c := s.chan (s.getF Reg.chnSel_index)
  let st := match c.st with | .free => 0 | .live => 1 | .faulted => 2 | .destroying => 3
  c.gen + st * 2 ^ 8 + b2n c.bestEffort * 2 ^ 10 + c.domain % 256 * 2 ^ 11 + c.eq % 64 * 2 ^ 19 +
    c.cores.length % 4096 * 2 ^ 25

/-- CORE_AG of a generator as a 256-bit number. -/
def agBits (a : Ag) : Nat :=
  a.base.toNat + a.space.toNat * 2 ^ 64 + a.s0.toNat * 2 ^ 128 + a.s1.toNat * 2 ^ 160 + a.s2.toNat * 2 ^ 192

/-- The peek registers of a tile engine (05 R207). -/
def State.tlePeek (s : State) (i l : Nat) : Nat :=
  let t := (s.core i).tle
  let ix := s.getF (Reg.tlePeekSel_index i)
  let row := s.getF (Reg.tlePeekSel_row i)
  let r := (l - 0x80) / 4
  if s.on (Reg.tlePeekSel_kind i) then
    if 8 ≤ ix then 0
    else if l = 0x80 then nth32 (t.mask ix).m.toNat row
    else if l = 0x100 then b2n (t.mask ix).poison
    else 0
  else
    let x := t.tile ix
    if l < 0x100 then (x.at row r).v.toNat
    else if l = 0x100 then (List.range 32).foldl (fun n j => n + b2n (x.at row j).poison * 2 ^ j) 0
    else if l < 0x110 then 0
    else (List.range 8).foldl (fun n j => n + flagBits (x.at row (8 * ((l - 0x110) / 4) + j)).flags * 2 ^ (4 * j)) 0

/-- The entries of the prefix directory in a state. -/
def State.pfxIn (s : State) (st : Nat) : Nat := (s.pfx.entries.filter (fun e => peState e.2.toNat == st)).length

/-- GLB_ERR.link_down: any die link DOWN. -/
def State.anyLinkDown (s : State) : Bool := (List.range 8).any (fun l => s.getF (Reg.dlkLinkStatus_state l) == lkDown)

/-- GLB_ERR.fabric_degraded: any enabled fabric port DEAD or NO_LIGHT. -/
def State.fabricDegraded (s : State) : Bool :=
  (List.range 4).any (fun t => (List.range 32).any (fun p => s.on (Reg.optPortCtrl_enable t p) &&
    (s.portState t p == ptDead || s.portState t p == ptNoLight)))

/-- A sensor by its die, as PTM_SENSOR_SEL selects it. -/
def State.selSensor (s : State) : Sensor := s.sensor (s.getF Reg.ptmSensorSel_die) (s.getF Reg.ptmSensorSel_index)

/-- The age of PTM_COOLANT in units of 10 ms (13 R508). -/
def State.coolantAge (s : State) : Nat :=
  match s.power.coolantAt with
  | none => 255
  | some t => Nat.min 255 ((s.now - t) / ms 10)

/-- The core voltage target in force: the fused one until the manager sets another (13 R505, R509). -/
def State.vcoreNow (s : State) (t : Nat) : Nat :=
  if s.getF (Reg.ptmTVcore_target_mv t) = 0 then s.chip.vcoreFuse.getD t 0 else s.getF (Reg.ptmTVcore_target_mv t)

/-- The words that show other state than the stored registers, at an offset of a block; the stored word is given. -/
def State.viewWord (s : State) (b : RegBlock) (i l w : Nat) : Nat :=
  match b with
  | .glb =>
    if l = 0 then shown (shown w 19 16 (if s.chip.w2 then 2 else 1)) 23 20 s.chip.stepping
    else if l = 0x8 ∨ l = 0xC then nth32 s.chip.serial.toNat ((l - 8) / 4)
    else if l = 0x18 ∨ l = 0x1C then nth32 s.now ((l - 0x18) / 4)
    else if l = 0x28 then shown (shown w 1 1 (b2n s.anyLinkDown)) 2 2 (b2n s.fabricDegraded)
    else w
  | .cmp =>
    let g := s.getF Reg.glbState_state
    if l = 0 then
      b2n (decide (1 ≤ g ∧ g ≤ 3)) + (s.started.filter (fun c => c.done == none)).length % 128 * 2 ^ 8
    else if l = 4 then (s.chans.filter (fun c => c.2.st == .live || c.2.st == .faulted)).length
    else w
  | .chn =>
    if l = 8 ∨ l = 0xC then nth32 s.chnInfo ((l - 8) / 4)
    else if 0x100 ≤ l ∧ l < 0x2100 then
      let c := s.getF Reg.chnSel_index
      if (s.chan c).st = .free then 0 else nth32 (s.window c ((l - 0x100) / 32)).desc.toNat (l % 32 / 4)
    else w
  | .pfx =>
    if l = 4 then
      s.pfxIn pfxLive + b2n (!s.pfx.reclaim.isEmpty) * 2 ^ 19 + b2n (s.licensed licDomain) * 2 ^ 20 +
        Nat.min 64 s.pfx.queue.length * 2 ^ 21
    else if 0x48 ≤ l ∧ l < 0x68 then nth32 (s.pfx.entry (s.getF Reg.pfxEntrySel_index)) ((l - 0x48) / 4)
    else if l = 0x80 then
      match s.pfx.reclaim with
      | [] => 0
      | e :: _ => e + 2 ^ 31
    else w
  | .ptm =>
    if l = 0x18 then shown w 31 24 s.coolantAge
    else if l = 0x2C then wrap 12 s.selSensor.value + b2n s.selSensor.broken * 2 ^ 12
    else w
  | .ptmt =>
    if 0x10 ≤ l ∧ l < 0x20 then
      (List.range 32).foldl (fun n j => n + b2n (s.sensor i (8 * (l - 0x10) + j)).broken * 2 ^ j) 0
    else if l = 0x24 then shown (shown w 31 16 (s.chip.vcoreFuse.getD i 0)) 15 0 (s.vcoreNow i)
    else w
  | .rst =>
    if l = 0x8000 then
      let busy := s.rst.unlocked.any (fun k => if k < 8 then s.getF (Reg.dlkLinkStatus_state k) == 6
        else s.portState ((k - 8) / 32) ((k - 8) % 32) == ptRetrain)
      if busy then shown w 2 2 0 else w
    else if 0x10000 ≤ l ∧ l < 0x20000 then wordOf (s.retBytes (l - 0x10000) 4) 0
    else if 0x20000 ≤ l ∧ l < 0x20200 then wordOf s.rst.optBytes (l - 0x20000)
    else w
  | .sec =>
    if l = 0 then shown (shown (shown w 5 0 s.chip.svnFloor) 11 8 s.chip.imageRevoked) 13 12 s.chip.licRevoked
    else if 0x140 ≤ l ∧ l < 0x300 then wordOf (s.measurement (l / 0x40 - 4)) (l % 0x40)
    else w
  | .lic => if l = 0 then shown w 3 0 s.features else w
  | .ras =>
    if l = 0 then shown w 10 0 s.logCount
    else if 0x10000 ≤ l ∧ l < 0x18000 then nth32 (s.logEntry ((l - 0x10000) / 32)) (l % 32 / 4)
    else w
  | .core =>
    if 0x200 ≤ l ∧ l < 0x400 then
      if s.coreState i = csRunning then 0 else nth32 (agBits ((s.core i).ag ((l - 0x200) / 32))) (l % 32 / 4)
    else w
  | .tle =>
    if 0x80 ≤ l ∧ l < 0x120 then (if s.coreState i = csRunning then 0 else s.tlePeek i l) else w
  | .vlt =>
    if l = 0 then i + b2n (s.coreOn i) * 2 ^ 12
    else if l = 0xC then
      let ls := (List.range 8).map (s.layerLive i)
      shown (shown w 6 6 (b2n (ls.any Layer.hot))) 8 7 (ls.foldl (fun m y => Nat.max m y.src) 0)
    else if l = 0x18 then
      let ls := (List.range 8).map (s.layerLive i)
      let k := hottestLayer ls
      let y := ls.getD k Layer.zero
      y.trefw % 2 ^ 16 + (y.temp / 8).toNat % 2 ^ 8 * 2 ^ 16 + k * 2 ^ 24
    else w
  | .opt =>
    if l < 0x400 ∧ l % 0x20 = 8 ∧ !bit s.usablePorts (l / 0x20) then shown w 2 0 ptAbsent else w
  | .sq => if l = 8 then shown w 18 18 (b2n (s.popWaits i)) else w
  | .kvx =>
    if l = 4 then
      let r := (s.core i).kvRun.length
      let q := (s.core i).kvq.length
      r % 2 ^ 3 + q % 2 ^ 4 * 2 ^ 3 + b2n (r + q != 0) * 2 ^ 7
    else w
  | .bku =>
    if 0x40 ≤ l ∧ l < 0x60 then
      let k := (l - 0x40) / 4
      (List.range 32).foldl (fun n j =>
        n + b2n ((s.vault i).latchValid.contains (2 * (32 * (k % 4) + j) + k / 4)) * 2 ^ j) 0
    else w
  | .sky =>
    if 0x1000 ≤ l ∧ l < 0xA000 ∧ l % 8 = 4 then
      shown w 31 24 (Nat.min 255 (s.outstanding i (towerBase i + 0xC00000 + (l - 4))))
    else if l = 8 then shown w 0 0 (b2n (s.licensed licFabric))
    else w
  | _ => w

/-- The bits of a register that a read shows: write-only fields read 0 (00 R13). -/
def readMask (d : RegDesc) (v : Nat) : Nat :=
  d.fields.foldl (fun v f => if f.ty = .wo then setBits v f.hi f.lo 0 else v) v

/-- Does an offset hold no register because the core of its site is absent (02 R103)? The site window then holds
CORE_ID, and the VLT and BKU blocks (06 R250, 07 R279). -/
def State.absentAt (s : State) (b : RegBlock) (i l : Nat) : Bool :=
  match b with
  | .core => l != 0 && !s.coreOn i
  | .mxa => !s.coreOn i
  | .tle => !s.coreOn i
  | .kvx => !s.coreOn i
  | .sq => !s.coreOn i
  | _ => false

/-- The 32-bit word a read of an aligned BAR0 offset returns; offsets without a register return 0 (00 R17). -/
def State.regWord (s : State) (a : Nat) : Nat :=
  match barLocate a with
  | none => 0
  | some (b, i, l) =>
    if s.absentAt b i l then 0
    else
    let w := match findReg b.regs l with
      | some (d, r, _) => nth32 (readMask d (s.reg (a - r)).toNat) (r / 4)
      | none => 0
    s.viewWord b i l w

/-- The bytes of a run of registers. -/
def State.regBytes (s : State) (a n : Nat) : List Byte :=
  (List.range (n / 4)).flatMap (fun k => toLE 4 (s.regWord (a + 4 * k)))

end Sys2Proof.Machine
end

