-- ==== Sys2Proof/Machine/Ras.lean ====
section
/-!
DEFINITION. Errors and ordered recovery (chapter 16): the record log (R571 to R575), the wedged device (R583, R584), and
the crash record (R585 to R587).
-/
namespace Sys2Proof.Machine

/-! ## The record log -/

/-- The die of a record: T0 to T3, then the I/O die (16 R569, R573). -/
def Record.die (r : Record) : Nat :=
  if r.site < siteCount then towerOf r.site else if r.site = 0xFFFF then 4 else r.site - 0xF000

/-- Does a record precede another of the same cycle (16 R573)? -/
def Record.before (a b : Record) : Bool :=
  decide (a.die < b.die) || (a.die == b.die && (decide (a.site < b.site) || (a.site == b.site && decide (a.block < b.block))))

/-- The place of the record to log next: the first by R573 among those of the cycle of the first. -/
def nextRecord : Nat → Nat → Record → List Record → Nat
  | _, best, _, [] => best
  | k, best, b, r :: rs =>
    if r.tick != b.tick then best
    else if r.before b then nextRecord (k + 1) k r rs else nextRecord (k + 1) best b rs

/-- The window of a CE record (16 R574). -/
def State.ceWindow (s : State) (tick_ : Nat) : Nat := tick_ / ms (Nat.max 1 (s.getF Reg.rasCtrl_ce_interval_ms))

/-- The source of a CE record (16 R574). -/
def Record.source (r : Record) : Nat := r.block * 65536 + r.site

/-- Is an entry a CE record? -/
def ceEntry (e : Nat) : Bool := bits e 7 0 == 0

/-- The oldest CE entry that the host has not freed (16 R572). -/
def State.oldestCe (s : State) : Option Nat :=
  ((List.range s.logCount).map (fun j => (s.getF Reg.rasLogIdx_head + j) % 1024)).find? (fun k => ceEntry (s.logEntry k))

/-- Stores an entry of the log. -/
def State.putLog (s : State) (k : Nat) (r : Record) : State :=
  { s with ras := { s.ras with
      log := SMap.put (fun _ => (0 : BitVec 256)) k (BitVec.ofNat 256 (leNat (recordBytes r))) s.ras.log } }

/-- Writes a record into the log, over a CE entry, or drops it (16 R571, R572). -/
def State.logRecord (s : State) (r : Record) : State :=
  let tail := s.getF Reg.rasLogIdx_tail
  if s.logCount < 1023 then (s.putLog tail r).setF Reg.rasLogIdx_tail ((tail + 1) % 1024)
  else
    match (if r.cls = 0 then none else s.oldestCe) with
    | some k => s.putLog k r
    | none => s.incSat Reg.rasStatus_lost 1

/-- The counter of a class (16 R592). -/
def classCount (c : Nat) : Fld :=
  match c with
  | 0 => Reg.rasCount_ce
  | 1 => Reg.rasCount_degraded
  | 2 => Reg.rasCount_deferred
  | 3 => Reg.rasCount_contained
  | _ => Reg.rasCount_fatal

/-- What a record of a class raises (16 R575). -/
def State.raiseRecord (s : State) (c : Nat) : State :=
  let s := if 2 ≤ c then s.setF Reg.glbErr_uncorrected 1 else s
  if c = 0 then s
  else
    let s := s.setF Reg.rasStatus_pending 1
    let due := match s.ras.vecAt with
      | none => true
      | some t => decide (t + ms 1 ≤ s.now)
    if due then { s with ras := { s.ras with vecAt := some s.now } }.emit (.msix 0) else s

/-- A record that has reached the RAS block. A CE record is logged once per window of its source; the errors withheld
are counted in its next (16 R574). -/
def State.takeRecord (s : State) (r : Record) : State :=
  if r.cls != 0 then ((s.logRecord r).incSat (classCount r.cls) 1).raiseRecord r.cls
  else
    let w := SMap.get (fun _ => (0, 0)) s.ras.ceWin r.source
    let put := fun (x : Nat × Nat) =>
      { s with ras := { s.ras with ceWin := SMap.put (fun _ => (0, 0)) r.source x s.ras.ceWin } }
    if w.1 = s.ceWindow r.tick + 1 then put (w.1, Nat.min 65535 (w.2 + 1))
    else ((put (s.ceWindow r.tick + 1, 0)).logRecord { r with suppressed := w.2 }).incSat (classCount 0) 1

/-- ERROR_RECORD (16 R571 to R575). -/
def execErrorRecord (s : State) : Host.Outcome State Fault Refusal :=
  match s.records with
  | [] => next s
  | r :: rs =>
    let k := nextRecord 1 0 r rs
    next ({ s with records := dropAt s.records k }.takeRecord (s.records.getD k r))

/-! ## The crash record -/

/-- Causes (16 R586). -/
def crWatchdog : Nat := 1
/-- Management ECC. -/
def crEcc : Nat := 2
/-- Tower trip. -/
def crTrip : Nat := 3
/-- Firmware panic. -/
def crPanic : Nat := 4

/-- The crash magic (16 R586). -/
def crashMagic : Nat := 0x43525348

/-- The header's fields before its CRC (16 R586). -/
def State.crashHead (s : State) (tick_ cause detail writer cores later : Nat) : List Byte :=
  toLE 4 crashMagic ++ toLE 1 1 ++ toLE 1 cause ++ toLE 1 writer ++ toLE 1 cores ++ toLE 8 tick_ ++
    toLE 8 ((s.boot.manifest.map Manifest.version).getD 0) ++ toLE 2 (s.getF Reg.rstCause_full_resets) ++ toLE 2 later ++
    toLE 4 detail ++ List.replicate 28 0

/-- Writes a header with its CRC. -/
def State.putCrashHead (s : State) (head : List Byte) : State := s.retWrite 0 (head ++ toLE 4 (crc32 head))

/-- PTM_T_STATE and PTM_T_TRIP of the towers (16 R586). -/
def State.crashTowers (s : State) : List Byte :=
  [0, 1, 2, 3].flatMap (fun t =>
    toLE 4 (s.regWord (towerBase t + 0xC20000)) ++ toLE 4 (s.regWord (towerBase t + 0xC20028)))

/-- The last 64 log entries, the oldest first (16 R586). -/
def State.crashLog (s : State) : List Byte :=
  (List.range 64).flatMap (fun j => toLE 32 (s.logEntry ((s.getF Reg.rasLogIdx_tail + 1024 - 64 + j) % 1024)))

/-- The hardware capture after the header (16 R586). -/
def State.crashCapture (s : State) : State :=
  let s' := s.retWrite 0x40 (s.regBytes 0 64 ++ s.crashTowers ++ s.regBytes 0x00600000 64)
  s'.retWrite 0x2400 s.crashLog

/-- A crash record is written: the first one stays, and a later crash only counts (16 R585 to R587). `cores` are the
management cores that wrote their section. -/
def State.writeCrash (s : State) (tick_ cause detail writer cores : Nat) : State :=
  if s.on Reg.rstRetCtrl_crash_lock then
    let h := s.retBytes 0 60
    let s := s.retNote 0 60
    let n := Nat.min 65535 (fieldLE h 0x1A 2 + 1)
    s.putCrashHead (h.take 0x1A ++ toLE 2 n ++ h.drop 0x1C)
  else
    let s := (s.putCrashHead (s.crashHead tick_ cause detail writer cores 0)).crashCapture
    (s.setF Reg.rstRetCtrl_crash_lock 1).setF Reg.glbState_crash_record 1

/-- Bytes of a management core's section (16 R586). -/
def sectionBytes : Nat := 2048

/-- The management cores that wrote their section, a bit each. -/
def crashCores (h : CrashWork) : Nat :=
  (List.range 4).foldl (fun n c => n + b2n ((h.sections[c]?).getD none).isSome * 2 ^ c) 0

/-- The sections that the management cores write (16 R586). -/
def State.putSections (s : State) (h : CrashWork) : State :=
  (List.range 4).foldl (fun s c => match (h.sections[c]?).getD none with
    | some bs => s.retWrite (0x400 + sectionBytes * c) (bs.take sectionBytes)
    | none => s) s

/-- The crash handler is entered (16 R585): the cores write their sections and core 0 the header; where it does not, the
hardware writer is due. The record of an earlier crash stays. -/
def State.crash (s : State) (cause detail : Nat) (h : CrashWork) : State :=
  let s := if s.on Reg.rstRetCtrl_crash_lock then s else s.putSections h
  if h.header then s.writeCrash s.now cause detail 0 (crashCores h)
  else { s with ras := { s.ras with crashes := s.ras.crashes ++ [(s.now, cause, detail, (crashCores h))] } }

/-- A tower trip enters the crash handler (16 R585): the firmware's record is written at once, its sections free
values, and the hardware writes it where no firmware runs. -/
def State.crashTrip (s : State) (t : Nat) : State :=
  if s.fwUp then
    let f := s.freeBytes (4 * sectionBytes)
    f.1.crash crTrip t ⟨(List.range 4).map (fun c => some (slice (f.2.map Prod.fst) (sectionBytes * c) sectionBytes)), true⟩
  else s.crash crTrip t ⟨[], false⟩

/-- The handler's work where the management SRAM has failed: which cores write their section, what they write and whether
core 0 writes the header are free values (16 R585). -/
def State.freeWork (s : State) : State × CrashWork :=
  let f := s.freeBytes (4 * sectionBytes)
  let n := Config.freeNat f.1.fresh
  (f.1.bump 1, ⟨(List.range 4).map (fun c =>
    if bit n c then some (slice (f.2.map Prod.fst) (sectionBytes * c) sectionBytes) else none), bit n 4⟩)

/-- CRASH_WRITER_TIMEOUT (16 R585). -/
def execCrashWriterTimeout (s : State) : Host.Outcome State Fault Refusal :=
  match s.ras.crashes with
  | [] => next s
  | (at_, cause, detail, cores) :: rest =>
    if s.now < at_ + ms 1 then next s
    else next ({ s with ras := { s.ras with crashes := rest } }.writeCrash at_ cause detail 1 cores)

/-- CRASH_RELEASE (16 R587). -/
def execCrashRelease (s : State) : Host.Outcome State Fault Refusal :=
  next (((s.retWrite 0 [0, 0, 0, 0]).setF Reg.rstRetCtrl_crash_lock 0).setF Reg.glbState_crash_record 0)

/-- FIRMWARE_PANIC (16 R585, R586): the handler writes the record, and the device goes on. -/
def execFirmwarePanic (h : CrashWork) (s : State) : Host.Outcome State Fault Refusal :=
  if s.fwUp then next (s.crash crPanic 0 h) else next s

/-! ## The wedged device -/

/-- The device wedges (16 R584): a FATAL record, vector 0, and the crash handler. -/
def State.wedge (s : State) (block kind cause detail : Nat) (h : CrashWork) : State :=
  let s := s.record (mkRecord s 4 block 0xFFFF 0 kind detail 0)
  if s.wedged then s
  else
    ((s.setF Reg.glbState_state gsWedged).emit (.msix 0)).crash cause detail h

/-- WATCHDOG_EXPIRE (16 R583): an armed injection of the core's watchdog is used up (R591 kind 25). -/
def execWatchdogExpire (x : WatchdogExpiry) (s : State) : Host.Outcome State Fault Refusal :=
  if !s.fwUp then next s
  else
    let c := x.core
    let armed := s.on Reg.rasInject_arm && s.getF Reg.rasInject_kind == 10 && s.getF Reg.rasInject_index % 4 == c.val
    let s := if armed then s.usedInject else s
    let m := s.getF Reg.rasWdog_expired
    let m := if bit m c then m else m + 2 ^ c.val
    next ((s.setF Reg.rasWdog_expired m).wedge 17 25 crWatchdog m x.work)

/-- MGMT_SRAM_UNCORRECTABLE (16 R583): an armed injection of kind 7 is used up (R591 kind 22). -/
def execMgmtSramUncorrectable (s : State) : Host.Outcome State Fault Refusal :=
  if !s.fwUp then next s
  else
    let s := if s.on Reg.rasInject_arm && s.getF Reg.rasInject_kind == 7 then s.usedInject else s
    let f := s.freeWork
    next ((f.1.setF Reg.rasWdog_mgmt_ecc 1).wedge 16 22 crEcc 0 f.2)

end Sys2Proof.Machine
end

