-- ==== Sys2Proof/Machine/Power.lean ====
section
/-!
DEFINITION. Power, temperature and cooling (chapter 13, 18 R613, R620, R621): sensors and hot spots, levels, duties and
issue gates, Storm and the hardware trip, the rate detector, forecasts, the power cap, keep-warm, coolant, rails and the
heartbeat; THERMAL_PROFILE (12 R466). Temperatures are in 0.125 degrees, power in 0.1 mW.
-/
namespace Sys2Proof.Machine

/-! ## Sensors and hot spots (13 R477, R480 to R484) -/

/-- Stores a sensor. -/
def State.setSensor (s : State) (die k : Nat) (x : Sensor) : State :=
  { s with sensors := SMap.put (fun _ => Sensor.reset) (128 * die + k) x s.sensors }

/-- Sensors of a die (13 R477): tower, I/O die, optical engines. -/
def sensorCount (die : Nat) : Nat := if die < 4 then 128 else if die = 4 then 16 else if die = 5 then 64 else 0

/-- Hot spots of the package: 64 a tower, 8 of the I/O die, 32 optical. -/
def hotKeys : List Nat := List.range 296

/-- The die of a hot spot: a tower, 4 the I/O die, 5 the optical engines. -/
def hotDie (k : Nat) : Nat := if k < 256 then k / 64 else if k < 264 then 4 else 5

/-- The lower sensor of a hot spot's pair (13 R477). -/
def hotSensor (k : Nat) : Nat := if k < 256 then 2 * (k % 64) else if k < 264 then 2 * (k - 256) else 2 * (k - 264)

/-- The towers whose level a hot spot raises (13 R484): an optical engine, that of its tower. -/
def hotTowers (k : Nat) : List Nat :=
  if k < 256 then [k / 64] else if k < 264 then [0, 1, 2, 3] else [(k - 264) / 8]

/-- The hot spots that raise a tower. -/
def hotOf (t : Nat) : List Nat :=
  (List.range 64).map (fun j => 64 * t + j) ++ (List.range 8).map (fun j => 256 + j) ++
    (List.range 8).map (fun j => 264 + 8 * t + j)

/-- Is a hot spot a logic block? -/
def hotLogic (k : Nat) : Bool := decide (k < 256) && decide (k % 64 < 32)
/-- Is it a DRAM quadrant? -/
def hotDram (k : Nat) : Bool := decide (k < 256) && decide (32 ≤ k % 64)

/-- The threshold of a hot spot's kind for level 1 to 3, and 4 the trip (13 R484). -/
def hotThreshold (k l : Nat) : Option Int :=
  let row := if hotDram k then [none, some 95, some 100, some 105]
    else if k < 264 then [some 88, some 95, some 105, some 110] else [none, some 80, some 90, some 95]
  ((row.getD (l - 1) none).map (fun (x : Int) => 8 * x))

/-- The hysteresis (13 R484). -/
def hysteresis : Int := 24

/-- The pair of sensors of a hot spot. -/
def State.hotPair (s : State) (k : Nat) : Sensor × Sensor :=
  (s.sensor (hotDie k) (hotSensor k), s.sensor (hotDie k) (hotSensor k + 1))

/-- The measured value m of a hot spot: the higher working reading, none when both sensors are broken (13 R481 to
R483). -/
def State.hotVal (s : State) (k : Nat) : Option Int :=
  let p := s.hotPair k
  match p.1.broken, p.2.broken with
  | false, false => some (max p.1.value p.2.value)
  | false, true => some p.1.value
  | true, false => some p.2.value
  | true, true => none

/-- Is exactly one sensor of a hot spot broken (13 R482)? -/
def State.halfBlind (s : State) (k : Nat) : Bool := (s.hotPair k).1.broken != (s.hotPair k).2.broken

/-- A hot spot's history. -/
def State.hotSpot (s : State) (k : Nat) : HotSpot := SMap.get (fun _ => HotSpot.reset) s.hot k

/-- Stores a hot spot's history. -/
def State.setHotSpot (s : State) (k : Nat) (x : HotSpot) : State :=
  { s with hot := SMap.put (fun _ => HotSpot.reset) k x s.hot }

/-- Do the forecasts run (13 R495)? -/
def State.forecasting (s : State) : Bool := s.on Reg.ptmStatus_forecast_running && !s.on Reg.ptmStatus_fw_fallback

/-- The forecast f of a hot spot: its last, m + 4 degrees where the model is degraded (13 R494) or none runs (R495). -/
def State.hotForecast (s : State) (k : Nat) (m : Int) : Int :=
  let x := s.hotSpot k
  if !s.forecasting || x.degraded then m + 32 else x.forecasts.headD (m + 32)

/-- The hot spot of a zone of a tower (13 R477, PTM_T_ZONE). -/
def zoneHot (t z : Nat) : Nat :=
  if z < 32 then 64 * t + z
  else
    let l := (z - 32) / 8
    let j := (z - 32) % 8
    64 * t + 32 + 4 * l + j / 4 * 2 + j % 4 / 2

/-- A 12-bit temperature field. -/
def temp12 (x : Int) : Nat := wrap 12 x

/-! ## Levels (13 R485 to R490) -/

/-- PTM_T_STATE.level of a tower. -/
def State.level (s : State) (t : Nat) : Nat := s.getF (Reg.ptmTState_level t)

/-- LATENCY ceiling of a level (13 R486). -/
def latCeiling (l : Nat) : Nat := [16, 16, 8, 0].getD l 0
/-- BEST_EFFORT ceiling of a level. -/
def beCeiling (l : Nat) : Nat := [16, 8, 4, 0].getD l 0
/-- Bank-unit budget of a level. -/
def levelBudget (l : Nat) : Nat := [12000, 6000, 3000, 0].getD l 0

/-- Is the logic block of a tower held to Overcast by a broken sensor (13 R482)? -/
def State.blockHeld (s : State) (t b : Nat) : Bool := s.halfBlind (64 * t + b)

/-- Is the quadrant of any layer of a tower so held? -/
def State.quadHeld (s : State) (t q : Nat) : Bool :=
  (List.range 8).any (fun l => s.halfBlind (64 * t + 32 + 4 * l + q))

/-- The level that holds in a zone of a tower (13 R482). -/
def State.zoneLevel (s : State) (t z : Nat) : Nat :=
  if s.halfBlind (zoneHot t z) then Nat.max 2 (s.level t) else s.level t

/-- The level that bounds the bank units of a vault. -/
def State.vaultLevel (s : State) (i : Nat) : Nat :=
  let t := towerOf i
  if s.blockHeld t (blockOf i) || s.quadHeld t (i % 576 / 24 / 12 * 2 + i % 24 / 12) then Nat.max 2 (s.level t)
  else s.level t

/-- PTM_T_ZONE.level and the bank-unit budgets of a tower (13 R486); nothing to do when no zone changed. -/
def State.showZones (s : State) (t : Nat) : State :=
  let zs := (List.range 96).filter (fun z => s.getF (Reg.ptmTZone_level t z) != s.zoneLevel t z)
  if zs.isEmpty then s
  else
    let s := zs.foldl (fun s z => s.setF (Reg.ptmTZone_level t z) (s.zoneLevel t z)) s
    (List.range 576).foldl (fun s j =>
      let b := levelBudget (s.vaultLevel (576 * t + j))
      if s.getF (Reg.bkuBudget_budget (576 * t + j)) = b then s else s.setF (Reg.bkuBudget_budget (576 * t + j)) b) s

/-- Sets a tower's ceilings, and lowers duties to them (13 R486). -/
def State.setCeilings (s : State) (t : Nat) : State :=
  let lat := latCeiling (s.level t)
  let be := Nat.min (beCeiling (s.level t)) (s.tpwr t).beCeiling
  let s := (s.setF (Reg.ptmTDuty_lat_ceiling t) lat).setF (Reg.ptmTDuty_be_ceiling t) be
  let s := s.setF (Reg.ptmTDuty_lat_duty t) (Nat.min lat (s.getF (Reg.ptmTDuty_lat_duty t)))
  s.setF (Reg.ptmTDuty_be_duty t) (Nat.min be (s.getF (Reg.ptmTDuty_be_duty t)))

/-- Sets both duties of a tower, within its ceilings. -/
def State.setDuties (s : State) (t lat be : Nat) : State :=
  let s := s.setF (Reg.ptmTDuty_lat_duty t) (Nat.min lat (s.getF (Reg.ptmTDuty_lat_ceiling t)))
  s.setF (Reg.ptmTDuty_be_duty t) (Nat.min be (s.getF (Reg.ptmTDuty_be_ceiling t)))

/-- An error record of the power manager about a tower (16 R569, R570). -/
def State.ptmRecord (s : State) (cls site kind addr : Nat) : State := s.record (mkRecord s cls 13 site 0 kind addr 0)

/-- A tower enters Storm (13 R489); the gates close with the level. -/
def State.enterStorm (s : State) (t : Nat) : State :=
  let s := (s.setF (Reg.ptmTState_quiesce_done t) 0).setF (Reg.ptmTState_held t) 1
  (s.setTpwr t { s.tpwr t with stormAt := s.now }).ptmRecord 1 (0xF000 + t) 16 t

/-- A tower leaves Storm: its vaults refresh in bands for 10 ms (06 R230), and issue starts from the lowest duty
(13 R486, R498), or from the duties of Overcast where the hardware holds the level (R507). -/
def State.leaveStorm (s : State) (t : Nat) : State :=
  let s := s.setF (Reg.ptmTState_held t) 0
  let s := (List.range 576).foldl (fun s j =>
    s.setVault (576 * t + j) { s.vault (576 * t + j) with bandUntil := s.now + ms 10 }) s
  if s.on Reg.glbState_fw_alive then s.setDuties t 1 1 else s.setDuties t 8 4

/-- A tower changes its level: registers, ceilings, budgets, vector 0 (12 R425), the in-band interrupt (18 R620). -/
def State.setLevel (s : State) (t l cause : Nat) : State :=
  let old := s.level t
  let s := (s.setF (Reg.ptmTState_level t) l).setF (Reg.ptmTState_cause t) cause
  let s := s.setF ⟨Reg.glbState_thermal.off, 9 + 2 * t, 8 + 2 * t⟩ l
  let s := s.setTpwr t { s.tpwr t with since := s.now }
  let s := (s.setCeilings t).showZones t
  let s := if l = 3 then s.enterStorm t else if old = 3 then s.leaveStorm t else s
  (s.emit (.msix 0)).inBand

/-- The request of a hot spot and its cause (13 R483, R485): m up to Storm, f up to Overcast. -/
def State.hotRequest (s : State) (k : Nat) : Nat × Nat :=
  let io := decide (256 ≤ k) && decide (k < 264)
  match s.hotVal k with
  | none => (3, if io then 5 else 4)
  | some m =>
    let f := if s.forecasting then s.hotForecast k m else m
    let atOr := fun (x : Int) (l : Nat) => match hotThreshold k l with
      | some th => decide (th ≤ x)
      | none => false
    if atOr m 3 then (3, if io then 5 else 1)
    else if atOr m 2 then (2, if io then 5 else 1)
    else if atOr f 2 then (2, if io then 5 else 2)
    else if atOr m 1 then (1, if io then 5 else 1)
    else if atOr f 1 then (1, if io then 5 else 2)
    else (0, 0)

/-- Is PTM_COOLANT fresh (13 R502)? -/
def State.coolantFresh (s : State) : Bool := s.power.coolantAt.isSome && !s.on Reg.ptmStatus_coolant_stale

/-- The greater of two requests; at one level the first stands. -/
def stronger (a b : Nat × Nat) : Nat × Nat := if a.1 < b.1 then b else a

/-- The highest request for a tower and its cause (13 R485, R492, R502, R503, R507). -/
def State.levelRequest (s : State) (t : Nat) : Nat × Nat :=
  let r := (hotOf t).foldl (fun r k => stronger r (s.hotRequest k)) (0, 0)
  let r := stronger r ((s.tpwr t).detector, 3)
  let r := if s.coolantFresh && decide (s.getF Reg.ptmCoolant_flow < 100) then stronger r (2, 6) else r
  let r := if s.on Reg.ptmStatus_flow_suspect then stronger r (1, 6) else r
  if s.on Reg.glbState_fw_alive then r else stronger r (2, 7)

/-- Are m and f of every hot spot of a tower below a level's threshold less the hysteresis (13 R485)? -/
def State.cooled (s : State) (t l : Nat) : Bool :=
  (hotOf t).all (fun k => match s.hotVal k, hotThreshold k l with
    | some m, some th => decide (max m (s.hotForecast k m) < th - hysteresis)
    | none, _ => false
    | _, none => true)

/-- The level of a tower as its requests are now: a rise at once, or a fall by one (13 R485). -/
def State.relevel (s : State) (t : Nat) : State :=
  let s := s.showZones t
  let r := s.levelRequest t
  let l := s.level t
  if s.on (Reg.ptmTState_tripped t) then (if l = 3 then s else s.setLevel t 3 1)
  else if l < r.1 then s.setLevel t r.1 r.2
  else if 0 < l && decide (r.1 < l) && decide ((s.tpwr t).since + ms 1 ≤ s.now) && s.cooled t l &&
      (l != 3 || s.on (Reg.ptmTState_quiesce_done t)) then s.setLevel t (l - 1) r.2
  else s

/-- Every tower's level. -/
def State.relevelAll (s : State) : State := [0, 1, 2, 3].foldl State.relevel s

/-- The hardware trip of a tower (13 R490, 18 R613): its VCORE is cut, its die links go DOWN, and its crash record is
due; a dry trip is only recorded (R508). -/
def State.trip (s : State) (t cause sensor : Nat) : State :=
  let put := fun (s : State) (c : Nat) =>
    ((s.setF (Reg.ptmTTrip_cause t) c).setF (Reg.ptmTTrip_sensor t) sensor).setF (Reg.ptmTTrip_valid t) 1
  if s.on (Reg.ptmTState_tripped t) then s
  else if s.on Reg.ptmInject_trip_dry && s.getF Reg.ptmInject_tsel == t then
    (put s 3).setF Reg.ptmInject_trip_dry 0
  else
    let s := (put s cause).setF (Reg.ptmTState_tripped t) 1
    let s := { s with rst := { s.rst with vcoreEn := s.rst.vcoreEn.set t false } }
    let s := s.setF (Reg.ptmTKeepwarm_on t) 0
    let s := [t, 4 + t, 4 + (t + 3) % 4].foldl (fun s l =>
      if s.getF (Reg.dlkLinkStatus_state l) = lkDown then s else s.downLink l) s
    ((s.ptmRecord 4 (0xF000 + t) 16 t).crashTrip t).relevel t

/-- Does the device pull ALERT_N low (18 R621)? -/
def State.alertLow (s : State) : Bool :=
  [0, 1, 2, 3].any (fun t => s.level t == 3 || s.on (Reg.ptmTState_tripped t)) || s.wedged ||
    s.on Reg.ptmStatus_flow_suspect

/-! ## Samples (13 R478 to R483, R490, R492) -/

/-- The site field of a sensor's record: its tower, or the I/O die's code. -/
def sensorSite (die : Nat) : Nat := if die < 4 then 0xF000 + die else 0xFFFF

/-- A sensor is declared broken (13 R480, 16 R591 kind 15). -/
def State.breakSensor (s : State) (die k : Nat) : State :=
  let x := s.rawSensor die k
  if x.broken then s
  else (s.setSensor die k { x with broken := true }).ptmRecord 1 (sensorSite die) 15 k

/-- One sensor's new sample, an injected offset added (13 R480, R508). -/
def State.sampleOne (s : State) (die k : Nat) (r : Int) : State :=
  let v := if s.on Reg.ptmInject_offset_en && s.sensorSelected die k then
      r + 8 * sext 8 (s.getF Reg.ptmInject_offset) else r
  let s := s.setSensor die k { s.rawSensor die k with value := v, at_ := s.now }
  if v < -160 ∨ 1200 ≤ v then s.breakSensor die k else s

/-- The pair of a hot spot agrees or not (13 R481): one record at the onset, another only after 1 s of agreement. -/
def State.pairAgrees (s : State) (k : Nat) : State :=
  let p := s.hotPair k
  let x := s.hotSpot k
  if p.1.broken || p.2.broken then s
  else
    let d := (p.1.value - p.2.value).natAbs
    if 32 < d then
      if x.disagree && decide (x.agreeSince = 0 ∨ s.now < x.agreeSince + ms 1000) then
        if x.agreeSince = 0 then s else s.setHotSpot k { x with agreeSince := 0 }
      else
        let s := s.setHotSpot k { x with disagree := true, agreeSince := 0 }
        let s := s.ptmRecord 1 (sensorSite (hotDie k)) 15 (hotSensor k)
        if s.on Reg.ptmDisagree_valid then s
        else
          let s := (s.setF Reg.ptmDisagree_die (hotDie k)).setF Reg.ptmDisagree_sensor (hotSensor k)
          (s.setF Reg.ptmDisagree_diff d).setF Reg.ptmDisagree_valid 1
    else if x.disagree && x.agreeSince == 0 then s.setHotSpot k { x with agreeSince := Nat.max 1 s.now }
    else s

/-- The hardware trip on a hot spot: a working sensor reads the trip value (13 R483, R490). -/
def State.tripSpot (s : State) (k : Nat) : State :=
  let p := s.hotPair k
  match hotThreshold k 4 with
  | none => s
  | some th =>
    let at_ := fun (x : Sensor) => !x.broken && decide (th ≤ x.value)
    if at_ p.1 then (hotTowers k).foldl (fun s t => s.trip t 1 (hotSensor k)) s
    else if at_ p.2 then (hotTowers k).foldl (fun s t => s.trip t 1 (hotSensor k + 1)) s
    else s

/-- Spacing of the sensor samples (13 R478). -/
def samplePeriod : Nat := us 20

/-- Has a period passed since something was last done? -/
def duePeriod (last : Option Nat) (period now : Nat) : Bool :=
  match last with
  | none => true
  | some t => decide (t + period ≤ now)

/-- The values of a hot spot at the trips of the last 1 ms (13 R492). -/
def HotSpot.tripsAt (x : HotSpot) (now : Nat) : List (Nat × Int) := x.trips.filter (fun e => decide (now < e.1 + ms 1))

/-- A sample of the rate detector of a tower trips (13 R492); nothing in Storm (R488). A trip is the first of a run of
tripping samples: the values of the tower's logic hot spots at it are kept. -/
def State.rateTrip (s : State) (t : Nat) : State :=
  let x := s.tpwr t
  if s.level t = 3 ∨ s.on (Reg.ptmTState_tripped t) then s
  else if x.detector = 0 ∨ x.detectorAt + samplePeriod < s.now then
    let s := (List.range 32).foldl (fun s b =>
      let h := s.hotSpot (64 * t + b)
      match s.hotVal (64 * t + b) with
      | some m => s.setHotSpot (64 * t + b) { h with trips := (s.now, m) :: h.tripsAt s.now }
      | none => s) s
    let s := s.setTpwr t { x with detector := Nat.max 2 x.detector, detectorAt := s.now }
    (s.incSat (Reg.ptmTTemp_rate_trips t) 1).ptmRecord 1 (0xF000 + t) 16 t
  else s.setTpwr t { x with detectorAt := s.now }

/-- The rate detector on a logic hot spot's new value: two samples in a row 1.0 degree over the value 100 µs earlier
trip it; 3.0 degrees over the trip value within 1 ms of the trip is Storm (13 R492). -/
def State.rateSpot (s : State) (k : Nat) : State :=
  match s.hotVal k with
  | none => s.setHotSpot k { s.hotSpot k with hist := [], tripping := 0 }
  | some m =>
    let x := s.hotSpot k
    let hist := (m :: x.hist).take 6
    let fast := match hist[5]? with
      | some old => decide (8 ≤ m - old)
      | none => false
    let n := if fast then x.tripping + 1 else 0
    let first := some (x.winFirst.getD m)
    let s := s.setHotSpot k { x with hist := hist, tripping := Nat.min n 2, winFirst := first }
    let t := k / 64
    let s := if 2 ≤ n then s.rateTrip t else s
    let y := s.tpwr t
    if y.detector = 2 ∧ ((s.hotSpot k).tripsAt s.now).any (fun e => decide (24 ≤ m - e.2)) then
      s.setTpwr t { y with detector := 3 }
    else s

/-- The detector's Storm request ends (13 R492). -/
def State.endDetectorStorm (s : State) (t : Nat) : State :=
  let x := s.tpwr t
  let cool := (hotOf t).all (fun k => match s.hotVal k, hotThreshold k 3 with
    | some m, some th => decide (m < th - hysteresis)
    | _, _ => false)
  if x.detector = 3 && s.coolantFresh && decide (220 ≤ s.getF Reg.ptmCoolant_flow) && cool then
    s.setTpwr t { x with detector := 0 }
  else s

/-- Publishes a zone's measured temperature (13 R482, R493), and its forecast where none runs (R495). -/
def State.publishZone (s : State) (t z : Nat) : State :=
  match s.hotVal (zoneHot t z) with
  | none => s
  | some m =>
    let v := if decide (32 ≤ z) && s.halfBlind (zoneHot t z) then max m 760 else m
    let s := s.setF (Reg.ptmTZone_temp t z) (temp12 v)
    let s := { s with zoneAt := SMap.put (fun _ => 0) (96 * t + z) s.now s.zoneAt }
    if s.forecasting then s else s.setF (Reg.ptmTZone_forecast t z) (temp12 (m + 32))

/-- Every 100 µs, the zones of every tower (13 R493). -/
def State.publishZones (s : State) : State :=
  if !duePeriod s.power.publishedAt (us 100) s.now then s
  else
    let s : State := { s with power := { s.power with publishedAt := some s.now } }
    [0, 1, 2, 3].foldl (fun s t => (List.range 96).foldl (fun s z => s.publishZone t z) s) s

/-- The highest of a hot-spot value over a range of keys. -/
def maxOver (f : Nat → Option Int) (ks : List Nat) : Option Int :=
  (ks.filterMap f).foldl (fun a x => some (match a with
    | some y => max y x
    | none => x)) none

/-- Logic blocks of a tower. -/
def logicOf (t : Nat) : List Nat := (List.range 32).map (fun j => 64 * t + j)
/-- DRAM quadrants of a tower. -/
def dramOf (t : Nat) : List Nat := (List.range 32).map (fun j => 64 * t + 32 + j)

/-- PTM_T_TEMP of a tower (13 R509). -/
def State.showTemps (s : State) (t : Nat) : State :=
  let put := fun (s : State) (f : Fld) (v : Option Int) => match v with
    | some m => s.setF f (temp12 m)
    | none => s
  let s := put s (Reg.ptmTTemp_logic_max t) (maxOver s.hotVal (logicOf t))
  let s := put s (Reg.ptmTTemp_dram_max t) (maxOver s.hotVal (dramOf t))
  put s (Reg.ptmTTemp_forecast_max t)
    (maxOver (fun k => (s.hotVal k).map (s.hotForecast k)) (logicOf t ++ dramOf t))

/-- The device is held in full reset: the manager does not sample. -/
def State.inFullReset (s : State) : Bool :=
  match s.rst.phase with
  | .driving _ => true
  | .released => true
  | _ => false

/-- Does the firmware run its part (13 R476, R507)? -/
def State.fwManages (s : State) : Bool := s.fwUp && s.on Reg.glbState_fw_alive

/-- Has a window of a length ended at this tick and not been closed yet? -/
def State.windowDue (s : State) (len last : Nat) : Bool := s.now % len == 0 && last != s.now

/-- A tower's rise window of 10 ms ends (13 R491): a sample stamped at its end belongs to the next (00 R11). -/
def State.endRiseWindow (s : State) (t : Nat) : State :=
  if !s.windowDue (ms 10) (s.tpwr t).riseAt then s
  else
    let rise := (maxOver (fun k =>
      let x := s.hotSpot k
      match x.winFirst, x.hist.head? with
      | some a, some b => some (b - a)
      | _, _ => none) (logicOf t)).getD 0
    let top := beCeiling (s.level t)
    let x := s.tpwr t
    let now := Nat.min top x.beCeiling
    let c := if 16 < rise then now / 2 else Nat.min (now + 2) top
    let s := s.setTpwr t { x with beCeiling := if s.fwManages then Nat.max 1 c else x.beCeiling, riseAt := s.now }
    let s := (logicOf t).foldl (fun s k => s.setHotSpot k { s.hotSpot k with winFirst := none }) s
    (s.setF (Reg.ptmTTemp_rise t) (temp12 rise)).setCeilings t

/-- SENSOR_SAMPLE (13 R478): the readings by 128 * die + index, in 0.125 degrees; a sensor not among them has no new
sample. -/
def execSensorSample (readings : List (Nat × Int)) (s : State) : Host.Outcome State Fault Refusal :=
  if s.inFullReset || !duePeriod s.power.sampledAt samplePeriod s.now then next s
  else
    let s : State := { s with power := { s.power with sampledAt := some s.now } }
    let s := [0, 1, 2, 3].foldl State.endRiseWindow s
    let s := readings.foldl (fun s r =>
      if r.1 % 128 < sensorCount (r.1 / 128) then s.sampleOne (r.1 / 128) (r.1 % 128) r.2 else s) s
    let s := hotKeys.foldl State.pairAgrees s
    let s := ([0, 1, 2, 3].flatMap logicOf).foldl State.rateSpot s
    let s := if s.on Reg.ptmInject_rate_trip then
        (s.rateTrip (s.getF Reg.ptmInject_tsel)).setF Reg.ptmInject_rate_trip 0 else s
    let s := hotKeys.foldl State.tripSpot s
    let s := [0, 1, 2, 3].foldl State.endDetectorStorm s
    next ([0, 1, 2, 3].foldl State.showTemps s.publishZones).relevelAll

/-- SENSOR_SILENT (13 R480): no new sample for 200 µs. -/
def execSensorSilent (k : Nat) (s : State) : Host.Outcome State Fault Refusal :=
  let die := k / 128
  let j := k % 128
  if s.inFullReset || decide (sensorCount die ≤ j) || decide (s.now < (s.rawSensor die j).at_ + us 200) then next s
  else next (s.breakSensor die j).relevelAll

/-- SENSOR_REARM (13 R480, R508): clears broken of the selected sensor; it is judged afresh from its next sample. -/
def execSensorRearm (s : State) : Host.Outcome State Fault Refusal :=
  let die := s.getF Reg.ptmSensorSel_die
  let j := s.getF Reg.ptmSensorSel_index
  if sensorCount die ≤ j then next s
  else next (s.setSensor die j { s.rawSensor die j with broken := false, at_ := s.now })

/-! ## Quiesce and the detector's requests -/

/-- QUIESCE_DONE (13 R488, R489): no core of the tower has an instruction in flight; each VCORE target goes to the idle
voltage, a free value within R505's bounds; ignored after a trip. -/
def execQuiesceDone (t : Tower) (s : State) : Host.Outcome State Fault Refusal :=
  let busy := (List.range 576).any (fun j => s.engBusy (576 * t + j) 127)
  if !s.fwUp || s.level t != 3 || s.on (Reg.ptmTState_tripped t) || busy then next s
  else
    let s := (s.setF (Reg.ptmTVcore_target_mv t) (620 + Config.freeNat s.fresh % 231)).bump 1
    let s := s.setTpwr t { s.tpwr t with vcoreAt := s.now }
    next ((s.setF (Reg.ptmTState_quiesce_done t) 1).relevel t)

/-- QUIESCE_TIMEOUT (13 R490). -/
def execQuiesceTimeout (t : Tower) (s : State) : Host.Outcome State Fault Refusal :=
  if s.level t != 3 || s.on (Reg.ptmTState_quiesce_done t) || decide (s.now < (s.tpwr t).stormAt + ms 5) then next s
  else next (s.trip t 2 0)

/-- RATE_REQUEST_EXPIRE (13 R492): 10 ms after the last tripping sample. -/
def execRateRequestExpire (t : Tower) (s : State) : Host.Outcome State Fault Refusal :=
  let x := s.tpwr t
  if x.detector != 2 || decide (s.now < x.detectorAt + ms 10) then next s
  else next ((s.setTpwr t { x with detector := 0 }).relevel t)

/-! ## Caps (13 R496, R502, R503) -/

/-- The effective cap C from its parts, shown in PTM_CAP and GLB_POWER. -/
def State.showCap (s : State) : State :=
  let c := Nat.min (Nat.min (s.getF Reg.ptmProfile_cap_w) (s.getF Reg.ptmCap_coolant_w))
    (Nat.min (s.getF Reg.ptmCap_suspect_w) 2000)
  (s.setF Reg.ptmCap_effective_w c).setF Reg.glbPower_cap_w c

/-- The coolant cap of an inlet, in 0.125 degrees, and a flow, in 0.01 L/min (13 R502). -/
def coolantCap (inlet : Int) (flow : Nat) : Nat :=
  let c := 2000 - 50 * ((inlet - 320) / 8).toNat
  if flow < 220 then c * flow / 220 else c

/-- Halves every duty, to no less than 1 (13 R497). -/
def State.halveDuties (s : State) : State :=
  let s := [0, 1, 2, 3].foldl (fun s t => if s.level t = 3 then s else
    s.setDuties t (Nat.max 1 (s.getF (Reg.ptmTDuty_lat_duty t) / 2)) (Nat.max 1 (s.getF (Reg.ptmTDuty_be_duty t) / 2))) s
  s.setF Reg.ptmStatus_cap_limiting 1

/-- Towers outside Storm. -/
def State.runningTowers (s : State) : List Nat := [0, 1, 2, 3].filter (fun t => s.level t != 3)

/-- Lowers duties by one sixteenth: BEST_EFFORT down to 1, only then LATENCY (13 R497). -/
def State.lowerDuties (s : State) : State :=
  let ts := s.runningTowers
  let be := ts.filter (fun t => decide (1 < s.getF (Reg.ptmTDuty_be_duty t)))
  let lat := ts.filter (fun t => decide (1 < s.getF (Reg.ptmTDuty_lat_duty t)))
  let s :=
    if !be.isEmpty then
      be.foldl (fun s t => s.setDuties t (s.getF (Reg.ptmTDuty_lat_duty t)) (s.getF (Reg.ptmTDuty_be_duty t) - 1)) s
    else lat.foldl (fun s t => s.setDuties t (s.getF (Reg.ptmTDuty_lat_duty t) - 1) (s.getF (Reg.ptmTDuty_be_duty t))) s
  s.setF Reg.ptmStatus_cap_limiting 1

/-- Is some duty below its ceiling? -/
def State.dutyBelow (s : State) : Bool :=
  s.runningTowers.any (fun t =>
    decide (s.getF (Reg.ptmTDuty_lat_duty t) < s.getF (Reg.ptmTDuty_lat_ceiling t)) ||
      decide (s.getF (Reg.ptmTDuty_be_duty t) < s.getF (Reg.ptmTDuty_be_ceiling t)))

/-- Sixteenths that the ramp bound and the cap allow when one is predicted to raise P by `rise` (13 R498). -/
def rampSteps (ramp rise room : Nat) : Nat :=
  if rise = 0 then 16 else Nat.min (ramp * 1000 / rise) (room / rise)

/-- Raises duties, LATENCY first (13 R498). -/
def State.raiseDuties (s : State) (rise room : Nat) : State :=
  let n := if s.now < s.power.heatUntil then 0 else rampSteps (s.getF Reg.ptmProfile_ramp_wpms) rise room
  let ts := s.runningTowers
  let lat := ts.filter (fun t => decide (s.getF (Reg.ptmTDuty_lat_duty t) < s.getF (Reg.ptmTDuty_lat_ceiling t)))
  let s :=
    if !lat.isEmpty then
      lat.foldl (fun s t => s.setDuties t (s.getF (Reg.ptmTDuty_lat_duty t) + n) (s.getF (Reg.ptmTDuty_be_duty t))) s
    else ts.foldl (fun s t => s.setDuties t (s.getF (Reg.ptmTDuty_lat_duty t)) (s.getF (Reg.ptmTDuty_be_duty t) + n)) s
  if s.dutyBelow then s else s.setF Reg.ptmStatus_cap_limiting 0

/-! ## Power samples (13 R479, R496 to R498, R504, R506) -/

/-- A rail's last power reading. -/
def State.railPower (s : State) (r : Nat) : Nat := s.getF (Reg.ptmRail_mv r) * s.getF (Reg.ptmRail_current r)

/-- A rail stops answering: the third failed transaction in a row (13 R506). -/
def State.railLost (s : State) (r : Nat) : State :=
  if s.on (Reg.ptmRail_stale r) then s
  else ((s.setF (Reg.ptmRail_stale r) 1).setF Reg.ptmStatus_avs_err 1).ptmRecord 1 0xFFFF 17 r

/-- One rail's read: its answer, or none. An armed injection of RAS_INJECT kind 9 lets it fail three times (16 R591). -/
def State.readRail (s : State) (r : Nat) (x : Option (Nat × Nat)) : State :=
  let misses := fun (s : State) (n : Nat) =>
    { s with power := { s.power with railMiss := SMap.put (fun _ => 0) r n s.power.railMiss } }
  if s.injected 9 r then (misses s.usedInject 3).railLost r
  else
    match x with
    | some (mv, cur) =>
      (((misses s 0).setF (Reg.ptmRail_stale r) 0).setF (Reg.ptmRail_mv r) mv).setF (Reg.ptmRail_current r) cur
    | none =>
      let n := SMap.get (fun _ => 0) s.power.railMiss r + 1
      let s := misses s (Nat.min n 3)
      if 3 ≤ n then s.railLost r else s

/-- Power that counts for a rail: its reading, or the estimate with 20% added (13 R506). -/
def State.railCounts (s : State) (est : List (Nat × Nat)) (r : Nat) : Nat :=
  if s.on (Reg.ptmRail_stale r) then
    (match est.find? (fun e => e.1 == r) with
      | some e => e.2
      | none => s.railPower r) * 6 / 5
  else s.railPower r

/-- Watts of a power, as a field of 12 bits shows it. -/
def watts (p : Nat) : Nat := Nat.min 4095 (p / 10000)

/-- A temperature in whole degrees, as GLB_TEMP shows it. -/
def wholeDegrees (x : Int) : Nat := wrap 8 (x / 8)

/-- GLB_POWER and GLB_TEMP every 1 ms (12 R472). -/
def State.showGlb (s : State) (p : Nat) : State :=
  let x := s.power
  let s := { s with power := { x with glbSum := x.glbSum + p, glbCount := x.glbCount + 1 } }
  if s.now < x.glbAt + ms 1 then s
  else
    let s := s.setF Reg.glbPower_power_w ((x.glbSum + p) / (x.glbCount + 1) / 10000)
    let s := { s with power := { s.power with glbAt := s.now, glbSum := 0, glbCount := 0 } }
    let put := fun (s : State) (f : Fld) (v : Option Int) => match v with
      | some m => s.setF f (wholeDegrees m)
      | none => s
    let s := put s Reg.glbTemp_logic_max (maxOver s.hotVal ([0, 1, 2, 3].flatMap logicOf))
    let s := put s Reg.glbTemp_dram_max (maxOver s.hotVal ([0, 1, 2, 3].flatMap dramOf))
    s.setF Reg.glbTemp_inlet (wholeDegrees (if s.coolantFresh then sext 12 (s.getF Reg.ptmCoolant_inlet) else 320))

/-- The window of 100 ms ends (13 R496): a sample stamped at its end belongs to the next (00 R11). -/
def State.endPowerWindow (s : State) : State :=
  if !s.windowDue (ms 100) s.power.winAt then s
  else
    let x := s.power
    let s := s.setF Reg.ptmPower_avg_w (watts (x.winSum / Nat.max 1 x.winCount))
    let s := s.setF Reg.ptmPower_over_us 0
    { s with power := { x with winSum := 0, winCount := 0, winAt := s.now } }

/-- POWER_SAMPLE (13 R479): the rails' answers in mV and 0.1 A, and the firmware's estimate of each rail's power and of
the rise of P by one sixteenth. -/
def execPowerSample (rails : List (Nat × Option (Nat × Nat))) (model : PowerModel) (s : State) :
    Host.Outcome State Fault Refusal :=
  if s.inFullReset || !duePeriod s.power.powerAt (us 100) s.now then next s
  else
    let s : State := { s with power := { s.power with powerAt := some s.now } }
    let s := rails.foldl (fun s r => if r.1 < 9 then s.readRail r.1 r.2 else s) s.endPowerWindow
    let p := (List.range 9).foldl (fun n r => n + s.railCounts model.railEstimate r) 0
    let c := s.getF Reg.ptmCap_effective_w * 10000
    let s := { s with power := { s.power with winSum := s.power.winSum + p, winCount := s.power.winCount + 1 } }
    let s := s.setF Reg.ptmPower_sample_w (watts p)
    let s := if c < p then s.setF Reg.ptmPower_over_us (Nat.min 10000 (s.getF Reg.ptmPower_over_us + 100)) else s
    let s :=
      if c * 6 < p * 5 then s.halveDuties
      else if !s.fwManages then s
      else if c < p then s.lowerDuties
      else s.raiseDuties model.rise (c - p)
    next (s.showGlb p)

/-- POWER_WINDOW_END (13 R496): at the end of a window of 100 ms. -/
def execPowerWindowEnd (s : State) : Host.Outcome State Fault Refusal :=
  if s.inFullReset then next s else next s.endPowerWindow

/-! ## Forecasts (13 R493 to R495) and keep-warm (R500) -/

/-- The greatest offset: 4 degrees in 1/512 degree (13 R494). -/
def offsetMax : Int := 2048

/-- A hot spot's new forecast: the residual against the forecast of 5 ms earlier moves the offset (13 R494). -/
def State.forecastSpot (s : State) (k : Nat) (f : Int) : State :=
  match s.hotVal k with
  | none => s
  | some m =>
    let x := s.hotSpot k
    let r : Option Int := (x.forecasts[49]?).map (fun old => m - old)
    let o := max (-offsetMax) (min offsetMax (x.offset + r.getD 0))
    let clamped := decide (o.natAbs = 2048)
    let since := if clamped then some (x.clampSince.getD s.now) else none
    let deg := match since with
      | some t => decide (t + ms 100 ≤ s.now)
      | none => false
    let f := if deg then m + 32 else f
    let s := s.setHotSpot k
      { x with offset := o, clampSince := since, degraded := deg, forecasts := (f :: x.forecasts).take 50 }
    match r with
    | none => s
    | some v =>
      if k < 256 then
        let y := s.tpwr (k / 64)
        s.setTpwr (k / 64) { y with residSum := y.residSum + v, residCount := y.residCount + 1 }
      else s

/-- Publishes a zone's forecast: that of its hot spot for a logic block, its own for a DRAM zone (13 R493, R494). -/
def State.publishForecast (s : State) (zones : List (Nat × Int)) (t z : Nat) : State :=
  let k := zoneHot t z
  let x := s.hotSpot k
  let s := s.setF (Reg.ptmTZone_degraded t z) (b2n x.degraded)
  match s.hotVal k with
  | none => s
  | some m =>
    let f := if x.degraded || decide (z < 32) then some (s.hotForecast k m)
      else (zones.find? (fun e => e.1 == 96 * t + z)).map Prod.snd
    match f with
    | some v => s.setF (Reg.ptmTZone_forecast t z) (temp12 v)
    | none => s

/-- Layer-7 hot spots of a tower. -/
def layer7 (t : Nat) : List Nat := (List.range 4).map (fun q => 64 * t + 60 + q)

/-- Does any layer-7 hot spot of a tower read below a temperature? -/
def State.layer7Below (s : State) (t : Nat) (x : Int) : Bool :=
  (layer7 t).any (fun k => match s.hotVal k with
    | some m => decide (m < x)
    | none => false)

/-- Heaters that max_w permits (13 R500). -/
def State.heatersMax (s : State) (t : Nat) : Nat := Nat.min 32 (s.getF (Reg.ptmTKeepwarm_max_w t) / 5)

/-- Keep-warm of a tower (13 R500): one heater more below the floor, within the cap and the ramp bound; all off at the
floor plus 2 degrees, or when keep-warm is off. -/
def State.keepWarm (s : State) (t : Nat) : State :=
  let floor : Int := 8 * s.getF Reg.ptmProfile_dew_floor
  let n := s.getF (Reg.ptmTKeepwarm_on t)
  let top := s.heatersMax t
  let s :=
    if !s.on Reg.ptmProfile_keep_warm || s.on (Reg.ptmTState_tripped t) || !s.layer7Below t (floor + 16) then
      s.setF (Reg.ptmTKeepwarm_on t) 0
    else if top < n then s.setF (Reg.ptmTKeepwarm_on t) top
    else if s.layer7Below t floor && decide (n < top) && decide (s.power.heatUntil ≤ s.now) &&
        decide (s.getF Reg.ptmPower_sample_w + 5 ≤ s.getF Reg.ptmCap_effective_w) then
      let s := { s with power := { s.power with
        heatUntil := s.now + 5 * ms 1 / Nat.max 1 (s.getF Reg.ptmProfile_ramp_wpms) } }
      s.setF (Reg.ptmTKeepwarm_on t) (n + 1)
    else s
  let full := s.on Reg.ptmProfile_keep_warm && s.getF (Reg.ptmTKeepwarm_on t) == s.heatersMax t && s.layer7Below t floor
  let x := s.tpwr t
  s.setTpwr t { x with heatersFullSince := if full then some (x.heatersFullSince.getD s.now) else none }

/-- The flow window of 100 ms ends (13 R503): its residuals are kept to be judged, and the next begins (00 R11). -/
def State.endFlowWindow (s : State) : State :=
  if !s.windowDue (ms 100) s.power.flowAt then s
  else
    let s := { s with power := { s.power with flowAt := s.now } }
    [0, 1, 2, 3].foldl (fun s t =>
      let x := s.tpwr t
      s.setTpwr t { x with residPast := some (x.residSum, x.residCount), residSum := 0, residCount := 0 }) s

/-- FORECAST_STEP (13 R493): the model's forecasts by hot spot and by 96 * tower + zone. -/
def execForecastStep (hot zones : List (Nat × Int)) (s : State) : Host.Outcome State Fault Refusal :=
  if !s.fwManages || !duePeriod s.power.forecastAt (us 100) s.now then next s
  else
    let s : State := { s with power := { s.power with forecastAt := some s.now } }
    let s := s.endFlowWindow.setF Reg.ptmStatus_forecast_running 1
    let s := hot.foldl (fun s e => if e.1 < 296 then s.forecastSpot e.1 e.2 else s) s
    let s := [0, 1, 2, 3].foldl (fun s t =>
      ((List.range 96).foldl (fun s z => s.publishForecast zones t z) s).showTemps t) s
    next ([0, 1, 2, 3].foldl State.keepWarm s.relevelAll)

/-- DEW_RISK (13 R500): every permitted heater on for 1 s. -/
def execDewRisk (t : Tower) (s : State) : Host.Outcome State Fault Refusal :=
  match (s.tpwr t).heatersFullSince with
  | none => next s
  | some t0 =>
    if !s.fwManages || s.on Reg.ptmStatus_dew_risk || decide (s.now < t0 + ms 1000) ||
        !s.layer7Below t (8 * s.getF Reg.ptmProfile_dew_floor) then next s
    else next ((s.setF Reg.ptmStatus_dew_risk 1).emit (.msix 0))

/-! ## Gates and windows -/

/-- The gates of a block of a tower for the period that starts: the tower's duties, at most those of Overcast where the
block is held (13 R482, R486, R487). -/
def State.openGates (s : State) (t b : Nat) : State :=
  let held := s.blockHeld t b
  let lat := s.getF (Reg.ptmTDuty_lat_duty t)
  let be := s.getF (Reg.ptmTDuty_be_duty t)
  let reset := fun (k : Nat) => if k % 2 = 1 then 4 else 8
  let k := (32 * t + b) * 2
  let g := SMap.put reset k (if held then Nat.min lat 8 else lat) s.gates
  { s with gates := SMap.put reset (k + 1) (if held then Nat.min be 4 else be) g }

/-- GATE_PERIOD (13 R487): at the start of a period of 1 µs. -/
def execGatePeriod (s : State) : Host.Outcome State Fault Refusal :=
  if s.now % 1000 != 0 then next s
  else next ([0, 1, 2, 3].foldl (fun s t => (List.range 32).foldl (fun s b => s.openGates t b) s) s)

/-- RISE_WINDOW_END (13 R491): at the end of a window of 10 ms. -/
def execRiseWindowEnd (t : Tower) (s : State) : Host.Outcome State Fault Refusal :=
  if s.inFullReset then next s else next (s.endRiseWindow t)

/-- Is a tower flow-suspect for the window (13 R503)? `x` is its thermal resistance and the calibrated one. -/
def flowSuspect (p : TowerPwr) (x : Option (Nat × Nat)) : Bool :=
  (match p.residPast with
    | some (sum, n) => decide (0 < n) && decide ((8 * n : Int) ≤ sum)
    | none => false) ||
    (match x with
      | some (theta, theta0) => decide (115 * theta0 ≤ 100 * theta)
      | none => false)

/-- FLOW_WINDOW_END (13 R503): at the end of a window of 100 ms; θ and θ0 by tower. -/
def execFlowWindowEnd (theta : List (Nat × Nat)) (s : State) : Host.Outcome State Fault Refusal :=
  let s := if s.fwManages then s.endFlowWindow else s
  if s.now % ms 100 != 0 || !s.fwManages || (s.tpwr 0).residPast.isNone then next s
  else
    let bad := fun (t : Nat) => flowSuspect (s.tpwr t) theta[t]?
    let any := [0, 1, 2, 3].any bad
    let s := [0, 1, 2, 3].foldl (fun s t =>
      let x := s.tpwr t
      s.setTpwr t { x with suspectRun := if bad t then Nat.min 2 (x.suspectRun + 1) else 0, residPast := none }) s
    let s := { s with power := { s.power with clearRun := if any then 0 else Nat.min 10 (s.power.clearRun + 1) } }
    let was := s.on Reg.ptmStatus_flow_suspect
    let s :=
      if !was && [0, 1, 2, 3].any (fun t => (s.tpwr t).suspectRun == 2) then
        (s.setF Reg.ptmStatus_flow_suspect 1).emit (.msix 0)
      else if was && s.power.clearRun == 10 then s.setF Reg.ptmStatus_flow_suspect 0
      else s
    let cap := s.getF Reg.ptmCap_suspect_w
    let other := Nat.min (s.getF Reg.ptmProfile_cap_w) (s.getF Reg.ptmCap_coolant_w)
    let s :=
      if s.on Reg.ptmStatus_flow_suspect then s.setF Reg.ptmCap_suspect_w (Nat.max 800 (cap - 100))
      else if cap < other then s.setF Reg.ptmCap_suspect_w (Nat.min 2000 (cap + 100))
      else s
    next s.showCap.relevelAll

/-! ## Coolant (13 R501, R502) -/

/-- COOLANT_WRITE (13 R502): the board controller writes PTM_COOLANT. -/
def execCoolantWrite (inlet flow : BitVec 12) (s : State) : Host.Outcome State Fault Refusal :=
  if s.inFullReset then next s
  else
    let s := (s.setF Reg.ptmCoolant_inlet inlet.toNat).setF Reg.ptmCoolant_flow flow.toNat
    let s := { s with power := { s.power with coolantAt := some s.now } }
    let s := s.setF Reg.ptmStatus_coolant_stale 0
    let s := s.setF Reg.ptmCap_coolant_w (coolantCap inlet.toInt flow.toNat)
    let s := [0, 1, 2, 3].foldl State.endDetectorStorm s
    next s.showCap.relevelAll

/-- COOLANT_STALE (13 R502): not written for 1 s; an inlet of 40 degrees and a flow of 2.2 L/min are assumed. -/
def execCoolantStale (s : State) : Host.Outcome State Fault Refusal :=
  if s.now < s.power.coolantAt.getD 0 + ms 1000 || s.inFullReset then next s
  else
    let s := s.setF Reg.ptmStatus_coolant_stale 1
    next ((s.setF Reg.ptmCap_coolant_w (coolantCap 320 220)).showCap.relevelAll)

/-! ## Firmware's periodic work (13 R499, R505, R507, 12 R472) -/

/-- TRIM_STEP (13 R499): references, biases and standby oscillators are trimmed. -/
def execTrimStep (s : State) : Host.Outcome State Fault Refusal :=
  if s.fwManages && duePeriod s.power.trimAt (ms 10) s.now then
    next { s with power := { s.power with trimAt := some s.now } }
  else next s

/-- The voltage a VCORE rail is set to: 0.75 V until the first AVSBus write (18 R611). -/
def State.railNow (s : State) (t : Nat) : Nat :=
  if s.getF (Reg.ptmRail_target_mv t) = 0 then 750 else s.getF (Reg.ptmRail_target_mv t)

/-- Does the firmware move a tower's VCORE: not in fallback (13 R507), on a rail that does not answer (R506), or on a
tripped tower (R490)? -/
def State.vcoreMoves (s : State) (t : Nat) : Bool :=
  s.fwManages && !s.on (Reg.ptmRail_stale t) && !s.on (Reg.ptmTState_tripped t)

/-- One move of a voltage toward its target: at most 5 mV (13 R505). -/
def stepToward (v goal : Nat) : Nat := if v ≤ goal then Nat.min goal (v + 5) else Nat.max goal (v - 5)

/-- Every 10 µs each VCORE rail moves toward its tower's target (13 R505). -/
def State.vcoreTicks (s : State) : State :=
  if s.now % us 10 != 0 then s
  else
    [0, 1, 2, 3].foldl (fun s t =>
      if s.vcoreMoves t && s.railNow t != s.vcoreNow t then
        s.setF (Reg.ptmRail_target_mv t) (stepToward (s.railNow t) (s.vcoreNow t))
      else s) s

/-- The manager sets the fixed rails to their voltages (13 R504). -/
def State.setFixedRails (s : State) : State :=
  [(4, 1050), (5, 1800), (6, 750), (7, 900), (8, 1800)].foldl (fun s r => s.setF (Reg.ptmRail_target_mv r.1) r.2) s

/-- VCORE_UPDATE (13 R505): every 1 ms, a new target within R505's bounds; the voltage follows it by `vcoreTicks`. In
Storm the idle voltage stands (R489). -/
def execVcoreUpdate (t : Tower) (target : Nat) (s : State) : Host.Outcome State Fault Refusal :=
  if !s.vcoreMoves t || s.level t == 3 || decide (s.now < (s.tpwr t).vcoreAt + ms 1) then next s
  else
    let s := s.setF (Reg.ptmTVcore_target_mv t) (Nat.max 620 (Nat.min 850 target))
    next (s.setTpwr t { s.tpwr t with vcoreAt := s.now })

/-- HEARTBEAT (12 R472): every 1 ms the firmware advances the count; fallback ends (13 R507). -/
def execHeartbeat (s : State) : Host.Outcome State Fault Refusal :=
  if !s.fwUp || decide (s.now < s.power.beatAt + ms 1) then next s
  else
    let s := ((s.incWrap Reg.glbHeartbeat_count 1).setF Reg.glbState_fw_alive 1).setF Reg.ptmStatus_fw_fallback 0
    next { s with power := { s.power with beatAt := s.now } }

/-- FW_ALIVE_LOST (13 R507): no heartbeat for 10 ms. -/
def execFwAliveLost (s : State) : Host.Outcome State Fault Refusal :=
  if !s.on Reg.glbState_fw_alive || decide (s.now < s.power.beatAt + ms 10) then next s
  else
    let s := (s.setF Reg.glbState_fw_alive 0).setF Reg.ptmStatus_fw_fallback 1
    let s := [0, 1, 2, 3].foldl (fun s t => (List.range 96).foldl (fun s z =>
      match s.hotVal (zoneHot t z) with
      | some m => s.setF (Reg.ptmTZone_forecast t z) (temp12 (m + 32))
      | none => s) s) s
    next ([0, 1, 2, 3].foldl (fun s t => s.setDuties t 8 4) s.relevelAll)

/-! ## THERMAL_PROFILE (12 R466) -/

/-- Does a profile's cap raise the cap while a tower is in Storm (12 R466, 13 R508)? -/
def State.capRaiseInStorm (s : State) (cap : Nat) : Bool :=
  decide (s.getF Reg.ptmProfile_cap_w < cap) && [0, 1, 2, 3].any (fun t => s.level t == 3)

/-- THERMAL_PROFILE (12 R445, R466). -/
def execThermalProfile (k : Nat) (s : State) : Host.Outcome State Fault Refusal :=
  next (s.command k 0x30 (fun s c =>
    let cap := fieldLE c.cmd 8 2
    let ramp := fieldLE c.cmd 10 2
    let kw := fieldLE c.cmd 12 1
    let dew := fieldLE c.cmd 13 1
    if cap < 500 || 2000 < cap || ramp < 10 || 150 < ramp || 1 < kw || dew < 20 || 45 < dew then s.done c stBadParam 0
    else if s.capRaiseInStorm cap then s.done c stThermalRefused 0
    else
      let old := s.getF Reg.ptmProfile_cap_w
      let s := (s.setF Reg.ptmProfile_cap_w cap).setF Reg.ptmProfile_ramp_wpms ramp
      let s := ((s.setF Reg.ptmProfile_keep_warm kw).setF Reg.ptmProfile_dew_floor dew).showCap
      s.done c stOk old))

end Sys2Proof.Machine
end

