-- ==== Sys2Proof/Machine/Reset.lean ====
section
/-!
DEFINITION. Reset and clocks (chapter 14) and what of chapter 18 moves with them: full resets and their exit, option bytes
and their loader, compute-only resets, block resets, the reference and SerDes clocks, and time-tick checks.
-/
namespace Sys2Proof.Machine

/-! ## Option bytes (14 R525, R526, 11 R409, R410, 15 R534) -/

/-- Is every byte of a range 0? -/
def zeroRange (bs : List Byte) (o n : Nat) : Bool := (slice bs o n).all (fun b => b == 0)

/-- The header region: a format of 0 or 1, the rest reserved. -/
def headOk (bs : List Byte) : Bool := decide (fieldLE bs 0 1 ≤ 1) && zeroRange bs 1 15

/-- The reset and clock options. -/
def resetOptOk (bs : List Byte) : Bool :=
  let d := fieldLE bs 0x72 2
  decide (fieldLE bs 0x71 1 ≤ 1) && (d == 0 || (decide (100 ≤ d) && decide (d ≤ 10000))) && zeroRange bs 0x74 12

/-- The boot options. -/
def bootOptOk (bs : List Byte) : Bool :=
  decide (fieldLE bs 0x80 1 ≤ 1) && decide (fieldLE bs 0x81 1 ≤ 1) && decide (fieldLE bs 0x82 1 ≤ 1) &&
    zeroRange bs 0x83 1 && fieldLE bs 0x84 4 % 0x10000 == 0 && fieldLE bs 0x88 4 % 0x10000 == 0 && zeroRange bs 0x8C 116

/-- A region taken as all zero where it is not well formed. -/
def regionOr (ok : Bool) (bs : List Byte) (o n : Nat) : List Byte := if ok then slice bs o n else List.replicate n 0

/-- A region of the OTP as the loader reads it: the offset, the size, and whether it is taken as it is, because its reads
agree and what it holds is well formed. -/
def Chip.otpRegions (c : Chip) : List (Nat × Nat × Bool) :=
  let read := fun (o : Nat) => !c.unread.contains o
  [(0, 16, read 0 && headOk c.otp), (0x10, 96, read 0x10), (0x70, 16, read 0x70 && resetOptOk c.otp),
    (0x80, 128, read 0x80 && bootOptOk c.otp), (0x100, 128, read 0x100), (0x180, 128, read 0x180)]

/-- The bytes the loader makes of the OTP: a bad region is all zero. -/
def loadOptions (c : Chip) : List Byte := c.otpRegions.flatMap (fun r => regionOr r.2.2 c.otp r.1 r.2.1)

/-- The 2-byte record of a die-link module (11 R409). -/
def moduleRecord (opt : List Byte) (l m : Nat) : Nat :=
  fieldLE opt (0x10 + (if l < 4 then 8 * l else 32 + 16 * (l - 4)) + 2 * m) 2

/-- Is a module record taken as it is (11 R410)? -/
def moduleOk (r : Nat) : Bool := bits r 1 0 != 3 && bits r 7 2 == 0 && bits r 15 12 == 0

/-- DLK_LANE_MAP.role of a link (11 R409, R410). -/
def linkRoles (opt : List Byte) (l : Nat) : Nat :=
  (List.range (linkModules l)).foldl (fun w m =>
    let r := moduleRecord opt l m
    w + (if moduleOk r then bits r 1 0 else 0) * 4 ^ m) 0

/-- The spare groups that the modules of a link may not use for repair (11 R409, R410). -/
def linkSpares (opt : List Byte) (l : Nat) : List Nat :=
  (List.range (linkModules l)).map (fun m =>
    let r := moduleRecord opt l m
    if moduleOk r then bits r 11 8 else 0)

/-- What the loader leaves in the registers (14 R525, R526, 11 R407, R409, R410, R413). -/
def State.applyOptions (s : State) : State :=
  let opt := loadOptions s.chip
  let s := { s with rst := { s.rst with optBytes := opt } }
  let s := s.setF Reg.rstStatus_opt_err (b2n (!s.chip.otpRegions.all (fun r => r.2.2)))
  let d := fieldLE opt 0x72 2
  let s := s.setF Reg.rstCrCfg_drain_us (if d = 0 then 1000 else d)
  let s := [0, 1, 2, 3, 4].foldl (fun s k =>
    let x := s.chip.straps.getD k 7
    ((s.setF (Reg.dlkDieId_strap k) x).setF (Reg.dlkDieId_valid k) (b2n (decide (x ≤ 4)))).setF
      (Reg.dlkDieId_version k) (s.chip.dieVersion.getD k 0)) s
  let s := (List.range 8).foldl (fun s l =>
    let s := s.setF (Reg.dlkLinkCap_local_ver l) (s.chip.dieVersion.getD (linkEnds l).1 0)
    (s.setF (Reg.dlkLaneMap_role l) (linkRoles opt l)).setLink l { s.link l with spares := linkSpares opt l }) s
  let bad := (List.range 8).any (fun l => (List.range (linkModules l)).any (fun m => !moduleOk (moduleRecord opt l m)))
  s.setF Reg.dlkStatus_opt_err (b2n bad)

/-! ## Full reset (14 R510, R512) -/

/-- Registers that a full reset keeps: RST_CAUSE, the backup registers, the crash lock, BOOT_INJECT (14 R510, R523, R530,
15 R563). -/
def retainedReg (a : Nat) : Bool :=
  a == 0x00400000 || (decide (0x00400100 ≤ a) && decide (a < 0x00400180)) || a == 0x00400200 || a == 0x00500040

/-- RST_CAUSE's bit of a source (14 R530). -/
def causeBit (x : ResetSource) : Fld :=
  match x with
  | .powerOn => Reg.rstCause_power_on
  | .pin => Reg.rstCause_pin
  | .perst => Reg.rstCause_perst
  | .hotReset => Reg.rstCause_hot_reset
  | .host => Reg.rstCause_host_request
  | .pllUnlock => Reg.rstCause_pll_unlock
  | .refLoss => Reg.rstCause_ref_loss

/-- Does a source hold the reset until it goes (14 R512, R527)? A board that holds SYS_RESET_N does so by the pin. -/
def ResetSource.persists (x : ResetSource) : Bool := x == .perst || x == .pllUnlock || x == .refLoss

/-- Until when the device drives SYS_RESET_N low (14 R512): 20 µs and the stretch option. -/
def State.driveUntil (s : State) : Nat := s.now + us (20 + 10 * fieldLE (loadOptions s.chip) 0x70 1)

/-- Everything outside the VAUX domain and the fuses at its reset value (14 R510). Vault contents are lost (06 R233). -/
def State.wipe (s : State) : State :=
  let crash := s.getF Reg.glbState_crash_record
  let t := { State.reset with
    now := s.now
    regs := SMap.keep retainedReg s.regs
    regs0 := SMap.keep retainedReg s.regs0
    epoch := s.epoch + 1
    rst := { ResetSt.reset with retained := s.rst.retained, vauxOk := s.rst.vauxOk, vauxAt := s.rst.vauxAt }
    chip := s.chip
    out := s.out
    fresh := s.fresh
    pending := s.pending }
  t.setF Reg.glbState_crash_record crash

/-- A full reset starts (14 R510, R512, 18 R613), or one that runs meets a further source. -/
def State.fullReset (s : State) (x : ResetSource) : State :=
  let hold := if x.persists then [x] else []
  if s.inFullReset then
    let s := s.setF (causeBit x) 1
    { s with rst := { s.rst with phase := .driving s.driveUntil, sources := (s.rst.sources ++ hold).eraseDups } }
  else
    let n := s.getF Reg.rstCause_full_resets
    let s := s.wipe.setReg 0x00400000 0
    let s := (s.setF Reg.rstCause_full_resets n).incSat Reg.rstCause_full_resets 1
    let s := s.setF (causeBit x) 1
    { s with rst := { s.rst with phase := .driving s.driveUntil, sources := hold } }

/-- Everything at its reset value, retained storage zero (14 R510, R523). -/
def State.coldWipe (s : State) : State :=
  { State.reset with
    now := s.now, regs := [], epoch := s.epoch + 1, chip := s.chip, out := s.out, fresh := s.fresh, pending := s.pending }

/-- COLD_RESET (14 R510): VAUX rises; RST_CAUSE holds power_on alone. -/
def execColdReset (s : State) : Host.Outcome State Fault Refusal :=
  let s := s.coldWipe.setF Reg.rstCause_power_on 1
  next { s with rst := { s.rst with phase := .driving s.driveUntil, vauxOk := true, vauxAt := s.now } }

/-- VAUX_LOSS (18 R616, R617, R613): retained storage is lost; nothing runs until VAUX rises. -/
def execVauxLoss (s : State) : Host.Outcome State Fault Refusal :=
  let t := s.coldWipe
  next { t with rst := { t.rst with phase := .driving s.driveUntil, sources := [.powerOn], vauxOk := false } }

/-- The level of VCORE_EN of a tower (18 R613). -/
def State.vcoreEnPin (s : State) (t : Nat) : Bool :=
  s.rst.vauxOk && decide (s.rst.vauxAt + us 100 ≤ s.now) && s.rst.vcoreEn.getD t false

/-- SYS_RESET_N_LOW (14 R512): a pulse of less than 100 ns is ignored. -/
def execSysResetNLow (ns : Nat) (s : State) : Host.Outcome State Fault Refusal :=
  if ns < 100 || !s.rst.vauxOk then next s else next (s.fullReset .pin)

/-- PERST_N_ASSERT (14 R510). -/
def execPerstNAssert (s : State) : Host.Outcome State Fault Refusal :=
  if s.rst.vauxOk then next (s.fullReset .perst) else next s

/-- PERST_N_DEASSERT (14 R512). -/
def execPerstNDeassert (s : State) : Host.Outcome State Fault Refusal :=
  next { s with rst := { s.rst with sources := s.rst.sources.filter (fun x => x != .perst) } }

/-- PCIE_LINK_DOWN (14 R510): the link retrains; no reset. -/
def execPcieLinkDown (s : State) : Host.Outcome State Fault Refusal :=
  next (((s.setF Reg.hifLink_up 0).setF Reg.hifLink_width 0).setF Reg.hifLink_rate 0)

/-- HOST_LINK_UP (12 R424, R473): width 16 or 8, and the rate of generation 5, 6 or 7. -/
def execHostLinkUp (wide : Bool) (rate : Fin 3) (s : State) : Host.Outcome State Fault Refusal :=
  if s.inFullReset then next s
  else
    let s := (s.setF Reg.hifLink_width (if wide then 16 else 8)).setF Reg.hifLink_rate (5 + rate.val)
    next (s.setF Reg.hifLink_up 1)

/-- HOT_RESET (14 R510, R525): with hot_reset_ignore the link only retrains. -/
def execHotReset (s : State) : Host.Outcome State Fault Refusal :=
  if s.inFullReset then next s
  else if bit (fieldLE s.rst.optBytes 0x71 1) 0 then
    next (((s.setF Reg.hifLink_up 0).setF Reg.hifLink_width 0).setF Reg.hifLink_rate 0)
  else next (s.fullReset .hotReset)

/-- FULL_ARM (14 R510). -/
def execFullArm (s : State) : Host.Outcome State Fault Refusal :=
  next { s with rst := { s.rst with armedAt := some s.now } }

/-- FULL_GO (14 R510): within 1 ms of the arm. -/
def execFullGo (s : State) : Host.Outcome State Fault Refusal :=
  match s.rst.armedAt with
  | none => next s
  | some t => if s.now < t + ms 1 then next (s.fullReset .host) else next s

/-- REFERENCE_LOSS (14 R527). -/
def execReferenceLoss (pll : Bool) (s : State) : Host.Outcome State Fault Refusal :=
  if s.rst.vauxOk then next (s.fullReset (if pll then .pllUnlock else .refLoss)) else next s

/-- REFERENCE_RESTORED (14 R527). -/
def execReferenceRestored (s : State) : Host.Outcome State Fault Refusal :=
  next { s with rst := { s.rst with sources := s.rst.sources.filter (fun x => x != .pllUnlock && x != .refLoss) } }

/-- RESET_STRETCH_END (14 R512): the device releases SYS_RESET_N once its time has passed and no source persists. -/
def execResetStretchEnd (s : State) : Host.Outcome State Fault Refusal :=
  match s.rst.phase with
  | .driving t =>
    if s.now < t || !s.rst.sources.isEmpty then next s
    else next { s with rst := { s.rst with phase := .released } }
  | _ => next s

/-- Steps 1 to 3 of the exit (14 R513): the reference and the PLLs are locked, the tick starts at 0, the option bytes are
loaded, and the die links begin to train (11 R407). -/
def State.beginExit (s : State) : State :=
  let s := { s with now := 0, rst := { s.rst with phase := .exiting 3, stepAt := 0 } }
  let s := ((s.setF Reg.clkStatus_ref_ok 1).setF Reg.clkStatus_pll_locked 1).setF Reg.clkStatus_serdes_locked 1
  let s := s.applyOptions
  let ok := fun (d : Nat) => decide (s.chip.straps.getD d 7 ≤ 4)
  let s := (List.range 8).foldl (fun s l =>
    let e := linkEnds l
    if ok e.1 && ok e.2 then (s.setLink l { s.link l with since := 0 }).setLinkState l lkSbinit else s) s
  s.settleExit

/-- FULL_RESET_RELEASE (14 R512, R513): SYS_RESET_N has read high for 1 µs after the device released it. From the state
right after reset the exit goes on. -/
def execFullResetRelease (ns : Nat) (s : State) : Host.Outcome State Fault Refusal :=
  match s.rst.phase with
  | .released => if ns < 1000 then next s else next s.beginExit
  | .exiting 1 => next s.beginExit
  | _ => next s

/-- The bound of a step of the exit, in microseconds (14 R513). -/
def stepBound (k : Nat) : Nat := [200, 50, 5000, 100, 20].getD (k - 1) 0

/-- STARTUP_STEP_TIMEOUT (14 R513): the device stays in BOOTING with the step's bit of stuck set. -/
def execStartupStepTimeout (s : State) : Host.Outcome State Fault Refusal :=
  match s.rst.phase with
  | .exiting k =>
    if k = 0 ∨ 5 < k ∨ s.now < s.rst.stepAt + us (stepBound k) then next s
    else
      let s := s.setF ⟨Reg.rstStatus_stuck.off, Reg.rstStatus_stuck.lo + k - 1, Reg.rstStatus_stuck.lo + k - 1⟩ 1
      next { s with rst := { s.rst with phase := .stuck k } }
  | _ => next s

/-! ## Clocks (14 R527 to R529) -/

/-- The key of a SerDes PLL: a die link, or 8 and a port. -/
def serdesKey (x : SerDes) : Nat :=
  match x with
  | .link l => l.val
  | .port t p => 8 + 32 * t.val + p.val

/-- SERDES_UNLOCK (14 R527): counted; only its own link or port retrains. -/
def execSerdesUnlock (which : SerDes) (s : State) : Host.Outcome State Fault Refusal :=
  if s.inFullReset then next s
  else
    let s := s.incSat Reg.clkStatus_serdes_unlocks 1
    let s := { s with rst := { s.rst with unlocked := (s.rst.unlocked ++ [serdesKey which]).eraseDups } }
    match which with
    | .link l => next (if s.linkState l = lkActive then s.retrainLink l else s)
    | .port t p => next (if s.portIsUp t p then s.retrain t p else s)

/-- TICK_SYNC_CHECK (14 R528, R529): every 1 ms a tower compares its counter with the master's; a tower with no path does
not. -/
def execTickSyncCheck (t : Tower) (offset : Int) (s : State) : Host.Outcome State Fault Refusal :=
  if s.rst.phase != .out || !duePeriod (SMap.find s.rst.syncAt t) (ms 1) s.now then next s
  else
    let s := { s with rst := { s.rst with syncAt := SMap.insert t s.now s.rst.syncAt } }.tickSync t
    if !s.on (Reg.clkTickSync_synced t) then next s
    else
      let s := s.setF (Reg.clkTickSync_offset t) (wrap 8 offset)
      next (if 4 < offset.natAbs then s.incSat (Reg.clkTickSync_corrections t) 1 else s)

/-! ## Compute-only reset (14 R514 to R518) -/

/-- Sites of the towers of a mask. -/
def maskSites (m : Nat) : List Nat :=
  ([0, 1, 2, 3].filter (bit m)).flatMap (fun t => (List.range 576).map (fun j => 576 * t + j))

/-- The site of a register of the blocks that a compute-only reset clears: CORE, MXA, TLE, KVX and SQ. CORE_ID is not
state (02 R103). -/
def computeReg (a : Nat) : Option Nat :=
  match barLocate a with
  | some (.core, i, l) => if l = 0 then none else some i
  | some (.mxa, i, _) => some i
  | some (.tle, i, _) => some i
  | some (.kvx, i, _) => some i
  | some (.sq, i, _) => some i
  | _ => none

/-- The site of a register that a CORE block reset clears (14 R519). -/
def coreReg (a : Nat) : Option Nat :=
  match barLocate a with
  | some (.sq, _, _) => none
  | _ => computeReg a

/-- Abandons what cores of some sites have outstanding (14 R515, R520): answers that come later are discarded (10 R396),
and their tags rest for a lifetime. -/
def State.abandonSites (s : State) (sites : Nat → Bool) : State :=
  let gone := s.sent.filter (fun x => sites x.site)
  let s := { s with
    jobs := s.jobs.filter (fun j => !sites j.site)
    sent := s.sent.filter (fun x => !sites x.site), tables := s.tables.filter (fun x => !sites x.site)
    senders := s.senders.filter (fun x => !sites x.site) }
  gone.foldl (fun s x => s.quarantineTag x.tower x.pkt.src x.pkt.tag) s

/-- The activity counters that a reset clears start from 0 again for the telemetry (17 R604). -/
def State.dropLast (s : State) (sites : Nat → Bool) : State :=
  { s with dbg := { s.dbg with last := SMap.keep (fun a => !(sites (a / 8) && [0, 1, 4].contains (a % 8))) s.dbg.last } }

/-- Discards the bank-unit commands of a core that are not granted (07 R278, 14 R519). -/
def State.dropQueued (s : State) (i : Nat) : State :=
  let x := s.vault i
  if x.queue.isEmpty then s
  else
    let ids := x.queue.map BkuCmd.job
    let s := s.setVault i { x with queue := [] }
    ({ s with jobs := s.jobs.filter (fun j => !ids.contains j.id) }).bkuShow i

/-- Every latch of a vault becomes invalid, its contents undefined (07 R252). -/
def State.dropLatches (s : State) (i : Nat) : State :=
  let x := s.vault i
  if x.latchValid.isEmpty && x.latches.isEmpty then s
  else s.setVault i { x with latchValid := [], latches := [] }

/-- A core of a tower that drains issues nothing more and withdraws its WAIT (14 R515); an END that has issued goes
on. -/
def State.drainCore (s : State) (i : Nat) : State :=
  if (s.coreState i == csRunning || s.coreState i == csBreak) && (s.core i).hold != .end_ then
    ((s.withdraw i).endStep i).setF (Reg.coreStatus_state i) csDraining
  else s

/-- Channels that are live with a core in the sites (14 R517). -/
def State.chansOn (s : State) (sites : Nat → Bool) : List Nat :=
  (s.chans.filter (fun c => c.2.st == .live && c.2.cores.any sites)).map Prod.fst

/-- Commands that have started and name one of the channels complete with NODE_RESETTING (14 R517). -/
def State.resetCommands (s : State) (ks : List Nat) : State :=
  let hs := ks.map s.handle
  { s with started := s.started.map (fun c =>
      if c.done = none ∧ ((cmdNames c.cmd).any hs.contains) = true then { c with done := some (stNodeResetting, 0) } else c) }

/-- Ends a block reset with a status. -/
def State.endBlock (s : State) (st : Nat) : State :=
  let s := (s.setF Reg.rstBlockStatus_state 0).setF Reg.rstBlockStatus_last_status st
  { s with rst := { s.rst with block := none } }

/-- A block reset that waits for idle in one of the towers is withdrawn (14 R515). -/
def State.withdrawBlock (s : State) (m : Nat) : State :=
  match s.rst.block with
  | some b =>
    if s.getF Reg.rstBlockStatus_state = 1 && bit m (towerOf b.site) then (s.endBlock stBlockBusy).openPort b.site else s
  | none => s

/-- COMPUTE_GO (14 R514, R515, R517, 16 R584). -/
def execComputeGo (s : State) : Host.Outcome State Fault Refusal :=
  let m := s.getF Reg.rstCtrl_compute_mask
  let g := s.getF Reg.glbState_state
  if m = 0 ∨ s.getF Reg.rstStatus_cr_state ≠ 0 ∨ g = gsBooting ∨ g = gsWedged then next (s.setF Reg.rstStatus_cr_refused 1)
  else
    let sites := fun (i : Nat) => bit m (towerOf i)
    let s := s.withdrawBlock m
    let s := ((s.setF Reg.rstStatus_cr_state 1).setF Reg.rstStatus_cr_mask m).setF Reg.glbState_state gsComputeReset
    let ks := s.chansOn sites
    let s := { s with rst := { s.rst with crSince := s.now, crChans := ks } }
    let s := ([0, 1, 2, 3].filter (bit m)).foldl (fun s t => s.setF (Reg.skyStatus_resetting t) 1) s
    let s := ks.foldl (fun s k => s.setChan k { s.chan k with st := .faulted }) s
    let s := s.resetCommands ks
    next ((maskSites m).foldl (fun s i =>
      let s := (s.drainCore i).dropQueued i
      if (s.queue i) = StageQueue.reset then s else s.emptyQueue i stNodeResetting) s)

/-- Has a site drained (14 R515)? -/
def State.siteDrained (s : State) (i : Nat) : Bool :=
  let x := s.vault i
  !s.engBusy i 255 && x.wbuf.isEmpty && x.running.isEmpty && x.results.isEmpty && (s.core i).sq.isEmpty &&
    (s.core i).fmv.isEmpty

/-- DRAIN_END (14 R515, R516, 06 R232): every site has drained, or drain_us has passed. What is still outstanding is
abandoned, the compute domain goes to its reset state, and the keepers refresh. -/
def execDrainEnd (s : State) : Host.Outcome State Fault Refusal :=
  let m := s.getF Reg.rstStatus_cr_mask
  let late := decide (s.rst.crSince + us (s.getF Reg.rstCrCfg_drain_us) ≤ s.now)
  if s.getF Reg.rstStatus_cr_state ≠ 1 ∨ !(late || (maskSites m).all s.siteDrained) then next s
  else
    let sites := fun (i : Nat) => bit m (towerOf i)
    let s := s.abandonSites sites
    let s := (maskSites m).foldl (fun s i =>
      let s := (s.dropWatches i).dropLatches i
      let x := s.vault i
      (s.setVault i { x with keeper := true, results := [], queue := [] }).bkuShow i) s
    let s := { s with
      cores := SMap.keep (fun i => !sites i) s.cores
      queues := SMap.keep (fun i => !sites i) s.queues
      regs := SMap.keep (fun a => match computeReg a with
        | some i => !sites i
        | none => true) s.regs }
    next ((s.dropLast sites).setF Reg.rstStatus_cr_state 2)

/-- HELD_END (14 R515, 06 R230, R232): the domain is released, its scratchpads are zero, and the schedulers resume in band
mode for 10 ms. -/
def execHeldEnd (s : State) : Host.Outcome State Fault Refusal :=
  if s.getF Reg.rstStatus_cr_state ≠ 2 then next s
  else
    let s := (maskSites (s.getF Reg.rstStatus_cr_mask)).foldl (fun s i =>
      s.setVault i { s.vault i with keeper := false, bandUntil := s.now + ms 10 }) s
    next (s.setF Reg.rstStatus_cr_state 3)

/-- RELEASE_COMPLETE (14 R514, R515, R517): refusals end, the events of the faulted channels are raised, and the device
is as its yield says. -/
def execReleaseComplete (s : State) : Host.Outcome State Fault Refusal :=
  if s.getF Reg.rstStatus_cr_state ≠ 3 then next s
  else
    let s := [0, 1, 2, 3].foldl (fun s t => s.setF (Reg.skyStatus_resetting t) 0) s
    let s := s.setF Reg.rstStatus_cr_state 0
    let s := if s.wedged then s else s.setF Reg.glbState_state (if s.gradeFails then gsGradeFault else gsReady)
    let s := s.rst.crChans.foldl (fun s k =>
      if (s.chan k).st = .free then s else s.event k 3 0xFFFF stResetAborted 0 0 0 0) s
    next ({ s with rst := { s.rst with crChans := [] } }).kickWaiting

/-! ## Block resets (14 R519 to R521) -/

/-- BLOCK_RESET_GO (14 R519): a write of RST_BLOCK with go. -/
def execBlockResetGo (v : BitVec 32) (s : State) : Host.Outcome State Fault Refusal :=
  let n := v.toNat
  let i := bits n 11 0
  let k := bits n 13 12
  let s := ((s.setF Reg.rstBlock_site i).setF Reg.rstBlock_kind k).setF Reg.rstBlock_force (bits n 14 14)
  let s := s.setF Reg.rstBlock_timeout_us (Nat.max 1 (bits n 31 16))
  if !bit n 15 then next s
  else if s.getF Reg.rstBlockStatus_state != 0 || s.getF Reg.rstStatus_cr_state != 0 then
    next (s.setF Reg.rstBlockStatus_busy_err 1)
  else if siteCount ≤ i || k == 3 then next (s.setF Reg.rstBlockStatus_last_status stBadParam)
  else if !s.coreOn i && k != 2 then next (s.setF Reg.rstBlockStatus_last_status stEngineAbsent)
  else
    let b : BlockReset :=
      { site := i, kind := k, force := bit n 14, since := s.now, timeout := Nat.max 1 (bits n 31 16), heldAt := 0, status := 0 }
    next ({ s with rst := { s.rst with block := some b } }.setF Reg.rstBlockStatus_state 1)

/-- Is a block idle (14 R519)? -/
def State.blockIdle (s : State) (b : BlockReset) : Bool :=
  match b.kind with
  | 0 => !s.engBusy b.site 255 && (s.core b.site).sq.isEmpty && (s.core b.site).fmv.isEmpty
  | 1 => (s.queue b.site).resident.all Bundle.whole && (s.popHead b.site).isNone
  | _ => s.vaultQuiet b.site

/-- A CORE block reset (14 R519 to R521). -/
def State.resetCore (s : State) (i : Nat) : State :=
  let s := if s.coreState i = csRunning ∨ s.coreState i = csBreak then s.faultChannel i stResetAborted 0 0 0 else s
  let s := ((s.withdraw i).endStep i).dropQueued i
  let s := (s.abandonSites (fun j => j == i)).dropLatches i
  let x := s.vault i
  let s := (s.setVault i { x with results := [] }).bkuShow i
  let s := s.dropLast (fun j => j == i)
  { s with
    cores := SMap.keep (fun j => j != i) s.cores
    regs := SMap.keep (fun a => match coreReg a with
      | some j => j != i
      | none => true) s.regs }

/-- An SQ block reset (09 R342, 14 R519); a forced one abandons the POP or POPA in progress (R520), and the engine goes
on with what is queued behind it. -/
def State.resetSq (s : State) (i : Nat) : State :=
  let s := (s.emptyQueue i stSqClosed).setF (Reg.sqCtrl_open i) 0
  let s := s.setF (Reg.sqStatus_state i) 0
  match s.popHead i with
  | none => s
  | some e =>
    let s := { s with jobs := s.jobs.filter (fun j => j.id != e.job) }
    ((s.setCore i { s.core i with sq := (s.core i).sq.drop 1 }).wake i).runQueues

/-- A VLT block reset (14 R519, R521): contents, map and retirements stay, and so do refresh pointers and debts, which the
keeper holds (06 R232); no row is open, and each WAIT of the watch table arms again. -/
def State.resetVault (s : State) (i : Nat) : State :=
  let x := s.vault i
  let s := s.setVault i { x with
    watches := [], notices := [], full := ⟨[0, 0, 0, 0], 0⟩, narrowArb := ⟨[0, 0, 0, 0], 0⟩, keeper := true
    scrubStop := false, banks := SMap.mapVal (fun _ (b : Bank) => { b with openRow := none }) x.banks }
  let s := s.setF (Reg.vltStatus_scrub_busy i) 0
  x.watches.foldl (fun s w =>
    match w.who with
    | .core j =>
      match (s.core j).hold with
      | .wait y => if y.remote || y.vid != i then s
        else s.setCore j { s.core j with hold := .wait { y with armed := false, nextTry := s.now } }
      | _ => s
    | .remote src _ g _ =>
      s.sendSpray (towerOf i) (vidNode src)
        { Packet.blank with cls := clsRsp, op := 5, srcEngine := 13, status := stNoResource, tag := g
                            dst := src * 2 ^ 32, src := s.vidOf i }) s

/-- The block is held in reset (14 R519, R520), and its reset is recorded with a status when it is released. -/
def State.holdBlock (s : State) (b : BlockReset) (st : Nat) : State :=
  let s := { s with rst := { s.rst with block := some { b with heldAt := s.now, status := st } } }
  let s := s.setF Reg.rstBlockStatus_state 2
  match b.kind with
  | 0 => s.resetCore b.site
  | 1 => s.resetSq b.site
  | _ => s.resetVault b.site

/-- BLOCK_IDLE (14 R520). -/
def execBlockIdle (s : State) : Host.Outcome State Fault Refusal :=
  match s.rst.block with
  | none => next s
  | some b => if s.getF Reg.rstBlockStatus_state = 1 && s.blockIdle b then next (s.holdBlock b stOk) else next s

/-- BLOCK_RESET_RELEASE (14 R520): after 1 µs. -/
def execBlockResetRelease (s : State) : Host.Outcome State Fault Refusal :=
  match s.rst.block with
  | none => next s
  | some b =>
    if s.getF Reg.rstBlockStatus_state ≠ 2 ∨ s.now < b.heldAt + us 1 then next s
    else
      let s := if b.kind = 2 then s.setVault b.site { s.vault b.site with keeper := false } else s
      next ((s.endBlock b.status).openPort b.site)

/-- BLOCK_RESET_TIMEOUT (14 R520): withdrawn with BLOCK_BUSY, or forced with RESET_ABORTED. -/
def execBlockResetTimeout (s : State) : Host.Outcome State Fault Refusal :=
  match s.rst.block with
  | none => next s
  | some b =>
    if s.getF Reg.rstBlockStatus_state ≠ 1 ∨ s.now < b.since + us b.timeout then next s
    else
      let s := s.setF Reg.rstBlockStatus_timed_out 1
      if b.force && b.kind != 2 then next (s.holdBlock b stResetAborted)
      else next ((s.endBlock stBlockBusy).openPort b.site)

end Sys2Proof.Machine
end

