-- ==== Sys2Proof/Machine/Boot.lean ====
section
/-!
DEFINITION. Bring-up, yield and trust (chapter 15): the boot stages, the manifest and its segments, rainfall and fetches,
the start-up tests, the yield map and log, the svn floor, attestation and licences.
-/
namespace Sys2Proof.Machine

/-! ## Stages (15 R531, R532) -/

/-- BOOT_STATUS.stage. -/
def State.bootStage (s : State) : Nat := s.getF Reg.bootStatus_stage

/-- A stage begins. -/
def State.toStage (s : State) (n : Nat) : State :=
  let s := s.setF Reg.bootStatus_stage n
  { s with boot := { s.boot with stageAt := s.now } }

/-- Boot stops with an outcome; the flash is released (15 R532). -/
def State.bootFail (s : State) (st : Nat) : State :=
  ((s.setF Reg.bootStatus_stage stageFailed).setF Reg.bootStatus_status st).setF Reg.bootStatus_flash_released 1

/-- A DEGRADED record of boot (16 R591 kind 26). -/
def State.bootRecord (s : State) (site addr : Nat) : State := s.record (mkRecord s 1 15 site 0 26 addr 0)

/-- The bound of a stage in milliseconds (15 R531). -/
def bootBound (n : Nat) : Nat := [1, 20, 50, 5, 150, 5, 150, 10, 20, 5].getD n 0

/-- BOOT_STAGE_TIMEOUT (15 R532); stage 7 ends by FETCH_STAGE_TIMEOUT (R546). -/
def execBootStageTimeout (s : State) : Host.Outcome State Fault Refusal :=
  let n := s.bootStage
  if s.rst.phase != .out || 9 < n || n = 7 || decide (s.now < s.boot.stageAt + ms (bootBound n)) then next s
  else next (s.bootFail stImageIncomplete)

/-- ROM_START (15 R531, R533): none where the flash does not answer, else its size, at most 256 MiB. -/
def execRomStart (flash : Option Nat) (s : State) : Host.Outcome State Fault Refusal :=
  if s.rst.phase != .out || s.bootStage != 0 then next s
  else
    match flash with
    | none => next (s.bootFail stImageIncomplete)
    | some n => if 0x10000000 < n then next (s.bootFail stImageIncomplete) else next (s.toStage 1)

/-! ## The manifest (15 R535 to R538) -/

/-- A segment: class, length, destination, digest (15 R536). -/
abbrev Segment := Nat × Nat × Nat × List Byte

/-- The entry of a segment table. -/
def segEntry (m : List Byte) (k : Nat) : Segment :=
  let o := 256 + 64 * k
  (fieldLE m o 1, fieldLE m (o + 4) 4, fieldLE m (o + 8) 8, slice m (o + 16) 48)

/-- The greatest total of a class (15 R536). -/
def classTotal (c : Nat) : Nat := if c = 2 then 0x2000000 else 0x800000

/-- Is a segment's destination in range (15 R536)? -/
def destOk (x : Segment) : Bool :=
  if x.1 = 2 then x.2.2.1 % 0x10000 == 0 && decide (x.2.2.1 + x.2.1 ≤ 0x2000000) else decide (x.2.2.1 + x.2.1 ≤ 0x800000)

/-- Are the segments in class order, each but the last of its class full (15 R536)? -/
def segsOk : List Segment → Bool
  | [] => true
  | [x] => decide (x.1 ≤ 2) && decide (1 ≤ x.2.1) && decide (x.2.1 ≤ 65536) && destOk x
  | x :: y :: rest =>
    decide (x.1 ≤ y.1) && decide (1 ≤ x.2.1) && decide (x.2.1 ≤ 65536) && (x.1 != y.1 || x.2.1 == 65536) && destOk x &&
      segsOk (y :: rest)

/-- The number of segments a manifest names. -/
def segCount (m : List Byte) : Nat := fieldLE m 12 4

/-- The bytes that the signature covers, and the signature's 96 after them. -/
def signedLen (m : List Byte) : Nat := 256 + 64 * segCount m

/-- The checks of 15 R538 step 1. -/
def manifestForm (m : List Byte) : Bool :=
  let n := segCount m
  let segs := (List.range n).map (segEntry m)
  fieldLE m 0 4 == 0x4C524D46 && fieldLE m 4 1 == 1 && fieldLE m 8 2 == 0x0744 && decide (1 ≤ n) && decide (n ≤ 768) &&
    decide (signedLen m + 96 ≤ m.length) && bits (fieldLE m 6 1) 7 4 == 0 && decide (fieldLE m 7 1 ≤ 63) &&
    zeroRange m 10 2 && zeroRange m 24 104 && zeroRange m 225 31 &&
    (List.range n).all (fun k => zeroRange m (257 + 64 * k) 3) && segsOk segs &&
    [0, 1, 2].all (fun c => decide (((segs.filter (fun x => x.1 == c)).map (fun x => x.2.1)).foldl (· + ·) 0 ≤ classTotal c))

/-- Do the manifest's form and its key pass (15 R538 steps 1 and 2), so that its signature is checked? -/
def State.manifestKeyed (s : State) (m : List Byte) : Bool :=
  manifestForm m && s.chip.imageKeys[fieldLE m 5 1]? == some (sha384 (slice m 128 97)) &&
    !bit s.chip.imageRevoked (fieldLE m 5 1)

/-- The outcome of 15 R538's checks: none when all pass. `sigFail` is BOOT_INJECT.sig_fail. -/
def State.manifestOutcome (s : State) (m : List Byte) (sigFail : Bool) : Option Nat :=
  let key := slice m 128 97
  if !manifestForm m then some stImageIncomplete
  else if !s.manifestKeyed m then some stSigInvalid
  else if sigFail || !ecdsaOk key (m.take (signedLen m)) (slice m (signedLen m) 96) then some stSigInvalid
  else if fieldLE m 7 1 < s.chip.svnFloor then some stImageRollback
  else none

/-- A checked manifest. -/
def manifestOf (m : List Byte) : Manifest :=
  { version := fieldLE m 16 8, svn := fieldLE m 7 1, keySlot := fieldLE m 5 1, revoke := fieldLE m 6 1
    digest := sha384 (m.take (signedLen m + 96)), segs := (List.range (segCount m)).map (segEntry m) }

/-- MANIFEST (15 R538): its bytes, or none where the flash does not answer. -/
def execManifest (bytes : Option (List Byte)) (s : State) : Host.Outcome State Fault Refusal :=
  if s.rst.phase != .out || s.bootStage != 1 then next s
  else
    match bytes with
    | none => next (s.bootFail stImageIncomplete)
    | some m =>
      let inject := s.on Reg.bootInject_sig_fail
      match s.manifestOutcome m inject with
      | some st =>
        let s := if inject && s.manifestKeyed m then s.setF Reg.bootInject_sig_fail 0 else s
        next (s.bootFail st)
      | none =>
        let x := manifestOf m
        let s := (s.setF Reg.bootImage_version (x.version % 2 ^ 32)).setF Reg.bootImage_svn x.svn
        let s := (s.setF Reg.bootImage_key_slot x.keySlot).setF Reg.bootImage_segments x.segs.length
        next ({ s with boot := { s.boot with manifest := some x } }.toStage 2)

/-! ## Segments (15 R539) -/

/-- The segments of the manifest. -/
def State.segs (s : State) : List Segment := (s.boot.manifest.map Manifest.segs).getD []

/-- Is a segment loaded? -/
def State.loaded (s : State) (k : Nat) : Bool := (SMap.find s.boot.image k).isSome

/-- Are all segments of a class loaded? -/
def State.classLoaded (s : State) (c : Nat) : Bool :=
  (List.range s.segs.length).all (fun k => (match s.segs[k]? with
    | some x => x.1 != c
    | none => true) || s.loaded k)

/-- Does a read of a segment match its length and digest? -/
def readMatches (x : Segment) (bs : List Byte) : Bool := bs.length == x.2.1 && sha384 bs == x.2.2.2

/-- What reads of a segment bring: its bytes; nothing yet; or, after three bad reads, failure (15 R539). -/
def segRead (x : Segment) (reads : List (List Byte)) : Option (Option (List Byte)) :=
  match (reads.take 3).find? (readMatches x) with
  | some bs => some (some bs)
  | none => if 3 ≤ reads.length then some none else none

/-- May a segment be read in this stage: MGMT in stage 2, DATA and then CORE in stages 3 to 6 (15 R531)? -/
def State.mayRead (s : State) (c : Nat) : Bool :=
  if c = 0 then s.bootStage == 2
  else decide (3 ≤ s.bootStage) && decide (s.bootStage ≤ 6) && (c == 1 || s.classLoaded 1)

/-- SEGMENT_READ (15 R539): up to three reads of segment k. -/
def execSegmentRead (k : Nat) (bytes : List (List Byte)) (s : State) : Host.Outcome State Fault Refusal :=
  match s.segs[k]? with
  | none => next s
  | some x =>
    if !s.mayRead x.1 || s.loaded k then next s
    else
      match segRead x bytes with
      | none => next s
      | some none => next (s.bootFail stImageIncomplete)
      | some (some bs) => next { s with boot := { s.boot with image := SMap.insert k bs s.boot.image } }

/-- MGMT_LOAD (15 R531, R557): every MGMT segment is loaded; the firmware starts, the device secret locked, and sets
the fixed rails (13 R504). -/
def execMgmtLoad (s : State) : Host.Outcome State Fault Refusal :=
  if s.bootStage != 2 || !s.classLoaded 0 then next s else next ((s.setF Reg.secStatus_secret_locked 1).setFixedRails.toStage 3)

/-! ## Yield log and tests (15 R547, R554, R555) -/

/-- Retires a row at boot; a vault that this retires whole shows why. -/
def State.bootRetireRow (s : State) (why v row : Nat) : State :=
  let t := s.retireRow v row
  if t.vaultState v = vsRetired ∧ s.vaultState v ≠ vsRetired then t.setYield v (why * 8) else t

/-- Retires a vault at boot. -/
def State.bootRetireVault (s : State) (why v : Nat) : State :=
  if s.vaultState v = vsRetired then s else (s.retireVault v).setYield v (why * 8)

/-- Applies a record of the log (15 R555). -/
def State.applyRecord (s : State) (r : List Byte) : State :=
  let v := fieldLE r 6 2
  if siteCount ≤ v then s
  else if fieldLE r 4 1 = 1 then
    s.bootRetireRow 2 v (fieldLE r 16 1 % 8 * 65536 + fieldLE r 17 1 % 16 * 4096 + fieldLE r 18 2 % 4096)
  else if fieldLE r 4 1 = 2 then s.bootRetireVault 2 v
  else s

/-- The valid records of the pending area. -/
def State.pendRecords (s : State) : List (List Byte) :=
  ((List.range pendMax).map s.pendRecord).filter s.recordValid

/-- FW_INIT (15 R531, R555): the log as read from flash; erased records are no entries. -/
def execFwInit (log : List (List Byte)) (s : State) : Host.Outcome State Fault Refusal :=
  if s.bootStage != 3 || !s.fwUp then next s
  else
    let log := log.filter (fun r => !r.all (fun b => b == 0xFF))
    let s := { s with boot := { s.boot with ylog := log } }
    let s := (log.filter s.recordValid ++ s.pendRecords).foldl State.applyRecord (s.retNote pendBase (64 * pendMax))
    next (s.toStage 4)

/-- MEM_TEST (15 R547): the failing rows by vault and physical row, and the vaults whose controller fails its self-test.
What the test leaves in the vaults is not given. -/
def execMemTest (rows : List (Nat × Nat)) (vaults : List Nat) (s : State) : Host.Outcome State Fault Refusal :=
  if s.bootStage != 4 then next s
  else
    let site := s.getF Reg.bootInject_site
    let inject := s.on Reg.bootInject_row_fail && decide (site < siteCount)
    let rows := if inject then rows ++ [(site, Config.freeNat s.fresh % 2 ^ 19)] else rows
    let s := if inject then (s.bump 1).setF Reg.bootInject_row_fail 0 else s
    let s := { s with
      epoch := s.epoch + 1
      fillBg := none
      vaults := SMap.mapVal (fun _ (x : Vault) => { x with epoch := s.epoch + 1, bg := none, mem := [], wbuf := [] }) s.vaults }
    let rows := (rows.filter (fun r => decide (r.1 < siteCount) && decide (r.2 < 2 ^ 19) &&
      !(s.vault r.1).retired.contains r.2 && s.vaultState r.1 != vsRetired)).eraseDups
    let vaults := (vaults.filter (fun v => decide (v < siteCount) && s.vaultState v != vsRetired)).eraseDups
    let s := rows.foldl (fun s r =>
      let off := r.2 % 4096 * 2 ^ 17 + r.2 / 65536 * 2 ^ 14 + r.2 / 4096 % 16 * 2 ^ 10
      let s := (s.bootRetireRow 1 r.1 r.2).bootRecord r.1 off
      { s with boot := { s.boot with found := s.boot.found ++ [yieldRecord s 1 0 r.1 r.2] } }) s
    let s := vaults.foldl (fun s v =>
      let s := (s.bootRetireVault 1 v).bootRecord v 0
      { s with boot := { s.boot with found := s.boot.found ++ [yieldRecord s 2 0 v 0] } }) s
    let full := fieldLE s.rst.optBytes 0x82 1 == 1
    next ((s.setF Reg.bootStatus_mem_full (b2n full)).toStage 5)

/-- INIT_FILL (06 R241, 15 R531): every vault in service holds pattern 0. -/
def execInitFill (s : State) : Host.Outcome State Fault Refusal :=
  if s.bootStage != 5 then next s
  else
    let s := { s with
      fillBg := some 0
      vaults := SMap.mapVal (fun _ (x : Vault) => { x with bg := some 0, mem := [], wbuf := [] }) s.vaults }
    let s := (List.range siteCount).foldl (fun s v =>
      if s.vaultState v = vsRetired then s else (s.fillCounts v).setF (Reg.vltStatus_state v) vsInService) s
    let s := s.toStage 6
    next (if (s.segs.filter (fun x => x.1 == 2)).isEmpty then s.toStage 7 else s)

/-! ## Rainfall (15 R541 to R543) -/

/-- The CORE segments in table order, each with its index in the table. -/
def State.coreSegs (s : State) : List (Nat × Segment) :=
  ((List.range s.segs.length).filterMap (fun k => (s.segs[k]?).map (fun x => (k, x)))).filter (fun e => e.2.1 == 2)

/-- Pieces of a segment. -/
def pieceCount (x : Segment) : Nat := ceilDiv x.2.1 256

/-- Where a piece number lies among the segments: the segment's position and the piece's within it. -/
def placePiece : List (Nat × Segment) → Nat → Nat → Option (Nat × Nat)
  | [], _, _ => none
  | e :: rest, j, n => if n < pieceCount e.2 then some (j, n) else placePiece rest (j + 1) (n - pieceCount e.2)

/-- Does a site have a boot receiver: its core fused good, its vault in service (15 R541)? -/
def State.eligible (s : State) (i : Nat) : Bool := !s.chip.badCores.contains i && s.vaultState i != vsRetired

/-- A site's receiver. -/
def State.receiver (s : State) (i : Nat) : Receiver := SMap.get (fun _ => Receiver.reset) s.boot.receivers i

/-- Stores a receiver. -/
def State.setReceiver (s : State) (i : Nat) (r : Receiver) : State :=
  { s with boot := { s.boot with receivers := SMap.put (fun _ => Receiver.reset) i r s.boot.receivers } }

/-- RAINFALL (15 R541): the k-th CORE segment rains on every site; after the last one the receivers fetch. -/
def execRainfall (k : Nat) (s : State) : Host.Outcome State Fault Refusal :=
  match s.coreSegs[k]? with
  | none => next s
  | some e =>
    if s.bootStage != 6 || k != s.boot.rained || !s.loaded e.1 then next s
    else
      let s := s.setF Reg.bootRain_pieces (s.getF Reg.bootRain_pieces + pieceCount e.2)
      let s := { s with boot := { s.boot with rained := k + 1 } }
      next (if k + 1 = s.coreSegs.length then s.toStage 7 else s)

/-- Marks as missed every segment of a range of piece numbers (15 R543). -/
def State.markMissed (s : State) (r : Receiver) (lo hi : Nat) : Receiver :=
  let js := ((List.range (hi - lo)).filterMap (fun d => (placePiece s.coreSegs 0 (lo + d)).map Prod.fst)).eraseDups
  { r with missed := r.missed ++ js.filter (fun j => !r.missed.contains j) }

/-- RAINFALL_PIECE (15 R542, R543): a piece that has rained comes to a receiver, which drops it while all its 8 pieces are
held. -/
def execRainfallPiece (i : Site) (num : Nat) (full : Bool) (s : State) : Host.Outcome State Fault Refusal :=
  let r := s.receiver i
  if !s.eligible i || decide (s.getF Reg.bootRain_pieces ≤ num) || decide (num < r.next) || r.marked ||
      !(s.bootStage == 6 || s.bootStage == 7) then next s
  else
    let drop := s.on Reg.bootInject_drop && s.getF Reg.bootInject_site == i.val
    if drop then next (s.setF Reg.bootInject_drop 0)
    else if full then next s
    else
      match placePiece s.coreSegs 0 num with
      | none => next s
      | some (j, p) =>
        match s.coreSegs[j]? with
        | none => next s
        | some e =>
          let data := slice ((SMap.find s.boot.image e.1).getD []) (256 * p) 256
          let r := { s.markMissed r r.next num with next := num + 1, lastAt := some s.now }
          next ((s.writeVault i (e.2.2.2.1 + 256 * p) (clean data) false).1.setReceiver i r)

/-! ## Fetches (15 R544 to R546) -/

/-- Stage 7 ends when every receiver has finished. -/
def State.fetchDone (s : State) : State :=
  if s.bootStage == 7 && (List.range siteCount).all (fun i => !s.eligible i || (s.receiver i).done) then s.toStage 8 else s

/-- The fetch queue with a site's new request: after those of earlier cycles, and by site index among those of its own
(15 R545). -/
def State.queueFetch (s : State) (i : Nat) : List Nat :=
  let after := fun (j : Nat) => (s.receiver j).fetchAt == s.now && decide (i < j)
  s.boot.fetchQ.filter (fun j => !after j) ++ [i] ++ s.boot.fetchQ.filter after

/-- A receiver asks for its first missed segment, or has finished (15 R544, R545). -/
def State.nextFetch (s : State) (i : Nat) : State :=
  let r := s.receiver i
  if r.missed.isEmpty then (s.setReceiver i { r with done := true }).fetchDone
  else
    let s := (s.setReceiver i { r with fetchAt := s.now, served := false }).incSat Reg.bootRain_fetches 1
    { s with boot := { s.boot with fetchQ := s.queueFetch i } }

/-- A receiver takes the end marker (15 R543). -/
def State.takeMarker (s : State) (i count : Nat) : State :=
  let r := s.receiver i
  (s.setReceiver i { s.markMissed r r.next count with marked := true }).nextFetch i

/-- END_MARKER (15 R541, R543): it carries the total piece count. -/
def execEndMarker (i : Site) (count : Nat) (s : State) : Host.Outcome State Fault Refusal :=
  if s.bootStage != 7 || !s.eligible i || (s.receiver i).marked || (s.receiver i).done ||
      count != s.getF Reg.bootRain_pieces then next s
  else next (s.takeMarker i count)

/-- END_MARKER_TIMEOUT (15 R543): none within 1 ms of the last piece. -/
def execEndMarkerTimeout (i : Site) (s : State) : Host.Outcome State Fault Refusal :=
  let r := s.receiver i
  match r.lastAt with
  | none => next s
  | some t =>
    if s.bootStage != 7 || !s.eligible i || r.marked || r.done || decide (s.now < t + ms 1) then next s
    else next (s.takeMarker i (s.getF Reg.bootRain_pieces))

/-- Requests the fetch queue holds (15 R545); those past it wait. -/
def fetchQueue : Nat := 256

/-- SEGMENT_FETCH (15 R544, R545): the first request is served; with `reread`, the buffer's copy was uncorrectable and is
read from flash again (R539). -/
def execSegmentFetch (reread : Option (List (List Byte))) (s : State) : Host.Outcome State Fault Refusal :=
  match s.boot.fetchQ with
  | [] => next s
  | i :: rest =>
    let serve := fun (s : State) =>
      { s.setReceiver i { s.receiver i with served := true } with boot :=
        { (s.setReceiver i { s.receiver i with served := true }).boot with fetchQ := rest } }
    match reread with
    | none => next (serve s)
    | some reads =>
      match (s.coreSegs[(s.receiver i).missed.headD 0]?) with
      | none => next s
      | some e =>
        match segRead e.2 reads with
        | none => next s
        | some none => next (s.bootFail stImageIncomplete)
        | some (some bs) => next (serve { s with boot := { s.boot with image := SMap.insert e.1 bs s.boot.image } })

/-- A receiver's core is declared ABSENT for this boot (15 R546). -/
def State.declareAbsent (s : State) (i : Nat) : State :=
  let s := { s with boot := { s.boot with fetchQ := s.boot.fetchQ.filter (fun j => j != i) } }
  let s := if s.on Reg.bootInject_absent && s.getF Reg.bootInject_site == i then s.setF Reg.bootInject_absent 0 else s
  (s.setReceiver i { s.receiver i with done := true, absent := true, missed := [] }).bootRecord i 0

/-- FETCH_ATTEMPT_END (15 R544, R546): the answer's bytes, or none when 2 ms have passed without one. -/
def execFetchAttemptEnd (i : Site) (answer : Option (List Byte)) (s : State) : Host.Outcome State Fault Refusal :=
  let r := s.receiver i
  match s.coreSegs[r.missed.headD 0]? with
  | none => next s
  | some e =>
    let late := decide (r.fetchAt + ms 2 ≤ s.now)
    if s.bootStage != 7 || !r.marked || r.done || r.missed.isEmpty || !(if answer.isSome then r.served && !late else late) then next s
    else
      let inject := s.on Reg.bootInject_absent && s.getF Reg.bootInject_site == i.val
      let good := match answer with
        | some bs => !inject && readMatches e.2 bs
        | none => false
      if good then
        let s := (s.writeVault i e.2.2.2.1 (clean (answer.getD [])) false).1
        next ((s.setReceiver i { r with missed := r.missed.drop 1, attempts := 0 }).nextFetch i)
      else
        let s := s.incSat Reg.bootRain_fetch_failed 1
        let s := { s with boot := { s.boot with fetchQ := s.boot.fetchQ.filter (fun j => j != i.val) } }
        if 3 ≤ r.attempts + 1 then next (s.declareAbsent i).fetchDone
        else next ((s.setReceiver i { r with attempts := r.attempts + 1 }).nextFetch i)

/-- FETCH_STAGE_TIMEOUT (15 R546): receivers still working are declared ABSENT. -/
def execFetchStageTimeout (s : State) : Host.Outcome State Fault Refusal :=
  if s.bootStage != 7 || decide (s.now < s.boot.stageAt + ms (bootBound 7)) then next s
  else
    let late := (List.range siteCount).filter (fun i => s.eligible i && !(s.receiver i).done)
    next ((late.foldl State.declareAbsent s).toStage 8)

/-! ## Core tests and reconciliation (15 R548 to R553) -/

/-- CORE_TEST (15 R548, R549): the sites whose core fails, and the towers with a failing mesh router. -/
def execCoreTest (failed towers : List Nat) (s : State) : Host.Outcome State Fault Refusal :=
  if s.bootStage != 8 then next s
  else
    let site := s.getF Reg.bootInject_site
    let inject := s.on Reg.bootInject_core_fail
    let failed := if inject then failed ++ [site] else failed
    let s := if inject then s.setF Reg.bootInject_core_fail 0 else s
    let tested := fun (i : Nat) => s.eligible i && !(s.receiver i).absent
    let failed := (failed.filter (fun i => decide (i < siteCount) && tested i)).eraseDups
    let s := failed.foldl (fun s i => s.bootRecord i 0) s
    next ({ s with boot := { s.boot with coreFail := failed, towerBad := towers } }.toStage 9)

/-- Is a tower without a die link (11 R408)? -/
def State.towerCut (s : State) (t : Nat) : Bool := [t, 4 + t, 4 + (t + 3) % 4].all (fun l => s.linkState l != lkActive)

/-- A site's core state before the grade is applied: 0 a candidate (15 R550, 11 R408). -/
def State.coreVerdict (s : State) (i : Nat) : Nat :=
  if s.chip.badCores.contains i then 2
  else if s.vaultState i = vsRetired then 5
  else if (s.receiver i).absent || s.towerCut (towerOf i) then 4
  else if s.boot.coreFail.contains i || s.boot.towerBad.contains (towerOf i) then 3
  else 0

/-- The core states of a tower's sites in order, with `left` cores still to enable: the rest stand by (15 R551). -/
def gradeTower : Nat → List Nat → List Nat
  | _, [] => []
  | left, c :: cs =>
    if c != 0 then c :: gradeTower left cs
    else if 0 < left then 0 :: gradeTower (left - 1) cs else 1 :: gradeTower 0 cs

/-- Sets the yield map and the registers of a tower (15 R551 to R553, R563). -/
def State.reconcileTower (s : State) (t : Nat) : State :=
  let cs := gradeTower s.gradeCount ((List.range 576).map (fun j => s.coreVerdict (576 * t + j)))
  let count := fun (c : Nat) => (cs.filter (fun x => x == c)).length
  let s := (List.range 576).foldl (fun s j =>
    let i := 576 * t + j
    let c := cs.getD j 0
    let s := s.setYield i (c + yVault (s.yieldOf i) * 8)
    if c = 0 then s.setF (Reg.coreId_enabled i) 1 else s) s
  let s := (s.setF (Reg.bootTower_enabled t) (count 0)).setF (Reg.bootTower_standby t) (count 1)
  let s := s.setF (Reg.bootTower_short t) (b2n (decide (count 0 < s.gradeCount)))
  let s := s.setF (Reg.bootTower_out_of_service t) (b2n (s.boot.towerBad.contains t))
  let s := s.setF Reg.bootCounts_standby (s.getF Reg.bootCounts_standby + count 1)
  let s := s.setF Reg.bootCounts_fused_bad (s.getF Reg.bootCounts_fused_bad + count 2)
  let s := s.setF Reg.bootCounts_test_failed (s.getF Reg.bootCounts_test_failed + count 3)
  s.setF Reg.bootCounts_absent (s.getF Reg.bootCounts_absent + count 4)

/-- Records the yield log holds (15 R554). -/
def ylogMax : Nat := 16384

/-- What a record retires: kind, vault, layer, bank and row. -/
def retirementOf (r : List Byte) : List Byte := slice r 4 1 ++ slice r 6 2 ++ slice r 16 4

/-- One record for each distinct retirement. -/
def distinctRecords : List (List Byte) → List (List Byte) → List (List Byte)
  | _, [] => []
  | seen, r :: rs =>
    if seen.contains (retirementOf r) then distinctRecords seen rs
    else r :: distinctRecords (retirementOf r :: seen) rs

/-- The log after stage 9 (15 R555): pending records and the test's retirements appended, compacted where full. -/
def State.writeLog (s : State) : State :=
  let all := s.boot.ylog ++ s.pendRecords ++ s.boot.found
  let small := distinctRecords [] (all.filter s.recordValid)
  let log := if all.length ≤ ylogMax then all else small.take ylogMax
  let s := if all.length ≤ ylogMax ∨ small.length ≤ ylogMax then s else s.setF Reg.bootStatus_ylog_full 1
  ({ s with boot := { s.boot with ylog := log, found := [] } }).retWrite pendBase (List.replicate (64 * pendMax) 0)

/-- RECONCILE (15 R531, R533, R550 to R555). -/
def execReconcile (s : State) : Host.Outcome State Fault Refusal :=
  if s.bootStage != 9 || !s.fwUp then next s
  else
    let s := [0, 1, 2, 3].foldl State.reconcileTower s
    let gone := ((List.range siteCount).filter (fun i => yVault (s.yieldOf i) != 0)).length
    let s := (s.setF Reg.bootCounts_retired_vaults gone).writeLog
    let s := (s.setF Reg.bootStatus_flash_released 1).toStage stageDone
    next (s.setF Reg.glbState_state (if s.gradeFails then gsGradeFault else gsReady))

/-! ## The svn floor (15 R556) -/

/-- Is the state READY or GRADE_FAULT? -/
def State.inService (s : State) : Bool :=
  s.getF Reg.glbState_state == gsReady || s.getF Reg.glbState_state == gsGradeFault

/-- SVN_ARM. -/
def execSvnArm (s : State) : Host.Outcome State Fault Refusal :=
  next { s with boot := { s.boot with svnArmed := some s.now } }

/-- SVN_COMMIT (15 R556): within 1 ms of the arm, while READY or GRADE_FAULT. -/
def execSvnCommit (s : State) : Host.Outcome State Fault Refusal :=
  match s.boot.svnArmed, s.boot.manifest with
  | some t, some m =>
    if t + ms 1 ≤ s.now ∨ s.inService = false then next s
    else
      let s := { s with boot := { s.boot with svnArmed := none } }
      let floor := Nat.max s.chip.svnFloor m.svn
      let own := 2 ^ m.keySlot
      let rev := Nat.lor s.chip.imageRevoked (m.revoke - Nat.land m.revoke own)
      if floor = s.chip.svnFloor ∧ rev = s.chip.imageRevoked then next s
      else next ({ s with chip := { s.chip with svnFloor := floor, imageRevoked := rev } }.setF Reg.secSvnCommit_done 1)
  | _, _ => next s

/-! ## Attestation (15 R558, R559) -/

/-- A message of the management interfaces waits; over I3C an in-band interrupt says so once the device has a dynamic
address (18 R620). -/
def State.answerMessage (s : State) (bytes : List Byte) : State :=
  (s.emit (.message bytes)).inBand

/-- Does the firmware answer SPDM (15 R558)? -/
def State.spdmUp (s : State) : Bool :=
  let g := s.getF Reg.glbState_state
  s.fwUp && (g == gsReady || g == gsGradeFault || g == gsComputeReset)

/-- An SPDM answer of the firmware, while READY, GRADE_FAULT or COMPUTE_RESET. The bytes follow SPDM 1.3, which the spec
does not give: the command carries them. -/
def State.spdm (s : State) (answer : List Byte) : State := if s.spdmUp then s.answerMessage answer else s

/-- GET_VERSION. -/
def execGetVersion (_request answer : List Byte) (s : State) : Host.Outcome State Fault Refusal := next (s.spdm answer)
/-- GET_CAPABILITIES. -/
def execGetCapabilities (_request answer : List Byte) (s : State) : Host.Outcome State Fault Refusal := next (s.spdm answer)
/-- NEGOTIATE_ALGORITHMS. -/
def execNegotiateAlgorithms (_request answer : List Byte) (s : State) : Host.Outcome State Fault Refusal :=
  next (s.spdm answer)
/-- GET_DIGESTS. -/
def execGetDigests (_request answer : List Byte) (s : State) : Host.Outcome State Fault Refusal := next (s.spdm answer)
/-- GET_CERTIFICATE. -/
def execGetCertificate (_request answer : List Byte) (s : State) : Host.Outcome State Fault Refusal := next (s.spdm answer)
/-- CHALLENGE. -/
def execChallenge (_request answer : List Byte) (s : State) : Host.Outcome State Fault Refusal := next (s.spdm answer)
/-- GET_MEASUREMENTS (15 R559): the answer reports the seven blocks as they are now. -/
def execGetMeasurements (_request answer : List Byte) (s : State) : Host.Outcome State Fault Refusal :=
  next (if s.spdmUp then (s.emit (.measurements ((List.range 7).map (fun k => s.measurement (k + 1))))).spdm answer else s)
/-- SPDM_UNSUPPORTED: the error UnsupportedRequest. -/
def execSpdmUnsupported (_request answer : List Byte) (s : State) : Host.Outcome State Fault Refusal :=
  next (s.spdm answer)

/-! ## Licences (15 R560, R561, 12 R467) -/

/-- Do the fields of a licence of a length have their form (15 R561 step 1)? -/
def licenceForm (n : Nat) (x : List Byte) : Bool :=
  fieldLE x 6 2 == n && fieldLE x 0 4 == 0x4C444C43 && fieldLE x 4 1 == 1 && decide (fieldLE x 5 1 ≤ 1) &&
    decide (fieldLE x 16 8 < 16) && zeroRange x 24 40

/-- Does a licence name this part and a key slot that is not revoked, so that its signature is checked (15 R561 step 2)? -/
def State.licenceNamed (s : State) (x : List Byte) : Bool :=
  fieldLE x 8 8 == s.chip.serial.toNat && !bit s.chip.licRevoked (fieldLE x 5 1)

/-- Is a licence signed for this part (15 R561 step 2)? The key stands in no licence: the fuses hold its hash, and the
public key comes with the licence keys that the firmware carries (log entry 18). -/
def State.licenceSigned (s : State) (n : Nat) (x : List Byte) : Bool :=
  s.licenceNamed x &&
    (match s.chip.licKeys[fieldLE x 5 1]? with
     | some key => ecdsaOk key (x.take (n - 96)) (slice x (n - 96) 96)
     | none => false)

/-- An install completes with a status. -/
def State.endInstall (s : State) (c : Started) (st : Nat) : State :=
  let s := s.setF Reg.licStatus_last_status st
  let s := if st = stOk then s.incSat Reg.licStatus_installs 1 else s
  s.done c st (if st = stOk then s.features else 0)

/-- May a licence command run: none taken before it is unfinished (15 R561)? -/
def State.licenceTurn (s : State) (k : Nat) : Bool :=
  !(s.started.take k).any (fun c => c.done == none && (cmdOp c.cmd == 0x38 || cmdOp c.cmd == 0x39))

/-- LICENCE_INSTALL (15 R561, 12 R445, R467): the licence as host memory gives it. -/
def execLicenceInstall (k : Nat) (data : HostRead) (s : State) : Host.Outcome State Fault Refusal :=
  if !s.licenceTurn k then next s
  else
    next (s.command k 0x38 (fun s c =>
      let n := fieldLE c.cmd 8 4
      if n < 160 || 4096 < n || n % 8 != 0 then s.endInstall c stBadParam
      else
        let r := s.hostRead data
        match r.2 with
        | none => (r.1.hostRecord stHostFault).endInstall c stHostFault
        | some bs =>
          let x := (bs.take n).map Prod.fst
          if anyPoison (bs.take n) then (r.1.hostRecord stPoisoned).endInstall c stPoisoned
          else if bs.length < n || !licenceForm n x then r.1.endInstall c stBadParam
          else
            let inject := r.1.on Reg.licInject_arm && r.1.licenceNamed x
            let s := if inject then r.1.setF Reg.licInject_arm 0 else r.1
            if inject || !s.licenceSigned n x then s.endInstall c stSigInvalid
            else ({ s with features := Nat.lor s.features (fieldLE x 16 8) }).endInstall c stOk))

/-- LICENCE_QUERY (12 R445). -/
def execLicenceQuery (k : Nat) (s : State) : Host.Outcome State Fault Refusal :=
  if s.licenceTurn k then next (s.command k 0x39 (fun s c => s.done c stOk s.features)) else next s

end Sys2Proof.Machine
end

