-- ==== Sys2Proof/Machine/Debug.lean ====
section
/-!
DEFINITION. The debug unit, the activity telemetry, PLDM monitoring (chapter 17) and SETDASA (18 R620).
-/
namespace Sys2Proof.Machine

/-! ## Stepping (17 R593, R594) -/

/-- Is a step running? -/
def State.stepping (s : State) : Bool :=
  match s.dbg.stepSite with
  | some j => s.coreState j == csRunning && (s.core j).stepsLeft != 0
  | none => false

/-- DBG_STEP (17 R593): the held instruction issues without being matched, and up to n - 1 more, each matched. -/
def execDbgStep (v : BitVec 32) (s : State) : Host.Outcome State Fault Refusal :=
  let i := bits v.toNat 11 0
  let n := bits v.toNat 19 12
  if n = 0 ∨ siteCount ≤ i ∨ s.stepping ∨ s.coreState i ≠ csBreak then next (s.setF Reg.dbgStatus_step_err 1)
  else
    let s := s.setCore i { s.core i with stepsLeft := n }
    next ({ s with dbg := { s.dbg with stepSite := some i } }.resumeCore i)

/-! ## The wait-graph snapshot (17 R595 to R597) -/

/-- A snapshot record. -/
def snapRecord (site kind cmp expected flag seen waited itag rearms : Nat) : List Byte :=
  toLE 2 site ++ toLE 1 kind ++ toLE 1 cmp ++ toLE 4 expected ++ toLE 8 flag ++ toLE 8 seen ++ toLE 4 waited ++
    toLE 2 itag ++ toLE 2 rearms

/-- Microseconds since a wait began, from its deadline and timeout. -/
def waitedUs (now deadline timeout : Nat) : Nat := Nat.min (2 ^ 32 - 1) ((now + us timeout - deadline) / 1000)

/-- The record of a core: of the WAIT that holds its sequencer, else of the POP or POPA that waits for a bundle. -/
def State.snapOf (s : State) (i : Nat) : Option (List Byte) :=
  let c := s.core i
  let rearms := s.getF (Reg.coreWaitState_rearms i)
  match c.hold with
  | .wait x =>
    let flag := (if x.remote then x.vid else s.vidOf x.vid) * 2 ^ 32 + x.off
    some (snapRecord i 0 x.cmp x.value flag x.seen (waitedUs s.now x.deadline (bits c.cur.toNat 119 96))
      (iTag c.cur.toNat) rearms)
  | _ =>
    match c.sq with
    | e :: _ =>
      let n := e.w.toNat
      if s.popWaits i then
        some (snapRecord i (iOp n) 0 0 (s.ownQueue i) 0 (waitedUs s.now e.deadline (popF n e.ops).timeout) (iTag n) rearms)
      else none
    | [] => none

/-- The ticks a snapshot takes: at least one, at most 1 ms; how many is not stated: a free value. -/
def snapTicks (n : Nat) : Nat := Config.freeNat n % ms 1 + 1

/-- Writes the records and the header of a snapshot to host memory. -/
def State.snapWrite (s : State) (cores : List Nat) : State :=
  let recs := cores.filterMap s.snapOf
  let base := s.getF Reg.dbgSnapAddr_addr * 64
  let s := (recs.zip (List.range recs.length)).foldl (fun s r =>
    s.emit (.hostWrite (base + 32 + 32 * r.2) (clean r.1))) s
  (s.emit (.hostWrite base (clean (toLE 4 recs.length ++ List.replicate 4 0 ++ toLE 8 s.now ++
    toLE 8 (s.now + snapTicks s.fresh) ++ List.replicate 8 0)))).bump 1

/-- The cores of a channel in site order. -/
def sitesUp (cs : List Nat) : List Nat := (List.range siteCount).filter cs.contains

/-- SNAPSHOT: a write of DBG_SNAP (17 R595, R597); `writeOk` says whether the host writes arrive. -/
def execSnapshot (v : BitVec 32) (writeOk : Bool) (s : State) : Host.Outcome State Fault Refusal :=
  let k := bits v.toNat 13 0
  let s := s.setF Reg.dbgSnap_chan k
  let c := s.chan k
  if !bit v.toNat 14 then next s
  else if s.on Reg.dbgStatus_snap_busy ∨ (c.st ≠ .live ∧ c.st ≠ .faulted) ∨ !writeOk then
    next (s.setF Reg.dbgStatus_snap_err 1)
  else next (s.snapWrite (sitesUp c.cores))

/-! ## Trace (17 R598 to R603) -/

/-- Ticks of a management cycle (01 R34). -/
def mgmtCycle : Nat := 2

/-- Records the store holds. -/
def traceStore : Nat := 256

/-- Does a record come before another of its cycle: by site, then instruction before routing (17 R602)? -/
def traceBefore (a b : TraceRec) : Bool :=
  let place := fun (r : TraceRec) => bits (fieldLE r 12 4) 11 0 * 4 + bits (fieldLE r 12 4) 13 12
  fieldLE a 0 4 == fieldLE b 0 4 && decide (place a < place b)

/-- The event taken next, and the others. -/
def traceNext : TraceRec → List TraceRec → List TraceRec → TraceRec × List TraceRec
  | a, [], kept => (a, kept)
  | a, b :: rest, kept => if traceBefore b a then traceNext b rest (kept ++ [a]) else traceNext a rest (kept ++ [b])

/-- An overflow record (17 R600); its site, status and opcode are 0. -/
def overflowRecord (s : State) (n : Nat) : TraceRec :=
  toLE 4 s.now ++ toLE 4 n ++ List.replicate 4 0 ++ toLE 4 (2 * 2 ^ 12)

/-- TRACE_RECORD (17 R602): the next event becomes a record in the store, or is dropped and counted when the store is
full. -/
def execTraceRecord (s : State) : Host.Outcome State Fault Refusal :=
  match s.dbg.incoming with
  | [] => next s
  | a :: rest =>
    let r := traceNext a rest []
    let d := { s.dbg with incoming := r.2 }
    if d.store.length < traceStore then next { s with dbg := { d with store := d.store ++ [r.1] } }
    else next ({ s with dbg := { d with droppedSince := d.droppedSince + 1 } }.incSat Reg.dbgTraceCnt_dropped 1)

/-- The trace unit writes 16 bytes to a sky address as a remote write from the I/O die (17 R598): none where the write
cannot go now. -/
def State.traceOut (s : State) (a : Nat) (r : TraceRec) : Option State :=
  let x := s.skyRange ioDie a 16 stTranslation true 0
  if x.st != stOk then some (x.s.traceWritten x.st)
  else if !x.ready then none
  else
    let id := x.s.newJob
    let w := x.s.writePieces hostSite x.pieces (clean r) false
    let q := w.1.sendWrites hostSite hostEngine id hostPkt a false (clean r) x.pieces
    if q.2 = 0 then some (q.1.traceWritten w.2.1)
    else some (q.1.addJob { Job.start id hostSite hostEngine 0 0 with fin := .traceWrite, status := w.2.1, left := q.2 })

/-- Is a record to be written in this management cycle: at most one is (17 R602)? -/
def State.traceTurn (s : State) : Bool := s.dbg.wroteAt != some (s.now / mgmtCycle)

/-- TRACE_WRITE (17 R598, R602): the oldest record goes to the trace range; a full range wraps, or ends tracing. Where
records were dropped, an overflow record takes the space that returns. -/
def execTraceWrite (s : State) : Host.Outcome State Fault Refusal :=
  let len := s.getF Reg.dbgTraceLen_len / 64 * 64
  match s.dbg.store with
  | [] => next s
  | r :: rest =>
    if !s.on Reg.dbgTraceCtrl_enable || s.dbg.stopped || len == 0 || !s.traceTurn then next s
    else
      match s.traceOut (s.getF Reg.dbgTraceBase_base + s.dbg.pos) r with
      | none => next s
      | some t =>
        let p := s.dbg.pos + 16
        let full := decide (len ≤ p) && !s.on Reg.dbgTraceCtrl_wrap
        let t := { t with dbg := { t.dbg with
          store := if s.dbg.droppedSince = 0 then rest else rest ++ [overflowRecord s s.dbg.droppedSince]
          droppedSince := 0, wroteAt := some (s.now / mgmtCycle)
          pos := if len ≤ p then 0 else p, stopped := t.dbg.stopped || full } }
        next (if full then t.setF Reg.dbgStatus_trace_full 1 else t)

/-! ## Activity telemetry (17 R604) -/

/-- The activity counters of a tower, by TEL_SUM index: each a key of its last value and its field. -/
def telCounters (t k : Nat) : List (Nat × Fld) :=
  let site := fun (f : Nat → Fld) => (List.range 576).map (fun j => ((576 * t + j) * 8 + k, f (576 * t + j)))
  match k with
  | 0 => site Reg.mxaCntStep_steps
  | 1 => site Reg.tleCntLane_lanes
  | 2 => site Reg.vltCntRd_bytes
  | 3 => site Reg.bkuCntBusy_unit_cycles
  | 4 => site Reg.sqCntBytes_words
  | _ => [((4 * 576 + t) * 8, Reg.skyCntTx_flits t)]

/-- Latches one counter of a tower: its increase, right across a wrap, summed over the sites. -/
def State.latchSum (s : State) (t k : Nat) : State :=
  let r := (telCounters t k).foldl (fun (x : Nat × SMap Nat) c =>
    let v := s.getF c.2
    (x.1 + wrapAdd 48 v (2 ^ 48 - SMap.get (fun _ => 0) x.2 c.1), SMap.put (fun _ => 0) c.1 v x.2)) (0, s.dbg.last)
  { s with dbg := { s.dbg with last := r.2 } }.setF (Reg.telSum_sum (8 * t + k)) r.1

/-- TELEMETRY_LATCH (17 R604). -/
def execTelemetryLatch (s : State) : Host.Outcome State Fault Refusal :=
  if s.now % 1000000 != 0 || s.dbg.latchedAt == some s.now then next s
  else
    let s := { s with dbg := { s.dbg with latchedAt := some s.now } }
    next ((List.range 4).foldl (fun s t => (List.range 6).foldl (fun s k => s.latchSum t k) s) s)

/-! ## PLDM monitoring (17 R605) -/

/-- Does the firmware answer PLDM? -/
def State.pldmUp (s : State) : Bool :=
  let g := s.getF Reg.glbState_state
  s.fwUp && (g == gsReady || g == gsGradeFault || g == gsComputeReset)

/-- An answer with a reading; over I3C an in-band interrupt says that a message waits (18 R620). -/
def State.answerReading (s : State) (sensor : Nat) (v : Int) : State :=
  (s.emit (.reading sensor v)).inBand

/-- Fabric ports UP, summed over the towers. -/
def State.portsUp (s : State) : Nat :=
  (List.range 4).foldl (fun n t => n + ((List.range 32).filter (fun p => s.portIsUp t p)).length) 0

/-- The numeric sensors. -/
def State.numericSensor (s : State) (k : Nat) : Option Int :=
  match k with
  | 1 => some (s.getF Reg.glbPower_power_w)
  | 2 => some (s.getF Reg.ptmCap_effective_w)
  | 7 => some (sext 8 (s.getF Reg.glbTemp_logic_max))
  | 8 => some (sext 8 (s.getF Reg.glbTemp_dram_max))
  | 9 => some s.portsUp
  | _ => none

/-- The state sensors. -/
def State.stateSensor (s : State) (k : Nat) : Option Int :=
  if 3 ≤ k ∧ k ≤ 6 then some (s.getF (Reg.ptmTState_level (k - 3)))
  else if k = 10 then some (s.getF Reg.glbErr_uncorrected)
  else none

/-- GET_SENSOR_READING: no other sensor is answered. -/
def execGetSensorReading (sensor : Nat) (s : State) : Host.Outcome State Fault Refusal :=
  match s.numericSensor sensor with
  | some v => if s.pldmUp then next (s.answerReading sensor v) else next s
  | none => next s

/-- GET_STATE_SENSOR_READINGS. -/
def execGetStateSensorReadings (sensor : Nat) (s : State) : Host.Outcome State Fault Refusal :=
  match s.stateSensor sensor with
  | some v => if s.pldmUp then next (s.answerReading sensor v) else next s
  | none => next s

/-! ## I3C (18 R620) -/

/-- SETDASA at the static address 0x4C: the target takes its dynamic address. The interface runs from VAUX; a target
that has one no longer answers its static address. -/
def execSetdasa (addr : BitVec 7) (s : State) : Host.Outcome State Fault Refusal :=
  if !s.rst.vauxOk ∨ s.rst.i3cAddr ≠ 0 then next s
  else next { s with rst := { s.rst with i3cAddr := addr.toNat } }

end Sys2Proof.Machine
end

