-- ==== Sys2Proof/Machine/Bar.lean ====
section
/-!
DEFINITION. Accesses to the BARs: register reads and writes by field type (00 R13 to R18) with what a write of each
register does, the REG packets of other nodes (10 R375), BAR0 accesses of a wrong size (00 R16), unanswered reads
(12 R430), and the sky window (12 R431, R432).
-/
namespace Sys2Proof.Machine

/-! ## Fields (00 R13) -/

/-- A field after a write, bit by bit: `m` selects the bits the access writes, `was` is the register as this cycle found
it. An RW1C bit that hardware has set in the cycle of the write stays set (00 R14). -/
def fieldWritten (m v was old : Nat) (f : FieldDesc) : Nat :=
  let fm := Nat.land (setBits 0 f.hi f.lo (2 ^ (f.hi + 1 - f.lo) - 1)) m
  match f.ty with
  | .rw => old - Nat.land old fm + Nat.land v fm
  | .rw1c => old - Nat.land (Nat.land old was) (Nat.land v fm)
  | .rw1s => Nat.lor old (Nat.land v fm)
  | .ro => old
  | .wo => old

/-- A register after a write. -/
def regWritten (d : RegDesc) (m v was old : Nat) : Nat := d.fields.foldl (fieldWritten m v was) old

/-! ## Registers whose writes are ignored at times, and values stored as their nearer limit -/

/-- Is a write of a register ignored as a whole (02 R103, 12 R457, 12 R433, R474, 17 R603)? -/
def State.writeIgnored (s : State) (b : RegBlock) (i l : Nat) : Bool :=
  match b with
  | .core => (l == 8 && s.locked i) || ((l == 0x18 || l == 0x1C) && (s.locked i || s.coreState i != csIdle))
  | .cmp =>
    (decide (0x1000 ≤ l ∧ l < 0x2000) && decide (l % 0x40 < 0x10) && s.on (Reg.cmpRingCfg_enable ((l - 0x1000) / 0x40))) ||
    (decide (0x3000 ≤ l ∧ l < 0x3800) && decide (l % 0x20 < 8) && s.on (Reg.cmpEqCfg_enable ((l - 0x3000) / 0x20)))
  | .dbg => decide (0x20 ≤ l ∧ l < 0x60) && s.on Reg.dbgTraceCtrl_enable
  | _ => false

/-- The fields of a register that are stored as the nearer limit: each with its limits. -/
def limitsOf (b : RegBlock) (i l : Nat) : List (Fld × Nat × Nat) :=
  match b with
  | .mxa => if l = 4 then [(Reg.mxaFiller_window i, 0, 64)] else []
  | .vlt =>
    if l = 0x14 then [(Reg.vltArb_w_read i, 1, 15), (Reg.vltArb_w_write i, 1, 15), (Reg.vltArb_w_remote i, 1, 15)]
    else if l = 0x1C then [(Reg.vltEccCtrl_ce_threshold i, 1, 255)]
    else []
  | .bku => if l = 0 then [(Reg.bkuCtrl_max_active i, 1, 32)] else []
  | .sky =>
    if l = 0xC then [(Reg.skyE2e_lifetime_us i, 100, 30000), (Reg.skyE2e_reroute_ms i, 1, 255)]
    else if l = 0x18 then
      [(Reg.skyArb_w_req i, 1, 15), (Reg.skyArb_w_rsp i, 1, 15), (Reg.skyArb_w_tok i, 1, 15), (Reg.skyArb_w_mgt i, 1, 15)]
    else []
  | .hif => if l = 4 then [(Reg.hifCtrl_bar_timeout_us, 100, 10000)] else []
  | .ptm =>
    if l = 0 then
      [(Reg.ptmProfile_cap_w, 500, 2000), (Reg.ptmProfile_ramp_wpms, 10, 150), (Reg.ptmProfile_dew_floor, 20, 45)]
    else []
  | .ptmt => if l = 0x20 then [(Reg.ptmTKeepwarm_max_w i, 0, 160)] else []
  | .rst => if l = 0x10 then [(Reg.rstCrCfg_drain_us, 100, 10000)] else []
  | .ras =>
    if l = 4 then [(Reg.rasCtrl_ce_interval_ms, 1, 1000)]
    else if l = 0x18 then [(Reg.rasWdog_timeout_ms, 5, 1000)]
    else []
  | _ => []

/-! ## What writes do -/

/-- The state a command leaves. -/
def after (s : State) (f : State → Host.Outcome State Fault Refusal) : State :=
  match f s with
  | .next s' => s'
  | _ => s

/-- Does something if a bit of the written value is 1. -/
def State.ifBit (s : State) (v n : Nat) (f : State → Host.Outcome State Fault Refusal) : State :=
  if bit v n then after s f else s

/-- Flips a word of a memory by an armed injection: one bit, or two (16 R591). -/
def flipped (d : Nat → Codeword) (m : EccMem) (k : Nat) (two : Bool) : EccMem :=
  let w := EccMem.word d m k
  SMap.put d k ⟨w.d ^^^ (if two then 3 else 1), w.c⟩ m

/-- A write that arms RAS_INJECT (16 R590, R591): kinds 1 and 6 write the flipped word at once; a single error of a
management SRAM word is a CE record. -/
def State.armRas (s : State) : State :=
  let a := s.getF Reg.rasInjectAddr_addr
  let i := s.getF Reg.rasInject_index
  let two := s.on Reg.rasInject_mode
  if !s.on Reg.rasInject_arm then s
  else
    match s.getF Reg.rasInject_kind with
    | 1 =>
      if i < siteCount ∧ a < scratchSize then
        let c := s.core i
        (s.setCore i { c with scratch := flipped scratchZero c.scratch (a / 8) two }).usedInject
      else s
    | 6 =>
      if a < 0x10000 then
        { s with rst := { s.rst with retained := flipped retZero s.rst.retained (a / 8) two } }.usedInject
      else s
    | 7 => if two then s else (s.record (mkRecord s 0 16 0xFFFF 0 22 a 0)).usedInject
    | _ => s

/-- A sensor that an injection reports broken from now on is recorded (13 R508, 16 R591 kind 15). -/
def State.forcedBroken (before s : State) : State :=
  let die := s.getF Reg.ptmSensorSel_die
  let k := s.getF Reg.ptmSensorSel_index
  if s.on Reg.ptmInject_force_broken && decide (k < sensorCount die) && !(before.sensor die k).broken then
    s.ptmRecord 1 (sensorSite die) 15 k
  else s

/-- A write of DBG_TRACE_CTRL (17 R601, R603): while enable is 1 only enable is written; tracing that begins starts at
the base of its range with an empty store. -/
def State.writeTraceCtrl (s : State) (v : Nat) : State :=
  let was := s.on Reg.dbgTraceCtrl_enable
  let s := s.setF Reg.dbgTraceCtrl_enable (v % 2)
  let s := if !was && bit v 0 then
      { s with dbg := { s.dbg with incoming := [], store := [], pos := 0, droppedSince := 0, stopped := false } } else s
  if was then s
  else
    let s := ((s.setF Reg.dbgTraceCtrl_wrap (bits v 1 1)).setF Reg.dbgTraceCtrl_instr_en (bits v 2 2)).setF
      Reg.dbgTraceCtrl_chan (bits v 17 4)
    if bit v 3 && !s.licensed licTrace then (s.setF Reg.dbgTraceCtrl_route_en 0).setF Reg.dbgStatus_lic_err 1
    else s.setF Reg.dbgTraceCtrl_route_en (bits v 3 3)

/-- A write of a ring's or an event ring's configuration (12 R433, R440, R474): its size, while it is not enabled, then
its enable bit. -/
def State.writeRingCfg (s : State) (event : Bool) (r : Nat) (v : Nat) : State :=
  let k := clampNat 4 16 (bits v 4 0)
  let on := if event then s.on (Reg.cmpEqCfg_enable r) else s.on (Reg.cmpRingCfg_enable r)
  let s := if on then s
    else s.setF (if event then Reg.cmpEqCfg_log2_entries r else Reg.cmpRingCfg_log2_entries r) k
  if bit v 8 == on then s else after s (execRingEnableWrite event (Fin.ofNat 64 r) (bit v 8))

/-- The registers whose writes are operations of their own: the state after the write, or none for any other register.
`v` is the value of the whole register. -/
def State.writeOwn (s : State) (b : RegBlock) (i l v : Nat) : Option State :=
  let v32 := BitVec.ofNat 32 v
  let site := Fin.ofNat 2304 i
  let t := Fin.ofNat 4 i
  match b with
  | .vlt =>
    if l = 0x10 then some (after s (execVltMapWrite site v32))
    else if l = 0x40 then some (after s (execRawAccess site v32))
    else if l = 0x58 then some (after s (execVltRetire site v32))
    else none
  | .pfx => if l = 0x80 then some (after s (execPfxReclaimRelease v32)) else none
  | .sq =>
    if l = 0 then
      let s := s.setF (Reg.sqCtrl_cut i) (bits v 8 1)
      some (if bit v 0 == s.on (Reg.sqCtrl_open i) then s else after s (execSqOpenWrite site (bit v 0)))
    else none
  | .sky =>
    if l = 0 then some (after s (execSkyNodeWrite t v32))
    else if l = 4 then
      let s := s.setF (Reg.skyCtrl_mgt_reg i) (bits v 1 1)
      some (if bit v 0 == s.on (Reg.skyCtrl_enable i) then s else after s (execSkyCtrlEnableWrite t (bit v 0)))
    else if l = 0x10 then some (after s (execSkyCreditWrite t (BitVec.ofNat 64 v)))
    else if 0x1000 ≤ l ∧ l < 0x1800 then
      some (after s (execRoutingEntryWrite t false (BitVec.ofNat 12 ((l - 0x1000) / 8)) (BitVec.ofNat 64 v)))
    else if 0x2000 ≤ l ∧ l < 0xA000 then
      some (after s (execRoutingEntryWrite t true (BitVec.ofNat 12 ((l - 0x2000) / 8)) (BitVec.ofNat 64 v)))
    else none
  | .opt =>
    if l < 0x400 ∧ l % 0x20 = 0 then
      let p := Fin.ofNat 32 (l / 0x20)
      let s := if bit v 0 == s.on (Reg.optPortCtrl_enable i p) then s else after s (execPortEnableWrite t p (bit v 0))
      some (s.ifBit v 1 (execPortRetrain t p))
    else none
  | .dlk =>
    if 0x100 ≤ l ∧ l < 0x300 ∧ l % 0x40 = 0 then
      let k := Fin.ofNat 8 ((l - 0x100) / 0x40)
      some ((after s (execForceDown k (bit v 1))).ifBit v 0 (execDlkLinkRetrain k))
    else none
  | .cmp =>
    if 0x1000 ≤ l ∧ l < 0x2000 ∧ l % 0x40 = 0x10 then some (s.writeRingCfg false ((l - 0x1000) / 0x40) v)
    else if 0x3000 ≤ l ∧ l < 0x3800 ∧ l % 0x20 = 8 then some (s.writeRingCfg true ((l - 0x3000) / 0x20) v)
    else none
  | .ptmt =>
    if l = 0 then
      some (if bit v 5 && !s.on (Reg.ptmTState_tripped i) then (s.setF (Reg.ptmTState_quiesce_done i) 1).relevel i else s)
    else none
  | .rst => if l = 0x18 then some (after s (execBlockResetGo v32)) else none
  | .dbg =>
    if l = 4 then some (after s (execDbgStep v32))
    else if l = 8 then some (after s (execSnapshot v32 (s.on Reg.hifLink_up)))
    else if l = 0x18 then some (s.writeTraceCtrl v)
    else none
  | _ => none

/-- What a write does beside storing the fields: the actions of write-only bits, each in the order of its bit but for
full_go and go, which an arm in the same write does not arm. -/
def State.writeActs (before s : State) (b : RegBlock) (i l v : Nat) : State :=
  let site := Fin.ofNat 2304 i
  match b with
  | .core =>
    if l = 8 then
      ((s.ifBit v 0 (execCoreCtrlStart site)).ifBit v 1 (execCoreCtrlStop site)).ifBit v 2 (execCoreCtrlResume site)
    else s
  | .vlt =>
    if l = 8 then
      let s := (s.ifBit v 0 (execVltInit site)).ifBit v 1 (execScrubStart site)
      let s := s.ifBit v 2 (execScrubAbort site)
      let s := if bit v 5 == before.on (Reg.vltCtrl_hold i) then s else after s (execVltHold site (bit v 5))
      s.ifBit v 6 (execRetireVault site)
    else s
  | .ptm =>
    if l = 0 then
      (if before.capRaiseInStorm (s.getF Reg.ptmProfile_cap_w) then
        s.setF Reg.ptmProfile_cap_w (before.getF Reg.ptmProfile_cap_w) else s).showCap
    else if l = 0x30 then s.ifBit v 0 execSensorRearm
    else if l = 0x28 ∨ l = 0x38 then before.forcedBroken s
    else s
  | .rst => if l = 8 then ((s.ifBit v 1 execFullGo).ifBit v 0 execFullArm).ifBit v 2 execComputeGo else s
  | .sec => if l = 8 then (s.ifBit v 1 execSvnCommit).ifBit v 0 execSvnArm else s
  | .ras => if l = 0x28 then s.ifBit v 0 execCrashRelease else if l = 0x20 then s.armRas else s
  | _ => s

/-- Writes a register: `m` selects the bits the access writes. -/
def State.writeReg (s : State) (b : RegBlock) (i l a : Nat) (d : RegDesc) (m v : Nat) : State :=
  if s.writeIgnored b i l then s
  else
    let old := (s.reg a).toNat
    let whole := old - Nat.land old m + Nat.land v m
    match s.writeOwn b i l whole with
    | some s' => s'
    | none =>
      let t := s.setReg a (BitVec.ofNat 64 (regWritten d m v (s.reg0 a).toNat old))
      let t := (limitsOf b i l).foldl (fun t f => t.setF f.1 (clampNat f.2.1 f.2.2 (t.getF f.1))) t
      s.writeActs t b i l (Nat.land v m)

/-! ## Accesses (00 R16 to R18) -/

/-- A window that stores: retained SRAM; host writes to its crash area are ignored while it is locked (14 R524). -/
def State.writeWindow (s : State) (b : RegBlock) (l n v : Nat) : State :=
  match b with
  | .rst =>
    if 0x10000 ≤ l ∧ l < 0x20000 ∧ !(l < 0x14000 ∧ s.on Reg.rstRetCtrl_crash_lock) then s.retWrite (l - 0x10000) (toLE n v)
    else s
  | _ => s

/-- Writes one aligned 32-bit word of BAR0. The low half of a 64-bit register is held until its high half comes; a high
half that no low half preceded changes its own bits alone. -/
def State.write32 (s : State) (a v : Nat) : State :=
  match barLocate a with
  | none => s
  | some (b, i, l) =>
    if s.absentAt b i l then s
    else
    match findReg b.regs l with
    | none => s.writeWindow b l 4 v
    | some (d, r, _) =>
      if d.width ≠ 64 then s.writeReg b i l a d (2 ^ 32 - 1) v
      else if r = 0 then { s with wrHold := SMap.insert a (BitVec.ofNat 32 v) s.wrHold }
      else
        let base := a - 4
        match SMap.find s.wrHold base with
        | some lo =>
          { s with wrHold := SMap.erase base s.wrHold }.writeReg b i (l - 4) base d (2 ^ 64 - 1) (lo.toNat + v * 2 ^ 32)
        | none => s.writeReg b i (l - 4) base d (2 ^ 64 - 2 ^ 32) (v * 2 ^ 32)

/-- Writes an aligned 64-bit word of BAR0: a 64-bit register at once, else two 32-bit words. -/
def State.write64 (s : State) (a v : Nat) : State :=
  match barLocate a with
  | none => s
  | some (b, i, l) =>
    if s.absentAt b i l then s
    else
    match findReg b.regs l with
    | none => if (findReg b.regs (l + 4)).isSome then s.write32 (a + 4) (v / 2 ^ 32) else s.writeWindow b l 8 v
    | some (d, _, _) =>
      if d.width = 64 then
        { s with wrHold := SMap.erase a s.wrHold }.writeReg b i l a d (2 ^ 64 - 1) v
      else (s.write32 a (v % 2 ^ 32)).write32 (a + 4) (v / 2 ^ 32)

/-- A BAR0 access of a wrong size or alignment is counted and captured (00 R16, 12 R473). -/
def State.badAccess (s : State) (off : Nat) : State := (s.incSat Reg.hifErr_bad_access 1).hifFirst 0 0 off

/-- A BAR0 write. -/
def State.barWrite (s : State) (off : Nat) (wide : Bool) (v : Nat) : State :=
  if off % (if wide then 8 else 4) != 0 then s.badAccess off
  else if wide then s.write64 off (v % 2 ^ 64) else s.write32 off (v % 2 ^ 32)

/-- Is a block offset the low half of a 64-bit word of a wide view: generators, windows, directory entries, latch
validity (02 R103, 07 R279, 08 R325, 12 R475)? -/
def wideView (b : RegBlock) (l : Nat) : Bool :=
  l % 8 == 0 &&
  match b with
  | .core => decide (0x200 ≤ l ∧ l < 0x400)
  | .bku => decide (0x40 ≤ l ∧ l < 0x60)
  | .pfx => decide (0x48 ≤ l ∧ l < 0x68)
  | .chn => l == 8 || decide (0x100 ≤ l ∧ l < 0x2100)
  | _ => false

/-- Is an aligned offset the low half of a 64-bit register? -/
def wideAt (a : Nat) : Bool :=
  match barLocate a with
  | none => false
  | some (b, _, l) =>
    wideView b l ||
    match findReg b.regs l with
    | none => false
    | some (d, r, _) => d.width == 64 && r == 0

/-- A read of the register at an offset: a 64-bit register whole, which latches its high half (00 R18), any other word
alone; reads of retained SRAM count what they detect. -/
def State.barRead (s : State) (a : Nat) : State × Nat :=
  if a % 4 != 0 then (s.badAccess a, 0)
  else if wideAt a then
    let hi := s.regWord (a + 4)
    ({ s with rdLatch := SMap.insert (a + 4) (BitVec.ofNat 32 hi) s.rdLatch }, s.regWord a + hi * 2 ^ 32)
  else
    match SMap.find s.rdLatch a with
    | some v => ({ s with rdLatch := SMap.erase a s.rdLatch }, v.toNat)
    | none =>
      let w := s.regWord a
      (if 0x00410000 ≤ a ∧ a < 0x00420000 then s.retNote (a - 0x00410000) 4 else s, w)

/-- REGISTER_WRITE (00 R13 to R18). -/
def execRegisterWrite (off : BitVec 27) (wide : Bool) (v : BitVec 64) (s : State) : Host.Outcome State Fault Refusal :=
  next (s.barWrite off.toNat wide v.toNat)

/-- BAR0_BAD_ACCESS (00 R16): a read returns 0, a write is discarded. -/
def execBar0BadAccess (isWrite : Bool) (off : BitVec 27) (size : Nat) (s : State) : Host.Outcome State Fault Refusal :=
  let a := off.toNat
  if (size = 4 ∨ size = 8) ∧ a % size = 0 then next s
  else
    let s := s.badAccess a
    next (if isWrite then s else s.emit (.barData 0 false))

/-! ## REG packets (10 R375) -/

/-- Answers with REG_DATA: a value and a status byte; the header's status field is 0 (10 R373). -/
def State.regAnswer (s : State) (k : Packet) (q v st : Nat) : State :=
  s.sendSpray (towerOf q) (vidNode k.src) { Packet.blank with
    cls := clsMgt, op := 5, srcEngine := 12, length := 9, status := 0, tag := k.tag, dst := k.src * 2 ^ 32
    src := s.towerVid (towerOf q), payload := clean (toLE 8 v ++ toLE 1 st) }

/-- Answers without a value; none is stated for it: a free value. -/
def State.regStatus (s : State) (k : Packet) (q st : Nat) : State :=
  (s.bump 1).regAnswer k q (Config.freeWord s.fresh).toNat st

/-- What a REG packet gets before any access: a status, or none when the access is made. -/
def State.regBarred (s : State) (t : Nat) (k : Packet) : Option Nat :=
  if !s.on (Reg.skyCtrl_mgt_reg t) then some stBadOpcode
  else if anyPoison k.payload then some stPoisoned
  else none

/-- REG_READ (10 R375) that came in at a tower. -/
def State.regReadPkt (s : State) (t q : Nat) (k : Packet) : State :=
  match s.regBarred t k with
  | some st => s.regStatus k q st
  | none =>
    let r := s.barRead (leP (k.payload.take 8) % 2 ^ 27)
    r.1.regAnswer k q r.2 stOk

/-- REG_WRITE (10 R375) that came in at a tower. -/
def State.regWritePkt (s : State) (t q : Nat) (k : Packet) : State :=
  match s.regBarred t k with
  | some st => s.regStatus k q st
  | none =>
    let a := leP (k.payload.take 8) % 2 ^ 27
    (s.barWrite a (wideAt a) (leP (slice k.payload 8 8))).regStatus k q stOk

/-! ## The sky window (12 R430 to R432) -/

/-- The vault a slot names, if it is valid. -/
def State.slotVault (s : State) (off : Nat) : Option Nat :=
  let k := off / 2 ^ 29
  if s.on (Reg.hifSkySlot_valid k) then some (s.getF (Reg.hifSkySlot_vault k)) else none

/-- An access to a slot that is not valid (12 R431). -/
def State.unmapped (s : State) (off : Nat) : State := (s.incSat Reg.hifErr_unmapped 1).hifFirst 2 2 off

/-- A job of the host link for a BAR4 access. -/
def barJob (s : State) (id st left : Nat) (fin : JobEnd) (buf : SMap (List PByte)) : Job :=
  { Job.start id hostSite hostEngine 0 0 with status := st, left := left, fin := fin, buf := buf, issued := s.now }

/-- SKY_WINDOW_READ (12 R431, R432). -/
def execSkyWindowRead (off : BitVec 40) (len : Nat) (s : State) : Host.Outcome State Fault Refusal :=
  let o := off.toNat
  match s.slotVault o with
  | none => next ((s.unmapped o).emit (.barData 0 false))
  | some vid =>
    let x := s.skyRange ioDie (vid * 2 ^ 32 + o % 2 ^ 29) len stTranslation false 0
    if x.st != stOk then next (x.s.endHostRead o len x.st [])
    else if !x.ready then next s
    else
      let id := x.s.newJob
      let r := x.s.readPieces hostSite x.pieces false
      let q := r.1.sendReads hostSite hostEngine id hostPkt false .buf x.pieces
      let buf := r.2.1.foldl (fun m p => SMap.insert p.1 p.2 m) []
      if q.2 = 0 then next (q.1.endHostRead o len r.2.2 (buf.flatMap Prod.snd))
      else next (q.1.addJob (barJob s id r.2.2 q.2 (.hostRead o len) buf))

/-- SKY_WINDOW_WRITE (12 R431, R432): a posted write. -/
def execSkyWindowWrite (off : BitVec 40) (data : List PByte) (s : State) : Host.Outcome State Fault Refusal :=
  let o := off.toNat
  match s.slotVault o with
  | none => next (s.unmapped o)
  | some vid =>
    let x := s.skyRange ioDie (vid * 2 ^ 32 + o % 2 ^ 29) data.length stTranslation true 0
    if x.st != stOk then next (x.s.endHostWrite o x.st)
    else if !x.ready then next s
    else
      let id := x.s.newJob
      let w := x.s.writePieces hostSite x.pieces data false
      let q := w.1.sendWrites hostSite hostEngine id hostPkt o false data x.pieces
      if q.2 = 0 then next (q.1.endHostWrite o w.2.1)
      else next (q.1.addJob (barJob s id w.2.1 q.2 (.hostWrite o) []))

/-- The BAR4 read of an offset that is still unanswered. -/
def State.barPending (s : State) (off : Nat) : Option Job :=
  s.jobs.find? (fun j => match j.fin with
    | .hostRead o _ => o == off
    | _ => false)

/-- Bytes of a job's BAR4 read. -/
def Job.readLen (j : Job) : Nat :=
  match j.fin with
  | .hostRead _ n => n
  | _ => 4

/-- A read that nothing answered completes with all ones (12 R430). -/
def State.readLost (s : State) (bar off len : Nat) : State :=
  ((s.emit (.barData (2 ^ (8 * len) - 1) false)).incSat Reg.hifErr_read_timeout 1).hifFirst 1 bar off

/-- BAR_READ_TIMEOUT (12 R429, R430): reads of GLB always complete; a BAR4 read whose packets are out waits
bar_timeout_us first. The all-ones data of a read not yet begun is shown as 4 bytes. -/
def execBarReadTimeout (bar4 : Bool) (off : BitVec 40) (s : State) : Host.Outcome State Fault Refusal :=
  let o := off.toNat
  if bar4 then
    match s.barPending o with
    | some j =>
      if s.now < j.issued + us (s.getF Reg.hifCtrl_bar_timeout_us) then next s
      else next ((s.dropJob j.id).readLost 2 o j.readLen)
    | none => next (s.readLost 2 o 4)
  else if o < 0x00100000 then next s
  else next (s.readLost 0 o 4)

end Sys2Proof.Machine
end

