-- ==== Sys2Proof/Machine/Mxa.lean ====
section
/-!
DEFINITION. The matrix array (chapter 03): MMA with its checks, operands, accumulators, flush, held tile and registers
(R105 to R139), and the array cycle by cycle: its queue, feeders, shadows, drain, freezes, gaps and filler (R114 to R123).
-/
namespace Sys2Proof.Machine

/-- The fields of an MMA (03 R107). -/
structure MmaF where
  s : Opnd
  v : Opnd
  d : Opnd
  sc : Opnd
  sfc : Nat
  sf : Fmt
  vf : Fmt
  keep : Bool
  acc : Bool
  zero : Bool
  flush : Bool
  dkind : Bool
  dtile : Nat
  sat : Bool
  cplx : Bool
  mx : Bool
  deriving DecidableEq, Repr

/-- The fields of an MMA from its word; displacements count in 64 B units. -/
def mmaF (c : Core) (n : Nat) : MmaF :=
  { s := c.opnd (bits n 35 32) (64 * sbits n 51 36), v := c.opnd (bits n 55 52) (64 * sbits n 71 56)
    d := c.opnd (bits n 92 89) (64 * sbits n 108 93), sc := c.opnd (bits n 115 112) (64 * sbits n 127 116)
    sfc := bits n 75 72, sf := Fmt.ofCode (bits n 75 72), vf := Fmt.ofCode (bits n 79 76), keep := bit n 80, acc := bit n 81
    zero := bit n 82, flush := bit n 83, dkind := bit n 84, dtile := bits n 88 85, sat := bit n 109
    cplx := bit n 110, mx := bit n 111 }

/-- Is an MMA operand out of its space, unaligned or out of range (03 R108)? -/
def mmaAddrBad (o : Opnd) (n : Nat) : Bool := !o.inScratch n || o.ea % 64 != 0

/-- Does the MMA read the scale area (03 R109)? -/
def MmaF.readsScale (f : MmaF) : Bool := f.mx || f.vf == .lt10

/-- Is a field the MMA does not use nonzero (03 R108)? -/
def mmaUnused (f : MmaF) (n : Nat) : Bool :=
  (f.keep && (bits n 35 32 != 0 || bits n 51 36 != 0)) ||
  (!f.flush && (f.dkind || f.dtile != 0 || bits n 92 89 != 0 || bits n 108 93 != 0)) ||
  (f.flush && !f.dkind && (bits n 92 89 != 0 || bits n 108 93 != 0)) ||
  (f.flush && f.dkind && f.dtile != 0) ||
  (!f.readsScale && (bits n 115 112 != 0 || bits n 127 116 != 0))

/-- Bytes of a flush to the scratchpad (03 R113). -/
def flushBytes (cplx : Bool) : Nat := if cplx then 8192 else 4096

/-- Holds the accumulator values of the other type (03 R124)? -/
def accMismatch (a : Acc) (isInt : Bool) : Bool := a.isInt == some (!isInt)

/-- The refusals of 03 R108, with the group where there is none. -/
def mmaCheck (c : Core) (f : MmaF) (n : Nat) : Option Group :=
  match groupOf f.sf f.vf with
  | none => none
  | some g =>
    let heldOk := match c.held with
      | none => false
      | some h => Fmt.ofCode h.sfmt.toNat == f.sf
    let a := if f.acc then c.acc1 else c.acc0
    if (!f.keep && mmaAddrBad f.s (statBytes g f.sf f.cplx)) || mmaAddrBad f.v (vecBytes g f.vf f.cplx) ||
        (f.readsScale && mmaAddrBad f.sc (scaleBytes g f.vf f.mx)) ||
        (f.flush && f.dkind && mmaAddrBad f.d (flushBytes f.cplx)) ||
        (f.vf == .lt10 && (f.mx || f.cplx)) ||
        (f.mx && (g == .i8 || g == .i4 || g == .h)) ||
        (f.cplx && ((g != .f8 && g != .i8) || f.acc)) ||
        (f.keep && (g == .h || f.cplx || !heldOk)) ||
        (f.sat && g.isInt) || (f.cplx && !f.dkind && f.dtile == 15) || mmaUnused f n ||
        (!f.zero && (accMismatch a g.isInt || (f.cplx && accMismatch c.acc1 g.isInt))) then none
    else some g

/-- Writes row j of an accumulator to the same row of a tile register; the lanes keep their flags (03 R113, R139). -/
def accRowToTile (a : Acc) (j : Nat) (old : Tile) : Tile :=
  mapLanes old (fun r l => if r = j then let e := a.at r l; ⟨e.v, e.poison, (old.at r l).flags⟩ else old.at r l)

/-- Is an element of the accumulator poisoned? -/
def accPoison (a : Acc) : Bool := a.el.any (fun e => e.2.poison)

/-- Raises the MXA flags (03 R140). -/
def State.mxaFlags (s : State) (i : Nat) (f : Flags) : State :=
  let s := if f.nanOp then s.setF (Reg.mxaStatus_nan_op i) 1 else s
  let s := if f.inv then s.setF (Reg.mxaStatus_inv i) 1 else s
  let s := if f.ovf then s.setF (Reg.mxaStatus_ovf i) 1 else s
  if f.isat then s.setF (Reg.mxaStatus_isat i) 1 else s

/-! ## The array's queue -/

/-- Entries of the array's queue (02 R67). -/
def mxaDepth : Nat := 8
/-- Entries of a row's feeder (03 R115). -/
def feedDepth : Nat := 8
/-- Result vectors in the drain buffer (03 R119). -/
def drainDepth : Nat := 8
/-- Bytes of the array's read port in a cycle (03 R117). -/
def readPort : Nat := 256

/-- Slots an MMA takes at row 0 (03 R114). -/
def MxaEnt.length (e : MxaEnt) : Nat := 32 * e.passes

/-- Does array row k swap at a slot of this MMA: the first of a pass that takes a new plane (03 R116, R134, R136)? -/
def MxaEnt.swapsAt (e : MxaEnt) (n : Nat) : Bool := (n - e.slot) % 32 == 0 && e.swaps.contains ((n - e.slot) / 32)

/-- The row of the flush whose last add is a slot's result: acc0 with the last pass, or with passes 2 and 3 of CX the
rows of acc0 and of acc1, which follow them (03 R113, R125, R136). -/
def MxaEnt.flushRow (e : MxaEnt) (n : Nat) : Option Nat :=
  let p := (n - e.slot) / 32
  let j := (n - e.slot) % 32
  match e.flush with
  | none => none
  | some _ =>
    if e.passes = 4 then (if p = 2 then some j else if p = 3 then some (32 + j) else none)
    else if p + 1 = e.passes then some j else none

/-- Rows of an MMA's flush. -/
def MxaEnt.flushRows (e : MxaEnt) : Nat := if e.passes = 4 then 64 else 32

/-- The MMA a slot belongs to. -/
def Mxa.entAt (a : Mxa) (n : Nat) : Option MxaEnt :=
  a.queue.find? (fun e => decide (e.slot ≤ n) && decide (n < e.slot + e.length))

/-- Row k of the array. -/
def Mxa.row (a : Mxa) (k : Nat) : MxaRow := a.rows.getD k ⟨0, 0, 0, 0⟩

/-- Does row k hold the element of its next slot? -/
def MxaRow.fed (r : MxaRow) : Bool := decide (r.used < r.fetched)
/-- Does the shadow of a row hold the next plane? -/
def MxaRow.ready (r : MxaRow) : Bool := decide (r.swapped < r.loaded)

/-- Replaces the entry of a job. -/
def Mxa.setEnt (a : Mxa) (e : MxaEnt) : Mxa :=
  { a with queue := a.queue.map (fun x => if x.job = e.job then e else x) }

/-- Puts an MMA into the queue: its slots and planes follow those before it. -/
def Mxa.push (a : Mxa) (e : MxaEnt) : Mxa :=
  { a with queue := a.queue ++ [{ e with slot := a.slots, plane := a.planes }], slots := a.slots + e.length
           planes := a.planes + e.swaps.length }

/-- What MXA_STATUS.pending and MXA_HELD.shadow_ready show (03 R140). -/
def State.mxaShow (s : State) (i : Nat) : State :=
  let a := (s.core i).mxa
  (s.setF (Reg.mxaStatus_pending i) a.queue.length).setF (Reg.mxaHeld_shadow_ready i) (b2n (a.rows.all MxaRow.ready))

/-- Ends the MMAs at the head of the queue that have completed, in queue order (03 R126). -/
def State.mxaRetire (s : State) (i : Nat) : Nat → State
  | 0 => s
  | k + 1 =>
    let c := s.core i
    match c.mxa.queue with
    | [] => s
    | e :: es =>
      if !e.done then s
      else
        let s := s.setCore i { c with mxa := { c.mxa with queue := es } }
        let s := match s.job? e.job with
          | some j => s.endJob j e.st false
          | none => s
        s.mxaRetire i k

/-- Queues an MMA with its job, which holds the scoreboard entry of its flush (03 R126, 02 R68). -/
def State.mxaQueue (s : State) (i : Nat) (w : BitVec 128) (e : MxaEnt) (dests : List (Nat × Nat)) (tiles : List Nat) :
    State :=
  let c := s.core i
  let id := s.newJob
  let s := s.setCore i { c with mxa := c.mxa.push { e with job := id } }
  let s := s.addJob { Job.start id i 2 0 (iTag w.toNat) with dests := dests, tiles := tiles }
  s.mxaShow i

/-- The passes of an MMA that take a new stationary plane, in order (03 R116, R134, R136). -/
def MmaF.swaps (f : MmaF) (g : Group) : List Nat :=
  if f.keep then [] else if f.cplx then [0, 2] else if g = .h then [0, 1] else [0]

/-- Bytes of a feeder entry: the element, or pair of elements, that a row consumes in a step (03 R115). -/
def entryBytes (g : Group) (vf : Fmt) : Nat := (vf.width * (if g.packed then 2 else 1) + 7) / 8

/-- The flush that an MMA asks for. -/
def MmaF.flushTo (f : MmaF) (out : MmaOut) : Option MxaFlush :=
  if f.flush then some ⟨if f.dkind then none else some f.dtile, f.d.ea, out.a0, out.a1, 0⟩ else none

/-- The tile registers an MMA writes. -/
def MmaF.tiles (f : MmaF) : List Nat :=
  if f.flush && !f.dkind then (if f.cplx then [f.dtile, f.dtile + 1] else [f.dtile]) else []

/-- The scratchpad range an MMA writes. -/
def MmaF.dests (f : MmaF) : List (Nat × Nat) := if f.flush && f.dkind then [(f.d.ea, flushBytes f.cplx)] else []

/-- An MMA that passed its checks (03 R125 to R139). It reads its operands as it issues, which 02 R69 allows, and its
results on the accumulators, which nothing else can see, stand from then on for the MMAs after it; its flush, flags and
status come about as its results leave the array. Which plane a CX MMA leaves held for keep = 1 is not stated: the one
swapped in last (log entry 78). -/
def mmaRun (i : Site) (w : BitVec 128) (f : MmaF) (g : Group) : Act := fun s =>
  let c := s.core i
  if decide (mxaDepth ≤ c.mxa.queue.length) || s.tilesBusy i f.tiles then none
  else
    let heldBytes := (c.held.map Held.bytes).getD []
    let rs := if f.keep then (s, heldBytes) else s.readScratch i f.s.ea (statBytes g f.sf f.cplx)
    let rv := rs.1.readScratch i f.v.ea (vecBytes g f.vf f.cplx)
    let rc := if f.readsScale then rv.1.readScratch i f.sc.ea (scaleBytes g f.vf f.mx) else (rv.1, [])
    let m : MmaIn := { g := g, sf := f.sf, vf := f.vf, cplx := f.cplx, mx := f.mx, sat := f.sat, zero := f.zero
                       stat := rs.2, vec := rv.2, scale := rc.2 }
    let s := rc.1
    let c := s.core i
    let out := m.run (if f.acc then c.acc1 else c.acc0) c.acc1 s.fresh
    let poison := anyPoison m.stat || anyPoison m.vec || anyPoison m.scale ||
      (f.flush && (accPoison out.a0 || (f.cplx && accPoison out.a1)))
    let c := { c with
      acc0 := if f.acc then c.acc0 else out.a0
      acc1 := if f.acc then out.a0 else if f.cplx then out.a1 else c.acc1
      held := if f.keep then c.held else some ⟨BitVec.ofNat 4 f.sfc, if f.cplx then m.splane 1 else m.stat⟩ }
    let e : MxaEnt := { job := 0, sfc := f.sfc, passes := passesOf g f.cplx, swaps := f.swaps g
                        rowBytes := rowBytes g f.sf, entBytes := entryBytes g f.vf, scale := rc.2.length, slot := 0
                        plane := 0, flush := f.flushTo out, flags := out.flags
                        st := if poison then stPoisoned else stOk, done := false }
    some (((s.setCore i c).bump 1).mxaQueue i w e f.dests f.tiles, Done.of stOk)

/-- An MMA that 03 R108 refuses: it completes in its turn, with no effect. -/
def mmaRefuse (i : Site) (w : BitVec 128) : Act := fun s =>
  if mxaDepth ≤ (s.core i).mxa.queue.length then none
  else if (s.core i).mxa.queue.isEmpty then refuse s stBadParam
  else
    let e : MxaEnt := { job := 0, sfc := 0, passes := 0, swaps := [], rowBytes := 0, entBytes := 0, scale := 0, slot := 0
                        plane := 0, flush := none, flags := .none, st := stBadParam, done := true }
    some (s.mxaQueue i w e [] [], Done.of stOk)

/-- MMA (03 R125). -/
def execMma (i : Site) (w : BitVec 128) (s : State) : Host.Outcome State Fault Refusal :=
  next (s.issue i w 2 [0] (fun s =>
    let n := w.toNat
    let c := s.core i
    let f := mmaF c n
    match mmaCheck c f n with
    | none => mmaRefuse i w s
    | some g => mmaRun i w f g s))

/-! ## A core cycle of the array -/

/-- QUIET. -/
def mxQuiet : Nat := 0
/-- STEPPING. -/
def mxStepping : Nat := 1
/-- FILLER. -/
def mxFiller : Nat := 2
/-- FROZEN. -/
def mxFrozen : Nat := 3

/-- A cycle without contention for the array's banks. -/
def freeCycle : ArrayCycle := ⟨0, 0, false, false⟩

/-- Is row 0 within an MMA that has made its first step? -/
def Mxa.mid (a : Mxa) : Bool :=
  let n := (a.row 0).used
  match a.entAt n with
  | some e => decide (e.slot < n)
  | none => false

/-- Can the next MMA make its first step: its row-0 plane is in the shadow or it keeps the current one, the feeder of
row 0 holds its vector 0, and its scale bytes have arrived (03 R118)? -/
def Mxa.canStart (a : Mxa) : Bool :=
  let r := a.row 0
  match a.entAt r.used with
  | some e => e.slot == r.used && (!e.swapsAt r.used || r.ready) && r.fed && e.scale == 0
  | none => false

/-- Must row k consume an element in this step: row 0 within an MMA, row k what row 0 took k steps before (03 R114)? -/
def Mxa.due (a : Mxa) (k : Nat) : Bool := if k = 0 then a.mid else a.hist.getD (k - 1) false

/-- Must row k swap as it consumes its next slot (03 R116)? -/
def Mxa.swapDue (a : Mxa) (k : Nat) : Bool :=
  let n := (a.row k).used
  match a.entAt n with
  | some e => e.swapsAt n
  | none => false

/-- The row of a flush that the result leaving in this step goes to, with its job. -/
def Mxa.leaving (a : Mxa) : Option (Nat × Nat) :=
  let n := (a.row 31).used
  if !a.due 31 then none
  else
    match a.entAt n with
    | some e => (e.flushRow n).map (fun r => (e.job, r))
    | none => none

/-- The causes for which the array freezes in this cycle: a dry feeder, a shadow row that is late, a full drain buffer
(03 R119). -/
structure Freeze where
  feedDry : Bool
  shadowLate : Bool
  drainFull : Bool
  deriving DecidableEq, Repr

/-- The freeze test at the start of a cycle. -/
def Mxa.freeze (a : Mxa) : Freeze :=
  let rows := (List.range 32).filter a.due
  { feedDry := rows.any (fun k => !(a.row k).fed)
    shadowLate := rows.any (fun k => a.swapDue k && !(a.row k).ready)
    drainFull := a.leaving.isSome && decide (drainDepth ≤ a.drain.length) }

/-- Any cause. -/
def Freeze.any (z : Freeze) : Bool := z.feedDry || z.shadowLate || z.drainFull

/-- May row k fetch its next entry: along the skew, at most 8 ahead of the row (03 R115), its bank free? -/
def Mxa.mayFetch (a : Mxa) (no : BitVec 32) (k : Nat) : Bool :=
  let r := a.row k
  decide (r.fetched < a.slots) && decide (r.fetched < r.used + feedDepth) &&
    (k == 0 || decide (r.fetched < (a.row (k - 1)).fetched)) && !no.getLsbD k

/-- The MMA that a plane belongs to. -/
def Mxa.planeEnt (a : Mxa) (p : Nat) : Option MxaEnt :=
  a.queue.find? (fun e => decide (e.plane ≤ p) && decide (p < e.plane + e.swaps.length))

/-- May the shadow of row k take the next plane: it is free, and an MMA of the queue brings one (03 R116)? -/
def Mxa.mayLoad (a : Mxa) (no : BitVec 32) (k : Nat) : Bool :=
  let r := a.row k
  !r.ready && decide (r.loaded < a.planes) && !no.getLsbD k

/-- Bytes of the entry that a row fetches next. -/
def Mxa.fetchBytes (a : Mxa) (k : Nat) : Nat := ((a.entAt (a.row k).fetched).map MxaEnt.entBytes).getD 0

/-- Scale bytes of the first MMA that waits for them. -/
def Mxa.scaleWait (a : Mxa) : Option MxaEnt := a.queue.find? (fun e => e.scale != 0)

/-- The rows whose shadow loads fit a budget of the read port, in row order. -/
def Mxa.loads (a : Mxa) (no : BitVec 32) : List Nat → Nat → List Nat
  | [], _ => []
  | k :: ks, left =>
    if !a.mayLoad no k then a.loads no ks left
    else
      let n := ((a.planeEnt (a.row k).loaded).map MxaEnt.rowBytes).getD 0
      if n ≤ left then k :: a.loads no ks (left - n) else []

/-- The reads of a cycle at the array's 256 B read port, in its order: feeder entries, then scale bytes, then shadow rows
(03 R115 to R117). The feeder entries of a cycle are at most 64 B, so all fit, whichever comes first. -/
def Mxa.fetch (a : Mxa) (x : ArrayCycle) : Mxa :=
  let fs := (List.range 32).filter (a.mayFetch x.feed)
  let left := readPort - (fs.map a.fetchBytes).foldl (· + ·) 0
  let sc := if x.scale then none else a.scaleWait
  let left := match sc with
    | some e => left - e.scale
    | none => left
  let ls := a.loads x.shadow (List.range 32) left
  let rows := (List.range 32).map (fun k =>
    let r := a.row k
    { r with fetched := if fs.contains k then r.fetched + 1 else r.fetched
             loaded := if ls.contains k then r.loaded + 1 else r.loaded })
  let a := { a with rows := rows }
  match sc with
  | some e => a.setEnt { e with scale := 0 }
  | none => a

/-- One step: every row that consumes an element moves on and swaps where a new plane begins; row 0 takes one where it is
within an MMA or starts one. -/
def Mxa.step (a : Mxa) (start : Bool) : Mxa :=
  let rows := (List.range 32).map (fun k =>
    let r := a.row k
    if !(a.due k || (k == 0 && start)) then r
    else { r with used := r.used + 1, swapped := if a.swapDue k then r.swapped + 1 else r.swapped })
  { a with rows := rows, hist := (a.mid || start) :: a.hist.take 30 }

/-- What happens in a core cycle of the array: it is frozen or steps, row 0 starts an MMA, runs a bubble, or the lead runs
before a start (03 R118 to R121). -/
structure CyclePlan where
  z : Freeze
  start : Bool
  lead : Bool
  bubble : Bool
  deriving DecidableEq, Repr

/-- The plan of a cycle. A quiet array that nothing may start on does nothing. -/
def Mxa.plan (a : Mxa) : CyclePlan :=
  let z := a.freeze
  let can := !z.any && !a.mid && a.canStart
  let lead := can && a.quiet && decide (a.leadRun < a.lead)
  let start := can && !lead
  { z := z, start := start, lead := lead, bubble := !z.any && !a.mid && !start && !lead && !a.quiet }

/-- The gap's counter and filler configuration as a cycle begins: the first bubble of a gap starts the counter at 0 and
takes the configuration that the registers hold (03 R120, R123). -/
def Mxa.openGap (a : Mxa) (bubble on : Bool) (window lead : Nat) : Mxa :=
  if bubble && !a.inGap then { a with inGap := true, gap := 0, fillerOn := on, window := window, lead := lead, leadRun := 0 }
  else a

/-- May filler operations run (03 R120)? -/
def Mxa.filling (a : Mxa) : Bool := a.fillerOn && decide (a.gap < a.window)

/-- Does a row take no element in this cycle? -/
def Mxa.idleSlot (a : Mxa) (p : CyclePlan) : Bool := (List.range 32).any (fun k => !(a.due k || (k == 0 && p.start)))

/-- The array after a cycle's step, its gap counter counting, quiet once no filler operation can start and no result is
in flight (03 R120). -/
def Mxa.after (a : Mxa) (p : CyclePlan) : Mxa :=
  let b := if p.z.any || p.lead || (a.quiet && !p.start) then a else a.step p.start
  let b := { b with leadRun := if p.lead then a.leadRun + 1 else a.leadRun }
  if p.start then { b with inGap := false, quiet := false }
  else
    let b := { b with gap := if a.inGap then a.gap + 1 else a.gap }
    { b with quiet := a.quiet || (b.inGap && !b.filling && !b.mid && !b.hist.contains true) }

/-- Marks the result that leaves: the last one of an MMA without flush completes it; one of a flush enters the drain
buffer (03 R125, R126). -/
def Mxa.leave (a : Mxa) (b : Mxa) : Mxa :=
  let n := (a.row 31).used
  match a.entAt n with
  | none => b
  | some e =>
    match e.flushRow n with
    | some r => { b with drain := b.drain ++ [(e.job, r)] }
    | none => if e.flush.isNone && n + 1 == e.slot + e.length then b.setEnt { e with done := true } else b

/-- The drain writes its oldest result row to the scratchpad, where it wins its banks, or to a tile register, one in a
cycle (03 R113, R117, R119). -/
def State.drainRow (s : State) (i : Nat) (late : Bool) : State :=
  let c := s.core i
  match c.mxa.drain with
  | [] => s
  | (job, r) :: rest =>
    match c.mxa.queue.find? (fun e => e.job == job) with
    | none => s.setCore i { c with mxa := { c.mxa with drain := rest } }
    | some e =>
      match e.flush with
      | none => s
      | some f =>
        if f.tile.isNone && late then s
        else
          let acc := if r < 32 then f.f0 else f.f1
          let e := { e with flush := some { f with drained := f.drained + 1 }
                            done := f.drained + 1 == e.flushRows }
          let c := { c with mxa := { c.mxa with drain := rest }.setEnt e }
          match f.tile with
          | some t =>
            let t := t + r / 32
            s.setCore i { c with tle := c.tle.setTile t (accRowToTile acc (r % 32) (c.tle.tile t)) }
          | none => (s.setCore i c).writeScratch i (f.addr + 128 * r) (acc.rowBytes (r % 32))

/-- The flags of an MMA as the last of its results leaves the array (03 R131, R138, R140). -/
def State.mxaRaise (s : State) (i : Nat) (e : MxaEnt) : State :=
  let s := s.mxaFlags i e.flags
  if e.st = stPoisoned then s.setF (Reg.mxaStatus_poison i) 1 else s

/-- MXA_HELD shows the tile that row 0 has taken (03 R116, R140). -/
def State.heldShow (s : State) (i : Nat) (a : Mxa) (start : Bool) : State :=
  let n := (a.row 0).used
  if !(a.mid || start) || !a.swapDue 0 then s
  else (s.setF (Reg.mxaHeld_valid i) 1).setF (Reg.mxaHeld_sfmt i) (((a.entAt n).map MxaEnt.sfc).getD 0)

/-- One core cycle of the array of a site (03 R114 to R123): the freeze test as the cycle begins, the drain's write, the
step or the frozen cycle, the reads, and what the registers of 03 R140 show of it. -/
def State.arrayCycle (s : State) (i : Nat) (x : ArrayCycle) : State :=
  let p := (s.core i).mxa.plan
  let s := s.drainRow i x.drain
  let a := (s.core i).mxa.openGap p.bubble (s.on (Reg.mxaCtrl_filler_enable i)) (s.getF (Reg.mxaFiller_window i))
    (s.getF (Reg.mxaFiller_lead i))
  let filler := p.lead || (a.filling && !a.quiet && (p.z.any || a.idleSlot p))
  let stepped := p.lead || !(p.z.any || (a.quiet && !p.start))
  let out := !p.z.any && a.due 31
  let b := a.after p
  let b := if out then a.leave b else b
  let s := s.setCore i { s.core i with mxa := b.fetch x }
  let s := if p.z.any then s else s.heldShow i a p.start
  let s := match a.entAt (a.row 31).used with
    | some e => if out && (a.row 31).used + 1 == e.slot + e.length then s.mxaRaise i e else s
    | none => s
  let s := if stepped then s.incWrap (Reg.mxaCntStep_steps i) 1 else s
  let s := if filler then s.incWrap (Reg.mxaCntFiller_fillers i) 1 else s
  let s := if p.z.feedDry then s.incSat (Reg.mxaCntFreeze_feed_dry i) 1 else s
  let s := if p.z.shadowLate then s.incSat (Reg.mxaCntFreeze_shadow_late i) 1 else s
  let s := if p.z.drainFull then s.incSat (Reg.mxaCntFreeze_drain_full i) 1 else s
  let s := s.setF (Reg.mxaStatus_state i)
    (if b.quiet then mxQuiet else if p.z.any then mxFrozen
     else if filler && !(List.range 32).any (fun k => a.due k) && !p.start then mxFiller else mxStepping)
  let s := s.mxaRetire i mxaDepth
  s.mxaShow i

/-- Runs cycles until one brings about what a command names, by the array before and after it; the cycles after it are
not run. None: no cycle does. -/
def State.arrayUntil (s : State) (i : Nat) (hit : Mxa → Mxa → Bool) : List ArrayCycle → Option State
  | [] => none
  | x :: xs =>
    let t := s.arrayCycle i x
    if hit (s.core i).mxa (t.core i).mxa then some t else t.arrayUntil i hit xs

/-- Runs cycles up to the named one; without it, the event has not come and nothing has happened. -/
def arrayEvent (i : Nat) (hit : Mxa → Mxa → Bool) (cycles : List ArrayCycle) (s : State) : Host.Outcome State Fault Refusal :=
  next ((s.arrayUntil i hit cycles).getD s)

/-- Cycles from what holds the banks in each of them. -/
def arrayCycles : List (BitVec 32) → List (BitVec 32) → List Bool → List Bool → List ArrayCycle
  | f :: fs, h :: hs, c :: cs, d :: ds => ⟨f, h, c, d⟩ :: arrayCycles fs hs cs ds
  | _, _, _, _ => []

/-- MMA_FIRST_STEP: the cycles up to the one in which a queued MMA makes its first step (03 R118). -/
def execMmaFirstStep (i : Site) (feed shadow : List (BitVec 32)) (scale drain : List Bool) (s : State) :
    Host.Outcome State Fault Refusal :=
  arrayEvent i (fun a _ => a.plan.start) (arrayCycles feed shadow scale drain) s

/-- FILLER_WINDOW_END: the cycles up to the one with which the gap counter reaches the window (03 R120). -/
def execFillerWindowEnd (r : ArrayRun) (s : State) : Host.Outcome State Fault Refusal :=
  arrayEvent r.site (fun _ b => b.inGap && b.fillerOn && b.gap == b.window) r.cycles s

/-- FILLER_LEAD_END: the cycles up to the one after the lead, in which the MMA makes its first step on a quiet array
(03 R121). -/
def execFillerLeadEnd (r : ArrayRun) (s : State) : Host.Outcome State Fault Refusal :=
  arrayEvent r.site (fun a _ => a.quiet && a.plan.start && a.lead != 0) r.cycles s

/-! ## The arrays in time -/

/-- Has an array anything to do: an MMA in its queue, or a gap that has not ended? -/
def Mxa.active (a : Mxa) : Bool := !a.queue.isEmpty || !a.quiet

/-- Core cycles of 1.5 GHz that end within the tick after `now` (01 R34). -/
def cyclesOf (now : Nat) : Nat := 3 * (now + 1) / 2 - 3 * now / 2

/-- The core cycles of one tick of every array that has anything to do. Nothing contends for their banks: what other
engines take is an input of the array's own commands (log entry 78). -/
def State.arrays (s : State) : State :=
  s.cores.foldl (fun s x =>
    if (s.core x.1).mxa.active then (List.range (cyclesOf (s.now - 1))).foldl (fun s _ => s.arrayCycle x.1 freeCycle) s
    else s) s

end Sys2Proof.Machine
end

