-- ==== Sys2Proof/Machine/Packets.lean ====
section
/-!
DEFINITION. Packets that come in by fabric ports (chapter 10): the receive buffers and the endpoint's round-robin (R377,
R400, R401), age (R386), transit (R368, R369, R372), and what each packet does at its site (R374).
-/
namespace Sys2Proof.Machine

/-- A packet that came in at a tower does its work at the site it is for (10 R374). -/
def State.deliverPkt (s : State) (t q : Nat) (k : Packet) (bad : List Nat) : State :=
  match k.cls, k.op with
  | 0, 0 => s.readPkt t q k
  | 0, 1 => s.writePkt t q k
  | 0, 2 => s.atomicPkt t q k
  | 0, 3 => s.watchArmPkt t q k
  | 0, 4 => s.watchCancelPkt q k
  | 1, 0 => s.readDataPkt t k
  | 1, 1 => s.writeAckPkt t k
  | 1, 2 => s.atomicOldPkt t k
  | 1, 3 => s.watchAckPkt t k
  | 1, 4 => s.noticePkt t q k
  | 1, 5 => s.refusedPkt t k
  | 1, 6 => s.admittedPkt t k
  | 1, 7 => s.acceptedPkt t k
  | 2, 0 => s.admitPkt q k
  | 2, 1 => s.dataPkt t q k bad
  | 2, 2 => s.abandonPkt q k
  | 3, 0 => s.pingPkt q k
  | 3, 1 => s.pongPkt t
  | 3, 2 => s.statePkt k
  | 3, 3 => s.regReadPkt t q k
  | 3, 4 => s.regWritePkt t q k
  | 3, 5 => s.regDataPkt t
  | _, _ => s.discard t

/-- What has reached its die is served, or refused; a source of this node takes the refusal at once. -/
def State.land (s : State) (x : Landing) : State :=
  match x with
  | .site t q k bad => s.deliverPkt t q k bad
  | .refuse t k st =>
    if vidNode k.src = s.nodeOf t then s.refusedPkt t (answerOf k 5 st (destVid k) []) else s.refusePkt t k st

/-- Everything that has reached its die, in order. -/
def State.landAll : Nat → State → State
  | 0, s => s
  | n + 1, s =>
    match s.landed with
    | [] => s
    | x :: rest => State.landAll n (({ s with landed := rest }).land x)

/-! ## Receive buffers -/

/-- REQ packets that a tower's endpoint holds (10 R401). -/
def poolSize : Nat := 4096

/-- Those that a tower's endpoint holds now. -/
def State.poolUsed (s : State) (t : Nat) : Nat :=
  s.vaults.foldl (fun n e => n + (e.2.waiting.filter (fun q => q.reply.isSome && q.via == t)).length) 0

/-- May the endpoint take a packet from its receive buffer: a REQ for this node needs room in the pool (10 R401), and no
failover holds its way (11 R420)? -/
def State.mayTake (s : State) (t : Nat) (k : Packet) : Bool :=
  if vidNode (destVid k) = s.nodeOf t then
    match vidSite (destVid k) with
    | none => true
    | some q => !s.dieHeld t (towerOf q) && !(k.cls == clsReq && decide (poolSize ≤ s.poolUsed t))
  else
    match s.route t (vidNode (destVid k)) with
    | none => true
    | some (g, _) => !s.dieHeld t g

/-- The first packet of each class and lane in a receive buffer. -/
def rxHeads (xs : List RxEnt) : List RxEnt :=
  xs.foldl (fun hs e => if hs.any (fun h => creditId h.pkt == creditId e.pkt) then hs else hs ++ [e]) []

/-- The packet that a tower's endpoint takes next, and its port: round-robin by port number (10 R400). -/
def State.meshPick (s : State) (t : Nat) : Option (Nat × RxEnt) :=
  let ptr := (s.tower t).mesh
  ((List.range 32).map (fun i => (ptr + i) % 32)).findSome? (fun p =>
    ((rxHeads (s.port t p).rx).find? (fun e => s.mayTake t e.pkt)).map (fun e => (p, e)))

/-- A packet in transit goes on, one link used (10 R368, R369, R372). -/
def State.forward (s : State) (t : Nat) (k : Packet) (back : Option (Nat × Nat)) : State :=
  let refuse := fun (s : State) => (s.freeRx back k).bounce t k stUnreachable
  if !k.hopsLeft then refuse s
  else
    match s.route t (vidNode (destVid k)) with
    | none => refuse s
    | some (g, cand) =>
      let on := fun (goal : Goal) => s.cross t
        { pkt := { k with hopsLeft := false }, hop := 0, transit := true, since := s.now, back := back, die := g, goal := goal }
      if k.cls = clsReq ∨ k.cls = clsTok then
        let o := flowPort cand k.src (destVid k) k.srcEngine
        if s.dieCut t g || !s.portIsUp g o then refuse s else on (.port o)
      else on .spray

/-- A packet leaves the receive buffer of a port: it has aged by its link and its wait (10 R386), and is discarded, goes
to its site, or goes on. -/
def State.takeIn (s : State) (t p : Nat) (e : RxEnt) : State :=
  let x := s.port t p
  let s := s.setPort t p { x with rx := x.rx.erase e }
  let back := some (32 * t + p, creditId e.pkt)
  let k := olderBy (olderBy e.pkt (s.getF (Reg.optPortStatus_delay_ns t p))) (s.now - e.at_)
  if s.expired t k then (s.freeRx back k).outlived t k
  else if reservedPkt k.cls k.op then (s.freeRx back k).discard t
  else if vidNode (destVid k) = s.nodeOf t then
    let s := s.freeRx back k
    match vidSite (destVid k) with
    | none => s.discard t
    | some q =>
      s.cross t { pkt := k, hop := 0, transit := false, since := s.now, back := none, die := towerOf q, goal := .site t q e.bad }
  else s.forward t k back

/-- A tower's endpoint takes what it may. -/
def State.meshRun (t : Nat) : Nat → State → State
  | 0, s => s
  | n + 1, s =>
    match s.meshPick t with
    | none => s
    | some (p, e) =>
      State.meshRun t n ((s.setTower t { s.tower t with mesh := (p + 1) % 32 }).takeIn t p e)

/-- Every tower's endpoint takes what it may, and what has reached its die is served. -/
def State.fabricOn (s : State) : State :=
  let n := s.ports.foldl (fun n e => n + e.2.rx.length) 0
  let s := ([0, 1, 2, 3].foldl (fun s t => State.meshRun t n s) s).pump
  State.landAll (2 * s.landed.length + 16) s

/-- A packet comes in by a port that is UP (10 R377). -/
def State.receive (s : State) (t p : Nat) (k : Packet) (bad : List Nat) : State :=
  if !s.portIsUp t p then s
  else
    let x := s.port t p
    (s.setPort t p { x with rx := x.rx ++ [⟨k, bad, s.now⟩] }).fabricOn

/-- A packet of a class and opcode for this node comes in by a port. -/
def State.packetIn (s : State) (t p : Nat) (k : Packet) (cls op : Nat) (bad : List Nat) : State :=
  if k.cls != cls || k.op != op || vidNode (destVid k) != s.nodeOf t then s else s.receive t p k bad

/-- A tick of the fabric: endpoints and links go on, and a port with nothing else to send returns credit in an idle flit
(10 R376, R377, R381). -/
def State.fabricTicks (s : State) : State :=
  let s := if s.landed.isEmpty && s.ports.all (fun e => e.2.rx.isEmpty) then s else s.fabricOn
  s.ports.foldl (fun s e =>
    let t := e.1 / 32
    let p := e.1 % 32
    if s.portIsUp t p && decide (0 < (s.port t p).retry.giveBack.2) then s.idleFlit t p false else s) s

/-! ## The packets -/

/-- READ (10 R392). -/
def execRead (t : Tower) (p : Sys2Proof.Port) (k : Packet) (s : State) : Host.Outcome State Fault Refusal :=
  next (s.packetIn t p k clsReq 0 [])

/-- WRITE (10 R392). -/
def execWrite (t : Tower) (p : Sys2Proof.Port) (k : Packet) (s : State) : Host.Outcome State Fault Refusal :=
  next (s.packetIn t p k clsReq 1 [])

/-- ATOMIC (10 R393). -/
def execAtomic (t : Tower) (p : Sys2Proof.Port) (k : Packet) (s : State) : Host.Outcome State Fault Refusal :=
  next (s.packetIn t p k clsReq 2 [])

/-- WATCH_ARM (10 R394). -/
def execWatchArm (t : Tower) (p : Sys2Proof.Port) (k : Packet) (s : State) : Host.Outcome State Fault Refusal :=
  next (s.packetIn t p k clsReq 3 [])

/-- WATCH_CANCEL (10 R394). -/
def execWatchCancel (t : Tower) (p : Sys2Proof.Port) (k : Packet) (s : State) : Host.Outcome State Fault Refusal :=
  next (s.packetIn t p k clsReq 4 [])

/-- READ_DATA (10 R374). -/
def execReadData (t : Tower) (p : Sys2Proof.Port) (k : Packet) (s : State) : Host.Outcome State Fault Refusal :=
  next (s.packetIn t p k clsRsp 0 [])

/-- WRITE_ACK (10 R374). -/
def execWriteAck (t : Tower) (p : Sys2Proof.Port) (k : Packet) (s : State) : Host.Outcome State Fault Refusal :=
  next (s.packetIn t p k clsRsp 1 [])

/-- ATOMIC_OLD (10 R374). -/
def execAtomicOld (t : Tower) (p : Sys2Proof.Port) (k : Packet) (s : State) : Host.Outcome State Fault Refusal :=
  next (s.packetIn t p k clsRsp 2 [])

/-- WATCH_ACK (10 R394). -/
def execWatchAck (t : Tower) (p : Sys2Proof.Port) (k : Packet) (s : State) : Host.Outcome State Fault Refusal :=
  next (s.packetIn t p k clsRsp 3 [])

/-- REFUSE (10 R384). -/
def execRefuse (t : Tower) (p : Sys2Proof.Port) (k : Packet) (s : State) : Host.Outcome State Fault Refusal :=
  next (s.packetIn t p k clsRsp 5 [])

/-- ADMITTED (10 R374). -/
def execAdmitted (t : Tower) (p : Sys2Proof.Port) (k : Packet) (s : State) : Host.Outcome State Fault Refusal :=
  next (s.packetIn t p k clsRsp 6 [])

/-- ACCEPTED (10 R374). -/
def execAccepted (t : Tower) (p : Sys2Proof.Port) (k : Packet) (s : State) : Host.Outcome State Fault Refusal :=
  next (s.packetIn t p k clsRsp 7 [])

/-- ADMIT (10 R388). -/
def execAdmit (t : Tower) (p : Sys2Proof.Port) (k : Packet) (s : State) : Host.Outcome State Fault Refusal :=
  next (s.packetIn t p k clsTok 0 [])

/-- ABANDON (10 R388). -/
def execAbandon (t : Tower) (p : Sys2Proof.Port) (k : Packet) (s : State) : Host.Outcome State Fault Refusal :=
  next (s.packetIn t p k clsTok 2 [])

/-- PING (10 R374). -/
def execPing (t : Tower) (p : Sys2Proof.Port) (k : Packet) (s : State) : Host.Outcome State Fault Refusal :=
  next (s.packetIn t p k clsMgt 0 [])

/-- PONG (10 R374). -/
def execPong (t : Tower) (p : Sys2Proof.Port) (k : Packet) (s : State) : Host.Outcome State Fault Refusal :=
  next (s.packetIn t p k clsMgt 1 [])

/-- STATE (10 R374). -/
def execStateMgt (t : Tower) (p : Sys2Proof.Port) (k : Packet) (s : State) : Host.Outcome State Fault Refusal :=
  next (s.packetIn t p k clsMgt 2 [])

/-- REG_READ (10 R375). -/
def execRegRead (t : Tower) (p : Sys2Proof.Port) (k : Packet) (s : State) : Host.Outcome State Fault Refusal :=
  next (s.packetIn t p k clsMgt 3 [])

/-- REG_WRITE (10 R375). -/
def execRegWrite (t : Tower) (p : Sys2Proof.Port) (k : Packet) (s : State) : Host.Outcome State Fault Refusal :=
  next (s.packetIn t p k clsMgt 4 [])

/-- REG_DATA (10 R375). -/
def execRegData (t : Tower) (p : Sys2Proof.Port) (k : Packet) (s : State) : Host.Outcome State Fault Refusal :=
  next (s.packetIn t p k clsMgt 5 [])

/-- DATA (10 R374); the words of some places are stored with failed parity (09 R339). -/
def execDataTok (t : Tower) (p : Sys2Proof.Port) (k : DataPacket) (s : State) : Host.Outcome State Fault Refusal :=
  next (s.packetIn t p k.pkt clsTok 1 k.bad)

/-- NOTICE (02 R82, 10 R394): from a vault of the package, or in a packet for a core. -/
def execNotice (i : Site) (n : NoticeIn) (s : State) : Host.Outcome State Fault Refusal :=
  match n with
  | .fromVault v => next (s.noticeHere i v)
  | .packet t p k => if k.dst != s.vidOf i * 2 ^ 32 then next s else next (s.packetIn t p k clsRsp 4 [])

/-- FABRIC_RESERVED_PACKET (10 R374). -/
def execFabricReservedPacket (t : Tower) (p : Sys2Proof.Port) (k : Packet) (s : State) : Host.Outcome State Fault Refusal :=
  if reservedPkt k.cls k.op then next (s.receive t p k []) else next s

/-- PACKET_FORWARD (10 R368, R369, R372, R386): a packet for another node. -/
def execPacketForward (t : Tower) (p : Sys2Proof.Port) (k : Packet) (s : State) : Host.Outcome State Fault Refusal :=
  if reservedPkt k.cls k.op || vidNode (destVid k) == s.nodeOf t then next s else next (s.receive t p k [])

end Sys2Proof.Machine
end

