-- ==== Sys2Proof/Machine/Tle.lean ====
section
/-!
DEFINITION. The tile engine's instructions (chapter 05): the fields each reads (R169, R174), lane operations, loads and
stores of tiles and masks (R195 to R199), and compress and expand to lists (R202 to R205). TleMath.lean computes.
-/
namespace Sys2Proof.Machine

/-! ## Fields read -/

/-- The fields of layout A as bits of the instruction's [127:32] (05 R170). -/
def uTd : Nat := 0xF
/-- ta. -/
def uTa : Nat := 0xF0
/-- tb. -/
def uTb : Nat := 0xF00
/-- tc. -/
def uTc : Nat := 0xF000
/-- mk. -/
def uMk : Nat := 0x70000
/-- mz. -/
def uMz : Nat := 0x80000
/-- typ. -/
def uTyp : Nat := 0x100000
/-- bsel. -/
def uBsel : Nat := 0x600000
/-- rmode. -/
def uRmode : Nat := 0x1800000
/-- sat. -/
def uSat : Nat := 0x2000000
/-- wcnt. -/
def uWcnt : Nat := 0x4000000
/-- kd. -/
def uKd : Nat := 0x38000000
/-- imode. -/
def uImode : Nat := 0xC0000000
/-- imm. -/
def uImm : Nat := 0xFFFFFFFF00000000
/-- cond. -/
def uCond : Nat := 0xF0000000000000000
/-- rfmt. -/
def uRfmt : Nat := 0xF00000000000000000

/-- The fields of unary lane operations. -/
def useUn : Nat := uTd + uTa + uMk + uMz
/-- The fields of MIN. -/
def useMin : Nat := useUn + uTb + uTyp + uBsel + uImm
/-- The fields of ADD. -/
def useAdd : Nat := useMin + uSat

/-- Are the operand bits outside the fields an opcode reads all 0 (05 R169)? -/
def onlyUses (n fields : Nat) : Bool := Nat.land (bits n 127 32) fields == bits n 127 32

/-! ## Completion -/

/-- Cycles an instruction of a class occupies the engine (05 R177). -/
def cycLane : Nat := 8
/-- The transcendental group. -/
def cycXcn : Nat := 32
/-- TMM. -/
def cycTmm : Nat := 256
/-- Mask moves and logic. -/
def cycMask : Nat := 2

/-- Sets the summary flags (05 R194, R207). -/
def State.tleFlags (s : State) (i : Nat) (f : Flags) : State :=
  let s := if f.nanOp then s.setF (Reg.tleStatus_nan_op i) 1 else s
  let s := if f.inv then s.setF (Reg.tleStatus_inv i) 1 else s
  let s := if f.ovf then s.setF (Reg.tleStatus_ovf i) 1 else s
  if f.isat then s.setF (Reg.tleStatus_isat i) 1 else s

/-- TLE_KPOISON shows the masks' poison. -/
def kpoison (t : Tle) : Nat := (List.range 8).foldl (fun a k => a + b2n (t.mask k).poison * 2 ^ k) 0

/-- Ends a tile instruction: registers, summary, counters (05 R207). -/
def State.tleEnd (s : State) (i cycles : Nat) (o : TleOut) : State :=
  let s := (s.setCore i { s.core i with tle := o.t }).bump 1
  let s := (s.tleFlags i o.flags).setF (Reg.tleKpoison_kpoison i) (kpoison o.t)
  let s := s.incWrap (Reg.tleCntLane_lanes i) o.lanes
  let s := s.incWrap (Reg.tleCntXcn_results i) o.xcns
  s.incWrap (Reg.tleCntBusy_cycles i) cycles

/-- A tile instruction's status: POISONED or OK. -/
def tleSt (o : TleOut) : Nat := if o.poison then stPoisoned else stOk

/-- The tile registers that an instruction names in the fields it reads, as the scoreboard compares them (02 R66, 05 R176):
b only where it comes from a tile, CMPR's count tile only where it writes counts. -/
def tilesNamed (a : LayA) (op fields : Nat) : List Nat :=
  let uses := fun f => Nat.land fields f != 0
  (if uses uTd then [a.td] else []) ++ (if uses uTa then [a.ta] else []) ++
  (if uses uTb && a.bsel != 3 then [a.tb] else []) ++ (if uses uTc && (op != 0x48 || a.wcnt) then [a.tc] else [])

/-- A layout A instruction: refused for an unread nonzero field or a failed check, else its effect. -/
def State.tleA (s : State) (i : Nat) (w : BitVec 128) (op fields : Nat) (ok : LayA → Bool) (cycles : Nat)
    (f : Tle → LayA → Nat → TleOut) : State :=
  s.issue i w 3 [op] (fun s =>
    let a := layA w.toNat
    if !onlyUses w.toNat fields || !ok a then refuse s stBadParam
    else if s.tilesBusy i (tilesNamed a op fields) then none
    else
      let o := f (s.core i).tle a s.fresh
      some (s.tleEnd i cycles o, Done.of (tleSt o)))

/-- No further check. -/
def anyA : LayA → Bool := fun _ => true
/-- typ = 1 only (05 R174). -/
def intOnly : LayA → Bool := LayA.isInt

/-! ## Lane arithmetic, bitwise, selection, conversion -/

/-- Tile MOV. -/
def execTleMov (i : Site) (w : BitVec 128) (s : State) : Host.Outcome State Fault Refusal :=
  next (s.tleA i w 0x08 (uTd + uTb + uMk + uMz + uBsel + uImm) anyA cycLane tleMov)
/-- ADD. -/
def execAdd (i : Site) (w : BitVec 128) (s : State) : Host.Outcome State Fault Refusal :=
  next (s.tleA i w 0x09 useAdd anyA cycLane (tleArith .add))
/-- SUB. -/
def execSub (i : Site) (w : BitVec 128) (s : State) : Host.Outcome State Fault Refusal :=
  next (s.tleA i w 0x0A useAdd anyA cycLane (tleArith .sub))
/-- MUL. -/
def execMul (i : Site) (w : BitVec 128) (s : State) : Host.Outcome State Fault Refusal :=
  next (s.tleA i w 0x0B useAdd anyA cycLane (tleArith .mul))
/-- FMA. -/
def execFma (i : Site) (w : BitVec 128) (s : State) : Host.Outcome State Fault Refusal :=
  next (s.tleA i w 0x0C (useAdd + uTc) anyA cycLane (tleArith .fma))
/-- DIV. -/
def execDiv (i : Site) (w : BitVec 128) (s : State) : Host.Outcome State Fault Refusal :=
  next (s.tleA i w 0x0D useAdd anyA cycXcn (tleArith .div))
/-- MIN. -/
def execMinT (i : Site) (w : BitVec 128) (s : State) : Host.Outcome State Fault Refusal :=
  next (s.tleA i w 0x0E useMin anyA cycLane (tleArith .min))
/-- MAX. -/
def execMaxT (i : Site) (w : BitVec 128) (s : State) : Host.Outcome State Fault Refusal :=
  next (s.tleA i w 0x0F useMin anyA cycLane (tleArith .max))
/-- ABS. -/
def execAbsT (i : Site) (w : BitVec 128) (s : State) : Host.Outcome State Fault Refusal :=
  next (s.tleA i w 0x10 (useUn + uTyp) anyA cycLane (tleAbsNeg false))
/-- NEG. -/
def execNeg (i : Site) (w : BitVec 128) (s : State) : Host.Outcome State Fault Refusal :=
  next (s.tleA i w 0x11 (useUn + uTyp) anyA cycLane (tleAbsNeg true))
/-- AND. -/
def execAndT (i : Site) (w : BitVec 128) (s : State) : Host.Outcome State Fault Refusal :=
  next (s.tleA i w 0x12 useMin intOnly cycLane (tleBit .and))
/-- OR. -/
def execOrT (i : Site) (w : BitVec 128) (s : State) : Host.Outcome State Fault Refusal :=
  next (s.tleA i w 0x13 useMin intOnly cycLane (tleBit .or))
/-- XOR. -/
def execXor (i : Site) (w : BitVec 128) (s : State) : Host.Outcome State Fault Refusal :=
  next (s.tleA i w 0x14 useMin intOnly cycLane (tleBit .xor))
/-- SHL. -/
def execShl (i : Site) (w : BitVec 128) (s : State) : Host.Outcome State Fault Refusal :=
  next (s.tleA i w 0x15 useMin intOnly cycLane (tleBit .shl))
/-- SHRL. -/
def execShrl (i : Site) (w : BitVec 128) (s : State) : Host.Outcome State Fault Refusal :=
  next (s.tleA i w 0x16 useMin intOnly cycLane (tleBit .shrl))
/-- SHRA. -/
def execShra (i : Site) (w : BitVec 128) (s : State) : Host.Outcome State Fault Refusal :=
  next (s.tleA i w 0x17 useMin intOnly cycLane (tleBit .shra))
/-- SEL. Its row of R174 does not read typ. -/
def execSel (i : Site) (w : BitVec 128) (s : State) : Host.Outcome State Fault Refusal :=
  next (s.tleA i w 0x18 (uTd + uTa + uTb + uMk + uBsel + uImm) anyA cycLane tleSel)
/-- CVT. -/
def execCvt (i : Site) (w : BitVec 128) (s : State) : Host.Outcome State Fault Refusal :=
  next (s.tleA i w 0x20 (useUn + uTyp + uRmode + uSat) anyA cycLane tleCvt)
/-- RND: rfmt is one of codes 1 to 7 (05 R185). -/
def execRnd (i : Site) (w : BitVec 128) (s : State) : Host.Outcome State Fault Refusal :=
  next (s.tleA i w 0x21 (useUn + uRmode + uSat + uRfmt) (fun a => decide (1 ≤ a.rfmt) && decide (a.rfmt ≤ 7)) cycLane
    tleRnd)

/-! ## Transcendentals -/

/-- EXP2. -/
def execExp2 (i : Site) (w : BitVec 128) (s : State) : Host.Outcome State Fault Refusal :=
  next (s.tleA i w 0x28 (useUn + uSat) anyA cycXcn (tleXcn .exp2))
/-- EXP. -/
def execExpT (i : Site) (w : BitVec 128) (s : State) : Host.Outcome State Fault Refusal :=
  next (s.tleA i w 0x29 (useUn + uSat) anyA cycXcn (tleXcn .exp))
/-- LOG2. -/
def execLog2 (i : Site) (w : BitVec 128) (s : State) : Host.Outcome State Fault Refusal :=
  next (s.tleA i w 0x2A useUn anyA cycXcn (tleXcn .log2))
/-- LN. -/
def execLn (i : Site) (w : BitVec 128) (s : State) : Host.Outcome State Fault Refusal :=
  next (s.tleA i w 0x2B useUn anyA cycXcn (tleXcn .ln))
/-- RCP. -/
def execRcp (i : Site) (w : BitVec 128) (s : State) : Host.Outcome State Fault Refusal :=
  next (s.tleA i w 0x2C useUn anyA cycXcn (tleXcn .rcp))
/-- SQRT. -/
def execSqrt (i : Site) (w : BitVec 128) (s : State) : Host.Outcome State Fault Refusal :=
  next (s.tleA i w 0x2D useUn anyA cycXcn (tleXcn .sqrt))
/-- RSQRT. -/
def execRsqrt (i : Site) (w : BitVec 128) (s : State) : Host.Outcome State Fault Refusal :=
  next (s.tleA i w 0x2E useUn anyA cycXcn (tleXcn .rsqrt))
/-- SIGMOID. -/
def execSigmoid (i : Site) (w : BitVec 128) (s : State) : Host.Outcome State Fault Refusal :=
  next (s.tleA i w 0x2F useUn anyA cycXcn (tleXcn .sigmoid))
/-- TANH. -/
def execTanh (i : Site) (w : BitVec 128) (s : State) : Host.Outcome State Fault Refusal :=
  next (s.tleA i w 0x30 useUn anyA cycXcn (tleXcn .tanh))
/-- SILU. -/
def execSilu (i : Site) (w : BitVec 128) (s : State) : Host.Outcome State Fault Refusal :=
  next (s.tleA i w 0x31 useUn anyA cycXcn (tleXcn .silu))

/-! ## Reductions, transpose, comparison, matrix product -/

/-- The fields of RMAX. -/
def useRmax : Nat := uTd + uTa + uMk + uTyp

/-- RSUM. -/
def execRsum (i : Site) (w : BitVec 128) (s : State) : Host.Outcome State Fault Refusal :=
  next (s.tleA i w 0x38 (useRmax + uSat) anyA cycLane (tleReduce .sum false))
/-- RMAX. -/
def execRmax (i : Site) (w : BitVec 128) (s : State) : Host.Outcome State Fault Refusal :=
  next (s.tleA i w 0x39 useRmax anyA cycLane (tleReduce .max false))
/-- RMIN. -/
def execRmin (i : Site) (w : BitVec 128) (s : State) : Host.Outcome State Fault Refusal :=
  next (s.tleA i w 0x3A useRmax anyA cycLane (tleReduce .min false))
/-- CSUM. -/
def execCsum (i : Site) (w : BitVec 128) (s : State) : Host.Outcome State Fault Refusal :=
  next (s.tleA i w 0x3B (useRmax + uSat) anyA cycLane (tleReduce .sum true))
/-- CMAX. -/
def execCmax (i : Site) (w : BitVec 128) (s : State) : Host.Outcome State Fault Refusal :=
  next (s.tleA i w 0x3C useRmax anyA cycLane (tleReduce .max true))
/-- CMIN. -/
def execCmin (i : Site) (w : BitVec 128) (s : State) : Host.Outcome State Fault Refusal :=
  next (s.tleA i w 0x3D useRmax anyA cycLane (tleReduce .min true))
/-- TRN. -/
def execTrn (i : Site) (w : BitVec 128) (s : State) : Host.Outcome State Fault Refusal :=
  next (s.tleA i w 0x3E (uTd + uTa) anyA cycLane (fun t a _ => tleTrn t a))
/-- CMP: kd is not k0, cond is not reserved (05 R167, R170). -/
def execCmp (i : Site) (w : BitVec 128) (s : State) : Host.Outcome State Fault Refusal :=
  next (s.tleA i w 0x40 (uTa + uTb + uMk + uMz + uTyp + uBsel + uKd + uImm + uCond)
    (fun a => a.kd != 0 && decide (a.cond ≤ 5)) cycLane (fun t a _ => tleCmp t a))
/-- TOPK: kd is not k0, k from 1 to 32 (05 R167, R193). -/
def execTopk (i : Site) (w : BitVec 128) (s : State) : Host.Outcome State Fault Refusal :=
  next (s.tleA i w 0x41 (uTa + uMk + uTyp + uKd + uImm)
    (fun a => a.kd != 0 && decide (1 ≤ a.imm) && decide (a.imm ≤ 32)) 32 (fun t a _ => tleTopk t a))
/-- CMPR (05 R200). -/
def execCmpr (i : Site) (w : BitVec 128) (s : State) : Host.Outcome State Fault Refusal :=
  next (s.tleA i w 0x48 (uTd + uTa + uTc + uMk + uWcnt + uImode + uImm)
    (fun a => !(a.imode != 0 && a.ta != 0) && !(a.wcnt && a.tc == a.td)) cycLane tleCmpr)
/-- EXPR (05 R201). -/
def execExpr (i : Site) (w : BitVec 128) (s : State) : Host.Outcome State Fault Refusal :=
  next (s.tleA i w 0x49 useUn anyA cycLane tleExpr)
/-- TMM (05 R190). -/
def execTmm (i : Site) (w : BitVec 128) (s : State) : Host.Outcome State Fault Refusal :=
  next (s.tleA i w 0x50 (useUn + uTb + uTc + uSat) anyA cycTmm tleTmm)

/-- KLOGIC (05 R173, R194). -/
def execKlogic (i : Site) (w : BitVec 128) (s : State) : Host.Outcome State Fault Refusal :=
  next (s.issue i w 3 [0x42] (fun s =>
    let n := w.toNat
    if !onlyUses n (0x7 + 0x70 + 0x700 + 0x3000) || bits n 34 32 == 0 then refuse s stBadParam
    else
      let o := tleKlogic (s.core i).tle (bits n 34 32) (bits n 38 36) (bits n 42 40) (bits n 45 44)
      some (s.tleEnd i cycMask o, Done.of (tleSt o))))

/-- FLAGS (05 R173, R194). -/
def execFlags (i : Site) (w : BitVec 128) (s : State) : Host.Outcome State Fault Refusal :=
  next (s.issue i w 3 [0x43] (fun s =>
    let n := w.toNat
    if !onlyUses n (0x7 + 0x4000 + 0x18000) || bits n 34 32 == 0 then refuse s stBadParam
    else if s.tilesBusy i (List.range 16) then none
    else
      let o := tleFlags (s.core i).tle (bits n 34 32) (bits n 48 47) (bit n 46)
      some (s.tleEnd i cycMask o, Done.of (tleSt o))))

/-! ## Tiles and the scratchpad -/

/-- The operands of layout B (05 R171). -/
structure LayB where
  t : Nat
  data : Opnd
  fmt : Nat
  mreg : Nat
  mz : Bool
  rmode : RMode
  sat : Bool
  mx : Bool
  biasAuto : Bool
  pitch : Nat
  sc : Opnd
  scPitch : Nat
  deriving DecidableEq, Repr

/-- Layout B of a word. -/
def layB (c : Core) (n : Nat) : LayB :=
  { t := bits n 35 32, data := c.opnd (bits n 39 36) (sbits n 59 40), fmt := bits n 63 60, mreg := bits n 66 64
    mz := bit n 67, rmode := RMode.ofCode (bits n 69 68), sat := bit n 70, mx := bit n 71, biasAuto := bit n 72
    pitch := bits n 84 73, sc := c.opnd (bits n 88 85) (sbits n 108 89), scPitch := bits n 116 109 }

/-- The format of a layout B instruction. -/
def LayB.f (b : LayB) : Fmt := Fmt.ofCode b.fmt
/-- The bytes of a row (05 R195). -/
def LayB.rowBytes (b : LayB) : Nat := 4 * b.f.width
/-- Does the instruction use the scale or bias area? -/
def LayB.scaled (b : LayB) : Bool := b.mx || b.fmt == 14
/-- The address of a row. -/
def LayB.rowAt (b : LayB) (r : Nat) : Nat := b.data.ea + r * b.pitch
/-- The address of a row's scale or bias byte. -/
def LayB.scAt (b : LayB) (r : Nat) : Nat := b.sc.ea + r * b.scPitch

/-- The checks TLD and TST share (05 R149, R171, R195 to R197). -/
def LayB.ok (b : LayB) : Bool :=
  b.fmt != 15 && (!b.mx || b.f.isMx) && b.pitch % 8 == 0 && b.data.ea % 8 == 0 &&
  b.data.inScratch (31 * b.pitch + b.rowBytes) && (!b.scaled || b.sc.inScratch (31 * b.scPitch + 1))

/-- Bytes a TLD or TST moves. -/
def LayB.moved (b : LayB) : Nat := 32 * b.rowBytes

/-- The exact value of an element under its row's scale or bias byte (04 R148, R150). -/
def LayB.value (b : LayB) (sc x : Nat) : Val :=
  let v := valOf b.f x
  if b.mx then mxScale sc v else if b.fmt = 14 then v.scale (sext 8 sc) else v

/-- The lane a TLD forms (04 R162, 05 R196). -/
def LayB.load (b : LayB) (sc x : Nat) : BitVec 32 × Flags :=
  if b.f.isInt then (BitVec.ofInt 32 (valI b.f x), .none)
  else
    let r := convF .binary32 .rne false (b.value sc x)
    (BitVec.ofNat 32 r.1, r.2)

/-- A row read from the scratchpad: its bytes and its scale or bias byte. -/
structure RowIn where
  bytes : List PByte
  sc : PByte
  deriving DecidableEq, Repr

/-- Element l of a row, and whether it overlaps poison (05 R198). -/
def RowIn.elem (r : RowIn) (w l : Nat) : Nat × Bool :=
  (bits (leP r.bytes) (w * l + w - 1) (w * l),
   r.sc.2 || anyPoison (slice r.bytes (w * l / 8) ((w * l + w - 1) / 8 + 1 - w * l / 8)))

/-- Reads the rows that hold an active element. -/
def State.readRows (s : State) (i : Nat) (b : LayB) (k : Mask) : State × List RowIn :=
  (List.range 32).foldl (fun x r =>
    if !(List.range 32).any (fun l => k.at r l) then (x.1, x.2 ++ [⟨[], (0, false)⟩])
    else
      let d := x.1.readScratch i (b.rowAt r) b.rowBytes
      if b.scaled then
        let c := d.1.readScratch i (b.scAt r) 1
        (c.1, x.2 ++ [⟨d.2, c.2.headD (0, false)⟩])
      else (d.1, x.2 ++ [⟨d.2, (0, false)⟩])) (s, [])

/-- TLD (05 R195, R196, R198). -/
def execTld (i : Site) (w : BitVec 128) (s : State) : Host.Outcome State Fault Refusal :=
  next (s.issue i w 3 [1] (fun s =>
    let n := w.toNat
    let b := layB (s.core i) n
    if bits n 127 117 != 0 || bits n 70 68 != 0 || b.biasAuto || !b.ok then refuse s stBadParam
    else if s.tilesBusy i [b.t] then none
    else
      let x := s.readRows i b ((s.core i).tle.mask b.mreg)
      let s := x.1
      let row : Nat → RowIn := fun r => (x.2[r]?).getD ⟨[], (0, false)⟩
      let wd := b.f.width
      let a : LayA := { layA 0 with td := b.t, mreg := b.mreg, mz := b.mz }
      let o := laneOp (s.core i).tle a s.fresh false (fun r l => ((row r).elem wd l).2)
        (fun r l => b.load (row r).sc.1.toNat ((row r).elem wd l).1)
      some (s.tleEnd i (max 8 ((b.moved + 255) / 256)) o, Done.of (tleSt o))))

/-- What TST writes for the elements of a row: code, flags and poison of each active lane, and the scale or bias byte
it writes, with its poison (05 R197, R198, 04 R160, R161). -/
structure RowOut where
  elems : List (Option (Nat × Bool))
  flags : List (Option Flags)
  sc : Option PByte
  deriving DecidableEq, Repr

/-- Puts the results of active elements back at their lanes. -/
def spread {α : Type} : List Bool → List α → List (Option α)
  | [], _ => []
  | true :: ks, x :: xs => some x :: spread ks xs
  | true :: ks, [] => none :: spread ks []
  | false :: ks, xs => none :: spread ks xs

/-- One row of a TST: `lanes` are the active lanes with their poison, `bias` the bias byte read. -/
def LayB.storeRow (b : LayB) (act : List Bool) (lanes : List (BitVec 32 × Bool)) (bias : PByte) : RowOut :=
  let vals := lanes.map (fun x => if b.f.isInt then Val.ofInt x.1.toInt else ofB32 x.1.toNat)
  let bad := lanes.any Prod.snd
  let d : Int := if b.biasAuto then lt10Bias vals else sext 8 bias.1.toNat
  let mx := mxBlock b.f b.rmode vals
  let codes := if b.mx then mx.2
    else if b.fmt = 14 then lt10Row b.rmode d vals
    else vals.map (convTo b.f b.rmode b.sat)
  let lost := b.fmt == 14 && !b.biasAuto && bias.2
  let sc : Option PByte :=
    if lanes.isEmpty then none
    else if b.mx then some (BitVec.ofNat 8 mx.1, bad)
    else if b.fmt == 14 && b.biasAuto then some (BitVec.ofInt 8 d, bad)
    else none
  let out := List.zipWith (fun (c : Nat × Flags) (x : BitVec 32 × Bool) => (c.1, c.2, x.2 || lost)) codes lanes
  { elems := spread act (out.map (fun x => (x.1, x.2.2)))
    flags := spread act (out.map (fun x => if x.2.2 then Flags.none else x.2.1))
    sc := sc }

/-- Bits of a row's elements: the new bits, the bits written, and the bits written with poison. -/
def rowBits (w : Nat) (es : List (Option (Nat × Bool))) : Nat × Nat × Nat :=
  ((List.range es.length).zip es).foldl (fun a e =>
    match e.2 with
    | none => a
    | some (c, p) =>
      let m := (2 ^ w - 1) * 2 ^ (w * e.1)
      (a.1 + c % 2 ^ w * 2 ^ (w * e.1), a.2.1 + m, a.2.2 + (if p then m else 0))) (0, 0, 0)

/-- Writes the elements of a row, word by word: an element from a poisoned lane poisons its words; a word written whole
takes the new bits alone; other bits and their poison stay (05 R197, R198). -/
def State.writeRow (s : State) (i a rowBytes w : Nat) (es : List (Option (Nat × Bool))) : State :=
  let x := rowBits w es
  (List.range (rowBytes / 8)).foldl (fun s j =>
    let part := fun v => v / 2 ^ (64 * j) % 2 ^ 64
    if part x.2.1 = 0 then s
    else if part x.2.2 ≠ 0 then s.writeScratch i (a + 8 * j) (List.replicate 8 (0, true))
    else if part x.2.1 = 2 ^ 64 - 1 then s.writeScratch i (a + 8 * j) (clean (toLE 8 (part x.1)))
    else
      let r := s.readScratch i (a + 8 * j) 8
      if anyPoison r.2 then r.1
      else
        let keep := Nat.land (leP r.2) (2 ^ 64 - 1 - part x.2.1)
        r.1.writeScratch i (a + 8 * j) (clean (toLE 8 (keep + part x.1)))) s

/-- The ranges of a TST on the scoreboard: its data rows, and the scale area where it writes scale or bias bytes
(05 R176). -/
def LayB.noteStore (b : LayB) (i : Nat) (s : State) : State :=
  (List.range 32).foldl (fun s r =>
    let s := s.touched i (b.rowAt r) b.rowBytes
    if b.mx || (b.fmt == 14 && b.biasAuto) then s.touched i (b.scAt r) 1 else s) s

/-- TST (05 R197, R198). Its conversions' flags gather on the lanes it stores. -/
def execTst (i : Site) (w : BitVec 128) (s : State) : Host.Outcome State Fault Refusal :=
  next (s.issue i w 3 [2] (fun s =>
    let n := w.toNat
    let b := layB (s.core i) n
    if bits n 127 117 != 0 || b.mz || !b.ok || decide (b.pitch < b.rowBytes) then refuse s stBadParam
    else if s.tilesBusy i [b.t] then none
    else
      let s := b.noteStore i s
      let t := (s.core i).tle
      let k := t.mask b.mreg
      let T := t.tile b.t
      let z := (List.range 32).foldl (fun (z : State × List RowOut) r =>
        let act := (List.range 32).map (fun l => k.at r l)
        let lanes := ((List.range 32).filter (fun l => k.at r l)).map (fun l =>
          ((T.at r l).v, (T.at r l).poison || k.poison))
        let c := if b.fmt == 14 && !b.biasAuto && !lanes.isEmpty then
            let q := z.1.readScratch i (b.scAt r) 1
            (q.1, q.2.headD (0, false))
          else (z.1, ((0 : Byte), false))
        let o := b.storeRow act lanes c.2
        let s := match o.sc with
          | some byte => c.1.writeScratch i (b.scAt r) [byte]
          | none => c.1
        (s.writeRow i (b.rowAt r) b.rowBytes b.f.width o.elems, z.2 ++ [o])) (s, [])
      let fl := fun r l => (((z.2[r]?).map RowOut.flags).getD [])[l]? |>.getD none |>.getD Flags.none
      let bad := k.poison || z.2.any (fun o => o.elems.any (fun e => match e with | some x => x.2 | none => false))
      let o : TleOut :=
        { t := t.setTile b.t (mapLanes T (fun r l =>
            let x := T.at r l
            { x with flags := x.flags.or (fl r l) }))
          poison := bad
          flags := orFlags (z.2.flatMap (fun o => o.flags.filterMap id))
          lanes := (activeLanes k).length
          xcns := 0 }
      some (z.1.tleEnd i (max 8 ((b.moved + 127) / 128)) o, Done.of (tleSt o))))

/-- The fields KLD and KST read: t, ag, disp. -/
def useKld : Nat := 0xFFFFFFF

/-- KLD (05 R167, R199). -/
def execKld (i : Site) (w : BitVec 128) (s : State) : Host.Outcome State Fault Refusal :=
  next (s.issue i w 3 [3] (fun s =>
    let n := w.toNat
    let b := layB (s.core i) n
    if !onlyUses n useKld || b.t == 0 || decide (7 < b.t) || b.data.ea % 8 != 0 || !b.data.inScratch 128 then
      refuse s stBadParam
    else
      let r := s.readScratch i b.data.ea 128
      let bad := anyPoison r.2
      let o : TleOut :=
        { t := (r.1.core i).tle.setMask b.t ⟨BitVec.ofNat 1024 (leP r.2), bad⟩
          poison := bad, flags := .none, lanes := 0, xcns := 0 }
      some (r.1.tleEnd i cycMask o, Done.of (tleSt o))))

/-- KST (05 R199). -/
def execKst (i : Site) (w : BitVec 128) (s : State) : Host.Outcome State Fault Refusal :=
  next (s.issue i w 3 [4] (fun s =>
    let n := w.toNat
    let b := layB (s.core i) n
    if !onlyUses n useKld || decide (7 < b.t) || b.data.ea % 8 != 0 || !b.data.inScratch 128 then refuse s stBadParam
    else
      let t := (s.core i).tle
      let k := t.mask b.t
      let o : TleOut := { t := t, poison := k.poison, flags := .none, lanes := 0, xcns := 0 }
      let s := s.writeScratch i b.data.ea ((toLE 128 k.m.toNat).map (fun x => (x, k.poison)))
      some (s.tleEnd i cycMask o, Done.of (tleSt o))))

/-! ## Lists -/

/-- CMPS (05 R202 to R204). R200 asks of CMPR that ta be 0 where imode is not; of CMPS's t nothing is said, and any t is
accepted (log entry 79). -/
def execCmps (i : Site) (w : BitVec 128) (s : State) : Host.Outcome State Fault Refusal :=
  next (s.issue i w 3 [0x4A] (fun s =>
    let n := w.toNat
    let c := s.core i
    let d := c.opnd (bits n 39 36) (sbits n 59 40)
    let cap := bits n 95 80
    let append := bit n 63
    if bits n 79 66 != 0 || cap == 0 || d.ea % 8 != 0 || !d.inScratch (4 + 4 * cap) then refuse s stBadParam
    else if s.tilesBusy i (if bits n 65 64 == 0 then [bits n 35 32] else []) then none
    else
      let s := s.touched i d.ea (4 + 4 * cap)
      let t := c.tle
      let k := t.mask (bits n 62 60)
      let els := (activeLanes k).map (fun p =>
        let e := compressElem t (bits n 35 32) (bits n 65 64) (bits n 127 96) p.1 p.2
        (e.1, e.2 || k.poison))
      let q := if append then s.readScratch i d.ea 4 else (s, clean (toLE 4 0))
      let s := q.1
      let c0 := leP q.2
      let cyc := 8 + (els.length + 31) / 32
      let o : TleOut := { t := t, poison := k.poison || els.any Prod.snd, flags := .none, lanes := els.length, xcns := 0 }
      if anyPoison q.2 then some (s.tleEnd i cyc { o with lanes := 0 }, Done.of stPoisoned)
      else if cap < c0 ∨ cap < c0 + els.length then
        some (s.tleEnd i cyc { o with lanes := 0 }, Done.at_ stListFull spScratch d.ea)
      else
        let count := (toLE 4 (c0 + els.length)).map (fun x => (x, k.poison))
        let body := els.flatMap (fun e => (toLE 4 e.1.toNat).map (fun x => (x, e.2)))
        let s := if append then (s.writeScratch i (d.ea + 4 + 4 * c0) body).writeScratch i d.ea count
          else s.writeScratch i d.ea (count ++ body)
        some (s.tleEnd i cyc o, Done.of (tleSt o))))

/-- EXPS (05 R205). -/
def execExps (i : Site) (w : BitVec 128) (s : State) : Host.Outcome State Fault Refusal :=
  next (s.issue i w 3 [0x4B] (fun s =>
    let n := w.toNat
    let c := s.core i
    let d := c.opnd (bits n 39 36) (sbits n 59 40)
    let cap := bits n 95 80
    if bits n 79 64 != 0 || bits n 127 96 != 0 || cap == 0 || d.ea % 8 != 0 || !d.inScratch (4 + 4 * cap) then
      refuse s stBadParam
    else if s.tilesBusy i [bits n 35 32] then none
    else
      let q := s.readScratch i d.ea 4
      let lost := anyPoison q.2
      let cnt := if lost then 0 else leP q.2
      if cap < cnt then refuse s stBadParam
      else
        let ls := q.1.readScratch i (d.ea + 4) (4 * cnt)
        let s := ls.1
        let t := (s.core i).tle
        let k := t.mask (bits n 62 60)
        let starts := (List.range 32).map (fun r => ((activeLanes k).filter (fun p => decide (p.1 < r))).length)
        let idx := fun r l => (starts[r]?).getD 0 + ((List.range l).filter (fun j => k.at r j)).length
        let el := fun j => slice ls.2 (4 * j) 4
        let a : LayA := { layA 0 with td := bits n 35 32, mreg := bits n 62 60, mz := bit n 63 }
        let o := laneOp t a s.fresh false
          (fun r l => lost || (decide (idx r l < cnt) && anyPoison (el (idx r l))))
          (fun r l => (if idx r l < cnt then BitVec.ofNat 32 (leP (el (idx r l))) else 0, .none))
        some (s.tleEnd i (8 + (cnt + 31) / 32) o, Done.of (if lost then stPoisoned else (tleSt o)))))

end Sys2Proof.Machine
end

