-- ==== Sys2Proof/Machine/Dispatch.lean ====
section
/-!
DEFINITION. The meaning of each command: one arm per constructor of Instr.
-/
namespace Sys2Proof.Machine

def exec (i : Instr) (s : State) : Host.Outcome State Fault Refusal :=
  match i with
  | .nop site w => Sys2Proof.Machine.execNop site w s
  | .endStream site w => Sys2Proof.Machine.execEndStream site w s
  | .fence site w => Sys2Proof.Machine.execFence site w s
  | .signal site w => Sys2Proof.Machine.execSignal site w s
  | .wait site w => Sys2Proof.Machine.execWait site w s
  | .repeatImm site w => Sys2Proof.Machine.execRepeatImm site w s
  | .repeatInd site w => Sys2Proof.Machine.execRepeatInd site w s
  | .agsetBase site w => Sys2Proof.Machine.execAgsetBase site w s
  | .agsetStride site w => Sys2Proof.Machine.execAgsetStride site w s
  | .agadd site w => Sys2Proof.Machine.execAgadd site w s
  | .tick site w => Sys2Proof.Machine.execTick site w s
  | .notify site w => Sys2Proof.Machine.execNotify site w s
  | .reservedOpcode site w => Sys2Proof.Machine.execReservedOpcode site w s
  | .movLoad site w => Sys2Proof.Machine.execMovLoad site w s
  | .movStore site w => Sys2Proof.Machine.execMovStore site w s
  | .movCopy site w => Sys2Proof.Machine.execMovCopy site w s
  | .loadN site w => Sys2Proof.Machine.execLoadN site w s
  | .storeN site w => Sys2Proof.Machine.execStoreN site w s
  | .movGather site w => Sys2Proof.Machine.execMovGather site w s
  | .scatter site w => Sys2Proof.Machine.execScatter site w s
  | .movFill site w => Sys2Proof.Machine.execMovFill site w s
  | .movAtomic site w => Sys2Proof.Machine.execMovAtomic site w s
  | .mma site w => Sys2Proof.Machine.execMma site w s
  | .mmaFirstStep site feed shadow scale drain => Sys2Proof.Machine.execMmaFirstStep site feed shadow scale drain s
  | .fillerWindowEnd r => Sys2Proof.Machine.execFillerWindowEnd r s
  | .fillerLeadEnd r => Sys2Proof.Machine.execFillerLeadEnd r s
  | .tld site w => Sys2Proof.Machine.execTld site w s
  | .tst site w => Sys2Proof.Machine.execTst site w s
  | .kld site w => Sys2Proof.Machine.execKld site w s
  | .kst site w => Sys2Proof.Machine.execKst site w s
  | .tleMov site w => Sys2Proof.Machine.execTleMov site w s
  | .add site w => Sys2Proof.Machine.execAdd site w s
  | .sub site w => Sys2Proof.Machine.execSub site w s
  | .mul site w => Sys2Proof.Machine.execMul site w s
  | .fma site w => Sys2Proof.Machine.execFma site w s
  | .div site w => Sys2Proof.Machine.execDiv site w s
  | .minT site w => Sys2Proof.Machine.execMinT site w s
  | .maxT site w => Sys2Proof.Machine.execMaxT site w s
  | .absT site w => Sys2Proof.Machine.execAbsT site w s
  | .neg site w => Sys2Proof.Machine.execNeg site w s
  | .andT site w => Sys2Proof.Machine.execAndT site w s
  | .orT site w => Sys2Proof.Machine.execOrT site w s
  | .xor site w => Sys2Proof.Machine.execXor site w s
  | .shl site w => Sys2Proof.Machine.execShl site w s
  | .shrl site w => Sys2Proof.Machine.execShrl site w s
  | .shra site w => Sys2Proof.Machine.execShra site w s
  | .sel site w => Sys2Proof.Machine.execSel site w s
  | .cvt site w => Sys2Proof.Machine.execCvt site w s
  | .rnd site w => Sys2Proof.Machine.execRnd site w s
  | .exp2 site w => Sys2Proof.Machine.execExp2 site w s
  | .expT site w => Sys2Proof.Machine.execExpT site w s
  | .log2 site w => Sys2Proof.Machine.execLog2 site w s
  | .ln site w => Sys2Proof.Machine.execLn site w s
  | .rcp site w => Sys2Proof.Machine.execRcp site w s
  | .sqrt site w => Sys2Proof.Machine.execSqrt site w s
  | .rsqrt site w => Sys2Proof.Machine.execRsqrt site w s
  | .sigmoid site w => Sys2Proof.Machine.execSigmoid site w s
  | .tanh site w => Sys2Proof.Machine.execTanh site w s
  | .silu site w => Sys2Proof.Machine.execSilu site w s
  | .rsum site w => Sys2Proof.Machine.execRsum site w s
  | .rmax site w => Sys2Proof.Machine.execRmax site w s
  | .rmin site w => Sys2Proof.Machine.execRmin site w s
  | .csum site w => Sys2Proof.Machine.execCsum site w s
  | .cmax site w => Sys2Proof.Machine.execCmax site w s
  | .cmin site w => Sys2Proof.Machine.execCmin site w s
  | .trn site w => Sys2Proof.Machine.execTrn site w s
  | .cmp site w => Sys2Proof.Machine.execCmp site w s
  | .topk site w => Sys2Proof.Machine.execTopk site w s
  | .klogic site w => Sys2Proof.Machine.execKlogic site w s
  | .flags site w => Sys2Proof.Machine.execFlags site w s
  | .cmpr site w => Sys2Proof.Machine.execCmpr site w s
  | .expr site w => Sys2Proof.Machine.execExpr site w s
  | .cmps site w => Sys2Proof.Machine.execCmps site w s
  | .exps site w => Sys2Proof.Machine.execExps site w s
  | .tmm site w => Sys2Proof.Machine.execTmm site w s
  | .bkdFill site w => Sys2Proof.Machine.execBkdFill site w s
  | .bkdCopy site w => Sys2Proof.Machine.execBkdCopy site w s
  | .bkdGather site w => Sys2Proof.Machine.execBkdGather site w s
  | .qld site w => Sys2Proof.Machine.execQld site w s
  | .bkdScore site w => Sys2Proof.Machine.execBkdScore site w s
  | .bkdAcc site w => Sys2Proof.Machine.execBkdAcc site w s
  | .bankUnitGrant site => Sys2Proof.Machine.execBankUnitGrant site s
  | .bankUnitCommandEnd site k => Sys2Proof.Machine.execBankUnitCommandEnd site k s
  | .bankUnitResultDrain site => Sys2Proof.Machine.execBankUnitResultDrain site s
  | .bankUnitWindowStart => Sys2Proof.Machine.execBankUnitWindowStart s
  | .fetch site w => Sys2Proof.Machine.execFetch site w s
  | .kvxScore site w => Sys2Proof.Machine.execKvxScore site w s
  | .kvxAcc site w => Sys2Proof.Machine.execKvxAcc site w s
  | .smax site w => Sys2Proof.Machine.execSmax site w s
  | .merge site w => Sys2Proof.Machine.execMerge site w s
  | .comb site w => Sys2Proof.Machine.execComb site w s
  | .fin site w => Sys2Proof.Machine.execFin site w s
  | .append site w => Sys2Proof.Machine.execAppend site w s
  | .link site w => Sys2Proof.Machine.execLink site w s
  | .publish site w => Sys2Proof.Machine.execPublish site w s
  | .prefixLinkRequest => Sys2Proof.Machine.execPrefixLinkRequest s
  | .prefixPublishRequest => Sys2Proof.Machine.execPrefixPublishRequest s
  | .prefixRelease => Sys2Proof.Machine.execPrefixRelease s
  | .pfxReclaimRelease v => Sys2Proof.Machine.execPfxReclaimRelease v s
  | .push site w => Sys2Proof.Machine.execPush site w s
  | .pop site w => Sys2Proof.Machine.execPop site w s
  | .popa site w => Sys2Proof.Machine.execPopa site w s
  | .tsend site w => Sys2Proof.Machine.execTsend site w s
  | .reply site w => Sys2Proof.Machine.execReply site w s
  | .put site w => Sys2Proof.Machine.execPut site w s
  | .get site w => Sys2Proof.Machine.execGet site w s
  | .putf site w => Sys2Proof.Machine.execPutf site w s
  | .icacheLineFill site ahead parityFail victim => Sys2Proof.Machine.execIcacheLineFill site ahead parityFail victim s
  | .breakpointStop site => Sys2Proof.Machine.execBreakpointStop site s
  | .streamOverrun site => Sys2Proof.Machine.execStreamOverrun site s
  | .channelFaultStop site => Sys2Proof.Machine.execChannelFaultStop site s
  | .waitTimeout site => Sys2Proof.Machine.execWaitTimeout site s
  | .waitRearm site => Sys2Proof.Machine.execWaitRearm site s
  | .notice site n => Sys2Proof.Machine.execNotice site n s
  | .popTimeout site => Sys2Proof.Machine.execPopTimeout site s
  | .coreCtrlStart site => Sys2Proof.Machine.execCoreCtrlStart site s
  | .coreCtrlStop site => Sys2Proof.Machine.execCoreCtrlStop site s
  | .coreCtrlResume site => Sys2Proof.Machine.execCoreCtrlResume site s
  | .vaultRead site off len cls narrow => Sys2Proof.Machine.execVaultRead site off len cls narrow s
  | .vaultWrite site off data cls narrow => Sys2Proof.Machine.execVaultWrite site off data cls narrow s
  | .partialWordMerge site k => Sys2Proof.Machine.execPartialWordMerge site k s
  | .vaultAtomic site off aop wide operand compare => Sys2Proof.Machine.execVaultAtomic site off aop wide operand compare s
  | .watchInstall site off who => Sys2Proof.Machine.execWatchInstall site off who s
  | .writeBufferDrain site k => Sys2Proof.Machine.execWriteBufferDrain site k s
  | .rowIdlePrecharge site bank => Sys2Proof.Machine.execRowIdlePrecharge site bank s
  | .refresh site bank => Sys2Proof.Machine.execRefresh site bank s
  | .refreshRateUpdate site => Sys2Proof.Machine.execRefreshRateUpdate site s
  | .zoneTempStale site layer => Sys2Proof.Machine.execZoneTempStale site layer s
  | .bandModeEnd site => Sys2Proof.Machine.execBandModeEnd site s
  | .keeperRefresh site bank => Sys2Proof.Machine.execKeeperRefresh site bank s
  | .vltInit site => Sys2Proof.Machine.execVltInit site s
  | .fillTokenGrant t => Sys2Proof.Machine.execFillTokenGrant t s
  | .initFillDone site => Sys2Proof.Machine.execInitFillDone site s
  | .scrubStart site => Sys2Proof.Machine.execScrubStart site s
  | .scrubAbort site => Sys2Proof.Machine.execScrubAbort site s
  | .scrubGranule site => Sys2Proof.Machine.execScrubGranule site s
  | .vltHold site b => Sys2Proof.Machine.execVltHold site b s
  | .vaultHeld site => Sys2Proof.Machine.execVaultHeld site s
  | .vltMapWrite site v => Sys2Proof.Machine.execVltMapWrite site v s
  | .vltRetire site v => Sys2Proof.Machine.execVltRetire site v s
  | .retireVault site => Sys2Proof.Machine.execRetireVault site s
  | .rawAccess site v => Sys2Proof.Machine.execRawAccess site v s
  | .rawAccessDone site => Sys2Proof.Machine.execRawAccessDone site s
  | .admissionRequest site fmv => Sys2Proof.Machine.execAdmissionRequest site fmv s
  | .admissionRetry site fmv => Sys2Proof.Machine.execAdmissionRetry site fmv s
  | .bundleAdmit site => Sys2Proof.Machine.execBundleAdmit site s
  | .bundleWord site fmv parityOk => Sys2Proof.Machine.execBundleWord site fmv parityOk s
  | .bundleAvailable site => Sys2Proof.Machine.execBundleAvailable site s
  | .sqStall site => Sys2Proof.Machine.execSqStall site s
  | .bundleLost site src engine seq => Sys2Proof.Machine.execBundleLost site src engine seq s
  | .sqOpenWrite site b => Sys2Proof.Machine.execSqOpenWrite site b s
  | .bundleWordTimeout site k => Sys2Proof.Machine.execBundleWordTimeout site k s
  | .bundleMemoryExpire site => Sys2Proof.Machine.execBundleMemoryExpire site s
  | .bundleSeqFree site fmv => Sys2Proof.Machine.execBundleSeqFree site fmv s
  | .read t p k => Sys2Proof.Machine.execRead t p k s
  | .write t p k => Sys2Proof.Machine.execWrite t p k s
  | .atomic t p k => Sys2Proof.Machine.execAtomic t p k s
  | .watchArm t p k => Sys2Proof.Machine.execWatchArm t p k s
  | .watchCancel t p k => Sys2Proof.Machine.execWatchCancel t p k s
  | .readData t p k => Sys2Proof.Machine.execReadData t p k s
  | .writeAck t p k => Sys2Proof.Machine.execWriteAck t p k s
  | .atomicOld t p k => Sys2Proof.Machine.execAtomicOld t p k s
  | .watchAck t p k => Sys2Proof.Machine.execWatchAck t p k s
  | .refuse t p k => Sys2Proof.Machine.execRefuse t p k s
  | .admitted t p k => Sys2Proof.Machine.execAdmitted t p k s
  | .accepted t p k => Sys2Proof.Machine.execAccepted t p k s
  | .admitPkt t p k => Sys2Proof.Machine.execAdmit t p k s
  | .dataTok t p k => Sys2Proof.Machine.execDataTok t p k s
  | .abandon t p k => Sys2Proof.Machine.execAbandon t p k s
  | .ping t p k => Sys2Proof.Machine.execPing t p k s
  | .pong t p k => Sys2Proof.Machine.execPong t p k s
  | .stateMgt t p k => Sys2Proof.Machine.execStateMgt t p k s
  | .regRead t p k => Sys2Proof.Machine.execRegRead t p k s
  | .regWrite t p k => Sys2Proof.Machine.execRegWrite t p k s
  | .regData t p k => Sys2Proof.Machine.execRegData t p k s
  | .fabricReservedPacket t p k => Sys2Proof.Machine.execFabricReservedPacket t p k s
  | .packetForward t p k => Sys2Proof.Machine.execPacketForward t p k s
  | .packetLostTimeout k => Sys2Proof.Machine.execPacketLostTimeout k s
  | .rerouteTimeout k => Sys2Proof.Machine.execRerouteTimeout k s
  | .refusalResend t node => Sys2Proof.Machine.execRefusalResend t node s
  | .refusalGiveUp t node => Sys2Proof.Machine.execRefusalGiveUp t node s
  | .flowPortChange k => Sys2Proof.Machine.execFlowPortChange k s
  | .fabricFlit t p flit trailer => Sys2Proof.Machine.execFabricFlit t p flit trailer s
  | .fabricAckTimer t p => Sys2Proof.Machine.execFabricAckTimer t p s
  | .fabricNoProgress t p => Sys2Proof.Machine.execFabricNoProgress t p s
  | .fabricRetrainEnd t p peer => Sys2Proof.Machine.execFabricRetrainEnd t p peer s
  | .laserLow t e inputB power => Sys2Proof.Machine.execLaserLow t e inputB power s
  | .laserRestored t e inputB power => Sys2Proof.Machine.execLaserRestored t e inputB power s
  | .portRetrain t p => Sys2Proof.Machine.execPortRetrain t p s
  | .portEnableWrite t p b => Sys2Proof.Machine.execPortEnableWrite t p b s
  | .skyNodeWrite t v => Sys2Proof.Machine.execSkyNodeWrite t v s
  | .skyCreditWrite t v => Sys2Proof.Machine.execSkyCreditWrite t v s
  | .routingEntryWrite t group k v => Sys2Proof.Machine.execRoutingEntryWrite t group k v s
  | .dieLinkTrained l peer train => Sys2Proof.Machine.execDieLinkTrained l peer train s
  | .dieLinkTrainTimeout l => Sys2Proof.Machine.execDieLinkTrainTimeout l s
  | .dieLinkFlit l flit control => Sys2Proof.Machine.execDieLinkFlit l flit control s
  | .dieLinkAckTimer l => Sys2Proof.Machine.execDieLinkAckTimer l s
  | .dieLinkNoProgress e => Sys2Proof.Machine.execDieLinkNoProgress e s
  | .dieLinkRetrainEnd l train => Sys2Proof.Machine.execDieLinkRetrainEnd l train s
  | .failoverStart l => Sys2Proof.Machine.execFailoverStart l s
  | .failoverComplete late => Sys2Proof.Machine.execFailoverComplete late s
  | .dlkLinkRetrain l => Sys2Proof.Machine.execDlkLinkRetrain l s
  | .forceDown l b => Sys2Proof.Machine.execForceDown l b s
  | .sqTailDoorbell r v => Sys2Proof.Machine.execSqTailDoorbell r v s
  | .cqHeadDoorbell r v => Sys2Proof.Machine.execCqHeadDoorbell r v s
  | .eqHeadDoorbell r v => Sys2Proof.Machine.execEqHeadDoorbell r v s
  | .commandTake entry => Sys2Proof.Machine.execCommandTake entry s
  | .completionPost r => Sys2Proof.Machine.execCompletionPost r s
  | .completionWriteFail event r => Sys2Proof.Machine.execCompletionWriteFail event r s
  | .ringEnableWrite event r b => Sys2Proof.Machine.execRingEnableWrite event r b s
  | .ringDrained r => Sys2Proof.Machine.execRingDrained r s
  | .eventPost => Sys2Proof.Machine.execEventPost s
  | .cmdNop k => Sys2Proof.Machine.execCmdNop k s
  | .undefinedCommand k => Sys2Proof.Machine.execUndefinedCommand k s
  | .identify k => Sys2Proof.Machine.execIdentify k s
  | .ringCreate k => Sys2Proof.Machine.execRingCreate k s
  | .ringDestroy k => Sys2Proof.Machine.execRingDestroy k s
  | .eqCreate k => Sys2Proof.Machine.execEqCreate k s
  | .eqDestroy k => Sys2Proof.Machine.execEqDestroy k s
  | .chanCreate k list => Sys2Proof.Machine.execChanCreate k list s
  | .chanDestroy k => Sys2Proof.Machine.execChanDestroy k s
  | .windowSet k => Sys2Proof.Machine.execWindowSet k s
  | .streamStart k list => Sys2Proof.Machine.execStreamStart k list s
  | .streamStop k list => Sys2Proof.Machine.execStreamStop k list s
  | .load k sgl data => Sys2Proof.Machine.execLoad k sgl data s
  | .store k sgl writeOk => Sys2Proof.Machine.execStore k sgl writeOk s
  | .flagWrite k => Sys2Proof.Machine.execFlagWrite k s
  | .seqFork k => Sys2Proof.Machine.execSeqFork k s
  | .seqRelease k => Sys2Proof.Machine.execSeqRelease k s
  | .thermalProfile k => Sys2Proof.Machine.execThermalProfile k s
  | .licenceInstall k data => Sys2Proof.Machine.execLicenceInstall k data s
  | .licenceQuery k => Sys2Proof.Machine.execLicenceQuery k s
  | .bar0BadAccess isWrite off size => Sys2Proof.Machine.execBar0BadAccess isWrite off size s
  | .barReadTimeout bar4 off => Sys2Proof.Machine.execBarReadTimeout bar4 off s
  | .skyWindowRead off len => Sys2Proof.Machine.execSkyWindowRead off len s
  | .skyWindowWrite off data => Sys2Proof.Machine.execSkyWindowWrite off data s
  | .registerWrite off wide v => Sys2Proof.Machine.execRegisterWrite off wide v s
  | .sensorSample readings => Sys2Proof.Machine.execSensorSample readings s
  | .sensorSilent k => Sys2Proof.Machine.execSensorSilent k s
  | .sensorRearm => Sys2Proof.Machine.execSensorRearm s
  | .quiesceDone t => Sys2Proof.Machine.execQuiesceDone t s
  | .quiesceTimeout t => Sys2Proof.Machine.execQuiesceTimeout t s
  | .rateRequestExpire t => Sys2Proof.Machine.execRateRequestExpire t s
  | .powerSample rails model => Sys2Proof.Machine.execPowerSample rails model s
  | .forecastStep hot zones => Sys2Proof.Machine.execForecastStep hot zones s
  | .gatePeriod => Sys2Proof.Machine.execGatePeriod s
  | .riseWindowEnd t => Sys2Proof.Machine.execRiseWindowEnd t s
  | .powerWindowEnd => Sys2Proof.Machine.execPowerWindowEnd s
  | .flowWindowEnd theta => Sys2Proof.Machine.execFlowWindowEnd theta s
  | .coolantWrite inlet flow => Sys2Proof.Machine.execCoolantWrite inlet flow s
  | .coolantStale => Sys2Proof.Machine.execCoolantStale s
  | .dewRisk t => Sys2Proof.Machine.execDewRisk t s
  | .trimStep => Sys2Proof.Machine.execTrimStep s
  | .vcoreUpdate t target => Sys2Proof.Machine.execVcoreUpdate t target s
  | .heartbeat => Sys2Proof.Machine.execHeartbeat s
  | .fwAliveLost => Sys2Proof.Machine.execFwAliveLost s
  | .coldReset => Sys2Proof.Machine.execColdReset s
  | .sysResetNLow ns => Sys2Proof.Machine.execSysResetNLow ns s
  | .perstNAssert => Sys2Proof.Machine.execPerstNAssert s
  | .hotReset => Sys2Proof.Machine.execHotReset s
  | .pcieLinkDown => Sys2Proof.Machine.execPcieLinkDown s
  | .fullArm => Sys2Proof.Machine.execFullArm s
  | .fullGo => Sys2Proof.Machine.execFullGo s
  | .referenceLoss pll => Sys2Proof.Machine.execReferenceLoss pll s
  | .serdesUnlock which => Sys2Proof.Machine.execSerdesUnlock which s
  | .fullResetRelease ns => Sys2Proof.Machine.execFullResetRelease ns s
  | .startupStepTimeout => Sys2Proof.Machine.execStartupStepTimeout s
  | .tickSyncCheck t offset => Sys2Proof.Machine.execTickSyncCheck t offset s
  | .computeGo => Sys2Proof.Machine.execComputeGo s
  | .drainEnd => Sys2Proof.Machine.execDrainEnd s
  | .heldEnd => Sys2Proof.Machine.execHeldEnd s
  | .releaseComplete => Sys2Proof.Machine.execReleaseComplete s
  | .blockResetGo v => Sys2Proof.Machine.execBlockResetGo v s
  | .blockIdle => Sys2Proof.Machine.execBlockIdle s
  | .blockResetRelease => Sys2Proof.Machine.execBlockResetRelease s
  | .blockResetTimeout => Sys2Proof.Machine.execBlockResetTimeout s
  | .romStart flash => Sys2Proof.Machine.execRomStart flash s
  | .manifest bytes => Sys2Proof.Machine.execManifest bytes s
  | .mgmtLoad => Sys2Proof.Machine.execMgmtLoad s
  | .segmentRead k bytes => Sys2Proof.Machine.execSegmentRead k bytes s
  | .fwInit log => Sys2Proof.Machine.execFwInit log s
  | .memTest rows vaults => Sys2Proof.Machine.execMemTest rows vaults s
  | .initFill => Sys2Proof.Machine.execInitFill s
  | .rainfall k => Sys2Proof.Machine.execRainfall k s
  | .rainfallPiece site num full => Sys2Proof.Machine.execRainfallPiece site num full s
  | .endMarker site count => Sys2Proof.Machine.execEndMarker site count s
  | .endMarkerTimeout site => Sys2Proof.Machine.execEndMarkerTimeout site s
  | .segmentFetch reread => Sys2Proof.Machine.execSegmentFetch reread s
  | .fetchAttemptEnd site answer => Sys2Proof.Machine.execFetchAttemptEnd site answer s
  | .fetchStageTimeout => Sys2Proof.Machine.execFetchStageTimeout s
  | .coreTest failed towers => Sys2Proof.Machine.execCoreTest failed towers s
  | .reconcile => Sys2Proof.Machine.execReconcile s
  | .bootStageTimeout => Sys2Proof.Machine.execBootStageTimeout s
  | .svnArm => Sys2Proof.Machine.execSvnArm s
  | .svnCommit => Sys2Proof.Machine.execSvnCommit s
  | .getVersion request answer => Sys2Proof.Machine.execGetVersion request answer s
  | .getCapabilities request answer => Sys2Proof.Machine.execGetCapabilities request answer s
  | .negotiateAlgorithms request answer => Sys2Proof.Machine.execNegotiateAlgorithms request answer s
  | .getDigests request answer => Sys2Proof.Machine.execGetDigests request answer s
  | .getCertificate request answer => Sys2Proof.Machine.execGetCertificate request answer s
  | .challenge request answer => Sys2Proof.Machine.execChallenge request answer s
  | .getMeasurements request answer => Sys2Proof.Machine.execGetMeasurements request answer s
  | .spdmUnsupported request answer => Sys2Proof.Machine.execSpdmUnsupported request answer s
  | .getSensorReading sensor => Sys2Proof.Machine.execGetSensorReading sensor s
  | .getStateSensorReadings sensor => Sys2Proof.Machine.execGetStateSensorReadings sensor s
  | .setdasa addr => Sys2Proof.Machine.execSetdasa addr s
  | .errorRecord => Sys2Proof.Machine.execErrorRecord s
  | .watchdogExpire x => Sys2Proof.Machine.execWatchdogExpire x s
  | .mgmtSramUncorrectable => Sys2Proof.Machine.execMgmtSramUncorrectable s
  | .crashWriterTimeout => Sys2Proof.Machine.execCrashWriterTimeout s
  | .crashRelease => Sys2Proof.Machine.execCrashRelease s
  | .dbgStep v => Sys2Proof.Machine.execDbgStep v s
  | .snapshot v writeOk => Sys2Proof.Machine.execSnapshot v writeOk s
  | .traceRecord => Sys2Proof.Machine.execTraceRecord s
  | .traceWrite => Sys2Proof.Machine.execTraceWrite s
  | .telemetryLatch => Sys2Proof.Machine.execTelemetryLatch s
  | .portTrained t p peer => Sys2Proof.Machine.execPortTrained t p peer s
  | .skyCtrlEnableWrite t b => Sys2Proof.Machine.execSkyCtrlEnableWrite t b s
  | .referenceRestored => Sys2Proof.Machine.execReferenceRestored s
  | .perstNDeassert => Sys2Proof.Machine.execPerstNDeassert s
  | .resetStretchEnd => Sys2Proof.Machine.execResetStretchEnd s
  | .vauxLoss => Sys2Proof.Machine.execVauxLoss s
  | .hostLinkUp wide rate => Sys2Proof.Machine.execHostLinkUp wide rate s
  | .firmwarePanic h => Sys2Proof.Machine.execFirmwarePanic h s

end Sys2Proof.Machine
end

