-- ==== Sys2Proof/Machine/Step.lean ====
section
/-!
DEFINITION. One step: the command at the front of the queue, or one tick of the time tick when none waits.
-/
namespace Sys2Proof.Machine

/-- One nanosecond of the time tick (00 R12). DESIGN CHOICE (log entry 1): time passes when no command waits; what
waited only for a vault or an engine goes on. -/
def tickOn (s : State) : State := { s with now := s.now + 1, regs0 := s.regs }.arrays.unitTicks.stallTicks.fabricTicks.vcoreTicks.goOn

/-- One step of the machine: it takes the first command of the queue and runs it with the rest of the queue. -/
def step (s : State) : Host.Outcome State Fault Refusal :=
  match s.pending with
  | [] => .next (tickOn s)
  | c :: rest => exec c { s with pending := rest }

/-- The state with the command that a table word spells put in front; no row of the table has bits. -/
def State.withFetchWord (s : State) (nbits w : Nat) : State :=
  match Sys2Proof.decodeTableWord nbits w with
  | none => s
  | some c => { s with pending := c :: s.pending }

end Sys2Proof.Machine
end

