-- ==== Sys2Proof/Safety.lean ====
section
/-!
DEFINITION. The terms claims use: the canonical forms of the tables and memories, what fuses may become, a core that
issues an instruction at once, and what an instruction, a vault access or a command leaves alone.
-/
namespace Sys2Proof.Machine

/-! ## Invariants -/

/-- The register table is in canonical form: offsets strictly rising, no register listed at its reset value. -/
def State.regsWf (s : State) : Bool := SMap.wf regReset s.regs

/-- Fuses only burn (15 R538): the part of a serial keeps it, its svn floor does not fall below a bound, and the image
and licence key slots revoked once stay revoked. -/
structure State.fusesFrom (s : State) (serial : BitVec 64) (floor image lic : Nat) : Prop where
  serial : s.chip.serial = serial
  floor : floor ≤ s.chip.svnFloor
  image : Nat.land image s.chip.imageRevoked = image
  lic : Nat.land lic s.chip.licRevoked = lic

/-! ## An instruction that issues at once -/

/-- The word after the one at CORE_PC, in CORE_PC's 29 bits. -/
def State.nextPc (s : State) (i : Nat) : Nat := (s.pc i + 16) % 2 ^ 29

/-- The core of a site issues the word at CORE_PC now and goes on past it: no loop is open, nothing of the core is
outstanding, waits in a queue of it or for a bank, or has been read at another node, no debug step runs, nothing is
traced, the next line is not poisoned, and the word's last-of-repeat and reserved bits are 0. -/
def State.clear (s : State) (i : Nat) (w : BitVec 128) : Bool :=
  s.canIssue i w && (s.core i).frames.isEmpty && (s.core i).synq.isEmpty && decide ((s.core i).stepsLeft = 0) &&
  !s.jobs.any (fun j => j.site == i) && !s.traceOn && (s.core i).wordAt (s.nextPc i) != .poison &&
  bits w.toNat 15 13 == 0 && (s.core i).waits.isEmpty && (s.core i).kvq.isEmpty && (s.core i).kvRun.isEmpty &&
  s.asker.isNone && !s.tables.any (fun t => t.site == i)

/-- The word is of an engine and opcode. -/
def isOp (w : BitVec 128) (eng op : Nat) : Bool := iEng w.toNat == eng && iOp w.toNat == op

/-- The registers every instruction that leaves the sequencer may change: CORE_PC and CORE_RETIRED. -/
def pcRegs (i : Nat) : List Nat := [(Reg.corePc_pc i).off, (Reg.coreRetired_count i).off]

/-- The sequencer of a core has moved past an instruction (02 R89): CORE_PC is the next word, CORE_RETIRED is one more;
no register but these and the listed ones has changed, nor any other core. -/
structure State.passed (s t : State) (i : Nat) (changed : List Nat) : Prop where
  pc : t.pc i = s.nextPc i
  retired : t.getF (Reg.coreRetired_count i) = (s.getF (Reg.coreRetired_count i) + 1) % 2 ^ 48
  regs : ∀ a, a ∉ pcRegs i → a ∉ changed → t.reg a = s.reg a
  cores : ∀ j, j ≠ i → t.core j = s.core j

/-- Nothing but registers and cores has changed (and which free values have been used). -/
def State.sameBeyondCores (s t : State) : Prop :=
  { t with regs := s.regs, cores := s.cores, fresh := s.fresh } = s

/-- A byte of a core's scratchpad as an instruction reads it, with its poison. -/
def State.scratchByte (s : State) (i a : Nat) : PByte := EccMem.byte scratchZero (s.core i).scratch a

/-- The scratchpad of a core reads as before outside a range of bytes. -/
def State.scratchKept (s t : State) (i a n : Nat) : Prop :=
  ∀ b, b < a ∨ a + n ≤ b → t.scratchByte i b = s.scratchByte i b

/-- A range of the scratchpad reads as given bytes. -/
def State.scratchHolds (s : State) (i a : Nat) (data : List PByte) : Prop :=
  ∀ k, (h : k < data.length) → s.scratchByte i (a + k) = data[k]

/-- A byte of a vault as a request reads it, with its poison. -/
def State.vaultByte (s : State) (v a : Nat) : PByte := (s.peekVault v a 1).headD (0, true)

/-- A vault reads as before outside a range of bytes. -/
def State.vaultKept (s t : State) (v a n : Nat) : Prop :=
  ∀ b, b < vaultSize → b < a ∨ a + n ≤ b → t.vaultByte v b = s.vaultByte v b

/-- A range of a vault reads as given bytes. -/
def State.vaultHolds8 (s : State) (v a : Nat) (data : List PByte) : Prop :=
  ∀ k, (h : k < data.length) → s.vaultByte v (a + k) = data[k]

/-- An instruction has run on a core and touched nothing outside it: the sequencer has moved past it, the core is `c`
but for the break skip and whether CORE_PC has run off the vault (02 R64), the listed registers may have changed, and
nothing else has. -/
structure State.ran (s t : State) (i : Nat) (changed : List Nat) (c : Core) : Prop where
  moved : s.passed t i changed
  core : t.core i = { c with noBreak := false, pastEnd := decide (vaultSize ≤ s.pc i + 16) }
  rest : s.sameBeyondCores t

/-- A vault of this package and an offset that a piece of an access names. -/
def Piece.at_ (p : Piece) (v off : Nat) : Prop := p.place = .vault v off

/-- Every piece of an access lies in a vault of this package that is in service and whose words there are clean. -/
def State.piecesClean (s : State) (ps : List Piece) : Prop :=
  ∀ p ∈ ps, ∃ v off, p.at_ v off ∧ s.vaultState v ≠ vsRetired ∧ readStatus (s.wordsOf v off p.len) = stOk

/-- No two pieces meet. -/
def piecesApart (ps : List Piece) : Prop :=
  ps.Pairwise (fun p q => ∀ v a u b, p.at_ v a → q.at_ u b → v ≠ u ∨ a + p.len ≤ b ∨ b + q.len ≤ a)

/-- Bytes of a transfer as they lie in the pieces it reads. -/
def State.pieceBytes (s : State) (ps : List Piece) : List PByte :=
  ps.flatMap (fun p => match p.place with
    | .vault v off => s.peekVault v off p.len
    | .remote _ _ => [])

/-- Bytes of a core's scratchpad. -/
def State.scratchBytes (s : State) (i a n : Nat) : List PByte := EccMem.read scratchZero (s.core i).scratch a n

/-- A range of a core's scratchpad holds no error, and no notes of ranges are being taken. -/
def State.scratchClean (s : State) (i a n : Nat) : Prop :=
  (s.core i).touch = none ∧ ∀ x ∈ EccMem.scan scratchZero (s.core i).scratch a n, x.2.kind = .clean

/-- The pieces of an access hold the bytes of a transfer. -/
def State.piecesHold (s : State) (ps : List Piece) (data : List PByte) : Prop :=
  ∀ p ∈ ps, ∀ v off, p.at_ v off → s.vaultHolds8 v off (slice data p.pos p.len)

/-- Every byte of every vault outside some pieces reads as before. -/
def State.vaultsKeptBut (s t : State) (ps : List Piece) : Prop :=
  ∀ v b, b < vaultSize → (∀ p ∈ ps, ∀ off, p.at_ v off → b < off ∨ off + p.len ≤ b) → t.vaultByte v b = s.vaultByte v b

/-- A core has moved past an instruction and runs on. -/
structure State.wentOn (s t : State) (i : Nat) : Prop where
  pc : t.pc i = s.nextPc i
  retired : t.getF (Reg.coreRetired_count i) = (s.getF (Reg.coreRetired_count i) + 1) % 2 ^ 48
  state : t.coreState i = csRunning
  soft : t.getF (Reg.coreSoftErr_count i) = s.getF (Reg.coreSoftErr_count i)
  cores : ∀ j, j ≠ i → t.core j = s.core j

/-- What is outside the cores, the registers and the vaults is as it was (and which free values have been used). -/
def State.sameBeyondVaults (s t : State) : Prop :=
  { t with regs := s.regs, cores := s.cores, vaults := s.vaults, fresh := s.fresh } = s

/-- The registers of the VLT block of a site (06 R250). -/
def vltReg (i a : Nat) : Prop := siteBase i + 0x2000 ≤ a ∧ a < siteBase i + 0x2400

end Sys2Proof.Machine
end

