-- ==== Sys2Proof/Certificates/Slice0/Obligations.lean ====
section
/-!
DEFINITION. The statements for the provers. Each says which rules of the spec it formalises; terms that several share
stand in Safety.lean. A statement of several parts is their conjunction, each part a Claims definition with its own
docstring.
-/
open Sys2Proof Sys2Proof.Machine

/-! ## The queue, time and reset -/

/-- A step runs the command at the front of the queue on the state that holds the queue's rest. -/
def Obligations.StepRunsFrontCommand : Prop :=
  ∀ (c : Instr) (rest : List Instr) (s : State), s.pending = c :: rest →
    step s = exec c { s with pending := rest }

/-- On an empty queue a step is one tick of the time tick (the model's choice, log entry 1). -/
def Obligations.IdleStepIsOneTick : Prop :=
  ∀ s : State, s.pending = [] →
    ∃ t, step s = .next t ∧ t.now = s.now + 1 ∧ t.pending = [] ∧ t.chip = s.chip

/-- After a full reset (14 R513, R530; 02 R60, R103; 05 R165, R167; 12 R475; 15 R563): the device is BOOTING, the time
tick 0, every core IDLE with its stream registers, CORE_PC and CORE_RETIRED 0, every scratchpad byte zero and clean,
every mask but k0 empty, every channel index free and no command waiting. -/
def Claims.ResetLeaves : Prop :=
  State.reset.getF Reg.glbState_state = 0 ∧ State.reset.now = 0 ∧ State.reset.pending = [] ∧
  (∀ i, i < 2304 → State.reset.coreState i = csIdle ∧ State.reset.pc i = 0 ∧
    State.reset.getF (Reg.coreRetired_count i) = 0 ∧ State.reset.streamBase i = 0 ∧ State.reset.streamLen i = 0) ∧
  (∀ i a, State.reset.scratchByte i a = (0, false)) ∧
  (∀ i k, 1 ≤ k → (State.reset.core i).tle.mask k = ⟨0, false⟩) ∧
  (∀ k, (State.reset.chan k).st = .free)

/-- The state after reset meets the invariants of this file. -/
def Claims.ResetMeetsInvariants : Prop :=
  State.reset.regsWf = true ∧
  State.reset.fusesFrom State.reset.chip.serial State.reset.chip.svnFloor State.reset.chip.imageRevoked
    State.reset.chip.licRevoked

/-- After a full reset every state the spec names is at its value, and the state meets the invariants of this file. -/
def Obligations.ResetState : Prop :=
  Claims.ResetLeaves ∧ Claims.ResetMeetsInvariants

/-- Every step keeps the register table canonical. -/
def Obligations.RegistersStayCanonical : Prop :=
  ∀ s t : State, s.regsWf = true → step s = .next t → t.regsWf = true

/-- Fuses only burn (15 R538): no step lowers the svn floor, gives a revoked key slot back, or changes the serial. -/
def Obligations.FusesOnlyBurn : Prop :=
  ∀ (s t : State) (serial : BitVec 64) (floor image lic : Nat),
    s.fusesFrom serial floor image lic → step s = .next t → t.fusesFrom serial floor image lic

/-- A step takes exactly the front command from the queue and puts none in: the commands run first in, first out. -/
def Obligations.QueueIsFirstInFirstOut : Prop :=
  ∀ s t : State, step s = .next t → t.pending = s.pending.tail

/-- A wedged device leaves that state only through a full reset (16 R588): after every step it is still WEDGED, or held in
full reset. -/
def Obligations.WedgedUntilFullReset : Prop :=
  ∀ s t : State, s.wedged = true → step s = .next t → t.wedged = true ∨ t.inFullReset = true

/-! ## SYN -/

/-- NOP does nothing, and FENCE with nothing outstanding waits for nothing (02 R80, R93): the sequencer moves past. -/
def Claims.NopAndFencePass : Prop :=
  ∀ (s : State) (i : Site) (w : BitVec 128), s.clear i w = true →
    (isOp w 0 0 = true → rsvOk w.toNat [] = true →
      ∃ t, exec (.nop i w) s = .next t ∧ s.ran t i [] (s.core i)) ∧
    (isOp w 0 2 = true → rsvOk w.toNat [(39, 32)] = true →
      ∃ t, exec (.fence i w) s = .next t ∧ s.ran t i [] (s.core i))

/-- A FENCE whose engines still have instructions outstanding holds the sequencer (02 R80): CORE_PC and CORE_RETIRED
stay, and so does everything else of the machine. -/
def Claims.FenceHolds : Prop :=
  ∀ (s : State) (i : Site) (w : BitVec 128), s.canIssue i w = true → isOp w 0 2 = true → bits w.toNat 15 14 = 0 →
    rsvOk w.toNat [(39, 32)] = true → s.engBusy i (fenceMask w.toNat) = true →
    ∃ t, exec (.fence i w) s = .next t ∧ (t.core i).hold = .fence (fenceMask w.toNat) ∧
      t.core i = { s.core i with hold := .fence (fenceMask w.toNat), cur := w } ∧
      (∀ j, j ≠ i → t.core j = s.core j) ∧ { t with cores := s.cores } = s

/-- NOP and FENCE (02 R80, R93): they pass where nothing is outstanding, and a FENCE holds where something is. -/
def Obligations.NopAndFences : Prop :=
  Claims.NopAndFencePass ∧ Claims.FenceHolds

/-- The generator instructions (02 R72, R93): AGSET.BASE gives the named generator a base and a space, AGSET.STRIDE the
stride of one depth, and AGADD adds a signed value to the base, modulo 2^64. Every other generator, and the rest of the
machine, is as it was. -/
def Obligations.GeneratorInstructions : Prop :=
  ∀ (s : State) (i : Site) (w : BitVec 128), s.clear i w = true →
    let n := w.toNat
    let g := bits n 35 32
    let a := (s.core i).ag g
    let only := fun (t : State) (b : Ag) =>
      (t.core i).ag g = b ∧ (∀ h, h ≠ g → (t.core i).ag h = (s.core i).ag h) ∧
      s.ran t i [] { s.core i with ags := (t.core i).ags }
    (isOp w 0 8 = true → rsvOk n [(35, 32), (37, 36), (127, 64)] = true →
      ∃ t, exec (.agsetBase i w) s = .next t ∧
        only t { a with base := BitVec.ofNat 64 (n / 2 ^ 64), space := BitVec.ofNat 2 (bits n 37 36) }) ∧
    (isOp w 0 9 = true → rsvOk n [(35, 32), (37, 36), (95, 64)] = true →
      (bits n 37 36 = 0 → ∃ t, exec (.agsetStride i w) s = .next t ∧ only t { a with s0 := BitVec.ofNat 32 (bits n 95 64) }) ∧
      (bits n 37 36 = 1 → ∃ t, exec (.agsetStride i w) s = .next t ∧ only t { a with s1 := BitVec.ofNat 32 (bits n 95 64) }) ∧
      (bits n 37 36 = 2 → ∃ t, exec (.agsetStride i w) s = .next t ∧ only t { a with s2 := BitVec.ofNat 32 (bits n 95 64) })) ∧
    (isOp w 0 10 = true → rsvOk n [(35, 32), (95, 64)] = true →
      ∃ t, exec (.agadd i w) s = .next t ∧ only t { a with base := a.base + (BitVec.ofNat 32 (bits n 95 64)).signExtend 64 })

/-- TICK writes the time tick to its scratchpad address, little-endian; NOTIFY posts an event with its value and tag to
the event ring of the core's channel (02 R93, 12 R469). Nothing else changes. -/
def Claims.TickAndNotify : Prop :=
  ∀ (s : State) (i : Site) (w : BitVec 128), s.clear i w = true →
    (isOp w 0 0xC = true → rsvOk w.toNat [(35, 32), (59, 36)] = true →
      let o := (s.core i).opnd (bits w.toNat 35 32) (sbits w.toNat 59 36)
      o.inScratch 8 = true → o.ea % 8 = 0 →
      ∃ t, exec (.tick i w) s = .next t ∧ t.scratchHolds i o.ea (clean (toLE 8 s.now)) ∧ s.scratchKept t i o.ea 8 ∧
        s.ran t i [] { s.core i with scratch := (t.core i).scratch, touch := (t.core i).touch }) ∧
    (isOp w 0 0xD = true → rsvOk w.toNat [(63, 32)] = true → ∀ k, chanOfSite s.chans i = some k →
      ∃ t, exec (.notify i w) s = .next t ∧
        t.events = s.events ++ [{ eq := (s.chan k).eq, kind := 2, site := i, handle := s.handle k, status := stOk
                                  engine := 0, itag := iTag w.toNat, value := bits w.toNat 63 32, addr := 0 }] ∧
        s.ran { t with events := s.events } i [] (s.core i))

/-- END outside a loop with nothing outstanding ends the stream (02 R88): the core is IDLE and, if it has a channel, a
STREAM_DONE event with status OK goes to the channel's event ring. -/
def Claims.EndOfStream : Prop :=
  ∀ (s : State) (i : Site) (w : BitVec 128), s.clear i w = true → isOp w 0 1 = true → rsvOk w.toNat [] = true →
    ∃ t, exec (.endStream i w) s = .next t ∧ t.coreState i = csIdle ∧
      t.events = s.events ++ (match chanOfSite s.chans i with
        | some k => [{ eq := (s.chan k).eq, kind := 1, site := i, handle := s.handle k, status := stOk, engine := 0
                       itag := 0, value := 0, addr := 0 }]
        | none => []) ∧
      s.ran { t with events := s.events } i [(Reg.coreStatus_state i).off] { s.core i with cur := w }

/-- TICK, NOTIFY and END (02 R88, R93). -/
def Obligations.TickNotifyAndEnd : Prop :=
  Claims.TickAndNotify ∧ Claims.EndOfStream

/-- SIGNAL to a clean flag of the core's own vault with nothing outstanding (02 R81): the flag's 8 bytes become the
value, or the old value plus the value modulo 2^64; every other 8 B word of the vault reads as before, and CORE_PC and
CORE_RETIRED move on. -/
def Claims.SignalWritesFlag : Prop :=
  ∀ (s : State) (i : Site) (w : BitVec 128), s.clear i w = true → isOp w 0 3 = true →
    let n := w.toNat
    let o := (s.core i).opnd (bits n 35 32) (sbits n 59 36)
    rsvOk n [(35, 32), (59, 36), (61, 60), (95, 64), (103, 96)] = true → bits n 61 60 ≤ 1 →
    o.space = spGround → o.ea % 8 = 0 → o.ea + 8 ≤ vaultSize → s.pieceReady (towerOf i) true ⟨.vault i o.ea, 0, 8⟩ = true →
    (s.vault i).watches = [] → anyPoison (s.peekVault i o.ea 8) = false → s.vaultState i ≠ vsRetired →
    (s.vault i).retired.contains (rowOf (physAddr (s.frameBase i) o.ea)) = false →
    (bits n 61 60 = 1 → s.atomicReady (towerOf i) ⟨.vault i o.ea, 0, 8⟩ = true) →
    ∃ t, exec (.signal i w) s = .next t ∧
      t.vaultHolds8 i o.ea (clean (toLE 8 (if bits n 61 60 = 1 then (leP (s.peekVault i o.ea 8) + bits n 95 64) % 2 ^ 64
        else bits n 95 64))) ∧
      s.vaultKept t i o.ea 8 ∧ t.pc i = s.nextPc i ∧
      t.getF (Reg.coreRetired_count i) = (s.getF (Reg.coreRetired_count i) + 1) % 2 ^ 48 ∧
      (∀ j, j ≠ i → t.core j = s.core j) ∧ (∀ v, v ≠ i → t.vault v = s.vault v)

/-- WAIT on a clean flag of the core's own vault (02 R82, R83): with the condition met the sequencer moves past it and
no watch stays; otherwise the core holds at the WAIT with its watch armed and the value seen. -/
def Claims.WaitOnFlag : Prop :=
  ∀ (s : State) (i : Site) (w : BitVec 128), s.clear i w = true → isOp w 0 4 = true →
    let n := w.toNat
    let o := (s.core i).opnd (bits n 35 32) (sbits n 59 36)
    let flag := s.peekVault i o.ea 8
    rsvOk n [(35, 32), (59, 36), (61, 60), (95, 64), (119, 96)] = true → bits n 61 60 ≤ 2 → bits n 119 96 ≠ 0 →
    o.space = spGround → o.ea % 8 = 0 → o.ea + 8 ≤ vaultSize → s.pieceReady (towerOf i) false ⟨.vault i o.ea, 0, 8⟩ = true →
    (s.vault i).watches.length < watchMax → anyPoison flag = false → s.vaultState i ≠ vsRetired →
    (s.vault i).retired.contains (rowOf (physAddr (s.frameBase i) o.ea)) = false →
    (waitHolds (bits n 61 60) (bits n 95 64) (leP flag) = true →
      ∃ t, exec (.wait i w) s = .next t ∧ t.pc i = s.nextPc i ∧ (t.core i).hold = .none ∧
        t.getF (Reg.coreRetired_count i) = (s.getF (Reg.coreRetired_count i) + 1) % 2 ^ 48 ∧
        t.getF (Reg.coreStatus_wait_armed i) = 0 ∧ (∀ x ∈ (t.vault i).watches, x.who ≠ .core i)) ∧
    (waitHolds (bits n 61 60) (bits n 95 64) (leP flag) = false →
      ∃ t x, exec (.wait i w) s = .next t ∧ t.pc i = s.pc i ∧ (t.core i).hold = .wait x ∧ x.armed = true ∧
        x.seen = leP flag ∧ x.value = bits n 95 64 ∧ x.cmp = bits n 61 60 ∧ x.deadline = s.now + us (bits n 119 96) ∧
        t.getF (Reg.coreStatus_wait_armed i) = 1 ∧ (⟨o.ea, .core i⟩ : Watch) ∈ (t.vault i).watches ∧
        t.getF (Reg.coreRetired_count i) = s.getF (Reg.coreRetired_count i))

/-- SIGNAL and WAIT on a flag of the core's own vault (02 R81 to R83). -/
def Obligations.SignalAndWait : Prop :=
  Claims.SignalWritesFlag ∧ Claims.WaitOnFlag

/-- REPEAT and REPEAT.IND whose closing instruction is found and whose count is at least 1 open their body (02 R76, R77,
R79): the innermost loop is the body at the next word with its count, and the loop buffer is empty. With count 0 the body
is skipped: the sequencer stands after the closing instruction. -/
def Claims.RepeatOpensBody : Prop :=
  ∀ (s : State) (i : Site) (w : BitVec 128) (a count : Nat) (c : Instr),
    s.clear i w = true → s.lookBody i = .closes a → count < 65536 →
    (c = .repeatImm i w ∧ isOp w 0 5 = true ∧ rsvOk w.toNat [(47, 32)] = true ∧ count = bits w.toNat 47 32 ∨
     c = .repeatInd i w ∧ isOp w 0 6 = true ∧ rsvOk w.toNat [(51, 32)] = true ∧ bits w.toNat 51 32 % 4 = 0 ∧
       (s.core i).touch = none ∧
       (∀ x ∈ EccMem.scan scratchZero (s.core i).scratch (bits w.toNat 51 32) 4, x.2.kind = .clean) ∧
       count = leP (s.readScratch i (bits w.toNat 51 32) 4).2) →
    (count ≠ 0 → ∃ t, exec c s = .next t ∧
      s.ran t i [] { s.core i with frames := [⟨s.pc i + 16, count, 0⟩], loopBuf := [] }) ∧
    (count = 0 → (s.core i).wordAt ((a + 16) % 2 ^ 29) ≠ .poison → ∃ t, exec c s = .next t ∧
      t.pc i = (a + 16) % 2 ^ 29 ∧ t.getF (Reg.coreRetired_count i) = (s.getF (Reg.coreRetired_count i) + 1) % 2 ^ 48 ∧
      t.core i = { s.core i with noBreak := false, pastEnd := decide (vaultSize ≤ a + 16) } ∧ s.sameBeyondCores t)

/-- A last-of-repeat closes the innermost open body (02 R77, R79): with passes left the sequencer goes back to the body's
first word and counts the pass, the loop buffer holding the closing instruction and what it held; after the last pass it
goes on past the closing instruction. -/
def Claims.LastOfRepeatClosesBody : Prop :=
  ∀ (s : State) (i : Site) (w : BitVec 128) (f : LoopFrame) (fs : List LoopFrame),
    s.canIssue i w = true → isOp w 0 0 = true → rsvOk w.toNat [] = true → bits w.toNat 15 13 = 1 →
    (s.core i).frames = f :: fs → (s.core i).synq = [] → (s.core i).stepsLeft = 0 →
    s.jobs.any (fun j => j.site == i) = false → s.tables.any (fun t => t.site == i) = false → s.traceOn = false →
    (s.core i).icache.all (fun l => !l.2.poison) = true →
    (f.iter + 1 < f.count → ∃ t, exec (.nop i w) s = .next t ∧ t.pc i = f.body % 2 ^ 29 ∧
      (t.core i).frames = { f with iter := f.iter + 1 } :: fs ∧ SMap.find (t.core i).loopBuf (s.pc i) = some w ∧
      (∀ a, a ≠ s.pc i → SMap.find (t.core i).loopBuf a = SMap.find (s.core i).loopBuf a)) ∧
    (f.count ≤ f.iter + 1 → ∃ t, exec (.nop i w) s = .next t ∧ t.pc i = s.nextPc i ∧ (t.core i).frames = fs ∧
      (fs = [] → (t.core i).loopBuf = []))

/-- REPEAT opens a body and last-of-repeat closes it (02 R76, R77, R79). -/
def Obligations.RepeatBodies : Prop :=
  Claims.RepeatOpensBody ∧ Claims.LastOfRepeatClosesBody

/-- A word with a reserved opcode completes with BAD_OPCODE and no side effect (00 R19): the sequencer moves past it, the
status counts in CORE_SOFT_ERR, and the core goes on. -/
def Obligations.ReservedOpcodeIsBadOpcode : Prop :=
  ∀ (s : State) (i : Site) (w : BitVec 128), s.clear i w = true → definedOp (iEng w.toNat) (iOp w.toNat) = false →
    ∃ t, exec (.reservedOpcode i w) s = .next t ∧ s.ran t i [(Reg.coreSoftErr_count i).off] (s.core i) ∧
      t.getF (Reg.coreSoftErr_count i) = Nat.min (s.getF (Reg.coreSoftErr_count i) + 1) 65535 ∧
      (s.getF (Reg.coreSoftErr_count i) = 0 → t.getF (Reg.coreSoftErr_first_status i) = stBadOpcode ∧
        t.getF (Reg.coreSoftErr_first_engine i) = iEng w.toNat) ∧ t.coreState i = csRunning

/-! ## MOV -/

/-- LOAD and LOAD.N from vaults of the package that answer now with clean words (02 R97, R101): the scratchpad
destination holds the bytes of each piece; the rest of the scratchpad, and every byte of every vault, reads as
before. -/
def Claims.LoadMovesBytes : Prop :=
  ∀ (s : State) (i : Site) (w : BitVec 128) (c : Instr) (n : Nat), s.clear i w = true →
    (c = .movLoad i w ∧ isOp w 1 0 = true ∧ movBad w.toNat = false ∧ n = bits w.toNat 116 96 ∨
     c = .loadN i w ∧ isOp w 1 3 = true ∧ movNBad w.toNat = false ∧ s.scratchClean i (bits w.toNat 115 96) 4 ∧
       n = leP (s.scratchBytes i (bits w.toNat 115 96) 4) * 2 ^ bits w.toNat 119 117 ∧ 0 < n ∧ n ≤ movMax) →
    let o := movOpnds (s.core i) w.toNat
    let x := s.resolve i o.2 n false
    (s.core i).touch = none → o.1.inScratch n = true →
    EccMem.mergeMeetsPoison scratchZero (s.core i).scratch o.1.ea n = false → o.2.space ≠ spScratch → x.st = stOk → x.ready = true →
    s.piecesClean x.pieces →
    ∃ t, exec c s = .next t ∧ t.scratchHolds i o.1.ea (s.pieceBytes x.pieces) ∧ s.scratchKept t i o.1.ea n ∧
      s.vaultsKeptBut t [] ∧ s.wentOn t i

/-- STORE and STORE.N of clean scratchpad bytes to vaults of the package that take them now (02 R97, R101): the pieces
hold the bytes; every other byte of every vault, and the scratchpad, reads as before. -/
def Claims.StoreMovesBytes : Prop :=
  ∀ (s : State) (i : Site) (w : BitVec 128) (c : Instr) (n : Nat), s.clear i w = true →
    (c = .movStore i w ∧ isOp w 1 1 = true ∧ movBad w.toNat = false ∧ n = bits w.toNat 116 96 ∨
     c = .storeN i w ∧ isOp w 1 4 = true ∧ movNBad w.toNat = false ∧ s.scratchClean i (bits w.toNat 115 96) 4 ∧
       n = leP (s.scratchBytes i (bits w.toNat 115 96) 4) * 2 ^ bits w.toNat 119 117 ∧ 0 < n ∧ n ≤ movMax) →
    let o := movOpnds (s.core i) w.toNat
    let x := s.resolve i o.1 n true
    s.scratchClean i o.2.ea n → o.2.inScratch n = true → o.1.space ≠ spScratch → x.st = stOk → x.ready = true →
    s.piecesClean x.pieces → piecesApart x.pieces →
    ∃ t, exec c s = .next t ∧ t.piecesHold x.pieces (s.scratchBytes i o.2.ea n) ∧ s.vaultsKeptBut t x.pieces ∧
      s.scratchKept t i 0 0 ∧ s.wentOn t i

/-- COPY between clean memory of the package (02 R97): the destination holds what the source held when it issued, even
where the two meet; every other byte of every vault, and the scratchpad, reads as before. -/
def Claims.CopyMovesBytes : Prop :=
  ∀ (s : State) (i : Site) (w : BitVec 128), s.clear i w = true → isOp w 1 2 = true → movBad w.toNat = false →
    let n := bits w.toNat 116 96
    let o := movOpnds (s.core i) w.toNat
    let x := s.resolve i o.2 n false
    let y := x.s.resolve i o.1 n true
    o.1.space ≠ spScratch → o.2.space ≠ spScratch → x.st = stOk → y.st = stOk → x.ready = true → y.ready = true →
    s.piecesClean x.pieces → s.piecesClean y.pieces → piecesApart y.pieces →
    ∃ t, exec (.movCopy i w) s = .next t ∧ t.piecesHold y.pieces (s.pieceBytes x.pieces) ∧
      s.vaultsKeptBut t y.pieces ∧ s.scratchKept t i 0 0 ∧ s.wentOn t i

/-- LOAD, STORE and COPY move their bytes and nothing else. -/
def Obligations.LoadStoreCopy : Prop :=
  Claims.LoadMovesBytes ∧ Claims.StoreMovesBytes ∧ Claims.CopyMovesBytes

/-- GATHER and SCATTER (02 R98, R101) with clean indices, rows in clean vaults of the package that answer now, and a
clean scratchpad: GATHER packs the rows into the scratchpad in the order of the indices; SCATTER writes each packed row
to its place, where no two rows meet. Nothing else of the scratchpad or of any vault changes. -/
def Claims.GatherAndScatterRows : Prop :=
  ∀ (s : State) (i : Site) (w : BitVec 128) (write : Bool) (xs : List (Option Nat)), s.clear i w = true →
    isOp w 1 (if write then 6 else 5) = true →
    let r := rowOps (s.core i) w.toNat
    let q := s.checkRows i r xs write
    let ps := q.rows.flatMap (fun x => x.2.getD [])
    rowBad w.toNat r = false → s.rowIndices i r = (s, .ok xs) → (∀ x ∈ xs, x.isSome = true) →
    s.scratchClean i r.sp.ea (xs.length * r.rowBytes) → q.d.st = stOk → q.ready = true → s.piecesClean ps →
    (write = true → piecesApart ps) →
    ∃ t, exec (if write then .scatter i w else .movGather i w) s = .next t ∧ s.wentOn t i ∧
      (write = false → s.vaultsKeptBut t [] ∧ s.scratchKept t i r.sp.ea (xs.length * r.rowBytes) ∧
        ∀ x ∈ q.rows, t.scratchHolds i (r.sp.ea + x.1 * r.rowBytes) (s.pieceBytes (x.2.getD []))) ∧
      (write = true → s.vaultsKeptBut t ps ∧ s.scratchKept t i 0 0 ∧
        ∀ x ∈ q.rows, t.piecesHold (x.2.getD []) (s.scratchBytes i (r.sp.ea + x.1 * r.rowBytes) r.rowBytes))

/-- FILL writes its pattern from the destination on, starting afresh there (02 R632); nothing else changes. -/
def Claims.FillWritesPattern : Prop :=
  ∀ (s : State) (i : Site) (w : BitVec 128), s.clear i w = true → isOp w 1 7 = true →
    let n := w.toNat
    let o := (s.core i).opnd (bits n 35 32) (sbits n 63 40)
    let len := bits n 116 96
    bits n 39 36 = 0 → bits n 127 117 = 0 → 0 < len → len ≤ movMax → o.inScratch len = true →
    EccMem.mergeMeetsPoison scratchZero (s.core i).scratch o.ea len = false →
    ∃ t, exec (.movFill i w) s = .next t ∧
      (∀ k, k < len → t.scratchByte i (o.ea + k) = (BitVec.ofNat 8 (bits n 95 64 / 2 ^ (8 * (k % 4))), false)) ∧
      s.scratchKept t i o.ea len ∧
      s.ran t i [] { s.core i with scratch := (t.core i).scratch, touch := (t.core i).touch }

/-- GATHER and SCATTER move rows, FILL writes its pattern. -/
def Obligations.GatherScatterFill : Prop :=
  Claims.GatherAndScatterRows ∧ Claims.FillWritesPattern

/-- ATOMIC on a clean word of a vault of the package (02 R99, 06 R219): the word becomes the operation's result, the
8 bytes at the result address the old value, zero-extended when narrow. Every other byte of every vault and of the
scratchpad reads as before. -/
def Obligations.AtomicOnFlag : Prop :=
  ∀ (s : State) (i : Site) (w : BitVec 128) (v off : Nat), s.clear i w = true → isOp w 1 8 = true →
    let n := w.toNat
    let res := (s.core i).opnd (bits n 35 32) (sbits n 63 40)
    let tgt := (s.core i).opnd (bits n 39 36) (sbits n 95 64)
    let nb := if bit n 100 then 8 else 4
    let span := if bits n 99 96 = 4 then 16 else 8
    let x := s.resolve i tgt nb true
    let old := leP (s.peekVault v off nb)
    bits n 127 101 = 0 → bits n 99 96 < 8 → res.inScratch span = true → res.ea % 8 = 0 → tgt.space ≠ spScratch →
    tgt.ea % nb = 0 → x.st = stOk → x.ready = true → x.pieces = [⟨.vault v off, 0, nb⟩] →
    s.atomicReady (towerOf i) ⟨.vault v off, 0, nb⟩ = true → s.piecesClean [⟨.vault v (off / 8 * 8), 0, 8⟩] →
    s.scratchClean i res.ea span →
    ∃ t, exec (.movAtomic i w) s = .next t ∧ s.wentOn t i ∧
      t.vaultHolds8 v off (clean (toLE nb (atomicOp (8 * nb) (bits n 99 96) old
        (leP (s.scratchBytes i res.ea nb)) (leP (s.scratchBytes i (res.ea + 8) nb))))) ∧
      t.scratchHolds i res.ea (clean (toLE 8 old)) ∧ s.scratchKept t i res.ea 8 ∧
      s.vaultsKeptBut t [⟨.vault v off, 0, nb⟩]

/-! ## The tile engine -/

/-- A tile instruction that reads and writes only the tile engine: its command, opcode, what it takes of a word, its
cycles, and what it makes of the registers, the word and the free value's index. -/
structure Claims.TileOp where
  cmd : Site → BitVec 128 → Instr
  op : Nat
  takes : Nat → Bool
  cycles : Nat
  out : Tle → Nat → Nat → TleOut

/-- A layout A instruction (05 R170, R174): the fields it reads, its own check, its cycles (R177) and its results. -/
def Claims.TileOp.ofA (cmd : Site → BitVec 128 → Instr) (op fields : Nat) (ok : LayA → Bool) (cycles : Nat)
    (f : Tle → LayA → Nat → TleOut) : Claims.TileOp :=
  ⟨cmd, op, fun n => onlyUses n fields && ok (layA n), cycles, fun t n k => f t (layA n) k⟩

/-- The instructions of layout A, KLOGIC and FLAGS. -/
def Claims.tileOps : List Claims.TileOp := [
  .ofA .tleMov 0x08 (uTd + uTb + uMk + uMz + uBsel + uImm) anyA cycLane tleMov,
  .ofA .add 0x09 useAdd anyA cycLane (tleArith .add),
  .ofA .sub 0x0A useAdd anyA cycLane (tleArith .sub),
  .ofA .mul 0x0B useAdd anyA cycLane (tleArith .mul),
  .ofA .fma 0x0C (useAdd + uTc) anyA cycLane (tleArith .fma),
  .ofA .div 0x0D useAdd anyA cycXcn (tleArith .div),
  .ofA .minT 0x0E useMin anyA cycLane (tleArith .min),
  .ofA .maxT 0x0F useMin anyA cycLane (tleArith .max),
  .ofA .absT 0x10 (useUn + uTyp) anyA cycLane (tleAbsNeg false),
  .ofA .neg 0x11 (useUn + uTyp) anyA cycLane (tleAbsNeg true),
  .ofA .andT 0x12 useMin intOnly cycLane (tleBit .and),
  .ofA .orT 0x13 useMin intOnly cycLane (tleBit .or),
  .ofA .xor 0x14 useMin intOnly cycLane (tleBit .xor),
  .ofA .shl 0x15 useMin intOnly cycLane (tleBit .shl),
  .ofA .shrl 0x16 useMin intOnly cycLane (tleBit .shrl),
  .ofA .shra 0x17 useMin intOnly cycLane (tleBit .shra),
  .ofA .sel 0x18 (uTd + uTa + uTb + uMk + uBsel + uImm) anyA cycLane tleSel,
  .ofA .cvt 0x20 (useUn + uTyp + uRmode + uSat) anyA cycLane tleCvt,
  .ofA .rnd 0x21 (useUn + uRmode + uSat + uRfmt) (fun a => decide (1 ≤ a.rfmt) && decide (a.rfmt ≤ 7))
    cycLane tleRnd,
  .ofA .exp2 0x28 (useUn + uSat) anyA cycXcn (tleXcn .exp2),
  .ofA .expT 0x29 (useUn + uSat) anyA cycXcn (tleXcn .exp),
  .ofA .log2 0x2A useUn anyA cycXcn (tleXcn .log2),
  .ofA .ln 0x2B useUn anyA cycXcn (tleXcn .ln),
  .ofA .rcp 0x2C useUn anyA cycXcn (tleXcn .rcp),
  .ofA .sqrt 0x2D useUn anyA cycXcn (tleXcn .sqrt),
  .ofA .rsqrt 0x2E useUn anyA cycXcn (tleXcn .rsqrt),
  .ofA .sigmoid 0x2F useUn anyA cycXcn (tleXcn .sigmoid),
  .ofA .tanh 0x30 useUn anyA cycXcn (tleXcn .tanh),
  .ofA .silu 0x31 useUn anyA cycXcn (tleXcn .silu),
  .ofA .rsum 0x38 (useRmax + uSat) anyA cycLane (tleReduce .sum false),
  .ofA .rmax 0x39 useRmax anyA cycLane (tleReduce .max false),
  .ofA .rmin 0x3A useRmax anyA cycLane (tleReduce .min false),
  .ofA .csum 0x3B (useRmax + uSat) anyA cycLane (tleReduce .sum true),
  .ofA .cmax 0x3C useRmax anyA cycLane (tleReduce .max true),
  .ofA .cmin 0x3D useRmax anyA cycLane (tleReduce .min true),
  .ofA .trn 0x3E (uTd + uTa) anyA cycLane (fun t a _ => tleTrn t a),
  .ofA .cmp 0x40 (uTa + uTb + uMk + uMz + uTyp + uBsel + uKd + uImm + uCond)
    (fun a => a.kd != 0 && decide (a.cond ≤ 5)) cycLane (fun t a _ => tleCmp t a),
  .ofA .topk 0x41 (uTa + uMk + uTyp + uKd + uImm)
    (fun a => a.kd != 0 && decide (1 ≤ a.imm) && decide (a.imm ≤ 32)) 32 (fun t a _ => tleTopk t a),
  .ofA .cmpr 0x48 (uTd + uTa + uTc + uMk + uWcnt + uImode + uImm)
    (fun a => !(a.imode != 0 && a.ta != 0) && !(a.wcnt && a.tc == a.td)) cycLane tleCmpr,
  .ofA .expr 0x49 useUn anyA cycLane tleExpr,
  .ofA .tmm 0x50 (useUn + uTb + uTc + uSat) anyA cycTmm tleTmm,
  ⟨.klogic, 0x42, fun n => onlyUses n (0x7 + 0x70 + 0x700 + 0x3000) && bits n 34 32 != 0, cycMask,
    fun t n _ => tleKlogic t (bits n 34 32) (bits n 38 36) (bits n 42 40) (bits n 45 44)⟩,
  ⟨.flags, 0x43, fun n => onlyUses n (0x7 + 0x4000 + 0x18000) && bits n 34 32 != 0, cycMask,
    fun t n _ => tleFlags t (bits n 34 32) (bits n 48 47) (bit n 46)⟩]

/-- The registers a tile instruction may change: TLE_STATUS, TLE_LAST, TLE_KPOISON and the counters (05 R207). -/
def Claims.tileRegs (i : Nat) : List Nat :=
  [(Reg.tleStatus_nan_op i).off, (Reg.tleLast_status i).off, (Reg.tleKpoison_kpoison i).off, (Reg.tleCntLane_lanes i).off,
   (Reg.tleCntXcn_results i).off, (Reg.tleCntBusy_cycles i).off]

/-- What a tile instruction leaves in its registers (05 R194, R207): status, tag and opcode, the counters, the summary
of the flags raised, and the masks' poison. -/
structure Claims.tileEnds (s t : State) (i : Site) (w : BitVec 128) (cycles : Nat) (o : TleOut) : Prop where
  status : t.getF (Reg.tleLast_status i) = if o.poison then stPoisoned else stOk
  tag : t.getF (Reg.tleLast_tag i) = iTag w.toNat
  op : t.getF (Reg.tleLast_op i) = iOp w.toNat
  lanes : t.getF (Reg.tleCntLane_lanes i) = (s.getF (Reg.tleCntLane_lanes i) + o.lanes) % 2 ^ 48
  results : t.getF (Reg.tleCntXcn_results i) = (s.getF (Reg.tleCntXcn_results i) + o.xcns) % 2 ^ 48
  busy : t.getF (Reg.tleCntBusy_cycles i) = (s.getF (Reg.tleCntBusy_cycles i) + cycles) % 2 ^ 48
  nanOp : t.getF (Reg.tleStatus_nan_op i) = if o.flags.nanOp then 1 else s.getF (Reg.tleStatus_nan_op i)
  inv : t.getF (Reg.tleStatus_inv i) = if o.flags.inv then 1 else s.getF (Reg.tleStatus_inv i)
  ovf : t.getF (Reg.tleStatus_ovf i) = if o.flags.ovf then 1 else s.getF (Reg.tleStatus_ovf i)
  isat : t.getF (Reg.tleStatus_isat i) = if o.flags.isat then 1 else s.getF (Reg.tleStatus_isat i)
  poison : t.getF (Reg.tleStatus_poison i) = if o.poison then 1 else s.getF (Reg.tleStatus_poison i)
  kpoison : ∀ k, k < 8 → bit (t.getF (Reg.tleKpoison_kpoison i)) k = ((t.core i).tle.mask k).poison

/-- Every instruction of layout A, KLOGIC and FLAGS, its word taken, runs to its end at once, poisoned or not: the tile
and mask registers are its results, the sequencer moves past, TLE_LAST, TLE_STATUS and the counters follow, and nothing
else of the machine changes. What each one computes is said lane by lane below. -/
def Claims.TileInstructionsComplete : Prop :=
  ∀ x ∈ Claims.tileOps, ∀ (s : State) (i : Site) (w : BitVec 128), s.clear i w = true → isOp w 3 x.op = true →
    x.takes w.toNat = true →
    let o := x.out (s.core i).tle w.toNat s.fresh
    ∃ t, exec (x.cmd i w) s = .next t ∧ s.ran t i (Claims.tileRegs i) { s.core i with tle := o.t } ∧
      Claims.tileEnds s t i w x.cycles o

/-- A tile instruction that reads a field it must not, or fails its own check, completes with BAD_PARAM and has no side
effect (05 R169; 00 R21): only TLE_LAST and CORE_SOFT_ERR tell of it. -/
def Claims.TileInstructionsRefused : Prop :=
  ∀ x ∈ Claims.tileOps, ∀ (s : State) (i : Site) (w : BitVec 128), s.clear i w = true → isOp w 3 x.op = true →
    x.takes w.toNat = false →
    ∃ t, exec (x.cmd i w) s = .next t ∧
      s.ran t i [(Reg.tleLast_status i).off, (Reg.coreSoftErr_count i).off] (s.core i) ∧
      t.getF (Reg.tleLast_status i) = stBadParam ∧
      t.getF (Reg.coreSoftErr_count i) = Nat.min (s.getF (Reg.coreSoftErr_count i) + 1) 65535

/-- TLE instructions complete where their operands allow it, and are refused where they do not. -/
def Obligations.TileInstructions : Prop :=
  Claims.TileInstructionsComplete ∧ Claims.TileInstructionsRefused

/-- A lane operation: what it makes of the registers, whether the inputs of a lane are poisoned, and the lane's result
and flags. -/
structure Claims.LaneOp where
  out : Tle → LayA → Nat → TleOut
  poisoned : Tle → LayA → Nat → Nat → Bool
  lane : Tle → LayA → Nat → Nat → BitVec 32 × Flags

/-- Operand a of a lane. -/
def Claims.laneA (t : Tle) (a : LayA) (r l : Nat) : Lane := (t.tile a.ta).at r l

/-- A lane operation on operand a alone. -/
def Claims.LaneOp.un (out : Tle → LayA → Nat → TleOut) (f : LayA → BitVec 32 → BitVec 32 × Flags) : Claims.LaneOp :=
  ⟨out, fun t a r l => (Claims.laneA t a r l).poison, fun t a r l => f a (Claims.laneA t a r l).v⟩

/-- A lane operation on operands a and b. -/
def Claims.LaneOp.bin (out : Tle → LayA → Nat → TleOut) (f : LayA → BitVec 32 → BitVec 32 → BitVec 32 × Flags) :
    Claims.LaneOp :=
  ⟨out, fun t a r l => (Claims.laneA t a r l).poison || (bLane t a r l).poison,
    fun t a r l => f a (Claims.laneA t a r l).v (bLane t a r l).v⟩

/-- Arithmetic of two operands by lane type. -/
def Claims.arith (op : ArOp) : Claims.LaneOp :=
  .bin (tleArith op) (fun a x y => if a.isInt then arInt op x y 0 else arFloat op a.sat x y 0)

/-- The operations that write td lane by lane (05 R178): MOV, arithmetic, bitwise, CVT, RND, transcendentals. -/
def Claims.laneOps : List Claims.LaneOp :=
  [⟨tleMov, fun t a r l => (bLane t a r l).poison, fun t a r l => ((bLane t a r l).v, .none)⟩] ++
  [ArOp.add, .sub, .mul, .div, .min, .max].map Claims.arith ++
  [⟨tleArith .fma,
    fun t a r l => (Claims.laneA t a r l).poison || (bLane t a r l).poison || ((t.tile a.tc).at r l).poison,
    fun t a r l =>
      let x := (Claims.laneA t a r l).v
      let y := (bLane t a r l).v
      let z := ((t.tile a.tc).at r l).v
      if a.isInt then arInt .fma x y z else arFloat .fma a.sat x y z⟩] ++
  [false, true].map (fun neg => .un (tleAbsNeg neg) (fun a x => absNeg neg a.isInt x)) ++
  [BitOp.and, .or, .xor, .shl, .shrl, .shra].map (fun op => .bin (tleBit op) (fun _ x y => (bitOp op x y, .none))) ++
  [.un tleCvt (fun a x => cvtLane a.isInt a.rmode a.sat x),
   .un tleRnd (fun a x => rndLane (Fmt.ofCode a.rfmt) a.rmode a.sat x)] ++
  [Xcn.exp2, .exp, .log2, .ln, .rcp, .sqrt, .rsqrt, .sigmoid, .tanh, .silu].map
    (fun op => .un (tleXcn op) (fun a x => xcn op a.sat x))

/-- Lane operations by mask and poison (05 R178, R180, R181): an active lane with clean inputs takes the result and
adds its flags; one with a poisoned input, or under a poisoned mask, is poisoned and keeps its flags; an inactive lane
stays, or with mz = 1 becomes zero bits, poisoned as the mask is. Every other tile, and every mask, is untouched. -/
def Claims.LaneOperationsByMask : Prop :=
  ∀ x ∈ Claims.laneOps, ∀ (t : Tle) (a : LayA) (k : Nat),
    let u := (x.out t a k).t
    let m := t.mask a.mreg
    (∀ r l, r < 32 → l < 32 →
      let old := (t.tile a.td).at r l
      let new := (u.tile a.td).at r l
      (m.at r l = true → x.poisoned t a r l = false → m.poison = false →
        new = ⟨(x.lane t a r l).1, false, old.flags.or (x.lane t a r l).2⟩) ∧
      (m.at r l = true → (x.poisoned t a r l = true ∨ m.poison = true) → new.poison = true ∧ new.flags = old.flags) ∧
      (m.at r l = false → a.mz = false → new = old) ∧
      (m.at r l = false → a.mz = true → new = ⟨0, m.poison, old.flags⟩)) ∧
    (∀ j, j ≠ a.td → u.tile j = t.tile j) ∧ (∀ j, u.mask j = t.mask j)

/-- INT32 lanes (05 R183): the exact result clamped once to the INT32 range, isat exactly when the clamp changes it; DIV
truncates toward zero, and division by zero gives 0 with inv. -/
def Claims.IntegerLanes : Prop :=
  ∀ x y z : BitVec 32,
    let clamped := fun (r : BitVec 32 × Flags) (v : Int) =>
      r.1.toInt = max (-2 ^ 31) (min (2 ^ 31 - 1) v) ∧ r.2 = (if -2 ^ 31 ≤ v ∧ v < 2 ^ 31 then Flags.none else .ofIsat)
    clamped (arInt .add x y z) (x.toInt + y.toInt) ∧ clamped (arInt .sub x y z) (x.toInt - y.toInt) ∧
    clamped (arInt .mul x y z) (x.toInt * y.toInt) ∧ clamped (arInt .fma x y z) (x.toInt * y.toInt + z.toInt) ∧
    clamped (absNeg false true x) (if x.toInt < 0 then -x.toInt else x.toInt) ∧
    clamped (absNeg true true x) (-x.toInt) ∧
    (y ≠ 0 → clamped (arInt .div x y z) (x.toInt.tdiv y.toInt)) ∧ (y = 0 → arInt .div x y z = (0, .ofInv))

/-- Bitwise lanes (05 R184): raw bits, the shifts by bits [4:0] of b alone, filling with zeros or with copies of bit
31. -/
def Claims.BitwiseLanes : Prop :=
  ∀ (x y : BitVec 32) (k : Nat), k < 32 →
    let sh := y.toNat % 32
    (bitOp .and x y).getLsbD k = (x.getLsbD k && y.getLsbD k) ∧
    (bitOp .or x y).getLsbD k = (x.getLsbD k || y.getLsbD k) ∧
    (bitOp .xor x y).getLsbD k = (x.getLsbD k != y.getLsbD k) ∧
    (bitOp .shl x y).getLsbD k = (decide (sh ≤ k) && x.getLsbD (k - sh)) ∧
    (bitOp .shrl x y).getLsbD k = (decide (k + sh < 32) && x.getLsbD (k + sh)) ∧
    (bitOp .shra x y).getLsbD k = (if k + sh < 32 then x.getLsbD (k + sh) else x.getLsbD 31)

/-- Lane operations (04 and 05): by mask, on integers and on bits. -/
def Obligations.TileLanes : Prop :=
  Claims.LaneOperationsByMask ∧ Claims.IntegerLanes ∧ Claims.BitwiseLanes

/-- Selection, transposition and masks (05 R181, R189, R192, R194): SEL takes each lane of ta or b by its mask bit; TRN
moves the lanes of ta, old contents, across the diagonal; CMP and KLOGIC write their mask bit by bit; FLAGS marks the
lanes with a flag of its kind in any tile, and clears every flag when asked. -/
def Obligations.SelectTransposeAndMasks : Prop :=
  ∀ (t : Tle) (a : LayA) (k r l : Nat), r < 32 → l < 32 →
    let m := t.mask a.mreg
    let pick := if m.at r l then (t.tile a.ta).at r l else bLane t a r l
    (m.poison = false → pick.poison = false →
      (((tleSel t a k).t.tile a.td).at r l) = ⟨pick.v, false, ((t.tile a.td).at r l).flags⟩) ∧
    (((tleTrn t a).t.tile a.td).at r l).v = ((t.tile a.ta).at l r).v ∧
    (((tleTrn t a).t.tile a.td).at r l).poison = ((t.tile a.ta).at l r).poison ∧
    (a.kd ≠ 0 → ((tleCmp t a).t.mask a.kd).at r l =
      (if m.at r l then cmpLane a.isInt a.cond ((t.tile a.ta).at r l).v (bLane t a r l).v
       else if a.mz then false else (t.mask a.kd).at r l)) ∧
    (∀ kd ka kb fn, kd ≠ 0 → ((tleKlogic t kd ka kb fn).t.mask kd).at r l =
      (match fn with
        | 0 => (t.mask ka).at r l && (t.mask kb).at r l
        | 1 => (t.mask ka).at r l || (t.mask kb).at r l
        | 2 => (t.mask ka).at r l && !(t.mask kb).at r l
        | _ => (t.mask ka).at r l != (t.mask kb).at r l)) ∧
    (∀ kd kind, kd ≠ 0 → ((tleFlags t kd kind false).t.mask kd).at r l =
        (List.range 16).any (fun j => ((t.tile j).at r l).flags.kind kind)) ∧
    (∀ kd kind j, (((tleFlags t kd kind true).t.tile j).at r l).flags = .none)

/-- Reductions (05 R186, R187): every lane of a row (of a column) takes the reduction of the row's (the column's) active
lanes when these and the mask are clean; an integer sum is exact and clamped once; with no active lane a sum is +0. -/
def Claims.Reductions : Prop :=
  ∀ (t : Tle) (a : LayA) (k : Nat) (op : RedOp) (r l : Nat), r < 32 → l < 32 → (t.mask a.mreg).poison = false →
    let m := t.mask a.mreg
    let row := (List.range 32).map (fun j => if m.at r j then some ((t.tile a.ta).at r j) else none)
    let col := (List.range 32).map (fun j => if m.at j l then some ((t.tile a.ta).at j l) else none)
    let val := fun (xs : List (Option Lane)) => reduce op a.isInt a.sat (xs.map (fun o => o.map Lane.v))
    ((∀ x ∈ row, ∀ y, x = some y → y.poison = false) →
      (((tleReduce op false t a k).t.tile a.td).at r l).v = (val row).1) ∧
    ((∀ x ∈ col, ∀ y, x = some y → y.poison = false) →
      (((tleReduce op true t a k).t.tile a.td).at r l).v = (val col).1) ∧
    (∀ xs : List (Option (BitVec 32)), xs.length = 32 →
      (reduce .sum true a.sat xs).1.toInt =
        max (-2 ^ 31) (min (2 ^ 31 - 1) ((xs.filterMap id).foldl (fun z x => z + x.toInt) (0 : Int)))) ∧
    (reduce .sum false a.sat (List.replicate 32 none)).1 = 0

/-- TOPK (05 R193): an active lane is chosen exactly when fewer than k active lanes of its row come before it, where a
greater value, or an equal one at a lower lane, comes before; an inactive lane gets 0. -/
def Claims.TopkChooses : Prop :=
  ∀ (t : Tle) (a : LayA) (r l : Nat), r < 32 → l < 32 → a.kd ≠ 0 →
    let m := t.mask a.mreg
    let v := fun j => ((t.tile a.ta).at r j).v
    let before := fun j => m.at r j && (ranksAbove a.isInt (v j) (v l) ||
      (!ranksAbove a.isInt (v l) (v j) && decide (j < l)))
    ((tleTopk t a).t.mask a.kd).at r l = (m.at r l && decide (((List.range 32).filter before).length < a.imm))

/-- Reductions and TOPK. -/
def Obligations.TileReductions : Prop :=
  Claims.Reductions ∧ Claims.TopkChooses

/-- KLD and KST (05 R199): bit 32 r + l of a mask is bit (32 r + l) mod 8 of byte (32 r + l) / 8 of 128 bytes at the
address; nothing else changes but the tile engine's registers. -/
def Claims.MaskLoadAndStore : Prop :=
  ∀ (s : State) (i : Site) (w : BitVec 128), s.clear i w = true →
    let n := w.toNat
    let b := layB (s.core i) n
    onlyUses n useKld = true → b.t ≤ 7 → b.data.ea % 8 = 0 → b.data.inScratch 128 = true →
    (isOp w 3 3 = true → b.t ≠ 0 → s.scratchClean i b.data.ea 128 →
      ∃ t, exec (.kld i w) s = .next t ∧ ((t.core i).tle.mask b.t).poison = false ∧
        (∀ k, k < 1024 → ((t.core i).tle.mask b.t).m.getLsbD k =
          bit (s.scratchByte i (b.data.ea + k / 8)).1.toNat (k % 8)) ∧
        (∀ j, j ≠ b.t → (t.core i).tle.mask j = (s.core i).tle.mask j) ∧
        s.ran t i (Claims.tileRegs i) { s.core i with tle := (t.core i).tle } ∧
        (t.core i).tle.tiles = (s.core i).tle.tiles) ∧
    (isOp w 3 4 = true → ((s.core i).tle.mask b.t).poison = false →
      ∃ t, exec (.kst i w) s = .next t ∧
        (∀ k, k < 1024 → bit (t.scratchByte i (b.data.ea + k / 8)).1.toNat (k % 8) =
          ((s.core i).tle.mask b.t).m.getLsbD k) ∧ s.scratchKept t i b.data.ea 128 ∧
        s.ran t i (Claims.tileRegs i) { s.core i with scratch := (t.core i).scratch, touch := (t.core i).touch })

/-- TLD (05 R195, R196) from a clean scratchpad: each active lane becomes its element, converted under its row's scale or
bias; an inactive one stays, or with mz = 1 becomes zero. TST (05 R197) without a scale or bias: the element of each
active lane becomes the lane's conversion, the bits of every other element of its row, and every byte outside the rows,
stay. -/
def Claims.TileLoadAndStore : Prop :=
  ∀ (s : State) (i : Site) (w : BitVec 128), s.clear i w = true →
    let n := w.toNat
    let b := layB (s.core i) n
    let m := (s.core i).tle.mask b.mreg
    let wd := b.f.width
    let row := fun (u : State) r => leP (u.scratchBytes i (b.rowAt r) b.rowBytes)
    let T := (s.core i).tle.tile b.t
    bits n 127 117 = 0 → b.ok = true → m.poison = false → s.scratchClean i 0 scratchSize →
    (isOp w 3 1 = true → bits n 70 68 = 0 → b.biasAuto = false →
      ∃ t, exec (.tld i w) s = .next t ∧ s.scratchKept t i 0 0 ∧ s.wentOn t i ∧
        (∀ r l, r < 32 → l < 32 →
          let x := b.load (if b.scaled then (s.scratchByte i (b.scAt r)).1.toNat else 0)
            (bits (row s r) (wd * l + wd - 1) (wd * l))
          (((t.core i).tle.tile b.t).at r l) =
            (if m.at r l then ⟨x.1, false, (T.at r l).flags.or x.2⟩
             else if b.mz then ⟨0, false, (T.at r l).flags⟩ else T.at r l)) ∧
        (∀ j, j ≠ b.t → (t.core i).tle.tile j = (s.core i).tle.tile j)) ∧
    (isOp w 3 2 = true → b.mz = false → b.rowBytes ≤ b.pitch → b.scaled = false → (∀ r l, (T.at r l).poison = false) →
      ∃ t, exec (.tst i w) s = .next t ∧ s.wentOn t i ∧
        (∀ r l, r < 32 → l < 32 → bits (row t r) (wd * l + wd - 1) (wd * l) =
          (if m.at r l then (convTo b.f b.rmode b.sat
              (if b.f.isInt then Val.ofInt (T.at r l).v.toInt else ofB32 (T.at r l).v.toNat)).1 % 2 ^ wd
           else bits (row s r) (wd * l + wd - 1) (wd * l))) ∧
        (∀ a, (∀ r, r < 32 → a < b.rowAt r ∨ b.rowAt r + b.rowBytes ≤ a) → t.scratchByte i a = s.scratchByte i a))

/-- CMPS to a list without append and EXPS from one (05 R202, R205), all clean: CMPS writes the count of active lanes and
then, in row-major order, their elements; EXPS gives the n-th active lane element n of the list, or zero beyond its
count. -/
def Claims.ListCompressAndExpand : Prop :=
  ∀ (s : State) (i : Site) (w : BitVec 128), s.clear i w = true →
    let n := w.toNat
    let d := (s.core i).opnd (bits n 39 36) (sbits n 59 40)
    let m := (s.core i).tle.mask (bits n 62 60)
    let act := activeLanes m
    let word := fun (u : State) a => leP (u.scratchBytes i a 4)
    bits n 95 80 ≠ 0 → d.ea % 8 = 0 → d.inScratch (4 + 4 * bits n 95 80) = true → m.poison = false →
    s.scratchClean i d.ea (4 + 4 * bits n 95 80) →
    (isOp w 3 0x4A = true → bits n 79 66 = 0 → bit n 63 = false → act.length ≤ bits n 95 80 →
      (∀ p ∈ act, (compressElem (s.core i).tle (bits n 35 32) (bits n 65 64) (bits n 127 96) p.1 p.2).2 = false) →
      ∃ t, exec (.cmps i w) s = .next t ∧ s.wentOn t i ∧ word t d.ea = act.length ∧
        (∀ k, (h : k < act.length) → word t (d.ea + 4 + 4 * k) =
          (compressElem (s.core i).tle (bits n 35 32) (bits n 65 64) (bits n 127 96) act[k].1 act[k].2).1.toNat) ∧
        s.scratchKept t i d.ea (4 + 4 * act.length)) ∧
    (isOp w 3 0x4B = true → bits n 79 64 = 0 → bits n 127 96 = 0 → word s d.ea ≤ bits n 95 80 →
      ∃ t, exec (.exps i w) s = .next t ∧ s.wentOn t i ∧ s.scratchKept t i 0 0 ∧
        (∀ k, (h : k < act.length) →
          (((t.core i).tle.tile (bits n 35 32)).at act[k].1 act[k].2).v =
            BitVec.ofNat 32 (if k < word s d.ea then word s (d.ea + 4 + 4 * k) else 0)))

/-- Tiles, masks and lists between the tile registers and the scratchpad. -/
def Obligations.TileMemory : Prop :=
  Claims.MaskLoadAndStore ∧ Claims.TileLoadAndStore ∧ Claims.ListCompressAndExpand

/-! ## The matrix array -/

/-- The operands an MMA reads from a clean scratchpad (03 R110 to R112). -/
def Claims.mmaIn (s : State) (i : Site) (f : MmaF) (g : Group) : MmaIn :=
  { g := g, sf := f.sf, vf := f.vf, cplx := f.cplx, mx := f.mx, sat := f.sat, zero := f.zero
    stat := if f.keep then (((s.core i).held.map Held.bytes).getD []) else s.scratchBytes i f.s.ea (statBytes g f.sf f.cplx)
    vec := s.scratchBytes i f.v.ea (vecBytes g f.vf f.cplx)
    scale := if f.readsScale then s.scratchBytes i f.sc.ea (scaleBytes g f.vf f.mx) else [] }

/-- An MMA that its checks pass (03 R108), on clean operands and accumulators with room in the queue, enters the array's
queue with its job outstanding (03 R126): each element of the accumulator it names (of both, for CX) is its pass results
added to what it held, or to 0 with zero = 1 (03 R125); the tile it loads is the one held; and its entry, 32 slots per
pass after those queued before, holds the accumulator that its flush will write and where (03 R113). The scratchpad and
the tile registers stay until the results leave the array. -/
def Claims.MatrixMultiplyCompletes : Prop :=
  ∀ (s : State) (i : Site) (w : BitVec 128) (g : Group), s.clear i w = true → isOp w 2 0 = true →
    let c := s.core i
    let f := mmaF c w.toNat
    let m := Claims.mmaIn s i f g
    let a := if f.acc then c.acc1 else c.acc0
    mmaCheck c f w.toNat = some g → c.mxa.queue.length < mxaDepth → s.scratchClean i 0 scratchSize →
    anyPoison m.stat = false → (f.zero = true ∨ ∀ j n, (c.acc0.at j n).poison = false ∧ (c.acc1.at j n).poison = false) →
    ∃ t e, exec (.mma i w) s = .next t ∧ s.wentOn t i ∧
      (t.core i).mxa.queue = c.mxa.queue ++ [e] ∧ e.passes = passesOf g f.cplx ∧ e.slot = c.mxa.slots ∧ e.done = false ∧
      (t.core i).mxa.slots = c.mxa.slots + 32 * e.passes ∧ (f.flush = false → e.st = stOk ∧ e.flush = none) ∧
      (∃ j ∈ t.jobs, j.id = e.job ∧ j.site = i ∧ j.engine = 2 ∧ j.itag = iTag w.toNat) ∧
      (t.core i).held = (if f.keep then c.held
        else some ⟨BitVec.ofNat 4 f.sfc, if f.cplx then m.splane 1 else m.stat⟩) ∧
      (f.acc = true → (t.core i).acc0 = c.acc0) ∧ (f.acc = false → f.cplx = false → (t.core i).acc1 = c.acc1) ∧
      s.scratchKept t i 0 0 ∧ (t.core i).tle = c.tle ∧
      (∀ j n, j < 32 → n < 32 →
        let r := m.elem j n (m.base a j n).v (m.base c.acc1 j n).v
        (if f.acc then (t.core i).acc1 else (t.core i).acc0).at j n = ⟨r.1.1, false⟩ ∧
        (f.cplx = true → (t.core i).acc1.at j n = ⟨r.2.1, false⟩) ∧
        (f.flush = true → ∃ x, e.flush = some x ∧ x.tile = (if f.dkind then none else some f.dtile) ∧ x.addr = f.d.ea ∧
          x.drained = 0 ∧ x.f0.at j n = ⟨r.1.1, false⟩ ∧ (f.cplx = true → x.f1.at j n = ⟨r.2.1, false⟩)))

/-- The drain writes the oldest row of its buffer (03 R113, R117, R139): element n of row j of the flushed accumulator to
lane (j, n) of its tile register, or to bytes 128 j + 4 n of its destination in the scratchpad when the drain wins its
banks there; the rows of the second accumulator of CX follow, in the next tile or behind those of the first. Every other
lane, and every other byte, stays. -/
def Claims.DrainWritesRows : Prop :=
  ∀ (s : State) (i job r : Nat) (rest : List (Nat × Nat)) (e : MxaEnt) (f : MxaFlush),
    let c := s.core i
    let t := s.drainRow i false
    let acc := if r < 32 then f.f0 else f.f1
    c.mxa.drain = (job, r) :: rest → c.mxa.queue.find? (fun x => x.job == job) = some e → e.flush = some f →
    (t.core i).mxa.drain = rest ∧
    (∀ d, f.tile = some d → s.scratchKept t i 0 0 ∧
      (∀ j l, j < 32 → l < 32 → ((t.core i).tle.tile (d + r / 32)).at j l =
        if j = r % 32 then ⟨(acc.at j l).v, (acc.at j l).poison, ((c.tle.tile (d + r / 32)).at j l).flags⟩
        else (c.tle.tile (d + r / 32)).at j l) ∧
      (∀ k, k ≠ d + r / 32 → (t.core i).tle.tile k = c.tle.tile k)) ∧
    (f.tile = none → f.addr % 8 = 0 → s.scratchKept t i (f.addr + 128 * r) 128 ∧ (t.core i).tle = c.tle ∧
      ∀ n, n < 32 → (∀ k, k < 32 → (acc.at (r % 32) k).poison = false) →
        t.scratchBytes i (f.addr + 128 * r + 4 * n) 4 = clean (toLE 4 (acc.at (r % 32) n).v.toNat)) ∧
    (f.tile = none → s.drainRow i true = s)

/-- Group I8 (03 R110, R111, R128, R132): with W[k][n] at byte 32 k + n of the stationary tile and V[j][k] at byte
32 j + k of the streamed operand, an MMA adds the exact sum of W[k][n] V[j][k] to the INT32 accumulator once and clamps
once, raising isat exactly when the clamp changes the value. -/
def Claims.Int8ProductsAreExact : Prop :=
  ∀ (m : MmaIn) (j n : Nat) (a0 a1 : BitVec 32), m.g = .i8 → m.cplx = false → j < 32 → n < 32 →
    m.stat.length = 1024 → m.vec.length = 1024 → (m.sf = .int8 ∨ m.sf = .uint8) → (m.vf = .int8 ∨ m.vf = .uint8) →
    let num := fun (f : Fmt) (x : PByte) => if f = .int8 then x.1.toInt else (x.1.toNat : Int)
    let sum := (List.range 32).foldl (fun (z : Int) k =>
      z + num m.sf (m.stat.getD (32 * k + n) (0, false)) * num m.vf (m.vec.getD (32 * j + k) (0, false))) 0
    let r := (m.elem j n a0 a1).1
    r.1.toInt = max (-2 ^ 31) (min (2 ^ 31 - 1) (a0.toInt + sum)) ∧
    r.2 = (if -2 ^ 31 ≤ a0.toInt + sum ∧ a0.toInt + sum < 2 ^ 31 then Flags.none else .ofIsat)

/-- No MMA of an array completes with the result that may leave next. -/
def Claims.noneEnds (a : Mxa) : Prop :=
  (∀ e ∈ a.queue, e.done = false) ∧
  ∀ e, a.entAt (a.row 31).used = some e → (a.row 31).used + 1 ≠ e.slot + e.length

/-- A cycle of an array (03 R114, R118 to R120): in a frozen cycle no row takes an element, MXA_CNT_STEP stays and the
counter of each cause counts it; in a step exactly the rows that are due take one, and row 0 one more where it starts an
MMA; a filler operation runs in every row without an element while filler may run, and each such cycle counts. -/
def Claims.ArrayCycles : Prop :=
  ∀ (s : State) (i : Nat) (x : ArrayCycle),
    let a := (s.core i).mxa
    let p := a.plan
    let t := s.arrayCycle i x
    let cnt := fun (u : State) => u.getF (Reg.mxaCntStep_steps i)
    let took := fun (k : Nat) (b : Bool) => ((t.core i).mxa.row k).used = (a.row k).used + (if b then 1 else 0)
    let freezes := fun (f : Fld) (b : Bool) => t.getF f = Nat.min (s.getF f + (if b then 1 else 0)) (2 ^ (f.hi + 1 - f.lo) - 1)
    a.drain = [] → Claims.noneEnds a →
    freezes (Reg.mxaCntFreeze_feed_dry i) p.z.feedDry ∧ freezes (Reg.mxaCntFreeze_shadow_late i) p.z.shadowLate ∧
    freezes (Reg.mxaCntFreeze_drain_full i) p.z.drainFull ∧
    (p.z.any = true → cnt t = cnt s ∧ ∀ k, k < 32 → took k false) ∧
    (p.z.any = false → a.quiet = false → p.lead = false →
      cnt t = (cnt s + 1) % 2 ^ 48 ∧ ∀ k, k < 32 → took k (a.due k || (k == 0 && p.start))) ∧
    (a.inGap = true → a.quiet = false → p.lead = false → t.getF (Reg.mxaCntFiller_fillers i) =
      (s.getF (Reg.mxaCntFiller_fillers i) +
        (if a.fillerOn && decide (a.gap < a.window) &&
            (p.z.any || (List.range 32).any (fun k => !(a.due k || (k == 0 && p.start)))) then 1 else 0)) % 2 ^ 48)

/-- The array's own commands (03 R118 to R121): in the cycle named, the next MMA that can start makes its first step, from
a gap or, the lead having run, from a quiet array; the gap's counter reaches the filler window, and with no result in
flight the array is quiet. -/
def Claims.ArraySteps : Prop :=
  ∀ (s : State) (i : Site) (x : ArrayCycle),
    let a := (s.core i).mxa
    let steps := s.getF (Reg.mxaCntStep_steps i)
    let fillers := s.getF (Reg.mxaCntFiller_fillers i)
    let first := fun (c : Instr) => ∃ t, exec c s = .next t ∧ ((t.core i).mxa.row 0).used = (a.row 0).used + 1 ∧
      (t.core i).mxa.quiet = false ∧ (t.core i).mxa.inGap = false ∧
      t.getF (Reg.mxaCntStep_steps i) = (steps + 1) % 2 ^ 48
    a.freeze.any = false → a.mid = false → a.drain = [] → Claims.noneEnds a →
    (a.canStart = true → (a.quiet = true → a.lead ≤ a.leadRun) → first (.mmaFirstStep i [x.feed] [x.shadow] [x.scale] [x.drain])) ∧
    (a.canStart = true → a.quiet = true → a.lead ≠ 0 → a.lead ≤ a.leadRun → first (.fillerLeadEnd ⟨i, [x]⟩)) ∧
    (a.canStart = false → a.quiet = false → a.inGap = true → a.fillerOn = true → a.gap + 1 = a.window →
      ∃ t, exec (.fillerWindowEnd ⟨i, [x]⟩) s = .next t ∧ (t.core i).mxa.gap = a.window ∧
        t.getF (Reg.mxaCntStep_steps i) = (steps + 1) % 2 ^ 48 ∧
        t.getF (Reg.mxaCntFiller_fillers i) = (fillers + 1) % 2 ^ 48 ∧
        (a.hist.contains true = false → t.getF (Reg.mxaStatus_state i) = mxQuiet))

/-- The matrix engine: what a multiply leaves, INT8 products, its drain, and its cycles. -/
def Obligations.MatrixMultiply : Prop :=
  Claims.MatrixMultiplyCompletes ∧ Claims.Int8ProductsAreExact ∧ Claims.DrainWritesRows ∧ Claims.ArrayCycles ∧ Claims.ArraySteps

/-! ## Bank units -/

/-- An instruction has gone to the queue of its vault's bank units (07 R264, R265): it is outstanding, its command stands
last in the queue, the sequencer has moved past it, and no byte of a scratchpad or vault has changed. -/
structure Claims.queuedBku (s t : State) (i : Site) (opc : Nat) (units : List Nat) (op : BkuOp) : Prop where
  queued : ∃ c, (t.vault i).queue = (s.vault i).queue ++ [c] ∧ c.op = op ∧ c.units = units ∧ c.kvx = none ∧
    c.job = s.newJob
  job : ∃ j, t.jobs = s.jobs ++ [j] ∧ j.id = s.newJob ∧ j.site = i.val ∧ j.engine = 4 ∧ j.op = opc ∧ j.left = 1
  went : s.wentOn t i
  scratch : s.scratchKept t i 0 0
  vaults : s.vaultsKeptBut t []

/-- FILL, COPY, GATHER, QLD, SCORE and ACC that pass their checks (07 R253 to R262, R264), with the licence where it is
needed, no retired row touched and room in the queue, go to the queue with the physical address, the rows and the units
their operands name. -/
def Obligations.BankUnitInstructionsQueue : Prop :=
  ∀ (s : State) (i : Site) (w : BitVec 128) (b : Nat), s.clear i w = true →
    let n := w.toNat
    let c := s.core i
    let base := s.frameBase i
    let ok := fun (rows : List Nat) => s.vaultState i ≠ vsRetired ∧ rows.any (s.vault i).retired.contains = false ∧
      (s.vault i).queue.length < bkuDepth
    let d := c.opnd (bits n 35 32) (sbits n 59 36)
    let r := bits n 63 60
    let d2 := c.opnd (bits n 35 32) (sbits n 63 40)
    let o2 := c.opnd (bits n 39 36) (sbits n 87 64)
    let r2 := bits n 90 88
    let l := c.opnd (bits n 63 60) (sbits n 83 64)
    let q := c.opnd (bits n 35 32) (sbits n 55 36)
    let k := bits n 66 57
    let us := unitsOf (bits n 91 84) (bits n 83 68)
    let f := scoreF c n
    let recRows := rowsOf base f.m.ea (512 * (f.count - 1) + f.recBytes)
    (isOp w 4 0 = true → 1 ≤ r → r ≤ 11 → d.ea % 1024 = 0 → d.inGround (1024 * r) = true →
      oneBank (rowsOf base d.ea (1024 * r)) = some b → ok (rowsOf base d.ea (1024 * r)) →
      ∃ t, exec (.bkdFill i w) s = .next t ∧
        Claims.queuedBku s t i 0 [b] (.fill (physAddr base d.ea) r (BitVec.ofNat 64 (bits n 127 64)))) ∧
    (isOp w 4 1 = true → bits n 127 91 = 0 → 1 ≤ r2 → r2 ≤ 6 → d2.ea % 1024 = 0 → o2.ea % 1024 = 0 →
      d2.inGround (1024 * r2) = true → o2.inGround (1024 * r2) = true →
      (d2.ea + 1024 * r2 ≤ o2.ea ∨ o2.ea + 1024 * r2 ≤ d2.ea) →
      oneBank (rowsOf base d2.ea (1024 * r2) ++ rowsOf base o2.ea (1024 * r2)) = some b →
      ok (rowsOf base d2.ea (1024 * r2) ++ rowsOf base o2.ea (1024 * r2)) →
      ∃ t, exec (.bkdCopy i w) s = .next t ∧
        Claims.queuedBku s t i 1 [b] (.copy (physAddr base d2.ea) (physAddr base o2.ea) r2)) ∧
    (isOp w 4 2 = true → s.licensed licBku = true → bits n 127 88 = 0 → 1 ≤ bits n 87 84 → bits n 87 84 ≤ 13 →
      l.ea % 4 = 0 → l.inScratch (4 * bits n 87 84) = true → d.ea % 32 = 0 → d.inGround 32 = true →
      s.scratchClean i l.ea (4 * bits n 87 84) → ∀ its : List (Nat × Nat),
      (List.range (bits n 87 84)).map (fun m => gatherItem (leP (s.scratchBytes i (l.ea + 4 * m) 4))) = its.map some →
      d.ea % 1024 + its.foldl (fun z e => z + e.2) 0 ≤ 1024 →
      oneBank (rowsOf base d.ea 1 ++ its.flatMap (fun e => rowsOf base e.1 e.2)) = some b →
      ok (rowsOf base d.ea 1 ++ its.flatMap (fun e => rowsOf base e.1 e.2)) →
      ∃ t, exec (.bkdGather i w) s = .next t ∧
        Claims.queuedBku s t i 2 [b] (.gather (physAddr base d.ea) (its.map (fun e => (physAddr base e.1, e.2))))) ∧
    (isOp w 4 8 = true → s.licensed licBku = true → bit n 67 = false → bits n 127 92 = 0 → 1 ≤ k → k ≤ 512 → us ≠ [] →
      q.ea % 8 = 0 → q.inScratch (2 * k) = true → s.scratchClean i q.ea (2 * k) → ok [] →
      ∃ t, exec (.qld i w) s = .next t ∧
        Claims.queuedBku s t i 8 us (.qld (bits n 56 56) k us (s.scratchBytes i q.ea (2 * k)))) ∧
    (s.licensed licBku = true → f.ok n = true → oneBank recRows = some b → ok recRows →
      ((s.vault i).latchValid.contains (2 * b + f.slot) = true ∨ qldAhead (s.vault i) b f.slot = true) →
      (isOp w 4 9 = true → f.woff = 0 → f.d.inScratch (4 * f.count) = true →
        ∃ t, exec (.bkdScore i w) s = .next t ∧
          Claims.queuedBku s t i 9 [b] (.score (physAddr base f.m.ea) f.fmt f.slot f.count f.e0 f.n f.recBytes f.d.ea)) ∧
      (isOp w 4 10 = true → f.woff + f.count ≤ 512 → f.d.inScratch (4 * f.n) = true →
        ∃ t, exec (.bkdAcc i w) s = .next t ∧
          Claims.queuedBku s t i 10 [b]
            (.acc (physAddr base f.m.ea) f.fmt f.slot f.count f.e0 f.n f.recBytes f.woff f.d.ea)))

/-- No KVX instruction of a core runs or waits. -/
def Claims.noKvx (s : State) (i : Nat) : Prop := (s.core i).kvRun = [] ∧ (s.core i).kvq = []

/-- A grant (07 R265 to R267): the oldest queued command that meets its conditions, its rows in service, with budget left,
leaves the queue and runs for its duration in vault cycles, which the window's budget pays. -/
def Claims.BankUnitGrantRuns : Prop :=
  ∀ (s : State) (i : Site) (k : Nat) (c : BkuCmd), s.bkuPick i = some (k, c) → s.bkuGone i c.op = none → 0 < s.bkuRemaining i →
    Claims.noKvx s i →
    ∃ t g, exec (.bankUnitGrant i) s = .next t ∧ (t.vault i).queue = dropAt (s.vault i).queue k ∧
      (t.vault i).running = (s.vault i).running ++ [g] ∧ g.op = c.op ∧ g.units = c.units ∧
      g.job = c.job ∧ g.ends = s.now + vaultCycles g.cycles ∧ t.jobs = s.jobs ∧
      t.bkuRemaining i = sext 16 (wrap 16 (s.bkuRemaining i -
        (g.cycles * (match c.op with | .qld _ _ us _ => us.length | _ => 1) : Nat)))

/-- A FILL or COPY that has run its time ends (07 R255, R256, R269): the words of its range in the bank are its pattern,
or the bytes its source held, and it is complete. -/
def Claims.BankUnitCommandEnds : Prop :=
  ∀ (s : State) (i : Site) (k : Nat) (c : BkuCmd) (j : Job) (a : Nat) (data : List PByte),
    (s.vault i).running[k]? = some c → c.ends ≤ s.now → c.writes = [(a, data)] → c.result = [] →
    (∀ sl n us d, c.op ≠ .qld sl n us d) → c.kvx = none → s.job? c.job = some j → (s.vault i).watches = [] →
    (s.vault i).retired = [] → (s.vault i).waiting = [] → (s.core j.site).synq = [] → Claims.noKvx s i →
    a % 8 = 0 → data.length % 8 = 0 → anyPoison data = false → c.status = stOk →
    ∃ t, exec (.bankUnitCommandEnd i k) s = .next t ∧
      (∀ m, m < data.length / 8 → EccMem.word (wordDefault i (s.vault i)) (t.vault i).mem (a / 8 + m) =
        .enc (BitVec.ofNat 64 (leP (slice data (8 * m) 8)))) ∧
      (∀ m, m < a / 8 ∨ (a + data.length) / 8 ≤ m → EccMem.word (wordDefault i (s.vault i)) (t.vault i).mem m =
        EccMem.word (wordDefault i (s.vault i)) (s.vault i).mem m) ∧
      (t.vault i).running = dropAt (s.vault i).running k ∧ t.job? c.job = none

/-- A bank-unit command is granted, runs and ends. -/
def Obligations.BankUnitWork : Prop :=
  Claims.BankUnitGrantRuns ∧ Claims.BankUnitCommandEnds

/-- A result drain (07 R265, R269) writes the oldest result to its scratchpad and completes its command; a window start,
once at each multiple of 1,000 ticks, gives every vault its budget and what it overdrew (07 R267). -/
def Claims.BankUnitResultsAndWindows : Prop :=
  (∀ (s : State) (i : Site) (r : BkuResult) (rest : List BkuResult) (j : Job),
    (s.vault i).results = r :: rest → s.job? r.job = some j → r.status = stOk → anyPoison r.data = false → (s.core r.site).touch = none →
    (s.core r.site).hold = .none → (s.core r.site).synq = [] → s.coreState r.site = csRunning → j.site = r.site →
    r.kvx = none → Claims.noKvx s i →
    EccMem.mergeMeetsPoison scratchZero (s.core r.site).scratch r.dst r.data.length = false →
    ∃ t, exec (.bankUnitResultDrain i) s = .next t ∧ t.scratchHolds r.site r.dst r.data ∧
      s.scratchKept t r.site r.dst r.data.length ∧ (t.vault i).results = rest ∧ t.job? r.job = none) ∧
  (∀ s : State, s.now % 1000 = 0 → s.bkuWin ≤ s.now / 1000 →
    ∃ t, exec .bankUnitWindowStart s = .next t ∧
      ∀ v, v < siteCount → t.bkuRemaining v =
        sext 16 (wrap 16 ((s.getF (Reg.bkuBudget_budget v) : Int) + min 0 (s.bkuRemaining v))))

/-- A SCORE of up to 32 elements (07 R261) is one rounding of the exact sum of the exact products; it is poisoned exactly
when one of the elements is. -/
def Claims.ScoreRoundsOnce : Prop :=
  ∀ q v : List (Val × Bool), q.length = v.length → q.length ≤ 32 → q ≠ [] →
    scoreOf q v = (toB32 ((ofB32 0).add ((List.zipWith (fun (a b : Val × Bool) => a.1.mul b.1) q v).foldl Val.add .zero)),
      q.any Prod.snd || v.any Prod.snd)

/-- What the bank units answer. -/
def Obligations.BankUnitResults : Prop :=
  Claims.BankUnitResultsAndWindows ∧ Claims.ScoreRoundsOnce

/-! ## The key-value agent and prefix sharing -/

/-- Two ranges do not meet. -/
def Claims.apart (a n b m : Nat) : Prop := a + n ≤ b ∨ b + m ≤ a

/-- The fields of a KVX word with the operands its generators give (08 R294). -/
def Claims.kvF (s : State) (i : Site) (n : Nat) : KvxF := kvxF n (kvxOps (s.core i) n)

/-- The stream block of a stream-form word, read from the scratchpad (08 R294 to R296). -/
def Claims.streamBlk (s : State) (i : Site) (n : Nat) : StreamBlk :=
  StreamBlk.parse ((s.scratchBytes i (Claims.kvF s i n).b.ea 32).map Prod.fst)

/-- A stream-form instruction whose block and window pass their checks (08 R296, R297), on a clean scratchpad. -/
structure Claims.streamFits (s : State) (i : Site) (n ch : Nat) : Prop where
  fields : (Claims.kvF s i n).first = false ∧ (Claims.kvF s i n).len = 0 ∧ (Claims.kvF s i n).top = 0
  block : (Claims.kvF s i n).b.kvx 32 = true
  clean : s.scratchClean i 0 scratchSize
  chan : chanOfSite s.chans i = some ch
  good : (Claims.streamBlk s i n).ok = true
  window : winKind (s.window ch (Claims.streamBlk s i n).window) = 3

/-- FETCH of records in vaults of the package that answer now, all clean (08 R298, R299): the staging operand of group
T / 32 and slice c holds at vector T mod 32 the elements of token T, as they are packed, and for LT10 the bias area its
bias byte. -/
def Obligations.FetchStagesRecords : Prop :=
  ∀ (s : State) (i : Site) (w : BitVec 128) (ch : Nat) (ps : List Piece), s.clear i w = true → isOp w 6 0 = true →
    Claims.streamFits s i w.toNat ch →
    let f := Claims.kvF s i w.toNat
    let k := Claims.streamBlk s i w.toNat
    let q := s.kvWalk (towerOf i) i (s.window ch k.window) k true
    let wd := if k.fmt = 14 then 10 else 8
    let size := ceilDiv k.nt 32 * (k.n / 32) * (128 * wd)
    f.g = 1 → k.n % 32 = 0 → k.nt ≤ 256 → k.pool = 0 → f.d.kvx size = true →
    (k.fmt = 14 → f.x.kvx (32 * ceilDiv k.nt 32) = true ∧ Claims.apart f.d.ea size f.x.ea (32 * ceilDiv k.nt 32)) →
    (k.fmt ≠ 14 → f.xClear = true) → q.st = stOk → q.ready = true →
    q.s.fetchPieces (towerOf i) k.recBytes q.pages = .ok ps → ps.all (q.s.pieceReady (towerOf i) false) = true →
    s.piecesClean ps →
    ∃ t, exec (.fetch i w) s = .next t ∧ s.wentOn t i ∧ s.vaultsKeptBut t [] ∧
      ∀ p ∈ ps, ∀ T, p.pos = 512 * T →
        (∀ c, c < k.n / 32 → t.scratchHolds i (f.d.ea + (T / 32 * (k.n / 32) + c) * (128 * wd) + T % 32 * (4 * wd))
          (stageVec wd k.e0 c (s.pieceBytes [p]))) ∧
        (k.fmt = 14 → t.scratchByte i (f.x.ea + T) = (s.pieceBytes [p]).getLast?.getD (0, false))

/-- SCORE and ACC of KVX over one page of at most 30 records in the core's own vault, on a clean scratchpad (08 R301 to
R303): the instruction is in progress with its two commands still to enter the vault's queue, a QLD of the head's query
(of the weights) into slot 1 of the page's bank unit, and the records from their physical address on. -/
def Claims.KvxScoreAndAcc : Prop :=
  ∀ (s : State) (i : Site) (w : BitVec 128) (ch off : Nat) (p : KvPage), s.clear i w = true →
    Claims.streamFits s i w.toNat ch → s.licensed licBku = true →
    let f := Claims.kvF s i w.toNat
    let k := Claims.streamBlk s i w.toNat
    let q := s.kvWalk (towerOf i) i (s.window ch k.window) k true
    let phys := physAddr (s.frameBase i) off
    let b := bankOf phys
    let page := virtAddr k.window ((k.t0 / 256 * k.streams + k.layer) * 2 ^ 17)
    f.g = 1 → k.pool = 0 → q.st = stOk → q.ready = true → q.pages = [p] → p.count = k.nt → p.tok = 0 →
    p.slot % 30 + k.nt ≤ 30 → s.ownFrame i (pteFrame p.e2) = some off → s.frameBase i ≤ off →
    s.vaultState i ≠ vsRetired → (s.vault i).retired = [] →
    let runs := fun (t : State) (acc : Bool) (n : Nat) (row : Nat) (op : BkuOp) => s.wentOn t i ∧ s.vaultsKeptBut t [] ∧
      s.scratchKept t i 0 0 ∧ ∃ j ∈ t.jobs, (t.core i).kvRun = [j.id] ∧ j.site = i ∧ j.engine = 6 ∧ j.itag = iTag w.toNat ∧
        j.left = 2 ∧ j.dests = [(f.d.ea, p4 n)] ∧
        j.fin = .absorb acc f.d.ea 1 k.n k.nt
          [⟨.qld 1 (row / 2) [b] (s.scratchBytes i f.x.ea row), [b], 0, page⟩, ⟨op, [b], 0, page⟩] [b]
    (isOp w 6 1 = true → f.d.kvx (p4 k.nt) = true → f.x.kvx (p2 k.n) = true →
      ∃ t, exec (.kvxScore i w) s = .next t ∧
        runs t false k.nt (2 * k.n) (.score (phys + 512 * p.slot) k.fmt 1 k.nt k.e0 k.n k.recBytes 0)) ∧
    (isOp w 6 2 = true → f.d.kvx (p4 k.n) = true → f.x.kvx (p2 k.nt) = true →
      ∃ t, exec (.kvxAcc i w) s = .next t ∧
        runs t true k.n (2 * k.nt) (.acc (phys + 512 * p.slot) k.fmt 1 k.nt k.e0 k.n k.recBytes 0 0))

/-- The last result of a SCORE or ACC of one head and one page (08 R301 to R303): SCORE writes the scores of its tokens,
ACC the sum of each element added to +0; slot 1 of the unit is given up, and the instruction is complete. -/
def Claims.KvxResultsFollow : Prop :=
  ∀ (s : State) (i : Site) (r : BkuResult) (rest : List BkuResult) (j : Job) (acc : Bool) (d n nt b addr : Nat),
    let row := if acc then n else nt
    (s.vault i).results = r :: rest → r.kvx = some (0, addr) → r.job = j.id → s.job? j.id = some j → j.site = i →
    j.left = 1 → j.buf = [] → j.status = stOk → j.fin = .absorb acc d 1 n nt [] [b] → (s.core i).kvRun = [j.id] →
    (s.core i).kvq = [] → (s.core i).hold = .none → (s.core i).synq = [] → s.coreState i = csRunning →
    r.status = stOk → r.data.length = 4 * row → anyPoison r.data = false → (s.core i).touch = none →
    EccMem.mergeMeetsPoison scratchZero (s.core i).scratch d (4 * row) = false → d + 4 * row ≤ scratchSize →
    ∃ t, exec (.bankUnitResultDrain i) s = .next t ∧ t.job? j.id = none ∧ (t.vault i).results = rest ∧
      s.scratchKept t i d (4 * row) ∧ (t.vault i).latchValid.contains (2 * b + 1) = false ∧
      ∀ m, m < row → leP (t.scratchBytes i (d + 4 * m) 4) =
        (if acc then toB32 ((ofB32 0).add (ofB32 (leP (slice r.data (4 * m) 4)))) else leP (slice r.data (4 * m) 4))

/-- The softmax instructions on a clean scratchpad with operands apart (08 R305 to R309): each head's state block entry
and its row are what its step makes of them. SMAX writes bfloat16 weights and the new state, MERGE the rescaled and added
accumulator, COMB both, FIN the divided row and the new state. -/
def Claims.SoftmaxInstructions : Prop :=
  ∀ (s : State) (i : Site) (w : BitVec 128), s.clear i w = true → s.scratchClean i 0 scratchSize →
    let f := Claims.kvF s i w.toNat
    let blk := s.scratchBytes i f.b.ea (stateSize f.g)
    let hd := fun h => Head.ofBytes (slice blk (16 + 16 * h) 16)
    let row := fun a h => (List.range f.len).map (fun k => word32 (s.scratchBytes i (a + h * p4 f.len + 4 * k) 4) 0)
    let out := fun (t : State) h (r : List (BitVec 32)) =>
      ∀ k, k < f.len → leP (t.scratchBytes i (f.d.ea + h * p4 f.len + 4 * k) 4) = (r.getD k 0).toNat
    let block := fun (t : State) h (x : Head) => t.scratchHolds i (f.b.ea + 16 + 16 * h) x.bytes
    f.top = 0 → 1 ≤ f.len → f.b.kvx (stateSize f.g) = true →
    (isOp w 6 4 = true → f.len ≤ 4096 → scaleOk (word32 blk 0) = true → f.d.kvx (f.g * p2 f.len) = true →
      f.x.kvx (f.g * p4 f.len) = true → Claims.apart f.b.ea (stateSize f.g) f.d.ea (f.g * p2 f.len) →
      ∃ t, exec (.smax i w) s = .next t ∧ s.wentOn t i ∧ s.vaultsKeptBut t [] ∧ ∀ h, h < f.g →
        let r := smaxHead (if f.first then Head.start else hd h) (word32 blk 0) (row f.x.ea h)
        block t h r.1 ∧ ∀ k, k < f.len →
          leP (t.scratchBytes i (f.d.ea + h * p2 f.len + 2 * k) 2) = r.2.getD k 0 % 2 ^ 16) ∧
    (isOp w 6 5 = true → f.len ≤ 512 → f.d.kvx (f.g * p4 f.len) = true → f.x.kvx (f.g * p4 f.len) = true →
      ∃ t, exec (.merge i w) s = .next t ∧ s.wentOn t i ∧ s.vaultsKeptBut t [] ∧
        s.scratchKept t i f.d.ea (f.g * p4 f.len) ∧
        ∀ h, h < f.g → out t h (mergeRow (hd h) f.first (row f.d.ea h) (row f.x.ea h))) ∧
    (isOp w 6 6 = true → f.first = false → f.len ≤ 512 → f.d.kvx (f.g * p4 f.len) = true →
      f.x.kvx (stateSize f.g + f.g * p4 f.len) = true → Claims.apart f.b.ea (stateSize f.g) f.d.ea (f.g * p4 f.len) →
      ∃ t, exec (.comb i w) s = .next t ∧ s.wentOn t i ∧ s.vaultsKeptBut t [] ∧ ∀ h, h < f.g →
        let r := combHead (hd h) (Head.ofBytes (slice (s.scratchBytes i f.x.ea (stateSize f.g)) (16 + 16 * h) 16))
          (row f.d.ea h) (row (f.x.ea + stateSize f.g) h)
        block t h r.1 ∧ out t h r.2) ∧
    (isOp w 6 7 = true → f.first = false → f.xClear = true → f.len ≤ 512 → f.d.kvx (f.g * p4 f.len) = true →
      Claims.apart f.b.ea (stateSize f.g) f.d.ea (f.g * p4 f.len) →
      ∃ t, exec (.fin i w) s = .next t ∧ s.wentOn t i ∧ s.vaultsKeptBut t [] ∧ ∀ h, h < f.g →
        let r := finHead (hd h) (row f.d.ea h)
        block t h r.1 ∧ out t h r.2)

/-- KVX.SCORE, KVX.ACC and the softmax instructions. -/
def Obligations.KvxInstructions : Prop :=
  Claims.KvxScoreAndAcc ∧ Claims.KvxResultsFollow ∧ Claims.SoftmaxInstructions

/-- APPEND to one page-layer with a frame of its own, in vaults of the package that take the writes now (08 R283, R285,
R312): each record lies in its slot of the frame, and the page-layer's entry counts them in fill. -/
def Obligations.AppendWritesRecords : Prop :=
  ∀ (s : State) (i : Site) (w : BitVec 128) (ch v off u eoff : Nat) (p : KvPage), s.clear i w = true →
    isOp w 6 8 = true → Claims.streamFits s i w.toNat ch →
    let f := Claims.kvF s i w.toNat
    let k := Claims.streamBlk s i w.toNat
    let win := s.window ch k.window
    let q := s.kvWalk (towerOf i) i win k false
    let pitch := 8 * ceilDiv k.recBytes 8
    f.g = 1 → k.nt ≤ 256 → k.pool % 64 = 0 → f.dClear = true → f.x.kvx (k.nt * pitch) = true → winReadOnly win = false →
    q.st = stOk → q.ready = true → q.pages = [p] → p.count = k.nt → p.tok = 0 → p.slot = fillOf p.e2 → p.slot + k.nt ≤ 256 →
    needsFrame p.e2 = false →
    s.placeOf (towerOf i) (pteFrame p.e2) = .ok (.vault v off) → s.placeOf (towerOf i) p.at_ = .ok (.vault u eoff) →
    (u ≠ v ∨ eoff + 16 ≤ off ∨ off + 2 ^ 17 ≤ eoff) →
    s.piecesClean [⟨.vault v off, 0, 2 ^ 17⟩, ⟨.vault u eoff, 0, 16⟩] →
    s.pieceReady (towerOf i) true ⟨.vault v off, 0, 8⟩ = true → s.pieceReady (towerOf i) true ⟨.vault u eoff, 0, 8⟩ = true →
    (s.vault v).running = [] → (s.vault u).running = [] →
    (∀ e ∈ (s.vault v).wbuf ++ (s.vault u).wbuf, e.merge = none) →
    ∃ t, exec (.append i w) s = .next t ∧ s.wentOn t i ∧
      (∀ m, m < k.nt → t.vaultHolds8 v (off + 512 * (p.slot + m)) (s.scratchBytes i (f.x.ea + m * pitch) k.recBytes)) ∧
      t.vaultHolds8 u eoff (clean (toLE 16 (pteValue (pteFrame p.e2) (p.slot + k.nt) false 0)))

/-- The references of a directory entry, and the request a LINK or PUBLISH makes of the directory (08 R315, R319, R320):
its page's S entries, parent, tag and tokens, from a clean prefix block and tokens. -/
structure Claims.asks (s t : State) (i : Site) (op : Nat) (k : StreamBlk) (d x dom : Nat) (a : PfxAsk) : Prop where
  job : a.job = s.newJob ∧ ∃ j ∈ t.jobs, j.id = a.job ∧ j.site = i.val ∧ j.engine = 6 ∧ j.op = op
  core : a.site = i.val ∧ a.streams = k.streams ∧ a.domain = dom ∧ a.block = d
  parent : a.parent = ((s.scratchBytes i d 16).map Prod.fst) ∧ a.mtag = ((s.scratchBytes i (d + 16) 8).map Prod.fst)
  tokens : a.tokens = ((s.scratchBytes i x 1024).map Prod.fst)
  desc : a.desc = leP (s.scratchBytes i (d + 24) 8)

/-- LINK of an unbacked page sends the directory its request and waits (08 R319, R323). PUBLISH of a full, unshared page
writes the page's descriptor (08 R317) to vaults of the package that take it now, and then does the same (08 R320). -/
def Claims.LinkAndPublishAsk : Prop :=
  ∀ (s : State) (i : Site) (w : BitVec 128) (ch : Nat) (publish : Bool), s.clear i w = true →
    isOp w 6 (if publish then 0x11 else 0x10) = true → Claims.streamFits s i w.toNat ch →
    let f := Claims.kvF s i w.toNat
    let k := Claims.streamBlk s i w.toNat
    let q := s.pageWalk i (s.window ch k.window) k publish
    let desc := leP (s.scratchBytes i (f.d.ea + 24) 8)
    f.g = 1 → k.t0 % 256 = 0 → k.nt = 256 → k.pool = 0 → f.d.kvx 64 = true → f.x.kvx 1024 = true → q.st = stOk →
    q.ready = true → (∀ x ∈ s.pfx.queue, x.tick < s.now ∨ x.source ≤ towerOf i) →
    (publish = false → (∀ p ∈ q.pages, pteValid p.e2 = false) →
      ∃ t a, exec (.link i w) s = .next t ∧ t.pfx.queue = s.pfx.queue ++ [⟨s.now, towerOf i, .link a⟩] ∧ s.wentOn t i ∧ s.vaultsKeptBut t [] ∧
        Claims.asks s t i 0x10 k f.d.ea f.x.ea (s.chan ch).domain a) ∧
    (publish = true → (∀ p ∈ q.pages, pteFill p.e2 = 256 ∧ pteShared p.e2 = false) → desc % 64 = 0 → skyOk desc = true →
      bits desc 31 0 + descSize k.streams ≤ vaultSize → ∀ v off, s.placeOf (towerOf i) desc = .ok (.vault v off) →
      s.piecesClean [⟨.vault v off, 0, descSize k.streams⟩] → s.pieceReady (towerOf i) true ⟨.vault v off, 0, 8⟩ = true →
      (s.vault v).running = [] → (∀ e ∈ (s.vault v).wbuf, e.merge = none) →
      ∃ t a, exec (.publish i w) s = .next t ∧ t.pfx.queue = s.pfx.queue ++ [⟨s.now, towerOf i, .publish a⟩] ∧ s.wentOn t i ∧
        Claims.asks s t i 0x11 k f.d.ea f.x.ea (s.chan ch).domain a ∧
        t.vaultHolds8 v off (clean (descHead a)) ∧ t.vaultHolds8 v (off + 64) (clean a.tokens) ∧
        t.vaultHolds8 v (off + 1088) (clean (a.ents.flatMap (fun e => toLE 8 (pteFrame e.2)))))

/-- Requests reach the directory's one FIFO in the order of their arrival, those of one tick in the order T0 to T3, then
the host (08 R323). -/
def Claims.PrefixRequestsInOrder : Prop :=
  ∀ (s : State) (source : Nat) (r : PfxReq), ∃ l m, s.pfx.queue = l ++ m ∧
    (s.askPfx source r).pfx.queue = l ++ ⟨s.now, source, r⟩ :: m ∧ (∀ x ∈ l, x.tick < s.now ∨ x.source ≤ source) ∧
    (∀ x, m.head? = some x → s.now ≤ x.tick ∧ source < x.source)

/-- The prefix directory (08 R318 to R321, R325), with no error injected and its vaults ready: a LINK that matches adds S
references to the entry, or misses and changes none; a PUBLISH without a match makes a LIVE entry of a free way with S
references; a release drops one reference, and the last one makes the entry RECLAIM and posts it; a RECLAIM entry that is
released is free again. -/
def Claims.PrefixDirectory : Prop :=
  ∀ (s : State) (rest : List PfxArrival) (tk src : Nat), s.on Reg.rasInject_arm = false → s.asker = none →
    s.tables.any (fun t => t.ofAgent hostSite pfxKey) = false →
    let s1 := { s with pfx := { s.pfx with queue := rest } }
    (∀ a : PfxAsk, s.pfx.queue = ⟨tk, src, .link a⟩ :: rest → s.on Reg.pfxCtrl_enable = true →
      let key := pageKey a
      let c := (s1.incWrap Reg.pfxCntLookup_requests 1).pfxCompare a
      (∀ e, s.pfx.match_ key a.domain = some e → (c e).ready = true → (c e).same = true → (c e).streams = true →
        peRefs (s.pfx.entry e) + a.streams ≤ refMax →
        ∃ t, exec .prefixLinkRequest s = .next t ∧ t.pfx.queue = rest ∧
          peRefs (t.pfx.entry e) = peRefs (s.pfx.entry e) + a.streams ∧
          (∀ f, f ≠ e → t.pfx.entry f = s.pfx.entry f) ∧
          t.getF Reg.pfxCntResult_linked = Nat.min (s.getF Reg.pfxCntResult_linked + 1) (2 ^ 24 - 1)) ∧
      (s.pfx.match_ key a.domain = none →
        ∃ t, exec .prefixLinkRequest s = .next t ∧ t.pfx.queue = rest ∧ ∀ f, t.pfx.entry f = s.pfx.entry f)) ∧
    (∀ a e, s.pfx.queue = ⟨tk, src, .publish a⟩ :: rest → s.on Reg.pfxCtrl_enable = true →
      ((s1.incWrap Reg.pfxCntLookup_requests 1).skyWrite hostSite 0 (a.desc + 16) (clean (pageKey a)) false).ready = true →
      s.pfx.match_ (pageKey a) a.domain = none → s.pfx.freeWay (pageKey a) = some e → a.desc < 2 ^ 64 →
      a.streams ≤ 256 → a.domain < 256 → (pageKey a).length = 16 →
      ∃ t, exec .prefixPublishRequest s = .next t ∧ t.pfx.queue = rest ∧ peState (t.pfx.entry e) = pfxLive ∧
        peRefs (t.pfx.entry e) = a.streams ∧ peDesc (t.pfx.entry e) = a.desc ∧ peDomain (t.pfx.entry e) = a.domain ∧
        peKey (t.pfx.entry e) = leNat (pageKey a) ∧ ∀ f, f ≠ e → t.pfx.entry f = s.pfx.entry f) ∧
    (∀ e, s.pfx.queue = ⟨tk, src, .release e⟩ :: rest → s.pfx.dead.contains e = false →
      peState (s.pfx.entry e) = pfxLive →
      (2 ≤ peRefs (s.pfx.entry e) → ∃ t, exec .prefixRelease s = .next t ∧ t.pfx.queue = rest ∧
        peRefs (t.pfx.entry e) = peRefs (s.pfx.entry e) - 1 ∧ peState (t.pfx.entry e) = pfxLive ∧
        t.pfx.reclaim = s.pfx.reclaim) ∧
      (peRefs (s.pfx.entry e) = 1 → ∃ t, exec .prefixRelease s = .next t ∧ t.pfx.queue = rest ∧
        peRefs (t.pfx.entry e) = 0 ∧ peState (t.pfx.entry e) = pfxReclaimed ∧ t.pfx.reclaim = s.pfx.reclaim ++ [e])) ∧
    (∀ e es (v : BitVec 32), s.pfx.reclaim = e :: es → bit v.toNat 30 = true →
      ∃ t, exec (.pfxReclaimRelease v) s = .next t ∧ t.pfx.entry e = 0 ∧ t.pfx.reclaim = es ∧
        ∀ f, f ≠ e → t.pfx.entry f = s.pfx.entry f)

/-- LINK and PUBLISH ask the prefix directory, and what it does. -/
def Obligations.PrefixInstructions : Prop :=
  Claims.LinkAndPublishAsk ∧ Claims.PrefixRequestsInOrder ∧ Claims.PrefixDirectory

/-! ## Stage queues and the fabric engine -/

/-- Bytes of a near operand, its being clean, and its holding bytes: the scratchpad or the core's own vault. -/
def Claims.nearBytes (s : State) (i : Nat) (o : Opnd) (n : Nat) : List PByte :=
  if o.space = spScratch then s.scratchBytes i o.ea n else s.peekVault i o.ea n

/-- A near operand that is clean and can be used now. -/
def Claims.nearOk (s : State) (i : Nat) (o : Opnd) (n : Nat) (write : Bool) : Prop :=
  s.scratchClean i 0 scratchSize ∧ o.near n = true ∧ s.nearReady i o n write = true ∧
  (o.space ≠ spScratch → s.piecesClean [⟨.vault i o.ea, 0, n⟩])

/-- A near operand holds bytes. -/
def Claims.nearHolds (t : State) (i : Nat) (o : Opnd) (data : List PByte) : Prop :=
  if o.space = spScratch then t.scratchHolds i o.ea data else t.vaultHolds8 i o.ea data

/-- The words of a payload. -/
def Claims.wordsOf (p : List PByte) : List (BitVec 64 × Bool) :=
  (List.range (p.length / 8)).map (fun k => (BitVec.ofNat 64 (leP (slice p (8 * k) 8)), anyPoison (slice p (8 * k) 8)))

/-- An instruction has begun to send a bundle (09 R330, R332, 10 R389): its header, payload, queue and sequence value;
the sequencer has moved past it, and no byte of a scratchpad or vault has changed. -/
structure Claims.begins (s t : State) (i : Site) (e : Nat) (dest : Bool × Nat) (utag : Nat) (payload : List PByte) : Prop where
  sends : ∃ x, t.senders = s.senders ++ [x] ∧ x.site = i.val ∧ x.engine = e ∧ (x.remote, x.dst) = dest ∧
    x.header = bundleHeader (payload.length / 8) utag (s.vidOf i) ∧ x.words = Claims.wordsOf payload ∧ x.next = 0 ∧
    x.st = .asking s.now ∧ x.seq = (s.seqCtr i e).next
  seq : (t.seqCtr i e).next = ((s.seqCtr i e).next + 1) % 65536
  went : s.wentOn t i
  scratch : s.scratchKept t i 0 0
  vaults : s.vaultsKeptBut t []

/-- PUSH and TSEND that pass their checks, from clean operands, begin to send a bundle (09 R345, R350 to R352): PUSH its
scratchpad range, TSEND the count, the reply fields, the indices and the rows they choose. -/
def Claims.PushAndTsendBegin : Prop :=
  ∀ (s : State) (i : Site) (w : BitVec 128) (dest : Bool × Nat), s.clear i w = true → s.scratchClean i 0 scratchSize →
    let n := w.toNat
    let ops := engOps (s.core i) n
    let at_ := fun a k => s.scratchBytes i a k
    (isOp w 7 0 = true → bits n 127 72 = 0 → bits n 55 40 % 8 = 0 → (s.core i).sq = [] → s.sender? i 7 = none →
      (opAt ops 0).inScratch (bits n 55 40) = true → (opAt ops 1).space = spSky → badQueue (opAt ops 1).ea = false →
      (bits (opAt ops 1).ea 63 44 = 0xFFFFF ∨ bits (opAt ops 1).ea 63 44 = s.nodeOf (towerOf i)) →
      s.queueAt i (opAt ops 1).ea = .ok dest →
      ∃ t, exec (.push i w) s = .next t ∧ Claims.begins s t i 7 dest (bits n 71 56) (at_ (opAt ops 0).ea (bits n 55 40))) ∧
    (isOp w 5 0x10 = true → (s.core i).fmv = [] → s.sender? i 5 = none →
      let q := opAt ops 0
      let l := opAt ops 1
      let src := opAt ops 2
      let b := opAt ops 3
      let rb := bits n 63 48
      let c := leP (at_ l.ea 4)
      let d := Dispatch.parse (at_ b.ea 32)
      let ix := at_ (l.ea + 4) (4 * c)
      let row := fun k => (src.ea + (if d.sel = 1 then leP (slice ix (4 * k) 4) / 2 ^ d.shift else k) * d.srcPitch) % 2 ^ 64
      bits n 127 80 = 0 → rowOk rb = true → q.inScratch 8 = true → l.inScratch 4 = true →
      b.inScratch 32 = true → (src.space = spScratch ∨ src.space = spGround) →
      l.ea + 4 + 4 * c ≤ scratchSize → d.ok (at_ b.ea 32) = true → badQueue (leP (at_ q.ea 8)) = false →
      s.queueAt i (leP (at_ q.ea 8)) = .ok dest → 32 + 8 * ceilDiv c 2 + c * rb ≤ payloadMax →
      (∀ k, k < c → Claims.nearOk s i { src with ea := row k } rb false) →
      ∃ t, exec (.tsend i w) s = .next t ∧ Claims.begins s t i 5 dest (bits n 79 64)
        (clean (toLE 4 c ++ List.replicate 4 0) ++ at_ b.ea 24 ++ ix ++ clean (List.replicate (8 * ceilDiv c 2 - 4 * c) 0) ++
          (List.range c).flatMap (fun k => Claims.nearBytes s i { src with ea := row k } rb)))

/-- The head bundle of a core's own queue is whole and clean, and its operands are clean and apart. -/
structure Claims.popOk (s : State) (i : Site) (f : PopF) (pop : Bool) (b : Bundle) (rest : List Bundle) : Prop where
  good : f.ok pop = true
  open_ : s.sqState i = sqOpen
  head : (s.queue i).resident = b :: rest
  words : b.words.map Prod.fst = List.range b.size ∧ ∀ x ∈ b.words, x.2.parityOk = true ∧ x.2.poison = false
  arms : s.on (Reg.sqInject_arm i) = false ∧ s.injected 3 i = false
  near : Claims.nearOk s i f.d (if pop then f.max else f.cap * f.rb) true
  apart : f.d.space = spScratch → Claims.apart f.d.ea (if pop then f.max else f.cap * f.rb) f.h.ea (if pop then 16 else f.areaBytes)

/-- The payload of a bundle that has arrived. -/
def Claims.payload (b : Bundle) : List PByte := b.words.flatMap (fun x => clean (toLE 8 x.2.d.toNat))

/-- POP and POPA with a whole, clean bundle at the head of the core's own queue take it (09 R346, R347, R353, R354). POP
writes its payload and the header record; POPA appends its rows, indices and a segment to the gather area and counts
them. The bundle leaves the queue. -/
def Claims.PopTakesHead : Prop :=
  ∀ (s : State) (i : Site) (w : BitVec 128) (b : Bundle) (rest : List Bundle), s.clear i w = true →
    let f := popF w.toNat (engOps (s.core i) w.toNat)
    let p := Claims.payload b
    (s.core i).sq = [] → s.sender? i 7 = none →
    (isOp w 7 1 = true → Claims.popOk s i f true b rest → 8 * b.size ≤ f.max →
      ∃ t, exec (.pop i w) s = .next t ∧ s.wentOn t i ∧ (t.queue i).resident = rest ∧ Claims.nearHolds t i f.d p ∧
        t.scratchHolds i f.h.ea (clean (toLE 8 b.header.toNat ++ toLE 4 (8 * b.size) ++ List.replicate 4 0))) ∧
    (isOp w 7 2 = true → Claims.popOk s i f false b rest →
      let a := f.h.ea
      let top := a + 16 + 32 * f.segCap
      let segs := if f.append then leP (s.scratchBytes i (a + 4) 4) else 0
      let rows := if f.append then leP (s.scratchBytes i top 4) else 0
      let c := leP (p.take 4)
      segs < f.segCap → 32 ≤ p.length → p.length = 32 + 8 * ceilDiv c 2 + c * f.rb → rows + c ≤ f.cap →
      ∃ t, exec (.popa i w) s = .next t ∧ s.wentOn t i ∧ (t.queue i).resident = rest ∧
        t.scratchHolds i a (clean (toLE 4 (ceilDiv (rows + c) 32) ++ toLE 4 (segs + 1))) ∧
        (f.append = false → t.scratchHolds i (a + 8) (clean (List.replicate 8 0))) ∧
        t.scratchHolds i (a + 16 + 32 * segs) (clean (toLE 4 rows ++ toLE 4 c) ++ slice p 8 24) ∧
        t.scratchHolds i top (clean (toLE 4 (rows + c))) ∧
        t.scratchHolds i (top + 4 + 4 * rows) (slice p 32 (4 * c)) ∧
        Claims.nearHolds t i { f.d with ea := f.d.ea + rows * f.rb } (p.drop (32 + 8 * ceilDiv c 2)))

/-- PUSH and TSEND begin a bundle; POP takes the head of a queue. -/
def Obligations.StageQueues : Prop :=
  Claims.PushAndTsendBegin ∧ Claims.PopTakesHead

/-- REPLY of an area of one segment whose slots and flag lie, apart from each other, in clean vaults of the package that
take the writes now (09 R355, R356): every row lies in the slot its index names, and the flag is greater by the rows. -/
def Claims.ReplyWritesSlots : Prop :=
  ∀ (s : State) (i : Site) (w : BitVec 128) (v off : Nat → Nat) (fv fo : Nat), s.clear i w = true → isOp w 5 0x11 = true →
    s.scratchClean i 0 scratchSize → (s.core i).fmv = [] → s.sender? i 5 = none →
    let n := w.toNat
    let a := opAt (engOps (s.core i) n) 0
    let r := opAt (engOps (s.core i) n) 1
    let rb := bits n 63 48
    let at_ := fun a k => leP (s.scratchBytes i a k)
    let cap := SMap.get (fun _ => at_ (a.ea + 4) 4) (s.core i).areas a.ea
    let top := a.ea + (16 + 32 * cap)
    let rows := at_ top 4
    let seg := fun o k => at_ (a.ea + 16 + o) k
    let first := seg 0 4
    let c := seg 4 4
    let slot := fun k => wrap 64 ((seg 8 8 : Int) + ((at_ (top + 4 + 4 * (first + k)) 4 : Int) - seg 28 4) * seg 24 4)
    bits n 47 40 = 0 → bits n 127 64 = 0 → rowOk rb = true → a.inScratch 20 = true → a.ea % 8 = 0 →
    at_ (a.ea + 4) 4 = 1 → 1 ≤ cap → top + 4 + 4 * rows ≤ scratchSize → r.near (rows * rb) = true →
    (r.space = spScratch ∨ r.space = spGround) → s.nearReady i r (rows * rb) false = true → c ≠ 0 → rb ≤ seg 24 4 →
    first + c ≤ rows → skyRoom (seg 16 8) 8 = true → seg 16 8 % 8 = 0 → s.placeOf (towerOf i) (seg 16 8) = .ok (.vault fv fo) →
    (∀ k, k < c → skyRoom (slot k) rb = true ∧ s.placeOf (towerOf i) (slot k) = .ok (.vault (v k) (off k)) ∧
      Claims.nearOk s i { r with ea := r.ea + (first + k) * rb } rb false) →
    let ps := (⟨.vault fv fo, 0, 8⟩ : Piece) :: (List.range c).map (fun k => ⟨.vault (v k) (off k), 0, rb⟩)
    s.piecesClean ps → piecesApart ps → ps.all (s.pieceReady (towerOf i) true) = true →
    s.atomicReady (towerOf i) ⟨.vault fv fo, 0, 8⟩ = true →
    (r.space = spGround → ∀ p ∈ ps, ∀ o, p.at_ i.val o → Claims.apart o p.len r.ea (rows * rb)) →
    ∃ t, exec (.reply i w) s = .next t ∧ s.wentOn t i ∧ s.vaultsKeptBut t ps ∧ s.scratchKept t i 0 0 ∧
      (∀ k, k < c → t.vaultHolds8 (v k) (off k) (Claims.nearBytes s i { r with ea := r.ea + (first + k) * rb } rb)) ∧
      t.vaultHolds8 fv fo (clean (toLE 8 ((leP (s.peekVault fv fo 8) + c) % 2 ^ 64)))

/-- PUT, GET and PUTF between clean near and clean far memory of the package that answers now (10 R397 to R399): the
destination holds the bytes, and PUTF adds to its flag after them. Nothing else of a scratchpad or vault changes. -/
def Claims.PutGetMoveBytes : Prop :=
  ∀ (s : State) (i : Site) (w : BitVec 128), s.clear i w = true → s.scratchClean i 0 scratchSize →
    (s.core i).fmv = [] → s.sender? i 5 = none →
    let n := w.toNat
    let o := fun k => opAt (engOps (s.core i) n) k
    let len := bulkLen n
    let x := s.resolve i (o 0) len true
    let far := fun (p : Opnd) => p.space = spSky ∨ p.space = spVirt
    (isOp w 5 0 = true → bulkBad n false = false → far (o 0) → Claims.nearOk s i (o 1) len false → x.st = stOk →
      x.ready = true → s.piecesClean x.pieces → piecesApart x.pieces →
      ∃ t, exec (.put i w) s = .next t ∧ s.wentOn t i ∧ t.piecesHold x.pieces (Claims.nearBytes s i (o 1) len) ∧
        s.vaultsKeptBut t x.pieces ∧ s.scratchKept t i 0 0) ∧
    (isOp w 5 1 = true → bulkBad n false = false → far (o 1) → Claims.nearOk s i (o 0) len true →
      let y := s.resolve i (o 1) len false
      y.st = stOk → y.ready = true → s.piecesClean y.pieces →
      ∃ t, exec (.get i w) s = .next t ∧ s.wentOn t i ∧ Claims.nearHolds t i (o 0) (s.pieceBytes y.pieces) ∧
        s.vaultsKeptBut t (if (o 0).space = spScratch then [] else [⟨.vault i (o 0).ea, 0, len⟩]) ∧
        s.scratchKept t i (o 0).ea (if (o 0).space = spScratch then len else 0)) ∧
    (isOp w 5 2 = true → bulkBad n true = false → far (o 0) → badFlag (o 2) = false → Claims.nearOk s i (o 1) len false →
      x.st = stOk → x.ready = true → ∀ v off, let y := x.s.resolve i (o 2) 8 true
      y.st = stOk → y.ready = true → y.pieces = [⟨.vault v off, 0, 8⟩] → y.s.atomicReady (towerOf i) ⟨.vault v off, 0, 8⟩ = true → off % 8 = 0 →
      s.piecesClean (y.pieces ++ x.pieces) → piecesApart (y.pieces ++ x.pieces) →
      ∃ t, exec (.putf i w) s = .next t ∧ s.wentOn t i ∧ t.piecesHold x.pieces (Claims.nearBytes s i (o 1) len) ∧
        t.vaultHolds8 v off (clean (toLE 8 ((leP (s.peekVault v off 8) + bits n 104 73) % 2 ^ 64))) ∧
        s.vaultsKeptBut t (y.pieces ++ x.pieces) ∧ s.scratchKept t i 0 0)

/-- REPLY, PUT and GET move their bytes. -/
def Obligations.ReplyPutGet : Prop :=
  Claims.ReplyWritesSlots ∧ Claims.PutGetMoveBytes

/-! ## The core from outside its stream -/

/-- Nothing waits in a port, on a die link or at a die. -/
structure Claims.quietFabric (s : State) : Prop where
  ports : ∀ e ∈ s.ports, e.2.rx = [] ∧ e.2.tx.q = []
  links : ∀ e ∈ s.links, e.2.tx.q = [] ∧ e.2.txFar.q = [] ∧ e.2.stream = []
  landed : s.landed = []

/-- A packet older by its link, as it leaves the receive buffer at once (10 R386). -/
def Claims.aged (s : State) (t p : Nat) (k : Packet) : Packet := olderBy k (s.getF (Reg.optPortStatus_delay_ns t p))

/-- A packet of a class and opcode reaches its tower by a port that is UP, young, for a site of the tower, where nothing
else is on its way. -/
structure Claims.arrives (s : State) (t : Tower) (p : Fin 32) (k : Packet) (cls op q : Nat) : Prop where
  up : s.portIsUp t p = true
  kind : k.cls = cls ∧ k.op = op
  node : vidNode (destVid k) = s.nodeOf t
  young : s.expired t (Claims.aged s t p k) = false
  site : vidSite (destVid k) = some q ∧ towerOf q = t
  quiet : Claims.quietFabric s
  held : s.dieHeld t t = false
  room : k.cls = clsReq → s.poolUsed t < poolSize

/-- A core has stopped on a status (02 R91, 12 R469): what it records, and its channel's fault and event. -/
structure Claims.stopped (s t : State) (i : Site) (st eng tag sp addr : Nat) : Prop where
  state : t.coreState i = csFaulted
  last : t.getF (Reg.coreStatus_last_status i) = st
  fault : t.getF (Reg.coreFaultStatus_status i) = st ∧ t.getF (Reg.coreFaultStatus_engine i) = eng ∧
    t.getF (Reg.coreFaultStatus_tag i) = tag ∧ t.getF (Reg.coreFaultAddr_addr i) = addr ∧
    t.getF (Reg.coreFaultInfo_space i) = sp
  hold : (t.core i).hold = .none
  chan : ∀ k, s.liveChan i = some k → (t.chan k).st = .faulted ∧
    t.events = s.events ++ [{ eq := (s.chan k).eq, kind := 3, site := i, handle := s.handle k, status := st
                              engine := eng, itag := tag, value := 0, addr := addr }]

/-- A WAIT that holds a core has seen a clean value of its flag (02 R82, R83). -/
def Claims.sees (s t : State) (i : Site) (x : WaitSt) (flag : List PByte) : Prop :=
  let met := waitHolds x.cmp x.value (leP flag) = true ∧ s.now < x.deadline
  (met → (t.core i).hold = .none ∧
    t.getF (Reg.coreRetired_count i) = (s.getF (Reg.coreRetired_count i) + 1) % 2 ^ 48) ∧
  (¬ met → (t.core i).hold = .wait { x with seen := leP flag } ∧
    t.getF (Reg.coreRetired_count i) = s.getF (Reg.coreRetired_count i))

/-- CORE_CTRL (02 R60, R61, R89, R90, R92). start of an IDLE core of a live channel, with base and length as R60 asks,
runs the stream from its base with everything of the stream at its start; stop leaves a RUNNING core in BREAK where it
stands; resume lets a core in BREAK run on and issue its instruction without matching a breakpoint again. -/
def Claims.CoreControl : Prop :=
  ∀ (s : State) (i : Site), s.locked i = false →
    (s.coreOn i = true → s.coreState i = csIdle → (s.liveChan i).isSome = true →
      streamOk (s.streamBase i) (s.streamLen i) = true →
      ∃ t, exec (.coreCtrlStart i) s = .next t ∧ t.coreState i = csRunning ∧ t.pc i = s.streamBase i ∧
        t.getF (Reg.coreRetired_count i) = 0 ∧ t.getF (Reg.coreIcStat_misses i) = 0 ∧
        t.getF (Reg.mxaStatus_poison i) = 0 ∧ t.getF (Reg.kvxLast_status i) = 0 ∧ (t.core i).ags = [] ∧
        (t.core i).frames = [] ∧ (t.core i).hold = .none ∧ (t.core i).icache = [] ∧ (t.core i).acc0 = Acc.start ∧
        (t.core i).acc1 = Acc.start ∧ (t.core i).tle = Tle.start ∧ (t.core i).scratch = (s.core i).scratch ∧
        (t.vault i).latchValid = [] ∧ ∀ j, j ≠ i → t.core j = s.core j) ∧
    (s.coreState i = csRunning → (s.core i).hold ≠ .end_ → (∀ x, (s.core i).hold = .wait x → x.remote = false) →
      ∃ t, exec (.coreCtrlStop i) s = .next t ∧ t.coreState i = csBreak ∧ (t.core i).hold = .none ∧ t.pc i = s.pc i ∧
        t.getF (Reg.coreRetired_count i) = s.getF (Reg.coreRetired_count i) ∧ (t.core i).scratch = (s.core i).scratch ∧
        ∀ j, j ≠ i → t.core j = s.core j) ∧
    (s.coreState i = csBreak → (s.core i).wordAt (s.pc i) ≠ .poison →
      ∃ t, exec (.coreCtrlResume i) s = .next t ∧ t.coreState i = csRunning ∧
        t.core i = { s.core i with noBreak := true } ∧ t.pc i = s.pc i ∧ s.sameBeyondCores t)

/-- ICACHE_LINE_FILL of clean words of the core's vault that can be read now, the line at CORE_PC, one of four ahead or
the one that the look-ahead of a REPEAT needs (02 R61, R76, 16 R591 kind 6): the line holds
them, the victim is gone and every other line stays; a fill of the line at CORE_PC counts as a miss, a refetch after a
parity failure is counted and recorded. -/
def Claims.InstructionCacheFill : Prop :=
  ∀ (s : State) (i : Site) (ahead : Fin 16) (fail : Bool) (victim : Nat),
    let l := s.pc i / 128 + ahead
    let c := s.core i
    let gone := if fail then l else victim
    s.coreState i = csRunning → c.pastEnd = false → (ahead.val ≤ 4 ∨ s.scanLine i = some l) → 128 * l < s.streamEnd i → (SMap.find c.icache l).isSome = fail →
    (fail = false → c.victimOk l victim = true) → s.readReady i (128 * l) 128 = true →
    s.vaultState i ≠ vsRetired → (∀ x ∈ s.wordsOf i (128 * l) 128, x.gone = false ∧ x.dec.kind = .clean) →
    c.wordAt (s.pc i) ≠ .poison → s.injected 2 i = false →
    ∃ t, exec (.icacheLineFill i ahead fail victim) s = .next t ∧
      SMap.find (t.core i).icache l = some (lineOf (s.peekVault i (128 * l) 128)) ∧
      (∀ k, k ≠ l → SMap.find (t.core i).icache k = if k = gone then none else SMap.find c.icache k) ∧
      t.coreState i = csRunning ∧ t.pc i = s.pc i ∧ s.vaultsKeptBut t [] ∧
      t.getF (Reg.coreIcStat_misses i) =
        (if fail = false ∧ ahead.val = 0 then Nat.min (s.getF (Reg.coreIcStat_misses i) + 1) (2 ^ 24 - 1)
         else s.getF (Reg.coreIcStat_misses i)) ∧
      t.getF (Reg.coreIcStat_parity_refetch i) =
        (if fail then Nat.min (s.getF (Reg.coreIcStat_parity_refetch i) + 1) 255 else s.getF (Reg.coreIcStat_parity_refetch i)) ∧
      t.records = s.records ++ (if fail then [mkRecord s 0 3 i 0 6 (128 * l) 0] else [])

/-- CORE_CTRL and the instruction cache. -/
def Obligations.CoreControlAndCache : Prop :=
  Claims.CoreControl ∧ Claims.InstructionCacheFill

/-- The stops of a core (02 R64, R84, R86, R90, R91, 09 R347): a breakpoint leaves it in BREAK before the instruction;
past the stream's end, in a faulted channel, at a WAIT or a POP past its deadline it records why and is FAULTED. -/
def Claims.CoreStops : Prop :=
  ∀ (s : State) (i : Site),
    (∀ w, s.atWord i w = true → (s.core i).noBreak = false → s.breakHit i w.toNat = true →
      ∃ t, exec (.breakpointStop i) s = .next t ∧ t.coreState i = csBreak ∧ t.pc i = s.pc i ∧
        t.getF (Reg.coreRetired_count i) = s.getF (Reg.coreRetired_count i) ∧
        t.core i = { s.core i with stepsLeft := 0 }) ∧
    (s.coreState i = csRunning → (s.core i).hold = .none → s.atEnd i = true →
      ∃ t, exec (.streamOverrun i) s = .next t ∧ Claims.stopped s t i stStreamOverrun 0 0 spGround (s.streamEnd i)) ∧
    (∀ k, chanOfSite s.chans i = some k → (s.chan k).st = .faulted → s.coreState i = csRunning → (s.core i).hold ≠ .end_ →
      ∃ t, exec (.channelFaultStop i) s = .next t ∧ Claims.stopped s t i stChannelFaulted 0 0 spGround 0 ∧
        t.events = s.events) ∧
    (∀ x, s.waiting i = some x → x.remote = false → x.deadline ≤ s.now → x.space < 4 →
      ∃ t, exec (.waitTimeout i) s = .next t ∧
        Claims.stopped s t i stWaitTimeout 0 (iTag (s.core i).cur.toNat) x.space x.addr.toNat ∧
        t.getF (Reg.coreFaultInfo_expected i) = x.value % 2 ^ 32 ∧ t.getF (Reg.coreFaultInfo_cmp i) = x.cmp % 4 ∧
        t.getF (Reg.coreFaultInfo_seen_low i) = x.seen % 2 ^ 28 ∧ t.getF (Reg.coreStatus_wait_armed i) = 0) ∧
    (∀ e es j, (s.core i).sq = e :: es → iOp e.w.toNat ≠ 0 → e.begun = false → e.deadline ≤ s.now →
      s.job? e.job = some j → j.site = i.val → j.engine = 7 → j.itag < 2 ^ 16 → s.coreState i = csRunning →
      (s.core i).hold = .none → (s.core i).synq = [] →
      ∃ t, exec (.popTimeout i) s = .next t ∧ Claims.stopped s t i stWaitTimeout 7 j.itag spSky (s.ownQueue i) ∧
        (t.queue i).resident = (s.queue i).resident ∧ (t.core i).sq = es ∧ t.job? e.job = none)

/-- A WAIT whose flag changes (02 R82, R85, 10 R394): WAIT_REARM installs its watch and sees the flag; a NOTICE, from a
vault of the package or by a packet newer than the newest taken, lets it see the flag's new value. Each is counted. -/
def Claims.WaitSeesFlag : Prop :=
  ∀ (s : State) (i : Site) (x : WaitSt), s.waiting i = some x →
    (x.remote = false → x.armed = false → x.nextTry ≤ s.now → s.now < x.deadline → s.readReady x.vid x.off 8 = true →
      (s.vault x.vid).watches.length < watchMax → x.off % 8 = 0 → s.piecesClean [⟨.vault x.vid x.off, 0, 8⟩] →
      ∃ t, exec (.waitRearm i) s = .next t ∧ Claims.sees s t i { x with armed := true } (s.peekVault x.vid x.off 8) ∧
        t.getF (Reg.coreWaitState_rearms i) = satAdd 16 (s.getF (Reg.coreWaitState_rearms i)) 1) ∧
    (∀ (v : Site) bytes rest, x.remote = false → x.armed = true → x.vid = v.val →
      dropNotice i (s.vault v).notices = some ((x.off, bytes), rest) → anyPoison bytes = false →
      ∃ t, exec (.notice i (.fromVault v)) s = .next t ∧ Claims.sees s t i x bytes ∧ (t.vault v).notices = rest ∧
        t.getF (Reg.coreWaitState_notices i) = satAdd 16 (s.getF (Reg.coreWaitState_notices i)) 1) ∧
    (∀ (tw : Tower) (p : Fin 32) (k : Packet), x.remote = true → Claims.arrives s tw p k clsRsp 4 i → k.dst = s.vidOf i * 2 ^ 32 →
      s.coreOn i = true → x.itag = k.tag → x.vid = k.src → newer k.seq x.highest = true → anyPoison k.payload = false →
      ∃ t, exec (.notice i (.packet tw p k)) s = .next t ∧ Claims.sees s t i { x with highest := k.seq } k.payload ∧
        t.getF (Reg.coreWaitState_notices i) = satAdd 16 (s.getF (Reg.coreWaitState_notices i)) 1)

/-- What stops a core, and what lets a WAIT go on. -/
def Obligations.CoreStopsAndWakes : Prop :=
  Claims.CoreStops ∧ Claims.WaitSeesFlag

/-! ## Vaults -/

/-- The vault port answers a request with a status and data, beyond what it has sent before. -/
def Claims.acked (s t : State) (v : Site) (st : Nat) (data : List PByte) : Prop :=
  t.out = s.out ++ [.vaultAck v st data]

/-- Requests to a port where none waits, that can be served now, on clean words of a vault in service (06 R217 to R219,
R237, R249, 02 R82): a read answers its bytes; a write shows at once, answered now or, where it covers part of a word,
with its merge; an atomic answers the old value and leaves the new one; a watch is installed and answers its flag.
A merge answers its write, a drain moves an entry to its bank, and neither changes what any byte reads as. -/
def Claims.VaultPortAnswers : Prop :=
  ∀ (s : State) (v : Site) (off : BitVec 29) (cls : ReqClass) (narrow : Bool),
    let a := off.toNat
    let x := s.vault v
    let free := fun (q : VReq) => x.waiting = [] ∧ s.reqReady v false q = true ∧
      s.piecesClean [⟨.vault v (a / 8 * 8), 0, 8⟩] ∧ s.piecesClean [⟨.vault v a, 0, q.len⟩]
    (∀ n, free (.read a n) → 0 < n → a + n ≤ vaultSize →
      ∃ t, exec (.vaultRead v off n cls narrow) s = .next t ∧ s.vaultsKeptBut t [] ∧
        t.out = s.out ++ [.vaultData v stOk (s.peekVault v a n)]) ∧
    (∀ data, free (.write a data) → data ≠ [] → a + data.length ≤ vaultSize → anyPoison data = false → x.watches = [] →
      ∃ t, exec (.vaultWrite v off data cls narrow) s = .next t ∧ t.vaultHolds8 v a data ∧
        s.vaultKept t v a data.length ∧ (partialWords a data.length = false → Claims.acked s t v stOk []) ∧
        (partialWords a data.length = true → t.out = s.out)) ∧
    (∀ aop wide op cmp, free (.atomic a aop wide op cmp) → aop < 8 → op.length = 8 → cmp.length = 8 → a % (if wide then 8 else 4) = 0 →
      anyPoison op = false → anyPoison cmp = false → x.watches = [] →
      let nb := if wide then 8 else 4
      let old := leP (s.peekVault v a nb)
      ∃ t, exec (.vaultAtomic v off aop wide op cmp) s = .next t ∧ Claims.acked s t v stOk (clean (toLE 8 old)) ∧
        t.vaultHolds8 v a (clean (toLE nb (atomicOp (8 * nb) aop old (leP (op.take nb)) (leP (cmp.take nb))))) ∧
        s.vaultKept t v a nb) ∧
    (∀ who : Site, free (.watch a (.core who)) → a % 8 = 0 → x.watches.length < watchMax →
      ∃ t, exec (.watchInstall v off who) s = .next t ∧ Claims.acked s t v stOk (s.peekVault v a 8) ∧
        (t.vault v).watches = x.watches ++ [⟨a, .core who⟩] ∧ s.vaultsKeptBut t []) ∧
    (∀ k e g, x.waiting = [] → x.wbuf[k]? = some e → e.merge = some g → g.reply = none →
      (x.wbuf.filter (fun e => e.merge == some g)).any (fun e => x.busyBank (bankOf e.addr)) = false →
      ∃ t st, exec (.partialWordMerge v k) s = .next t ∧ Claims.acked s t v st [] ∧ s.vaultsKeptBut t [] ∧
        (∀ f ∈ (t.vault v).wbuf, f.merge ≠ some g) ∧ (t.vault v).wbuf.length = x.wbuf.length) ∧
    (∀ k e, x.waiting = [] → x.wbuf[k]? = some e → x.blocked (bankOf e.addr) = false →
      (x.wbuf.take k).any (fun f => f.addr / 128 == e.addr / 128) = false →
      ∃ t, exec (.writeBufferDrain v k) s = .next t ∧ (t.vault v).wbuf = dropAt x.wbuf k ∧ s.vaultsKeptBut t [])

/-- The weighted round-robin of vault ports, fabric ports and die links (06 R224, R225, 10 R400, 11 R418): it grants a
class as long as one requests; the class is the first at or after the pointer, among those that request, with a credit,
credits being loaded when no requesting class has one; the grant takes a credit and moves the pointer past the class. A
fourth class of weight 0 is granted only where no other requests, and takes no credit. -/
def Claims.ArbiterTurns : Prop :=
  ∀ (w : List Nat) (a : Arb) (req : List Bool),
    let asks := fun c => req.getD c false = true
    let idle := fun c => c = 3 ∧ w.getD 3 0 = 0
    (∀ c, c < 3 → w.getD c 0 ≠ 0) →
    (arbPick w a req = none ↔ ∀ c, c < 4 → ¬ asks c) ∧
    ∀ c b, arbPick w a req = some (c, b) → c < 4 ∧ asks c ∧
      (idle c → (∀ d, d < 3 → ¬ asks d) ∧ b.credit = a.credit ∧ b.ptr = 0) ∧
      (¬ idle c →
        let held := (∃ d, d < 4 ∧ asks d ∧ ¬ idle d ∧ 0 < a.credit.getD d 0)
        let has := fun d n => (held → n = a.credit.getD d 0) ∧ (¬ held → n = w.getD d 0)
        let past := fun d => (d + 4 - a.ptr % 4) % 4
        b.ptr = (c + 1) % 4 ∧ has c (b.credit.getD c 0 + 1) ∧ (∀ d, d ≠ c → has d (b.credit.getD d 0)) ∧
        ∀ d n, d < 4 → asks d → ¬ idle d → has d n → 0 < n → past c ≤ past d)

/-- Requests at a vault port: what each answers, and the arbiter that grants them. -/
def Obligations.VaultRequests : Prop :=
  Claims.VaultPortAnswers ∧ Claims.ArbiterTurns

/-- Rows and refresh (06 R221, R227 to R232): an idle row is closed; a refresh that is due moves its bank past the rows
due and owed, or is owed while the bank's unit is busy, at most 8, and the next falls due a fraction 1/4,096 of tREFW
after it did; the keeper goes on from there. The layers take the interval and timing of their zones, 1 ms and the hot set
where a reading is stale, the bands in band mode; REFRESH_RATE_UPDATE recomputes them every 100 microseconds. -/
def Claims.VaultRefresh : Prop :=
  ∀ (s : State) (v : Site) (b : Fin 128) (l : Fin 8),
    let x := s.vault v
    let u := s.settleRates v
    let y := (u.vault v).bank b
    let step := us ((u.vault v).layer (b / 16)).trefw
    let done := fun (t : State) =>
      let z := (t.vault v).bank b
      z.refPtr = (y.refPtr + y.debt + 1) % 4096 ∧ z.debt = 0 ∧ z.refAt = y.refAt + step ∧ z.lastUse = y.lastUse ∧
      (x.retired = [] → z.openRow = none) ∧ ∀ c, c ≠ b.val → (t.vault v).bank c = (u.vault v).bank c
    ((x.bank b).openRow ≠ none → (x.bank b).lastUse + 43 ≤ s.now →
      ∃ t, exec (.rowIdlePrecharge v b) s = .next t ∧ (t.vault v).bank b = { x.bank b with openRow := none } ∧
        ∀ c, c ≠ b.val → (t.vault v).bank c = x.bank c) ∧
    (x.keeper = false → u.refreshDue v b = true →
      (x.busyBank b = false → ∃ t, exec (.refresh v b) s = .next t ∧ done t) ∧
      (x.busyBank b = true → ∃ t, exec (.refresh v b) s = .next t ∧
        (t.vault v).bank b = { y with debt := Nat.min 8 (y.debt + 1), refAt := y.refAt + step })) ∧
    (x.keeper = true → u.refreshDue v b = true → x.busyBank b = false →
      ∃ t, exec (.keeperRefresh v b) s = .next t ∧ done t) ∧
    (x.rateAt + us 100 ≤ s.now →
      ∃ t, exec (.refreshRateUpdate v) s = .next t ∧ (t.vault v).layer l = s.layerNow v l ∧ (t.vault v).rateAt = s.now ∧
      (x.keeper = false → s.bandMode v = false → s.zoneStale v l = false →
        let k := max (s.zoneTemp v l) (s.zoneForecast v l) + 16
        (t.vault v).layer l = ⟨trefwOf k, k, decide (760 ≤ k) || ((x.layer l).hot && decide (736 ≤ k)), 0⟩)) ∧
    (x.keeper = false → s.bandMode v = false → s.zoneStale v l = true →
      ∃ t, exec (.zoneTempStale v l) s = .next t ∧ (t.vault v).layer l = ⟨1000, (x.layer l).temp, true, 3⟩) ∧
    (x.bandUntil ≠ 0 → x.bandUntil ≤ s.now →
      ∃ t, exec (.bandModeEnd v) s = .next t ∧ (t.vault v).bandUntil = 0 ∧
        (t.vault v).layer l = (s.setVault v { x with bandUntil := 0 }).layerNow v l)

/-- tREFW in microseconds at an applied temperature in eighths of a degree (06 R228): 8 ms * 2^((85 - t) / 10) rounded
down (the rounding is the model's), 32 ms at 65 degrees and below, 1 ms from 115 degrees on; it never grows with the
temperature. -/
def Obligations.RefreshIntervalFalls : Prop :=
  (∀ t : Int, t ≤ 520 → trefwOf t = 32000) ∧ (∀ t : Int, 920 ≤ t → trefwOf t = 1000) ∧
  (∀ t : Int, 520 < t → t < 920 →
    let up := (680 - t).toNat
    let down := (t - 680).toNat
    trefwOf t ^ 80 * 2 ^ down ≤ 8000 ^ 80 * 2 ^ up ∧ 8000 ^ 80 * 2 ^ up < (trefwOf t + 1) ^ 80 * 2 ^ down) ∧
  (∀ t u : Int, t ≤ u → trefwOf u ≤ trefwOf t)

/-- What a vault's controller does on command (06 R212, R213, R242 to R248, 07 R268): the fill and its tokens, the
scrub, hold and map, retirement, raw access. -/
def Claims.VaultUpkeep : Prop :=
  ∀ (s : State) (v : Site) (w : BitVec 32),
    let x := s.vault v
    let n := w.toNat
    let base := s.getF (Reg.vltScrubBase_base v) * 128
    let len := s.getF (Reg.vltScrubLen_len v) * 128
    let p := physAddr (s.frameBase v) x.scrubAt
    let row := rowOf (physAddr (s.frameBase v) (bits n 28 10 * 1024))
    let raw := physAddr (s.frameBase v) (s.getF (Reg.vltRawCtrl_addr v) * 8)
    (s.vaultState v ≠ vsInitBusy → s.vaultState v ≠ vsRetired →
      ∃ t, exec (.vltInit v) s = .next t ∧ t.vaultState v = vsInitBusy ∧ (t.vault v).mem = x.mem ∧
        (s.getF (Reg.bkuStatus_fill_token v) = 0 → s.getF (Reg.bkuStatus_fill_waiting v) = 0 →
          (t.getF (Reg.bkuStatus_fill_token v), t.getF (Reg.bkuStatus_fill_waiting v)) =
            if s.filling (towerOf v) < 64 ∧ s.fillWaits (towerOf v) = false then (1, 0) else (0, 1))) ∧
    (∀ (tw : Tower) k, (List.range 576).find? (fun k => s.on (Reg.bkuStatus_fill_waiting (576 * tw.val + k))) = some k →
      s.filling tw < 64 →
      ∃ t, exec (.fillTokenGrant tw) s = .next t ∧ t.getF (Reg.bkuStatus_fill_token (576 * tw.val + k)) = 1 ∧
        t.getF (Reg.bkuStatus_fill_waiting (576 * tw.val + k)) = 0) ∧
    (s.vaultState v = vsInitBusy → s.on (Reg.bkuStatus_fill_token v) = true → x.waiting = [] → x.running = [] →
      ∃ t, exec (.initFillDone v) s = .next t ∧ t.vaultState v = vsInService ∧ t.getF (Reg.bkuStatus_fill_token v) = 0 ∧
        ∀ b, b < vaultSize → x.retired.contains (rowOf (physAddr (s.frameBase v) b)) = false →
          t.vaultByte v b = (BitVec.ofNat 8 (s.getF (Reg.vltInitPattern_pattern v) / 2 ^ (8 * (b % 8))), false)) ∧
    (s.on (Reg.vltStatus_scrub_busy v) = false →
      (len ≠ 0 → base + len ≤ vaultSize → ∃ t, exec (.scrubStart v) s = .next t ∧
        t.getF (Reg.vltStatus_scrub_busy v) = 1 ∧ (t.vault v).scrubAt = base ∧ (t.vault v).scrubEnd = base + len) ∧
      (len = 0 ∨ vaultSize < base + len → ∃ t, exec (.scrubStart v) s = .next t ∧
        t.getF (Reg.vltStatus_scrub_busy v) = 0 ∧ t.getF (Reg.vltStatus_scrub_done v) = 1 ∧
        t.getF (Reg.vltStatus_scrub_refused v) = 1)) ∧
    (s.getF (Reg.vltStatus_scrub_busy v) = 1 →
      (∃ t, exec (.scrubAbort v) s = .next t ∧ (t.vault v).scrubStop = true ∧ t.getF (Reg.vltStatus_scrub_busy v) = 1) ∧
      (s.portOpen v = true → x.busyBank (bankOf p) = false →
        ∃ t, exec (.scrubGranule v) s = .next t ∧ (t.vault v).scrubAt = x.scrubAt + 64 ∧ s.vaultsKeptBut t [] ∧
          t.getF (Reg.vltStatus_scrub_busy v) = (if x.scrubEnd ≤ x.scrubAt + 64 ∨ x.scrubStop = true then 0 else 1) ∧
          (x.scrubEnd ≤ x.scrubAt + 64 → t.getF (Reg.vltStatus_scrub_done v) = 1))) ∧
    (∃ t, exec (.vltHold v true) s = .next t ∧ t.getF (Reg.vltCtrl_hold v) = 1 ∧ t.vaultHolds v = true) ∧
    (x.waiting = [] → ∃ t, exec (.vltHold v false) s = .next t ∧ t.getF (Reg.vltCtrl_hold v) = 0 ∧
      t.getF (Reg.vltStatus_held v) = 0) ∧
    (s.on (Reg.vltCtrl_hold v) = true → s.vaultQuiet v = true →
      ∃ t, exec (.vaultHeld v) s = .next t ∧ t.getF (Reg.vltStatus_held v) = 1) ∧
    (s.on (Reg.vltStatus_held v) = true → ∃ t, exec (.vltMapWrite v w) s = .next t ∧
      t.getF (Reg.vltMap_frame_base v) = Nat.min 32 (bits n 5 0) ∧ t.vault v = x) ∧
    (s.vaultState v ≠ vsRetired → x.retired.contains row = false → x.retired.length < 64 →
      ∃ t, exec (.vltRetire v w) s = .next t ∧ (t.vault v).retired = x.retired ++ [row] ∧
        t.getF (Reg.vltStatus_retired_rows v) = (x.retired.length + 1) % 2 ^ 7) ∧
    (s.vaultState v ≠ vsRetired → x.waiting = [] →
      ∃ t, exec (.retireVault v) s = .next t ∧ t.vaultState v = vsRetired ∧
        ∀ b, b < vaultSize → t.vaultByte v b = (0, true)) ∧
    (x.raw = none → s.on (Reg.vltCtrl_test_enable v) = true → bit n 30 = true →
      ∃ t, exec (.rawAccess v w) s = .next t ∧ (t.vault v).raw = some (s.portOpen v) ∧ t.getF (Reg.vltRawCtrl_done v) = 0 ∧
        t.getF (Reg.vltRawCtrl_addr v) = bits n 28 3 ∧ t.getF (Reg.vltRawCtrl_write v) = bits n 29 29) ∧
    (∀ begun, x.raw = some begun → (s.portOpen v = true ∨ begun = true ∧ s.vaultState v ≠ vsInitBusy) →
      x.blocked (bankOf raw) = false → x.wbuf = [] → s.vaultState v ≠ vsRetired →
      x.retired.contains (rowOf raw) = false →
      ∃ t, exec (.rawAccessDone v) s = .next t ∧ (t.vault v).raw = none ∧ t.getF (Reg.vltRawCtrl_done v) = 1 ∧
        (s.on (Reg.vltRawCtrl_write v) = true → EccMem.word (wordDefault v (t.vault v)) (t.vault v).mem (raw / 8) =
          ⟨BitVec.ofNat 64 (s.getF (Reg.vltRawData_data v)), BitVec.ofNat 8 (s.getF (Reg.vltRawCheck_check v))⟩) ∧
        (s.on (Reg.vltRawCtrl_write v) = false →
          let c := EccMem.word (wordDefault v x) x.mem (raw / 8)
          t.getF (Reg.vltRawData_data v) = c.d.toNat ∧ t.getF (Reg.vltRawCheck_check v) = c.c.toNat ∧
          s.vaultsKeptBut t []))

/-- What a vault controller does between requests: refresh, drain, scrub. -/
def Obligations.VaultService : Prop :=
  Claims.VaultRefresh ∧ Claims.VaultUpkeep

/-! ## Stage queues as bundles move -/

/-- A sender of this package asks for its bundle's place at a queue that records it (09 R332). -/
structure Claims.mayRecord (s : State) (x : Sender) : Prop where
  here : x.remote = false ∧ s.diePath (towerOf x.site) (towerOf x.dst) = .now
  calm : s.on (Reg.skyStatus_resetting (towerOf x.dst)) = false
  open_ : s.coreOn x.dst = true ∧ s.sqState x.dst = sqOpen
  fresh : (s.queue x.dst).requests.any (fun y => y.id == s.senderId x) = false ∧
    (s.queue x.dst).resident.any (fun b => b.id == s.senderId x && !b.whole) = false
  room : (s.queue x.dst).requests.length < 32

/-- A bundle of a queue is complete and marked lost, its missing words poisoned (09 R340). -/
def Claims.lost (s t : State) (q : Nat) (b : Bundle) : Prop :=
  t.getF (Reg.sqErr_lost q) = satAdd (fldWidth (Reg.sqErr_lost q)) (s.getF (Reg.sqErr_lost q)) 1 ∧
  ∃ c ∈ (t.queue q).resident, c.id = b.id ∧ c.lost = true ∧ c.header = lostHeader b.header ∧
    (∀ k, k < b.size → SMap.find b.words k = none → SMap.find c.words k = some ⟨0, true, true⟩) ∧
    (∀ k w, SMap.find b.words k = some w → SMap.find c.words k = some w)

/-- A bundle on its way through a stage queue (09 R327, R332 to R342, R358, 10 R388 to R390): its request is recorded,
it is placed, its words arrive one by one and its sender ends with the last; a POP at the head takes it; one that stalls
raises one event; one whose words are lost becomes complete and lost; queues open, close and forget. -/
def Obligations.BundleLife : Prop :=
  ∀ (s : State) (i : Site) (fmv : Bool),
    let e := sendEngine fmv
    let q := s.queue i
    let calm := fun (j : Nat) => (s.core j).sq = [] ∧ (s.core j).fmv = []
    (∀ x again, s.dueSender i fmv again = some x → Claims.mayRecord s x →
      ∃ t, exec (if again then .admissionRetry i fmv else .admissionRequest i fmv) s = .next t ∧
        t.sender? i e = some { x with st := .recorded } ∧
        (t.queue x.dst).requests = (s.queue x.dst).requests ++
          [{ id := s.senderId x, tag := 0, header := x.header, at_ := s.now, remote := false, abandoned := false }]) ∧
    (∀ r rs place x, q.requests = r :: rs → q.place (8 + 8 * hdrWords r.header) = some place → r.abandoned = false →
      s.sqState i ≠ sqLost → r.remote = false → s.localSender r.id = some x → x.words ≠ [] → calm x.site →
      ∃ t, exec (.bundleAdmit i) s = .next t ∧ (t.queue i).requests = rs ∧
        (t.queue i).wb = place.1 ∧ (t.queue i).wp = place.2.1 ∧
        (t.queue i).resident = q.resident ++ [{ id := r.id, header := r.header, bank := place.2.2.1, pos := place.2.2.2
                                                words := [], lost := false, lastWord := s.now, remote := false }] ∧
        t.sender? x.site x.engine = some { x with st := .admitted }) ∧
    (∀ x b w ok, s.sender? i e = some x → x.remote = false → x.st = .admitted → calm i →
      s.diePath (towerOf x.site) (towerOf x.dst) = .now →
      (s.queue x.dst).resident.find? (fun b => b.id == s.senderId x && !b.whole) = some b → x.words[x.next]? = some w →
      x.next < b.size →
      ∃ t, exec (.bundleWord i fmv ok) s = .next t ∧
        (∃ c ∈ (t.queue x.dst).resident, c.id = b.id ∧ c.words = SMap.insert x.next ⟨w.1, w.2, ok⟩ b.words) ∧
        (x.next + 1 < x.words.length → t.sender? i e = some { x with next := x.next + 1 }) ∧
        (x.words.length ≤ x.next + 1 → t.sender? i e = none)) ∧
    (∀ en b rest, (s.core i).sq = [en] → (s.core i).fmv = [] → (s.core i).synq = [] → s.sender? i 7 = none →
      iOp en.w.toNat = 1 → en.begun = false → en.copied = 0 → en.st = stOk → s.now < en.deadline → (∀ j, s.job? en.job = some j → j.site = i.val) →
      let f := popF en.w.toNat en.ops
      Claims.popOk s i f true b rest → 8 * b.size ≤ f.max →
      ∃ t, exec (.bundleAvailable i) s = .next t ∧ (t.queue i).resident = rest ∧ (t.core i).sq = [] ∧
        Claims.nearHolds t i f.d (Claims.payload b) ∧
        t.scratchHolds i f.h.ea (clean (toLE 8 b.header.toNat ++ toLE 4 (8 * b.size) ++ List.replicate 4 0))) ∧
    (∀ r rs k, q.requests = r :: rs → s.getF (Reg.sqStall_us i) ≠ 0 → q.stallSent = false →
      r.at_ + us (s.getF (Reg.sqStall_us i)) < s.now → chanOfSite s.chans i = some k →
      ∃ t, exec (.sqStall i) s = .next t ∧ t.queue i = { q with stallSent := true } ∧
        t.events = s.events ++ [{ eq := (s.chan k).eq, kind := 6, site := i, handle := s.handle k, status := stOk
                                  engine := 0, itag := 0, value := r.id.src, addr := 0 }]) ∧
    (∀ b src engine seq, q.resident.find? (fun b => b.id == ⟨src, engine, seq⟩ && !b.whole) = some b →
      s.localSender b.id = none → ∃ t, exec (.bundleLost i src engine seq) s = .next t ∧ Claims.lost s t i b) ∧
    (∀ b k, q.resident[k]? = some b → b.whole = false → b.lastWord + 2 * s.lifetime (towerOf i) ≤ s.now →
      s.localSender b.id = none → ∃ t, exec (.bundleWordTimeout i k) s = .next t ∧ Claims.lost s t i b) ∧
    (∃ t, exec (.bundleMemoryExpire i) s = .next t ∧
      t.queue i = { q with remembered := q.remembered.filter (fun e => decide (s.now < e.2)) }) ∧
    (∃ t, exec (.bundleSeqFree i fmv) s = .next t ∧ (t.seqCtr i e).next = (s.seqCtr i e).next ∧
      ∀ b, b ∈ (t.seqCtr i e).busy ↔ b ∈ (s.seqCtr i e).busy ∧ (∀ k, b.2 = some k → s.now < k)) ∧
    (s.coreOn i = true → s.sqState i ≠ sqLost →
      (∃ t, exec (.sqOpenWrite i true) s = .next t ∧ t.sqState i = sqOpen ∧ t.getF (Reg.sqCtrl_open i) = 1) ∧
      (s.senders = [] → (∀ c ∈ s.cores, c.2.sq = [] ∧ c.2.fmv = []) →
        ∃ t, exec (.sqOpenWrite i false) s = .next t ∧ t.sqState i = sqClosed ∧ t.getF (Reg.sqCtrl_open i) = 0 ∧
          (t.queue i).resident = [] ∧ (t.queue i).requests = []))

/-! ## Packets -/

/-- The tower of a packet's site admits the packet (10 R385). -/
structure Claims.admits (s : State) (k : Packet) (q : Nat) : Prop where
  calm : s.on (Reg.skyStatus_resetting (towerOf q)) = false
  known : (s.tower (towerOf q)).refusals.contains (sourceBit k.src) = false
  plain : k.resync = false ∧ s.on (Reg.skyInject_refuse (towerOf q)) = false

/-- A port of a tower can send a packet at once (10 R377, R379, R386, R400). -/
structure Claims.sends (s : State) (g o : Nat) (k : Packet) : Prop where
  weight : 0 < (s.skyWeights g).getD k.cls 0
  credit : flitsOf k ≤ (s.port g o).retry.credit.getD (creditId k) 0
  room : (s.port g o).retry.buf.length + flitsOf k ≤ replaySize
  young : s.expired g k = false

/-- The next thing sent outward is a packet by a port; its flits follow. -/
def Claims.leaves (s t : State) (g o : Nat) (k : Packet) : Prop := ∃ w, t.out = s.out ++ .packet g o k :: w

/-- An answer leaves toward a packet's source by the port of the site's tower that spray takes, if it can send at once
(10 R370, R374). -/
def Claims.answered (s t : State) (q : Nat) (k : Packet) (op st : Nat) (data : List PByte) : Prop :=
  let a := answerOf k op st (s.vidOf q) data
  let g := towerOf q
  ∀ cand o, s.route g (vidNode k.src) = some (g, cand) → s.sprayPort g cand (s.tower g).sprayRsp a = some o →
    Claims.sends s g o a → Claims.leaves s t g o a

/-- Requests that reach a vault of this package and can be served now, on clean words (10 R392 to R394): what each does
and the answer that goes back. -/
def Obligations.RequestPacketsServed : Prop :=
  ∀ (s : State) (tw : Tower) (p : Fin 32) (k : Packet) (q : Nat), Claims.admits s k q →
    let o := destOff k
    let free := fun (r : VReq) => (s.vault q).waiting = [] ∧ s.reqReady q false r = true ∧
      s.piecesClean [⟨.vault q (o / 8 * 8), 0, 8⟩, ⟨.vault q o, 0, r.len⟩]
    (Claims.arrives s tw p k clsReq 0 q → free (.read o k.aux) → 0 < k.aux →
      ∃ t, exec (.read tw p k) s = .next t ∧ Claims.answered s t q k 0 stOk (s.peekVault q o k.aux) ∧ s.vaultsKeptBut t []) ∧
    (Claims.arrives s tw p k clsReq 1 q → free (.write o k.payload) → k.payload ≠ [] → anyPoison k.payload = false →
      (s.vault q).watches = [] →
      ∃ t, exec (.write tw p k) s = .next t ∧ t.vaultHolds8 q o k.payload ∧ s.vaultKept t q o k.payload.length ∧
        (partialWords o k.payload.length = false → Claims.answered s t q k 1 stOk []) ∧
        (partialWords o k.payload.length = true → t.out = s.out)) ∧
    (let nb := if bit k.aop 4 then 8 else 4
      let old := leP (s.peekVault q o nb)
      Claims.arrives s tw p k clsReq 2 q →
      free (.atomic o (bits k.aop 3 0) (bit k.aop 4) (k.payload.take 8) (slice k.payload 8 8)) → o % nb = 0 →
      anyPoison k.payload = false → (s.vault q).watches = [] →
      ∃ t, exec (.atomic tw p k) s = .next t ∧ Claims.answered s t q k 2 stOk (clean (toLE 8 old)) ∧
        t.vaultHolds8 q o (clean (toLE nb (atomicOp (8 * nb) (bits k.aop 3 0) old (leP ((k.payload.take 8).take nb))
          (leP ((slice k.payload 8 8).take nb))))) ∧ s.vaultKept t q o nb) ∧
    (Claims.arrives s tw p k clsReq 3 q → free (.watch o (.remote k.src k.srcEngine k.tag 0)) →
      (s.vault q).watches.length < watchMax → o % 8 = 0 →
      ∃ t, exec (.watchArm tw p k) s = .next t ∧ Claims.answered s t q k 3 stOk (s.peekVault q o 8) ∧
        (t.vault q).watches = (s.vault q).watches ++ [⟨o, .remote k.src k.srcEngine k.tag 0⟩]) ∧
    (Claims.arrives s tw p k clsReq 4 q →
      ∃ t, exec (.watchCancel tw p k) s = .next t ∧ Claims.answered s t q k 1 stOk [] ∧
        ∀ w, w ∈ (t.vault q).watches ↔ w ∈ (s.vault q).watches ∧ cancels k w = false)

/-- A REQ packet of a site is the only one outstanding, and its job waits for more after it. -/
structure Claims.oneOut (s : State) (x : Sent) (i : Site) (j : Job) : Prop where
  only : s.sent = [x] ∧ x.ans = none
  site : x.site = i.val ∧ x.pkt.cls = clsReq
  idle : (s.core i).sq = [] ∧ (s.core i).fmv = [] ∧ (s.core i).kvq = [] ∧ (s.core i).kvRun = []
  job : s.job? x.job = some j ∧ 2 ≤ j.left

/-- Its packet has ended: the job notes the part, and the tag rests for a lifetime (10 R387). -/
structure Claims.partEnded (s t : State) (x : Sent) (j : Job) (st : Nat) : Prop where
  gone : t.sent = []
  job : t.job? x.job = some (j.part x.dest.pos st)
  rests : SMap.get (fun _ => 0) t.quarantine (tagKey x.pkt.src x.pkt.tag) = s.now + s.lifetime x.tower

/-- Answers to the one outstanding packet of a site (10 R374, R384, R387, R394): data go to the scratchpad, the part
ends with the answer's status, a WATCH_ACK shows its WAIT the flag; a packet refused by a resetting node is held with
its entry; an admitted bundle sends its DATA packets, an accepted one ends its sender. -/
def Obligations.AnswerPacketsComplete : Prop :=
  ∀ (s : State) (tw : Tower) (p : Fin 32) (k : Packet) (q : Nat) (x : Sent) (i : Site) (j : Job),
    s.sentBy (destVid k) k.tag = some x →
    (Claims.oneOut s x i j →
      (∀ a, Claims.arrives s tw p k clsRsp 0 q → x.pkt.op = 0 → x.dest = .scratch i a → s.scratchClean i 0 scratchSize →
        a + k.payload.length ≤ scratchSize → anyPoison k.payload = false →
        ∃ t, exec (.readData tw p k) s = .next t ∧ Claims.partEnded s t x j k.status ∧ t.scratchHolds i a k.payload ∧
          s.scratchKept t i a k.payload.length) ∧
      (∀ a, Claims.arrives s tw p k clsRsp 1 q → x.pkt.op = 1 → x.dest = .part a →
        ∃ t, exec (.writeAck tw p k) s = .next t ∧ Claims.partEnded s t x j k.status) ∧
      (∀ a, Claims.arrives s tw p k clsRsp 2 q → x.pkt.op = 2 → x.dest = .part a →
        ∃ t, exec (.atomicOld tw p k) s = .next t ∧ Claims.partEnded s t x j k.status) ∧
      (∀ a, Claims.arrives s tw p k clsRsp 5 q → k.status = stNoResource → x.pkt.op = 1 → x.dest = .part a →
        ∃ t, exec (.refuse tw p k) s = .next t ∧ Claims.partEnded s t x j k.status)) ∧
    (∀ w, Claims.arrives s tw p k clsRsp 3 q → s.sent = [x] → x.ans = none → x.site = i.val → x.pkt.cls = clsReq →
      x.pkt.op = 3 → x.dest = .none → s.waiting i = some w → s.armedBy i x.pkt.tag = some w → w.armed = false →
      k.status = stOk → anyPoison k.payload = false → (s.core i).sq = [] → (s.core i).fmv = [] → (s.core i).kvq = [] →
      (s.core i).kvRun = [] →
      ∃ t, exec (.watchAck tw p k) s = .next t ∧ Claims.sees s t i { w with armed := true } k.payload) ∧
    (Claims.arrives s tw p k clsRsp 5 q → k.status = stNodeResetting → s.sent = [x] →
      ∃ t, exec (.refuse tw p k) s = .next t ∧
        bit (t.entry x.tower (vidNode (destVid x.pkt))) 3 = true ∧
        t.sent = [{ x with st := .refused, why := stNodeResetting, since := s.now
                           firstRefusal := if x.firstRefusal = 0 then s.now + 1 else x.firstRefusal }]) ∧
    (∀ y, s.senderOf x = some y → s.sent = [x] → x.pkt.cls = clsTok → s.senders = [y] →
      (Claims.arrives s tw p k clsRsp 6 q → x.pkt.op = 0 → y.st = .recorded → y.words ≠ [] →
        ∃ t, exec (.admitted tw p k) s = .next t ∧ t.senders = [{ y with st := .admitted }] ∧
          t.sent.length = ceilDiv y.words.length 32 ∧ ∀ z ∈ t.sent, z.pkt.cls = clsTok ∧ z.pkt.op = 1 ∧ z.job = y.job) ∧
      (Claims.arrives s tw p k clsRsp 7 q → x.pkt.op = 1 → (s.core y.site).sq = [] → (s.core y.site).fmv = [] →
        ∃ t, exec (.accepted tw p k) s = .next t ∧ t.senders = []))

/-- TOK and MGT packets of other nodes (10 R368 to R374, R388, R396): a bundle is requested, its words arrive, it is
given up; a PING is answered by a PONG of its payload; STATE goes to the management cores; answers nobody waits for and
packets of reserved opcodes are discarded and counted; a packet for another node goes on by the port of its flow with
its hop used. -/
def Claims.OtherPackets : Prop :=
  ∀ (s : State) (tw : Tower) (p : Fin 32) (k : Packet) (q : Nat),
    let Q := s.queue q
    let y := Claims.aged s tw p k
    let mine := Claims.quietFabric s ∧ s.mayTake tw k = true
    let lost := fun (t : State) => t.getF (Reg.skyCntLost_discarded tw) =
      satAdd (fldWidth (Reg.skyCntLost_discarded tw)) (s.getF (Reg.skyCntLost_discarded tw)) 1
    (Claims.admits s k q →
      (Claims.arrives s tw p k clsTok 0 q → s.coreOn q = true → s.sqState q = sqOpen →
        Q.requests.any (fun r => r.id == bundleOf k) = false →
        Q.resident.any (fun b => b.id == bundleOf k && !b.whole) = false → Q.requests.length < 32 →
        ∃ t, exec (.admitPkt tw p k) s = .next t ∧ t.out = s.out ∧ (t.queue q).requests = Q.requests ++
          [{ id := bundleOf k, tag := k.tag, header := headerOf k, at_ := s.now, remote := true, abandoned := false }]) ∧
      (∀ b bad, Claims.arrives s tw p k clsTok 1 q → Q.resident.find? (fun b => b.id == bundleOf k && !b.whole) = some b →
        k.aux + k.payload.length / 8 ≤ b.size →
        ∃ t, exec (.dataTok tw p ⟨k, bad⟩) s = .next t ∧ ∃ c ∈ (t.queue q).resident, c.id = b.id ∧
          (∀ n, n < k.payload.length / 8 → SMap.find c.words (k.aux + n) = (wordsOfPkt k bad)[n]?) ∧
          (∀ n, n < k.aux ∨ k.aux + k.payload.length / 8 ≤ n → SMap.find c.words n = SMap.find b.words n) ∧
          (c.whole = true → Claims.answered s t q k 7 stOk [])) ∧
      (∀ b, Claims.arrives s tw p k clsTok 2 q → s.sqState q = sqOpen →
        Q.resident.find? (fun b => b.id == bundleOf k && (b.lost || !b.whole)) = some b → b.whole = false →
        ∃ t, exec (.abandon tw p k) s = .next t ∧ Claims.lost s t q b ∧ Claims.answered s t q k 7 stPoisoned [])) ∧
    (∀ cand o, Claims.arrives s tw p k clsMgt 0 q →
      let a : Packet := { Packet.blank with
        cls := clsMgt, op := 1, srcEngine := 12, length := k.length, tag := k.tag, dst := k.src * 2 ^ 32
        src := s.towerVid (towerOf q), payload := k.payload }
      s.route tw (vidNode k.src) = some (tw.val, cand) → s.sprayPort tw cand (s.tower tw).sprayMgt a = some o →
      Claims.sends s tw o a → ∃ t, exec (.ping tw p k) s = .next t ∧ Claims.leaves s t tw o a) ∧
    (Claims.arrives s tw p k clsMgt 1 q → ∃ t, exec (.pong tw p k) s = .next t ∧ lost t ∧ t.out = s.out) ∧
    (Claims.arrives s tw p k clsMgt 2 q → ∃ t, exec (.stateMgt tw p k) s = .next t ∧
      t.out = s.out ++ [.message (k.payload.map Prod.fst)]) ∧
    (Claims.arrives s tw p k clsMgt 5 q → ∃ t, exec (.regData tw p k) s = .next t ∧ lost t ∧ t.out = s.out) ∧
    (s.portIsUp tw p = true → reservedPkt k.cls k.op = true → mine → s.expired tw y = false →
      ∃ t, exec (.fabricReservedPacket tw p k) s = .next t ∧ lost t ∧ t.out = s.out) ∧
    (∀ cand, s.portIsUp tw p = true → reservedPkt k.cls k.op = false → vidNode (destVid k) ≠ s.nodeOf tw → mine →
      s.expired tw y = false → y.hopsLeft = true → s.route tw (vidNode (destVid k)) = some (tw.val, cand) →
      let z := { y with hopsLeft := false }
      let go := fun o => Claims.sends s tw o z → ∃ t, exec (.packetForward tw p k) s = .next t ∧ Claims.leaves s t tw o z
      ((k.cls = clsReq ∨ k.cls = clsTok) →
        s.portIsUp tw (flowPort cand k.src (destVid k) k.srcEngine) = true →
        go (flowPort cand k.src (destVid k) k.srcEngine)) ∧
      ((k.cls = clsRsp ∨ k.cls = clsMgt) → ∀ o,
        s.sprayPort tw cand (if k.cls = clsRsp then (s.tower tw).sprayRsp else (s.tower tw).sprayMgt) z = some o → go o))

/-- Packets of this package that wait, are refused or are lost (10 R372, R382, R384, R387): the only outstanding packet
is declared lost after 2 lifetimes, given up without a port after reroute_ms, sent again with resync where it was
refused, given up 100 ms after its first refusal; a waiting packet goes as soon as it may. -/
def Claims.SourceTimers : Prop :=
  ∀ (s : State) (x : Sent) (i : Site) (j : Job) (node : BitVec 20),
    (∀ a, Claims.oneOut s x i j → x.dest = .part a →
      (x.st = .flying → x.pkt.op = 1 → x.since + 2 * s.lifetime x.tower ≤ s.now →
        ∃ t, exec (.packetLostTimeout 0) s = .next t ∧ Claims.partEnded s t x j stFabricLost ∧
          t.getF (Reg.skyCntLost_declared x.tower) = satAdd (fldWidth (Reg.skyCntLost_declared x.tower))
            (s.getF (Reg.skyCntLost_declared x.tower)) 1 ∧ t.on (Reg.skyLostFirst_valid x.tower) = true) ∧
      (x.st = .waiting → x.noPort ≠ 0 → x.noPort + ms (s.getF (Reg.skyE2e_reroute_ms x.tower)) ≤ s.now + 1 →
        s.portless x = true →
        ∃ t, exec (.rerouteTimeout 0) s = .next t ∧ Claims.partEnded s t x j stUnreachable) ∧
      (∀ tw : Tower, tw.val = x.tower → x.st = .refused → vidNode (destVid x.pkt) = node.toNat →
        x.firstRefusal + ms 100 ≤ s.now + 1 →
        ∃ t, exec (.refusalGiveUp tw node) s = .next t ∧ Claims.partEnded s t x j x.why ∧
          bit (t.entry x.tower node.toNat) 3 = false)) ∧
    (∀ (tw : Tower) g cand, tw.val = x.tower → s.sent = [x] → x.st = .refused → vidNode (destVid x.pkt) = node.toNat →
      x.since + us 10 ≤ s.now → s.route x.tower node.toNat = some (g, cand) → s.portless x = false →
      ∃ t, exec (.refusalResend tw node) s = .next t ∧ bit (t.entry x.tower node.toNat) 3 = false ∧
        t.sent = [{ x with pkt := { x.pkt with resync := true }, st := .flying, since := s.now
                           port := 32 * g + flowPort cand x.pkt.src (destVid x.pkt) x.pkt.srcEngine }]) ∧
    (∀ k g p, s.sent[k]? = some x → x.st = .waiting → s.mayGo x (s.sent.take k) = some (g, p) →
      ∃ t, exec (.flowPortChange k) s = .next t ∧
        t.sent[k]? = some { x with st := .flying, port := 32 * g + p, since := s.now })

/-- The other packets of the fabric, and the timers of a source. -/
def Obligations.PacketsAndTimers : Prop :=
  Claims.OtherPackets ∧ Claims.SourceTimers

/-! ## Fabric ports and die links -/

/-- A good flit (10 R376, 11 R414): its check matches, it acknowledges and asks for nothing new, and it is in order. -/
structure Claims.inOrder (r : Retry) (w : Nat) : Prop where
  quiet : bits w 23 12 = r.acked ∧ bit w 24 = false
  next : bits w 11 0 = r.expect

/-- Flits and acknowledgements of a fabric port and a die link (10 R376, R379, R380, 11 R414, R416, R417, 16 R591): one
in order is received and counted, every 32nd (16th) owed acknowledgement at once; one whose check fails is counted,
recorded, not received and answered by a nak; what is owed goes out after 64 ns (8 ns); a nak has the replay buffer sent
again, the 16th in a row retrains the port; a port without progress for 10 µs, and a die link for 2 µs, retrain. -/
def Claims.FlitsReceived : Prop :=
  ∀ (s : State) (tw : Tower) (p : Fin 32) (l : Fin 8) (flit : List Byte) (tr : BitVec 64),
    let w := tr.toNat
    let r := (s.port tw p).retry
    let d := (s.link l).retry
    let calm := Claims.quietFabric s ∧ (s.tower tw).unsprayed = []
    (s.portIsUp tw p = true →
      (calm → crc24 flit w = bits w 63 40 → flit ≠ [] → Claims.inOrder r w →
        ∃ t, exec (.fabricFlit tw p flit tr) s = .next t ∧ (t.port tw p).retry.expect = (r.expect + 1) % 4096 ∧
          (t.port tw p).retry.owed = (if r.owed + 1 < 32 then r.owed + 1 else 0) ∧ (t.port tw p).retry.buf = r.buf ∧
          (t.port tw p).retry.credit.getD (bits w 27 25) 0 = r.credit.getD (bits w 27 25) 0 + bits w 35 28 ∧
          t.getF (Reg.skyCntRx_flits tw) = wrapAdd (fldWidth (Reg.skyCntRx_flits tw)) (s.getF (Reg.skyCntRx_flits tw)) 1) ∧
      (crc24 flit w ≠ bits w 63 40 →
        ∃ t, exec (.fabricFlit tw p flit tr) s = .next t ∧ (t.port tw p).retry = { r with nakSent := true }.controlSent ∧
          (∃ x, t.out = s.out ++ [.flit tw p [] x] ∧ bit x 24 = true) ∧
          t.getF (Reg.optPortErr_crc tw p) =
            satAdd (fldWidth (Reg.optPortErr_crc tw p)) (s.getF (Reg.optPortErr_crc tw p)) 1 ∧
          t.records = s.records ++ [mkRecord s 0 8 (0xF000 + tw.val) 0 9 (32 * tw.val + p.val) r.expect]) ∧
      (calm → crc24 [] w = bits w 63 40 → bits w 23 12 = r.acked → bit w 24 = true →
        bits w 11 0 = (r.expect + 4095) % 4096 → bit s.usablePorts p = true →
        ∃ t, exec (.fabricFlit tw p [] tr) s = .next t ∧ (t.port tw p).retry.naks = r.naks + 1 ∧
          (t.port tw p).retry.buf = r.buf ∧
          t.getF (Reg.optPortErr_replays tw p) =
            satAdd (fldWidth (Reg.optPortErr_replays tw p)) (s.getF (Reg.optPortErr_replays tw p)) 1 ∧
          t.getF (Reg.skyCntTx_flits tw) =
            wrapAdd (fldWidth (Reg.skyCntTx_flits tw)) (s.getF (Reg.skyCntTx_flits tw)) r.buf.length ∧
          t.portState tw p = (if 16 ≤ r.naks + 1 then ptRetrain else portUp)) ∧
      (r.buf ≠ [] → r.ackAt + us 10 ≤ s.now → bit s.usablePorts p = true → (s.port tw p).tx.q = [] →
        ∃ t, exec (.fabricNoProgress tw p) s = .next t ∧ t.portState tw p = ptRetrain ∧
          t.port tw p = { s.port tw p with since := s.now })) ∧
    (r.owed ≠ 0 → r.owedAt + 64 ≤ s.now →
      ∃ t, exec (.fabricAckTimer tw p) s = .next t ∧ (t.port tw p).retry = r.controlSent ∧ (t.port tw p).retry.owed = 0) ∧
    (s.linkState l = lkActive →
      (calm → crc16 flit w = bits w 63 48 → flit ≠ [] → Claims.inOrder d w → s.on (Reg.dlkInject_crc l) = false →
        ∃ t, exec (.dieLinkFlit l flit tr) s = .next t ∧ (t.link l).retry.expect = (d.expect + 1) % 4096 ∧
          (t.link l).retry.owed = (if d.owed + 1 < 16 then d.owed + 1 else 0) ∧ (t.link l).retry.buf = d.buf) ∧
      (crc16 flit w ≠ bits w 63 48 → s.on (Reg.dlkInject_crc l) = false →
        ∃ t, exec (.dieLinkFlit l flit tr) s = .next t ∧ (t.link l).retry = { d with nakSent := true }.controlSent ∧
          (∃ x, t.out = s.out ++ [.dieFlit l [] x] ∧ bit x 24 = true) ∧
          t.getF (Reg.dlkLinkErr_crc l) = satAdd (fldWidth (Reg.dlkLinkErr_crc l)) (s.getF (Reg.dlkLinkErr_crc l)) 1 ∧
          t.records = s.records ++ [mkRecord s 0 9 0xFFFF 0 13 l d.expect]) ∧
      (∀ far, (far = true ∨ d.buf ≠ [] ∧ d.ackAt + us 2 ≤ s.now) →
        ∃ t, exec (.dieLinkNoProgress ⟨l, far⟩) s = .next t ∧ t.linkState l = lkRetrain ∧ t.link l = { s.link l with since := s.now } ∧
        t.getF (Reg.dlkLinkErr_retrains l) =
          satAdd (fldWidth (Reg.dlkLinkErr_retrains l)) (s.getF (Reg.dlkLinkErr_retrains l)) 1)) ∧
    (d.owed ≠ 0 → d.owedAt + 8 ≤ s.now →
      ∃ t, exec (.dieLinkAckTimer l) s = .next t ∧ (t.link l).retry = d.controlSent ∧ (t.link l).retry.owed = 0)

/-- What a transmitter of a port or of a die link sends next (10 R400, 11 R418): a packet that nothing of its line waits in
front of and that may go; of its class, packets in transit of a higher rank go first, and the local sources take turns by
site and engine from the pointer on, which moves past the winner. -/
def Claims.LinksTakeTurns : Prop :=
  ∀ (x y : Tx) (w : List Nat) (rank : TxEnt → Nat) (ok : TxEnt → Bool) (e : TxEnt), x.pick w rank ok = some (e, y) →
    let c := e.pkt.cls
    let p := x.rr.getD c 0
    let rivals := fun f => f ∈ x.heads rank ∧ f.pkt.cls = c ∧ ok f = true
    rivals e ∧ y.q = x.q.erase e ∧
    (∀ f, rivals f → rank f = 1 ∨ rank f = 2 → rank f ≤ rank e) ∧
    (rank e = 0 → y.rr = x.rr.set c (sourceKey e.pkt + 1) ∧ ∀ f, rivals f →
      (p ≤ sourceKey e.pkt ∧ (p ≤ sourceKey f.pkt → sourceKey e.pkt ≤ sourceKey f.pkt)) ∨
      (sourceKey f.pkt < p ∧ sourceKey e.pkt ≤ sourceKey f.pkt)) ∧
    (rank e ≠ 0 → y.rr = x.rr) ∧ ∃ req, arbPick w x.arb req = some (c, y.arb)

/-- A packet for a neighbouring die crosses the link between them, where it is ACTIVE and its end has room for the flits
(11 R414 to R416, R418): it lands at its site there. The reporting end's flits, 56 bytes of the packet in each, go out and
stay for replay; the far end's are flits of the peer. -/
def Claims.DieLinksCarry : Prop :=
  ∀ (s : State) (l : Fin 8) (far : Bool) (e : TxEnt) (tw q : Nat) (bad : List Nat),
    let d := if far then (linkEnds l).2 else (linkEnds l).1
    let h := if far then (linkEnds l).1 else (linkEnds l).2
    let t := (s.cross d e).pump
    s.linkState l = lkActive → Claims.quietFabric s → s.failover = none → e.die = h → s.nextHop d h = h → e.hop < 3 →
    e.pkt.cls < 4 → (s.link l).room far e = true → e.goal = .site tw q bad →
    t.landed = [.site tw q e.pkt bad] ∧ (far = true → t.out = s.out) ∧
    (far = false → ∃ w, t.out = s.out ++ w ∧ w.length = ceilDiv (pktWords e.pkt).length 56 ∧
      (t.link l).retry.buf.length = (s.link l).retry.buf.length + w.length)

/-- Flits of ports and die links, the order in which packets are sent, and how one crosses a die link. -/
def Obligations.FlitsInOrder : Prop :=
  Claims.FlitsReceived ∧ Claims.LinksTakeTurns ∧ Claims.DieLinksCarry

/-- The states of a fabric port (10 R361, R363, R364, R377, R380, R403): training ends UP, with its peer's credit, or DEAD, a
retrain within 1 ms ends
UP with the flits sent again that its peer lacks, or DEAD; a port without light stays so; one that is disabled carries
nothing, one that is enabled or told to retrain
trains where its tower may; light that fails leaves the ports it feeds in NO_LIGHT, light that returns leaves them DEAD. -/
def Claims.PortStates : Prop :=
  ∀ (s : State) (tw : Tower) (p : Fin 32) (x : TrainedPeer), bit s.usablePorts p = true →
    let st := s.portState tw p
    let up := fun (t : State) => t.portState tw p = portUp ∧ t.getF (Reg.optPortStatus_peer_node tw p) = x.node.toNat ∧
      t.getF (Reg.optPortStatus_peer_port tw p) = x.port.toNat ∧ t.getF (Reg.optPortStatus_delay_ns tw p) = x.delay.toNat
    let empty := fun (t : State) => (t.port tw p).retry.buf = [] ∧ (t.port tw p).retry.owed = 0
    let calm := s.sent = [] ∧ Claims.quietFabric s ∧ (s.tower tw).unsprayed = []
    let dead := fun (t : State) => t.portState tw p = ptDead ∧ empty t ∧
      t.records = s.records ++ [mkRecord s 1 8 (0xF000 + tw.val) 0 10 (32 * tw.val + p.val) (s.port tw p).retry.expect]
    (st = ptTraining → s.mayTrain tw = false → ∀ y, exec (.portTrained tw p y) s = .next s) ∧
    (st = ptTraining → s.mayTrain tw = true → calm →
      (∃ t, exec (.portTrained tw p (some x)) s = .next t ∧ up t ∧ empty t ∧ (t.port tw p).retry.expect = 0 ∧
        (t.port tw p).retry.next = 0 ∧
        ∀ k, k < 8 → (t.port tw p).retry.credit.getD k 0 = 8 * bits x.split.toNat (8 * k + 7) (8 * k)) ∧
      (∃ t, exec (.portTrained tw p none) s = .next t ∧ t.portState tw p = ptDead ∧ empty t)) ∧
    (st = ptRetrain → calm →
      (s.portFails tw p = false → s.now ≤ (s.port tw p).since + ms 1 →
        ∃ t, exec (.fabricRetrainEnd tw p (some x)) s = .next t ∧ up t ∧
          (t.port tw p).retry.buf = ((s.port tw p).retry.arrived x.expect.toNat s.now).buf ∧
          (t.port tw p).retry.naks = 0 ∧ (t.port tw p).retry.ackAt = s.now ∧
          t.getF (Reg.optPortErr_replays tw p) =
            satAdd (fldWidth (Reg.optPortErr_replays tw p)) (s.getF (Reg.optPortErr_replays tw p)) 1) ∧
      (s.portFails tw p = false → (s.port tw p).since + ms 1 < s.now →
        ∃ t, exec (.fabricRetrainEnd tw p (some x)) s = .next t ∧ dead t) ∧
      (∃ t, exec (.fabricRetrainEnd tw p none) s = .next t ∧ dead t)) ∧
    ((st = ptDead ∨ st = ptDisabled) → s.mayTrain tw = true → s.on (Reg.optPortCtrl_enable tw p) = true →
      ∃ t, exec (.portRetrain tw p) s = .next t ∧ t.portState tw p = ptTraining ∧ empty t) ∧
    (∀ b, st = ptNoLight → ∃ t, exec (.portEnableWrite tw p b) s = .next t ∧ t.portState tw p = ptNoLight ∧
      t.getF (Reg.optPortCtrl_enable tw p) = b2n b) ∧
    (st ≠ ptAbsent → st ≠ ptNoLight →
      (∃ t, exec (.portEnableWrite tw p false) s = .next t ∧ t.portState tw p = ptDisabled ∧ empty t ∧
        t.getF (Reg.optPortCtrl_enable tw p) = 0) ∧
      (st = ptDisabled → s.mayTrain tw = true →
        ∃ t, exec (.portEnableWrite tw p true) s = .next t ∧ t.portState tw p = ptTraining ∧
          t.getF (Reg.optPortCtrl_enable tw p) = 1)) ∧
    (∃ t, exec (.skyCtrlEnableWrite tw false) s = .next t ∧ t.getF (Reg.skyCtrl_enable tw) = 0 ∧
      t.portState tw p = (if st = ptTraining ∨ st = portUp ∨ st = ptRetrain then ptDisabled else st)) ∧
    (s.on (Reg.skyStatus_node_mismatch tw) = false → st = ptDisabled → s.on (Reg.optPortCtrl_enable tw p) = true →
      ∃ t, exec (.skyCtrlEnableWrite tw true) s = .next t ∧ t.getF (Reg.skyCtrl_enable tw) = 1 ∧
        t.portState tw p = ptTraining) ∧
    (∀ (e : Fin 4) (b : Bool) (power : BitVec 8), p.val / 8 = e.val → (p.val % 8 / 4 = 1 ↔ b = true) →
      (power.toInt < 70 → ∃ t, exec (.laserLow tw e b power) s = .next t ∧ t.portState tw p = ptNoLight) ∧
      (70 ≤ power.toInt → ∃ t, exec (.laserRestored tw e b power) s = .next t ∧
        t.portState tw p = (if st = ptNoLight then ptDead else st)))

/-- The writes of a tower's SKY block (10 R361, R364 to R367, R378): the node ID only while the tower is disabled, and
node_mismatch tells whether it differs from that of T0; the credit split only while every port is at rest, within 256 and
with no part of 0, else cfg_err; a routing entry keeps its five fields, without the ports that are fused off. -/
def Claims.FabricRegisterWrites : Prop :=
  ∀ (s : State) (tw : Tower) (v : BitVec 32) (w : BitVec 64),
    let n := bits v.toNat 19 0
    let fields := (List.range 8).map (fun k => bits w.toNat (8 * k + 7) (8 * k))
    let atRest := ∀ p, p < 32 → s.portState tw p ∈ [ptAbsent, ptDisabled, ptDead, ptNoLight]
    (s.on (Reg.skyCtrl_enable tw) = false → n ≠ 0xFFFFF →
      ∃ t, exec (.skyNodeWrite tw v) s = .next t ∧ t.nodeOf tw = n ∧ (∀ u, u < 4 → u ≠ tw.val → t.nodeOf u = s.nodeOf u) ∧
        ∀ u, u < 4 → t.getF (Reg.skyStatus_node_mismatch u) = b2n (t.nodeOf u != t.nodeOf 0)) ∧
    (atRest → 0 ∉ fields → fields.sum ≤ 256 →
      ∃ t, exec (.skyCreditWrite tw w) s = .next t ∧ t.reg (Reg.skyCredit_req0 tw).off = w) ∧
    (¬ (atRest ∧ 0 ∉ fields ∧ fields.sum ≤ 256) →
      ∃ t, exec (.skyCreditWrite tw w) s = .next t ∧ t.getF (Reg.skyStatus_cfg_err tw) = 1 ∧
        t.reg (Reg.skyCredit_req0 tw).off = s.reg (Reg.skyCredit_req0 tw).off) ∧
    (∀ (group : Bool) (k : BitVec 12), (group = true → s.licensed licFabric = true) → (group = false → k.toNat < 256) →
      s.sent = [] →
      let off := if group then (Reg.skyRouteG_valid tw k.toNat).off else (Reg.skyRouteM_valid tw k.toNat).off
      ∃ t, exec (.routingEntryWrite tw group k w) s = .next t ∧
        (t.reg off).toNat = bits w.toNat 3 0 + Nat.land (bits w.toNat 47 16) s.usablePorts * 2 ^ 16) ∧
    (∀ k : BitVec 12, s.licensed licFabric = false → bit w.toNat 0 = true → s.sent = [] →
      ∃ t, exec (.routingEntryWrite tw true k w) s = .next t ∧ t.getF (Reg.skyStatus_cfg_err tw) = 1 ∧
        bit (t.reg (Reg.skyRouteG_valid tw k.toNat).off).toNat 0 = false)

/-- Fabric ports: their states, and the registers of the fabric. -/
def Obligations.Ports : Prop :=
  Claims.PortStates ∧ Claims.FabricRegisterWrites

/-- The states of a die link (11 R408 to R413, R417, R420, R421, R423): training ends ACTIVE with what both ends agree on,
or DOWN; a retrain ends ACTIVE or DOWN; DLK_LINK_RETRAIN and force_down move it; the routes of a link that is DOWN are
held, and then the routes the links give are taken into use. -/
def Obligations.DieLinkStates : Prop :=
  ∀ (s : State) (l : Fin 8) (peer : CapRecord) (x : TrainResult),
    let e := linkEnds l
    let me := s.caps e.1
    let down := fun (t : State) => t.linkState l = lkDown
    let works := s.on (Reg.dlkInject_module_fail l) = false ∧
      ∃ m, m < linkModules l ∧ (s.roleOf l m = 0 ∨ s.roleOf l m = 3) ∧ m ∈ x.works ∧ s.repairable l m x = true
    let fits := me.strap = e.1 ∧ peer.strap = e.2
    let able := 2 ≤ peer.version ∧ peer.keepAlive = true ∧ peer.tickSync = true ∧ peer.poisonWord = true
    let calm := s.sent = [] ∧ Claims.quietFabric s
    (s.linkTraining l = true → calm →
      (fits → able → works → s.now ≤ (s.link l).since + ms 5 →
        ∃ t, exec (.dieLinkTrained l peer x) s = .next t ∧ t.linkState l = lkActive ∧ (t.link l).retry = Retry.reset ∧
          t.getF (Reg.dlkLinkCap_tags l) = Nat.min me.tags peer.tags % 2 ^ fldWidth (Reg.dlkLinkCap_tags l) ∧
          t.getF (Reg.dlkLinkCap_transit l) = b2n (me.transit && peer.transit)) ∧
      (¬ fits → works → s.now ≤ (s.link l).since + ms 5 → ∃ t, exec (.dieLinkTrained l peer x) s = .next t ∧ down t ∧
        t.getF (Reg.dlkDieId_conflict e.1) = 1 ∧ t.getF (Reg.dlkDieId_conflict e.2) = 1) ∧
      ((s.link l).since + ms 5 < s.now → ∃ t, exec (.dieLinkTrained l peer x) s = .next t ∧ down t) ∧
      ((s.link l).since + ms 5 ≤ s.now → ∃ t, exec (.dieLinkTrainTimeout l) s = .next t ∧ down t ∧
        t.records = s.records ++ [mkRecord s 1 9 0xFFFF 0 14 l (s.link l).retry.expect])) ∧
    (s.linkState l = lkRetrain → calm →
      (fits → able → works → s.now ≤ (s.link l).since + us 100 →
        ∃ t, exec (.dieLinkRetrainEnd l (some (peer, x))) s = .next t ∧ t.linkState l = lkActive ∧
          (t.link l).retry.buf = ((s.link l).retry.arrived x.expect.toNat s.now).buf ∧ (t.link l).retry.naks = 0 ∧
          (t.link l).retry.ackAt = s.now) ∧
      ((s.link l).since + us 100 < s.now → ∃ t, exec (.dieLinkRetrainEnd l (some (peer, x))) s = .next t ∧ down t) ∧
      (∃ t, exec (.dieLinkRetrainEnd l none) s = .next t ∧ down t ∧ t.getF (Reg.dlkLinkStatus_modules_up l) = 0)) ∧
    (s.linkState l = lkActive → ∃ t, exec (.dlkLinkRetrain l) s = .next t ∧ t.linkState l = lkRetrain) ∧
    (s.linkState l = lkDown → s.on (Reg.dlkLinkCtrl_force_down l) = false →
      ∃ t, exec (.dlkLinkRetrain l) s = .next t ∧ t.linkState l = lkSbinit ∧ (t.link l).since = s.now) ∧
    (s.linkState l ≠ 0 → s.sent = [] → ∃ t, exec (.forceDown l true) s = .next t ∧ down t ∧
      t.getF (Reg.dlkLinkCtrl_force_down l) = 1) ∧
    (∃ t, exec (.forceDown l false) s = .next t ∧ t.getF (Reg.dlkLinkCtrl_force_down l) = 0 ∧ t.linkState l = s.linkState l) ∧
    (s.linkState l = lkDown → s.on Reg.dlkCtrl_failover_enable = true → s.failover = none → s.changedRoutes ≠ [] →
      Claims.quietFabric s →
      ∃ t, exec (.failoverStart l) s = .next t ∧ t.failover = some ⟨s.now, l, s.changedRoutes, []⟩ ∧
        t.getF Reg.dlkStatus_rerouting = 1) ∧
    (∀ f late, s.failover = some f → f.link < 8 → calm →
      (late = 0 ∨ s.on (Reg.dlkLinkStatus_sideband_up f.link) = false ∨ f.since + us 100 ≤ s.now) →
      ∃ t, exec (.failoverComplete late) s = .next t ∧ t.failover = none ∧ t.getF Reg.dlkStatus_rerouting = 0 ∧
        (∀ a b, a < 5 → b < 5 → t.nextHop a b = s.bestHop a b) ∧
        t.getF (Reg.dlkLinkErr_discarded f.link) = satAdd (fldWidth (Reg.dlkLinkErr_discarded f.link))
          (s.getF (Reg.dlkLinkErr_discarded f.link)) late)

/-! ## The host's rings and commands -/

/-- The rings (12 R425, R433 to R441, R443, R468 to R470, 16 R582): a doorbell in range moves its index, any other is
ignored and noted; a command is taken from the ring whose turn it is, a failed read leaves the ring in ERROR; the oldest
complete command is posted with its phase and vector; a ring whose entry cannot be written posts no more; rings become
ACTIVE, drain and become DISABLED; an event is posted, or held while its ring is full. -/
def Obligations.Rings : Prop :=
  ∀ (s : State) (r : Fin 64) (v : BitVec 32), s.wedged = false →
    let size := s.ringSize r
    let x := s.evRing r
    let small := size ≤ 65536 ∧ s.eqSize r ≤ 65536
    let note := [Out.msix 0]
    (small → s.ringState r ≠ rgDisabled → v.toNat < size →
      (∃ t, exec (.sqTailDoorbell r v) s = .next t ∧ t.getF (Reg.cmpRingIdx_sq_tail r) = v.toNat) ∧
      (∃ t, exec (.cqHeadDoorbell r v) s = .next t ∧ (t.ring r).cqHead = v.toNat ∧
        t.getF (Reg.cmpRingStatus_cq_full r) = b2n (t.cqFull r))) ∧
    ((s.ringState r = rgDisabled ∨ size ≤ v.toNat) →
      ∃ t, exec (.sqTailDoorbell r v) s = .next t ∧ t.getF (Reg.cmpRingStatus_db_err r) = 1 ∧
        t.getF (Reg.cmpRingIdx_sq_tail r) = s.getF (Reg.cmpRingIdx_sq_tail r)) ∧
    (s.eqOn r = true → v.toNat < s.eqSize r →
      ∃ t, exec (.eqHeadDoorbell r v) s = .next t ∧ t.evRing r = { x with head := v.toNat }) ∧
    (∀ q, s.getF Reg.glbState_state ≠ gsBooting → (s.started.filter (fun x => x.done == none)).length < 64 →
      s.ringTurn = some q → s.ringSize q ≤ 65536 →
      (∀ c, s.mayStart q c = true →
        let h := (s.getF (Reg.cmpRingStatus_sq_head q) + 1) % s.ringSize q
        ∃ t y, exec (.commandTake (some c)) s = .next t ∧ t.started = s.started ++ [y] ∧ y.ring = q ∧ y.cmd = c ∧
          y.head = h ∧ t.getF (Reg.cmpRingStatus_sq_head q) = h ∧ t.arbPtr = (q + 1) % 64 ∧
          (cmdForm (cmdOp c) = none → y.done = none) ∧
          (∀ f, cmdForm (cmdOp c) = some f → cmdReservedOk f c = false → (cmdOp c ≠ 0x10 ∨ s.gradeRefuses = false) →
            y.done = some (stBadParam, 0))) ∧
      (∀ c, s.mayStart q c = false → ∃ t, exec (.commandTake (some c)) s = .next t ∧ t.started = s.started ∧ t.arbPtr = s.arbPtr ∧
        t.ringTurn ≠ some q) ∧
      (∃ t, exec (.commandTake none) s = .next t ∧ t.ringState q = rgError ∧ t.started = s.started ∧
        t.getF (Reg.cmpRingStatus_fetch_err q) = 1 ∧ t.out = s.out ++ note)) ∧
    (∀ c st res, small → s.oldestDone r = some (c, st, res) → (s.ring r).muted = false → s.cqFull r = false →
      let tail := s.getF (Reg.cmpRingIdx_cq_tail r)
      (∃ t, exec (.completionPost r) s = .next t ∧ t.started = dropStarted r s.started ∧
        t.getF (Reg.cmpRingIdx_cq_tail r) = (tail + 1) % size ∧
        (t.ring r).phase = (if (tail + 1) % size = 0 then !(s.ring r).phase else (s.ring r).phase) ∧
        t.out = s.out ++ [.hostWrite (s.getF (Reg.cmpCqBase_base r) * 4096 + 16 * tail)
          (clean (completion c st res (s.ring r).phase))] ++ (if cmdIrq c.cmd then [.msix (1 + r)] else [])) ∧
      (∃ t, exec (.completionWriteFail false r) s = .next t ∧ t.ringState r = rgError ∧ (t.ring r).muted = true ∧
        t.started = dropStarted r s.started ∧ t.out = s.out ++ note)) ∧
    (s.eqPosting r = true → ∃ t, exec (.completionWriteFail true r) s = .next t ∧ t.eqOn r = false ∧
      t.out = s.out ++ note) ∧
    (s.ringState r = rgDisabled → ∃ t, exec (.ringEnableWrite false r true) s = .next t ∧ t.ringState r = rgActive ∧
      t.getF (Reg.cmpRingStatus_sq_head r) = 0 ∧ t.getF (Reg.cmpRingIdx_sq_tail r) = 0 ∧
      t.getF (Reg.cmpRingIdx_cq_tail r) = 0 ∧ t.ring r = Ring.reset) ∧
    (s.ringState r = rgActive ∨ s.ringState r = rgError →
      ∃ t, exec (.ringEnableWrite false r false) s = .next t ∧ t.ringState r = rgDraining) ∧
    (s.eqOn r = true → s.eqNamed r = false → ∃ t, exec (.ringEnableWrite true r false) s = .next t ∧ t.eqOn r = false) ∧
    (s.ringState r = rgDraining → s.started.any (fun c => c.ring == r.val) = false →
      ∃ t, exec (.ringDrained r) s = .next t ∧ t.ringState r = rgDisabled) ∧
    (∀ e rest, small → (List.range 64).find? s.owes = none → s.events = e :: rest → e.eq = r.val → s.eqOn r = true →
      let tail := s.getF (Reg.cmpEqStatus_tail r)
      (s.eqFull r = false → ∃ t, exec .eventPost s = .next t ∧ t.events = rest ∧
        t.getF (Reg.cmpEqStatus_tail r) = (tail + 1) % s.eqSize r ∧
        t.out = s.out ++ [.hostWrite (s.getF (Reg.cmpEqBase_base r) * 4096 + 32 * tail)
          (clean (eventBytes e x.phase s.now)), .msix (65 + r)]) ∧
      (s.eqFull r = true → x.held.length < 256 → ∃ t, exec .eventPost s = .next t ∧ t.events = rest ∧ t.out = s.out ∧
        t.evRing r = { x with held := x.held ++ [e] }))

/-- The key under which the command processor reads tables for a command. -/
def Claims.cmdKey (c : Started) : Nat := 2 ^ 16 * c.ring + c.head

/-- The k-th command taken has an opcode, is not complete, and waits for no table. -/
def Claims.takes (s : State) (k : Nat) (c : Started) (op : Nat) : Prop :=
  s.started[k]? = some c ∧ c.done = none ∧ cmdOp c.cmd = op ∧ s.asked hostSite (Claims.cmdKey c) = false

/-- The k-th command has completed with a status and result. -/
def Claims.ends (t : State) (k : Nat) (c : Started) (st res : Nat) : Prop :=
  ∃ d, t.started[k]? = some d ∧ d.ring = c.ring ∧ d.head = c.head ∧ d.cmd = c.cmd ∧ d.done = some (st, res)

/-- The commands on rings, channels, windows and streams that pass their checks (00 R20, 12 R433, R440, R445 to R457,
R468, R471, 01 R44): what each does and its completion. -/
def Obligations.HostControlCommands : Prop :=
  ∀ (s : State) (k : Nat) (c : Started) (list : Option (List PByte)),
    let b := fun o n => fieldLE c.cmd o n
    let ch := cmdHandle c.cmd % 2 ^ 24
    let calm := s.senders = [] ∧ ∀ x ∈ s.cores, x.2.sq = [] ∧ x.2.fmv = []
    (Claims.takes s k c 0 → ∃ t, exec (.cmdNop k) s = .next t ∧ Claims.ends t k c stOk 0) ∧
    (∀ op, s.started[k]? = some c → c.done = none → cmdOp c.cmd = op → cmdForm op = none →
      ∃ t, exec (.undefinedCommand k) s = .next t ∧ Claims.ends t k c stBadOpcode 0) ∧
    (Claims.takes s k c 1 → b 8 8 % 4096 = 0 → s.on Reg.hifLink_up = true → ∃ t, exec (.identify k) s = .next t ∧ Claims.ends t k c stOk 4096 ∧
      t.out = s.out ++ [.hostWrite (b 8 8) (clean s.identity)] ∧ s.identity.length = 4096) ∧
    (∀ r, Claims.takes s k c 2 → r = b 8 1 → 1 ≤ r → r < 64 → 4 ≤ b 9 1 → b 9 1 ≤ 16 → b 16 8 % 4096 = 0 →
      b 24 8 % 4096 = 0 → s.ringState r = rgDisabled →
      ∃ t, exec (.ringCreate k) s = .next t ∧ Claims.ends t k c stOk 0 ∧ t.ringState r = rgActive ∧
        t.ringSize r = 2 ^ b 9 1 ∧ t.getF (Reg.cmpSqBase_base r) = b 16 8 / 4096 ∧ t.getF (Reg.cmpCqBase_base r) = b 24 8 / 4096) ∧
    (∀ r, Claims.takes s k c 3 → r = b 8 1 → 1 ≤ r → r < 64 → r ≠ c.ring → (s.ringState r = rgActive ∨ s.ringState r = rgError) →
      ∃ t, exec (.ringDestroy k) s = .next t ∧ Claims.ends t k c stOk 0 ∧ t.ringState r = rgDraining) ∧
    (∀ e, Claims.takes s k c 4 → e = b 8 1 → e < 64 → 4 ≤ b 9 1 → b 9 1 ≤ 16 → b 16 8 % 4096 = 0 → s.eqOn e = false →
      ∃ t, exec (.eqCreate k) s = .next t ∧ Claims.ends t k c stOk 0 ∧ t.eqOn e = true ∧ t.eqSize e = 2 ^ b 9 1 ∧
        t.evRing e = EvRing.reset) ∧
    (∀ e, Claims.takes s k c 5 → e = b 8 1 → e < 64 → s.eqOn e = true → s.eqNamed e = false →
      ∃ t, exec (.eqDestroy k) s = .next t ∧ Claims.ends t k c stOk 0 ∧ t.eqOn e = false) ∧
    (∀ sites f, Claims.takes s k c 0x10 → c.work = none → s.gradeRefuses = false → createOk c.cmd = true →
      s.on Reg.rasInject_arm = false → siteList (b 24 4) list = .ok sites → s.createCheck c.cmd sites = stOk → s.freeIndex chanMax 0 = some f →
      (b 11 1 = 255 ∨ sites.all s.vaultQuiet = true) →
      ∃ t, exec (.chanCreate k list) s = .next t ∧ Claims.ends t k c stOk (t.handle f) ∧
        t.chan f = { gen := if (s.chan f).gen = 255 then 1 else (s.chan f).gen + 1, st := .live
                     bestEffort := b 8 1 == 1, domain := b 9 1, eq := b 10 1, cores := sites, windows := [] } ∧
        ∀ i ∈ sites, (s.sqState i ≠ sqLost → t.sqState i = sqOpen) ∧
          (b 11 1 ≠ 255 → t.getF (Reg.vltMap_frame_base i) = b 11 1)) ∧
    (Claims.takes s k c 0x11 → c.work = none → calm → (s.chan ch).cores.all (fun i => s.coreState i == csIdle) = true →
      ∃ t, exec (.chanDestroy k) s = .next t ∧ Claims.ends t k c stOk 0 ∧
        t.chan ch = { Channel.free with gen := (s.chan ch).gen } ∧
        (∀ i ∈ (s.chan ch).cores, t.sqState i = sqClosed ∧ (t.queue i).resident = []) ∧
        ∀ v ∈ t.events, v.handle ≠ s.handle ch) ∧
    (Claims.takes s k c 0x10 → c.work = none → s.gradeRefuses = true →
      ∃ t, exec (.chanCreate k list) s = .next t ∧ Claims.ends t k c stGradeFault 0 ∧ t.chans = s.chans) ∧
    (let w := b 32 32
      let u := s.ask hostSite (Claims.cmdKey c)
      let n := 2 ^ bits w 7 4
      let x := u.skyRead hostSite (bits w 191 128) (4 * n) true
      let ids := (List.range n).map (fun j => leP (slice x.data (4 * j) 4))
      Claims.takes s k c 0x13 → descOk w = true → bits w 1 0 = 2 → x.ready = true → x.s.wanted = [] →
      (x.st = stOk → anyPoison x.data = false → distinct ids = true → ids.all (fun v => skyOk (v * 2 ^ 32)) = true →
        ∃ t, exec (.windowSet k) s = .next t ∧ Claims.ends t k c stOk 0 ∧ t.window ch (b 8 1) = ⟨BitVec.ofNat 256 w, ids⟩) ∧
      ((x.st ≠ stOk ∨ anyPoison x.data = true ∨ distinct ids = false ∨ ids.all (fun v => skyOk (v * 2 ^ 32)) = false) →
        ∃ t, exec (.windowSet k) s = .next t ∧ Claims.ends t k c stBadParam 0 ∧ t.window ch (b 8 1) = s.window ch (b 8 1))) ∧
    (Claims.takes s k c 0x13 → descOk (b 32 32) = true → bits (b 32 32) 1 0 ≠ 2 →
      ∃ t, exec (.windowSet k) s = .next t ∧ Claims.ends t k c stOk 0 ∧ t.window ch (b 8 1) =
        (if bits (b 32 32) 1 0 = 0 then Window.none else ⟨BitVec.ofNat 256 (b 32 32), []⟩)) ∧
    (∀ xs, Claims.takes s k c 0x18 → s.namedCores c.cmd list = (s, .ok xs) →
      xs.any (fun i => s.getF (Reg.ptmTState_level (towerOf i)) == 3) = false →
      (bit (b 8 1) 0 = false → streamOk (b 12 4) (b 16 4) = true → xs.all (fun i => s.coreState i == csIdle) = true →
        ∃ t, exec (.streamStart k list) s = .next t ∧ Claims.ends t k c stOk xs.length ∧
          ∀ i ∈ xs, t.coreState i = csRunning ∧ t.pc i = b 12 4 ∧ t.streamLen i = b 16 4) ∧
      (bit (b 8 1) 0 = true → b 12 4 = 0 → b 16 4 = 0 → xs.all (fun i => s.coreState i == csBreak) = true →
        (∀ i ∈ xs, (s.core i).wordAt (s.pc i) ≠ .poison) →
        ∃ t, exec (.streamStart k list) s = .next t ∧ Claims.ends t k c stOk xs.length ∧
          ∀ i ∈ xs, t.coreState i = csRunning ∧ t.pc i = s.pc i)) ∧
    (∀ xs, Claims.takes s k c 0x19 → c.work = none → s.namedCores c.cmd list = (s, .ok xs) →
      (b 8 1 = 0 → (∀ i ∈ xs, s.coreState i = csRunning ∧ (s.core i).hold = .none) →
        ∃ t, exec (.streamStop k list) s = .next t ∧ Claims.ends t k c stOk xs.length ∧
          ∀ i ∈ xs, t.coreState i = csBreak ∧ t.pc i = s.pc i) ∧
      (b 8 1 = 1 → (∀ i ∈ xs, s.coreState i = csRunning ∧ (s.core i).hold = .none ∧ (s.core i).synq = [] ∧
          s.jobs.any (fun j => j.site == i) = false ∧ s.on (Reg.skyStatus_resetting (towerOf i)) = false) →
        ∃ t, exec (.streamStop k list) s = .next t ∧ Claims.ends t k c stOk xs.length ∧
          ∀ i ∈ xs, t.coreState i = csIdle))

/-- Clean bytes at a sky address in a vault of this package that the host link can write now, with no bank unit busy and
no merge outstanding there. -/
structure Claims.hostPlace (s : State) (a n v off : Nat) : Prop where
  room : skyOk a = true ∧ bits a 31 0 + n ≤ vaultSize
  place : s.placeOf ioDie a = .ok (.vault v off)
  clean : s.piecesClean [⟨.vault v off, 0, n⟩]
  ready : s.pieceReady ioDie true ⟨.vault v off, 0, n⟩ = true
  idle : (s.vault v).running = [] ∧ ∀ e ∈ (s.vault v).wbuf, e.merge = none

/-- The commands on data (12 R458 to R467): LOAD and STORE of one buffer of host memory from and to clean vaults of the
package, FLAG_WRITE of a flag there, SEQ_FORK and SEQ_RELEASE of one private page-layer, the power profile and the
licences. -/
def Obligations.HostDataCommands : Prop :=
  ∀ (s : State) (k : Nat) (c : Started),
    let b := fun o n => fieldLE c.cmd o n
    let n := b 12 4
    let u := s.ask hostSite (Claims.cmdKey c)
    let ld := u.hostRange c.cmd (bit (b 8 1) 0) (b 24 8) n true
    let sd := u.hostRange c.cmd (bit (b 8 1) 0) (b 24 8) n false
    let fl := u.hostRange c.cmd (bit (b 8 1) 1) (b 16 8) 8 true
    (∀ data, Claims.takes s k c 0x20 → bit (b 8 1) 1 = false → n ≠ 0 → ld.st = stOk → ld.ready = true → ld.s.wanted = [] →
      s.piecesClean ld.pieces → piecesApart ld.pieces → s.on Reg.rasInject_arm = false → data.length = n →
      anyPoison data = false →
      ∃ t, exec (.load k none (some data)) s = .next t ∧ Claims.ends t k c stOk n ∧ t.piecesHold ld.pieces data ∧
        s.vaultsKeptBut t ld.pieces) ∧
    (Claims.takes s k c 0x21 → bit (b 8 1) 1 = false → n ≠ 0 → sd.st = stOk → sd.ready = true →
      sd.s.wanted = [] → s.piecesClean sd.pieces →
      ∃ t, exec (.store k none true) s = .next t ∧ Claims.ends t k c stOk n ∧ s.vaultsKeptBut t [] ∧
        t.out = s.out ++ [.hostWrite (b 16 8) (s.pieceBytes sd.pieces)]) ∧
    (∀ v off, Claims.takes s k c 0x23 → b 16 8 % 8 = 0 → fl.st = stOk → fl.ready = true →
      fl.s.wanted = [] → off % 8 = 0 →
      fl.pieces = [⟨.vault v off, 0, 8⟩] → s.piecesClean fl.pieces → fl.s.readReady v off 8 = true →
      let old := leP (s.peekVault v off 8)
      ∃ t, exec (.flagWrite k) s = .next t ∧ Claims.ends t k c stOk (if bit (b 8 1) 0 then old else 0) ∧
        t.vaultHolds8 v off (clean (toLE 8 (if bit (b 8 1) 0 then (old + b 24 8) % 2 ^ 64 else b 24 8))) ∧
        s.vaultsKeptBut t fl.pieces) ∧
    (∀ e d way av ao ev eo dv do_, Claims.takes s k c 0x28 → b 10 1 = 1 → n = 1 →
      let ch := cmdHandle c.cmd % 2 ^ 24
      let x := u.seqWalk (s.window ch (b 8 1)) 1 0 1
      let y := x.s.seqWalk (s.window ch (b 9 1)) 1 0 1
      winKind (s.window ch (b 8 1)) = 3 → winKind (s.window ch (b 9 1)) = 3 → b 16 8 % 64 = 0 → skyOk (b 16 8) = true →
      bits (b 16 8) 31 0 + b 24 8 ≤ vaultSize → forkSize 1 ≤ b 24 8 → x.st = stOk → y.st = stOk → x.ready = true → y.ready = true →
      y.s.wanted = [] → s.pfx.queue = [] →
      x.ents = [e] → y.ents = [d] → e.page = 0 → d.page = 0 → e.layer = 0 → e.priv = true → pteValid d.e2 = false →
      s.pfx.forkWays 1 0 = some [way] → (s.chan ch).domain < 256 → Claims.hostPlace s (b 16 8) (descSize 1) av ao →
      Claims.hostPlace s e.at_ 16 ev eo → Claims.hostPlace s d.at_ 16 dv do_ →
      piecesApart [⟨.vault av ao, 0, descSize 1⟩, ⟨.vault ev eo, 0, 16⟩, ⟨.vault dv do_, 0, 16⟩] →
      let copy := clean (toLE 16 (pteValue (pteFrame e.e2) (pteFill e.e2) true way))
      ∃ t, exec (.seqFork k) s = .next t ∧ Claims.ends t k c stOk 1 ∧ t.vaultHolds8 ev eo copy ∧ t.vaultHolds8 dv do_ copy ∧
        t.vaultHolds8 av (ao + 1088) (clean (toLE 8 (pteFrame e.e2))) ∧ peRefs (t.pfx.entry way) = 2 ∧
        peState (t.pfx.entry way) = pfxLive ∧ ∀ f, f ≠ way → t.pfx.entry f = s.pfx.entry f) ∧
    (∀ e cap ev eo hv ho pv po, Claims.takes s k c 0x29 → b 10 1 = 1 → b 16 4 = 1 →
      let x := u.seqWalk (s.window (cmdHandle c.cmd % 2 ^ 24) (b 8 1)) 1 n 1
      let h := x.s.poolCap hostSite (b 24 8)
      let prod := leP (slice h.1.data 0 4)
      let used := (prod + 2 ^ 32 - leP (slice h.1.data 4 4)) % 2 ^ 32
      winKind (s.window (cmdHandle c.cmd % 2 ^ 24) (b 8 1)) = 3 → b 24 8 % 64 = 0 → skyOk (b 24 8) = true → x.st = stOk →
      x.ready = true → x.ents = [e] → e.priv = true → h.2 = .ok cap → h.1.ready = true → h.1.s.wanted = [] → used < cap →
      Claims.hostPlace s e.at_ 16 ev eo → Claims.hostPlace s (b 24 8) 64 hv ho →
      Claims.hostPlace s (b 24 8 + 64 + 8 * (prod % cap)) 8 pv po →
      piecesApart [⟨.vault ev eo, 0, 16⟩, ⟨.vault hv ho, 0, 64⟩, ⟨.vault pv po, 0, 8⟩] →
      ∃ t, exec (.seqRelease k) s = .next t ∧ Claims.ends t k c stOk (2 ^ 32) ∧
        t.vaultHolds8 ev eo (clean (toLE 16 (setBits e.e2 0 0 0))) ∧ t.vaultHolds8 pv po (clean (toLE 8 (pteFrame e.e2))) ∧
        t.vaultHolds8 hv ho (clean (toLE 4 ((prod + 1) % 2 ^ 32)))) ∧
    (Claims.takes s k c 0x30 → 500 ≤ b 8 2 → b 8 2 ≤ 2000 → 10 ≤ b 10 2 → b 10 2 ≤ 150 → b 12 1 ≤ 1 → 20 ≤ b 13 1 →
      b 13 1 ≤ 45 → s.capRaiseInStorm (b 8 2) = false →
      ∃ t, exec (.thermalProfile k) s = .next t ∧ Claims.ends t k c stOk (s.getF Reg.ptmProfile_cap_w) ∧
        t.getF Reg.ptmProfile_cap_w = b 8 2 ∧ t.getF Reg.ptmProfile_ramp_wpms = b 10 2 ∧
        t.getF Reg.ptmProfile_keep_warm = b 12 1 ∧ t.getF Reg.ptmProfile_dew_floor = b 13 1) ∧
    (∀ data, Claims.takes s k c 0x38 → s.licenceTurn k = true → 160 ≤ b 8 4 → b 8 4 ≤ 4096 → b 8 4 % 8 = 0 →
      s.on Reg.rasInject_arm = false → s.on Reg.licInject_arm = false → data.length = b 8 4 → anyPoison data = false →
      licenceForm (b 8 4) (data.map Prod.fst) = true → s.licenceSigned (b 8 4) (data.map Prod.fst) = true →
      ∃ t, exec (.licenceInstall k (some data)) s = .next t ∧ Claims.ends t k c stOk t.features ∧
        t.features = Nat.lor s.features (fieldLE (data.map Prod.fst) 16 8)) ∧
    (Claims.takes s k c 0x39 → s.licenceTurn k = true →
      ∃ t, exec (.licenceQuery k) s = .next t ∧ Claims.ends t k c stOk s.features)

/-! ## The BARs -/

/-- A write of a field by its type, bit by bit (00 R13, R14): rw takes the written bit, rw1c is cleared and rw1s set by a
1, ro and wo keep theirs; an rw1c bit that hardware has set since the cycle began stays set; a bit outside the field, or
that the access does not write, keeps its value. -/
def Obligations.FieldTypesWrite : Prop :=
  ∀ (m v was old k : Nat) (f : FieldDesc), f.lo ≤ f.hi →
    bit (fieldWritten m v was old f) k =
      (if k < f.lo ∨ f.hi < k ∨ bit m k = false then bit old k
       else match f.ty with
         | .rw => bit v k
         | .rw1c => bit old k && !(bit was k && bit v k)
         | .rw1s => bit old k || bit v k
         | .ro => bit old k
         | .wo => bit old k)

/-- A register of a block whose writes do nothing but store the fields. -/
def Claims.plainReg (s : State) (b : RegBlock) (i l : Nat) : Prop :=
  ((b = .core ∧ l ≠ 8) ∨ (b = .hif ∧ l ≠ 4) ∨ b = .tle) ∧ s.writeIgnored b i l = false ∧ s.absentAt b i l = false

/-- A counter of errors has gone up by one. -/
def Claims.counted (s t : State) (f : Fld) : Prop := t.getF f = satAdd (fldWidth f) (s.getF f) 1

/-- REGISTER_WRITE, BAR0_BAD_ACCESS and BAR_READ_TIMEOUT (00 R13 to R18, 12 R429, R430, R473). A write of a register that
only stores takes its fields and changes nothing else: a 32-bit register at once; a 64-bit one at once by a wide write,
else its low half is held until the high half comes, and a high half alone changes its own bits alone. An access of a
wrong size or alignment is counted; a read of one gives 0. An offset of no block takes nothing. A read that nothing
answers gives all ones of its length and is counted; one of GLB always completes. -/
def Claims.RegisterAccesses : Prop :=
  ∀ (s : State) (off : BitVec 40) (reg : BitVec 27) (v : BitVec 64),
    let o := off.toNat
    let a := reg.toNat
    let x := v.toNat
    let lost := fun (t : State) (n : Nat) => t.out = s.out ++ [.barData (2 ^ (8 * n) - 1) false] ∧
      Claims.counted s t Reg.hifErr_read_timeout
    (∀ b i l d j, barLocate a = some (b, i, l) → findReg b.regs l = some (d, 0, j) → Claims.plainReg s b i l →
      (a % 4 = 0 → d.width = 32 →
        ∃ t, exec (.registerWrite reg false v) s = .next t ∧
          t.reg a = BitVec.ofNat 64 (regWritten d (2 ^ 32 - 1) (x % 2 ^ 32) (s.reg0 a).toNat (s.reg a).toNat) ∧
          (∀ c, c ≠ a → t.reg c = s.reg c) ∧ { t with regs := s.regs } = s) ∧
      (a % 4 = 0 → d.width = 64 →
        ∃ t, exec (.registerWrite reg false v) s = .next t ∧ SMap.find t.wrHold a = some (BitVec.ofNat 32 x) ∧
          { t with wrHold := s.wrHold } = s) ∧
      (a % 8 = 0 → d.width = 64 →
        ∃ t, exec (.registerWrite reg true v) s = .next t ∧ SMap.find t.wrHold a = none ∧
          t.reg a = BitVec.ofNat 64 (regWritten d (2 ^ 64 - 1) x (s.reg0 a).toNat (s.reg a).toNat) ∧
          (∀ c, c ≠ a → t.reg c = s.reg c) ∧ { t with regs := s.regs, wrHold := s.wrHold } = s)) ∧
    (∀ b i l d j, a % 4 = 0 → barLocate a = some (b, i, l) → findReg b.regs l = some (d, 4, j) → d.width = 64 →
      s.absentAt b i l = false → Claims.plainReg s b i (l - 4) →
      let old := (s.reg (a - 4)).toNat
      let was := (s.reg0 (a - 4)).toNat
      ∃ t, exec (.registerWrite reg false v) s = .next t ∧ SMap.find t.wrHold (a - 4) = none ∧
        t.reg (a - 4) = BitVec.ofNat 64 (match SMap.find s.wrHold (a - 4) with
          | some lo => regWritten d (2 ^ 64 - 1) (lo.toNat + x % 2 ^ 32 * 2 ^ 32) was old
          | none => regWritten d (2 ^ 64 - 2 ^ 32) (x % 2 ^ 32 * 2 ^ 32) was old) ∧
        (∀ c, c ≠ a - 4 → t.reg c = s.reg c) ∧ { t with regs := s.regs, wrHold := s.wrHold } = s) ∧
    (∀ wide, a % (if wide then 8 else 4) ≠ 0 →
      ∃ t, exec (.registerWrite reg wide v) s = .next t ∧ Claims.counted s t Reg.hifErr_bad_access ∧
        t.wrHold = s.wrHold ∧ t.out = s.out) ∧
    (∀ wide, a % (if wide then 8 else 4) = 0 → barLocate a = none → barLocate (a + 4) = none →
      exec (.registerWrite reg wide v) s = .next s) ∧
    (∀ size, ¬ ((size = 4 ∨ size = 8) ∧ a % size = 0) →
      (∃ t, exec (.bar0BadAccess false reg size) s = .next t ∧ t.out = s.out ++ [.barData 0 false] ∧
        Claims.counted s t Reg.hifErr_bad_access) ∧
      (∃ t, exec (.bar0BadAccess true reg size) s = .next t ∧ t.out = s.out ∧
        Claims.counted s t Reg.hifErr_bad_access)) ∧
    (0x00100000 ≤ o → ∃ t, exec (.barReadTimeout false off) s = .next t ∧ lost t 4) ∧
    (o < 0x00100000 → exec (.barReadTimeout false off) s = .next s) ∧
    (s.barPending o = none → ∃ t, exec (.barReadTimeout true off) s = .next t ∧ lost t 4) ∧
    (∀ j n, s.barPending o = some j → j.fin = .hostRead o n → j.issued + us (s.getF Reg.hifCtrl_bar_timeout_us) ≤ s.now →
      ∃ t, exec (.barReadTimeout true off) s = .next t ∧ lost t n ∧ t.jobs = s.jobs.filter (fun y => y.id != j.id))

/-- The sky window (12 R430 to R432): a slot that is not valid reads 0 and takes no write, and is counted; a valid one
reads and writes the vault it names, in this package at once, at another node by a job that waits for its packets; a
vault that cannot be reached reads as poison of all ones, and a write to it is counted as lost. -/
def Claims.SkyWindow : Prop :=
  ∀ (s : State) (off : BitVec 40) (n : Nat) (data : List PByte),
    let o := off.toNat
    let slot := fun (vid : Nat) (n : Nat) (write : Bool) => s.skyRange ioDie (vid * 2 ^ 32 + o % 2 ^ 29) n stTranslation write 0
    (s.slotVault o = none →
      (∃ t, exec (.skyWindowRead off n) s = .next t ∧ t.out = s.out ++ [.barData 0 false] ∧ t.vaults = s.vaults ∧
        Claims.counted s t Reg.hifErr_unmapped) ∧
      (∃ t, exec (.skyWindowWrite off data) s = .next t ∧ t.out = s.out ∧ t.vaults = s.vaults ∧
        Claims.counted s t Reg.hifErr_unmapped)) ∧
    (∀ vid, s.slotVault o = some vid →
      (let r := slot vid n false
       (r.st = stOk → r.ready = true → s.piecesClean r.pieces →
          ∃ t, exec (.skyWindowRead off n) s = .next t ∧ s.vaultsKeptBut t [] ∧
            t.out = s.out ++ [.barData (leP (s.pieceBytes r.pieces)) false]) ∧
       (∀ u b, Claims.quietFabric s → r.st = stOk → r.pieces = [⟨.remote u b, 0, n⟩] → 0 < n →
          ∃ t, exec (.skyWindowRead off n) s = .next t ∧ t.vaults = s.vaults ∧
            ∃ j ∈ t.jobs, j.fin = .hostRead o n ∧ j.left = (cutAt hostPkt b n).length ∧ j.issued = s.now) ∧
       (r.st ≠ stOk → ∃ t, exec (.skyWindowRead off n) s = .next t ∧ t.vaults = s.vaults ∧
          t.out = s.out ++ [.barData (2 ^ (8 * n) - 1) true] ∧ Claims.counted s t Reg.hifErr_poisoned_read)) ∧
      (let w := slot vid data.length true
       (w.st = stOk → w.ready = true → s.piecesClean w.pieces → piecesApart w.pieces → anyPoison data = false →
          ∃ t, exec (.skyWindowWrite off data) s = .next t ∧ t.piecesHold w.pieces data ∧ s.vaultsKeptBut t w.pieces) ∧
       (∀ u b, Claims.quietFabric s → w.st = stOk → w.pieces = [⟨.remote u b, 0, data.length⟩] → data ≠ [] →
          ∃ t, exec (.skyWindowWrite off data) s = .next t ∧ t.vaults = s.vaults ∧
            ∃ j ∈ t.jobs, j.fin = .hostWrite o ∧ 0 < j.left) ∧
       (hardSt w.st = true → ∃ t, exec (.skyWindowWrite off data) s = .next t ∧ t.vaults = s.vaults ∧ t.out = s.out ∧
          Claims.counted s t Reg.hifErr_write_lost)))

/-- A management answer leaves toward a packet's source by the port that spray takes, if it can send at once: REG_DATA of
a value and a status byte, its header's status 0 (10 R373, R375). -/
def Claims.regData (s t : State) (q : Nat) (k : Packet) (v st : Nat) : Prop :=
  let g := towerOf q
  let a : Packet := { Packet.blank with
    cls := clsMgt, op := 5, srcEngine := 12, length := 9, tag := k.tag, dst := k.src * 2 ^ 32
    src := s.towerVid g, payload := clean (toLE 8 v ++ toLE 1 st) }
  ∀ cand o, s.route g (vidNode k.src) = some (g, cand) → s.sprayPort g cand (s.tower g).sprayMgt a = some o →
    Claims.sends s g o a → Claims.leaves s t g o a

/-- REG packets (10 R373, R375). A REG_READ reads the register as a read over BAR0 does (00 R16 to R18): a 64-bit
register whole, its high half latched; a latched half once; a misaligned offset is counted and reads 0. A REG_WRITE
writes it as a write over BAR0 does. Where the tower does not allow it, both are BAD_OPCODE, and a poisoned payload is
POISONED. The value that is answered beside a status and to a REG_WRITE is not stated: any. Registers of the fabric
blocks count the packet itself: their value is any too. -/
def Claims.RegPackets : Prop :=
  ∀ (s : State) (tw : Tower) (p : Fin 32) (k : Packet) (q : Nat),
    let c := leP (k.payload.take 8) % 2 ^ 27
    let x := leP (slice k.payload 8 8)
    let hi := s.regWord (c + 4)
    (Claims.arrives s tw p k clsMgt 3 q →
      (s.on (Reg.skyCtrl_mgt_reg tw) = false →
        ∃ t v, exec (.regRead tw p k) s = .next t ∧ Claims.regData s t q k v stBadOpcode) ∧
      (s.on (Reg.skyCtrl_mgt_reg tw) = true → anyPoison k.payload = true →
        ∃ t v, exec (.regRead tw p k) s = .next t ∧ Claims.regData s t q k v stPoisoned) ∧
      (s.on (Reg.skyCtrl_mgt_reg tw) = true → anyPoison k.payload = false →
        (0x00410000 ≤ c → c < 0x00420000 → ∀ w ∈ EccMem.scan retZero s.rst.retained (c - 0x00410000) 4, w.2.kind = .clean) →
        ∃ t v, exec (.regRead tw p k) s = .next t ∧ Claims.regData s t q k v stOk ∧
          (c % 4 ≠ 0 → v = 0 ∧ Claims.counted s t Reg.hifErr_bad_access) ∧
          ((∀ b i l, barLocate c = some (b, i, l) → b ≠ .sky ∧ b ≠ .opt) → c % 4 = 0 →
            (wideAt c = true → v = s.regWord c + hi * 2 ^ 32 ∧ SMap.find t.rdLatch (c + 4) = some (BitVec.ofNat 32 hi)) ∧
            (wideAt c = false → (SMap.find s.rdLatch c = none → v = s.regWord c ∧ t.rdLatch = s.rdLatch) ∧
              ∀ y, SMap.find s.rdLatch c = some y → v = y.toNat ∧ SMap.find t.rdLatch c = none)))) ∧
    (Claims.arrives s tw p k clsMgt 4 q →
      (s.on (Reg.skyCtrl_mgt_reg tw) = false →
        ∃ t v, exec (.regWrite tw p k) s = .next t ∧ Claims.regData s t q k v stBadOpcode ∧
          ∀ b i l, barLocate c = some (b, i, l) → b ≠ .sky → b ≠ .opt → t.reg c = s.reg c) ∧
      (s.on (Reg.skyCtrl_mgt_reg tw) = true → anyPoison k.payload = true →
        ∃ t v, exec (.regWrite tw p k) s = .next t ∧ Claims.regData s t q k v stPoisoned) ∧
      (s.on (Reg.skyCtrl_mgt_reg tw) = true → anyPoison k.payload = false →
        (∀ b i l d j, c % 4 = 0 → barLocate c = some (b, i, l) → findReg b.regs l = some (d, 0, j) →
          Claims.plainReg s b i l →
          ∃ t v, exec (.regWrite tw p k) s = .next t ∧ Claims.regData s t q k v stOk ∧
            (d.width = 32 → wideAt c = false → t.reg c =
              BitVec.ofNat 64 (regWritten d (2 ^ 32 - 1) (x % 2 ^ 32) (s.reg0 c).toNat (s.reg c).toNat)) ∧
            (d.width = 64 → c % 8 = 0 → t.reg c =
              BitVec.ofNat 64 (regWritten d (2 ^ 64 - 1) (x % 2 ^ 64) (s.reg0 c).toNat (s.reg c).toNat))) ∧
        (c % 4 ≠ 0 → ∃ t v, exec (.regWrite tw p k) s = .next t ∧ Claims.regData s t q k v stOk ∧
          Claims.counted s t Reg.hifErr_bad_access) ∧
        (c % 4 = 0 → barLocate c = none → barLocate (c + 4) = none →
          ∃ t v, exec (.regWrite tw p k) s = .next t ∧ Claims.regData s t q k v stOk)))

/-- Accesses to the BARs and REG packets (00 R13 to R18, 10 R375, 12 R429 to R432, R473). -/
def Obligations.BarAccesses : Prop :=
  Claims.RegisterAccesses ∧ Claims.SkyWindow ∧ Claims.RegPackets

/-! ## Power and temperature -/

/-- Sensors, the quiesce and the rate request (13 R478 to R480, R489, R490, R492, R508): a sample gives each sensor its
reading and the tick, once in 20 µs, and breaks one outside [-20, 150) degrees; a broken sensor stays broken; a silent one breaks, with
a record; rearm clears it. A quiesced tower shows quiesce_done at an idle voltage within 620 to 850 mV; one that is late
trips, its regulator disabled and its die links DOWN. The detector's Overcast request ends 10 ms after its last sample.
(With nothing waiting to be sent, since a trip takes the routes into use again.) -/
def Obligations.SensorsAndTrips : Prop :=
  ∀ (s : State) (tw : Tower), s.sent = [] →
    (∀ readings : List (Nat × Int), s.inFullReset = false → s.on Reg.ptmInject_offset_en = false →
      duePeriod s.power.sampledAt (us 20) s.now = true → (readings.map Prod.fst).Nodup →
      ∃ t, exec (.sensorSample readings) s = .next t ∧ t.power.sampledAt = some s.now ∧
        (∀ e ∈ readings, e.1 % 128 < sensorCount (e.1 / 128) →
          SMap.get (fun _ => Sensor.reset) t.sensors e.1 =
            ⟨e.2, s.now, (SMap.get (fun _ => Sensor.reset) s.sensors e.1).broken || decide (e.2 < -160 ∨ 1200 ≤ e.2)⟩) ∧
        (∀ k, (∀ e ∈ readings, e.1 ≠ k) →
          SMap.get (fun _ => Sensor.reset) t.sensors k = SMap.get (fun _ => Sensor.reset) s.sensors k)) ∧
    (∀ k, s.inFullReset = false → k % 128 < sensorCount (k / 128) →
      (s.rawSensor (k / 128) (k % 128)).at_ + us 200 ≤ s.now →
      ∃ t, exec (.sensorSilent k) s = .next t ∧ (t.rawSensor (k / 128) (k % 128)).broken = true ∧
        ((s.rawSensor (k / 128) (k % 128)).broken = false →
          ∃ x ∈ t.records, x.cls = 1 ∧ x.kind = 15 ∧ x.addr = k % 128)) ∧
    (let die := s.getF Reg.ptmSensorSel_die
     let j := s.getF Reg.ptmSensorSel_index
     j < sensorCount die →
      ∃ t, exec .sensorRearm s = .next t ∧
        t.rawSensor die j = { s.rawSensor die j with broken := false, at_ := s.now } ∧ { t with sensors := s.sensors } = s) ∧
    (s.fwUp = true → s.level tw = 3 → s.on (Reg.ptmTState_tripped tw) = false →
      (∀ j, j < 576 → s.engBusy (576 * tw + j) 127 = false) →
      ∃ t, exec (.quiesceDone tw) s = .next t ∧ t.on (Reg.ptmTState_quiesce_done tw) = true ∧
        620 ≤ t.getF (Reg.ptmTVcore_target_mv tw) ∧ t.getF (Reg.ptmTVcore_target_mv tw) ≤ 850) ∧
    (s.level tw = 3 → s.on (Reg.ptmTState_quiesce_done tw) = false → (s.tpwr tw).stormAt + ms 5 ≤ s.now →
      s.on (Reg.ptmTState_tripped tw) = false → s.on Reg.ptmInject_trip_dry = false →
      ∃ t, exec (.quiesceTimeout tw) s = .next t ∧ t.on (Reg.ptmTState_tripped tw) = true ∧ t.level tw = 3 ∧
        t.getF (Reg.ptmTTrip_cause tw) = 2 ∧ t.on (Reg.ptmTTrip_valid tw) = true ∧
        t.rst.vcoreEn.getD tw false = false ∧
        (∀ l ∈ [tw.val, 4 + tw.val, 4 + (tw.val + 3) % 4], t.linkState l = lkDown)) ∧
    ((s.tpwr tw).detector = 2 → (s.tpwr tw).detectorAt + ms 10 ≤ s.now →
      ∃ t, exec (.rateRequestExpire tw) s = .next t ∧ (t.tpwr tw).detector = 0)

/-- A tower's level (13 R485, R486, R489, R490): it rises at once to the highest request, and falls by one only after
1 ms at its level, with every hot spot 3 degrees below that level's threshold and, out of Storm, the quiesce done; a
tripped tower is in Storm. A change sets the ceilings of the new level, keeps the duties within them and raises vector 0;
in Storm every vault's bank-unit budget is 0. -/
def Obligations.LevelsRiseAtOnce : Prop :=
  ∀ (s : State) (tw : Tower), (s.tpwr tw).detector ≤ 3 →
    let u := s.relevel tw
    let r := (s.levelRequest tw).1
    (s.on (Reg.ptmTState_tripped tw) = true → u.level tw = 3) ∧
    (s.on (Reg.ptmTState_tripped tw) = false →
      (s.level tw < r → u.level tw = r) ∧
      (r ≤ s.level tw → u.level tw = s.level tw ∨
        (u.level tw + 1 = s.level tw ∧ (s.tpwr tw).since + ms 1 ≤ s.now ∧ s.cooled tw (s.level tw) = true ∧
          (s.level tw = 3 → s.on (Reg.ptmTState_quiesce_done tw) = true)))) ∧
    (u.level tw ≠ s.level tw →
      u.getF (Reg.ptmTDuty_lat_ceiling tw) = latCeiling (u.level tw) ∧
      u.getF (Reg.ptmTDuty_be_ceiling tw) ≤ beCeiling (u.level tw) ∧
      u.getF (Reg.ptmTDuty_lat_duty tw) ≤ u.getF (Reg.ptmTDuty_lat_ceiling tw) ∧
      u.getF (Reg.ptmTDuty_be_duty tw) ≤ u.getF (Reg.ptmTDuty_be_ceiling tw) ∧ .msix 0 ∈ u.out ∧
      (u.level tw = 3 → u.on (Reg.ptmTState_quiesce_done tw) = false ∧
        ∀ j, j < 576 → u.getF (Reg.bkuBudget_budget (576 * tw + j)) = 0))

/-- The effective cap is the least of the profile's, the coolant's, the suspect one and 2000 W (13 R496). -/
def Claims.capShown (t : State) : Prop :=
  t.getF Reg.ptmCap_effective_w = Nat.min (Nat.min (t.getF Reg.ptmProfile_cap_w) (t.getF Reg.ptmCap_coolant_w))
    (Nat.min (t.getF Reg.ptmCap_suspect_w) 2000)

/-- Power, the cap and the coolant (13 R479, R496, R497, R499, R501 to R503, R505): a sample with every rail answering
shows P, the sum of V x I, and a P above 6/5 of the cap halves every duty; the window's average; a tower suspect in two
windows raises flow_suspect; the coolant's inlet and flow set the coolant cap, 1 s without them assumes 40 degrees and
2.2 L/min; the trim is noted every 10 ms; a new VCORE target, every 1 ms, stays within 620 to 850 mV, and every 10 µs the
voltage moves toward it by at most 5 mV. -/
def Obligations.PowerAndCoolant : Prop :=
  ∀ s : State,
    (∀ (mv cur : Nat → Nat) (model : PowerModel), s.inFullReset = false → s.on Reg.rasInject_arm = false →
      duePeriod s.power.powerAt (us 100) s.now = true → (∀ r, mv r < 65536 ∧ cur r < 65536) →
      let p := (List.range 9).foldl (fun n r => n + mv r * cur r) 0
      let c := s.getF Reg.ptmCap_effective_w * 10000
      ∃ t, exec (.powerSample ((List.range 9).map (fun r => (r, some (mv r, cur r)))) model) s = .next t ∧
        t.getF Reg.ptmPower_sample_w = Nat.min 4095 (p / 10000) ∧
        (∀ r, r < 9 → t.getF (Reg.ptmRail_mv r) = mv r ∧ t.getF (Reg.ptmRail_current r) = cur r) ∧
        (c * 6 < p * 5 → t.on Reg.ptmStatus_cap_limiting = true ∧ ∀ tw : Tower, s.level tw ≠ 3 →
          t.getF (Reg.ptmTDuty_be_duty tw) = Nat.min (Nat.max 1 (s.getF (Reg.ptmTDuty_be_duty tw) / 2))
            (s.getF (Reg.ptmTDuty_be_ceiling tw)))) ∧
    (s.windowDue (ms 100) s.power.winAt = true → s.inFullReset = false →
      ∃ t, exec .powerWindowEnd s = .next t ∧
        t.getF Reg.ptmPower_avg_w = Nat.min 4095 (s.power.winSum / Nat.max 1 s.power.winCount / 10000) ∧
        t.getF Reg.ptmPower_over_us = 0 ∧ t.power = { s.power with winSum := 0, winCount := 0, winAt := s.now } ∧
        { t with regs := s.regs, power := s.power } = s) ∧
    (∀ theta, s.windowDue (ms 100) s.power.flowAt = true → s.fwManages = true →
      let past := fun (tw : Tower) =>
        { s.tpwr tw with residPast := some ((s.tpwr tw).residSum, (s.tpwr tw).residCount) }
      ∃ t, exec (.flowWindowEnd theta) s = .next t ∧ Claims.capShown t ∧ t.power.flowAt = s.now ∧
        (∀ tw : Tower, (t.tpwr tw).residCount = 0 ∧ (t.tpwr tw).residSum = 0 ∧ (t.tpwr tw).residPast = none) ∧
        (s.on Reg.ptmStatus_flow_suspect = false →
          (∃ tw : Tower, flowSuspect (past tw) theta[tw.val]? = true ∧ 1 ≤ (s.tpwr tw).suspectRun) →
          t.on Reg.ptmStatus_flow_suspect = true ∧ .msix 0 ∈ t.out)) ∧
    (∀ inlet flow, s.inFullReset = false →
      ∃ t, exec (.coolantWrite inlet flow) s = .next t ∧ t.getF Reg.ptmCoolant_inlet = inlet.toNat ∧
        t.getF Reg.ptmCoolant_flow = flow.toNat ∧ t.on Reg.ptmStatus_coolant_stale = false ∧
        t.power.coolantAt = some s.now ∧ t.getF Reg.ptmCap_coolant_w = coolantCap inlet.toInt flow.toNat ∧
        Claims.capShown t) ∧
    (s.power.coolantAt.getD 0 + ms 1000 ≤ s.now → s.inFullReset = false →
      ∃ t, exec .coolantStale s = .next t ∧ t.on Reg.ptmStatus_coolant_stale = true ∧
        t.getF Reg.ptmCap_coolant_w = 2000 ∧ Claims.capShown t) ∧
    (s.fwManages = true → duePeriod s.power.trimAt (ms 10) s.now = true →
      exec .trimStep s = .next { s with power := { s.power with trimAt := some s.now } }) ∧
    (∀ (tw : Tower) target, s.fwManages = true → s.on (Reg.ptmRail_stale tw) = false →
      s.on (Reg.ptmTState_tripped tw) = false →
      (s.level tw ≠ 3 → (s.tpwr tw).vcoreAt + ms 1 ≤ s.now →
        ∃ t, exec (.vcoreUpdate tw target) s = .next t ∧ (t.tpwr tw).vcoreAt = s.now ∧
          t.getF (Reg.ptmTVcore_target_mv tw) = Nat.max 620 (Nat.min 850 target) ∧
          620 ≤ t.vcoreNow tw ∧ t.vcoreNow tw ≤ 850 ∧ ∀ k : Tower, t.railNow k = s.railNow k) ∧
      (620 ≤ s.vcoreNow tw → s.vcoreNow tw ≤ 850 →
        let v := s.railNow tw
        let goal := s.vcoreNow tw
        (s.now % us 10 ≠ 0 → s.vcoreTicks.railNow tw = v) ∧
        (s.now % us 10 = 0 → s.vcoreTicks.railNow tw = (if v ≤ goal then Nat.min goal (v + 5) else Nat.max goal (v - 5)))))

/-- What the firmware does for power (12 R472; 13 R487, R491, R493, R494, R500, R507): a heartbeat ends the fallback, 10 ms
without one begins it with every tower at Overcast or above; a forecast step keeps the offsets within 4 degrees; dew risk
is shown after 1 s of every heater; the gates of a period take the duties; the rise of a 10 ms window bounds the
BEST_EFFORT ceiling of the next. -/
def Obligations.FirmwareOfPower : Prop :=
  ∀ (s : State) (tw : Tower), (∀ k : Tower, (s.tpwr k).detector ≤ 3) →
    (s.fwUp = true → s.power.beatAt + ms 1 ≤ s.now → ∃ t, exec .heartbeat s = .next t ∧
      t.getF Reg.glbHeartbeat_count = (s.getF Reg.glbHeartbeat_count + 1) % 2 ^ 32 ∧ t.on Reg.glbState_fw_alive = true ∧
      t.on Reg.ptmStatus_fw_fallback = false ∧ t.power = { s.power with beatAt := s.now } ∧
      { t with regs := s.regs, power := s.power } = s) ∧
    (s.on Reg.glbState_fw_alive = true → s.power.beatAt + ms 10 ≤ s.now →
      ∃ t, exec .fwAliveLost s = .next t ∧ t.on Reg.glbState_fw_alive = false ∧ t.on Reg.ptmStatus_fw_fallback = true ∧
        2 ≤ t.level tw ∧ t.getF (Reg.ptmTDuty_lat_duty tw) = Nat.min 8 (t.getF (Reg.ptmTDuty_lat_ceiling tw)) ∧
        t.getF (Reg.ptmTDuty_be_duty tw) = Nat.min 4 (t.getF (Reg.ptmTDuty_be_ceiling tw))) ∧
    (∀ hot zones, s.fwManages = true → duePeriod s.power.forecastAt (us 100) s.now = true →
      ∃ t, exec (.forecastStep hot zones) s = .next t ∧ t.on Reg.ptmStatus_forecast_running = true ∧
        ((∀ k, -2048 ≤ (s.hotSpot k).offset ∧ (s.hotSpot k).offset ≤ 2048) →
          ∀ k, -2048 ≤ (t.hotSpot k).offset ∧ (t.hotSpot k).offset ≤ 2048)) ∧
    (∀ t0, (s.tpwr tw).heatersFullSince = some t0 → t0 + ms 1000 ≤ s.now → s.fwManages = true →
      s.on Reg.ptmStatus_dew_risk = false → s.layer7Below tw (8 * s.getF Reg.ptmProfile_dew_floor) = true →
      ∃ t, exec (.dewRisk tw) s = .next t ∧ t.on Reg.ptmStatus_dew_risk = true ∧ t.out = s.out ++ [.msix 0] ∧
        { t with regs := s.regs, out := s.out } = s) ∧
    (s.now % 1000 = 0 →
      ∃ t, exec .gatePeriod s = .next t ∧ { t with gates := s.gates } = s ∧ ∀ b, b < 32 →
        t.gate tw b false = (if s.blockHeld tw b then Nat.min (s.getF (Reg.ptmTDuty_lat_duty tw)) 8
          else s.getF (Reg.ptmTDuty_lat_duty tw)) ∧
        t.gate tw b true = (if s.blockHeld tw b then Nat.min (s.getF (Reg.ptmTDuty_be_duty tw)) 4
          else s.getF (Reg.ptmTDuty_be_duty tw))) ∧
    (s.windowDue (ms 10) (s.tpwr tw).riseAt = true → s.inFullReset = false →
      let rise := (maxOver (fun k =>
        let x := s.hotSpot k
        match x.winFirst, x.hist.head? with
        | some a, some b => some (b - a)
        | _, _ => none) (logicOf tw)).getD 0
      let top := beCeiling (s.level tw)
      let present := Nat.min top (s.tpwr tw).beCeiling
      ∃ t, exec (.riseWindowEnd tw) s = .next t ∧
        (t.tpwr tw).beCeiling = (if s.fwManages = true then
          Nat.max 1 (if 16 < rise then present / 2 else Nat.min (present + 2) top) else (s.tpwr tw).beCeiling) ∧
        t.getF (Reg.ptmTDuty_be_ceiling tw) = Nat.min top (t.tpwr tw).beCeiling ∧
        ∀ k ∈ logicOf tw, (t.hotSpot k).winFirst = none)

/-! ## Reset and clocks -/

/-- A full reset from a source has begun (14 R510, R512, R530): SYS_RESET_N is driven low, RST_CAUSE has the source's
bit, and a source that persists is held. Where none ran before, RST_CAUSE counts the reset, retained storage, the fuses
and the registers of the VAUX domain are kept, every other register but GLB_STATE is at its reset value, and GLB_STATE
says BOOTING; cores, vault contents and channels are gone. -/
def Claims.inReset (s t : State) (x : ResetSource) : Prop :=
  t.rst.phase = .driving s.driveUntil ∧ t.on (causeBit x) = true ∧ (x.persists = true → x ∈ t.rst.sources) ∧
  t.pending = s.pending ∧ t.chip = s.chip ∧ t.now = s.now ∧ t.rst.retained = s.rst.retained ∧
  (s.inFullReset = false →
    t.getF Reg.rstCause_full_resets = Nat.min (s.getF Reg.rstCause_full_resets + 1) 65535 ∧
    t.getF Reg.glbState_state = 0 ∧ t.getF Reg.glbState_crash_record = s.getF Reg.glbState_crash_record ∧
    (∀ a, a ≠ 0x00400000 → retainedReg a = true → t.reg a = s.reg a) ∧
    (∀ a, a ≠ 0x10 → retainedReg a = false → t.reg a = State.reset.reg a) ∧
    t.cores = [] ∧ t.chans = [] ∧ t.jobs = [] ∧ t.queues = [] ∧ (∀ v, (t.vault v).mem = [] ∧ (t.vault v).bg = none))

/-- Full resets (12 R424, R473; 14 R510, R512, R513, R525, R527; 18 R616): what begins one and what does not, the release
of SYS_RESET_N, the exit from tick 0 on, and a step that exceeds its bound. -/
def Obligations.FullResets : Prop :=
  ∀ s : State,
    (∃ t, exec .coldReset s = .next t ∧ t.on Reg.rstCause_power_on = true ∧ t.rst.vauxOk = true ∧
      t.rst.retained = [] ∧ t.rst.phase = .driving s.driveUntil ∧
      (∀ a, a ≠ 0x00400000 → t.reg a = State.reset.reg a) ∧ t.cores = [] ∧ t.chip = s.chip) ∧
    (∃ t, exec .vauxLoss s = .next t ∧ t.rst.vauxOk = false ∧ t.rst.retained = [] ∧ t.rst.sources = [.powerOn] ∧
      (∀ a, t.reg a = State.reset.reg a) ∧ t.chip = s.chip) ∧
    (∀ ns, (ns < 100 → exec (.sysResetNLow ns) s = .next s) ∧
      (100 ≤ ns → s.rst.vauxOk = true → ∃ t, exec (.sysResetNLow ns) s = .next t ∧ Claims.inReset s t .pin)) ∧
    (s.rst.vauxOk = true → ∃ t, exec .perstNAssert s = .next t ∧ Claims.inReset s t .perst) ∧
    (∃ t, exec .perstNDeassert s = .next t ∧
      t = { s with rst := { s.rst with sources := s.rst.sources.filter (fun x => x != .perst) } }) ∧
    (∃ t, exec .pcieLinkDown s = .next t ∧ t.on Reg.hifLink_up = false ∧ { t with regs := s.regs } = s ∧
      ∀ a, a ≠ 0x00100000 → t.reg a = s.reg a) ∧
    (s.inFullReset = false →
      (bit (fieldLE s.rst.optBytes 0x71 1) 0 = false → ∃ t, exec .hotReset s = .next t ∧ Claims.inReset s t .hotReset) ∧
      (bit (fieldLE s.rst.optBytes 0x71 1) 0 = true → ∃ t, exec .hotReset s = .next t ∧ t.on Reg.hifLink_up = false ∧
        { t with regs := s.regs } = s ∧ ∀ a, a ≠ 0x00100000 → t.reg a = s.reg a) ∧
      (∀ wide rate, ∃ t, exec (.hostLinkUp wide rate) s = .next t ∧ t.on Reg.hifLink_up = true ∧
        t.getF Reg.hifLink_width = (if wide then 16 else 8) ∧ t.getF Reg.hifLink_rate = 5 + rate.val ∧
        ∀ a, a ≠ 0x00100000 → t.reg a = s.reg a)) ∧
    exec .fullArm s = .next { s with rst := { s.rst with armedAt := some s.now } } ∧
    (∀ a, s.rst.armedAt = some a →
      (s.now < a + ms 1 → ∃ t, exec .fullGo s = .next t ∧ Claims.inReset s t .host) ∧
      (a + ms 1 ≤ s.now → exec .fullGo s = .next s)) ∧
    (s.rst.armedAt = none → exec .fullGo s = .next s) ∧
    (∀ pll, s.rst.vauxOk = true → ∃ t, exec (.referenceLoss pll) s = .next t ∧
      Claims.inReset s t (if pll then .pllUnlock else .refLoss)) ∧
    (∃ t, exec .referenceRestored s = .next t ∧ .refLoss ∉ t.rst.sources ∧ .pllUnlock ∉ t.rst.sources ∧
      { t with rst := { t.rst with sources := s.rst.sources } } = s) ∧
    (∀ u, s.rst.phase = .driving u → u ≤ s.now → s.rst.sources = [] →
      exec .resetStretchEnd s = .next { s with rst := { s.rst with phase := .released } }) ∧
    (∀ ns, (s.rst.phase = .released → ns < 1000 → exec (.fullResetRelease ns) s = .next s) ∧
      (s.rst.phase = .released ∧ 1000 ≤ ns ∨ s.rst.phase = .exiting 1 → ∃ t, exec (.fullResetRelease ns) s = .next t ∧ t.now = 0 ∧
        (t.rst.phase = .exiting 3 ∨ t.rst.phase = .out) ∧ t.on Reg.clkStatus_ref_ok = true ∧
        t.on Reg.clkStatus_pll_locked = true ∧ t.on Reg.clkStatus_serdes_locked = true ∧
        t.rst.optBytes = loadOptions s.chip)) ∧
    (∀ k, s.rst.phase = .exiting k → 1 ≤ k → k ≤ 5 → s.rst.stepAt + us (stepBound k) ≤ s.now →
      ∃ t, exec .startupStepTimeout s = .next t ∧ t.rst.phase = .stuck k ∧
        bit (t.getF Reg.rstStatus_stuck) (k - 1) = true ∧ t.getF Reg.glbState_state = s.getF Reg.glbState_state)

/-- Clocks and the compute-only reset (14 R514 to R517, R527 to R529; 06 R230, R232): a SerDes unlock is counted and
retrains its own link alone; a synchronised tower shows its offset, corrected where it exceeds 4 ns; COMPUTE_GO is refused
with mask 0, while one runs, and in BOOTING and WEDGED; otherwise the towers of the mask drain, their live channels
fault, and the device says COMPUTE_RESET; after the drain the compute domain is at its reset state, its vaults' contents
kept under the keepers; then it is released in band mode for 10 ms; at the end a channel's event says RESET_ABORTED. -/
def Obligations.ClocksAndComputeReset : Prop :=
  ∀ s : State,
    (∀ l : Link, s.inFullReset = false → s.linkState l = lkActive →
      ∃ t, exec (.serdesUnlock (.link l)) s = .next t ∧ t.linkState l = lkRetrain ∧
        t.getF Reg.clkStatus_serdes_unlocks = Nat.min (s.getF Reg.clkStatus_serdes_unlocks + 1) 255 ∧
        ∀ k : Link, k ≠ l → t.linkState k = s.linkState k) ∧
    (∀ (tw : Tower) (offset : Int), s.rst.phase = .out → s.linkState tw = lkActive →
      duePeriod (SMap.find s.rst.syncAt tw) (ms 1) s.now = true →
      ∃ t, exec (.tickSyncCheck tw offset) s = .next t ∧ t.on (Reg.clkTickSync_synced tw) = true ∧
        t.on (Reg.clkTickSync_via_neighbour tw) = false ∧
        t.getF (Reg.clkTickSync_offset tw) = (offset % 256).toNat ∧
        t.getF (Reg.clkTickSync_corrections tw) = (if 4 < offset.natAbs then
          Nat.min (s.getF (Reg.clkTickSync_corrections tw) + 1) 65535 else s.getF (Reg.clkTickSync_corrections tw))) ∧
    (let m := s.getF Reg.rstCtrl_compute_mask
     let sites := fun (i : Nat) => bit m (towerOf i)
     ((m = 0 ∨ s.getF Reg.rstStatus_cr_state ≠ 0 ∨ s.getF Reg.glbState_state = 0 ∨ s.getF Reg.glbState_state = 4) →
      ∃ t, exec .computeGo s = .next t ∧ t.on Reg.rstStatus_cr_refused = true ∧ { t with regs := s.regs } = s) ∧
     (m ≠ 0 → s.getF Reg.rstStatus_cr_state = 0 → s.getF Reg.glbState_state ≠ 0 → s.getF Reg.glbState_state ≠ 4 →
      s.rst.block = none → (∀ i ∈ maskSites m, s.queue i = StageQueue.reset ∧ (s.core i).hold = .none) →
      ∃ t, exec .computeGo s = .next t ∧ t.getF Reg.rstStatus_cr_state = 1 ∧ t.getF Reg.rstStatus_cr_mask = m ∧
        t.getF Reg.glbState_state = 3 ∧ (∀ tw : Tower, bit m tw = true → t.on (Reg.skyStatus_resetting tw) = true) ∧
        (∀ i ∈ maskSites m, (s.coreState i = csRunning ∨ s.coreState i = csBreak) → t.coreState i = csDraining) ∧
        (∀ k, (t.chan k).st = (if k ∈ s.chansOn sites then .faulted else (s.chan k).st)) ∧
        t.rst.crChans = s.chansOn sites)) ∧
    (let m := s.getF Reg.rstStatus_cr_mask
     let sites := fun (i : Nat) => bit m (towerOf i)
     s.getF Reg.rstStatus_cr_state = 1 → s.rst.crSince + us (s.getF Reg.rstCrCfg_drain_us) ≤ s.now →
      ∃ t, exec .drainEnd s = .next t ∧ t.getF Reg.rstStatus_cr_state = 2 ∧
        (∀ i ∈ maskSites m, (t.vault i).keeper = true ∧ (t.vault i).queue = [] ∧ (t.vault i).latches = [] ∧
          t.core i = Core.reset ∧ t.queue i = StageQueue.reset) ∧
        (∀ i, sites i = false → t.core i = s.core i ∧ t.queue i = s.queue i) ∧
        (∀ v, (t.vault v).mem = (s.vault v).mem ∧ (t.vault v).wbuf = (s.vault v).wbuf ∧
          (t.vault v).retired = (s.vault v).retired) ∧
        (∀ a i, computeReg a = some i → sites i = true → t.reg a = State.reset.reg a) ∧
        (∀ j ∈ t.jobs, sites j.site = false)) ∧
    (s.getF Reg.rstStatus_cr_state = 2 →
      ∃ t, exec .heldEnd s = .next t ∧ t.getF Reg.rstStatus_cr_state = 3 ∧
        ∀ i ∈ maskSites (s.getF Reg.rstStatus_cr_mask), (t.vault i).keeper = false ∧ (t.vault i).bandUntil = s.now + ms 10) ∧
    (s.getF Reg.rstStatus_cr_state = 3 → s.sent = [] →
      ∃ t, exec .releaseComplete s = .next t ∧ t.getF Reg.rstStatus_cr_state = 0 ∧ t.rst.crChans = [] ∧
        (∀ tw : Tower, t.on (Reg.skyStatus_resetting tw) = false) ∧
        (s.wedged = false → t.getF Reg.glbState_state = (if s.gradeFails then 2 else 1)) ∧
        t.events = s.events ++ (s.rst.crChans.filter (fun k => (s.chan k).st != .free)).map (fun k =>
          { eq := (s.chan k).eq, kind := 3, site := 0xFFFF, handle := s.handle k, status := stResetAborted, engine := 0
            itag := 0, value := 0, addr := 0 }))

/-- A core and its registers are at their reset values (14 R519). -/
def Claims.coreAtReset (t : State) (i : Nat) : Prop :=
  t.core i = Core.reset ∧ ∀ a, coreReg a = some i → t.reg a = State.reset.reg a

/-- Block resets (14 R519 to R521): a write of RST_BLOCK with go starts one, or is refused; a block that is idle is held in
reset; it is released 1 µs later with its status; one that is not idle in time is withdrawn with BLOCK_BUSY, or forced
with RESET_ABORTED. (For a core that no WAIT holds, a queue that no request awaits and a vault without watches.) -/
def Obligations.BlockResets : Prop :=
  ∀ s : State,
    (∀ v : BitVec 32,
      let n := v.toNat
      let site := bits n 11 0
      let kind := bits n 13 12
      let open_ := s.getF Reg.rstBlockStatus_state = 0 ∧ s.getF Reg.rstStatus_cr_state = 0
      ∃ t, exec (.blockResetGo v) s = .next t ∧ t.getF Reg.rstBlock_site = site ∧ t.getF Reg.rstBlock_kind = kind ∧
        t.getF Reg.rstBlock_timeout_us = Nat.max 1 (bits n 31 16) ∧
        (bit n 15 = false → t.rst = s.rst) ∧
        (bit n 15 = true → ¬ open_ → t.rst = s.rst ∧ t.on Reg.rstBlockStatus_busy_err = true) ∧
        (bit n 15 = true → open_ → (2304 ≤ site ∨ kind = 3) → t.rst = s.rst ∧
          t.getF Reg.rstBlockStatus_last_status = stBadParam) ∧
        (bit n 15 = true → open_ → site < 2304 → kind < 2 → s.coreOn site = false → t.rst = s.rst ∧
          t.getF Reg.rstBlockStatus_last_status = stEngineAbsent) ∧
        (bit n 15 = true → open_ → site < 2304 → (kind = 2 ∨ kind < 2 ∧ s.coreOn site = true) →
          t.getF Reg.rstBlockStatus_state = 1 ∧ t.rst.block = some
            { site := site, kind := kind, force := bit n 14, since := s.now, timeout := Nat.max 1 (bits n 31 16)
              heldAt := 0, status := 0 })) ∧
    (∀ b, s.rst.block = some b → s.getF Reg.rstBlockStatus_state = 1 → s.blockIdle b = true → b.site < 2304 →
      (b.kind = 0 → (s.core b.site).hold = .none →
        ∃ t, exec .blockIdle s = .next t ∧ t.getF Reg.rstBlockStatus_state = 2 ∧ Claims.coreAtReset t b.site ∧
          t.rst.block = some { b with heldAt := s.now, status := stOk }) ∧
      (b.kind = 1 → (s.queue b.site).requests = [] →
        ∃ t, exec .blockIdle s = .next t ∧ t.getF Reg.rstBlockStatus_state = 2 ∧ t.queue b.site = StageQueue.reset ∧
          t.on (Reg.sqCtrl_open b.site) = false ∧ t.rst.block = some { b with heldAt := s.now, status := stOk }) ∧
      (b.kind = 2 → (s.vault b.site).watches = [] →
        ∃ t, exec .blockIdle s = .next t ∧ t.getF Reg.rstBlockStatus_state = 2 ∧ (t.vault b.site).keeper = true ∧
          (t.vault b.site).mem = (s.vault b.site).mem ∧ (t.vault b.site).retired = (s.vault b.site).retired ∧
          t.rst.block = some { b with heldAt := s.now, status := stOk })) ∧
    (∀ b, s.rst.block = some b → s.getF Reg.rstBlockStatus_state = 2 → b.heldAt + us 1 ≤ s.now → b.status < 256 →
      (s.vault b.site).waiting = [] →
      ∃ t, exec .blockResetRelease s = .next t ∧ t.rst.block = none ∧ t.getF Reg.rstBlockStatus_state = 0 ∧
        t.getF Reg.rstBlockStatus_last_status = b.status ∧ (b.kind = 2 → (t.vault b.site).keeper = false)) ∧
    (∀ b, s.rst.block = some b → s.getF Reg.rstBlockStatus_state = 1 → b.since + us b.timeout ≤ s.now →
      ((b.force = false ∨ b.kind = 2) → (s.vault b.site).waiting = [] →
        ∃ t, exec .blockResetTimeout s = .next t ∧ t.on Reg.rstBlockStatus_timed_out = true ∧ t.rst.block = none ∧
          t.getF Reg.rstBlockStatus_state = 0 ∧ t.getF Reg.rstBlockStatus_last_status = stBlockBusy) ∧
      (b.force = true → b.kind = 0 → b.site < 2304 → (s.core b.site).hold = .none →
        ∃ t, exec .blockResetTimeout s = .next t ∧ t.on Reg.rstBlockStatus_timed_out = true ∧
          t.getF Reg.rstBlockStatus_state = 2 ∧ Claims.coreAtReset t b.site ∧
          t.rst.block = some { b with heldAt := s.now, status := stResetAborted }))

/-! ## Bring-up and trust -/

/-- Boot has stopped with an outcome (15 R532): FAILED, the outcome shown, the flash released, GLB_STATE as it was. -/
def Claims.bootStopped (s t : State) (st : Nat) : Prop :=
  t.bootStage = stageFailed ∧ t.getF Reg.bootStatus_status = st ∧ t.on Reg.bootStatus_flash_released = true ∧
  t.getF Reg.glbState_state = s.getF Reg.glbState_state

/-- The stages of boot (15 R531 to R533, R535, R538, R539, R547, R549 to R552, R555, R557; 06 R241): each stage's work, what it
leaves and the stage after it, and what ends boot with IMAGE_INCOMPLETE, SIG_INVALID or IMAGE_ROLLBACK. -/
def Obligations.BootStages : Prop :=
  ∀ s : State,
    (s.rst.phase = .out → s.bootStage = 0 →
      (∀ n, n ≤ 0x10000000 → ∃ t, exec (.romStart (some n)) s = .next t ∧ t.bootStage = 1 ∧ t.boot.stageAt = s.now) ∧
      (∃ t, exec (.romStart none) s = .next t ∧ Claims.bootStopped s t stImageIncomplete)) ∧
    (s.rst.phase = .out → s.bootStage = 1 →
      (∃ t, exec (.manifest none) s = .next t ∧ Claims.bootStopped s t stImageIncomplete) ∧
      (∀ m st, s.manifestOutcome m (s.on Reg.bootInject_sig_fail) = some st →
        ∃ t, exec (.manifest (some m)) s = .next t ∧ Claims.bootStopped s t st) ∧
      (∀ m, s.manifestOutcome m (s.on Reg.bootInject_sig_fail) = none →
        ∃ t, exec (.manifest (some m)) s = .next t ∧ t.bootStage = 2 ∧ t.boot.manifest = some (manifestOf m) ∧
          t.getF Reg.bootImage_version = fieldLE m 16 8 % 2 ^ 32 ∧ t.getF Reg.bootImage_svn = fieldLE m 7 1 ∧
          t.getF Reg.bootImage_segments = fieldLE m 12 4 ∧ s.chip.svnFloor ≤ fieldLE m 7 1)) ∧
    (∀ k x reads, s.segs[k]? = some x → s.mayRead x.1 = true → s.loaded k = false →
      (∀ bs, (reads.take 3).find? (readMatches x) = some bs →
        ∃ t, exec (.segmentRead k reads) s = .next t ∧ SMap.find t.boot.image k = some bs ∧ bs.length = x.2.1 ∧
          sha384 bs = x.2.2.2 ∧ { t with boot := { t.boot with image := s.boot.image } } = s) ∧
      (3 ≤ reads.length → (reads.take 3).find? (readMatches x) = none →
        ∃ t, exec (.segmentRead k reads) s = .next t ∧ Claims.bootStopped s t stImageIncomplete)) ∧
    (s.bootStage = 2 → s.classLoaded 0 = true →
      ∃ t, exec .mgmtLoad s = .next t ∧ t.bootStage = 3 ∧ t.on Reg.secStatus_secret_locked = true ∧
        ∀ r ∈ [(4, 1050), (5, 1800), (6, 750), (7, 900), (8, 1800)], t.getF (Reg.ptmRail_target_mv r.1) = r.2) ∧
    (∀ log, s.bootStage = 3 → s.fwUp = true →
      ∃ t, exec (.fwInit log) s = .next t ∧ t.bootStage = 4 ∧
        ∀ r, log = [r] → s.recordValid r = true → s.pendRecords = [] → fieldLE r 4 1 = 1 → fieldLE r 6 2 < 2304 →
          (s.vault (fieldLE r 6 2)).retired.length < 64 → s.vaultState (fieldLE r 6 2) ≠ vsRetired →
          fieldLE r 16 1 % 8 * 65536 + fieldLE r 17 1 % 16 * 4096 + fieldLE r 18 2 % 4096 ∈
            (t.vault (fieldLE r 6 2)).retired) ∧
    (∀ rows, s.bootStage = 4 → (∀ v, (s.vault v).retired.length + rows.length < 64) →
      ∃ t, exec (.memTest rows []) s = .next t ∧ t.bootStage = 5 ∧
        t.on Reg.bootStatus_mem_full = (fieldLE s.rst.optBytes 0x82 1 == 1) ∧
        ∀ r ∈ rows, r.1 < 2304 → r.2 < 2 ^ 19 → s.vaultState r.1 ≠ vsRetired → r.2 ∈ (t.vault r.1).retired) ∧
    (s.bootStage = 5 →
      ∃ t, exec .initFill s = .next t ∧ (t.bootStage = 6 ∨ t.bootStage = 7) ∧
        ∀ v, (t.vault v).bg = some 0 ∧ (t.vault v).mem = [] ∧ (t.vault v).wbuf = [] ∧
          (v < 2304 → s.vaultState v ≠ vsRetired → t.vaultState v = vsInService)) ∧
    (∀ failed towers, s.bootStage = 8 → s.on Reg.bootInject_core_fail = false →
      ∃ t, exec (.coreTest failed towers) s = .next t ∧ t.bootStage = 9 ∧ t.boot.towerBad = towers ∧
        ∀ i, i ∈ t.boot.coreFail ↔ i ∈ failed ∧ i < 2304 ∧ s.eligible i = true ∧ (s.receiver i).absent = false) ∧
    (s.bootStage = 9 → s.fwUp = true →
      ∃ t, exec .reconcile s = .next t ∧ t.bootStage = stageDone ∧ t.on Reg.bootStatus_flash_released = true ∧
        t.getF Reg.glbState_state = (if t.gradeFails then 2 else 1) ∧
        (∀ tw : Tower, t.getF (Reg.bootTower_enabled tw) = Nat.min s.gradeCount
          ((List.range 576).filter (fun j => s.coreVerdict (576 * tw + j) == 0)).length) ∧
        (∀ k, k < 64 → t.pendRecord k = List.replicate 64 0)) ∧
    (s.rst.phase = .out → s.bootStage ≤ 9 → s.bootStage ≠ 7 → s.boot.stageAt + ms (bootBound s.bootStage) ≤ s.now →
      ∃ t, exec .bootStageTimeout s = .next t ∧ Claims.bootStopped s t stImageIncomplete) ∧
    exec .svnArm s = .next { s with boot := { s.boot with svnArmed := some s.now } } ∧
    (∀ a m, s.boot.svnArmed = some a → s.boot.manifest = some m → s.now < a + ms 1 → s.inService = true →
      ∃ t, exec .svnCommit s = .next t ∧ t.chip.svnFloor = Nat.max s.chip.svnFloor m.svn ∧
        t.chip = { s.chip with svnFloor := t.chip.svnFloor, imageRevoked := t.chip.imageRevoked } ∧
        (bit s.chip.imageRevoked m.keySlot = false → bit t.chip.imageRevoked m.keySlot = false) ∧
        (∀ k, k ≠ m.keySlot → bit t.chip.imageRevoked k = (bit s.chip.imageRevoked k || bit m.revoke k)) ∧
        (t.chip ≠ s.chip → t.on Reg.secSvnCommit_done = true))

/-- A receiver has the end marker (15 R543 to R545): what it missed is marked, and it fetches the first missed segment,
after the requests of earlier cycles and by site among those of its own, or has finished. -/
def Claims.marked (s t : State) (i count : Nat) : Prop :=
  let r := s.markMissed (s.receiver i) (s.receiver i).next count
  let after := fun (j : Nat) => (s.receiver j).fetchAt == s.now && decide (i < j)
  (t.receiver i).marked = true ∧ (t.receiver i).missed = r.missed ∧
  (r.missed = [] → (t.receiver i).done = true) ∧
  (r.missed ≠ [] → t.boot.fetchQ = s.boot.fetchQ.filter (fun j => !after j) ++ [i] ++ s.boot.fetchQ.filter after ∧
    (t.receiver i).fetchAt = s.now ∧
    t.getF Reg.bootRain_fetches = Nat.min (s.getF Reg.bootRain_fetches + 1) 65535)

/-- Rainfall and fetches (15 R541 to R546): a segment's pieces rain in order; a receiver with room writes a piece where it
belongs in its own vault and marks what it missed; the end marker, or 1 ms without one, starts its fetches; the I/O die
serves them in order; a good answer is written, a third bad one makes the core ABSENT; the stage's bound makes every
receiver still at work ABSENT. -/
def Obligations.RainfallAndFetches : Prop :=
  ∀ (s : State) (i : Site),
    let r := s.receiver i
    let at_ := fun (e : Nat × Segment) (o n : Nat) =>
      e.2.2.2.1 + o + n ≤ vaultSize ∧ readStatus (s.wordsOf i (e.2.2.2.1 + o) n) = stOk
    (∀ k e, s.coreSegs[k]? = some e → s.bootStage = 6 → k = s.boot.rained → s.loaded e.1 = true →
      ∃ t, exec (.rainfall k) s = .next t ∧ t.boot.rained = k + 1 ∧
        t.getF Reg.bootRain_pieces = (s.getF Reg.bootRain_pieces + pieceCount e.2) % 2 ^ 32 ∧
        t.bootStage = (if k + 1 = s.coreSegs.length then 7 else 6)) ∧
    (∀ num full, s.eligible i = true → num < s.getF Reg.bootRain_pieces → r.next ≤ num → r.marked = false →
      (s.bootStage = 6 ∨ s.bootStage = 7) → ¬ (s.on Reg.bootInject_drop = true ∧ s.getF Reg.bootInject_site = i) →
      (full = true → exec (.rainfallPiece i num full) s = .next s) ∧
      (∀ j p e, full = false → placePiece s.coreSegs 0 num = some (j, p) → s.coreSegs[j]? = some e →
        let data := slice ((SMap.find s.boot.image e.1).getD []) (256 * p) 256
        at_ e (256 * p) data.length →
        ∃ t, exec (.rainfallPiece i num full) s = .next t ∧ (t.receiver i).next = num + 1 ∧
          (t.receiver i).lastAt = some s.now ∧ (t.receiver i).missed = (s.markMissed r r.next num).missed ∧
          t.vaultHolds8 i (e.2.2.2.1 + 256 * p) (clean data) ∧ s.vaultKept t i (e.2.2.2.1 + 256 * p) data.length)) ∧
    (s.bootStage = 7 → s.eligible i = true → r.marked = false → r.done = false →
      (∃ t, exec (.endMarker i (s.getF Reg.bootRain_pieces)) s = .next t ∧
        Claims.marked s t i (s.getF Reg.bootRain_pieces)) ∧
      (∀ t0, r.lastAt = some t0 → t0 + ms 1 ≤ s.now →
        ∃ t, exec (.endMarkerTimeout i) s = .next t ∧ Claims.marked s t i (s.getF Reg.bootRain_pieces))) ∧
    (∀ k rest, s.boot.fetchQ = k :: rest →
      ∃ t, exec (.segmentFetch none) s = .next t ∧ t.boot.fetchQ = rest ∧ (t.receiver k).served = true ∧
        (∀ j, j ≠ k → t.receiver j = s.receiver j)) ∧
    (∀ e, s.coreSegs[r.missed.headD 0]? = some e → s.bootStage = 7 → r.marked = true → r.done = false → r.missed ≠ [] →
      s.on Reg.bootInject_absent = false →
      (∀ bs, r.served = true → s.now < r.fetchAt + ms 2 → readMatches e.2 bs = true → at_ e 0 bs.length → s.eligible i = true →
        ∃ t, exec (.fetchAttemptEnd i (some bs)) s = .next t ∧ t.vaultHolds8 i e.2.2.2.1 (clean bs) ∧
          (t.receiver i).missed = r.missed.drop 1 ∧ (t.receiver i).attempts = 0 ∧
          (t.receiver i).done = (r.missed.drop 1).isEmpty) ∧
      (r.fetchAt + ms 2 ≤ s.now →
        ∃ t, exec (.fetchAttemptEnd i none) s = .next t ∧
          t.getF Reg.bootRain_fetch_failed = Nat.min (s.getF Reg.bootRain_fetch_failed + 1) 65535 ∧
          (2 ≤ r.attempts → (t.receiver i).absent = true ∧ (t.receiver i).done = true ∧ (t.receiver i).missed = []) ∧
          (r.attempts < 2 → (t.receiver i).attempts = r.attempts + 1 ∧ (i : Nat) ∈ t.boot.fetchQ))) ∧
    (s.bootStage = 7 → s.boot.stageAt + ms 10 ≤ s.now →
      ∃ t, exec .fetchStageTimeout s = .next t ∧ t.bootStage = 8 ∧
        (s.eligible i = true → r.done = false → (t.receiver i).absent = true) ∧
        (r.done = true → t.receiver i = r))

/-! ## Errors, the crash record, debug and management -/

/-- The crash handler has run (16 R585 to R587) with the work that the management cores did of it: where no record is
kept yet, their sections stand, and the header that core 0 wrote, its writer 0, with the record locked; a record that is
kept stays. Without core 0's header the hardware writer is due. -/
def Claims.crashed (s t : State) (cause detail : Nat) (h : CrashWork) : Prop :=
  (h.header = false → t.ras.crashes = s.ras.crashes ++ [(s.now, cause, detail, crashCores h)]) ∧
  (h.header = true → t.ras.crashes = s.ras.crashes ∧ t.on Reg.rstRetCtrl_crash_lock = true) ∧
  (s.on Reg.rstRetCtrl_crash_lock = false →
    (h.header = true → t.on Reg.glbState_crash_record = true ∧
      t.retBytes 0 8 = toLE 4 crashMagic ++ toLE 1 1 ++ toLE 1 cause ++ toLE 1 0 ++ toLE 1 (crashCores h)) ∧
    ∀ (c : Fin 4) bs, h.sections[c.val]? = some (some bs) → bs.length = 2048 →
      t.retBytes (0x400 + 2048 * c) 2048 = bs) ∧
  (s.on Reg.rstRetCtrl_crash_lock = true →
    ∀ k, 8 ≤ k → EccMem.word retZero t.rst.retained k = EccMem.word retZero s.rst.retained k)

/-- The device is wedged (16 R583 to R585): GLB_STATE says WEDGED, a FATAL record and vector 0 go out, and the crash
handler runs. -/
def Claims.wedged (s t : State) (kind cause detail : Nat) (h : CrashWork) : Prop :=
  t.getF Reg.glbState_state = 4 ∧ .msix 0 ∈ t.out ∧ Claims.crashed s t cause detail h ∧
  ∃ x ∈ t.records, x.cls = 4 ∧ x.kind = kind ∧ x.site = 0xFFFF

/-- Errors and the crash record (16 R571 to R575, R583 to R587): the record of a cycle that comes first enters the log at
tail, its class is counted, an uncorrected one shows in GLB_ERR; of the CE records of one source only the first of a
window is logged; a watchdog or an uncorrectable error of the management SRAM wedges the device; the hardware writes the
crash record where core 0 has not within 1 ms; after a panic the device goes on; a later crash leaves the record; the
release unlocks it. -/
def Obligations.ErrorsAndCrashes : Prop :=
  ∀ s : State,
    (∀ r rs, s.records = r :: rs → s.logCount < 1023 →
      let k := nextRecord 1 0 r rs
      let x := s.records.getD k r
      let tail := s.getF Reg.rasLogIdx_tail
      let w := SMap.get (fun _ => (0, 0)) s.ras.ceWin x.source
      (x.cls ≠ 0 →
        ∃ t, exec .errorRecord s = .next t ∧ t.records = dropAt s.records k ∧
          t.logEntry tail = leNat (recordBytes x) % 2 ^ 256 ∧ t.getF Reg.rasLogIdx_tail = (tail + 1) % 1024 ∧
          (∀ j, j ≠ tail → t.logEntry j = s.logEntry j) ∧ t.on Reg.rasStatus_pending = true ∧
          t.getF (classCount x.cls) = satAdd (fldWidth (classCount x.cls)) (s.getF (classCount x.cls)) 1 ∧
          (2 ≤ x.cls → t.on Reg.glbErr_uncorrected = true)) ∧
      (x.cls = 0 →
        (w.1 = s.ceWindow x.tick + 1 →
          ∃ t, exec .errorRecord s = .next t ∧ t.records = dropAt s.records k ∧ t.ras.log = s.ras.log ∧
            { t with records := s.records, ras := s.ras } = s ∧
            SMap.get (fun _ => (0, 0)) t.ras.ceWin x.source = (w.1, Nat.min 65535 (w.2 + 1))) ∧
        (w.1 ≠ s.ceWindow x.tick + 1 →
          ∃ t, exec .errorRecord s = .next t ∧ t.records = dropAt s.records k ∧
            t.logEntry tail = leNat (recordBytes { x with suppressed := w.2 }) % 2 ^ 256 ∧
            t.getF Reg.rasLogIdx_tail = (tail + 1) % 1024 ∧
            t.getF (classCount 0) = satAdd (fldWidth (classCount 0)) (s.getF (classCount 0)) 1))) ∧
    (s.fwUp = true →
      (∀ (c : Fin 4) h, ∃ t m, exec (.watchdogExpire ⟨c, h⟩) s = .next t ∧ t.getF Reg.rasWdog_expired = m ∧ bit m c = true ∧
        Claims.wedged s t 25 1 m h) ∧
      (∃ t, exec .mgmtSramUncorrectable s = .next t ∧ t.on Reg.rasWdog_mgmt_ecc = true ∧
        Claims.wedged s t 22 2 0 s.freeWork.2)) ∧
    (∀ a cause detail cores rest, s.ras.crashes = (a, cause, detail, cores) :: rest → a + ms 1 ≤ s.now →
      ∃ t, exec .crashWriterTimeout s = .next t ∧ t.ras.crashes = rest ∧ t.on Reg.rstRetCtrl_crash_lock = true ∧
        (s.on Reg.rstRetCtrl_crash_lock = false → t.on Reg.glbState_crash_record = true ∧
          t.retBytes 0 8 = toLE 4 crashMagic ++ toLE 1 1 ++ toLE 1 cause ++ toLE 1 1 ++ toLE 1 cores) ∧
        (s.on Reg.rstRetCtrl_crash_lock = true →
          ∀ k, 8 ≤ k → EccMem.word retZero t.rst.retained k = EccMem.word retZero s.rst.retained k)) ∧
    ((EccMem.word retZero s.rst.retained 0).decode.kind = .clean →
      ∃ t, exec .crashRelease s = .next t ∧ t.on Reg.rstRetCtrl_crash_lock = false ∧
        t.on Reg.glbState_crash_record = false ∧ t.retBytes 0 4 = [0, 0, 0, 0]) ∧
    (∀ h, s.fwUp = true →
      ∃ t, exec (.firmwarePanic h) s = .next t ∧ Claims.crashed s t 4 0 h ∧
        t.getF Reg.glbState_state = s.getF Reg.glbState_state)

/-- The debug unit (17 R593 to R604): a step of a core in BREAK resumes it for n instructions, else step_err; a snapshot
writes its records and header to host memory, else snap_err; the event of a cycle that comes first becomes a record, or is
counted when the store is full; the oldest record goes to the trace range, one in a management cycle, and an overflow
record takes its place in the store where events were dropped; each counter's increase is latched. -/
def Obligations.DebugAndTelemetry : Prop :=
  ∀ s : State,
    (∀ v : BitVec 32,
      let i := bits v.toNat 11 0
      let n := bits v.toNat 19 12
      ((n = 0 ∨ 2304 ≤ i ∨ s.stepping = true ∨ s.coreState i ≠ csBreak) →
        ∃ t, exec (.dbgStep v) s = .next t ∧ t.on Reg.dbgStatus_step_err = true ∧ { t with regs := s.regs } = s) ∧
      (n ≠ 0 → i < 2304 → s.stepping = false → s.coreState i = csBreak → (s.core i).wordAt (s.pc i) ≠ .poison →
        ∃ t, exec (.dbgStep v) s = .next t ∧ t.coreState i = csRunning ∧
          t.core i = { s.core i with stepsLeft := n, noBreak := true } ∧ t.dbg.stepSite = some i)) ∧
    (∀ (v : BitVec 32) (ok : Bool),
      let c := s.chan (bits v.toNat 13 0)
      let may := s.on Reg.dbgStatus_snap_busy = false ∧ (c.st = .live ∨ c.st = .faulted) ∧ ok = true
      let recs := (sitesUp c.cores).filterMap s.snapOf
      let base := s.getF Reg.dbgSnapAddr_addr * 64
      (bit v.toNat 14 = false → ∃ t, exec (.snapshot v ok) s = .next t ∧ { t with regs := s.regs } = s) ∧
      (bit v.toNat 14 = true → ¬ may → ∃ t, exec (.snapshot v ok) s = .next t ∧ t.on Reg.dbgStatus_snap_err = true ∧
        { t with regs := s.regs } = s) ∧
      (bit v.toNat 14 = true → may → ∃ t e, exec (.snapshot v ok) s = .next t ∧ s.now < e ∧ e ≤ s.now + ms 1 ∧
        t.out = s.out ++ (recs.zip (List.range recs.length)).map (fun r =>
            Out.hostWrite (base + 32 + 32 * r.2) (clean r.1)) ++
          [.hostWrite base (clean (toLE 4 recs.length ++ List.replicate 4 0 ++ toLE 8 s.now ++ toLE 8 e ++
            List.replicate 8 0))] ∧
        { t with regs := s.regs, out := s.out, fresh := s.fresh } = s)) ∧
    (∀ a rest, s.dbg.incoming = a :: rest →
      let r := traceNext a rest []
      (s.dbg.store.length < traceStore →
        exec .traceRecord s = .next { s with dbg := { s.dbg with incoming := r.2, store := s.dbg.store ++ [r.1] } }) ∧
      (traceStore ≤ s.dbg.store.length →
        ∃ t, exec .traceRecord s = .next t ∧ t.dbg.store = s.dbg.store ∧ t.dbg.incoming = r.2 ∧
          t.dbg.droppedSince = s.dbg.droppedSince + 1 ∧
          t.getF Reg.dbgTraceCnt_dropped = Nat.min (s.getF Reg.dbgTraceCnt_dropped + 1) (2 ^ 24 - 1))) ∧
    (∀ r rest, s.dbg.store = r :: rest → r.length = 16 → s.on Reg.dbgTraceCtrl_enable = true → s.dbg.stopped = false →
      s.dbg.wroteAt ≠ some (s.now / 2) →
      let len := s.getF Reg.dbgTraceLen_len / 64 * 64
      let x := s.skyRange ioDie (s.getF Reg.dbgTraceBase_base + s.dbg.pos) 16 stTranslation true 0
      len ≠ 0 → x.st = stOk → x.ready = true → s.piecesClean x.pieces → piecesApart x.pieces →
      ∃ t, exec .traceWrite s = .next t ∧ t.piecesHold x.pieces (clean r) ∧ s.vaultsKeptBut t x.pieces ∧
        t.dbg.store = (if s.dbg.droppedSince = 0 then rest else rest ++
          [toLE 4 s.now ++ toLE 4 s.dbg.droppedSince ++ List.replicate 4 0 ++ toLE 4 (2 * 2 ^ 12)]) ∧
        t.dbg.droppedSince = 0 ∧ t.dbg.wroteAt = some (s.now / 2) ∧ t.dbg.pos = (if len ≤ s.dbg.pos + 16 then 0 else s.dbg.pos + 16) ∧
        (len ≤ s.dbg.pos + 16 → s.on Reg.dbgTraceCtrl_wrap = false → t.on Reg.dbgStatus_trace_full = true ∧
          t.dbg.stopped = true)) ∧
    (s.now % 1000000 = 0 → s.dbg.latchedAt ≠ some s.now →
      ∃ t, exec .telemetryLatch s = .next t ∧ ∀ (tw : Tower) (k : Fin 6),
        t.getF (Reg.telSum_sum (8 * tw + k)) = ((telCounters tw k).map (fun c =>
          (s.getF c.2 + (2 ^ 48 - SMap.get (fun _ => 0) s.dbg.last c.1)) % 2 ^ 48)).foldl (· + ·) 0 % 2 ^ 48)

/-- A management message has been answered (15 R558, 17 R605, 18 R620): the answer goes out, and over I3C, once the device
has its dynamic address, an in-band interrupt. -/
def Claims.answeredMgmt (s t : State) (o : Out) : Prop :=
  t.out = s.out ++ o :: (if s.rst.i3cAddr = 0 then [] else [.ibi]) ∧ { t with out := s.out } = s

/-- The management interfaces (15 R558, R559; 17 R605; 18 R620): SPDM and PLDM are answered while the firmware runs and the
device is READY, GRADE_FAULT or in COMPUTE_RESET, each sensor of the table with the value of its register and no other;
SETDASA gives the I3C target its dynamic address. -/
def Obligations.ManagementMessages : Prop :=
  ∀ (s : State) (q a : List Byte),
    let g := s.getF Reg.glbState_state
    let up := s.fwUp = true ∧ (g = 1 ∨ g = 2 ∨ g = 3)
    (up → ∀ c ∈ [Instr.getVersion q a, .getCapabilities q a, .negotiateAlgorithms q a, .getDigests q a,
        .getCertificate q a, .challenge q a, .spdmUnsupported q a],
      ∃ t, exec c s = .next t ∧ Claims.answeredMgmt s t (.message a)) ∧
    (up → ∃ t, exec (.getMeasurements q a) s = .next t ∧
      Claims.answeredMgmt (s.emit (.measurements ((List.range 7).map (fun k => s.measurement (k + 1))))) t (.message a)) ∧
    (up → ∀ e ∈ [(1, (s.getF Reg.glbPower_power_w : Int)), (2, (s.getF Reg.ptmCap_effective_w : Int)),
        (7, sext 8 (s.getF Reg.glbTemp_logic_max)), (8, sext 8 (s.getF Reg.glbTemp_dram_max)), (9, (s.portsUp : Int))],
      ∃ t, exec (.getSensorReading e.1) s = .next t ∧ Claims.answeredMgmt s t (.reading e.1 e.2)) ∧
    (up → ∀ e ∈ [(3, s.level 0), (4, s.level 1), (5, s.level 2), (6, s.level 3), (10, s.getF Reg.glbErr_uncorrected)],
      ∃ t, exec (.getStateSensorReadings e.1) s = .next t ∧ Claims.answeredMgmt s t (.reading e.1 e.2)) ∧
    (∀ k : Nat, (k ∉ [1, 2, 7, 8, 9] → exec (.getSensorReading k) s = .next s) ∧
      (k ∉ [3, 4, 5, 6, 10] → exec (.getStateSensorReadings k) s = .next s) ∧
      (¬ up → exec (.getSensorReading k) s = .next s ∧ exec (.getStateSensorReadings k) s = .next s)) ∧
    (∀ addr : BitVec 7, s.rst.vauxOk = true → s.rst.i3cAddr = 0 →
      exec (.setdasa addr) s = .next { s with rst := { s.rst with i3cAddr := addr.toNat } })
end

