-- ==== Sys2Proof/Laws/SMap.lean ====
section
/-!
SUPPORT. What the sparse tables promise: a read after a write, every other key untouched, and the canonical form
kept by every update.
-/
namespace Sys2Proof

@[simp] theorem SMap.find_insert_same {α : Type} (k : Nat) (v : α) (m : SMap α) :
    SMap.find (SMap.insert k v m) k = some v := by
  induction m with
  | nil => simp [SMap.insert, SMap.find]
  | cons e m ih =>
    obtain ⟨j, w⟩ := e
    unfold SMap.insert
    split
    · simp [SMap.find]
    · split
      · simp [SMap.find]
      · simp [SMap.find, *]

theorem SMap.find_insert_ne {α : Type} {k i : Nat} (v : α) (m : SMap α) (h : i ≠ k) :
    SMap.find (SMap.insert k v m) i = SMap.find m i := by
  induction m with
  | nil => simp [SMap.insert, SMap.find, h]
  | cons e m ih =>
    obtain ⟨j, w⟩ := e
    unfold SMap.insert
    split
    · simp [SMap.find, h]
    · split
      · subst_vars; simp [SMap.find, h]
      · simp [SMap.find, ih]

theorem SMap.find_erase_ne {α : Type} {k i : Nat} (m : SMap α) (h : i ≠ k) :
    SMap.find (SMap.erase k m) i = SMap.find m i := by
  induction m with
  | nil => rfl
  | cons e m ih =>
    obtain ⟨j, w⟩ := e
    unfold SMap.erase
    split
    · subst_vars; simp [SMap.find, h, ih]
    · simp [SMap.find, ih]

@[simp] theorem SMap.find_erase_same {α : Type} (k : Nat) (m : SMap α) : SMap.find (SMap.erase k m) k = none := by
  induction m with
  | nil => rfl
  | cons e m ih =>
    obtain ⟨j, w⟩ := e
    unfold SMap.erase
    split
    · exact ih
    · rename_i h; simp only [SMap.find, if_neg h]; exact ih

@[simp] theorem SMap.get_insert_same {α : Type} (d : Nat → α) (k : Nat) (v : α) (m : SMap α) :
    SMap.get d (SMap.insert k v m) k = v := by
  simp [SMap.get]

theorem SMap.get_insert_ne {α : Type} (d : Nat → α) {k i : Nat} (v : α) (m : SMap α) (h : i ≠ k) :
    SMap.get d (SMap.insert k v m) i = SMap.get d m i := by
  simp [SMap.get, SMap.find_insert_ne v m h]

theorem SMap.get_put_ne {α : Type} [DecidableEq α] (d : Nat → α) {k i : Nat} (v : α) (m : SMap α) (h : i ≠ k) :
    SMap.get d (SMap.put d k v m) i = SMap.get d m i := by
  unfold SMap.put
  split
  · simp [SMap.get, SMap.find_erase_ne m h]
  · exact SMap.get_insert_ne d v m h

@[simp] theorem SMap.get_put_same {α : Type} [DecidableEq α] (d : Nat → α) (k : Nat) (v : α) (m : SMap α) :
    SMap.get d (SMap.put d k v m) k = v := by
  unfold SMap.put
  split
  · rename_i h; simp [SMap.get, h]
  · simp

/-- A read after a write, at any key. -/
theorem SMap.get_put {α : Type} [DecidableEq α] (d : Nat → α) (k i : Nat) (v : α) (m : SMap α) :
    SMap.get d (SMap.put d k v m) i = if i = k then v else SMap.get d m i := by
  split
  · subst_vars; simp
  · exact SMap.get_put_ne d v m ‹_›

theorem SMap.sortedFrom_weaken {α : Type} {b c : Nat} (m : SMap α) (h : SMap.sortedFrom (some c) m = true)
    (hb : b ≤ c) : SMap.sortedFrom (some b) m = true := by
  cases m with
  | nil => rfl
  | cons e m =>
    simp only [SMap.sortedFrom, Bool.and_eq_true, decide_eq_true_eq] at h ⊢
    exact ⟨by omega, h.2⟩

/-- The lower bound of a sorted table holds for a key. -/
def SMap.above : Option Nat → Nat → Prop
  | none, _ => True
  | some b, k => b < k

theorem SMap.sortedFrom_cons {α : Type} (b : Option Nat) (k : Nat) (v : α) (m : SMap α) :
    SMap.sortedFrom b ((k, v) :: m) = true ↔ SMap.above b k ∧ SMap.sortedFrom (some k) m = true := by
  cases b <;> simp [SMap.sortedFrom, SMap.above]

theorem SMap.sortedFrom_insert {α : Type} (b : Option Nat) (k : Nat) (v : α) (m : SMap α)
    (hs : SMap.sortedFrom b m = true) (hk : SMap.above b k) : SMap.sortedFrom b (SMap.insert k v m) = true := by
  induction m generalizing b with
  | nil => exact (SMap.sortedFrom_cons _ _ _ _).2 ⟨hk, rfl⟩
  | cons e m ih =>
    obtain ⟨j, w⟩ := e
    rw [SMap.sortedFrom_cons] at hs
    unfold SMap.insert
    split
    · rename_i h
      simp only [SMap.sortedFrom_cons]
      exact ⟨hk, h, hs.2⟩
    · split
      · subst_vars; rw [SMap.sortedFrom_cons]; exact hs
      · rw [SMap.sortedFrom_cons]
        refine ⟨hs.1, ih _ hs.2 ?_⟩
        simp only [SMap.above]; omega

theorem SMap.sortedFrom_erase {α : Type} (b : Option Nat) (k : Nat) (m : SMap α)
    (hs : SMap.sortedFrom b m = true) : SMap.sortedFrom b (SMap.erase k m) = true := by
  induction m generalizing b with
  | nil => exact hs
  | cons e m ih =>
    obtain ⟨j, w⟩ := e
    rw [SMap.sortedFrom_cons] at hs
    unfold SMap.erase
    split
    · cases b with
      | none => exact ih none (by
          cases m with
          | nil => rfl
          | cons f m => exact (SMap.sortedFrom_cons _ _ _ _).2 ⟨trivial, ((SMap.sortedFrom_cons _ _ _ _).1 hs.2).2⟩)
      | some b => exact ih _ (SMap.sortedFrom_weaken m hs.2 (Nat.le_of_lt hs.1))
    · rw [SMap.sortedFrom_cons]; exact ⟨hs.1, ih _ hs.2⟩

theorem SMap.noDefault_insert {α : Type} [DecidableEq α] (d : Nat → α) (k : Nat) (v : α) (m : SMap α)
    (hn : SMap.noDefault d m = true) (hv : v ≠ d k) : SMap.noDefault d (SMap.insert k v m) = true := by
  induction m with
  | nil => simp [SMap.insert, SMap.noDefault, hv]
  | cons e m ih =>
    obtain ⟨j, w⟩ := e
    simp only [SMap.noDefault, Bool.and_eq_true] at hn
    unfold SMap.insert
    split
    · simp [SMap.noDefault, hv, hn.1, hn.2]
    · split
      · simp [SMap.noDefault, hv, hn.2]
      · simp [SMap.noDefault, hn.1, ih hn.2]

theorem SMap.noDefault_erase {α : Type} [DecidableEq α] (d : Nat → α) (k : Nat) (m : SMap α)
    (hn : SMap.noDefault d m = true) : SMap.noDefault d (SMap.erase k m) = true := by
  induction m with
  | nil => exact hn
  | cons e m ih =>
    obtain ⟨j, w⟩ := e
    simp only [SMap.noDefault, Bool.and_eq_true] at hn
    unfold SMap.erase
    split
    · exact ih hn.2
    · simp [SMap.noDefault, hn.1, ih hn.2]

/-- Every write keeps the canonical form. -/
theorem SMap.put_wf {α : Type} [DecidableEq α] (d : Nat → α) (k : Nat) (v : α) (m : SMap α)
    (h : SMap.wf d m = true) : SMap.wf d (SMap.put d k v m) = true := by
  simp only [SMap.wf, Bool.and_eq_true] at h ⊢
  unfold SMap.put
  split
  · exact ⟨SMap.sortedFrom_erase _ _ _ h.1, SMap.noDefault_erase _ _ _ h.2⟩
  · rename_i hv
    exact ⟨SMap.sortedFrom_insert _ _ _ _ h.1 trivial, SMap.noDefault_insert _ _ _ _ h.2 hv⟩

end Sys2Proof
end

