-- ==== Sys2Proof/Laws/State.lean ====
section
/-!
SUPPORT. What each update of the state leaves alone and what it sets: one law per field and one per read through an
index.
-/
namespace Sys2Proof.Machine

/-! ## setReg -/

@[simp] theorem State.setReg_now (s : State) (a : Nat) (v : BitVec 64) : (s.setReg a v).now = s.now := (rfl)
@[simp] theorem State.setReg_regs0 (s : State) (a : Nat) (v : BitVec 64) : (s.setReg a v).regs0 = s.regs0 := (rfl)
@[simp] theorem State.setReg_rdLatch (s : State) (a : Nat) (v : BitVec 64) : (s.setReg a v).rdLatch = s.rdLatch := (rfl)
@[simp] theorem State.setReg_wrHold (s : State) (a : Nat) (v : BitVec 64) : (s.setReg a v).wrHold = s.wrHold := (rfl)
@[simp] theorem State.setReg_cores (s : State) (a : Nat) (v : BitVec 64) : (s.setReg a v).cores = s.cores := (rfl)
@[simp] theorem State.setReg_vaults (s : State) (a : Nat) (v : BitVec 64) : (s.setReg a v).vaults = s.vaults := (rfl)
@[simp] theorem State.setReg_bkuWin (s : State) (a : Nat) (v : BitVec 64) : (s.setReg a v).bkuWin = s.bkuWin := (rfl)
@[simp] theorem State.setReg_epoch (s : State) (a : Nat) (v : BitVec 64) : (s.setReg a v).epoch = s.epoch := (rfl)
@[simp] theorem State.setReg_fillBg (s : State) (a : Nat) (v : BitVec 64) : (s.setReg a v).fillBg = s.fillBg := (rfl)
@[simp] theorem State.setReg_queues (s : State) (a : Nat) (v : BitVec 64) : (s.setReg a v).queues = s.queues := (rfl)
@[simp] theorem State.setReg_senders (s : State) (a : Nat) (v : BitVec 64) : (s.setReg a v).senders = s.senders := (rfl)
@[simp] theorem State.setReg_seqs (s : State) (a : Nat) (v : BitVec 64) : (s.setReg a v).seqs = s.seqs := (rfl)
@[simp] theorem State.setReg_jobs (s : State) (a : Nat) (v : BitVec 64) : (s.setReg a v).jobs = s.jobs := (rfl)
@[simp] theorem State.setReg_jobCtr (s : State) (a : Nat) (v : BitVec 64) : (s.setReg a v).jobCtr = s.jobCtr := (rfl)
@[simp] theorem State.setReg_sent (s : State) (a : Nat) (v : BitVec 64) : (s.setReg a v).sent = s.sent := (rfl)
@[simp] theorem State.setReg_tables (s : State) (a : Nat) (v : BitVec 64) : (s.setReg a v).tables = s.tables := (rfl)
@[simp] theorem State.setReg_asker (s : State) (a : Nat) (v : BitVec 64) : (s.setReg a v).asker = s.asker := (rfl)
@[simp] theorem State.setReg_quarantine (s : State) (a : Nat) (v : BitVec 64) : (s.setReg a v).quarantine = s.quarantine := (rfl)
@[simp] theorem State.setReg_towers (s : State) (a : Nat) (v : BitVec 64) : (s.setReg a v).towers = s.towers := (rfl)
@[simp] theorem State.setReg_ports (s : State) (a : Nat) (v : BitVec 64) : (s.setReg a v).ports = s.ports := (rfl)
@[simp] theorem State.setReg_links (s : State) (a : Nat) (v : BitVec 64) : (s.setReg a v).links = s.links := (rfl)
@[simp] theorem State.setReg_failover (s : State) (a : Nat) (v : BitVec 64) : (s.setReg a v).failover = s.failover := (rfl)
@[simp] theorem State.setReg_landed (s : State) (a : Nat) (v : BitVec 64) : (s.setReg a v).landed = s.landed := (rfl)
@[simp] theorem State.setReg_pfx (s : State) (a : Nat) (v : BitVec 64) : (s.setReg a v).pfx = s.pfx := (rfl)
@[simp] theorem State.setReg_chans (s : State) (a : Nat) (v : BitVec 64) : (s.setReg a v).chans = s.chans := (rfl)
@[simp] theorem State.setReg_started (s : State) (a : Nat) (v : BitVec 64) : (s.setReg a v).started = s.started := (rfl)
@[simp] theorem State.setReg_arbPtr (s : State) (a : Nat) (v : BitVec 64) : (s.setReg a v).arbPtr = s.arbPtr := (rfl)
@[simp] theorem State.setReg_skipped (s : State) (a : Nat) (v : BitVec 64) : (s.setReg a v).skipped = s.skipped := (rfl)
@[simp] theorem State.setReg_rings (s : State) (a : Nat) (v : BitVec 64) : (s.setReg a v).rings = s.rings := (rfl)
@[simp] theorem State.setReg_evRings (s : State) (a : Nat) (v : BitVec 64) : (s.setReg a v).evRings = s.evRings := (rfl)
@[simp] theorem State.setReg_events (s : State) (a : Nat) (v : BitVec 64) : (s.setReg a v).events = s.events := (rfl)
@[simp] theorem State.setReg_records (s : State) (a : Nat) (v : BitVec 64) : (s.setReg a v).records = s.records := (rfl)
@[simp] theorem State.setReg_sensors (s : State) (a : Nat) (v : BitVec 64) : (s.setReg a v).sensors = s.sensors := (rfl)
@[simp] theorem State.setReg_zoneAt (s : State) (a : Nat) (v : BitVec 64) : (s.setReg a v).zoneAt = s.zoneAt := (rfl)
@[simp] theorem State.setReg_hot (s : State) (a : Nat) (v : BitVec 64) : (s.setReg a v).hot = s.hot := (rfl)
@[simp] theorem State.setReg_pwr (s : State) (a : Nat) (v : BitVec 64) : (s.setReg a v).pwr = s.pwr := (rfl)
@[simp] theorem State.setReg_gates (s : State) (a : Nat) (v : BitVec 64) : (s.setReg a v).gates = s.gates := (rfl)
@[simp] theorem State.setReg_power (s : State) (a : Nat) (v : BitVec 64) : (s.setReg a v).power = s.power := (rfl)
@[simp] theorem State.setReg_rst (s : State) (a : Nat) (v : BitVec 64) : (s.setReg a v).rst = s.rst := (rfl)
@[simp] theorem State.setReg_boot (s : State) (a : Nat) (v : BitVec 64) : (s.setReg a v).boot = s.boot := (rfl)
@[simp] theorem State.setReg_features (s : State) (a : Nat) (v : BitVec 64) : (s.setReg a v).features = s.features := (rfl)
@[simp] theorem State.setReg_ras (s : State) (a : Nat) (v : BitVec 64) : (s.setReg a v).ras = s.ras := (rfl)
@[simp] theorem State.setReg_dbg (s : State) (a : Nat) (v : BitVec 64) : (s.setReg a v).dbg = s.dbg := (rfl)
@[simp] theorem State.setReg_chip (s : State) (a : Nat) (v : BitVec 64) : (s.setReg a v).chip = s.chip := (rfl)
@[simp] theorem State.setReg_out (s : State) (a : Nat) (v : BitVec 64) : (s.setReg a v).out = s.out := (rfl)
@[simp] theorem State.setReg_fresh (s : State) (a : Nat) (v : BitVec 64) : (s.setReg a v).fresh = s.fresh := (rfl)
@[simp] theorem State.setReg_pending (s : State) (a : Nat) (v : BitVec 64) : (s.setReg a v).pending = s.pending := (rfl)
@[simp] theorem State.setReg_core (s : State) (a : Nat) (v : BitVec 64) (ix : Nat) : (s.setReg a v).core ix = s.core ix := (rfl)
@[simp] theorem State.setReg_vault (s : State) (a : Nat) (v : BitVec 64) (ix : Nat) : (s.setReg a v).vault ix = s.vault ix := (rfl)
@[simp] theorem State.setReg_queue (s : State) (a : Nat) (v : BitVec 64) (ix : Nat) : (s.setReg a v).queue ix = s.queue ix := (rfl)
@[simp] theorem State.setReg_tower (s : State) (a : Nat) (v : BitVec 64) (ix : Nat) : (s.setReg a v).tower ix = s.tower ix := (rfl)
@[simp] theorem State.setReg_port (s : State) (a : Nat) (v : BitVec 64) (ix iy : Nat) : (s.setReg a v).port ix iy = s.port ix iy := (rfl)
@[simp] theorem State.setReg_link (s : State) (a : Nat) (v : BitVec 64) (ix : Nat) : (s.setReg a v).link ix = s.link ix := (rfl)
@[simp] theorem State.setReg_chan (s : State) (a : Nat) (v : BitVec 64) (ix : Nat) : (s.setReg a v).chan ix = s.chan ix := (rfl)
@[simp] theorem State.setReg_ring (s : State) (a : Nat) (v : BitVec 64) (ix : Nat) : (s.setReg a v).ring ix = s.ring ix := (rfl)
@[simp] theorem State.setReg_evRing (s : State) (a : Nat) (v : BitVec 64) (ix : Nat) : (s.setReg a v).evRing ix = s.evRing ix := (rfl)
@[simp] theorem State.setReg_tpwr (s : State) (a : Nat) (v : BitVec 64) (ix : Nat) : (s.setReg a v).tpwr ix = s.tpwr ix := (rfl)
@[simp] theorem State.setReg_seqCtr (s : State) (a : Nat) (v : BitVec 64) (ix iy : Nat) : (s.setReg a v).seqCtr ix iy = s.seqCtr ix iy := (rfl)

/-! ## setF -/

@[simp] theorem State.setF_now (s : State) (f : Fld) (v : Nat) : (s.setF f v).now = s.now := (rfl)
@[simp] theorem State.setF_regs0 (s : State) (f : Fld) (v : Nat) : (s.setF f v).regs0 = s.regs0 := (rfl)
@[simp] theorem State.setF_rdLatch (s : State) (f : Fld) (v : Nat) : (s.setF f v).rdLatch = s.rdLatch := (rfl)
@[simp] theorem State.setF_wrHold (s : State) (f : Fld) (v : Nat) : (s.setF f v).wrHold = s.wrHold := (rfl)
@[simp] theorem State.setF_cores (s : State) (f : Fld) (v : Nat) : (s.setF f v).cores = s.cores := (rfl)
@[simp] theorem State.setF_vaults (s : State) (f : Fld) (v : Nat) : (s.setF f v).vaults = s.vaults := (rfl)
@[simp] theorem State.setF_bkuWin (s : State) (f : Fld) (v : Nat) : (s.setF f v).bkuWin = s.bkuWin := (rfl)
@[simp] theorem State.setF_epoch (s : State) (f : Fld) (v : Nat) : (s.setF f v).epoch = s.epoch := (rfl)
@[simp] theorem State.setF_fillBg (s : State) (f : Fld) (v : Nat) : (s.setF f v).fillBg = s.fillBg := (rfl)
@[simp] theorem State.setF_queues (s : State) (f : Fld) (v : Nat) : (s.setF f v).queues = s.queues := (rfl)
@[simp] theorem State.setF_senders (s : State) (f : Fld) (v : Nat) : (s.setF f v).senders = s.senders := (rfl)
@[simp] theorem State.setF_seqs (s : State) (f : Fld) (v : Nat) : (s.setF f v).seqs = s.seqs := (rfl)
@[simp] theorem State.setF_jobs (s : State) (f : Fld) (v : Nat) : (s.setF f v).jobs = s.jobs := (rfl)
@[simp] theorem State.setF_jobCtr (s : State) (f : Fld) (v : Nat) : (s.setF f v).jobCtr = s.jobCtr := (rfl)
@[simp] theorem State.setF_sent (s : State) (f : Fld) (v : Nat) : (s.setF f v).sent = s.sent := (rfl)
@[simp] theorem State.setF_tables (s : State) (f : Fld) (v : Nat) : (s.setF f v).tables = s.tables := (rfl)
@[simp] theorem State.setF_asker (s : State) (f : Fld) (v : Nat) : (s.setF f v).asker = s.asker := (rfl)
@[simp] theorem State.setF_quarantine (s : State) (f : Fld) (v : Nat) : (s.setF f v).quarantine = s.quarantine := (rfl)
@[simp] theorem State.setF_towers (s : State) (f : Fld) (v : Nat) : (s.setF f v).towers = s.towers := (rfl)
@[simp] theorem State.setF_ports (s : State) (f : Fld) (v : Nat) : (s.setF f v).ports = s.ports := (rfl)
@[simp] theorem State.setF_links (s : State) (f : Fld) (v : Nat) : (s.setF f v).links = s.links := (rfl)
@[simp] theorem State.setF_failover (s : State) (f : Fld) (v : Nat) : (s.setF f v).failover = s.failover := (rfl)
@[simp] theorem State.setF_landed (s : State) (f : Fld) (v : Nat) : (s.setF f v).landed = s.landed := (rfl)
@[simp] theorem State.setF_pfx (s : State) (f : Fld) (v : Nat) : (s.setF f v).pfx = s.pfx := (rfl)
@[simp] theorem State.setF_chans (s : State) (f : Fld) (v : Nat) : (s.setF f v).chans = s.chans := (rfl)
@[simp] theorem State.setF_started (s : State) (f : Fld) (v : Nat) : (s.setF f v).started = s.started := (rfl)
@[simp] theorem State.setF_arbPtr (s : State) (f : Fld) (v : Nat) : (s.setF f v).arbPtr = s.arbPtr := (rfl)
@[simp] theorem State.setF_skipped (s : State) (f : Fld) (v : Nat) : (s.setF f v).skipped = s.skipped := (rfl)
@[simp] theorem State.setF_rings (s : State) (f : Fld) (v : Nat) : (s.setF f v).rings = s.rings := (rfl)
@[simp] theorem State.setF_evRings (s : State) (f : Fld) (v : Nat) : (s.setF f v).evRings = s.evRings := (rfl)
@[simp] theorem State.setF_events (s : State) (f : Fld) (v : Nat) : (s.setF f v).events = s.events := (rfl)
@[simp] theorem State.setF_records (s : State) (f : Fld) (v : Nat) : (s.setF f v).records = s.records := (rfl)
@[simp] theorem State.setF_sensors (s : State) (f : Fld) (v : Nat) : (s.setF f v).sensors = s.sensors := (rfl)
@[simp] theorem State.setF_zoneAt (s : State) (f : Fld) (v : Nat) : (s.setF f v).zoneAt = s.zoneAt := (rfl)
@[simp] theorem State.setF_hot (s : State) (f : Fld) (v : Nat) : (s.setF f v).hot = s.hot := (rfl)
@[simp] theorem State.setF_pwr (s : State) (f : Fld) (v : Nat) : (s.setF f v).pwr = s.pwr := (rfl)
@[simp] theorem State.setF_gates (s : State) (f : Fld) (v : Nat) : (s.setF f v).gates = s.gates := (rfl)
@[simp] theorem State.setF_power (s : State) (f : Fld) (v : Nat) : (s.setF f v).power = s.power := (rfl)
@[simp] theorem State.setF_rst (s : State) (f : Fld) (v : Nat) : (s.setF f v).rst = s.rst := (rfl)
@[simp] theorem State.setF_boot (s : State) (f : Fld) (v : Nat) : (s.setF f v).boot = s.boot := (rfl)
@[simp] theorem State.setF_features (s : State) (f : Fld) (v : Nat) : (s.setF f v).features = s.features := (rfl)
@[simp] theorem State.setF_ras (s : State) (f : Fld) (v : Nat) : (s.setF f v).ras = s.ras := (rfl)
@[simp] theorem State.setF_dbg (s : State) (f : Fld) (v : Nat) : (s.setF f v).dbg = s.dbg := (rfl)
@[simp] theorem State.setF_chip (s : State) (f : Fld) (v : Nat) : (s.setF f v).chip = s.chip := (rfl)
@[simp] theorem State.setF_out (s : State) (f : Fld) (v : Nat) : (s.setF f v).out = s.out := (rfl)
@[simp] theorem State.setF_fresh (s : State) (f : Fld) (v : Nat) : (s.setF f v).fresh = s.fresh := (rfl)
@[simp] theorem State.setF_pending (s : State) (f : Fld) (v : Nat) : (s.setF f v).pending = s.pending := (rfl)
@[simp] theorem State.setF_core (s : State) (f : Fld) (v : Nat) (ix : Nat) : (s.setF f v).core ix = s.core ix := (rfl)
@[simp] theorem State.setF_vault (s : State) (f : Fld) (v : Nat) (ix : Nat) : (s.setF f v).vault ix = s.vault ix := (rfl)
@[simp] theorem State.setF_queue (s : State) (f : Fld) (v : Nat) (ix : Nat) : (s.setF f v).queue ix = s.queue ix := (rfl)
@[simp] theorem State.setF_tower (s : State) (f : Fld) (v : Nat) (ix : Nat) : (s.setF f v).tower ix = s.tower ix := (rfl)
@[simp] theorem State.setF_port (s : State) (f : Fld) (v : Nat) (ix iy : Nat) : (s.setF f v).port ix iy = s.port ix iy := (rfl)
@[simp] theorem State.setF_link (s : State) (f : Fld) (v : Nat) (ix : Nat) : (s.setF f v).link ix = s.link ix := (rfl)
@[simp] theorem State.setF_chan (s : State) (f : Fld) (v : Nat) (ix : Nat) : (s.setF f v).chan ix = s.chan ix := (rfl)
@[simp] theorem State.setF_ring (s : State) (f : Fld) (v : Nat) (ix : Nat) : (s.setF f v).ring ix = s.ring ix := (rfl)
@[simp] theorem State.setF_evRing (s : State) (f : Fld) (v : Nat) (ix : Nat) : (s.setF f v).evRing ix = s.evRing ix := (rfl)
@[simp] theorem State.setF_tpwr (s : State) (f : Fld) (v : Nat) (ix : Nat) : (s.setF f v).tpwr ix = s.tpwr ix := (rfl)
@[simp] theorem State.setF_seqCtr (s : State) (f : Fld) (v : Nat) (ix iy : Nat) : (s.setF f v).seqCtr ix iy = s.seqCtr ix iy := (rfl)

/-! ## incSat -/

@[simp] theorem State.incSat_now (s : State) (f : Fld) (n : Nat) : (s.incSat f n).now = s.now := (rfl)
@[simp] theorem State.incSat_regs0 (s : State) (f : Fld) (n : Nat) : (s.incSat f n).regs0 = s.regs0 := (rfl)
@[simp] theorem State.incSat_rdLatch (s : State) (f : Fld) (n : Nat) : (s.incSat f n).rdLatch = s.rdLatch := (rfl)
@[simp] theorem State.incSat_wrHold (s : State) (f : Fld) (n : Nat) : (s.incSat f n).wrHold = s.wrHold := (rfl)
@[simp] theorem State.incSat_cores (s : State) (f : Fld) (n : Nat) : (s.incSat f n).cores = s.cores := (rfl)
@[simp] theorem State.incSat_vaults (s : State) (f : Fld) (n : Nat) : (s.incSat f n).vaults = s.vaults := (rfl)
@[simp] theorem State.incSat_bkuWin (s : State) (f : Fld) (n : Nat) : (s.incSat f n).bkuWin = s.bkuWin := (rfl)
@[simp] theorem State.incSat_epoch (s : State) (f : Fld) (n : Nat) : (s.incSat f n).epoch = s.epoch := (rfl)
@[simp] theorem State.incSat_fillBg (s : State) (f : Fld) (n : Nat) : (s.incSat f n).fillBg = s.fillBg := (rfl)
@[simp] theorem State.incSat_queues (s : State) (f : Fld) (n : Nat) : (s.incSat f n).queues = s.queues := (rfl)
@[simp] theorem State.incSat_senders (s : State) (f : Fld) (n : Nat) : (s.incSat f n).senders = s.senders := (rfl)
@[simp] theorem State.incSat_seqs (s : State) (f : Fld) (n : Nat) : (s.incSat f n).seqs = s.seqs := (rfl)
@[simp] theorem State.incSat_jobs (s : State) (f : Fld) (n : Nat) : (s.incSat f n).jobs = s.jobs := (rfl)
@[simp] theorem State.incSat_jobCtr (s : State) (f : Fld) (n : Nat) : (s.incSat f n).jobCtr = s.jobCtr := (rfl)
@[simp] theorem State.incSat_sent (s : State) (f : Fld) (n : Nat) : (s.incSat f n).sent = s.sent := (rfl)
@[simp] theorem State.incSat_tables (s : State) (f : Fld) (n : Nat) : (s.incSat f n).tables = s.tables := (rfl)
@[simp] theorem State.incSat_asker (s : State) (f : Fld) (n : Nat) : (s.incSat f n).asker = s.asker := (rfl)
@[simp] theorem State.incSat_quarantine (s : State) (f : Fld) (n : Nat) : (s.incSat f n).quarantine = s.quarantine := (rfl)
@[simp] theorem State.incSat_towers (s : State) (f : Fld) (n : Nat) : (s.incSat f n).towers = s.towers := (rfl)
@[simp] theorem State.incSat_ports (s : State) (f : Fld) (n : Nat) : (s.incSat f n).ports = s.ports := (rfl)
@[simp] theorem State.incSat_links (s : State) (f : Fld) (n : Nat) : (s.incSat f n).links = s.links := (rfl)
@[simp] theorem State.incSat_failover (s : State) (f : Fld) (n : Nat) : (s.incSat f n).failover = s.failover := (rfl)
@[simp] theorem State.incSat_landed (s : State) (f : Fld) (n : Nat) : (s.incSat f n).landed = s.landed := (rfl)
@[simp] theorem State.incSat_pfx (s : State) (f : Fld) (n : Nat) : (s.incSat f n).pfx = s.pfx := (rfl)
@[simp] theorem State.incSat_chans (s : State) (f : Fld) (n : Nat) : (s.incSat f n).chans = s.chans := (rfl)
@[simp] theorem State.incSat_started (s : State) (f : Fld) (n : Nat) : (s.incSat f n).started = s.started := (rfl)
@[simp] theorem State.incSat_arbPtr (s : State) (f : Fld) (n : Nat) : (s.incSat f n).arbPtr = s.arbPtr := (rfl)
@[simp] theorem State.incSat_skipped (s : State) (f : Fld) (n : Nat) : (s.incSat f n).skipped = s.skipped := (rfl)
@[simp] theorem State.incSat_rings (s : State) (f : Fld) (n : Nat) : (s.incSat f n).rings = s.rings := (rfl)
@[simp] theorem State.incSat_evRings (s : State) (f : Fld) (n : Nat) : (s.incSat f n).evRings = s.evRings := (rfl)
@[simp] theorem State.incSat_events (s : State) (f : Fld) (n : Nat) : (s.incSat f n).events = s.events := (rfl)
@[simp] theorem State.incSat_records (s : State) (f : Fld) (n : Nat) : (s.incSat f n).records = s.records := (rfl)
@[simp] theorem State.incSat_sensors (s : State) (f : Fld) (n : Nat) : (s.incSat f n).sensors = s.sensors := (rfl)
@[simp] theorem State.incSat_zoneAt (s : State) (f : Fld) (n : Nat) : (s.incSat f n).zoneAt = s.zoneAt := (rfl)
@[simp] theorem State.incSat_hot (s : State) (f : Fld) (n : Nat) : (s.incSat f n).hot = s.hot := (rfl)
@[simp] theorem State.incSat_pwr (s : State) (f : Fld) (n : Nat) : (s.incSat f n).pwr = s.pwr := (rfl)
@[simp] theorem State.incSat_gates (s : State) (f : Fld) (n : Nat) : (s.incSat f n).gates = s.gates := (rfl)
@[simp] theorem State.incSat_power (s : State) (f : Fld) (n : Nat) : (s.incSat f n).power = s.power := (rfl)
@[simp] theorem State.incSat_rst (s : State) (f : Fld) (n : Nat) : (s.incSat f n).rst = s.rst := (rfl)
@[simp] theorem State.incSat_boot (s : State) (f : Fld) (n : Nat) : (s.incSat f n).boot = s.boot := (rfl)
@[simp] theorem State.incSat_features (s : State) (f : Fld) (n : Nat) : (s.incSat f n).features = s.features := (rfl)
@[simp] theorem State.incSat_ras (s : State) (f : Fld) (n : Nat) : (s.incSat f n).ras = s.ras := (rfl)
@[simp] theorem State.incSat_dbg (s : State) (f : Fld) (n : Nat) : (s.incSat f n).dbg = s.dbg := (rfl)
@[simp] theorem State.incSat_chip (s : State) (f : Fld) (n : Nat) : (s.incSat f n).chip = s.chip := (rfl)
@[simp] theorem State.incSat_out (s : State) (f : Fld) (n : Nat) : (s.incSat f n).out = s.out := (rfl)
@[simp] theorem State.incSat_fresh (s : State) (f : Fld) (n : Nat) : (s.incSat f n).fresh = s.fresh := (rfl)
@[simp] theorem State.incSat_pending (s : State) (f : Fld) (n : Nat) : (s.incSat f n).pending = s.pending := (rfl)
@[simp] theorem State.incSat_core (s : State) (f : Fld) (n : Nat) (ix : Nat) : (s.incSat f n).core ix = s.core ix := (rfl)
@[simp] theorem State.incSat_vault (s : State) (f : Fld) (n : Nat) (ix : Nat) : (s.incSat f n).vault ix = s.vault ix := (rfl)
@[simp] theorem State.incSat_queue (s : State) (f : Fld) (n : Nat) (ix : Nat) : (s.incSat f n).queue ix = s.queue ix := (rfl)
@[simp] theorem State.incSat_tower (s : State) (f : Fld) (n : Nat) (ix : Nat) : (s.incSat f n).tower ix = s.tower ix := (rfl)
@[simp] theorem State.incSat_port (s : State) (f : Fld) (n : Nat) (ix iy : Nat) : (s.incSat f n).port ix iy = s.port ix iy := (rfl)
@[simp] theorem State.incSat_link (s : State) (f : Fld) (n : Nat) (ix : Nat) : (s.incSat f n).link ix = s.link ix := (rfl)
@[simp] theorem State.incSat_chan (s : State) (f : Fld) (n : Nat) (ix : Nat) : (s.incSat f n).chan ix = s.chan ix := (rfl)
@[simp] theorem State.incSat_ring (s : State) (f : Fld) (n : Nat) (ix : Nat) : (s.incSat f n).ring ix = s.ring ix := (rfl)
@[simp] theorem State.incSat_evRing (s : State) (f : Fld) (n : Nat) (ix : Nat) : (s.incSat f n).evRing ix = s.evRing ix := (rfl)
@[simp] theorem State.incSat_tpwr (s : State) (f : Fld) (n : Nat) (ix : Nat) : (s.incSat f n).tpwr ix = s.tpwr ix := (rfl)
@[simp] theorem State.incSat_seqCtr (s : State) (f : Fld) (n : Nat) (ix iy : Nat) : (s.incSat f n).seqCtr ix iy = s.seqCtr ix iy := (rfl)

/-! ## incWrap -/

@[simp] theorem State.incWrap_now (s : State) (f : Fld) (n : Nat) : (s.incWrap f n).now = s.now := (rfl)
@[simp] theorem State.incWrap_regs0 (s : State) (f : Fld) (n : Nat) : (s.incWrap f n).regs0 = s.regs0 := (rfl)
@[simp] theorem State.incWrap_rdLatch (s : State) (f : Fld) (n : Nat) : (s.incWrap f n).rdLatch = s.rdLatch := (rfl)
@[simp] theorem State.incWrap_wrHold (s : State) (f : Fld) (n : Nat) : (s.incWrap f n).wrHold = s.wrHold := (rfl)
@[simp] theorem State.incWrap_cores (s : State) (f : Fld) (n : Nat) : (s.incWrap f n).cores = s.cores := (rfl)
@[simp] theorem State.incWrap_vaults (s : State) (f : Fld) (n : Nat) : (s.incWrap f n).vaults = s.vaults := (rfl)
@[simp] theorem State.incWrap_bkuWin (s : State) (f : Fld) (n : Nat) : (s.incWrap f n).bkuWin = s.bkuWin := (rfl)
@[simp] theorem State.incWrap_epoch (s : State) (f : Fld) (n : Nat) : (s.incWrap f n).epoch = s.epoch := (rfl)
@[simp] theorem State.incWrap_fillBg (s : State) (f : Fld) (n : Nat) : (s.incWrap f n).fillBg = s.fillBg := (rfl)
@[simp] theorem State.incWrap_queues (s : State) (f : Fld) (n : Nat) : (s.incWrap f n).queues = s.queues := (rfl)
@[simp] theorem State.incWrap_senders (s : State) (f : Fld) (n : Nat) : (s.incWrap f n).senders = s.senders := (rfl)
@[simp] theorem State.incWrap_seqs (s : State) (f : Fld) (n : Nat) : (s.incWrap f n).seqs = s.seqs := (rfl)
@[simp] theorem State.incWrap_jobs (s : State) (f : Fld) (n : Nat) : (s.incWrap f n).jobs = s.jobs := (rfl)
@[simp] theorem State.incWrap_jobCtr (s : State) (f : Fld) (n : Nat) : (s.incWrap f n).jobCtr = s.jobCtr := (rfl)
@[simp] theorem State.incWrap_sent (s : State) (f : Fld) (n : Nat) : (s.incWrap f n).sent = s.sent := (rfl)
@[simp] theorem State.incWrap_tables (s : State) (f : Fld) (n : Nat) : (s.incWrap f n).tables = s.tables := (rfl)
@[simp] theorem State.incWrap_asker (s : State) (f : Fld) (n : Nat) : (s.incWrap f n).asker = s.asker := (rfl)
@[simp] theorem State.incWrap_quarantine (s : State) (f : Fld) (n : Nat) : (s.incWrap f n).quarantine = s.quarantine := (rfl)
@[simp] theorem State.incWrap_towers (s : State) (f : Fld) (n : Nat) : (s.incWrap f n).towers = s.towers := (rfl)
@[simp] theorem State.incWrap_ports (s : State) (f : Fld) (n : Nat) : (s.incWrap f n).ports = s.ports := (rfl)
@[simp] theorem State.incWrap_links (s : State) (f : Fld) (n : Nat) : (s.incWrap f n).links = s.links := (rfl)
@[simp] theorem State.incWrap_failover (s : State) (f : Fld) (n : Nat) : (s.incWrap f n).failover = s.failover := (rfl)
@[simp] theorem State.incWrap_landed (s : State) (f : Fld) (n : Nat) : (s.incWrap f n).landed = s.landed := (rfl)
@[simp] theorem State.incWrap_pfx (s : State) (f : Fld) (n : Nat) : (s.incWrap f n).pfx = s.pfx := (rfl)
@[simp] theorem State.incWrap_chans (s : State) (f : Fld) (n : Nat) : (s.incWrap f n).chans = s.chans := (rfl)
@[simp] theorem State.incWrap_started (s : State) (f : Fld) (n : Nat) : (s.incWrap f n).started = s.started := (rfl)
@[simp] theorem State.incWrap_arbPtr (s : State) (f : Fld) (n : Nat) : (s.incWrap f n).arbPtr = s.arbPtr := (rfl)
@[simp] theorem State.incWrap_skipped (s : State) (f : Fld) (n : Nat) : (s.incWrap f n).skipped = s.skipped := (rfl)
@[simp] theorem State.incWrap_rings (s : State) (f : Fld) (n : Nat) : (s.incWrap f n).rings = s.rings := (rfl)
@[simp] theorem State.incWrap_evRings (s : State) (f : Fld) (n : Nat) : (s.incWrap f n).evRings = s.evRings := (rfl)
@[simp] theorem State.incWrap_events (s : State) (f : Fld) (n : Nat) : (s.incWrap f n).events = s.events := (rfl)
@[simp] theorem State.incWrap_records (s : State) (f : Fld) (n : Nat) : (s.incWrap f n).records = s.records := (rfl)
@[simp] theorem State.incWrap_sensors (s : State) (f : Fld) (n : Nat) : (s.incWrap f n).sensors = s.sensors := (rfl)
@[simp] theorem State.incWrap_zoneAt (s : State) (f : Fld) (n : Nat) : (s.incWrap f n).zoneAt = s.zoneAt := (rfl)
@[simp] theorem State.incWrap_hot (s : State) (f : Fld) (n : Nat) : (s.incWrap f n).hot = s.hot := (rfl)
@[simp] theorem State.incWrap_pwr (s : State) (f : Fld) (n : Nat) : (s.incWrap f n).pwr = s.pwr := (rfl)
@[simp] theorem State.incWrap_gates (s : State) (f : Fld) (n : Nat) : (s.incWrap f n).gates = s.gates := (rfl)
@[simp] theorem State.incWrap_power (s : State) (f : Fld) (n : Nat) : (s.incWrap f n).power = s.power := (rfl)
@[simp] theorem State.incWrap_rst (s : State) (f : Fld) (n : Nat) : (s.incWrap f n).rst = s.rst := (rfl)
@[simp] theorem State.incWrap_boot (s : State) (f : Fld) (n : Nat) : (s.incWrap f n).boot = s.boot := (rfl)
@[simp] theorem State.incWrap_features (s : State) (f : Fld) (n : Nat) : (s.incWrap f n).features = s.features := (rfl)
@[simp] theorem State.incWrap_ras (s : State) (f : Fld) (n : Nat) : (s.incWrap f n).ras = s.ras := (rfl)
@[simp] theorem State.incWrap_dbg (s : State) (f : Fld) (n : Nat) : (s.incWrap f n).dbg = s.dbg := (rfl)
@[simp] theorem State.incWrap_chip (s : State) (f : Fld) (n : Nat) : (s.incWrap f n).chip = s.chip := (rfl)
@[simp] theorem State.incWrap_out (s : State) (f : Fld) (n : Nat) : (s.incWrap f n).out = s.out := (rfl)
@[simp] theorem State.incWrap_fresh (s : State) (f : Fld) (n : Nat) : (s.incWrap f n).fresh = s.fresh := (rfl)
@[simp] theorem State.incWrap_pending (s : State) (f : Fld) (n : Nat) : (s.incWrap f n).pending = s.pending := (rfl)
@[simp] theorem State.incWrap_core (s : State) (f : Fld) (n : Nat) (ix : Nat) : (s.incWrap f n).core ix = s.core ix := (rfl)
@[simp] theorem State.incWrap_vault (s : State) (f : Fld) (n : Nat) (ix : Nat) : (s.incWrap f n).vault ix = s.vault ix := (rfl)
@[simp] theorem State.incWrap_queue (s : State) (f : Fld) (n : Nat) (ix : Nat) : (s.incWrap f n).queue ix = s.queue ix := (rfl)
@[simp] theorem State.incWrap_tower (s : State) (f : Fld) (n : Nat) (ix : Nat) : (s.incWrap f n).tower ix = s.tower ix := (rfl)
@[simp] theorem State.incWrap_port (s : State) (f : Fld) (n : Nat) (ix iy : Nat) : (s.incWrap f n).port ix iy = s.port ix iy := (rfl)
@[simp] theorem State.incWrap_link (s : State) (f : Fld) (n : Nat) (ix : Nat) : (s.incWrap f n).link ix = s.link ix := (rfl)
@[simp] theorem State.incWrap_chan (s : State) (f : Fld) (n : Nat) (ix : Nat) : (s.incWrap f n).chan ix = s.chan ix := (rfl)
@[simp] theorem State.incWrap_ring (s : State) (f : Fld) (n : Nat) (ix : Nat) : (s.incWrap f n).ring ix = s.ring ix := (rfl)
@[simp] theorem State.incWrap_evRing (s : State) (f : Fld) (n : Nat) (ix : Nat) : (s.incWrap f n).evRing ix = s.evRing ix := (rfl)
@[simp] theorem State.incWrap_tpwr (s : State) (f : Fld) (n : Nat) (ix : Nat) : (s.incWrap f n).tpwr ix = s.tpwr ix := (rfl)
@[simp] theorem State.incWrap_seqCtr (s : State) (f : Fld) (n : Nat) (ix iy : Nat) : (s.incWrap f n).seqCtr ix iy = s.seqCtr ix iy := (rfl)

/-! ## setCore -/

@[simp] theorem State.setCore_now (s : State) (i : Nat) (c : Core) : (s.setCore i c).now = s.now := (rfl)
@[simp] theorem State.setCore_regs (s : State) (i : Nat) (c : Core) : (s.setCore i c).regs = s.regs := (rfl)
@[simp] theorem State.setCore_regs0 (s : State) (i : Nat) (c : Core) : (s.setCore i c).regs0 = s.regs0 := (rfl)
@[simp] theorem State.setCore_rdLatch (s : State) (i : Nat) (c : Core) : (s.setCore i c).rdLatch = s.rdLatch := (rfl)
@[simp] theorem State.setCore_wrHold (s : State) (i : Nat) (c : Core) : (s.setCore i c).wrHold = s.wrHold := (rfl)
@[simp] theorem State.setCore_vaults (s : State) (i : Nat) (c : Core) : (s.setCore i c).vaults = s.vaults := (rfl)
@[simp] theorem State.setCore_bkuWin (s : State) (i : Nat) (c : Core) : (s.setCore i c).bkuWin = s.bkuWin := (rfl)
@[simp] theorem State.setCore_epoch (s : State) (i : Nat) (c : Core) : (s.setCore i c).epoch = s.epoch := (rfl)
@[simp] theorem State.setCore_fillBg (s : State) (i : Nat) (c : Core) : (s.setCore i c).fillBg = s.fillBg := (rfl)
@[simp] theorem State.setCore_queues (s : State) (i : Nat) (c : Core) : (s.setCore i c).queues = s.queues := (rfl)
@[simp] theorem State.setCore_senders (s : State) (i : Nat) (c : Core) : (s.setCore i c).senders = s.senders := (rfl)
@[simp] theorem State.setCore_seqs (s : State) (i : Nat) (c : Core) : (s.setCore i c).seqs = s.seqs := (rfl)
@[simp] theorem State.setCore_jobs (s : State) (i : Nat) (c : Core) : (s.setCore i c).jobs = s.jobs := (rfl)
@[simp] theorem State.setCore_jobCtr (s : State) (i : Nat) (c : Core) : (s.setCore i c).jobCtr = s.jobCtr := (rfl)
@[simp] theorem State.setCore_sent (s : State) (i : Nat) (c : Core) : (s.setCore i c).sent = s.sent := (rfl)
@[simp] theorem State.setCore_tables (s : State) (i : Nat) (c : Core) : (s.setCore i c).tables = s.tables := (rfl)
@[simp] theorem State.setCore_asker (s : State) (i : Nat) (c : Core) : (s.setCore i c).asker = s.asker := (rfl)
@[simp] theorem State.setCore_quarantine (s : State) (i : Nat) (c : Core) : (s.setCore i c).quarantine = s.quarantine := (rfl)
@[simp] theorem State.setCore_towers (s : State) (i : Nat) (c : Core) : (s.setCore i c).towers = s.towers := (rfl)
@[simp] theorem State.setCore_ports (s : State) (i : Nat) (c : Core) : (s.setCore i c).ports = s.ports := (rfl)
@[simp] theorem State.setCore_links (s : State) (i : Nat) (c : Core) : (s.setCore i c).links = s.links := (rfl)
@[simp] theorem State.setCore_failover (s : State) (i : Nat) (c : Core) : (s.setCore i c).failover = s.failover := (rfl)
@[simp] theorem State.setCore_landed (s : State) (i : Nat) (c : Core) : (s.setCore i c).landed = s.landed := (rfl)
@[simp] theorem State.setCore_pfx (s : State) (i : Nat) (c : Core) : (s.setCore i c).pfx = s.pfx := (rfl)
@[simp] theorem State.setCore_chans (s : State) (i : Nat) (c : Core) : (s.setCore i c).chans = s.chans := (rfl)
@[simp] theorem State.setCore_started (s : State) (i : Nat) (c : Core) : (s.setCore i c).started = s.started := (rfl)
@[simp] theorem State.setCore_arbPtr (s : State) (i : Nat) (c : Core) : (s.setCore i c).arbPtr = s.arbPtr := (rfl)
@[simp] theorem State.setCore_skipped (s : State) (i : Nat) (c : Core) : (s.setCore i c).skipped = s.skipped := (rfl)
@[simp] theorem State.setCore_rings (s : State) (i : Nat) (c : Core) : (s.setCore i c).rings = s.rings := (rfl)
@[simp] theorem State.setCore_evRings (s : State) (i : Nat) (c : Core) : (s.setCore i c).evRings = s.evRings := (rfl)
@[simp] theorem State.setCore_events (s : State) (i : Nat) (c : Core) : (s.setCore i c).events = s.events := (rfl)
@[simp] theorem State.setCore_records (s : State) (i : Nat) (c : Core) : (s.setCore i c).records = s.records := (rfl)
@[simp] theorem State.setCore_sensors (s : State) (i : Nat) (c : Core) : (s.setCore i c).sensors = s.sensors := (rfl)
@[simp] theorem State.setCore_zoneAt (s : State) (i : Nat) (c : Core) : (s.setCore i c).zoneAt = s.zoneAt := (rfl)
@[simp] theorem State.setCore_hot (s : State) (i : Nat) (c : Core) : (s.setCore i c).hot = s.hot := (rfl)
@[simp] theorem State.setCore_pwr (s : State) (i : Nat) (c : Core) : (s.setCore i c).pwr = s.pwr := (rfl)
@[simp] theorem State.setCore_gates (s : State) (i : Nat) (c : Core) : (s.setCore i c).gates = s.gates := (rfl)
@[simp] theorem State.setCore_power (s : State) (i : Nat) (c : Core) : (s.setCore i c).power = s.power := (rfl)
@[simp] theorem State.setCore_rst (s : State) (i : Nat) (c : Core) : (s.setCore i c).rst = s.rst := (rfl)
@[simp] theorem State.setCore_boot (s : State) (i : Nat) (c : Core) : (s.setCore i c).boot = s.boot := (rfl)
@[simp] theorem State.setCore_features (s : State) (i : Nat) (c : Core) : (s.setCore i c).features = s.features := (rfl)
@[simp] theorem State.setCore_ras (s : State) (i : Nat) (c : Core) : (s.setCore i c).ras = s.ras := (rfl)
@[simp] theorem State.setCore_dbg (s : State) (i : Nat) (c : Core) : (s.setCore i c).dbg = s.dbg := (rfl)
@[simp] theorem State.setCore_chip (s : State) (i : Nat) (c : Core) : (s.setCore i c).chip = s.chip := (rfl)
@[simp] theorem State.setCore_out (s : State) (i : Nat) (c : Core) : (s.setCore i c).out = s.out := (rfl)
@[simp] theorem State.setCore_fresh (s : State) (i : Nat) (c : Core) : (s.setCore i c).fresh = s.fresh := (rfl)
@[simp] theorem State.setCore_pending (s : State) (i : Nat) (c : Core) : (s.setCore i c).pending = s.pending := (rfl)
@[simp] theorem State.setCore_reg (s : State) (i : Nat) (c : Core) (b : Nat) : (s.setCore i c).reg b = s.reg b := (rfl)
@[simp] theorem State.setCore_getF (s : State) (i : Nat) (c : Core) (g : Fld) : (s.setCore i c).getF g = s.getF g := (rfl)
@[simp] theorem State.setCore_vault (s : State) (i : Nat) (c : Core) (ix : Nat) : (s.setCore i c).vault ix = s.vault ix := (rfl)
@[simp] theorem State.setCore_queue (s : State) (i : Nat) (c : Core) (ix : Nat) : (s.setCore i c).queue ix = s.queue ix := (rfl)
@[simp] theorem State.setCore_tower (s : State) (i : Nat) (c : Core) (ix : Nat) : (s.setCore i c).tower ix = s.tower ix := (rfl)
@[simp] theorem State.setCore_port (s : State) (i : Nat) (c : Core) (ix iy : Nat) : (s.setCore i c).port ix iy = s.port ix iy := (rfl)
@[simp] theorem State.setCore_link (s : State) (i : Nat) (c : Core) (ix : Nat) : (s.setCore i c).link ix = s.link ix := (rfl)
@[simp] theorem State.setCore_chan (s : State) (i : Nat) (c : Core) (ix : Nat) : (s.setCore i c).chan ix = s.chan ix := (rfl)
@[simp] theorem State.setCore_ring (s : State) (i : Nat) (c : Core) (ix : Nat) : (s.setCore i c).ring ix = s.ring ix := (rfl)
@[simp] theorem State.setCore_evRing (s : State) (i : Nat) (c : Core) (ix : Nat) : (s.setCore i c).evRing ix = s.evRing ix := (rfl)
@[simp] theorem State.setCore_tpwr (s : State) (i : Nat) (c : Core) (ix : Nat) : (s.setCore i c).tpwr ix = s.tpwr ix := (rfl)
@[simp] theorem State.setCore_seqCtr (s : State) (i : Nat) (c : Core) (ix iy : Nat) : (s.setCore i c).seqCtr ix iy = s.seqCtr ix iy := (rfl)
@[simp] theorem State.setCore_core (s : State) (i : Nat) (c : Core) (j : Nat) :
    (s.setCore i c).core j = if j = i then c else s.core j :=
  SMap.get_put _ _ _ _ _

/-! ## setVault -/

@[simp] theorem State.setVault_now (s : State) (i : Nat) (v : Vault) : (s.setVault i v).now = s.now := (rfl)
@[simp] theorem State.setVault_regs (s : State) (i : Nat) (v : Vault) : (s.setVault i v).regs = s.regs := (rfl)
@[simp] theorem State.setVault_regs0 (s : State) (i : Nat) (v : Vault) : (s.setVault i v).regs0 = s.regs0 := (rfl)
@[simp] theorem State.setVault_rdLatch (s : State) (i : Nat) (v : Vault) : (s.setVault i v).rdLatch = s.rdLatch := (rfl)
@[simp] theorem State.setVault_wrHold (s : State) (i : Nat) (v : Vault) : (s.setVault i v).wrHold = s.wrHold := (rfl)
@[simp] theorem State.setVault_cores (s : State) (i : Nat) (v : Vault) : (s.setVault i v).cores = s.cores := (rfl)
@[simp] theorem State.setVault_bkuWin (s : State) (i : Nat) (v : Vault) : (s.setVault i v).bkuWin = s.bkuWin := (rfl)
@[simp] theorem State.setVault_epoch (s : State) (i : Nat) (v : Vault) : (s.setVault i v).epoch = s.epoch := (rfl)
@[simp] theorem State.setVault_fillBg (s : State) (i : Nat) (v : Vault) : (s.setVault i v).fillBg = s.fillBg := (rfl)
@[simp] theorem State.setVault_queues (s : State) (i : Nat) (v : Vault) : (s.setVault i v).queues = s.queues := (rfl)
@[simp] theorem State.setVault_senders (s : State) (i : Nat) (v : Vault) : (s.setVault i v).senders = s.senders := (rfl)
@[simp] theorem State.setVault_seqs (s : State) (i : Nat) (v : Vault) : (s.setVault i v).seqs = s.seqs := (rfl)
@[simp] theorem State.setVault_jobs (s : State) (i : Nat) (v : Vault) : (s.setVault i v).jobs = s.jobs := (rfl)
@[simp] theorem State.setVault_jobCtr (s : State) (i : Nat) (v : Vault) : (s.setVault i v).jobCtr = s.jobCtr := (rfl)
@[simp] theorem State.setVault_sent (s : State) (i : Nat) (v : Vault) : (s.setVault i v).sent = s.sent := (rfl)
@[simp] theorem State.setVault_tables (s : State) (i : Nat) (v : Vault) : (s.setVault i v).tables = s.tables := (rfl)
@[simp] theorem State.setVault_asker (s : State) (i : Nat) (v : Vault) : (s.setVault i v).asker = s.asker := (rfl)
@[simp] theorem State.setVault_quarantine (s : State) (i : Nat) (v : Vault) : (s.setVault i v).quarantine = s.quarantine := (rfl)
@[simp] theorem State.setVault_towers (s : State) (i : Nat) (v : Vault) : (s.setVault i v).towers = s.towers := (rfl)
@[simp] theorem State.setVault_ports (s : State) (i : Nat) (v : Vault) : (s.setVault i v).ports = s.ports := (rfl)
@[simp] theorem State.setVault_links (s : State) (i : Nat) (v : Vault) : (s.setVault i v).links = s.links := (rfl)
@[simp] theorem State.setVault_failover (s : State) (i : Nat) (v : Vault) : (s.setVault i v).failover = s.failover := (rfl)
@[simp] theorem State.setVault_landed (s : State) (i : Nat) (v : Vault) : (s.setVault i v).landed = s.landed := (rfl)
@[simp] theorem State.setVault_pfx (s : State) (i : Nat) (v : Vault) : (s.setVault i v).pfx = s.pfx := (rfl)
@[simp] theorem State.setVault_chans (s : State) (i : Nat) (v : Vault) : (s.setVault i v).chans = s.chans := (rfl)
@[simp] theorem State.setVault_started (s : State) (i : Nat) (v : Vault) : (s.setVault i v).started = s.started := (rfl)
@[simp] theorem State.setVault_arbPtr (s : State) (i : Nat) (v : Vault) : (s.setVault i v).arbPtr = s.arbPtr := (rfl)
@[simp] theorem State.setVault_skipped (s : State) (i : Nat) (v : Vault) : (s.setVault i v).skipped = s.skipped := (rfl)
@[simp] theorem State.setVault_rings (s : State) (i : Nat) (v : Vault) : (s.setVault i v).rings = s.rings := (rfl)
@[simp] theorem State.setVault_evRings (s : State) (i : Nat) (v : Vault) : (s.setVault i v).evRings = s.evRings := (rfl)
@[simp] theorem State.setVault_events (s : State) (i : Nat) (v : Vault) : (s.setVault i v).events = s.events := (rfl)
@[simp] theorem State.setVault_records (s : State) (i : Nat) (v : Vault) : (s.setVault i v).records = s.records := (rfl)
@[simp] theorem State.setVault_sensors (s : State) (i : Nat) (v : Vault) : (s.setVault i v).sensors = s.sensors := (rfl)
@[simp] theorem State.setVault_zoneAt (s : State) (i : Nat) (v : Vault) : (s.setVault i v).zoneAt = s.zoneAt := (rfl)
@[simp] theorem State.setVault_hot (s : State) (i : Nat) (v : Vault) : (s.setVault i v).hot = s.hot := (rfl)
@[simp] theorem State.setVault_pwr (s : State) (i : Nat) (v : Vault) : (s.setVault i v).pwr = s.pwr := (rfl)
@[simp] theorem State.setVault_gates (s : State) (i : Nat) (v : Vault) : (s.setVault i v).gates = s.gates := (rfl)
@[simp] theorem State.setVault_power (s : State) (i : Nat) (v : Vault) : (s.setVault i v).power = s.power := (rfl)
@[simp] theorem State.setVault_rst (s : State) (i : Nat) (v : Vault) : (s.setVault i v).rst = s.rst := (rfl)
@[simp] theorem State.setVault_boot (s : State) (i : Nat) (v : Vault) : (s.setVault i v).boot = s.boot := (rfl)
@[simp] theorem State.setVault_features (s : State) (i : Nat) (v : Vault) : (s.setVault i v).features = s.features := (rfl)
@[simp] theorem State.setVault_ras (s : State) (i : Nat) (v : Vault) : (s.setVault i v).ras = s.ras := (rfl)
@[simp] theorem State.setVault_dbg (s : State) (i : Nat) (v : Vault) : (s.setVault i v).dbg = s.dbg := (rfl)
@[simp] theorem State.setVault_chip (s : State) (i : Nat) (v : Vault) : (s.setVault i v).chip = s.chip := (rfl)
@[simp] theorem State.setVault_out (s : State) (i : Nat) (v : Vault) : (s.setVault i v).out = s.out := (rfl)
@[simp] theorem State.setVault_fresh (s : State) (i : Nat) (v : Vault) : (s.setVault i v).fresh = s.fresh := (rfl)
@[simp] theorem State.setVault_pending (s : State) (i : Nat) (v : Vault) : (s.setVault i v).pending = s.pending := (rfl)
@[simp] theorem State.setVault_reg (s : State) (i : Nat) (v : Vault) (b : Nat) : (s.setVault i v).reg b = s.reg b := (rfl)
@[simp] theorem State.setVault_getF (s : State) (i : Nat) (v : Vault) (g : Fld) : (s.setVault i v).getF g = s.getF g := (rfl)
@[simp] theorem State.setVault_core (s : State) (i : Nat) (v : Vault) (ix : Nat) : (s.setVault i v).core ix = s.core ix := (rfl)
@[simp] theorem State.setVault_queue (s : State) (i : Nat) (v : Vault) (ix : Nat) : (s.setVault i v).queue ix = s.queue ix := (rfl)
@[simp] theorem State.setVault_tower (s : State) (i : Nat) (v : Vault) (ix : Nat) : (s.setVault i v).tower ix = s.tower ix := (rfl)
@[simp] theorem State.setVault_port (s : State) (i : Nat) (v : Vault) (ix iy : Nat) : (s.setVault i v).port ix iy = s.port ix iy := (rfl)
@[simp] theorem State.setVault_link (s : State) (i : Nat) (v : Vault) (ix : Nat) : (s.setVault i v).link ix = s.link ix := (rfl)
@[simp] theorem State.setVault_chan (s : State) (i : Nat) (v : Vault) (ix : Nat) : (s.setVault i v).chan ix = s.chan ix := (rfl)
@[simp] theorem State.setVault_ring (s : State) (i : Nat) (v : Vault) (ix : Nat) : (s.setVault i v).ring ix = s.ring ix := (rfl)
@[simp] theorem State.setVault_evRing (s : State) (i : Nat) (v : Vault) (ix : Nat) : (s.setVault i v).evRing ix = s.evRing ix := (rfl)
@[simp] theorem State.setVault_tpwr (s : State) (i : Nat) (v : Vault) (ix : Nat) : (s.setVault i v).tpwr ix = s.tpwr ix := (rfl)
@[simp] theorem State.setVault_seqCtr (s : State) (i : Nat) (v : Vault) (ix iy : Nat) : (s.setVault i v).seqCtr ix iy = s.seqCtr ix iy := (rfl)
@[simp] theorem State.setVault_vault (s : State) (i : Nat) (v : Vault) (j : Nat) :
    (s.setVault i v).vault j = if j = i then v else s.vault j :=
  SMap.get_put _ _ _ _ _

/-! ## setQueue -/

@[simp] theorem State.setQueue_now (s : State) (i : Nat) (q : StageQueue) : (s.setQueue i q).now = s.now := (rfl)
@[simp] theorem State.setQueue_regs (s : State) (i : Nat) (q : StageQueue) : (s.setQueue i q).regs = s.regs := (rfl)
@[simp] theorem State.setQueue_regs0 (s : State) (i : Nat) (q : StageQueue) : (s.setQueue i q).regs0 = s.regs0 := (rfl)
@[simp] theorem State.setQueue_rdLatch (s : State) (i : Nat) (q : StageQueue) : (s.setQueue i q).rdLatch = s.rdLatch := (rfl)
@[simp] theorem State.setQueue_wrHold (s : State) (i : Nat) (q : StageQueue) : (s.setQueue i q).wrHold = s.wrHold := (rfl)
@[simp] theorem State.setQueue_cores (s : State) (i : Nat) (q : StageQueue) : (s.setQueue i q).cores = s.cores := (rfl)
@[simp] theorem State.setQueue_vaults (s : State) (i : Nat) (q : StageQueue) : (s.setQueue i q).vaults = s.vaults := (rfl)
@[simp] theorem State.setQueue_bkuWin (s : State) (i : Nat) (q : StageQueue) : (s.setQueue i q).bkuWin = s.bkuWin := (rfl)
@[simp] theorem State.setQueue_epoch (s : State) (i : Nat) (q : StageQueue) : (s.setQueue i q).epoch = s.epoch := (rfl)
@[simp] theorem State.setQueue_fillBg (s : State) (i : Nat) (q : StageQueue) : (s.setQueue i q).fillBg = s.fillBg := (rfl)
@[simp] theorem State.setQueue_senders (s : State) (i : Nat) (q : StageQueue) : (s.setQueue i q).senders = s.senders := (rfl)
@[simp] theorem State.setQueue_seqs (s : State) (i : Nat) (q : StageQueue) : (s.setQueue i q).seqs = s.seqs := (rfl)
@[simp] theorem State.setQueue_jobs (s : State) (i : Nat) (q : StageQueue) : (s.setQueue i q).jobs = s.jobs := (rfl)
@[simp] theorem State.setQueue_jobCtr (s : State) (i : Nat) (q : StageQueue) : (s.setQueue i q).jobCtr = s.jobCtr := (rfl)
@[simp] theorem State.setQueue_sent (s : State) (i : Nat) (q : StageQueue) : (s.setQueue i q).sent = s.sent := (rfl)
@[simp] theorem State.setQueue_tables (s : State) (i : Nat) (q : StageQueue) : (s.setQueue i q).tables = s.tables := (rfl)
@[simp] theorem State.setQueue_asker (s : State) (i : Nat) (q : StageQueue) : (s.setQueue i q).asker = s.asker := (rfl)
@[simp] theorem State.setQueue_quarantine (s : State) (i : Nat) (q : StageQueue) : (s.setQueue i q).quarantine = s.quarantine := (rfl)
@[simp] theorem State.setQueue_towers (s : State) (i : Nat) (q : StageQueue) : (s.setQueue i q).towers = s.towers := (rfl)
@[simp] theorem State.setQueue_ports (s : State) (i : Nat) (q : StageQueue) : (s.setQueue i q).ports = s.ports := (rfl)
@[simp] theorem State.setQueue_links (s : State) (i : Nat) (q : StageQueue) : (s.setQueue i q).links = s.links := (rfl)
@[simp] theorem State.setQueue_failover (s : State) (i : Nat) (q : StageQueue) : (s.setQueue i q).failover = s.failover := (rfl)
@[simp] theorem State.setQueue_landed (s : State) (i : Nat) (q : StageQueue) : (s.setQueue i q).landed = s.landed := (rfl)
@[simp] theorem State.setQueue_pfx (s : State) (i : Nat) (q : StageQueue) : (s.setQueue i q).pfx = s.pfx := (rfl)
@[simp] theorem State.setQueue_chans (s : State) (i : Nat) (q : StageQueue) : (s.setQueue i q).chans = s.chans := (rfl)
@[simp] theorem State.setQueue_started (s : State) (i : Nat) (q : StageQueue) : (s.setQueue i q).started = s.started := (rfl)
@[simp] theorem State.setQueue_arbPtr (s : State) (i : Nat) (q : StageQueue) : (s.setQueue i q).arbPtr = s.arbPtr := (rfl)
@[simp] theorem State.setQueue_skipped (s : State) (i : Nat) (q : StageQueue) : (s.setQueue i q).skipped = s.skipped := (rfl)
@[simp] theorem State.setQueue_rings (s : State) (i : Nat) (q : StageQueue) : (s.setQueue i q).rings = s.rings := (rfl)
@[simp] theorem State.setQueue_evRings (s : State) (i : Nat) (q : StageQueue) : (s.setQueue i q).evRings = s.evRings := (rfl)
@[simp] theorem State.setQueue_events (s : State) (i : Nat) (q : StageQueue) : (s.setQueue i q).events = s.events := (rfl)
@[simp] theorem State.setQueue_records (s : State) (i : Nat) (q : StageQueue) : (s.setQueue i q).records = s.records := (rfl)
@[simp] theorem State.setQueue_sensors (s : State) (i : Nat) (q : StageQueue) : (s.setQueue i q).sensors = s.sensors := (rfl)
@[simp] theorem State.setQueue_zoneAt (s : State) (i : Nat) (q : StageQueue) : (s.setQueue i q).zoneAt = s.zoneAt := (rfl)
@[simp] theorem State.setQueue_hot (s : State) (i : Nat) (q : StageQueue) : (s.setQueue i q).hot = s.hot := (rfl)
@[simp] theorem State.setQueue_pwr (s : State) (i : Nat) (q : StageQueue) : (s.setQueue i q).pwr = s.pwr := (rfl)
@[simp] theorem State.setQueue_gates (s : State) (i : Nat) (q : StageQueue) : (s.setQueue i q).gates = s.gates := (rfl)
@[simp] theorem State.setQueue_power (s : State) (i : Nat) (q : StageQueue) : (s.setQueue i q).power = s.power := (rfl)
@[simp] theorem State.setQueue_rst (s : State) (i : Nat) (q : StageQueue) : (s.setQueue i q).rst = s.rst := (rfl)
@[simp] theorem State.setQueue_boot (s : State) (i : Nat) (q : StageQueue) : (s.setQueue i q).boot = s.boot := (rfl)
@[simp] theorem State.setQueue_features (s : State) (i : Nat) (q : StageQueue) : (s.setQueue i q).features = s.features := (rfl)
@[simp] theorem State.setQueue_ras (s : State) (i : Nat) (q : StageQueue) : (s.setQueue i q).ras = s.ras := (rfl)
@[simp] theorem State.setQueue_dbg (s : State) (i : Nat) (q : StageQueue) : (s.setQueue i q).dbg = s.dbg := (rfl)
@[simp] theorem State.setQueue_chip (s : State) (i : Nat) (q : StageQueue) : (s.setQueue i q).chip = s.chip := (rfl)
@[simp] theorem State.setQueue_out (s : State) (i : Nat) (q : StageQueue) : (s.setQueue i q).out = s.out := (rfl)
@[simp] theorem State.setQueue_fresh (s : State) (i : Nat) (q : StageQueue) : (s.setQueue i q).fresh = s.fresh := (rfl)
@[simp] theorem State.setQueue_pending (s : State) (i : Nat) (q : StageQueue) : (s.setQueue i q).pending = s.pending := (rfl)
@[simp] theorem State.setQueue_reg (s : State) (i : Nat) (q : StageQueue) (b : Nat) : (s.setQueue i q).reg b = s.reg b := (rfl)
@[simp] theorem State.setQueue_getF (s : State) (i : Nat) (q : StageQueue) (g : Fld) : (s.setQueue i q).getF g = s.getF g := (rfl)
@[simp] theorem State.setQueue_core (s : State) (i : Nat) (q : StageQueue) (ix : Nat) : (s.setQueue i q).core ix = s.core ix := (rfl)
@[simp] theorem State.setQueue_vault (s : State) (i : Nat) (q : StageQueue) (ix : Nat) : (s.setQueue i q).vault ix = s.vault ix := (rfl)
@[simp] theorem State.setQueue_tower (s : State) (i : Nat) (q : StageQueue) (ix : Nat) : (s.setQueue i q).tower ix = s.tower ix := (rfl)
@[simp] theorem State.setQueue_port (s : State) (i : Nat) (q : StageQueue) (ix iy : Nat) : (s.setQueue i q).port ix iy = s.port ix iy := (rfl)
@[simp] theorem State.setQueue_link (s : State) (i : Nat) (q : StageQueue) (ix : Nat) : (s.setQueue i q).link ix = s.link ix := (rfl)
@[simp] theorem State.setQueue_chan (s : State) (i : Nat) (q : StageQueue) (ix : Nat) : (s.setQueue i q).chan ix = s.chan ix := (rfl)
@[simp] theorem State.setQueue_ring (s : State) (i : Nat) (q : StageQueue) (ix : Nat) : (s.setQueue i q).ring ix = s.ring ix := (rfl)
@[simp] theorem State.setQueue_evRing (s : State) (i : Nat) (q : StageQueue) (ix : Nat) : (s.setQueue i q).evRing ix = s.evRing ix := (rfl)
@[simp] theorem State.setQueue_tpwr (s : State) (i : Nat) (q : StageQueue) (ix : Nat) : (s.setQueue i q).tpwr ix = s.tpwr ix := (rfl)
@[simp] theorem State.setQueue_seqCtr (s : State) (i : Nat) (q : StageQueue) (ix iy : Nat) : (s.setQueue i q).seqCtr ix iy = s.seqCtr ix iy := (rfl)
@[simp] theorem State.setQueue_queue (s : State) (i : Nat) (q : StageQueue) (j : Nat) :
    (s.setQueue i q).queue j = if j = i then q else s.queue j :=
  SMap.get_put _ _ _ _ _

/-! ## setTower -/

@[simp] theorem State.setTower_now (s : State) (t : Nat) (x : TowerFab) : (s.setTower t x).now = s.now := (rfl)
@[simp] theorem State.setTower_regs (s : State) (t : Nat) (x : TowerFab) : (s.setTower t x).regs = s.regs := (rfl)
@[simp] theorem State.setTower_regs0 (s : State) (t : Nat) (x : TowerFab) : (s.setTower t x).regs0 = s.regs0 := (rfl)
@[simp] theorem State.setTower_rdLatch (s : State) (t : Nat) (x : TowerFab) : (s.setTower t x).rdLatch = s.rdLatch := (rfl)
@[simp] theorem State.setTower_wrHold (s : State) (t : Nat) (x : TowerFab) : (s.setTower t x).wrHold = s.wrHold := (rfl)
@[simp] theorem State.setTower_cores (s : State) (t : Nat) (x : TowerFab) : (s.setTower t x).cores = s.cores := (rfl)
@[simp] theorem State.setTower_vaults (s : State) (t : Nat) (x : TowerFab) : (s.setTower t x).vaults = s.vaults := (rfl)
@[simp] theorem State.setTower_bkuWin (s : State) (t : Nat) (x : TowerFab) : (s.setTower t x).bkuWin = s.bkuWin := (rfl)
@[simp] theorem State.setTower_epoch (s : State) (t : Nat) (x : TowerFab) : (s.setTower t x).epoch = s.epoch := (rfl)
@[simp] theorem State.setTower_fillBg (s : State) (t : Nat) (x : TowerFab) : (s.setTower t x).fillBg = s.fillBg := (rfl)
@[simp] theorem State.setTower_queues (s : State) (t : Nat) (x : TowerFab) : (s.setTower t x).queues = s.queues := (rfl)
@[simp] theorem State.setTower_senders (s : State) (t : Nat) (x : TowerFab) : (s.setTower t x).senders = s.senders := (rfl)
@[simp] theorem State.setTower_seqs (s : State) (t : Nat) (x : TowerFab) : (s.setTower t x).seqs = s.seqs := (rfl)
@[simp] theorem State.setTower_jobs (s : State) (t : Nat) (x : TowerFab) : (s.setTower t x).jobs = s.jobs := (rfl)
@[simp] theorem State.setTower_jobCtr (s : State) (t : Nat) (x : TowerFab) : (s.setTower t x).jobCtr = s.jobCtr := (rfl)
@[simp] theorem State.setTower_sent (s : State) (t : Nat) (x : TowerFab) : (s.setTower t x).sent = s.sent := (rfl)
@[simp] theorem State.setTower_tables (s : State) (t : Nat) (x : TowerFab) : (s.setTower t x).tables = s.tables := (rfl)
@[simp] theorem State.setTower_asker (s : State) (t : Nat) (x : TowerFab) : (s.setTower t x).asker = s.asker := (rfl)
@[simp] theorem State.setTower_quarantine (s : State) (t : Nat) (x : TowerFab) : (s.setTower t x).quarantine = s.quarantine := (rfl)
@[simp] theorem State.setTower_ports (s : State) (t : Nat) (x : TowerFab) : (s.setTower t x).ports = s.ports := (rfl)
@[simp] theorem State.setTower_links (s : State) (t : Nat) (x : TowerFab) : (s.setTower t x).links = s.links := (rfl)
@[simp] theorem State.setTower_failover (s : State) (t : Nat) (x : TowerFab) : (s.setTower t x).failover = s.failover := (rfl)
@[simp] theorem State.setTower_landed (s : State) (t : Nat) (x : TowerFab) : (s.setTower t x).landed = s.landed := (rfl)
@[simp] theorem State.setTower_pfx (s : State) (t : Nat) (x : TowerFab) : (s.setTower t x).pfx = s.pfx := (rfl)
@[simp] theorem State.setTower_chans (s : State) (t : Nat) (x : TowerFab) : (s.setTower t x).chans = s.chans := (rfl)
@[simp] theorem State.setTower_started (s : State) (t : Nat) (x : TowerFab) : (s.setTower t x).started = s.started := (rfl)
@[simp] theorem State.setTower_arbPtr (s : State) (t : Nat) (x : TowerFab) : (s.setTower t x).arbPtr = s.arbPtr := (rfl)
@[simp] theorem State.setTower_skipped (s : State) (t : Nat) (x : TowerFab) : (s.setTower t x).skipped = s.skipped := (rfl)
@[simp] theorem State.setTower_rings (s : State) (t : Nat) (x : TowerFab) : (s.setTower t x).rings = s.rings := (rfl)
@[simp] theorem State.setTower_evRings (s : State) (t : Nat) (x : TowerFab) : (s.setTower t x).evRings = s.evRings := (rfl)
@[simp] theorem State.setTower_events (s : State) (t : Nat) (x : TowerFab) : (s.setTower t x).events = s.events := (rfl)
@[simp] theorem State.setTower_records (s : State) (t : Nat) (x : TowerFab) : (s.setTower t x).records = s.records := (rfl)
@[simp] theorem State.setTower_sensors (s : State) (t : Nat) (x : TowerFab) : (s.setTower t x).sensors = s.sensors := (rfl)
@[simp] theorem State.setTower_zoneAt (s : State) (t : Nat) (x : TowerFab) : (s.setTower t x).zoneAt = s.zoneAt := (rfl)
@[simp] theorem State.setTower_hot (s : State) (t : Nat) (x : TowerFab) : (s.setTower t x).hot = s.hot := (rfl)
@[simp] theorem State.setTower_pwr (s : State) (t : Nat) (x : TowerFab) : (s.setTower t x).pwr = s.pwr := (rfl)
@[simp] theorem State.setTower_gates (s : State) (t : Nat) (x : TowerFab) : (s.setTower t x).gates = s.gates := (rfl)
@[simp] theorem State.setTower_power (s : State) (t : Nat) (x : TowerFab) : (s.setTower t x).power = s.power := (rfl)
@[simp] theorem State.setTower_rst (s : State) (t : Nat) (x : TowerFab) : (s.setTower t x).rst = s.rst := (rfl)
@[simp] theorem State.setTower_boot (s : State) (t : Nat) (x : TowerFab) : (s.setTower t x).boot = s.boot := (rfl)
@[simp] theorem State.setTower_features (s : State) (t : Nat) (x : TowerFab) : (s.setTower t x).features = s.features := (rfl)
@[simp] theorem State.setTower_ras (s : State) (t : Nat) (x : TowerFab) : (s.setTower t x).ras = s.ras := (rfl)
@[simp] theorem State.setTower_dbg (s : State) (t : Nat) (x : TowerFab) : (s.setTower t x).dbg = s.dbg := (rfl)
@[simp] theorem State.setTower_chip (s : State) (t : Nat) (x : TowerFab) : (s.setTower t x).chip = s.chip := (rfl)
@[simp] theorem State.setTower_out (s : State) (t : Nat) (x : TowerFab) : (s.setTower t x).out = s.out := (rfl)
@[simp] theorem State.setTower_fresh (s : State) (t : Nat) (x : TowerFab) : (s.setTower t x).fresh = s.fresh := (rfl)
@[simp] theorem State.setTower_pending (s : State) (t : Nat) (x : TowerFab) : (s.setTower t x).pending = s.pending := (rfl)
@[simp] theorem State.setTower_reg (s : State) (t : Nat) (x : TowerFab) (b : Nat) : (s.setTower t x).reg b = s.reg b := (rfl)
@[simp] theorem State.setTower_getF (s : State) (t : Nat) (x : TowerFab) (g : Fld) : (s.setTower t x).getF g = s.getF g := (rfl)
@[simp] theorem State.setTower_core (s : State) (t : Nat) (x : TowerFab) (ix : Nat) : (s.setTower t x).core ix = s.core ix := (rfl)
@[simp] theorem State.setTower_vault (s : State) (t : Nat) (x : TowerFab) (ix : Nat) : (s.setTower t x).vault ix = s.vault ix := (rfl)
@[simp] theorem State.setTower_queue (s : State) (t : Nat) (x : TowerFab) (ix : Nat) : (s.setTower t x).queue ix = s.queue ix := (rfl)
@[simp] theorem State.setTower_port (s : State) (t : Nat) (x : TowerFab) (ix iy : Nat) : (s.setTower t x).port ix iy = s.port ix iy := (rfl)
@[simp] theorem State.setTower_link (s : State) (t : Nat) (x : TowerFab) (ix : Nat) : (s.setTower t x).link ix = s.link ix := (rfl)
@[simp] theorem State.setTower_chan (s : State) (t : Nat) (x : TowerFab) (ix : Nat) : (s.setTower t x).chan ix = s.chan ix := (rfl)
@[simp] theorem State.setTower_ring (s : State) (t : Nat) (x : TowerFab) (ix : Nat) : (s.setTower t x).ring ix = s.ring ix := (rfl)
@[simp] theorem State.setTower_evRing (s : State) (t : Nat) (x : TowerFab) (ix : Nat) : (s.setTower t x).evRing ix = s.evRing ix := (rfl)
@[simp] theorem State.setTower_tpwr (s : State) (t : Nat) (x : TowerFab) (ix : Nat) : (s.setTower t x).tpwr ix = s.tpwr ix := (rfl)
@[simp] theorem State.setTower_seqCtr (s : State) (t : Nat) (x : TowerFab) (ix iy : Nat) : (s.setTower t x).seqCtr ix iy = s.seqCtr ix iy := (rfl)
@[simp] theorem State.setTower_tower (s : State) (t : Nat) (x : TowerFab) (j : Nat) :
    (s.setTower t x).tower j = if j = t then x else s.tower j :=
  SMap.get_put _ _ _ _ _

/-! ## setPort -/

@[simp] theorem State.setPort_now (s : State) (t p : Nat) (x : Port) : (s.setPort t p x).now = s.now := (rfl)
@[simp] theorem State.setPort_regs (s : State) (t p : Nat) (x : Port) : (s.setPort t p x).regs = s.regs := (rfl)
@[simp] theorem State.setPort_regs0 (s : State) (t p : Nat) (x : Port) : (s.setPort t p x).regs0 = s.regs0 := (rfl)
@[simp] theorem State.setPort_rdLatch (s : State) (t p : Nat) (x : Port) : (s.setPort t p x).rdLatch = s.rdLatch := (rfl)
@[simp] theorem State.setPort_wrHold (s : State) (t p : Nat) (x : Port) : (s.setPort t p x).wrHold = s.wrHold := (rfl)
@[simp] theorem State.setPort_cores (s : State) (t p : Nat) (x : Port) : (s.setPort t p x).cores = s.cores := (rfl)
@[simp] theorem State.setPort_vaults (s : State) (t p : Nat) (x : Port) : (s.setPort t p x).vaults = s.vaults := (rfl)
@[simp] theorem State.setPort_bkuWin (s : State) (t p : Nat) (x : Port) : (s.setPort t p x).bkuWin = s.bkuWin := (rfl)
@[simp] theorem State.setPort_epoch (s : State) (t p : Nat) (x : Port) : (s.setPort t p x).epoch = s.epoch := (rfl)
@[simp] theorem State.setPort_fillBg (s : State) (t p : Nat) (x : Port) : (s.setPort t p x).fillBg = s.fillBg := (rfl)
@[simp] theorem State.setPort_queues (s : State) (t p : Nat) (x : Port) : (s.setPort t p x).queues = s.queues := (rfl)
@[simp] theorem State.setPort_senders (s : State) (t p : Nat) (x : Port) : (s.setPort t p x).senders = s.senders := (rfl)
@[simp] theorem State.setPort_seqs (s : State) (t p : Nat) (x : Port) : (s.setPort t p x).seqs = s.seqs := (rfl)
@[simp] theorem State.setPort_jobs (s : State) (t p : Nat) (x : Port) : (s.setPort t p x).jobs = s.jobs := (rfl)
@[simp] theorem State.setPort_jobCtr (s : State) (t p : Nat) (x : Port) : (s.setPort t p x).jobCtr = s.jobCtr := (rfl)
@[simp] theorem State.setPort_sent (s : State) (t p : Nat) (x : Port) : (s.setPort t p x).sent = s.sent := (rfl)
@[simp] theorem State.setPort_tables (s : State) (t p : Nat) (x : Port) : (s.setPort t p x).tables = s.tables := (rfl)
@[simp] theorem State.setPort_asker (s : State) (t p : Nat) (x : Port) : (s.setPort t p x).asker = s.asker := (rfl)
@[simp] theorem State.setPort_quarantine (s : State) (t p : Nat) (x : Port) : (s.setPort t p x).quarantine = s.quarantine := (rfl)
@[simp] theorem State.setPort_towers (s : State) (t p : Nat) (x : Port) : (s.setPort t p x).towers = s.towers := (rfl)
@[simp] theorem State.setPort_links (s : State) (t p : Nat) (x : Port) : (s.setPort t p x).links = s.links := (rfl)
@[simp] theorem State.setPort_failover (s : State) (t p : Nat) (x : Port) : (s.setPort t p x).failover = s.failover := (rfl)
@[simp] theorem State.setPort_landed (s : State) (t p : Nat) (x : Port) : (s.setPort t p x).landed = s.landed := (rfl)
@[simp] theorem State.setPort_pfx (s : State) (t p : Nat) (x : Port) : (s.setPort t p x).pfx = s.pfx := (rfl)
@[simp] theorem State.setPort_chans (s : State) (t p : Nat) (x : Port) : (s.setPort t p x).chans = s.chans := (rfl)
@[simp] theorem State.setPort_started (s : State) (t p : Nat) (x : Port) : (s.setPort t p x).started = s.started := (rfl)
@[simp] theorem State.setPort_arbPtr (s : State) (t p : Nat) (x : Port) : (s.setPort t p x).arbPtr = s.arbPtr := (rfl)
@[simp] theorem State.setPort_skipped (s : State) (t p : Nat) (x : Port) : (s.setPort t p x).skipped = s.skipped := (rfl)
@[simp] theorem State.setPort_rings (s : State) (t p : Nat) (x : Port) : (s.setPort t p x).rings = s.rings := (rfl)
@[simp] theorem State.setPort_evRings (s : State) (t p : Nat) (x : Port) : (s.setPort t p x).evRings = s.evRings := (rfl)
@[simp] theorem State.setPort_events (s : State) (t p : Nat) (x : Port) : (s.setPort t p x).events = s.events := (rfl)
@[simp] theorem State.setPort_records (s : State) (t p : Nat) (x : Port) : (s.setPort t p x).records = s.records := (rfl)
@[simp] theorem State.setPort_sensors (s : State) (t p : Nat) (x : Port) : (s.setPort t p x).sensors = s.sensors := (rfl)
@[simp] theorem State.setPort_zoneAt (s : State) (t p : Nat) (x : Port) : (s.setPort t p x).zoneAt = s.zoneAt := (rfl)
@[simp] theorem State.setPort_hot (s : State) (t p : Nat) (x : Port) : (s.setPort t p x).hot = s.hot := (rfl)
@[simp] theorem State.setPort_pwr (s : State) (t p : Nat) (x : Port) : (s.setPort t p x).pwr = s.pwr := (rfl)
@[simp] theorem State.setPort_gates (s : State) (t p : Nat) (x : Port) : (s.setPort t p x).gates = s.gates := (rfl)
@[simp] theorem State.setPort_power (s : State) (t p : Nat) (x : Port) : (s.setPort t p x).power = s.power := (rfl)
@[simp] theorem State.setPort_rst (s : State) (t p : Nat) (x : Port) : (s.setPort t p x).rst = s.rst := (rfl)
@[simp] theorem State.setPort_boot (s : State) (t p : Nat) (x : Port) : (s.setPort t p x).boot = s.boot := (rfl)
@[simp] theorem State.setPort_features (s : State) (t p : Nat) (x : Port) : (s.setPort t p x).features = s.features := (rfl)
@[simp] theorem State.setPort_ras (s : State) (t p : Nat) (x : Port) : (s.setPort t p x).ras = s.ras := (rfl)
@[simp] theorem State.setPort_dbg (s : State) (t p : Nat) (x : Port) : (s.setPort t p x).dbg = s.dbg := (rfl)
@[simp] theorem State.setPort_chip (s : State) (t p : Nat) (x : Port) : (s.setPort t p x).chip = s.chip := (rfl)
@[simp] theorem State.setPort_out (s : State) (t p : Nat) (x : Port) : (s.setPort t p x).out = s.out := (rfl)
@[simp] theorem State.setPort_fresh (s : State) (t p : Nat) (x : Port) : (s.setPort t p x).fresh = s.fresh := (rfl)
@[simp] theorem State.setPort_pending (s : State) (t p : Nat) (x : Port) : (s.setPort t p x).pending = s.pending := (rfl)
@[simp] theorem State.setPort_reg (s : State) (t p : Nat) (x : Port) (b : Nat) : (s.setPort t p x).reg b = s.reg b := (rfl)
@[simp] theorem State.setPort_getF (s : State) (t p : Nat) (x : Port) (g : Fld) : (s.setPort t p x).getF g = s.getF g := (rfl)
@[simp] theorem State.setPort_core (s : State) (t p : Nat) (x : Port) (ix : Nat) : (s.setPort t p x).core ix = s.core ix := (rfl)
@[simp] theorem State.setPort_vault (s : State) (t p : Nat) (x : Port) (ix : Nat) : (s.setPort t p x).vault ix = s.vault ix := (rfl)
@[simp] theorem State.setPort_queue (s : State) (t p : Nat) (x : Port) (ix : Nat) : (s.setPort t p x).queue ix = s.queue ix := (rfl)
@[simp] theorem State.setPort_tower (s : State) (t p : Nat) (x : Port) (ix : Nat) : (s.setPort t p x).tower ix = s.tower ix := (rfl)
@[simp] theorem State.setPort_link (s : State) (t p : Nat) (x : Port) (ix : Nat) : (s.setPort t p x).link ix = s.link ix := (rfl)
@[simp] theorem State.setPort_chan (s : State) (t p : Nat) (x : Port) (ix : Nat) : (s.setPort t p x).chan ix = s.chan ix := (rfl)
@[simp] theorem State.setPort_ring (s : State) (t p : Nat) (x : Port) (ix : Nat) : (s.setPort t p x).ring ix = s.ring ix := (rfl)
@[simp] theorem State.setPort_evRing (s : State) (t p : Nat) (x : Port) (ix : Nat) : (s.setPort t p x).evRing ix = s.evRing ix := (rfl)
@[simp] theorem State.setPort_tpwr (s : State) (t p : Nat) (x : Port) (ix : Nat) : (s.setPort t p x).tpwr ix = s.tpwr ix := (rfl)
@[simp] theorem State.setPort_seqCtr (s : State) (t p : Nat) (x : Port) (ix iy : Nat) : (s.setPort t p x).seqCtr ix iy = s.seqCtr ix iy := (rfl)

/-! ## setLink -/

@[simp] theorem State.setLink_now (s : State) (l : Nat) (x : DieLink) : (s.setLink l x).now = s.now := (rfl)
@[simp] theorem State.setLink_regs (s : State) (l : Nat) (x : DieLink) : (s.setLink l x).regs = s.regs := (rfl)
@[simp] theorem State.setLink_regs0 (s : State) (l : Nat) (x : DieLink) : (s.setLink l x).regs0 = s.regs0 := (rfl)
@[simp] theorem State.setLink_rdLatch (s : State) (l : Nat) (x : DieLink) : (s.setLink l x).rdLatch = s.rdLatch := (rfl)
@[simp] theorem State.setLink_wrHold (s : State) (l : Nat) (x : DieLink) : (s.setLink l x).wrHold = s.wrHold := (rfl)
@[simp] theorem State.setLink_cores (s : State) (l : Nat) (x : DieLink) : (s.setLink l x).cores = s.cores := (rfl)
@[simp] theorem State.setLink_vaults (s : State) (l : Nat) (x : DieLink) : (s.setLink l x).vaults = s.vaults := (rfl)
@[simp] theorem State.setLink_bkuWin (s : State) (l : Nat) (x : DieLink) : (s.setLink l x).bkuWin = s.bkuWin := (rfl)
@[simp] theorem State.setLink_epoch (s : State) (l : Nat) (x : DieLink) : (s.setLink l x).epoch = s.epoch := (rfl)
@[simp] theorem State.setLink_fillBg (s : State) (l : Nat) (x : DieLink) : (s.setLink l x).fillBg = s.fillBg := (rfl)
@[simp] theorem State.setLink_queues (s : State) (l : Nat) (x : DieLink) : (s.setLink l x).queues = s.queues := (rfl)
@[simp] theorem State.setLink_senders (s : State) (l : Nat) (x : DieLink) : (s.setLink l x).senders = s.senders := (rfl)
@[simp] theorem State.setLink_seqs (s : State) (l : Nat) (x : DieLink) : (s.setLink l x).seqs = s.seqs := (rfl)
@[simp] theorem State.setLink_jobs (s : State) (l : Nat) (x : DieLink) : (s.setLink l x).jobs = s.jobs := (rfl)
@[simp] theorem State.setLink_jobCtr (s : State) (l : Nat) (x : DieLink) : (s.setLink l x).jobCtr = s.jobCtr := (rfl)
@[simp] theorem State.setLink_sent (s : State) (l : Nat) (x : DieLink) : (s.setLink l x).sent = s.sent := (rfl)
@[simp] theorem State.setLink_tables (s : State) (l : Nat) (x : DieLink) : (s.setLink l x).tables = s.tables := (rfl)
@[simp] theorem State.setLink_asker (s : State) (l : Nat) (x : DieLink) : (s.setLink l x).asker = s.asker := (rfl)
@[simp] theorem State.setLink_quarantine (s : State) (l : Nat) (x : DieLink) : (s.setLink l x).quarantine = s.quarantine := (rfl)
@[simp] theorem State.setLink_towers (s : State) (l : Nat) (x : DieLink) : (s.setLink l x).towers = s.towers := (rfl)
@[simp] theorem State.setLink_ports (s : State) (l : Nat) (x : DieLink) : (s.setLink l x).ports = s.ports := (rfl)
@[simp] theorem State.setLink_failover (s : State) (l : Nat) (x : DieLink) : (s.setLink l x).failover = s.failover := (rfl)
@[simp] theorem State.setLink_landed (s : State) (l : Nat) (x : DieLink) : (s.setLink l x).landed = s.landed := (rfl)
@[simp] theorem State.setLink_pfx (s : State) (l : Nat) (x : DieLink) : (s.setLink l x).pfx = s.pfx := (rfl)
@[simp] theorem State.setLink_chans (s : State) (l : Nat) (x : DieLink) : (s.setLink l x).chans = s.chans := (rfl)
@[simp] theorem State.setLink_started (s : State) (l : Nat) (x : DieLink) : (s.setLink l x).started = s.started := (rfl)
@[simp] theorem State.setLink_arbPtr (s : State) (l : Nat) (x : DieLink) : (s.setLink l x).arbPtr = s.arbPtr := (rfl)
@[simp] theorem State.setLink_skipped (s : State) (l : Nat) (x : DieLink) : (s.setLink l x).skipped = s.skipped := (rfl)
@[simp] theorem State.setLink_rings (s : State) (l : Nat) (x : DieLink) : (s.setLink l x).rings = s.rings := (rfl)
@[simp] theorem State.setLink_evRings (s : State) (l : Nat) (x : DieLink) : (s.setLink l x).evRings = s.evRings := (rfl)
@[simp] theorem State.setLink_events (s : State) (l : Nat) (x : DieLink) : (s.setLink l x).events = s.events := (rfl)
@[simp] theorem State.setLink_records (s : State) (l : Nat) (x : DieLink) : (s.setLink l x).records = s.records := (rfl)
@[simp] theorem State.setLink_sensors (s : State) (l : Nat) (x : DieLink) : (s.setLink l x).sensors = s.sensors := (rfl)
@[simp] theorem State.setLink_zoneAt (s : State) (l : Nat) (x : DieLink) : (s.setLink l x).zoneAt = s.zoneAt := (rfl)
@[simp] theorem State.setLink_hot (s : State) (l : Nat) (x : DieLink) : (s.setLink l x).hot = s.hot := (rfl)
@[simp] theorem State.setLink_pwr (s : State) (l : Nat) (x : DieLink) : (s.setLink l x).pwr = s.pwr := (rfl)
@[simp] theorem State.setLink_gates (s : State) (l : Nat) (x : DieLink) : (s.setLink l x).gates = s.gates := (rfl)
@[simp] theorem State.setLink_power (s : State) (l : Nat) (x : DieLink) : (s.setLink l x).power = s.power := (rfl)
@[simp] theorem State.setLink_rst (s : State) (l : Nat) (x : DieLink) : (s.setLink l x).rst = s.rst := (rfl)
@[simp] theorem State.setLink_boot (s : State) (l : Nat) (x : DieLink) : (s.setLink l x).boot = s.boot := (rfl)
@[simp] theorem State.setLink_features (s : State) (l : Nat) (x : DieLink) : (s.setLink l x).features = s.features := (rfl)
@[simp] theorem State.setLink_ras (s : State) (l : Nat) (x : DieLink) : (s.setLink l x).ras = s.ras := (rfl)
@[simp] theorem State.setLink_dbg (s : State) (l : Nat) (x : DieLink) : (s.setLink l x).dbg = s.dbg := (rfl)
@[simp] theorem State.setLink_chip (s : State) (l : Nat) (x : DieLink) : (s.setLink l x).chip = s.chip := (rfl)
@[simp] theorem State.setLink_out (s : State) (l : Nat) (x : DieLink) : (s.setLink l x).out = s.out := (rfl)
@[simp] theorem State.setLink_fresh (s : State) (l : Nat) (x : DieLink) : (s.setLink l x).fresh = s.fresh := (rfl)
@[simp] theorem State.setLink_pending (s : State) (l : Nat) (x : DieLink) : (s.setLink l x).pending = s.pending := (rfl)
@[simp] theorem State.setLink_reg (s : State) (l : Nat) (x : DieLink) (b : Nat) : (s.setLink l x).reg b = s.reg b := (rfl)
@[simp] theorem State.setLink_getF (s : State) (l : Nat) (x : DieLink) (g : Fld) : (s.setLink l x).getF g = s.getF g := (rfl)
@[simp] theorem State.setLink_core (s : State) (l : Nat) (x : DieLink) (ix : Nat) : (s.setLink l x).core ix = s.core ix := (rfl)
@[simp] theorem State.setLink_vault (s : State) (l : Nat) (x : DieLink) (ix : Nat) : (s.setLink l x).vault ix = s.vault ix := (rfl)
@[simp] theorem State.setLink_queue (s : State) (l : Nat) (x : DieLink) (ix : Nat) : (s.setLink l x).queue ix = s.queue ix := (rfl)
@[simp] theorem State.setLink_tower (s : State) (l : Nat) (x : DieLink) (ix : Nat) : (s.setLink l x).tower ix = s.tower ix := (rfl)
@[simp] theorem State.setLink_port (s : State) (l : Nat) (x : DieLink) (ix iy : Nat) : (s.setLink l x).port ix iy = s.port ix iy := (rfl)
@[simp] theorem State.setLink_chan (s : State) (l : Nat) (x : DieLink) (ix : Nat) : (s.setLink l x).chan ix = s.chan ix := (rfl)
@[simp] theorem State.setLink_ring (s : State) (l : Nat) (x : DieLink) (ix : Nat) : (s.setLink l x).ring ix = s.ring ix := (rfl)
@[simp] theorem State.setLink_evRing (s : State) (l : Nat) (x : DieLink) (ix : Nat) : (s.setLink l x).evRing ix = s.evRing ix := (rfl)
@[simp] theorem State.setLink_tpwr (s : State) (l : Nat) (x : DieLink) (ix : Nat) : (s.setLink l x).tpwr ix = s.tpwr ix := (rfl)
@[simp] theorem State.setLink_seqCtr (s : State) (l : Nat) (x : DieLink) (ix iy : Nat) : (s.setLink l x).seqCtr ix iy = s.seqCtr ix iy := (rfl)
@[simp] theorem State.setLink_link (s : State) (l : Nat) (x : DieLink) (j : Nat) :
    (s.setLink l x).link j = if j = l then x else s.link j :=
  SMap.get_put _ _ _ _ _

/-! ## setChan -/

@[simp] theorem State.setChan_now (s : State) (k : Nat) (c : Channel) : (s.setChan k c).now = s.now := (rfl)
@[simp] theorem State.setChan_regs (s : State) (k : Nat) (c : Channel) : (s.setChan k c).regs = s.regs := (rfl)
@[simp] theorem State.setChan_regs0 (s : State) (k : Nat) (c : Channel) : (s.setChan k c).regs0 = s.regs0 := (rfl)
@[simp] theorem State.setChan_rdLatch (s : State) (k : Nat) (c : Channel) : (s.setChan k c).rdLatch = s.rdLatch := (rfl)
@[simp] theorem State.setChan_wrHold (s : State) (k : Nat) (c : Channel) : (s.setChan k c).wrHold = s.wrHold := (rfl)
@[simp] theorem State.setChan_cores (s : State) (k : Nat) (c : Channel) : (s.setChan k c).cores = s.cores := (rfl)
@[simp] theorem State.setChan_vaults (s : State) (k : Nat) (c : Channel) : (s.setChan k c).vaults = s.vaults := (rfl)
@[simp] theorem State.setChan_bkuWin (s : State) (k : Nat) (c : Channel) : (s.setChan k c).bkuWin = s.bkuWin := (rfl)
@[simp] theorem State.setChan_epoch (s : State) (k : Nat) (c : Channel) : (s.setChan k c).epoch = s.epoch := (rfl)
@[simp] theorem State.setChan_fillBg (s : State) (k : Nat) (c : Channel) : (s.setChan k c).fillBg = s.fillBg := (rfl)
@[simp] theorem State.setChan_queues (s : State) (k : Nat) (c : Channel) : (s.setChan k c).queues = s.queues := (rfl)
@[simp] theorem State.setChan_senders (s : State) (k : Nat) (c : Channel) : (s.setChan k c).senders = s.senders := (rfl)
@[simp] theorem State.setChan_seqs (s : State) (k : Nat) (c : Channel) : (s.setChan k c).seqs = s.seqs := (rfl)
@[simp] theorem State.setChan_jobs (s : State) (k : Nat) (c : Channel) : (s.setChan k c).jobs = s.jobs := (rfl)
@[simp] theorem State.setChan_jobCtr (s : State) (k : Nat) (c : Channel) : (s.setChan k c).jobCtr = s.jobCtr := (rfl)
@[simp] theorem State.setChan_sent (s : State) (k : Nat) (c : Channel) : (s.setChan k c).sent = s.sent := (rfl)
@[simp] theorem State.setChan_tables (s : State) (k : Nat) (c : Channel) : (s.setChan k c).tables = s.tables := (rfl)
@[simp] theorem State.setChan_asker (s : State) (k : Nat) (c : Channel) : (s.setChan k c).asker = s.asker := (rfl)
@[simp] theorem State.setChan_quarantine (s : State) (k : Nat) (c : Channel) : (s.setChan k c).quarantine = s.quarantine := (rfl)
@[simp] theorem State.setChan_towers (s : State) (k : Nat) (c : Channel) : (s.setChan k c).towers = s.towers := (rfl)
@[simp] theorem State.setChan_ports (s : State) (k : Nat) (c : Channel) : (s.setChan k c).ports = s.ports := (rfl)
@[simp] theorem State.setChan_links (s : State) (k : Nat) (c : Channel) : (s.setChan k c).links = s.links := (rfl)
@[simp] theorem State.setChan_failover (s : State) (k : Nat) (c : Channel) : (s.setChan k c).failover = s.failover := (rfl)
@[simp] theorem State.setChan_landed (s : State) (k : Nat) (c : Channel) : (s.setChan k c).landed = s.landed := (rfl)
@[simp] theorem State.setChan_pfx (s : State) (k : Nat) (c : Channel) : (s.setChan k c).pfx = s.pfx := (rfl)
@[simp] theorem State.setChan_started (s : State) (k : Nat) (c : Channel) : (s.setChan k c).started = s.started := (rfl)
@[simp] theorem State.setChan_arbPtr (s : State) (k : Nat) (c : Channel) : (s.setChan k c).arbPtr = s.arbPtr := (rfl)
@[simp] theorem State.setChan_skipped (s : State) (k : Nat) (c : Channel) : (s.setChan k c).skipped = s.skipped := (rfl)
@[simp] theorem State.setChan_rings (s : State) (k : Nat) (c : Channel) : (s.setChan k c).rings = s.rings := (rfl)
@[simp] theorem State.setChan_evRings (s : State) (k : Nat) (c : Channel) : (s.setChan k c).evRings = s.evRings := (rfl)
@[simp] theorem State.setChan_events (s : State) (k : Nat) (c : Channel) : (s.setChan k c).events = s.events := (rfl)
@[simp] theorem State.setChan_records (s : State) (k : Nat) (c : Channel) : (s.setChan k c).records = s.records := (rfl)
@[simp] theorem State.setChan_sensors (s : State) (k : Nat) (c : Channel) : (s.setChan k c).sensors = s.sensors := (rfl)
@[simp] theorem State.setChan_zoneAt (s : State) (k : Nat) (c : Channel) : (s.setChan k c).zoneAt = s.zoneAt := (rfl)
@[simp] theorem State.setChan_hot (s : State) (k : Nat) (c : Channel) : (s.setChan k c).hot = s.hot := (rfl)
@[simp] theorem State.setChan_pwr (s : State) (k : Nat) (c : Channel) : (s.setChan k c).pwr = s.pwr := (rfl)
@[simp] theorem State.setChan_gates (s : State) (k : Nat) (c : Channel) : (s.setChan k c).gates = s.gates := (rfl)
@[simp] theorem State.setChan_power (s : State) (k : Nat) (c : Channel) : (s.setChan k c).power = s.power := (rfl)
@[simp] theorem State.setChan_rst (s : State) (k : Nat) (c : Channel) : (s.setChan k c).rst = s.rst := (rfl)
@[simp] theorem State.setChan_boot (s : State) (k : Nat) (c : Channel) : (s.setChan k c).boot = s.boot := (rfl)
@[simp] theorem State.setChan_features (s : State) (k : Nat) (c : Channel) : (s.setChan k c).features = s.features := (rfl)
@[simp] theorem State.setChan_ras (s : State) (k : Nat) (c : Channel) : (s.setChan k c).ras = s.ras := (rfl)
@[simp] theorem State.setChan_dbg (s : State) (k : Nat) (c : Channel) : (s.setChan k c).dbg = s.dbg := (rfl)
@[simp] theorem State.setChan_chip (s : State) (k : Nat) (c : Channel) : (s.setChan k c).chip = s.chip := (rfl)
@[simp] theorem State.setChan_out (s : State) (k : Nat) (c : Channel) : (s.setChan k c).out = s.out := (rfl)
@[simp] theorem State.setChan_fresh (s : State) (k : Nat) (c : Channel) : (s.setChan k c).fresh = s.fresh := (rfl)
@[simp] theorem State.setChan_pending (s : State) (k : Nat) (c : Channel) : (s.setChan k c).pending = s.pending := (rfl)
@[simp] theorem State.setChan_reg (s : State) (k : Nat) (c : Channel) (b : Nat) : (s.setChan k c).reg b = s.reg b := (rfl)
@[simp] theorem State.setChan_getF (s : State) (k : Nat) (c : Channel) (g : Fld) : (s.setChan k c).getF g = s.getF g := (rfl)
@[simp] theorem State.setChan_core (s : State) (k : Nat) (c : Channel) (ix : Nat) : (s.setChan k c).core ix = s.core ix := (rfl)
@[simp] theorem State.setChan_vault (s : State) (k : Nat) (c : Channel) (ix : Nat) : (s.setChan k c).vault ix = s.vault ix := (rfl)
@[simp] theorem State.setChan_queue (s : State) (k : Nat) (c : Channel) (ix : Nat) : (s.setChan k c).queue ix = s.queue ix := (rfl)
@[simp] theorem State.setChan_tower (s : State) (k : Nat) (c : Channel) (ix : Nat) : (s.setChan k c).tower ix = s.tower ix := (rfl)
@[simp] theorem State.setChan_port (s : State) (k : Nat) (c : Channel) (ix iy : Nat) : (s.setChan k c).port ix iy = s.port ix iy := (rfl)
@[simp] theorem State.setChan_link (s : State) (k : Nat) (c : Channel) (ix : Nat) : (s.setChan k c).link ix = s.link ix := (rfl)
@[simp] theorem State.setChan_ring (s : State) (k : Nat) (c : Channel) (ix : Nat) : (s.setChan k c).ring ix = s.ring ix := (rfl)
@[simp] theorem State.setChan_evRing (s : State) (k : Nat) (c : Channel) (ix : Nat) : (s.setChan k c).evRing ix = s.evRing ix := (rfl)
@[simp] theorem State.setChan_tpwr (s : State) (k : Nat) (c : Channel) (ix : Nat) : (s.setChan k c).tpwr ix = s.tpwr ix := (rfl)
@[simp] theorem State.setChan_seqCtr (s : State) (k : Nat) (c : Channel) (ix iy : Nat) : (s.setChan k c).seqCtr ix iy = s.seqCtr ix iy := (rfl)
@[simp] theorem State.setChan_chan (s : State) (k : Nat) (c : Channel) (j : Nat) :
    (s.setChan k c).chan j = if j = k then c else s.chan j :=
  SMap.get_put _ _ _ _ _

/-! ## setRing -/

@[simp] theorem State.setRing_now (s : State) (r : Nat) (x : Ring) : (s.setRing r x).now = s.now := (rfl)
@[simp] theorem State.setRing_regs (s : State) (r : Nat) (x : Ring) : (s.setRing r x).regs = s.regs := (rfl)
@[simp] theorem State.setRing_regs0 (s : State) (r : Nat) (x : Ring) : (s.setRing r x).regs0 = s.regs0 := (rfl)
@[simp] theorem State.setRing_rdLatch (s : State) (r : Nat) (x : Ring) : (s.setRing r x).rdLatch = s.rdLatch := (rfl)
@[simp] theorem State.setRing_wrHold (s : State) (r : Nat) (x : Ring) : (s.setRing r x).wrHold = s.wrHold := (rfl)
@[simp] theorem State.setRing_cores (s : State) (r : Nat) (x : Ring) : (s.setRing r x).cores = s.cores := (rfl)
@[simp] theorem State.setRing_vaults (s : State) (r : Nat) (x : Ring) : (s.setRing r x).vaults = s.vaults := (rfl)
@[simp] theorem State.setRing_bkuWin (s : State) (r : Nat) (x : Ring) : (s.setRing r x).bkuWin = s.bkuWin := (rfl)
@[simp] theorem State.setRing_epoch (s : State) (r : Nat) (x : Ring) : (s.setRing r x).epoch = s.epoch := (rfl)
@[simp] theorem State.setRing_fillBg (s : State) (r : Nat) (x : Ring) : (s.setRing r x).fillBg = s.fillBg := (rfl)
@[simp] theorem State.setRing_queues (s : State) (r : Nat) (x : Ring) : (s.setRing r x).queues = s.queues := (rfl)
@[simp] theorem State.setRing_senders (s : State) (r : Nat) (x : Ring) : (s.setRing r x).senders = s.senders := (rfl)
@[simp] theorem State.setRing_seqs (s : State) (r : Nat) (x : Ring) : (s.setRing r x).seqs = s.seqs := (rfl)
@[simp] theorem State.setRing_jobs (s : State) (r : Nat) (x : Ring) : (s.setRing r x).jobs = s.jobs := (rfl)
@[simp] theorem State.setRing_jobCtr (s : State) (r : Nat) (x : Ring) : (s.setRing r x).jobCtr = s.jobCtr := (rfl)
@[simp] theorem State.setRing_sent (s : State) (r : Nat) (x : Ring) : (s.setRing r x).sent = s.sent := (rfl)
@[simp] theorem State.setRing_tables (s : State) (r : Nat) (x : Ring) : (s.setRing r x).tables = s.tables := (rfl)
@[simp] theorem State.setRing_asker (s : State) (r : Nat) (x : Ring) : (s.setRing r x).asker = s.asker := (rfl)
@[simp] theorem State.setRing_quarantine (s : State) (r : Nat) (x : Ring) : (s.setRing r x).quarantine = s.quarantine := (rfl)
@[simp] theorem State.setRing_towers (s : State) (r : Nat) (x : Ring) : (s.setRing r x).towers = s.towers := (rfl)
@[simp] theorem State.setRing_ports (s : State) (r : Nat) (x : Ring) : (s.setRing r x).ports = s.ports := (rfl)
@[simp] theorem State.setRing_links (s : State) (r : Nat) (x : Ring) : (s.setRing r x).links = s.links := (rfl)
@[simp] theorem State.setRing_failover (s : State) (r : Nat) (x : Ring) : (s.setRing r x).failover = s.failover := (rfl)
@[simp] theorem State.setRing_landed (s : State) (r : Nat) (x : Ring) : (s.setRing r x).landed = s.landed := (rfl)
@[simp] theorem State.setRing_pfx (s : State) (r : Nat) (x : Ring) : (s.setRing r x).pfx = s.pfx := (rfl)
@[simp] theorem State.setRing_chans (s : State) (r : Nat) (x : Ring) : (s.setRing r x).chans = s.chans := (rfl)
@[simp] theorem State.setRing_started (s : State) (r : Nat) (x : Ring) : (s.setRing r x).started = s.started := (rfl)
@[simp] theorem State.setRing_arbPtr (s : State) (r : Nat) (x : Ring) : (s.setRing r x).arbPtr = s.arbPtr := (rfl)
@[simp] theorem State.setRing_skipped (s : State) (r : Nat) (x : Ring) : (s.setRing r x).skipped = s.skipped := (rfl)
@[simp] theorem State.setRing_evRings (s : State) (r : Nat) (x : Ring) : (s.setRing r x).evRings = s.evRings := (rfl)
@[simp] theorem State.setRing_events (s : State) (r : Nat) (x : Ring) : (s.setRing r x).events = s.events := (rfl)
@[simp] theorem State.setRing_records (s : State) (r : Nat) (x : Ring) : (s.setRing r x).records = s.records := (rfl)
@[simp] theorem State.setRing_sensors (s : State) (r : Nat) (x : Ring) : (s.setRing r x).sensors = s.sensors := (rfl)
@[simp] theorem State.setRing_zoneAt (s : State) (r : Nat) (x : Ring) : (s.setRing r x).zoneAt = s.zoneAt := (rfl)
@[simp] theorem State.setRing_hot (s : State) (r : Nat) (x : Ring) : (s.setRing r x).hot = s.hot := (rfl)
@[simp] theorem State.setRing_pwr (s : State) (r : Nat) (x : Ring) : (s.setRing r x).pwr = s.pwr := (rfl)
@[simp] theorem State.setRing_gates (s : State) (r : Nat) (x : Ring) : (s.setRing r x).gates = s.gates := (rfl)
@[simp] theorem State.setRing_power (s : State) (r : Nat) (x : Ring) : (s.setRing r x).power = s.power := (rfl)
@[simp] theorem State.setRing_rst (s : State) (r : Nat) (x : Ring) : (s.setRing r x).rst = s.rst := (rfl)
@[simp] theorem State.setRing_boot (s : State) (r : Nat) (x : Ring) : (s.setRing r x).boot = s.boot := (rfl)
@[simp] theorem State.setRing_features (s : State) (r : Nat) (x : Ring) : (s.setRing r x).features = s.features := (rfl)
@[simp] theorem State.setRing_ras (s : State) (r : Nat) (x : Ring) : (s.setRing r x).ras = s.ras := (rfl)
@[simp] theorem State.setRing_dbg (s : State) (r : Nat) (x : Ring) : (s.setRing r x).dbg = s.dbg := (rfl)
@[simp] theorem State.setRing_chip (s : State) (r : Nat) (x : Ring) : (s.setRing r x).chip = s.chip := (rfl)
@[simp] theorem State.setRing_out (s : State) (r : Nat) (x : Ring) : (s.setRing r x).out = s.out := (rfl)
@[simp] theorem State.setRing_fresh (s : State) (r : Nat) (x : Ring) : (s.setRing r x).fresh = s.fresh := (rfl)
@[simp] theorem State.setRing_pending (s : State) (r : Nat) (x : Ring) : (s.setRing r x).pending = s.pending := (rfl)
@[simp] theorem State.setRing_reg (s : State) (r : Nat) (x : Ring) (b : Nat) : (s.setRing r x).reg b = s.reg b := (rfl)
@[simp] theorem State.setRing_getF (s : State) (r : Nat) (x : Ring) (g : Fld) : (s.setRing r x).getF g = s.getF g := (rfl)
@[simp] theorem State.setRing_core (s : State) (r : Nat) (x : Ring) (ix : Nat) : (s.setRing r x).core ix = s.core ix := (rfl)
@[simp] theorem State.setRing_vault (s : State) (r : Nat) (x : Ring) (ix : Nat) : (s.setRing r x).vault ix = s.vault ix := (rfl)
@[simp] theorem State.setRing_queue (s : State) (r : Nat) (x : Ring) (ix : Nat) : (s.setRing r x).queue ix = s.queue ix := (rfl)
@[simp] theorem State.setRing_tower (s : State) (r : Nat) (x : Ring) (ix : Nat) : (s.setRing r x).tower ix = s.tower ix := (rfl)
@[simp] theorem State.setRing_port (s : State) (r : Nat) (x : Ring) (ix iy : Nat) : (s.setRing r x).port ix iy = s.port ix iy := (rfl)
@[simp] theorem State.setRing_link (s : State) (r : Nat) (x : Ring) (ix : Nat) : (s.setRing r x).link ix = s.link ix := (rfl)
@[simp] theorem State.setRing_chan (s : State) (r : Nat) (x : Ring) (ix : Nat) : (s.setRing r x).chan ix = s.chan ix := (rfl)
@[simp] theorem State.setRing_evRing (s : State) (r : Nat) (x : Ring) (ix : Nat) : (s.setRing r x).evRing ix = s.evRing ix := (rfl)
@[simp] theorem State.setRing_tpwr (s : State) (r : Nat) (x : Ring) (ix : Nat) : (s.setRing r x).tpwr ix = s.tpwr ix := (rfl)
@[simp] theorem State.setRing_seqCtr (s : State) (r : Nat) (x : Ring) (ix iy : Nat) : (s.setRing r x).seqCtr ix iy = s.seqCtr ix iy := (rfl)
@[simp] theorem State.setRing_ring (s : State) (r : Nat) (x : Ring) (j : Nat) :
    (s.setRing r x).ring j = if j = r then x else s.ring j :=
  SMap.get_put _ _ _ _ _

/-! ## setEvRing -/

@[simp] theorem State.setEvRing_now (s : State) (r : Nat) (x : EvRing) : (s.setEvRing r x).now = s.now := (rfl)
@[simp] theorem State.setEvRing_regs (s : State) (r : Nat) (x : EvRing) : (s.setEvRing r x).regs = s.regs := (rfl)
@[simp] theorem State.setEvRing_regs0 (s : State) (r : Nat) (x : EvRing) : (s.setEvRing r x).regs0 = s.regs0 := (rfl)
@[simp] theorem State.setEvRing_rdLatch (s : State) (r : Nat) (x : EvRing) : (s.setEvRing r x).rdLatch = s.rdLatch := (rfl)
@[simp] theorem State.setEvRing_wrHold (s : State) (r : Nat) (x : EvRing) : (s.setEvRing r x).wrHold = s.wrHold := (rfl)
@[simp] theorem State.setEvRing_cores (s : State) (r : Nat) (x : EvRing) : (s.setEvRing r x).cores = s.cores := (rfl)
@[simp] theorem State.setEvRing_vaults (s : State) (r : Nat) (x : EvRing) : (s.setEvRing r x).vaults = s.vaults := (rfl)
@[simp] theorem State.setEvRing_bkuWin (s : State) (r : Nat) (x : EvRing) : (s.setEvRing r x).bkuWin = s.bkuWin := (rfl)
@[simp] theorem State.setEvRing_epoch (s : State) (r : Nat) (x : EvRing) : (s.setEvRing r x).epoch = s.epoch := (rfl)
@[simp] theorem State.setEvRing_fillBg (s : State) (r : Nat) (x : EvRing) : (s.setEvRing r x).fillBg = s.fillBg := (rfl)
@[simp] theorem State.setEvRing_queues (s : State) (r : Nat) (x : EvRing) : (s.setEvRing r x).queues = s.queues := (rfl)
@[simp] theorem State.setEvRing_senders (s : State) (r : Nat) (x : EvRing) : (s.setEvRing r x).senders = s.senders := (rfl)
@[simp] theorem State.setEvRing_seqs (s : State) (r : Nat) (x : EvRing) : (s.setEvRing r x).seqs = s.seqs := (rfl)
@[simp] theorem State.setEvRing_jobs (s : State) (r : Nat) (x : EvRing) : (s.setEvRing r x).jobs = s.jobs := (rfl)
@[simp] theorem State.setEvRing_jobCtr (s : State) (r : Nat) (x : EvRing) : (s.setEvRing r x).jobCtr = s.jobCtr := (rfl)
@[simp] theorem State.setEvRing_sent (s : State) (r : Nat) (x : EvRing) : (s.setEvRing r x).sent = s.sent := (rfl)
@[simp] theorem State.setEvRing_tables (s : State) (r : Nat) (x : EvRing) : (s.setEvRing r x).tables = s.tables := (rfl)
@[simp] theorem State.setEvRing_asker (s : State) (r : Nat) (x : EvRing) : (s.setEvRing r x).asker = s.asker := (rfl)
@[simp] theorem State.setEvRing_quarantine (s : State) (r : Nat) (x : EvRing) : (s.setEvRing r x).quarantine = s.quarantine := (rfl)
@[simp] theorem State.setEvRing_towers (s : State) (r : Nat) (x : EvRing) : (s.setEvRing r x).towers = s.towers := (rfl)
@[simp] theorem State.setEvRing_ports (s : State) (r : Nat) (x : EvRing) : (s.setEvRing r x).ports = s.ports := (rfl)
@[simp] theorem State.setEvRing_links (s : State) (r : Nat) (x : EvRing) : (s.setEvRing r x).links = s.links := (rfl)
@[simp] theorem State.setEvRing_failover (s : State) (r : Nat) (x : EvRing) : (s.setEvRing r x).failover = s.failover := (rfl)
@[simp] theorem State.setEvRing_landed (s : State) (r : Nat) (x : EvRing) : (s.setEvRing r x).landed = s.landed := (rfl)
@[simp] theorem State.setEvRing_pfx (s : State) (r : Nat) (x : EvRing) : (s.setEvRing r x).pfx = s.pfx := (rfl)
@[simp] theorem State.setEvRing_chans (s : State) (r : Nat) (x : EvRing) : (s.setEvRing r x).chans = s.chans := (rfl)
@[simp] theorem State.setEvRing_started (s : State) (r : Nat) (x : EvRing) : (s.setEvRing r x).started = s.started := (rfl)
@[simp] theorem State.setEvRing_arbPtr (s : State) (r : Nat) (x : EvRing) : (s.setEvRing r x).arbPtr = s.arbPtr := (rfl)
@[simp] theorem State.setEvRing_skipped (s : State) (r : Nat) (x : EvRing) : (s.setEvRing r x).skipped = s.skipped := (rfl)
@[simp] theorem State.setEvRing_rings (s : State) (r : Nat) (x : EvRing) : (s.setEvRing r x).rings = s.rings := (rfl)
@[simp] theorem State.setEvRing_events (s : State) (r : Nat) (x : EvRing) : (s.setEvRing r x).events = s.events := (rfl)
@[simp] theorem State.setEvRing_records (s : State) (r : Nat) (x : EvRing) : (s.setEvRing r x).records = s.records := (rfl)
@[simp] theorem State.setEvRing_sensors (s : State) (r : Nat) (x : EvRing) : (s.setEvRing r x).sensors = s.sensors := (rfl)
@[simp] theorem State.setEvRing_zoneAt (s : State) (r : Nat) (x : EvRing) : (s.setEvRing r x).zoneAt = s.zoneAt := (rfl)
@[simp] theorem State.setEvRing_hot (s : State) (r : Nat) (x : EvRing) : (s.setEvRing r x).hot = s.hot := (rfl)
@[simp] theorem State.setEvRing_pwr (s : State) (r : Nat) (x : EvRing) : (s.setEvRing r x).pwr = s.pwr := (rfl)
@[simp] theorem State.setEvRing_gates (s : State) (r : Nat) (x : EvRing) : (s.setEvRing r x).gates = s.gates := (rfl)
@[simp] theorem State.setEvRing_power (s : State) (r : Nat) (x : EvRing) : (s.setEvRing r x).power = s.power := (rfl)
@[simp] theorem State.setEvRing_rst (s : State) (r : Nat) (x : EvRing) : (s.setEvRing r x).rst = s.rst := (rfl)
@[simp] theorem State.setEvRing_boot (s : State) (r : Nat) (x : EvRing) : (s.setEvRing r x).boot = s.boot := (rfl)
@[simp] theorem State.setEvRing_features (s : State) (r : Nat) (x : EvRing) : (s.setEvRing r x).features = s.features := (rfl)
@[simp] theorem State.setEvRing_ras (s : State) (r : Nat) (x : EvRing) : (s.setEvRing r x).ras = s.ras := (rfl)
@[simp] theorem State.setEvRing_dbg (s : State) (r : Nat) (x : EvRing) : (s.setEvRing r x).dbg = s.dbg := (rfl)
@[simp] theorem State.setEvRing_chip (s : State) (r : Nat) (x : EvRing) : (s.setEvRing r x).chip = s.chip := (rfl)
@[simp] theorem State.setEvRing_out (s : State) (r : Nat) (x : EvRing) : (s.setEvRing r x).out = s.out := (rfl)
@[simp] theorem State.setEvRing_fresh (s : State) (r : Nat) (x : EvRing) : (s.setEvRing r x).fresh = s.fresh := (rfl)
@[simp] theorem State.setEvRing_pending (s : State) (r : Nat) (x : EvRing) : (s.setEvRing r x).pending = s.pending := (rfl)
@[simp] theorem State.setEvRing_reg (s : State) (r : Nat) (x : EvRing) (b : Nat) : (s.setEvRing r x).reg b = s.reg b := (rfl)
@[simp] theorem State.setEvRing_getF (s : State) (r : Nat) (x : EvRing) (g : Fld) : (s.setEvRing r x).getF g = s.getF g := (rfl)
@[simp] theorem State.setEvRing_core (s : State) (r : Nat) (x : EvRing) (ix : Nat) : (s.setEvRing r x).core ix = s.core ix := (rfl)
@[simp] theorem State.setEvRing_vault (s : State) (r : Nat) (x : EvRing) (ix : Nat) : (s.setEvRing r x).vault ix = s.vault ix := (rfl)
@[simp] theorem State.setEvRing_queue (s : State) (r : Nat) (x : EvRing) (ix : Nat) : (s.setEvRing r x).queue ix = s.queue ix := (rfl)
@[simp] theorem State.setEvRing_tower (s : State) (r : Nat) (x : EvRing) (ix : Nat) : (s.setEvRing r x).tower ix = s.tower ix := (rfl)
@[simp] theorem State.setEvRing_port (s : State) (r : Nat) (x : EvRing) (ix iy : Nat) : (s.setEvRing r x).port ix iy = s.port ix iy := (rfl)
@[simp] theorem State.setEvRing_link (s : State) (r : Nat) (x : EvRing) (ix : Nat) : (s.setEvRing r x).link ix = s.link ix := (rfl)
@[simp] theorem State.setEvRing_chan (s : State) (r : Nat) (x : EvRing) (ix : Nat) : (s.setEvRing r x).chan ix = s.chan ix := (rfl)
@[simp] theorem State.setEvRing_ring (s : State) (r : Nat) (x : EvRing) (ix : Nat) : (s.setEvRing r x).ring ix = s.ring ix := (rfl)
@[simp] theorem State.setEvRing_tpwr (s : State) (r : Nat) (x : EvRing) (ix : Nat) : (s.setEvRing r x).tpwr ix = s.tpwr ix := (rfl)
@[simp] theorem State.setEvRing_seqCtr (s : State) (r : Nat) (x : EvRing) (ix iy : Nat) : (s.setEvRing r x).seqCtr ix iy = s.seqCtr ix iy := (rfl)
@[simp] theorem State.setEvRing_evRing (s : State) (r : Nat) (x : EvRing) (j : Nat) :
    (s.setEvRing r x).evRing j = if j = r then x else s.evRing j :=
  SMap.get_put _ _ _ _ _

/-! ## setTpwr -/

@[simp] theorem State.setTpwr_now (s : State) (t : Nat) (x : TowerPwr) : (s.setTpwr t x).now = s.now := (rfl)
@[simp] theorem State.setTpwr_regs (s : State) (t : Nat) (x : TowerPwr) : (s.setTpwr t x).regs = s.regs := (rfl)
@[simp] theorem State.setTpwr_regs0 (s : State) (t : Nat) (x : TowerPwr) : (s.setTpwr t x).regs0 = s.regs0 := (rfl)
@[simp] theorem State.setTpwr_rdLatch (s : State) (t : Nat) (x : TowerPwr) : (s.setTpwr t x).rdLatch = s.rdLatch := (rfl)
@[simp] theorem State.setTpwr_wrHold (s : State) (t : Nat) (x : TowerPwr) : (s.setTpwr t x).wrHold = s.wrHold := (rfl)
@[simp] theorem State.setTpwr_cores (s : State) (t : Nat) (x : TowerPwr) : (s.setTpwr t x).cores = s.cores := (rfl)
@[simp] theorem State.setTpwr_vaults (s : State) (t : Nat) (x : TowerPwr) : (s.setTpwr t x).vaults = s.vaults := (rfl)
@[simp] theorem State.setTpwr_bkuWin (s : State) (t : Nat) (x : TowerPwr) : (s.setTpwr t x).bkuWin = s.bkuWin := (rfl)
@[simp] theorem State.setTpwr_epoch (s : State) (t : Nat) (x : TowerPwr) : (s.setTpwr t x).epoch = s.epoch := (rfl)
@[simp] theorem State.setTpwr_fillBg (s : State) (t : Nat) (x : TowerPwr) : (s.setTpwr t x).fillBg = s.fillBg := (rfl)
@[simp] theorem State.setTpwr_queues (s : State) (t : Nat) (x : TowerPwr) : (s.setTpwr t x).queues = s.queues := (rfl)
@[simp] theorem State.setTpwr_senders (s : State) (t : Nat) (x : TowerPwr) : (s.setTpwr t x).senders = s.senders := (rfl)
@[simp] theorem State.setTpwr_seqs (s : State) (t : Nat) (x : TowerPwr) : (s.setTpwr t x).seqs = s.seqs := (rfl)
@[simp] theorem State.setTpwr_jobs (s : State) (t : Nat) (x : TowerPwr) : (s.setTpwr t x).jobs = s.jobs := (rfl)
@[simp] theorem State.setTpwr_jobCtr (s : State) (t : Nat) (x : TowerPwr) : (s.setTpwr t x).jobCtr = s.jobCtr := (rfl)
@[simp] theorem State.setTpwr_sent (s : State) (t : Nat) (x : TowerPwr) : (s.setTpwr t x).sent = s.sent := (rfl)
@[simp] theorem State.setTpwr_tables (s : State) (t : Nat) (x : TowerPwr) : (s.setTpwr t x).tables = s.tables := (rfl)
@[simp] theorem State.setTpwr_asker (s : State) (t : Nat) (x : TowerPwr) : (s.setTpwr t x).asker = s.asker := (rfl)
@[simp] theorem State.setTpwr_quarantine (s : State) (t : Nat) (x : TowerPwr) : (s.setTpwr t x).quarantine = s.quarantine := (rfl)
@[simp] theorem State.setTpwr_towers (s : State) (t : Nat) (x : TowerPwr) : (s.setTpwr t x).towers = s.towers := (rfl)
@[simp] theorem State.setTpwr_ports (s : State) (t : Nat) (x : TowerPwr) : (s.setTpwr t x).ports = s.ports := (rfl)
@[simp] theorem State.setTpwr_links (s : State) (t : Nat) (x : TowerPwr) : (s.setTpwr t x).links = s.links := (rfl)
@[simp] theorem State.setTpwr_failover (s : State) (t : Nat) (x : TowerPwr) : (s.setTpwr t x).failover = s.failover := (rfl)
@[simp] theorem State.setTpwr_landed (s : State) (t : Nat) (x : TowerPwr) : (s.setTpwr t x).landed = s.landed := (rfl)
@[simp] theorem State.setTpwr_pfx (s : State) (t : Nat) (x : TowerPwr) : (s.setTpwr t x).pfx = s.pfx := (rfl)
@[simp] theorem State.setTpwr_chans (s : State) (t : Nat) (x : TowerPwr) : (s.setTpwr t x).chans = s.chans := (rfl)
@[simp] theorem State.setTpwr_started (s : State) (t : Nat) (x : TowerPwr) : (s.setTpwr t x).started = s.started := (rfl)
@[simp] theorem State.setTpwr_arbPtr (s : State) (t : Nat) (x : TowerPwr) : (s.setTpwr t x).arbPtr = s.arbPtr := (rfl)
@[simp] theorem State.setTpwr_skipped (s : State) (t : Nat) (x : TowerPwr) : (s.setTpwr t x).skipped = s.skipped := (rfl)
@[simp] theorem State.setTpwr_rings (s : State) (t : Nat) (x : TowerPwr) : (s.setTpwr t x).rings = s.rings := (rfl)
@[simp] theorem State.setTpwr_evRings (s : State) (t : Nat) (x : TowerPwr) : (s.setTpwr t x).evRings = s.evRings := (rfl)
@[simp] theorem State.setTpwr_events (s : State) (t : Nat) (x : TowerPwr) : (s.setTpwr t x).events = s.events := (rfl)
@[simp] theorem State.setTpwr_records (s : State) (t : Nat) (x : TowerPwr) : (s.setTpwr t x).records = s.records := (rfl)
@[simp] theorem State.setTpwr_sensors (s : State) (t : Nat) (x : TowerPwr) : (s.setTpwr t x).sensors = s.sensors := (rfl)
@[simp] theorem State.setTpwr_zoneAt (s : State) (t : Nat) (x : TowerPwr) : (s.setTpwr t x).zoneAt = s.zoneAt := (rfl)
@[simp] theorem State.setTpwr_hot (s : State) (t : Nat) (x : TowerPwr) : (s.setTpwr t x).hot = s.hot := (rfl)
@[simp] theorem State.setTpwr_gates (s : State) (t : Nat) (x : TowerPwr) : (s.setTpwr t x).gates = s.gates := (rfl)
@[simp] theorem State.setTpwr_power (s : State) (t : Nat) (x : TowerPwr) : (s.setTpwr t x).power = s.power := (rfl)
@[simp] theorem State.setTpwr_rst (s : State) (t : Nat) (x : TowerPwr) : (s.setTpwr t x).rst = s.rst := (rfl)
@[simp] theorem State.setTpwr_boot (s : State) (t : Nat) (x : TowerPwr) : (s.setTpwr t x).boot = s.boot := (rfl)
@[simp] theorem State.setTpwr_features (s : State) (t : Nat) (x : TowerPwr) : (s.setTpwr t x).features = s.features := (rfl)
@[simp] theorem State.setTpwr_ras (s : State) (t : Nat) (x : TowerPwr) : (s.setTpwr t x).ras = s.ras := (rfl)
@[simp] theorem State.setTpwr_dbg (s : State) (t : Nat) (x : TowerPwr) : (s.setTpwr t x).dbg = s.dbg := (rfl)
@[simp] theorem State.setTpwr_chip (s : State) (t : Nat) (x : TowerPwr) : (s.setTpwr t x).chip = s.chip := (rfl)
@[simp] theorem State.setTpwr_out (s : State) (t : Nat) (x : TowerPwr) : (s.setTpwr t x).out = s.out := (rfl)
@[simp] theorem State.setTpwr_fresh (s : State) (t : Nat) (x : TowerPwr) : (s.setTpwr t x).fresh = s.fresh := (rfl)
@[simp] theorem State.setTpwr_pending (s : State) (t : Nat) (x : TowerPwr) : (s.setTpwr t x).pending = s.pending := (rfl)
@[simp] theorem State.setTpwr_reg (s : State) (t : Nat) (x : TowerPwr) (b : Nat) : (s.setTpwr t x).reg b = s.reg b := (rfl)
@[simp] theorem State.setTpwr_getF (s : State) (t : Nat) (x : TowerPwr) (g : Fld) : (s.setTpwr t x).getF g = s.getF g := (rfl)
@[simp] theorem State.setTpwr_core (s : State) (t : Nat) (x : TowerPwr) (ix : Nat) : (s.setTpwr t x).core ix = s.core ix := (rfl)
@[simp] theorem State.setTpwr_vault (s : State) (t : Nat) (x : TowerPwr) (ix : Nat) : (s.setTpwr t x).vault ix = s.vault ix := (rfl)
@[simp] theorem State.setTpwr_queue (s : State) (t : Nat) (x : TowerPwr) (ix : Nat) : (s.setTpwr t x).queue ix = s.queue ix := (rfl)
@[simp] theorem State.setTpwr_tower (s : State) (t : Nat) (x : TowerPwr) (ix : Nat) : (s.setTpwr t x).tower ix = s.tower ix := (rfl)
@[simp] theorem State.setTpwr_port (s : State) (t : Nat) (x : TowerPwr) (ix iy : Nat) : (s.setTpwr t x).port ix iy = s.port ix iy := (rfl)
@[simp] theorem State.setTpwr_link (s : State) (t : Nat) (x : TowerPwr) (ix : Nat) : (s.setTpwr t x).link ix = s.link ix := (rfl)
@[simp] theorem State.setTpwr_chan (s : State) (t : Nat) (x : TowerPwr) (ix : Nat) : (s.setTpwr t x).chan ix = s.chan ix := (rfl)
@[simp] theorem State.setTpwr_ring (s : State) (t : Nat) (x : TowerPwr) (ix : Nat) : (s.setTpwr t x).ring ix = s.ring ix := (rfl)
@[simp] theorem State.setTpwr_evRing (s : State) (t : Nat) (x : TowerPwr) (ix : Nat) : (s.setTpwr t x).evRing ix = s.evRing ix := (rfl)
@[simp] theorem State.setTpwr_seqCtr (s : State) (t : Nat) (x : TowerPwr) (ix iy : Nat) : (s.setTpwr t x).seqCtr ix iy = s.seqCtr ix iy := (rfl)
@[simp] theorem State.setTpwr_tpwr (s : State) (t : Nat) (x : TowerPwr) (j : Nat) :
    (s.setTpwr t x).tpwr j = if j = t then x else s.tpwr j :=
  SMap.get_put _ _ _ _ _

/-! ## setSeqCtr -/

@[simp] theorem State.setSeqCtr_now (s : State) (i e : Nat) (x : SeqCtr) : (s.setSeqCtr i e x).now = s.now := (rfl)
@[simp] theorem State.setSeqCtr_regs (s : State) (i e : Nat) (x : SeqCtr) : (s.setSeqCtr i e x).regs = s.regs := (rfl)
@[simp] theorem State.setSeqCtr_regs0 (s : State) (i e : Nat) (x : SeqCtr) : (s.setSeqCtr i e x).regs0 = s.regs0 := (rfl)
@[simp] theorem State.setSeqCtr_rdLatch (s : State) (i e : Nat) (x : SeqCtr) : (s.setSeqCtr i e x).rdLatch = s.rdLatch := (rfl)
@[simp] theorem State.setSeqCtr_wrHold (s : State) (i e : Nat) (x : SeqCtr) : (s.setSeqCtr i e x).wrHold = s.wrHold := (rfl)
@[simp] theorem State.setSeqCtr_cores (s : State) (i e : Nat) (x : SeqCtr) : (s.setSeqCtr i e x).cores = s.cores := (rfl)
@[simp] theorem State.setSeqCtr_vaults (s : State) (i e : Nat) (x : SeqCtr) : (s.setSeqCtr i e x).vaults = s.vaults := (rfl)
@[simp] theorem State.setSeqCtr_bkuWin (s : State) (i e : Nat) (x : SeqCtr) : (s.setSeqCtr i e x).bkuWin = s.bkuWin := (rfl)
@[simp] theorem State.setSeqCtr_epoch (s : State) (i e : Nat) (x : SeqCtr) : (s.setSeqCtr i e x).epoch = s.epoch := (rfl)
@[simp] theorem State.setSeqCtr_fillBg (s : State) (i e : Nat) (x : SeqCtr) : (s.setSeqCtr i e x).fillBg = s.fillBg := (rfl)
@[simp] theorem State.setSeqCtr_queues (s : State) (i e : Nat) (x : SeqCtr) : (s.setSeqCtr i e x).queues = s.queues := (rfl)
@[simp] theorem State.setSeqCtr_senders (s : State) (i e : Nat) (x : SeqCtr) : (s.setSeqCtr i e x).senders = s.senders := (rfl)
@[simp] theorem State.setSeqCtr_jobs (s : State) (i e : Nat) (x : SeqCtr) : (s.setSeqCtr i e x).jobs = s.jobs := (rfl)
@[simp] theorem State.setSeqCtr_jobCtr (s : State) (i e : Nat) (x : SeqCtr) : (s.setSeqCtr i e x).jobCtr = s.jobCtr := (rfl)
@[simp] theorem State.setSeqCtr_sent (s : State) (i e : Nat) (x : SeqCtr) : (s.setSeqCtr i e x).sent = s.sent := (rfl)
@[simp] theorem State.setSeqCtr_tables (s : State) (i e : Nat) (x : SeqCtr) : (s.setSeqCtr i e x).tables = s.tables := (rfl)
@[simp] theorem State.setSeqCtr_asker (s : State) (i e : Nat) (x : SeqCtr) : (s.setSeqCtr i e x).asker = s.asker := (rfl)
@[simp] theorem State.setSeqCtr_quarantine (s : State) (i e : Nat) (x : SeqCtr) : (s.setSeqCtr i e x).quarantine = s.quarantine := (rfl)
@[simp] theorem State.setSeqCtr_towers (s : State) (i e : Nat) (x : SeqCtr) : (s.setSeqCtr i e x).towers = s.towers := (rfl)
@[simp] theorem State.setSeqCtr_ports (s : State) (i e : Nat) (x : SeqCtr) : (s.setSeqCtr i e x).ports = s.ports := (rfl)
@[simp] theorem State.setSeqCtr_links (s : State) (i e : Nat) (x : SeqCtr) : (s.setSeqCtr i e x).links = s.links := (rfl)
@[simp] theorem State.setSeqCtr_failover (s : State) (i e : Nat) (x : SeqCtr) : (s.setSeqCtr i e x).failover = s.failover := (rfl)
@[simp] theorem State.setSeqCtr_landed (s : State) (i e : Nat) (x : SeqCtr) : (s.setSeqCtr i e x).landed = s.landed := (rfl)
@[simp] theorem State.setSeqCtr_pfx (s : State) (i e : Nat) (x : SeqCtr) : (s.setSeqCtr i e x).pfx = s.pfx := (rfl)
@[simp] theorem State.setSeqCtr_chans (s : State) (i e : Nat) (x : SeqCtr) : (s.setSeqCtr i e x).chans = s.chans := (rfl)
@[simp] theorem State.setSeqCtr_started (s : State) (i e : Nat) (x : SeqCtr) : (s.setSeqCtr i e x).started = s.started := (rfl)
@[simp] theorem State.setSeqCtr_arbPtr (s : State) (i e : Nat) (x : SeqCtr) : (s.setSeqCtr i e x).arbPtr = s.arbPtr := (rfl)
@[simp] theorem State.setSeqCtr_skipped (s : State) (i e : Nat) (x : SeqCtr) : (s.setSeqCtr i e x).skipped = s.skipped := (rfl)
@[simp] theorem State.setSeqCtr_rings (s : State) (i e : Nat) (x : SeqCtr) : (s.setSeqCtr i e x).rings = s.rings := (rfl)
@[simp] theorem State.setSeqCtr_evRings (s : State) (i e : Nat) (x : SeqCtr) : (s.setSeqCtr i e x).evRings = s.evRings := (rfl)
@[simp] theorem State.setSeqCtr_events (s : State) (i e : Nat) (x : SeqCtr) : (s.setSeqCtr i e x).events = s.events := (rfl)
@[simp] theorem State.setSeqCtr_records (s : State) (i e : Nat) (x : SeqCtr) : (s.setSeqCtr i e x).records = s.records := (rfl)
@[simp] theorem State.setSeqCtr_sensors (s : State) (i e : Nat) (x : SeqCtr) : (s.setSeqCtr i e x).sensors = s.sensors := (rfl)
@[simp] theorem State.setSeqCtr_zoneAt (s : State) (i e : Nat) (x : SeqCtr) : (s.setSeqCtr i e x).zoneAt = s.zoneAt := (rfl)
@[simp] theorem State.setSeqCtr_hot (s : State) (i e : Nat) (x : SeqCtr) : (s.setSeqCtr i e x).hot = s.hot := (rfl)
@[simp] theorem State.setSeqCtr_pwr (s : State) (i e : Nat) (x : SeqCtr) : (s.setSeqCtr i e x).pwr = s.pwr := (rfl)
@[simp] theorem State.setSeqCtr_gates (s : State) (i e : Nat) (x : SeqCtr) : (s.setSeqCtr i e x).gates = s.gates := (rfl)
@[simp] theorem State.setSeqCtr_power (s : State) (i e : Nat) (x : SeqCtr) : (s.setSeqCtr i e x).power = s.power := (rfl)
@[simp] theorem State.setSeqCtr_rst (s : State) (i e : Nat) (x : SeqCtr) : (s.setSeqCtr i e x).rst = s.rst := (rfl)
@[simp] theorem State.setSeqCtr_boot (s : State) (i e : Nat) (x : SeqCtr) : (s.setSeqCtr i e x).boot = s.boot := (rfl)
@[simp] theorem State.setSeqCtr_features (s : State) (i e : Nat) (x : SeqCtr) : (s.setSeqCtr i e x).features = s.features := (rfl)
@[simp] theorem State.setSeqCtr_ras (s : State) (i e : Nat) (x : SeqCtr) : (s.setSeqCtr i e x).ras = s.ras := (rfl)
@[simp] theorem State.setSeqCtr_dbg (s : State) (i e : Nat) (x : SeqCtr) : (s.setSeqCtr i e x).dbg = s.dbg := (rfl)
@[simp] theorem State.setSeqCtr_chip (s : State) (i e : Nat) (x : SeqCtr) : (s.setSeqCtr i e x).chip = s.chip := (rfl)
@[simp] theorem State.setSeqCtr_out (s : State) (i e : Nat) (x : SeqCtr) : (s.setSeqCtr i e x).out = s.out := (rfl)
@[simp] theorem State.setSeqCtr_fresh (s : State) (i e : Nat) (x : SeqCtr) : (s.setSeqCtr i e x).fresh = s.fresh := (rfl)
@[simp] theorem State.setSeqCtr_pending (s : State) (i e : Nat) (x : SeqCtr) : (s.setSeqCtr i e x).pending = s.pending := (rfl)
@[simp] theorem State.setSeqCtr_reg (s : State) (i e : Nat) (x : SeqCtr) (b : Nat) : (s.setSeqCtr i e x).reg b = s.reg b := (rfl)
@[simp] theorem State.setSeqCtr_getF (s : State) (i e : Nat) (x : SeqCtr) (g : Fld) : (s.setSeqCtr i e x).getF g = s.getF g := (rfl)
@[simp] theorem State.setSeqCtr_core (s : State) (i e : Nat) (x : SeqCtr) (ix : Nat) : (s.setSeqCtr i e x).core ix = s.core ix := (rfl)
@[simp] theorem State.setSeqCtr_vault (s : State) (i e : Nat) (x : SeqCtr) (ix : Nat) : (s.setSeqCtr i e x).vault ix = s.vault ix := (rfl)
@[simp] theorem State.setSeqCtr_queue (s : State) (i e : Nat) (x : SeqCtr) (ix : Nat) : (s.setSeqCtr i e x).queue ix = s.queue ix := (rfl)
@[simp] theorem State.setSeqCtr_tower (s : State) (i e : Nat) (x : SeqCtr) (ix : Nat) : (s.setSeqCtr i e x).tower ix = s.tower ix := (rfl)
@[simp] theorem State.setSeqCtr_port (s : State) (i e : Nat) (x : SeqCtr) (ix iy : Nat) : (s.setSeqCtr i e x).port ix iy = s.port ix iy := (rfl)
@[simp] theorem State.setSeqCtr_link (s : State) (i e : Nat) (x : SeqCtr) (ix : Nat) : (s.setSeqCtr i e x).link ix = s.link ix := (rfl)
@[simp] theorem State.setSeqCtr_chan (s : State) (i e : Nat) (x : SeqCtr) (ix : Nat) : (s.setSeqCtr i e x).chan ix = s.chan ix := (rfl)
@[simp] theorem State.setSeqCtr_ring (s : State) (i e : Nat) (x : SeqCtr) (ix : Nat) : (s.setSeqCtr i e x).ring ix = s.ring ix := (rfl)
@[simp] theorem State.setSeqCtr_evRing (s : State) (i e : Nat) (x : SeqCtr) (ix : Nat) : (s.setSeqCtr i e x).evRing ix = s.evRing ix := (rfl)
@[simp] theorem State.setSeqCtr_tpwr (s : State) (i e : Nat) (x : SeqCtr) (ix : Nat) : (s.setSeqCtr i e x).tpwr ix = s.tpwr ix := (rfl)

/-! ## bump -/

@[simp] theorem State.bump_now (s : State) (n : Nat) : (s.bump n).now = s.now := (rfl)
@[simp] theorem State.bump_regs (s : State) (n : Nat) : (s.bump n).regs = s.regs := (rfl)
@[simp] theorem State.bump_regs0 (s : State) (n : Nat) : (s.bump n).regs0 = s.regs0 := (rfl)
@[simp] theorem State.bump_rdLatch (s : State) (n : Nat) : (s.bump n).rdLatch = s.rdLatch := (rfl)
@[simp] theorem State.bump_wrHold (s : State) (n : Nat) : (s.bump n).wrHold = s.wrHold := (rfl)
@[simp] theorem State.bump_cores (s : State) (n : Nat) : (s.bump n).cores = s.cores := (rfl)
@[simp] theorem State.bump_vaults (s : State) (n : Nat) : (s.bump n).vaults = s.vaults := (rfl)
@[simp] theorem State.bump_bkuWin (s : State) (n : Nat) : (s.bump n).bkuWin = s.bkuWin := (rfl)
@[simp] theorem State.bump_epoch (s : State) (n : Nat) : (s.bump n).epoch = s.epoch := (rfl)
@[simp] theorem State.bump_fillBg (s : State) (n : Nat) : (s.bump n).fillBg = s.fillBg := (rfl)
@[simp] theorem State.bump_queues (s : State) (n : Nat) : (s.bump n).queues = s.queues := (rfl)
@[simp] theorem State.bump_senders (s : State) (n : Nat) : (s.bump n).senders = s.senders := (rfl)
@[simp] theorem State.bump_seqs (s : State) (n : Nat) : (s.bump n).seqs = s.seqs := (rfl)
@[simp] theorem State.bump_jobs (s : State) (n : Nat) : (s.bump n).jobs = s.jobs := (rfl)
@[simp] theorem State.bump_jobCtr (s : State) (n : Nat) : (s.bump n).jobCtr = s.jobCtr := (rfl)
@[simp] theorem State.bump_sent (s : State) (n : Nat) : (s.bump n).sent = s.sent := (rfl)
@[simp] theorem State.bump_tables (s : State) (n : Nat) : (s.bump n).tables = s.tables := (rfl)
@[simp] theorem State.bump_asker (s : State) (n : Nat) : (s.bump n).asker = s.asker := (rfl)
@[simp] theorem State.bump_quarantine (s : State) (n : Nat) : (s.bump n).quarantine = s.quarantine := (rfl)
@[simp] theorem State.bump_towers (s : State) (n : Nat) : (s.bump n).towers = s.towers := (rfl)
@[simp] theorem State.bump_ports (s : State) (n : Nat) : (s.bump n).ports = s.ports := (rfl)
@[simp] theorem State.bump_links (s : State) (n : Nat) : (s.bump n).links = s.links := (rfl)
@[simp] theorem State.bump_failover (s : State) (n : Nat) : (s.bump n).failover = s.failover := (rfl)
@[simp] theorem State.bump_landed (s : State) (n : Nat) : (s.bump n).landed = s.landed := (rfl)
@[simp] theorem State.bump_pfx (s : State) (n : Nat) : (s.bump n).pfx = s.pfx := (rfl)
@[simp] theorem State.bump_chans (s : State) (n : Nat) : (s.bump n).chans = s.chans := (rfl)
@[simp] theorem State.bump_started (s : State) (n : Nat) : (s.bump n).started = s.started := (rfl)
@[simp] theorem State.bump_arbPtr (s : State) (n : Nat) : (s.bump n).arbPtr = s.arbPtr := (rfl)
@[simp] theorem State.bump_skipped (s : State) (n : Nat) : (s.bump n).skipped = s.skipped := (rfl)
@[simp] theorem State.bump_rings (s : State) (n : Nat) : (s.bump n).rings = s.rings := (rfl)
@[simp] theorem State.bump_evRings (s : State) (n : Nat) : (s.bump n).evRings = s.evRings := (rfl)
@[simp] theorem State.bump_events (s : State) (n : Nat) : (s.bump n).events = s.events := (rfl)
@[simp] theorem State.bump_records (s : State) (n : Nat) : (s.bump n).records = s.records := (rfl)
@[simp] theorem State.bump_sensors (s : State) (n : Nat) : (s.bump n).sensors = s.sensors := (rfl)
@[simp] theorem State.bump_zoneAt (s : State) (n : Nat) : (s.bump n).zoneAt = s.zoneAt := (rfl)
@[simp] theorem State.bump_hot (s : State) (n : Nat) : (s.bump n).hot = s.hot := (rfl)
@[simp] theorem State.bump_pwr (s : State) (n : Nat) : (s.bump n).pwr = s.pwr := (rfl)
@[simp] theorem State.bump_gates (s : State) (n : Nat) : (s.bump n).gates = s.gates := (rfl)
@[simp] theorem State.bump_power (s : State) (n : Nat) : (s.bump n).power = s.power := (rfl)
@[simp] theorem State.bump_rst (s : State) (n : Nat) : (s.bump n).rst = s.rst := (rfl)
@[simp] theorem State.bump_boot (s : State) (n : Nat) : (s.bump n).boot = s.boot := (rfl)
@[simp] theorem State.bump_features (s : State) (n : Nat) : (s.bump n).features = s.features := (rfl)
@[simp] theorem State.bump_ras (s : State) (n : Nat) : (s.bump n).ras = s.ras := (rfl)
@[simp] theorem State.bump_dbg (s : State) (n : Nat) : (s.bump n).dbg = s.dbg := (rfl)
@[simp] theorem State.bump_chip (s : State) (n : Nat) : (s.bump n).chip = s.chip := (rfl)
@[simp] theorem State.bump_out (s : State) (n : Nat) : (s.bump n).out = s.out := (rfl)
@[simp] theorem State.bump_pending (s : State) (n : Nat) : (s.bump n).pending = s.pending := (rfl)
@[simp] theorem State.bump_reg (s : State) (n : Nat) (b : Nat) : (s.bump n).reg b = s.reg b := (rfl)
@[simp] theorem State.bump_getF (s : State) (n : Nat) (g : Fld) : (s.bump n).getF g = s.getF g := (rfl)
@[simp] theorem State.bump_core (s : State) (n : Nat) (ix : Nat) : (s.bump n).core ix = s.core ix := (rfl)
@[simp] theorem State.bump_vault (s : State) (n : Nat) (ix : Nat) : (s.bump n).vault ix = s.vault ix := (rfl)
@[simp] theorem State.bump_queue (s : State) (n : Nat) (ix : Nat) : (s.bump n).queue ix = s.queue ix := (rfl)
@[simp] theorem State.bump_tower (s : State) (n : Nat) (ix : Nat) : (s.bump n).tower ix = s.tower ix := (rfl)
@[simp] theorem State.bump_port (s : State) (n : Nat) (ix iy : Nat) : (s.bump n).port ix iy = s.port ix iy := (rfl)
@[simp] theorem State.bump_link (s : State) (n : Nat) (ix : Nat) : (s.bump n).link ix = s.link ix := (rfl)
@[simp] theorem State.bump_chan (s : State) (n : Nat) (ix : Nat) : (s.bump n).chan ix = s.chan ix := (rfl)
@[simp] theorem State.bump_ring (s : State) (n : Nat) (ix : Nat) : (s.bump n).ring ix = s.ring ix := (rfl)
@[simp] theorem State.bump_evRing (s : State) (n : Nat) (ix : Nat) : (s.bump n).evRing ix = s.evRing ix := (rfl)
@[simp] theorem State.bump_tpwr (s : State) (n : Nat) (ix : Nat) : (s.bump n).tpwr ix = s.tpwr ix := (rfl)
@[simp] theorem State.bump_seqCtr (s : State) (n : Nat) (ix iy : Nat) : (s.bump n).seqCtr ix iy = s.seqCtr ix iy := (rfl)

/-! ## emit -/

@[simp] theorem State.emit_now (s : State) (o : Out) : (s.emit o).now = s.now := (rfl)
@[simp] theorem State.emit_regs (s : State) (o : Out) : (s.emit o).regs = s.regs := (rfl)
@[simp] theorem State.emit_regs0 (s : State) (o : Out) : (s.emit o).regs0 = s.regs0 := (rfl)
@[simp] theorem State.emit_rdLatch (s : State) (o : Out) : (s.emit o).rdLatch = s.rdLatch := (rfl)
@[simp] theorem State.emit_wrHold (s : State) (o : Out) : (s.emit o).wrHold = s.wrHold := (rfl)
@[simp] theorem State.emit_cores (s : State) (o : Out) : (s.emit o).cores = s.cores := (rfl)
@[simp] theorem State.emit_vaults (s : State) (o : Out) : (s.emit o).vaults = s.vaults := (rfl)
@[simp] theorem State.emit_bkuWin (s : State) (o : Out) : (s.emit o).bkuWin = s.bkuWin := (rfl)
@[simp] theorem State.emit_epoch (s : State) (o : Out) : (s.emit o).epoch = s.epoch := (rfl)
@[simp] theorem State.emit_fillBg (s : State) (o : Out) : (s.emit o).fillBg = s.fillBg := (rfl)
@[simp] theorem State.emit_queues (s : State) (o : Out) : (s.emit o).queues = s.queues := (rfl)
@[simp] theorem State.emit_senders (s : State) (o : Out) : (s.emit o).senders = s.senders := (rfl)
@[simp] theorem State.emit_seqs (s : State) (o : Out) : (s.emit o).seqs = s.seqs := (rfl)
@[simp] theorem State.emit_jobs (s : State) (o : Out) : (s.emit o).jobs = s.jobs := (rfl)
@[simp] theorem State.emit_jobCtr (s : State) (o : Out) : (s.emit o).jobCtr = s.jobCtr := (rfl)
@[simp] theorem State.emit_sent (s : State) (o : Out) : (s.emit o).sent = s.sent := (rfl)
@[simp] theorem State.emit_tables (s : State) (o : Out) : (s.emit o).tables = s.tables := (rfl)
@[simp] theorem State.emit_asker (s : State) (o : Out) : (s.emit o).asker = s.asker := (rfl)
@[simp] theorem State.emit_quarantine (s : State) (o : Out) : (s.emit o).quarantine = s.quarantine := (rfl)
@[simp] theorem State.emit_towers (s : State) (o : Out) : (s.emit o).towers = s.towers := (rfl)
@[simp] theorem State.emit_ports (s : State) (o : Out) : (s.emit o).ports = s.ports := (rfl)
@[simp] theorem State.emit_links (s : State) (o : Out) : (s.emit o).links = s.links := (rfl)
@[simp] theorem State.emit_failover (s : State) (o : Out) : (s.emit o).failover = s.failover := (rfl)
@[simp] theorem State.emit_landed (s : State) (o : Out) : (s.emit o).landed = s.landed := (rfl)
@[simp] theorem State.emit_pfx (s : State) (o : Out) : (s.emit o).pfx = s.pfx := (rfl)
@[simp] theorem State.emit_chans (s : State) (o : Out) : (s.emit o).chans = s.chans := (rfl)
@[simp] theorem State.emit_started (s : State) (o : Out) : (s.emit o).started = s.started := (rfl)
@[simp] theorem State.emit_arbPtr (s : State) (o : Out) : (s.emit o).arbPtr = s.arbPtr := (rfl)
@[simp] theorem State.emit_skipped (s : State) (o : Out) : (s.emit o).skipped = s.skipped := (rfl)
@[simp] theorem State.emit_rings (s : State) (o : Out) : (s.emit o).rings = s.rings := (rfl)
@[simp] theorem State.emit_evRings (s : State) (o : Out) : (s.emit o).evRings = s.evRings := (rfl)
@[simp] theorem State.emit_events (s : State) (o : Out) : (s.emit o).events = s.events := (rfl)
@[simp] theorem State.emit_records (s : State) (o : Out) : (s.emit o).records = s.records := (rfl)
@[simp] theorem State.emit_sensors (s : State) (o : Out) : (s.emit o).sensors = s.sensors := (rfl)
@[simp] theorem State.emit_zoneAt (s : State) (o : Out) : (s.emit o).zoneAt = s.zoneAt := (rfl)
@[simp] theorem State.emit_hot (s : State) (o : Out) : (s.emit o).hot = s.hot := (rfl)
@[simp] theorem State.emit_pwr (s : State) (o : Out) : (s.emit o).pwr = s.pwr := (rfl)
@[simp] theorem State.emit_gates (s : State) (o : Out) : (s.emit o).gates = s.gates := (rfl)
@[simp] theorem State.emit_power (s : State) (o : Out) : (s.emit o).power = s.power := (rfl)
@[simp] theorem State.emit_rst (s : State) (o : Out) : (s.emit o).rst = s.rst := (rfl)
@[simp] theorem State.emit_boot (s : State) (o : Out) : (s.emit o).boot = s.boot := (rfl)
@[simp] theorem State.emit_features (s : State) (o : Out) : (s.emit o).features = s.features := (rfl)
@[simp] theorem State.emit_ras (s : State) (o : Out) : (s.emit o).ras = s.ras := (rfl)
@[simp] theorem State.emit_dbg (s : State) (o : Out) : (s.emit o).dbg = s.dbg := (rfl)
@[simp] theorem State.emit_chip (s : State) (o : Out) : (s.emit o).chip = s.chip := (rfl)
@[simp] theorem State.emit_fresh (s : State) (o : Out) : (s.emit o).fresh = s.fresh := (rfl)
@[simp] theorem State.emit_pending (s : State) (o : Out) : (s.emit o).pending = s.pending := (rfl)
@[simp] theorem State.emit_reg (s : State) (o : Out) (b : Nat) : (s.emit o).reg b = s.reg b := (rfl)
@[simp] theorem State.emit_getF (s : State) (o : Out) (g : Fld) : (s.emit o).getF g = s.getF g := (rfl)
@[simp] theorem State.emit_core (s : State) (o : Out) (ix : Nat) : (s.emit o).core ix = s.core ix := (rfl)
@[simp] theorem State.emit_vault (s : State) (o : Out) (ix : Nat) : (s.emit o).vault ix = s.vault ix := (rfl)
@[simp] theorem State.emit_queue (s : State) (o : Out) (ix : Nat) : (s.emit o).queue ix = s.queue ix := (rfl)
@[simp] theorem State.emit_tower (s : State) (o : Out) (ix : Nat) : (s.emit o).tower ix = s.tower ix := (rfl)
@[simp] theorem State.emit_port (s : State) (o : Out) (ix iy : Nat) : (s.emit o).port ix iy = s.port ix iy := (rfl)
@[simp] theorem State.emit_link (s : State) (o : Out) (ix : Nat) : (s.emit o).link ix = s.link ix := (rfl)
@[simp] theorem State.emit_chan (s : State) (o : Out) (ix : Nat) : (s.emit o).chan ix = s.chan ix := (rfl)
@[simp] theorem State.emit_ring (s : State) (o : Out) (ix : Nat) : (s.emit o).ring ix = s.ring ix := (rfl)
@[simp] theorem State.emit_evRing (s : State) (o : Out) (ix : Nat) : (s.emit o).evRing ix = s.evRing ix := (rfl)
@[simp] theorem State.emit_tpwr (s : State) (o : Out) (ix : Nat) : (s.emit o).tpwr ix = s.tpwr ix := (rfl)
@[simp] theorem State.emit_seqCtr (s : State) (o : Out) (ix iy : Nat) : (s.emit o).seqCtr ix iy = s.seqCtr ix iy := (rfl)

/-! ## record -/

@[simp] theorem State.record_now (s : State) (r : Record) : (s.record r).now = s.now := (rfl)
@[simp] theorem State.record_regs (s : State) (r : Record) : (s.record r).regs = s.regs := (rfl)
@[simp] theorem State.record_regs0 (s : State) (r : Record) : (s.record r).regs0 = s.regs0 := (rfl)
@[simp] theorem State.record_rdLatch (s : State) (r : Record) : (s.record r).rdLatch = s.rdLatch := (rfl)
@[simp] theorem State.record_wrHold (s : State) (r : Record) : (s.record r).wrHold = s.wrHold := (rfl)
@[simp] theorem State.record_cores (s : State) (r : Record) : (s.record r).cores = s.cores := (rfl)
@[simp] theorem State.record_vaults (s : State) (r : Record) : (s.record r).vaults = s.vaults := (rfl)
@[simp] theorem State.record_bkuWin (s : State) (r : Record) : (s.record r).bkuWin = s.bkuWin := (rfl)
@[simp] theorem State.record_epoch (s : State) (r : Record) : (s.record r).epoch = s.epoch := (rfl)
@[simp] theorem State.record_fillBg (s : State) (r : Record) : (s.record r).fillBg = s.fillBg := (rfl)
@[simp] theorem State.record_queues (s : State) (r : Record) : (s.record r).queues = s.queues := (rfl)
@[simp] theorem State.record_senders (s : State) (r : Record) : (s.record r).senders = s.senders := (rfl)
@[simp] theorem State.record_seqs (s : State) (r : Record) : (s.record r).seqs = s.seqs := (rfl)
@[simp] theorem State.record_jobs (s : State) (r : Record) : (s.record r).jobs = s.jobs := (rfl)
@[simp] theorem State.record_jobCtr (s : State) (r : Record) : (s.record r).jobCtr = s.jobCtr := (rfl)
@[simp] theorem State.record_sent (s : State) (r : Record) : (s.record r).sent = s.sent := (rfl)
@[simp] theorem State.record_tables (s : State) (r : Record) : (s.record r).tables = s.tables := (rfl)
@[simp] theorem State.record_asker (s : State) (r : Record) : (s.record r).asker = s.asker := (rfl)
@[simp] theorem State.record_quarantine (s : State) (r : Record) : (s.record r).quarantine = s.quarantine := (rfl)
@[simp] theorem State.record_towers (s : State) (r : Record) : (s.record r).towers = s.towers := (rfl)
@[simp] theorem State.record_ports (s : State) (r : Record) : (s.record r).ports = s.ports := (rfl)
@[simp] theorem State.record_links (s : State) (r : Record) : (s.record r).links = s.links := (rfl)
@[simp] theorem State.record_failover (s : State) (r : Record) : (s.record r).failover = s.failover := (rfl)
@[simp] theorem State.record_landed (s : State) (r : Record) : (s.record r).landed = s.landed := (rfl)
@[simp] theorem State.record_pfx (s : State) (r : Record) : (s.record r).pfx = s.pfx := (rfl)
@[simp] theorem State.record_chans (s : State) (r : Record) : (s.record r).chans = s.chans := (rfl)
@[simp] theorem State.record_started (s : State) (r : Record) : (s.record r).started = s.started := (rfl)
@[simp] theorem State.record_arbPtr (s : State) (r : Record) : (s.record r).arbPtr = s.arbPtr := (rfl)
@[simp] theorem State.record_skipped (s : State) (r : Record) : (s.record r).skipped = s.skipped := (rfl)
@[simp] theorem State.record_rings (s : State) (r : Record) : (s.record r).rings = s.rings := (rfl)
@[simp] theorem State.record_evRings (s : State) (r : Record) : (s.record r).evRings = s.evRings := (rfl)
@[simp] theorem State.record_events (s : State) (r : Record) : (s.record r).events = s.events := (rfl)
@[simp] theorem State.record_sensors (s : State) (r : Record) : (s.record r).sensors = s.sensors := (rfl)
@[simp] theorem State.record_zoneAt (s : State) (r : Record) : (s.record r).zoneAt = s.zoneAt := (rfl)
@[simp] theorem State.record_hot (s : State) (r : Record) : (s.record r).hot = s.hot := (rfl)
@[simp] theorem State.record_pwr (s : State) (r : Record) : (s.record r).pwr = s.pwr := (rfl)
@[simp] theorem State.record_gates (s : State) (r : Record) : (s.record r).gates = s.gates := (rfl)
@[simp] theorem State.record_power (s : State) (r : Record) : (s.record r).power = s.power := (rfl)
@[simp] theorem State.record_rst (s : State) (r : Record) : (s.record r).rst = s.rst := (rfl)
@[simp] theorem State.record_boot (s : State) (r : Record) : (s.record r).boot = s.boot := (rfl)
@[simp] theorem State.record_features (s : State) (r : Record) : (s.record r).features = s.features := (rfl)
@[simp] theorem State.record_ras (s : State) (r : Record) : (s.record r).ras = s.ras := (rfl)
@[simp] theorem State.record_dbg (s : State) (r : Record) : (s.record r).dbg = s.dbg := (rfl)
@[simp] theorem State.record_chip (s : State) (r : Record) : (s.record r).chip = s.chip := (rfl)
@[simp] theorem State.record_out (s : State) (r : Record) : (s.record r).out = s.out := (rfl)
@[simp] theorem State.record_fresh (s : State) (r : Record) : (s.record r).fresh = s.fresh := (rfl)
@[simp] theorem State.record_pending (s : State) (r : Record) : (s.record r).pending = s.pending := (rfl)
@[simp] theorem State.record_reg (s : State) (r : Record) (b : Nat) : (s.record r).reg b = s.reg b := (rfl)
@[simp] theorem State.record_getF (s : State) (r : Record) (g : Fld) : (s.record r).getF g = s.getF g := (rfl)
@[simp] theorem State.record_core (s : State) (r : Record) (ix : Nat) : (s.record r).core ix = s.core ix := (rfl)
@[simp] theorem State.record_vault (s : State) (r : Record) (ix : Nat) : (s.record r).vault ix = s.vault ix := (rfl)
@[simp] theorem State.record_queue (s : State) (r : Record) (ix : Nat) : (s.record r).queue ix = s.queue ix := (rfl)
@[simp] theorem State.record_tower (s : State) (r : Record) (ix : Nat) : (s.record r).tower ix = s.tower ix := (rfl)
@[simp] theorem State.record_port (s : State) (r : Record) (ix iy : Nat) : (s.record r).port ix iy = s.port ix iy := (rfl)
@[simp] theorem State.record_link (s : State) (r : Record) (ix : Nat) : (s.record r).link ix = s.link ix := (rfl)
@[simp] theorem State.record_chan (s : State) (r : Record) (ix : Nat) : (s.record r).chan ix = s.chan ix := (rfl)
@[simp] theorem State.record_ring (s : State) (r : Record) (ix : Nat) : (s.record r).ring ix = s.ring ix := (rfl)
@[simp] theorem State.record_evRing (s : State) (r : Record) (ix : Nat) : (s.record r).evRing ix = s.evRing ix := (rfl)
@[simp] theorem State.record_tpwr (s : State) (r : Record) (ix : Nat) : (s.record r).tpwr ix = s.tpwr ix := (rfl)
@[simp] theorem State.record_seqCtr (s : State) (r : Record) (ix iy : Nat) : (s.record r).seqCtr ix iy = s.seqCtr ix iy := (rfl)

/-! ## event -/

@[simp] theorem State.event_now (s : State) (k kind site st eng itag v a : Nat) : (s.event k kind site st eng itag v a).now = s.now := (rfl)
@[simp] theorem State.event_regs (s : State) (k kind site st eng itag v a : Nat) : (s.event k kind site st eng itag v a).regs = s.regs := (rfl)
@[simp] theorem State.event_regs0 (s : State) (k kind site st eng itag v a : Nat) : (s.event k kind site st eng itag v a).regs0 = s.regs0 := (rfl)
@[simp] theorem State.event_rdLatch (s : State) (k kind site st eng itag v a : Nat) : (s.event k kind site st eng itag v a).rdLatch = s.rdLatch := (rfl)
@[simp] theorem State.event_wrHold (s : State) (k kind site st eng itag v a : Nat) : (s.event k kind site st eng itag v a).wrHold = s.wrHold := (rfl)
@[simp] theorem State.event_cores (s : State) (k kind site st eng itag v a : Nat) : (s.event k kind site st eng itag v a).cores = s.cores := (rfl)
@[simp] theorem State.event_vaults (s : State) (k kind site st eng itag v a : Nat) : (s.event k kind site st eng itag v a).vaults = s.vaults := (rfl)
@[simp] theorem State.event_bkuWin (s : State) (k kind site st eng itag v a : Nat) : (s.event k kind site st eng itag v a).bkuWin = s.bkuWin := (rfl)
@[simp] theorem State.event_epoch (s : State) (k kind site st eng itag v a : Nat) : (s.event k kind site st eng itag v a).epoch = s.epoch := (rfl)
@[simp] theorem State.event_fillBg (s : State) (k kind site st eng itag v a : Nat) : (s.event k kind site st eng itag v a).fillBg = s.fillBg := (rfl)
@[simp] theorem State.event_queues (s : State) (k kind site st eng itag v a : Nat) : (s.event k kind site st eng itag v a).queues = s.queues := (rfl)
@[simp] theorem State.event_senders (s : State) (k kind site st eng itag v a : Nat) : (s.event k kind site st eng itag v a).senders = s.senders := (rfl)
@[simp] theorem State.event_seqs (s : State) (k kind site st eng itag v a : Nat) : (s.event k kind site st eng itag v a).seqs = s.seqs := (rfl)
@[simp] theorem State.event_jobs (s : State) (k kind site st eng itag v a : Nat) : (s.event k kind site st eng itag v a).jobs = s.jobs := (rfl)
@[simp] theorem State.event_jobCtr (s : State) (k kind site st eng itag v a : Nat) : (s.event k kind site st eng itag v a).jobCtr = s.jobCtr := (rfl)
@[simp] theorem State.event_sent (s : State) (k kind site st eng itag v a : Nat) : (s.event k kind site st eng itag v a).sent = s.sent := (rfl)
@[simp] theorem State.event_tables (s : State) (k kind site st eng itag v a : Nat) : (s.event k kind site st eng itag v a).tables = s.tables := (rfl)
@[simp] theorem State.event_asker (s : State) (k kind site st eng itag v a : Nat) : (s.event k kind site st eng itag v a).asker = s.asker := (rfl)
@[simp] theorem State.event_quarantine (s : State) (k kind site st eng itag v a : Nat) : (s.event k kind site st eng itag v a).quarantine = s.quarantine := (rfl)
@[simp] theorem State.event_towers (s : State) (k kind site st eng itag v a : Nat) : (s.event k kind site st eng itag v a).towers = s.towers := (rfl)
@[simp] theorem State.event_ports (s : State) (k kind site st eng itag v a : Nat) : (s.event k kind site st eng itag v a).ports = s.ports := (rfl)
@[simp] theorem State.event_links (s : State) (k kind site st eng itag v a : Nat) : (s.event k kind site st eng itag v a).links = s.links := (rfl)
@[simp] theorem State.event_failover (s : State) (k kind site st eng itag v a : Nat) : (s.event k kind site st eng itag v a).failover = s.failover := (rfl)
@[simp] theorem State.event_landed (s : State) (k kind site st eng itag v a : Nat) : (s.event k kind site st eng itag v a).landed = s.landed := (rfl)
@[simp] theorem State.event_pfx (s : State) (k kind site st eng itag v a : Nat) : (s.event k kind site st eng itag v a).pfx = s.pfx := (rfl)
@[simp] theorem State.event_chans (s : State) (k kind site st eng itag v a : Nat) : (s.event k kind site st eng itag v a).chans = s.chans := (rfl)
@[simp] theorem State.event_started (s : State) (k kind site st eng itag v a : Nat) : (s.event k kind site st eng itag v a).started = s.started := (rfl)
@[simp] theorem State.event_arbPtr (s : State) (k kind site st eng itag v a : Nat) : (s.event k kind site st eng itag v a).arbPtr = s.arbPtr := (rfl)
@[simp] theorem State.event_skipped (s : State) (k kind site st eng itag v a : Nat) : (s.event k kind site st eng itag v a).skipped = s.skipped := (rfl)
@[simp] theorem State.event_rings (s : State) (k kind site st eng itag v a : Nat) : (s.event k kind site st eng itag v a).rings = s.rings := (rfl)
@[simp] theorem State.event_evRings (s : State) (k kind site st eng itag v a : Nat) : (s.event k kind site st eng itag v a).evRings = s.evRings := (rfl)
@[simp] theorem State.event_records (s : State) (k kind site st eng itag v a : Nat) : (s.event k kind site st eng itag v a).records = s.records := (rfl)
@[simp] theorem State.event_sensors (s : State) (k kind site st eng itag v a : Nat) : (s.event k kind site st eng itag v a).sensors = s.sensors := (rfl)
@[simp] theorem State.event_zoneAt (s : State) (k kind site st eng itag v a : Nat) : (s.event k kind site st eng itag v a).zoneAt = s.zoneAt := (rfl)
@[simp] theorem State.event_hot (s : State) (k kind site st eng itag v a : Nat) : (s.event k kind site st eng itag v a).hot = s.hot := (rfl)
@[simp] theorem State.event_pwr (s : State) (k kind site st eng itag v a : Nat) : (s.event k kind site st eng itag v a).pwr = s.pwr := (rfl)
@[simp] theorem State.event_gates (s : State) (k kind site st eng itag v a : Nat) : (s.event k kind site st eng itag v a).gates = s.gates := (rfl)
@[simp] theorem State.event_power (s : State) (k kind site st eng itag v a : Nat) : (s.event k kind site st eng itag v a).power = s.power := (rfl)
@[simp] theorem State.event_rst (s : State) (k kind site st eng itag v a : Nat) : (s.event k kind site st eng itag v a).rst = s.rst := (rfl)
@[simp] theorem State.event_boot (s : State) (k kind site st eng itag v a : Nat) : (s.event k kind site st eng itag v a).boot = s.boot := (rfl)
@[simp] theorem State.event_features (s : State) (k kind site st eng itag v a : Nat) : (s.event k kind site st eng itag v a).features = s.features := (rfl)
@[simp] theorem State.event_ras (s : State) (k kind site st eng itag v a : Nat) : (s.event k kind site st eng itag v a).ras = s.ras := (rfl)
@[simp] theorem State.event_dbg (s : State) (k kind site st eng itag v a : Nat) : (s.event k kind site st eng itag v a).dbg = s.dbg := (rfl)
@[simp] theorem State.event_chip (s : State) (k kind site st eng itag v a : Nat) : (s.event k kind site st eng itag v a).chip = s.chip := (rfl)
@[simp] theorem State.event_out (s : State) (k kind site st eng itag v a : Nat) : (s.event k kind site st eng itag v a).out = s.out := (rfl)
@[simp] theorem State.event_fresh (s : State) (k kind site st eng itag v a : Nat) : (s.event k kind site st eng itag v a).fresh = s.fresh := (rfl)
@[simp] theorem State.event_pending (s : State) (k kind site st eng itag v a : Nat) : (s.event k kind site st eng itag v a).pending = s.pending := (rfl)
@[simp] theorem State.event_reg (s : State) (k kind site st eng itag v a : Nat) (b : Nat) : (s.event k kind site st eng itag v a).reg b = s.reg b := (rfl)
@[simp] theorem State.event_getF (s : State) (k kind site st eng itag v a : Nat) (g : Fld) : (s.event k kind site st eng itag v a).getF g = s.getF g := (rfl)
@[simp] theorem State.event_core (s : State) (k kind site st eng itag v a : Nat) (ix : Nat) : (s.event k kind site st eng itag v a).core ix = s.core ix := (rfl)
@[simp] theorem State.event_vault (s : State) (k kind site st eng itag v a : Nat) (ix : Nat) : (s.event k kind site st eng itag v a).vault ix = s.vault ix := (rfl)
@[simp] theorem State.event_queue (s : State) (k kind site st eng itag v a : Nat) (ix : Nat) : (s.event k kind site st eng itag v a).queue ix = s.queue ix := (rfl)
@[simp] theorem State.event_tower (s : State) (k kind site st eng itag v a : Nat) (ix : Nat) : (s.event k kind site st eng itag v a).tower ix = s.tower ix := (rfl)
@[simp] theorem State.event_port (s : State) (k kind site st eng itag v a : Nat) (ix iy : Nat) : (s.event k kind site st eng itag v a).port ix iy = s.port ix iy := (rfl)
@[simp] theorem State.event_link (s : State) (k kind site st eng itag v a : Nat) (ix : Nat) : (s.event k kind site st eng itag v a).link ix = s.link ix := (rfl)
@[simp] theorem State.event_chan (s : State) (k kind site st eng itag v a : Nat) (ix : Nat) : (s.event k kind site st eng itag v a).chan ix = s.chan ix := (rfl)
@[simp] theorem State.event_ring (s : State) (k kind site st eng itag v a : Nat) (ix : Nat) : (s.event k kind site st eng itag v a).ring ix = s.ring ix := (rfl)
@[simp] theorem State.event_evRing (s : State) (k kind site st eng itag v a : Nat) (ix : Nat) : (s.event k kind site st eng itag v a).evRing ix = s.evRing ix := (rfl)
@[simp] theorem State.event_tpwr (s : State) (k kind site st eng itag v a : Nat) (ix : Nat) : (s.event k kind site st eng itag v a).tpwr ix = s.tpwr ix := (rfl)
@[simp] theorem State.event_seqCtr (s : State) (k kind site st eng itag v a : Nat) (ix iy : Nat) : (s.event k kind site st eng itag v a).seqCtr ix iy = s.seqCtr ix iy := (rfl)

/-! ## addJob -/

@[simp] theorem State.addJob_now (s : State) (j : Job) : (s.addJob j).now = s.now := (rfl)
@[simp] theorem State.addJob_regs (s : State) (j : Job) : (s.addJob j).regs = s.regs := (rfl)
@[simp] theorem State.addJob_regs0 (s : State) (j : Job) : (s.addJob j).regs0 = s.regs0 := (rfl)
@[simp] theorem State.addJob_rdLatch (s : State) (j : Job) : (s.addJob j).rdLatch = s.rdLatch := (rfl)
@[simp] theorem State.addJob_wrHold (s : State) (j : Job) : (s.addJob j).wrHold = s.wrHold := (rfl)
@[simp] theorem State.addJob_cores (s : State) (j : Job) : (s.addJob j).cores = s.cores := (rfl)
@[simp] theorem State.addJob_vaults (s : State) (j : Job) : (s.addJob j).vaults = s.vaults := (rfl)
@[simp] theorem State.addJob_bkuWin (s : State) (j : Job) : (s.addJob j).bkuWin = s.bkuWin := (rfl)
@[simp] theorem State.addJob_epoch (s : State) (j : Job) : (s.addJob j).epoch = s.epoch := (rfl)
@[simp] theorem State.addJob_fillBg (s : State) (j : Job) : (s.addJob j).fillBg = s.fillBg := (rfl)
@[simp] theorem State.addJob_queues (s : State) (j : Job) : (s.addJob j).queues = s.queues := (rfl)
@[simp] theorem State.addJob_senders (s : State) (j : Job) : (s.addJob j).senders = s.senders := (rfl)
@[simp] theorem State.addJob_seqs (s : State) (j : Job) : (s.addJob j).seqs = s.seqs := (rfl)
@[simp] theorem State.addJob_sent (s : State) (j : Job) : (s.addJob j).sent = s.sent := (rfl)
@[simp] theorem State.addJob_tables (s : State) (j : Job) : (s.addJob j).tables = s.tables := (rfl)
@[simp] theorem State.addJob_asker (s : State) (j : Job) : (s.addJob j).asker = s.asker := (rfl)
@[simp] theorem State.addJob_quarantine (s : State) (j : Job) : (s.addJob j).quarantine = s.quarantine := (rfl)
@[simp] theorem State.addJob_towers (s : State) (j : Job) : (s.addJob j).towers = s.towers := (rfl)
@[simp] theorem State.addJob_ports (s : State) (j : Job) : (s.addJob j).ports = s.ports := (rfl)
@[simp] theorem State.addJob_links (s : State) (j : Job) : (s.addJob j).links = s.links := (rfl)
@[simp] theorem State.addJob_failover (s : State) (j : Job) : (s.addJob j).failover = s.failover := (rfl)
@[simp] theorem State.addJob_landed (s : State) (j : Job) : (s.addJob j).landed = s.landed := (rfl)
@[simp] theorem State.addJob_pfx (s : State) (j : Job) : (s.addJob j).pfx = s.pfx := (rfl)
@[simp] theorem State.addJob_chans (s : State) (j : Job) : (s.addJob j).chans = s.chans := (rfl)
@[simp] theorem State.addJob_started (s : State) (j : Job) : (s.addJob j).started = s.started := (rfl)
@[simp] theorem State.addJob_arbPtr (s : State) (j : Job) : (s.addJob j).arbPtr = s.arbPtr := (rfl)
@[simp] theorem State.addJob_skipped (s : State) (j : Job) : (s.addJob j).skipped = s.skipped := (rfl)
@[simp] theorem State.addJob_rings (s : State) (j : Job) : (s.addJob j).rings = s.rings := (rfl)
@[simp] theorem State.addJob_evRings (s : State) (j : Job) : (s.addJob j).evRings = s.evRings := (rfl)
@[simp] theorem State.addJob_events (s : State) (j : Job) : (s.addJob j).events = s.events := (rfl)
@[simp] theorem State.addJob_records (s : State) (j : Job) : (s.addJob j).records = s.records := (rfl)
@[simp] theorem State.addJob_sensors (s : State) (j : Job) : (s.addJob j).sensors = s.sensors := (rfl)
@[simp] theorem State.addJob_zoneAt (s : State) (j : Job) : (s.addJob j).zoneAt = s.zoneAt := (rfl)
@[simp] theorem State.addJob_hot (s : State) (j : Job) : (s.addJob j).hot = s.hot := (rfl)
@[simp] theorem State.addJob_pwr (s : State) (j : Job) : (s.addJob j).pwr = s.pwr := (rfl)
@[simp] theorem State.addJob_gates (s : State) (j : Job) : (s.addJob j).gates = s.gates := (rfl)
@[simp] theorem State.addJob_power (s : State) (j : Job) : (s.addJob j).power = s.power := (rfl)
@[simp] theorem State.addJob_rst (s : State) (j : Job) : (s.addJob j).rst = s.rst := (rfl)
@[simp] theorem State.addJob_boot (s : State) (j : Job) : (s.addJob j).boot = s.boot := (rfl)
@[simp] theorem State.addJob_features (s : State) (j : Job) : (s.addJob j).features = s.features := (rfl)
@[simp] theorem State.addJob_ras (s : State) (j : Job) : (s.addJob j).ras = s.ras := (rfl)
@[simp] theorem State.addJob_dbg (s : State) (j : Job) : (s.addJob j).dbg = s.dbg := (rfl)
@[simp] theorem State.addJob_chip (s : State) (j : Job) : (s.addJob j).chip = s.chip := (rfl)
@[simp] theorem State.addJob_out (s : State) (j : Job) : (s.addJob j).out = s.out := (rfl)
@[simp] theorem State.addJob_fresh (s : State) (j : Job) : (s.addJob j).fresh = s.fresh := (rfl)
@[simp] theorem State.addJob_pending (s : State) (j : Job) : (s.addJob j).pending = s.pending := (rfl)
@[simp] theorem State.addJob_reg (s : State) (j : Job) (b : Nat) : (s.addJob j).reg b = s.reg b := (rfl)
@[simp] theorem State.addJob_getF (s : State) (j : Job) (g : Fld) : (s.addJob j).getF g = s.getF g := (rfl)
@[simp] theorem State.addJob_core (s : State) (j : Job) (ix : Nat) : (s.addJob j).core ix = s.core ix := (rfl)
@[simp] theorem State.addJob_vault (s : State) (j : Job) (ix : Nat) : (s.addJob j).vault ix = s.vault ix := (rfl)
@[simp] theorem State.addJob_queue (s : State) (j : Job) (ix : Nat) : (s.addJob j).queue ix = s.queue ix := (rfl)
@[simp] theorem State.addJob_tower (s : State) (j : Job) (ix : Nat) : (s.addJob j).tower ix = s.tower ix := (rfl)
@[simp] theorem State.addJob_port (s : State) (j : Job) (ix iy : Nat) : (s.addJob j).port ix iy = s.port ix iy := (rfl)
@[simp] theorem State.addJob_link (s : State) (j : Job) (ix : Nat) : (s.addJob j).link ix = s.link ix := (rfl)
@[simp] theorem State.addJob_chan (s : State) (j : Job) (ix : Nat) : (s.addJob j).chan ix = s.chan ix := (rfl)
@[simp] theorem State.addJob_ring (s : State) (j : Job) (ix : Nat) : (s.addJob j).ring ix = s.ring ix := (rfl)
@[simp] theorem State.addJob_evRing (s : State) (j : Job) (ix : Nat) : (s.addJob j).evRing ix = s.evRing ix := (rfl)
@[simp] theorem State.addJob_tpwr (s : State) (j : Job) (ix : Nat) : (s.addJob j).tpwr ix = s.tpwr ix := (rfl)
@[simp] theorem State.addJob_seqCtr (s : State) (j : Job) (ix iy : Nat) : (s.addJob j).seqCtr ix iy = s.seqCtr ix iy := (rfl)

/-! ## setJob -/

@[simp] theorem State.setJob_now (s : State) (j : Job) : (s.setJob j).now = s.now := (rfl)
@[simp] theorem State.setJob_regs (s : State) (j : Job) : (s.setJob j).regs = s.regs := (rfl)
@[simp] theorem State.setJob_regs0 (s : State) (j : Job) : (s.setJob j).regs0 = s.regs0 := (rfl)
@[simp] theorem State.setJob_rdLatch (s : State) (j : Job) : (s.setJob j).rdLatch = s.rdLatch := (rfl)
@[simp] theorem State.setJob_wrHold (s : State) (j : Job) : (s.setJob j).wrHold = s.wrHold := (rfl)
@[simp] theorem State.setJob_cores (s : State) (j : Job) : (s.setJob j).cores = s.cores := (rfl)
@[simp] theorem State.setJob_vaults (s : State) (j : Job) : (s.setJob j).vaults = s.vaults := (rfl)
@[simp] theorem State.setJob_bkuWin (s : State) (j : Job) : (s.setJob j).bkuWin = s.bkuWin := (rfl)
@[simp] theorem State.setJob_epoch (s : State) (j : Job) : (s.setJob j).epoch = s.epoch := (rfl)
@[simp] theorem State.setJob_fillBg (s : State) (j : Job) : (s.setJob j).fillBg = s.fillBg := (rfl)
@[simp] theorem State.setJob_queues (s : State) (j : Job) : (s.setJob j).queues = s.queues := (rfl)
@[simp] theorem State.setJob_senders (s : State) (j : Job) : (s.setJob j).senders = s.senders := (rfl)
@[simp] theorem State.setJob_seqs (s : State) (j : Job) : (s.setJob j).seqs = s.seqs := (rfl)
@[simp] theorem State.setJob_jobCtr (s : State) (j : Job) : (s.setJob j).jobCtr = s.jobCtr := (rfl)
@[simp] theorem State.setJob_sent (s : State) (j : Job) : (s.setJob j).sent = s.sent := (rfl)
@[simp] theorem State.setJob_tables (s : State) (j : Job) : (s.setJob j).tables = s.tables := (rfl)
@[simp] theorem State.setJob_asker (s : State) (j : Job) : (s.setJob j).asker = s.asker := (rfl)
@[simp] theorem State.setJob_quarantine (s : State) (j : Job) : (s.setJob j).quarantine = s.quarantine := (rfl)
@[simp] theorem State.setJob_towers (s : State) (j : Job) : (s.setJob j).towers = s.towers := (rfl)
@[simp] theorem State.setJob_ports (s : State) (j : Job) : (s.setJob j).ports = s.ports := (rfl)
@[simp] theorem State.setJob_links (s : State) (j : Job) : (s.setJob j).links = s.links := (rfl)
@[simp] theorem State.setJob_failover (s : State) (j : Job) : (s.setJob j).failover = s.failover := (rfl)
@[simp] theorem State.setJob_landed (s : State) (j : Job) : (s.setJob j).landed = s.landed := (rfl)
@[simp] theorem State.setJob_pfx (s : State) (j : Job) : (s.setJob j).pfx = s.pfx := (rfl)
@[simp] theorem State.setJob_chans (s : State) (j : Job) : (s.setJob j).chans = s.chans := (rfl)
@[simp] theorem State.setJob_started (s : State) (j : Job) : (s.setJob j).started = s.started := (rfl)
@[simp] theorem State.setJob_arbPtr (s : State) (j : Job) : (s.setJob j).arbPtr = s.arbPtr := (rfl)
@[simp] theorem State.setJob_skipped (s : State) (j : Job) : (s.setJob j).skipped = s.skipped := (rfl)
@[simp] theorem State.setJob_rings (s : State) (j : Job) : (s.setJob j).rings = s.rings := (rfl)
@[simp] theorem State.setJob_evRings (s : State) (j : Job) : (s.setJob j).evRings = s.evRings := (rfl)
@[simp] theorem State.setJob_events (s : State) (j : Job) : (s.setJob j).events = s.events := (rfl)
@[simp] theorem State.setJob_records (s : State) (j : Job) : (s.setJob j).records = s.records := (rfl)
@[simp] theorem State.setJob_sensors (s : State) (j : Job) : (s.setJob j).sensors = s.sensors := (rfl)
@[simp] theorem State.setJob_zoneAt (s : State) (j : Job) : (s.setJob j).zoneAt = s.zoneAt := (rfl)
@[simp] theorem State.setJob_hot (s : State) (j : Job) : (s.setJob j).hot = s.hot := (rfl)
@[simp] theorem State.setJob_pwr (s : State) (j : Job) : (s.setJob j).pwr = s.pwr := (rfl)
@[simp] theorem State.setJob_gates (s : State) (j : Job) : (s.setJob j).gates = s.gates := (rfl)
@[simp] theorem State.setJob_power (s : State) (j : Job) : (s.setJob j).power = s.power := (rfl)
@[simp] theorem State.setJob_rst (s : State) (j : Job) : (s.setJob j).rst = s.rst := (rfl)
@[simp] theorem State.setJob_boot (s : State) (j : Job) : (s.setJob j).boot = s.boot := (rfl)
@[simp] theorem State.setJob_features (s : State) (j : Job) : (s.setJob j).features = s.features := (rfl)
@[simp] theorem State.setJob_ras (s : State) (j : Job) : (s.setJob j).ras = s.ras := (rfl)
@[simp] theorem State.setJob_dbg (s : State) (j : Job) : (s.setJob j).dbg = s.dbg := (rfl)
@[simp] theorem State.setJob_chip (s : State) (j : Job) : (s.setJob j).chip = s.chip := (rfl)
@[simp] theorem State.setJob_out (s : State) (j : Job) : (s.setJob j).out = s.out := (rfl)
@[simp] theorem State.setJob_fresh (s : State) (j : Job) : (s.setJob j).fresh = s.fresh := (rfl)
@[simp] theorem State.setJob_pending (s : State) (j : Job) : (s.setJob j).pending = s.pending := (rfl)
@[simp] theorem State.setJob_reg (s : State) (j : Job) (b : Nat) : (s.setJob j).reg b = s.reg b := (rfl)
@[simp] theorem State.setJob_getF (s : State) (j : Job) (g : Fld) : (s.setJob j).getF g = s.getF g := (rfl)
@[simp] theorem State.setJob_core (s : State) (j : Job) (ix : Nat) : (s.setJob j).core ix = s.core ix := (rfl)
@[simp] theorem State.setJob_vault (s : State) (j : Job) (ix : Nat) : (s.setJob j).vault ix = s.vault ix := (rfl)
@[simp] theorem State.setJob_queue (s : State) (j : Job) (ix : Nat) : (s.setJob j).queue ix = s.queue ix := (rfl)
@[simp] theorem State.setJob_tower (s : State) (j : Job) (ix : Nat) : (s.setJob j).tower ix = s.tower ix := (rfl)
@[simp] theorem State.setJob_port (s : State) (j : Job) (ix iy : Nat) : (s.setJob j).port ix iy = s.port ix iy := (rfl)
@[simp] theorem State.setJob_link (s : State) (j : Job) (ix : Nat) : (s.setJob j).link ix = s.link ix := (rfl)
@[simp] theorem State.setJob_chan (s : State) (j : Job) (ix : Nat) : (s.setJob j).chan ix = s.chan ix := (rfl)
@[simp] theorem State.setJob_ring (s : State) (j : Job) (ix : Nat) : (s.setJob j).ring ix = s.ring ix := (rfl)
@[simp] theorem State.setJob_evRing (s : State) (j : Job) (ix : Nat) : (s.setJob j).evRing ix = s.evRing ix := (rfl)
@[simp] theorem State.setJob_tpwr (s : State) (j : Job) (ix : Nat) : (s.setJob j).tpwr ix = s.tpwr ix := (rfl)
@[simp] theorem State.setJob_seqCtr (s : State) (j : Job) (ix iy : Nat) : (s.setJob j).seqCtr ix iy = s.seqCtr ix iy := (rfl)

/-! ## tracePut -/

@[simp] theorem State.tracePut_now (s : State) (r : TraceRec) : (s.tracePut r).now = s.now := (rfl)
@[simp] theorem State.tracePut_regs (s : State) (r : TraceRec) : (s.tracePut r).regs = s.regs := (rfl)
@[simp] theorem State.tracePut_regs0 (s : State) (r : TraceRec) : (s.tracePut r).regs0 = s.regs0 := (rfl)
@[simp] theorem State.tracePut_rdLatch (s : State) (r : TraceRec) : (s.tracePut r).rdLatch = s.rdLatch := (rfl)
@[simp] theorem State.tracePut_wrHold (s : State) (r : TraceRec) : (s.tracePut r).wrHold = s.wrHold := (rfl)
@[simp] theorem State.tracePut_cores (s : State) (r : TraceRec) : (s.tracePut r).cores = s.cores := (rfl)
@[simp] theorem State.tracePut_vaults (s : State) (r : TraceRec) : (s.tracePut r).vaults = s.vaults := (rfl)
@[simp] theorem State.tracePut_bkuWin (s : State) (r : TraceRec) : (s.tracePut r).bkuWin = s.bkuWin := (rfl)
@[simp] theorem State.tracePut_epoch (s : State) (r : TraceRec) : (s.tracePut r).epoch = s.epoch := (rfl)
@[simp] theorem State.tracePut_fillBg (s : State) (r : TraceRec) : (s.tracePut r).fillBg = s.fillBg := (rfl)
@[simp] theorem State.tracePut_queues (s : State) (r : TraceRec) : (s.tracePut r).queues = s.queues := (rfl)
@[simp] theorem State.tracePut_senders (s : State) (r : TraceRec) : (s.tracePut r).senders = s.senders := (rfl)
@[simp] theorem State.tracePut_seqs (s : State) (r : TraceRec) : (s.tracePut r).seqs = s.seqs := (rfl)
@[simp] theorem State.tracePut_jobs (s : State) (r : TraceRec) : (s.tracePut r).jobs = s.jobs := (rfl)
@[simp] theorem State.tracePut_jobCtr (s : State) (r : TraceRec) : (s.tracePut r).jobCtr = s.jobCtr := (rfl)
@[simp] theorem State.tracePut_sent (s : State) (r : TraceRec) : (s.tracePut r).sent = s.sent := (rfl)
@[simp] theorem State.tracePut_tables (s : State) (r : TraceRec) : (s.tracePut r).tables = s.tables := (rfl)
@[simp] theorem State.tracePut_asker (s : State) (r : TraceRec) : (s.tracePut r).asker = s.asker := (rfl)
@[simp] theorem State.tracePut_quarantine (s : State) (r : TraceRec) : (s.tracePut r).quarantine = s.quarantine := (rfl)
@[simp] theorem State.tracePut_towers (s : State) (r : TraceRec) : (s.tracePut r).towers = s.towers := (rfl)
@[simp] theorem State.tracePut_ports (s : State) (r : TraceRec) : (s.tracePut r).ports = s.ports := (rfl)
@[simp] theorem State.tracePut_links (s : State) (r : TraceRec) : (s.tracePut r).links = s.links := (rfl)
@[simp] theorem State.tracePut_failover (s : State) (r : TraceRec) : (s.tracePut r).failover = s.failover := (rfl)
@[simp] theorem State.tracePut_landed (s : State) (r : TraceRec) : (s.tracePut r).landed = s.landed := (rfl)
@[simp] theorem State.tracePut_pfx (s : State) (r : TraceRec) : (s.tracePut r).pfx = s.pfx := (rfl)
@[simp] theorem State.tracePut_chans (s : State) (r : TraceRec) : (s.tracePut r).chans = s.chans := (rfl)
@[simp] theorem State.tracePut_started (s : State) (r : TraceRec) : (s.tracePut r).started = s.started := (rfl)
@[simp] theorem State.tracePut_arbPtr (s : State) (r : TraceRec) : (s.tracePut r).arbPtr = s.arbPtr := (rfl)
@[simp] theorem State.tracePut_skipped (s : State) (r : TraceRec) : (s.tracePut r).skipped = s.skipped := (rfl)
@[simp] theorem State.tracePut_rings (s : State) (r : TraceRec) : (s.tracePut r).rings = s.rings := (rfl)
@[simp] theorem State.tracePut_evRings (s : State) (r : TraceRec) : (s.tracePut r).evRings = s.evRings := (rfl)
@[simp] theorem State.tracePut_events (s : State) (r : TraceRec) : (s.tracePut r).events = s.events := (rfl)
@[simp] theorem State.tracePut_records (s : State) (r : TraceRec) : (s.tracePut r).records = s.records := (rfl)
@[simp] theorem State.tracePut_sensors (s : State) (r : TraceRec) : (s.tracePut r).sensors = s.sensors := (rfl)
@[simp] theorem State.tracePut_zoneAt (s : State) (r : TraceRec) : (s.tracePut r).zoneAt = s.zoneAt := (rfl)
@[simp] theorem State.tracePut_hot (s : State) (r : TraceRec) : (s.tracePut r).hot = s.hot := (rfl)
@[simp] theorem State.tracePut_pwr (s : State) (r : TraceRec) : (s.tracePut r).pwr = s.pwr := (rfl)
@[simp] theorem State.tracePut_gates (s : State) (r : TraceRec) : (s.tracePut r).gates = s.gates := (rfl)
@[simp] theorem State.tracePut_power (s : State) (r : TraceRec) : (s.tracePut r).power = s.power := (rfl)
@[simp] theorem State.tracePut_rst (s : State) (r : TraceRec) : (s.tracePut r).rst = s.rst := (rfl)
@[simp] theorem State.tracePut_boot (s : State) (r : TraceRec) : (s.tracePut r).boot = s.boot := (rfl)
@[simp] theorem State.tracePut_features (s : State) (r : TraceRec) : (s.tracePut r).features = s.features := (rfl)
@[simp] theorem State.tracePut_ras (s : State) (r : TraceRec) : (s.tracePut r).ras = s.ras := (rfl)
@[simp] theorem State.tracePut_chip (s : State) (r : TraceRec) : (s.tracePut r).chip = s.chip := (rfl)
@[simp] theorem State.tracePut_out (s : State) (r : TraceRec) : (s.tracePut r).out = s.out := (rfl)
@[simp] theorem State.tracePut_fresh (s : State) (r : TraceRec) : (s.tracePut r).fresh = s.fresh := (rfl)
@[simp] theorem State.tracePut_pending (s : State) (r : TraceRec) : (s.tracePut r).pending = s.pending := (rfl)
@[simp] theorem State.tracePut_reg (s : State) (r : TraceRec) (b : Nat) : (s.tracePut r).reg b = s.reg b := (rfl)
@[simp] theorem State.tracePut_getF (s : State) (r : TraceRec) (g : Fld) : (s.tracePut r).getF g = s.getF g := (rfl)
@[simp] theorem State.tracePut_core (s : State) (r : TraceRec) (ix : Nat) : (s.tracePut r).core ix = s.core ix := (rfl)
@[simp] theorem State.tracePut_vault (s : State) (r : TraceRec) (ix : Nat) : (s.tracePut r).vault ix = s.vault ix := (rfl)
@[simp] theorem State.tracePut_queue (s : State) (r : TraceRec) (ix : Nat) : (s.tracePut r).queue ix = s.queue ix := (rfl)
@[simp] theorem State.tracePut_tower (s : State) (r : TraceRec) (ix : Nat) : (s.tracePut r).tower ix = s.tower ix := (rfl)
@[simp] theorem State.tracePut_port (s : State) (r : TraceRec) (ix iy : Nat) : (s.tracePut r).port ix iy = s.port ix iy := (rfl)
@[simp] theorem State.tracePut_link (s : State) (r : TraceRec) (ix : Nat) : (s.tracePut r).link ix = s.link ix := (rfl)
@[simp] theorem State.tracePut_chan (s : State) (r : TraceRec) (ix : Nat) : (s.tracePut r).chan ix = s.chan ix := (rfl)
@[simp] theorem State.tracePut_ring (s : State) (r : TraceRec) (ix : Nat) : (s.tracePut r).ring ix = s.ring ix := (rfl)
@[simp] theorem State.tracePut_evRing (s : State) (r : TraceRec) (ix : Nat) : (s.tracePut r).evRing ix = s.evRing ix := (rfl)
@[simp] theorem State.tracePut_tpwr (s : State) (r : TraceRec) (ix : Nat) : (s.tracePut r).tpwr ix = s.tpwr ix := (rfl)
@[simp] theorem State.tracePut_seqCtr (s : State) (r : TraceRec) (ix iy : Nat) : (s.tracePut r).seqCtr ix iy = s.seqCtr ix iy := (rfl)

end Sys2Proof.Machine
end

