-- ==== Sys2Proof/Laws/Regs.lean ====
section
/-!
SUPPORT. Registers and their fields: what a field reads as after a write of a field, and the canonical form of the
register table.
-/
namespace Sys2Proof.Machine

theorem setBits_split (x hi lo v : Nat) (h : lo ≤ hi) :
    setBits x hi lo v = (x / 2 ^ (hi + 1) * 2 ^ (hi + 1 - lo) + v % 2 ^ (hi + 1 - lo)) * 2 ^ lo + x % 2 ^ lo := by
  have e : 2 ^ (hi + 1) = 2 ^ (hi + 1 - lo) * 2 ^ lo := by rw [← Nat.pow_add]; congr 1; omega
  unfold setBits
  rw [e, Nat.add_mul, Nat.mul_assoc]

theorem setBits_lt (x hi lo v : Nat) (h : lo ≤ hi) (hh : hi < 64) (hx : x < 2 ^ 64) : setBits x hi lo v < 2 ^ 64 := by
  have e : 2 ^ (hi + 1) = 2 ^ (hi + 1 - lo) * 2 ^ lo := by rw [← Nat.pow_add]; congr 1; omega
  have e2 : 2 ^ 64 = 2 ^ (63 - hi) * 2 ^ (hi + 1) := by rw [← Nat.pow_add]; congr 1; omega
  have h1 : x % 2 ^ lo < 2 ^ lo := Nat.mod_lt _ (Nat.two_pow_pos _)
  have h2 : v % 2 ^ (hi + 1 - lo) < 2 ^ (hi + 1 - lo) := Nat.mod_lt _ (Nat.two_pow_pos _)
  have h3 : x / 2 ^ (hi + 1) < 2 ^ (63 - hi) := by
    apply Nat.div_lt_of_lt_mul; rw [Nat.mul_comm, ← e2]; exact hx
  have h4 : v % 2 ^ (hi + 1 - lo) * 2 ^ lo + x % 2 ^ lo < 2 ^ (hi + 1) := by
    rw [e]
    calc _ < v % 2 ^ (hi + 1 - lo) * 2 ^ lo + 2 ^ lo := by omega
      _ = (v % 2 ^ (hi + 1 - lo) + 1) * 2 ^ lo := by rw [Nat.add_mul]; omega
      _ ≤ _ := Nat.mul_le_mul_right _ h2
  unfold setBits
  calc _ < x / 2 ^ (hi + 1) * 2 ^ (hi + 1) + 2 ^ (hi + 1) := by omega
    _ = (x / 2 ^ (hi + 1) + 1) * 2 ^ (hi + 1) := by rw [Nat.add_mul]; omega
    _ ≤ 2 ^ (63 - hi) * 2 ^ (hi + 1) := Nat.mul_le_mul_right _ h3
    _ = 2 ^ 64 := e2.symm

theorem bits_setBits_same (x hi lo v : Nat) (h : lo ≤ hi) :
    bits (setBits x hi lo v) hi lo = v % 2 ^ (hi + 1 - lo) := by
  have hp := Nat.two_pow_pos lo
  rw [setBits_split x hi lo v h]
  unfold bits
  rw [Nat.add_comm, Nat.add_mul_div_right _ _ hp, Nat.div_eq_of_lt (Nat.mod_lt _ hp), Nat.zero_add, Nat.add_comm,
    Nat.add_mul_mod_self_right, Nat.mod_mod]

theorem bits_setBits_below (x hi lo v g k : Nat) (h : lo ≤ hi) (hg : g < lo) :
    bits (setBits x hi lo v) g k = bits x g k := by
  have e : 2 ^ lo = 2 ^ (g + 1) * 2 ^ (lo - (g + 1)) := by rw [← Nat.pow_add]; congr 1; omega
  have key : setBits x hi lo v % 2 ^ (g + 1) = x % 2 ^ (g + 1) := by
    rw [setBits_split x hi lo v h, Nat.add_mod, Nat.mod_mod_of_dvd x ⟨_, e⟩]
    have : ∀ y, y * 2 ^ lo % 2 ^ (g + 1) = 0 := fun y => by
      rw [e, ← Nat.mul_assoc, Nat.mul_right_comm]; exact Nat.mul_mod_left _ _
    rw [this, Nat.zero_add, Nat.mod_mod]
  unfold bits
  by_cases hk : k ≤ g
  · have e2 : 2 ^ (g + 1) = 2 ^ k * 2 ^ (g + 1 - k) := by rw [← Nat.pow_add]; congr 1; omega
    rw [← Nat.mod_mul_right_div_self, ← Nat.mod_mul_right_div_self, ← e2, key]
  · have : g + 1 - k = 0 := by omega
    rw [this, Nat.pow_zero, Nat.mod_one, Nat.mod_one]

theorem bits_setBits_above (x hi lo v g k : Nat) (h : lo ≤ hi) (hk : hi < k) :
    bits (setBits x hi lo v) g k = bits x g k := by
  have e : 2 ^ k = 2 ^ (hi + 1) * 2 ^ (k - (hi + 1)) := by rw [← Nat.pow_add]; congr 1; omega
  have e1 : 2 ^ (hi + 1) = 2 ^ (hi + 1 - lo) * 2 ^ lo := by rw [← Nat.pow_add]; congr 1; omega
  have hp := Nat.two_pow_pos (hi + 1)
  have h1 : x % 2 ^ lo < 2 ^ lo := Nat.mod_lt _ (Nat.two_pow_pos _)
  have h2 : v % 2 ^ (hi + 1 - lo) < 2 ^ (hi + 1 - lo) := Nat.mod_lt _ (Nat.two_pow_pos _)
  have h4 : v % 2 ^ (hi + 1 - lo) * 2 ^ lo + x % 2 ^ lo < 2 ^ (hi + 1) := by
    rw [e1]
    calc _ < v % 2 ^ (hi + 1 - lo) * 2 ^ lo + 2 ^ lo := by omega
      _ = (v % 2 ^ (hi + 1 - lo) + 1) * 2 ^ lo := by rw [Nat.add_mul]; omega
      _ ≤ _ := Nat.mul_le_mul_right _ h2
  have key : setBits x hi lo v / 2 ^ (hi + 1) = x / 2 ^ (hi + 1) := by
    unfold setBits
    rw [Nat.add_assoc, Nat.add_comm, Nat.add_mul_div_right _ _ hp, Nat.div_eq_of_lt h4, Nat.zero_add]
  unfold bits
  rw [e, ← Nat.div_div_eq_div_mul, ← Nat.div_div_eq_div_mul, key]

@[simp] theorem State.reg_setReg (s : State) (a b : Nat) (v : BitVec 64) :
    (s.setReg a v).reg b = if b = a then v else s.reg b := SMap.get_put _ _ _ _ _

theorem State.reg_setF_ne (s : State) (f : Fld) (v b : Nat) (h : b ≠ f.off) : (s.setF f v).reg b = s.reg b := by
  simp [State.setF, h]

theorem State.reg_setF_same (s : State) (f : Fld) (v : Nat) (h : f.lo ≤ f.hi) (hh : f.hi < 64) :
    ((s.setF f v).reg f.off).toNat = setBits (s.reg f.off).toNat f.hi f.lo v := by
  simp only [State.setF, State.reg_setReg, if_pos, BitVec.toNat_ofNat]
  exact Nat.mod_eq_of_lt (setBits_lt _ _ _ _ h hh (s.reg f.off).isLt)

/-- A field reads as what was written to it. -/
theorem State.getF_setF_same (s : State) (f : Fld) (v : Nat) (h : f.lo ≤ f.hi) (hh : f.hi < 64) :
    (s.setF f v).getF f = v % 2 ^ (f.hi + 1 - f.lo) := by
  simp only [State.getF, State.reg_setF_same s f v h hh, bits_setBits_same _ _ _ _ h]

/-- A field of another register keeps its value. -/
theorem State.getF_setF_off (s : State) (f g : Fld) (v : Nat) (h : g.off ≠ f.off) : (s.setF f v).getF g = s.getF g := by
  simp only [State.getF, State.reg_setF_ne s f v _ h]

/-- Another field of the same register keeps its value. -/
theorem State.getF_setF_bits (s : State) (f g : Fld) (v : Nat) (ho : g.off = f.off) (h : f.lo ≤ f.hi) (hh : f.hi < 64)
    (hd : g.hi < f.lo ∨ f.hi < g.lo) : (s.setF f v).getF g = s.getF g := by
  simp only [State.getF, ho, State.reg_setF_same s f v h hh]
  rcases hd with hd | hd
  · exact bits_setBits_below _ _ _ _ _ _ h hd
  · exact bits_setBits_above _ _ _ _ _ _ h hd

/-- A field written the value it holds leaves every register as it was. -/
theorem bits_lt (x hi lo : Nat) : bits x hi lo < 2 ^ (hi + 1 - lo) := Nat.mod_lt _ (Nat.two_pow_pos _)


theorem State.regsWf_setReg (s : State) (a : Nat) (v : BitVec 64) (h : s.regsWf = true) :
    (s.setReg a v).regsWf = true := SMap.put_wf _ _ _ _ h

theorem State.regsWf_setF (s : State) (f : Fld) (v : Nat) (h : s.regsWf = true) : (s.setF f v).regsWf = true :=
  State.regsWf_setReg _ _ _ h

end Sys2Proof.Machine
end

