-- ==== Sys2Proof/Laws/Issue.lean ====
section
/-!
SUPPORT. What `issue` does for a core that issues at once (Safety.lean, State.clear): one law for an instruction that
completes with OK, one for an instruction that is refused, and the laws of the sequencer's parts they rest on.
-/
namespace Sys2Proof.Machine

/-- The sequencer past an instruction: CORE_PC and CORE_RETIRED moved on, the break skip used up. -/
def State.past (s : State) (i : Nat) : State :=
  let t := (s.setPc i (s.pc i + 16)).incWrap (Reg.coreRetired_count i) 1
  t.setCore i { t.core i with noBreak := false, stepsLeft := 0 }

/-- What a later part of an issue needs of a state to change nothing more: the core running, unheld, without frames,
queued SYN instructions, waits or a debug step, nothing read at other nodes, its next line clean. -/
structure State.quietAt (s : State) (i : Nat) : Prop where
  frames : (s.core i).frames = []
  synq : (s.core i).synq = []
  steps : (s.core i).stepsLeft = 0
  hold : (s.core i).hold = .none
  state : s.coreState i = csRunning
  waits : (s.core i).waits = []
  asker : s.asker = none
  tables : s.tables.any (fun t => t.site == i) = false
  line : (s.core i).wordAt (s.nextPc i) ≠ .poison

theorem pc_fld (i : Nat) : (Reg.corePc_pc i).hi = 28 ∧ (Reg.corePc_pc i).lo = 0 := ⟨rfl, rfl⟩

theorem State.pc_setPc (s : State) (i a : Nat) : (s.setPc i a).pc i = a % 2 ^ 29 :=
  State.getF_setF_same _ (Reg.corePc_pc i) a (Nat.zero_le _) (by simp [Reg.corePc_pc])

/-- CORE_PC is the one register that `setPc` writes. -/
theorem State.getF_setPc (s : State) (i a : Nat) (f : Fld) (h : f.off ≠ (Reg.corePc_pc i).off) :
    (s.setPc i a).getF f = s.getF f := by
  rw [State.setPc, State.getF_setF_off _ _ _ _ h, State.setCore_getF]

theorem State.retired_setPc (s : State) (i a : Nat) :
    (s.setPc i a).getF (Reg.coreRetired_count i) = s.getF (Reg.coreRetired_count i) :=
  State.getF_setPc _ _ _ _ (by simp [Reg.coreRetired_count, Reg.corePc_pc])

theorem State.pc_incRetired (s : State) (i n : Nat) : (s.incWrap (Reg.coreRetired_count i) n).pc i = s.pc i :=
  State.getF_setF_off _ _ _ _ (by simp [Reg.coreRetired_count, Reg.corePc_pc])

theorem State.coreState_incRetired (s : State) (i n : Nat) :
    (s.incWrap (Reg.coreRetired_count i) n).coreState i = s.coreState i :=
  State.getF_setF_off _ _ _ _ (by simp [Reg.coreRetired_count, Reg.coreStatus_state])

theorem State.coreState_setPc (s : State) (i a : Nat) : (s.setPc i a).coreState i = s.coreState i :=
  State.getF_setPc _ _ _ _ (by simp [Reg.corePc_pc, Reg.coreStatus_state])

@[simp] theorem State.setPc_core (s : State) (i a j : Nat) :
    (s.setPc i a).core j = if j = i then { s.core i with pastEnd := decide (vaultSize ≤ a) } else s.core j := by
  rw [State.setPc, State.setF_core, State.setCore_core]

theorem State.advance_quiet (s : State) (i : Nat) (w : BitVec 128) (hf : (s.core i).frames = [])
    (hs : (s.core i).stepsLeft = 0) (hl : (s.core i).wordAt (s.nextPc i) ≠ .poison) : s.advance i w = s.past i := by
  have h0 : s.capture i w = s := by simp [State.capture, hf]
  have h1 : s.stepPc i (iLast w.toNat) = s.setPc i (s.pc i + 16) := by
    simp [State.stepPc, hf]
  have h2 : (s.setPc i (s.pc i + 16)).retire i = s.past i := by
    simp [State.retire, State.past, hs]
  have h3 : (s.past i).pc i = s.nextPc i := by
    simp only [State.past, State.pc, State.setCore_getF]
    exact (State.pc_incRetired _ i 1).trans (State.pc_setPc s i _)
  rw [State.advance, h0, h1, h2, State.checkLine, h3]
  have h4 : ((s.past i).core i).wordAt (s.nextPc i) = (s.core i).wordAt (s.nextPc i) := by
    simp [State.past, Core.wordAt]
  rw [h4]
  simp [hl]

theorem State.past_synq (s : State) (i : Nat) : ((s.past i).core i).synq = (s.core i).synq := by
  simp [State.past]

theorem State.past_hold (s : State) (i : Nat) : ((s.past i).core i).hold = (s.core i).hold := by
  simp [State.past]

theorem State.past_coreState (s : State) (i : Nat) : (s.past i).coreState i = s.coreState i := by
  simp only [State.past, State.coreState, State.setCore_getF]
  exact (State.coreState_incRetired _ i 1).trans (State.coreState_setPc s i _)

theorem State.wake_quiet (s : State) (i : Nat) (hg : (s.core i).synq = []) (hh : (s.core i).hold = .none)
    (hs : s.coreState i ≠ csDraining) : s.wake i = s := by
  have h1 : s.runSyn i synDepth = s := by simp [State.runSyn, State.synHead, synDepth, hg]
  simp [State.wake, h1, hh, hs]

/-- The core of a site past an instruction. -/
theorem State.past_core (s : State) (i j : Nat) :
    (s.past i).core j = if j = i then
      { s.core i with noBreak := false, stepsLeft := 0, pastEnd := decide (vaultSize ≤ s.pc i + 16) } else s.core j := by
  simp only [State.past, State.setCore_core]
  split <;> simp_all

theorem State.past_pc (s : State) (i : Nat) : (s.past i).pc i = s.nextPc i := by
  simp only [State.past, State.pc, State.setCore_getF]
  exact (State.pc_incRetired _ i 1).trans (State.pc_setPc s i _)

theorem State.past_retired (s : State) (i : Nat) :
    (s.past i).getF (Reg.coreRetired_count i) = (s.getF (Reg.coreRetired_count i) + 1) % 2 ^ 48 := by
  simp only [State.past, State.setCore_getF, State.incWrap]
  rw [State.getF_setF_same _ _ _ (Nat.zero_le _) (by simp [Reg.coreRetired_count]), State.retired_setPc]
  simp [wrapAdd, fldWidth, Reg.coreRetired_count]

theorem State.past_reg (s : State) (i a : Nat) (ha : a ∉ pcRegs i) : (s.past i).reg a = s.reg a := by
  simp only [pcRegs, List.mem_cons, List.not_mem_nil, or_false, not_or] at ha
  simp only [State.past, State.setCore_reg, State.incWrap, State.setPc]
  rw [State.reg_setF_ne _ _ _ _ ha.2, State.reg_setF_ne _ _ _ _ ha.1, State.setCore_reg]

/-- No job of a site leaves nothing to stamp. -/
theorem State.stampJobs_none (s : State) (i b k : Nat) (h : s.jobs.any (fun j => j.site == i) = false) :
    s.stampJobs i b k = s := by
  have : s.jobs.map (fun j => if j.site = i ∧ b ≤ j.id then { j with issued := k } else j) = s.jobs := by
    conv => rhs; rw [← List.map_id s.jobs]
    apply List.map_congr_left
    intro j hj
    have : j.site ≠ i := by
      intro e
      have := List.any_eq_false.1 h j hj
      simp [e] at this
    simp [this]
  simp [State.stampJobs, this]

theorem State.traced_off (s : State) (i eng op itag st k : Nat) (r : Option (Nat × Nat × Nat))
    (h : s.traceOn = false) : s.traced i eng op itag st k r = s := by
  simp [State.traced, State.traceIns, State.traceRoute, h]

/-- The parts of `clear`. -/
structure Clear (s : State) (i : Nat) (w : BitVec 128) : Prop where
  can : s.canIssue i w = true
  frames : (s.core i).frames = []
  synq : (s.core i).synq = []
  steps : (s.core i).stepsLeft = 0
  jobs : s.jobs.any (fun j => j.site == i) = false
  trace : s.traceOn = false
  line : (s.core i).wordAt (s.nextPc i) ≠ .poison
  rsv : bits w.toNat 15 13 = 0
  waits : (s.core i).waits = []
  kvq : (s.core i).kvq = []
  kvRun : (s.core i).kvRun = []
  asker : s.asker = none
  tables : s.tables.any (fun t => t.site == i) = false

theorem State.clear_iff (s : State) (i : Nat) (w : BitVec 128) : s.clear i w = true ↔ Clear s i w := by
  constructor
  · intro h
    simp only [State.clear, Bool.and_eq_true, Bool.not_eq_true', List.isEmpty_iff, decide_eq_true_eq, bne_iff_ne,
      beq_iff_eq, Option.isNone_iff_eq_none] at h
    obtain ⟨⟨⟨⟨⟨⟨⟨⟨⟨⟨⟨⟨a, b⟩, c⟩, d⟩, e⟩, f⟩, g⟩, k⟩, l⟩, m⟩, n⟩, o⟩, p⟩ := h
    exact ⟨a, b, c, d, e, f, g, k, l, m, n, o, p⟩
  · intro h
    simp only [State.clear, h.can, h.frames, h.synq, h.steps, h.jobs, h.trace, h.rsv, h.waits, h.kvq, h.kvRun, h.asker,
      h.tables]
    simp [h.line]

theorem bits_15_14 (n : Nat) (h : bits n 15 13 = 0) : bits n 15 14 = 0 := by
  simp only [bits] at *
  omega

/-- A core that issues the word is running and unheld. -/
theorem State.canIssue_state (s : State) (i : Nat) (w : BitVec 128) (h : s.canIssue i w = true) :
    s.coreState i = csRunning ∧ (s.core i).hold = .none := by
  simp only [State.canIssue, State.atWord, Bool.and_eq_true, beq_iff_eq] at h
  exact ⟨h.1.1.1.1.1.1.2, h.1.1.1.1.1.2⟩

theorem State.busyJobs_none (s : State) (i m : Nat) (h : s.jobs.any (fun j => j.site == i) = false) :
    s.busyJobs i m = false := by
  simp only [State.busyJobs, List.any_eq_false] at *
  intro j hj
  have := h j hj
  simp_all

theorem State.jobsOf_none (s : State) (i : Nat) (p : Job → Bool) (h : s.jobs.any (fun j => j.site == i) = false) :
    s.jobs.filter (fun j => j.site == i && p j) = [] := by
  simp only [List.any_eq_false, List.filter_eq_nil_iff] at *
  intro j hj
  have := h j hj
  simp_all

theorem State.jobsAt_none (s : State) (i : Nat) (h : s.jobs.any (fun j => j.site == i) = false) :
    s.jobs.filter (fun j => j.site == i) = [] := by
  simp only [List.any_eq_false, List.filter_eq_nil_iff] at *
  exact h

theorem State.engFull_none (s : State) (i e : Nat) (h : s.jobs.any (fun j => j.site == i) = false)
    (hk : (s.core i).kvq = []) : s.engFull i e = false := by
  simp [State.engFull, hk, s.jobsOf_none i (fun j => j.engine == e) h, kvxDepth]

theorem State.boardFull_none (s : State) (i : Nat) (h : s.jobs.any (fun j => j.site == i) = false)
    (hs : (s.core i).synq = []) : s.boardFull i = false := by
  simp [State.boardFull, hs, s.jobsOf_none i (fun j => !j.dests.isEmpty || !j.tiles.isEmpty) h, boardSize]

/-- Nothing outstanding holds up an instruction. -/
theorem State.guarded_none (s : State) (i e : Nat) (act : Act) (h : s.jobs.any (fun j => j.site == i) = false)
    (hs : (s.core i).synq = []) : s.guarded i e act = act s := by
  simp [State.guarded, State.pendingDests, State.pendingMem, hs, s.jobsAt_none i h,
    s.jobsOf_none i (fun j => j.engine == e) h, s.boardFull_none i h hs]

theorem State.begun_none (s : State) (i n : Nat) (h : s.jobs.any (fun j => j.site == i) = false) :
    s.begun i n = false := by
  simp only [State.begun, List.any_eq_false] at *
  intro j hj
  have := h j hj
  simp_all

/-- The tables of a site that has read none are none of its agents'. -/
theorem State.tables_none (s : State) (i k : Nat) (h : s.tables.any (fun t => t.site == i) = false) :
    s.tables.filter (fun t => !t.ofAgent i k) = s.tables := by
  simp only [List.any_eq_false, List.filter_eq_self] at *
  intro t ht
  have := h t ht
  simp_all [TabRead.ofAgent]

theorem State.asked_none (s : State) (i k : Nat) (h : s.tables.any (fun t => t.site == i) = false) :
    s.asked i k = false := by
  simp only [State.asked, List.any_eq_false] at *
  intro t ht
  have := h t ht
  simp_all [TabRead.ofAgent]

/-- Look-ups that find nothing to read at other nodes: what is done with them is done at once. -/
theorem State.lookUp_none {α : Type} (s t : State) (i k e : Nat) (f : State → Option (State × α)) (a : α)
    (hs : s.tables.any (fun t => t.site == i) = false) (ht : t.tables.any (fun t => t.site == i) = false)
    (hn : t.asker = none) (h : f (s.ask i k) = some (t.ask i k, a)) : s.lookUp i k e f = .done t a := by
  have h1 : (t.ask i k).wanted = [] := rfl
  have h2 : (t.ask i k).forget i k = t := by
    simp only [State.forget, State.dropTables, State.ask, State.tables_none t i k ht]
    rw [← hn]
  simp [State.lookUp, s.asked_none i k hs, h, h1, h2]

/-- `issue` for a core that issues at once: what the action gives is settled. -/
theorem State.issue_clear (s : State) (i : Nat) (w : BitVec 128) (eng : Nat) (ops : List Nat) (act : Act) (s' : State)
    (d : Done) (hc : Clear s i w) (he : iEng w.toNat = eng) (ho : ops.contains (iOp w.toNat) = true)
    (hu : (s.ask i eng).unlicensed eng (iOp w.toNat) = false) (ha : act (s.ask i eng) = some (s'.ask i eng, d))
    (hn : s'.asker = none) (ht : s'.tables.any (fun t => t.site == i) = false) :
    s.issue i w eng ops act =
      (let n := w.toNat
       let u := s'.setWaits i []
       let k := s.getF (Reg.coreRetired_count i)
       let begun := u.begun i s.newJob
       let t := (u.lastOf i eng n d.st begun).stampJobs i s.newJob k
       let later := begun || ((eng == 7 || (eng == 0 && [1, 3, 0xC, 0xD].contains (iOp n))) && d.st == stOk)
       let t := if later then t else t.traced i eng (iOp n) (iTag n) d.st k d.route
       ((t.advance i w).settle i eng (iTag n) d).wake i) := by
  have hf := s.engFull_none i eng hc.jobs hc.kvq
  have hb := s.boardFull_none i hc.jobs hc.synq
  have hg : (s.ask i eng).guarded i eng act = some (s'.ask i eng, d) :=
    ((s.ask i eng).guarded_none i eng act hc.jobs hc.synq).trans ha
  have hr := bits_15_14 _ hc.rsv
  have hl := s.lookUp_none s' i eng eng
    (fun s => if s.unlicensed eng (iOp w.toNat) then some (s, Done.of stLicenceAbsent)
      else if bits w.toNat 15 14 != 0 then some (s, Done.of stBadParam) else s.guarded i eng act)
    d hc.tables ht hn (by simp [hu, hr, hg])
  simp only [State.issue, hc.can, he, hb, hf, ho, hl]
  simp

theorem State.setWaits_same (s : State) (i : Nat) (h : (s.core i).waits = []) : s.setWaits i [] = s := by
  simp [State.setWaits, h]

/-- `issue` of an instruction that completes with OK at once. -/
theorem State.issue_ok (s : State) (i : Nat) (w : BitVec 128) (eng : Nat) (ops : List Nat) (act : Act) (s' : State)
    (r : Option (Nat × Nat × Nat)) (sp ad : Nat) (hl : Bool) (hc : Clear s i w) (he : iEng w.toNat = eng)
    (ho : ops.contains (iOp w.toNat) = true) (hu : (s.ask i eng).unlicensed eng (iOp w.toNat) = false)
    (ha : act (s.ask i eng) = some (s'.ask i eng, ⟨stOk, sp, ad, hl, r⟩)) (hn : s'.asker = none)
    (htb : s'.tables.any (fun t => t.site == i) = false) (hw : (s'.core i).waits = [])
    (hjs : s'.jobs.any (fun j => j.site == i) = false)
    (hj : (s'.lastOf i eng w.toNat stOk false).jobs.any (fun j => j.site == i) = false)
    (ht : (s'.lastOf i eng w.toNat stOk false).traceOn = false) (hq : (s'.lastOf i eng w.toNat stOk false).quietAt i) :
    s.issue i w eng ops act = (s'.lastOf i eng w.toNat stOk false).past i := by
  rw [State.issue_clear s i w eng ops act s' _ hc he ho hu ha hn htb]
  simp only
  rw [State.setWaits_same s' i hw, State.begun_none s' i _ hjs, State.stampJobs_none _ _ _ _ hj,
    State.traced_off _ _ _ _ _ _ _ _ ht]
  simp only [ite_self]
  rw [State.advance_quiet _ i w hq.frames hq.steps hq.line]
  have hs : (State.past (s'.lastOf i eng w.toNat stOk false) i).settle i eng (iTag w.toNat) ⟨stOk, sp, ad, hl, r⟩ =
      (s'.lastOf i eng w.toNat stOk false).past i := by simp [State.settle]
  rw [hs]
  apply State.wake_quiet
  · rw [State.past_synq]; exact hq.synq
  · rw [State.past_hold]; exact hq.hold
  · rw [State.past_coreState, hq.state]; decide

/-! ## What an instruction leaves alone -/

theorem State.sameBeyondCores_refl (s : State) : s.sameBeyondCores s := rfl

theorem State.sameBeyondCores_setReg {s t : State} (a : Nat) (v : BitVec 64) (h : s.sameBeyondCores t) :
    s.sameBeyondCores (t.setReg a v) := h

theorem State.sameBeyondCores_setF {s t : State} (f : Fld) (v : Nat) (h : s.sameBeyondCores t) :
    s.sameBeyondCores (t.setF f v) := State.sameBeyondCores_setReg _ _ h

theorem State.sameBeyondCores_incWrap {s t : State} (f : Fld) (n : Nat) (h : s.sameBeyondCores t) :
    s.sameBeyondCores (t.incWrap f n) := State.sameBeyondCores_setF _ _ h

theorem State.sameBeyondCores_incSat {s t : State} (f : Fld) (n : Nat) (h : s.sameBeyondCores t) :
    s.sameBeyondCores (t.incSat f n) := State.sameBeyondCores_setF _ _ h

theorem State.sameBeyondCores_setCore {s t : State} (i : Nat) (c : Core) (h : s.sameBeyondCores t) :
    s.sameBeyondCores (t.setCore i c) := h

theorem State.sameBeyondCores_bump {s t : State} (n : Nat) (h : s.sameBeyondCores t) :
    s.sameBeyondCores (t.bump n) := h

theorem State.sameBeyondCores_past {s t : State} (i : Nat) (h : s.sameBeyondCores t) :
    s.sameBeyondCores (t.past i) :=
  State.sameBeyondCores_setCore _ _ (State.sameBeyondCores_incWrap _ _ (State.sameBeyondCores_setF _ _ h))

/-- An instruction whose effect is on its core, some registers and nothing else has run, once the sequencer is past. -/
theorem State.ran_past (s t : State) (i : Nat) (changed : List Nat) (hpc : t.pc i = s.pc i)
    (hret : t.getF (Reg.coreRetired_count i) = s.getF (Reg.coreRetired_count i))
    (hreg : ∀ a, a ∉ pcRegs i → a ∉ changed → t.reg a = s.reg a) (hcore : ∀ j, j ≠ i → t.core j = s.core j)
    (hsteps : (t.core i).stepsLeft = 0) (hrest : s.sameBeyondCores t) : s.ran (t.past i) i changed (t.core i) := by
  refine ⟨⟨?_, ?_, fun a ha hb => ?_, fun j hj => ?_⟩, ?_, State.sameBeyondCores_past i hrest⟩
  · rw [State.past_pc, State.nextPc, State.nextPc, hpc]
  · rw [State.past_retired, hret]
  · rw [State.past_reg _ _ _ ha, hreg a ha hb]
  · rw [State.past_core, if_neg hj, hcore j hj]
  · rw [State.past_core, if_pos rfl, ← hsteps, hpc]

/-- A core that issues at once is quiet. -/
theorem State.quietAt_of_clear (s : State) (i : Nat) (w : BitVec 128) (h : Clear s i w) : s.quietAt i :=
  ⟨h.frames, h.synq, h.steps, (s.canIssue_state i w h.can).2, (s.canIssue_state i w h.can).1, h.waits, h.asker, h.tables,
    h.line⟩

/-- A SYN instruction has no LAST register. -/
@[simp] theorem State.lastOf_syn (s : State) (i n st : Nat) (b : Bool) : s.lastOf i 0 n st b = s := by
  simp [State.lastOf, State.queuedLast]

/-- A MOV instruction has no LAST register. -/
@[simp] theorem State.lastOf_mov (s : State) (i n st : Nat) (b : Bool) : s.lastOf i 1 n st b = s := by
  simp [State.lastOf, State.queuedLast]

end Sys2Proof.Machine
end

