-- ==== Sys2Proof/Laws/Memory.lean ====
section
/-!
SUPPORT. Memories of codewords: every operation on the vaults, the scratchpads and retained storage keeps the canonical
form, and a write leaves every word outside its range as it was.
-/
namespace Sys2Proof.Machine

/-! ## The canonical form -/

theorem memory_put_wf (d : Nat → Codeword) (k : Nat) (w : Codeword) (m : EccMem) (h : Memory.wf d m = true) :
    Memory.wf d (SMap.put d k w m) = true := SMap.put_wf d k w m h

theorem memory_writeWords_wf (d : Nat → Codeword) (n : Nat) (m : EccMem) (a : Nat) (bs : List PByte)
    (h : Memory.wf d m = true) : Memory.wf d (EccMem.writeWords d n m a bs) = true := by
  induction n generalizing m a bs with
  | zero => exact h
  | succ n ih =>
    cases bs with
    | nil => exact h
    | cons b bs => exact ih _ _ _ (memory_put_wf d _ _ _ h)

/-- A write keeps it. -/
theorem memory_write_wf (d : Nat → Codeword) (m : EccMem) (a : Nat) (bs : List PByte) (h : Memory.wf d m = true) :
    Memory.wf d (EccMem.write d m a bs) = true := memory_writeWords_wf d _ m a bs h

theorem sortedFrom_keep {α : Type} (p : Nat → Bool) (b : Option Nat) (m : SMap α) (h : SMap.sortedFrom b m = true) :
    SMap.sortedFrom b (SMap.keep p m) = true := by
  induction m generalizing b with
  | nil => exact h
  | cons e m ih =>
    obtain ⟨k, v⟩ := e
    rw [SMap.sortedFrom_cons] at h
    unfold SMap.keep List.filter
    split
    · rw [SMap.sortedFrom_cons]; exact ⟨h.1, ih _ h.2⟩
    · refine ih b ?_
      cases b with
      | none =>
        cases m with
        | nil => rfl
        | cons f m => exact (SMap.sortedFrom_cons _ _ _ _).2 ⟨trivial, ((SMap.sortedFrom_cons _ _ _ _).1 h.2).2⟩
      | some b => exact SMap.sortedFrom_weaken m h.2 (Nat.le_of_lt h.1)

theorem noDefault_keep {α : Type} [DecidableEq α] (d : Nat → α) (p : Nat → Bool) (m : SMap α)
    (h : SMap.noDefault d m = true) : SMap.noDefault d (SMap.keep p m) = true := by
  induction m with
  | nil => exact h
  | cons e m ih =>
    obtain ⟨k, v⟩ := e
    simp only [SMap.noDefault, Bool.and_eq_true] at h
    unfold SMap.keep List.filter
    split
    · simp only [SMap.noDefault, Bool.and_eq_true]; exact ⟨h.1, ih h.2⟩
    · exact ih h.2

/-- Taking a retired row out keeps it. -/
theorem memory_keep_wf (d : Nat → Codeword) (p : Nat → Bool) (m : EccMem) (h : Memory.wf d m = true) :
    Memory.wf d (SMap.keep p m) = true := by
  simp only [Memory.wf, SMap.wf, Bool.and_eq_true] at h ⊢
  exact ⟨sortedFrom_keep p _ m h.1, noDefault_keep d p m h.2⟩

theorem memory_fold_wf (d : Nat → Codeword) (es : List WEntry) (m : EccMem) (h : Memory.wf d m = true) :
    Memory.wf d (es.foldl (fun m e => EccMem.write d m e.addr e.bytes) m) = true := by
  induction es generalizing m with
  | nil => exact h
  | cons e es ih => exact ih _ (memory_write_wf d m _ _ h)

/-- What later reads of a vault see is canonical where its banks are. -/
theorem Vault.seen_wf (v : Nat) (x : Vault) (h : Memory.wf (wordDefault v x) x.mem = true) :
    Memory.wf (wordDefault v x) (x.seen v) = true := memory_fold_wf _ x.wbuf x.mem h

/-- Every scratchpad of a state. -/
def State.scratchWf (s : State) : Prop := ∀ i, Memory.wf scratchZero (s.core i).scratch = true

/-- Every vault of a state. -/
def State.vaultsWf (s : State) : Prop := ∀ v, Memory.wf (wordDefault v (s.vault v)) (s.vault v).mem = true

theorem State.vault_setVault (s : State) (v : Nat) (x : Vault) (u : Nat) :
    (s.setVault v x).vault u = if u = v then x else s.vault u := by
  simp only [State.vault, State.setVault, State.vaultDefault]
  exact SMap.get_put _ _ _ _ _

theorem State.core_setCore (s : State) (i : Nat) (c : Core) (j : Nat) :
    (s.setCore i c).core j = if j = i then c else s.core j := by
  simp only [State.core, State.setCore]
  exact SMap.get_put _ _ _ _ _

theorem State.scratchWf_setCore (s : State) (i : Nat) (c : Core) (h : s.scratchWf)
    (hc : Memory.wf scratchZero c.scratch = true) : (s.setCore i c).scratchWf := by
  intro j
  rw [State.core_setCore]
  split
  · exact hc
  · exact h j

theorem State.scratchWf_touched (s : State) (i a n : Nat) (h : s.scratchWf) : (s.touched i a n).scratchWf := by
  unfold State.touched
  dsimp only
  split
  · exact h
  · exact State.scratchWf_setCore s i _ h (h i)

/-- A write of a scratchpad keeps every scratchpad canonical. -/
theorem State.scratchWf_writeScratch (s : State) (i a : Nat) (data : List PByte) (h : s.scratchWf) :
    (s.writeScratch i a data).scratchWf := by
  have ht := State.scratchWf_touched s i a data.length h
  exact State.scratchWf_setCore _ i _ ht (memory_write_wf _ _ _ _ (ht i))

theorem State.vaultsWf_setVault (s : State) (v : Nat) (x : Vault) (h : s.vaultsWf)
    (hx : Memory.wf (wordDefault v x) x.mem = true) : (s.setVault v x).vaultsWf := by
  intro u
  rw [State.vault_setVault]
  split
  · subst_vars; exact hx
  · exact h u

theorem State.vaultsWf_incWrap (s : State) (f : Fld) (n : Nat) (h : s.vaultsWf) : (s.incWrap f n).vaultsWf := h

/-- Storing a bank leaves the memory of a vault. -/
theorem State.vaultsWf_setBank (s : State) (v b : Nat) (y : Bank) (h : s.vaultsWf) :
    (s.setVault v ((s.vault v).setBank b y)).vaultsWf := State.vaultsWf_setVault s v _ h (h v)

theorem State.vaultsWf_touchRow (s : State) (v p : Nat) (h : s.vaultsWf) : (s.touchRow v p).vaultsWf := by
  unfold State.touchRow
  dsimp only
  split
  · exact State.vaultsWf_setBank s v _ _ h
  · exact State.vaultsWf_incWrap _ _ _ (State.vaultsWf_setBank s v _ _ h)

/-- Draining an entry of the write buffer keeps every vault canonical. -/
theorem State.vaultsWf_drainOne (s : State) (v : Nat) (h : s.vaultsWf) : (s.drainOne v).vaultsWf := by
  unfold State.drainOne
  dsimp only
  split
  · exact h
  · exact State.vaultsWf_touchRow _ v _
      (State.vaultsWf_setVault s v _ h (memory_write_wf (wordDefault v (s.vault v)) _ _ _ (h v)))

/-- Draining several keeps them. -/
theorem State.vaultsWf_drainSome (s : State) (v k : Nat) (h : s.vaultsWf) : (s.drainSome v k).vaultsWf := by
  induction k generalizing s with
  | zero => exact h
  | succ k ih => exact ih _ (State.vaultsWf_drainOne s v h)

/-- Putting an entry into the write buffer keeps them. -/
theorem State.vaultsWf_bufPut (s : State) (v : Nat) (e : WEntry) (h : s.vaultsWf) : (s.bufPut v e).vaultsWf := by
  have hr : (s.rowAsked v e.addr).vaultsWf := State.vaultsWf_setBank s v _ _ h
  exact State.vaultsWf_setVault _ v _ hr (hr v)

/-- Accepting a piece into the write buffer keeps every vault canonical. -/
theorem State.vaultsWf_accept (s : State) (v : Nat) (e : WEntry) (h : s.vaultsWf) : (s.accept v e).vaultsWf :=
  State.vaultsWf_bufPut _ v e (State.vaultsWf_drainSome s v _ h)

/-- The memories of the state after reset are canonical. -/
theorem State.reset_memories_wf : State.reset.scratchWf ∧ State.reset.vaultsWf ∧
    Memory.wf retZero State.reset.rst.retained = true := by
  refine ⟨fun i => rfl, fun v => rfl, rfl⟩

/-! ## Writes leave the rest alone -/

theorem memory_word_put (d : Nat → Codeword) (k j : Nat) (w : Codeword) (m : EccMem) :
    EccMem.word d (SMap.put d k w m) j = if j = k then w else EccMem.word d m j := SMap.get_put d k j w m

theorem memory_writeWords_out (d : Nat → Codeword) (n : Nat) (m : EccMem) (a : Nat) (bs : List PByte) (k : Nat)
    (hk : k < a / 8 ∨ a + bs.length ≤ 8 * k) : EccMem.word d (EccMem.writeWords d n m a bs) k = EccMem.word d m k := by
  induction n generalizing m a bs with
  | zero => rfl
  | succ n ih =>
    cases bs with
    | nil => rfl
    | cons b bs =>
      simp only [EccMem.writeWords]
      simp only [List.length_cons] at hk
      rw [ih, memory_word_put, if_neg (by omega)]
      simp only [List.length_drop, List.length_cons]
      omega

/-- A write leaves every word that its range does not touch as it was. -/
theorem memory_write_out (d : Nat → Codeword) (m : EccMem) (a : Nat) (bs : List PByte) (k : Nat)
    (hk : k < a / 8 ∨ a + bs.length ≤ 8 * k) : EccMem.word d (EccMem.write d m a bs) k = EccMem.word d m k :=
  memory_writeWords_out d _ m a bs k hk

/-- So it leaves every byte of those words. -/
theorem memory_byte_write_out (d : Nat → Codeword) (m : EccMem) (a : Nat) (bs : List PByte) (b : Nat)
    (hb : b / 8 < a / 8 ∨ a + bs.length ≤ 8 * (b / 8)) : EccMem.byte d (EccMem.write d m a bs) b = EccMem.byte d m b := by
  simp only [EccMem.byte, memory_write_out d m a bs (b / 8) hb]

/-- A write that starts a whole word stores its first eight bytes there, and the mark where they carry poison
(16 R577). -/
theorem memory_write_word (d : Nat → Codeword) (m : EccMem) (k : Nat) (bs : List PByte) (h : 8 ≤ bs.length) :
    EccMem.word d (EccMem.write d m (8 * k) bs) k =
      if anyPoison (bs.take 8) then .mark else .enc (BitVec.ofNat 64 (leP (bs.take 8))) := by
  obtain ⟨b, rest, rfl⟩ : ∃ b rest, bs = b :: rest := by
    cases bs with
    | nil => simp at h
    | cons b rest => exact ⟨b, rest, rfl⟩
  have h8 : 8 * k % 8 = 0 := by omega
  have hd : 8 * k / 8 = k := by omega
  have hl : ((b :: rest).take 8).length = 8 := by simp only [List.length_take]; omega
  unfold EccMem.write EccMem.writeWords
  simp only [h8, hd, Nat.sub_zero]
  rw [memory_writeWords_out _ _ _ _ _ _ (by omega), memory_word_put, if_pos rfl]
  unfold mergeWord
  rw [if_pos ⟨rfl, hl⟩]

/-- A write of a scratchpad changes only that core. -/
theorem State.writeScratch_core_ne (s : State) (i a j : Nat) (data : List PByte) (h : j ≠ i) :
    (s.writeScratch i a data).core j = s.core j := by
  unfold State.writeScratch State.touched
  dsimp only
  split <;> simp [h]

end Sys2Proof.Machine
end

