-- ==== Sys2Proof/WellFormed.lean ====
section
/-!
DEFINITION. Which commands are well formed: a core instruction's word carries its row's engine and opcode (00 R19, 02 R93),
a packet carries its row's class and opcode and the payload its length says (10 R373, R374), and every length, index and
range an operand must keep lies in its bounds.
-/
namespace Sys2Proof

open Sys2Proof.Machine

/-- Does a word carry an engine and an opcode (02 R59)? -/
def isCode (w : BitVec 128) (eng op : Nat) : Bool := iEng w.toNat == eng && iOp w.toNat == op

/-- Do the fields of a packet's header fit their widths (10 R373)? -/
def headerFits (k : Packet) : Bool :=
  decide (k.cls < 4) && decide (k.op < 64) && decide (k.srcEngine < 16) && decide (k.status < 256) && decide (k.aop < 32) &&
  decide (k.tag < 65536) && decide (k.dst < 2 ^ 64) && decide (k.src < 2 ^ 32) && decide (k.age < 65536) &&
  decide (k.seq < 65536) && decide (k.aux < 2 ^ 32)

/-- Does a packet's header fit, and is its payload as long as it says, and no longer than 256 B (10 R373)? -/
def packetOk (k : Packet) : Bool := headerFits k && decide (k.length ≤ 256) && k.payload.length == k.length

/-- A packet of a class and opcode. -/
def isPacket (k : Packet) (cls op : Nat) : Bool := k.cls == cls && k.op == op && packetOk k

/-- A notice from a vault, or a NOTICE packet. -/
def noticeOk : NoticeIn → Bool
  | .fromVault _ => true
  | .packet _ _ k => isPacket k 1 4

/-- A range of a vault (01 R39). -/
def rangeOk (off n : Nat) : Bool := n != 0 && decide (off + n ≤ vaultSize)

/-- An atomic's operands (02 R99). -/
def atomicOk (off aop : Nat) (wide : Bool) (operand compare : List PByte) : Bool :=
  decide (aop < 8) && operand.length == 8 && (aop != 4 || compare.length == 8) && off % (if wide then 8 else 4) == 0

/-- Four sections of 2,048 bytes, where written (16 R586). -/
def crashWorkOk (h : CrashWork) : Bool :=
  h.sections.length == 4 && h.sections.all (fun x => match x with
    | some bs => bs.length == 2048
    | none => true)

/-- Is a command well formed? -/
def Instr.wf : Instr → Bool
  | .nop _ w => isCode w 0 0x00
  | .endStream _ w => isCode w 0 0x01
  | .fence _ w => isCode w 0 0x02
  | .signal _ w => isCode w 0 0x03
  | .wait _ w => isCode w 0 0x04
  | .repeatImm _ w => isCode w 0 0x05
  | .repeatInd _ w => isCode w 0 0x06
  | .agsetBase _ w => isCode w 0 0x08
  | .agsetStride _ w => isCode w 0 0x09
  | .agadd _ w => isCode w 0 0x0A
  | .tick _ w => isCode w 0 0x0C
  | .notify _ w => isCode w 0 0x0D
  | .reservedOpcode _ w => !definedOp (iEng w.toNat) (iOp w.toNat)
  | .movLoad _ w => isCode w 1 0x00
  | .movStore _ w => isCode w 1 0x01
  | .movCopy _ w => isCode w 1 0x02
  | .loadN _ w => isCode w 1 0x03
  | .storeN _ w => isCode w 1 0x04
  | .movGather _ w => isCode w 1 0x05
  | .scatter _ w => isCode w 1 0x06
  | .movFill _ w => isCode w 1 0x07
  | .movAtomic _ w => isCode w 1 0x08
  | .mma _ w => isCode w 2 0x00
  | .mmaFirstStep _ feed shadow scale drain =>
    shadow.length == feed.length && scale.length == feed.length && drain.length == feed.length
  | .fillerWindowEnd _ => true
  | .fillerLeadEnd _ => true
  | .tld _ w => isCode w 3 0x01
  | .tst _ w => isCode w 3 0x02
  | .kld _ w => isCode w 3 0x03
  | .kst _ w => isCode w 3 0x04
  | .tleMov _ w => isCode w 3 0x08
  | .add _ w => isCode w 3 0x09
  | .sub _ w => isCode w 3 0x0A
  | .mul _ w => isCode w 3 0x0B
  | .fma _ w => isCode w 3 0x0C
  | .div _ w => isCode w 3 0x0D
  | .minT _ w => isCode w 3 0x0E
  | .maxT _ w => isCode w 3 0x0F
  | .absT _ w => isCode w 3 0x10
  | .neg _ w => isCode w 3 0x11
  | .andT _ w => isCode w 3 0x12
  | .orT _ w => isCode w 3 0x13
  | .xor _ w => isCode w 3 0x14
  | .shl _ w => isCode w 3 0x15
  | .shrl _ w => isCode w 3 0x16
  | .shra _ w => isCode w 3 0x17
  | .sel _ w => isCode w 3 0x18
  | .cvt _ w => isCode w 3 0x20
  | .rnd _ w => isCode w 3 0x21
  | .exp2 _ w => isCode w 3 0x28
  | .expT _ w => isCode w 3 0x29
  | .log2 _ w => isCode w 3 0x2A
  | .ln _ w => isCode w 3 0x2B
  | .rcp _ w => isCode w 3 0x2C
  | .sqrt _ w => isCode w 3 0x2D
  | .rsqrt _ w => isCode w 3 0x2E
  | .sigmoid _ w => isCode w 3 0x2F
  | .tanh _ w => isCode w 3 0x30
  | .silu _ w => isCode w 3 0x31
  | .rsum _ w => isCode w 3 0x38
  | .rmax _ w => isCode w 3 0x39
  | .rmin _ w => isCode w 3 0x3A
  | .csum _ w => isCode w 3 0x3B
  | .cmax _ w => isCode w 3 0x3C
  | .cmin _ w => isCode w 3 0x3D
  | .trn _ w => isCode w 3 0x3E
  | .cmp _ w => isCode w 3 0x40
  | .topk _ w => isCode w 3 0x41
  | .klogic _ w => isCode w 3 0x42
  | .flags _ w => isCode w 3 0x43
  | .cmpr _ w => isCode w 3 0x48
  | .expr _ w => isCode w 3 0x49
  | .cmps _ w => isCode w 3 0x4A
  | .exps _ w => isCode w 3 0x4B
  | .tmm _ w => isCode w 3 0x50
  | .bkdFill _ w => isCode w 4 0x00
  | .bkdCopy _ w => isCode w 4 0x01
  | .bkdGather _ w => isCode w 4 0x02
  | .qld _ w => isCode w 4 0x08
  | .bkdScore _ w => isCode w 4 0x09
  | .bkdAcc _ w => isCode w 4 0x0A
  | .bankUnitGrant _ => true
  | .bankUnitCommandEnd _ _ => true
  | .bankUnitResultDrain _ => true
  | .bankUnitWindowStart => true
  | .fetch _ w => isCode w 6 0x00
  | .kvxScore _ w => isCode w 6 0x01
  | .kvxAcc _ w => isCode w 6 0x02
  | .smax _ w => isCode w 6 0x04
  | .merge _ w => isCode w 6 0x05
  | .comb _ w => isCode w 6 0x06
  | .fin _ w => isCode w 6 0x07
  | .append _ w => isCode w 6 0x08
  | .link _ w => isCode w 6 0x10
  | .publish _ w => isCode w 6 0x11
  | .prefixLinkRequest => true
  | .prefixPublishRequest => true
  | .prefixRelease => true
  | .pfxReclaimRelease _ => true
  | .push _ w => isCode w 7 0x00
  | .pop _ w => isCode w 7 0x01
  | .popa _ w => isCode w 7 0x02
  | .tsend _ w => isCode w 5 0x10
  | .reply _ w => isCode w 5 0x11
  | .put _ w => isCode w 5 0x00
  | .get _ w => isCode w 5 0x01
  | .putf _ w => isCode w 5 0x02
  | .icacheLineFill _ _ _ _ => true
  | .breakpointStop _ => true
  | .streamOverrun _ => true
  | .channelFaultStop _ => true
  | .waitTimeout _ => true
  | .waitRearm _ => true
  | .notice _ n => noticeOk n
  | .popTimeout _ => true
  | .coreCtrlStart _ => true
  | .coreCtrlStop _ => true
  | .coreCtrlResume _ => true
  | .vaultRead _ off len _ _ => rangeOk off.toNat len
  | .vaultWrite _ off data _ _ => rangeOk off.toNat data.length
  | .partialWordMerge _ _ => true
  | .vaultAtomic _ off aop wide operand compare => atomicOk off.toNat aop wide operand compare
  | .watchInstall _ off _ => off.toNat % 8 == 0
  | .writeBufferDrain _ _ => true
  | .rowIdlePrecharge _ _ => true
  | .refresh _ _ => true
  | .refreshRateUpdate _ => true
  | .zoneTempStale _ _ => true
  | .bandModeEnd _ => true
  | .keeperRefresh _ _ => true
  | .vltInit _ => true
  | .fillTokenGrant _ => true
  | .initFillDone _ => true
  | .scrubStart _ => true
  | .scrubAbort _ => true
  | .scrubGranule _ => true
  | .vltHold _ _ => true
  | .vaultHeld _ => true
  | .vltMapWrite _ _ => true
  | .vltRetire _ _ => true
  | .retireVault _ => true
  | .rawAccess _ _ => true
  | .rawAccessDone _ => true
  | .admissionRequest _ _ => true
  | .admissionRetry _ _ => true
  | .bundleAdmit _ => true
  | .bundleWord _ _ _ => true
  | .bundleAvailable _ => true
  | .sqStall _ => true
  | .bundleLost _ src engine seq => decide (src < 2 ^ 32) && decide (engine < 16) && decide (seq < 2 ^ 16)
  | .sqOpenWrite _ _ => true
  | .bundleWordTimeout _ _ => true
  | .bundleMemoryExpire _ => true
  | .bundleSeqFree _ _ => true
  | .read _ _ k => isPacket k 0 0
  | .write _ _ k => isPacket k 0 1
  | .atomic _ _ k => isPacket k 0 2
  | .watchArm _ _ k => isPacket k 0 3
  | .watchCancel _ _ k => isPacket k 0 4
  | .readData _ _ k => isPacket k 1 0
  | .writeAck _ _ k => isPacket k 1 1
  | .atomicOld _ _ k => isPacket k 1 2
  | .watchAck _ _ k => isPacket k 1 3
  | .refuse _ _ k => isPacket k 1 5
  | .admitted _ _ k => isPacket k 1 6
  | .accepted _ _ k => isPacket k 1 7
  | .admitPkt _ _ k => isPacket k 2 0
  | .dataTok _ _ k => isPacket k.pkt 2 1
  | .abandon _ _ k => isPacket k 2 2
  | .ping _ _ k => isPacket k 3 0
  | .pong _ _ k => isPacket k 3 1
  | .stateMgt _ _ k => isPacket k 3 2
  | .regRead _ _ k => isPacket k 3 3
  | .regWrite _ _ k => isPacket k 3 4
  | .regData _ _ k => isPacket k 3 5
  | .fabricReservedPacket _ _ k => packetOk k && reservedPkt k.cls k.op
  | .packetForward _ _ k => packetOk k
  | .packetLostTimeout _ => true
  | .rerouteTimeout _ => true
  | .refusalResend _ _ => true
  | .refusalGiveUp _ _ => true
  | .flowPortChange _ => true
  | .fabricFlit _ _ flit _ => flit.length == 64 || flit.isEmpty
  | .fabricAckTimer _ _ => true
  | .fabricNoProgress _ _ => true
  | .fabricRetrainEnd _ _ _ => true
  | .laserLow _ _ _ _ => true
  | .laserRestored _ _ _ _ => true
  | .portRetrain _ _ => true
  | .portEnableWrite _ _ _ => true
  | .skyNodeWrite _ _ => true
  | .skyCreditWrite _ _ => true
  | .routingEntryWrite _ group k _ => group || decide (k.toNat < 256)
  | .dieLinkTrained _ _ _ => true
  | .dieLinkTrainTimeout _ => true
  | .dieLinkFlit _ flit _ => flit.length == 56 || flit.isEmpty
  | .dieLinkAckTimer _ => true
  | .dieLinkNoProgress _ => true
  | .dieLinkRetrainEnd _ _ => true
  | .failoverStart _ => true
  | .failoverComplete _ => true
  | .dlkLinkRetrain _ => true
  | .forceDown _ _ => true
  | .sqTailDoorbell _ _ => true
  | .cqHeadDoorbell _ _ => true
  | .eqHeadDoorbell _ _ => true
  | .commandTake entry => entry.all (fun e => e.length == 64)
  | .completionPost _ => true
  | .completionWriteFail _ _ => true
  | .ringEnableWrite _ _ _ => true
  | .ringDrained _ => true
  | .eventPost => true
  | .cmdNop _ => true
  | .undefinedCommand _ => true
  | .identify _ => true
  | .ringCreate _ => true
  | .ringDestroy _ => true
  | .eqCreate _ => true
  | .eqDestroy _ => true
  | .chanCreate _ _ => true
  | .chanDestroy _ => true
  | .windowSet _ => true
  | .streamStart _ _ => true
  | .streamStop _ _ => true
  | .load _ _ data => data.all (fun d => decide (d.length < 2 ^ 32))
  | .store _ _ _ => true
  | .flagWrite _ => true
  | .seqFork _ => true
  | .seqRelease _ => true
  | .thermalProfile _ => true
  | .licenceInstall _ _ => true
  | .licenceQuery _ => true
  | .bar0BadAccess _ off size => !((size == 4 || size == 8) && off.toNat % size == 0)
  | .barReadTimeout _ _ => true
  | .skyWindowRead _ len => decide (0 < len ∧ len ≤ 4096)
  | .skyWindowWrite _ data => decide (0 < data.length ∧ data.length ≤ 512)
  | .registerWrite off wide _ => off.toNat % (if wide then 8 else 4) == 0
  | .sensorSample readings => readings.all (fun r => decide (r.1 < 768))
  | .sensorSilent k => decide (k < 768)
  | .sensorRearm => true
  | .quiesceDone _ => true
  | .quiesceTimeout _ => true
  | .rateRequestExpire _ => true
  | .powerSample rails _ => rails.all (fun r => decide (r.1 < 9))
  | .forecastStep hot zones => hot.all (fun h => decide (h.1 < 296)) && zones.all (fun z => decide (z.1 < 384))
  | .gatePeriod => true
  | .riseWindowEnd _ => true
  | .powerWindowEnd => true
  | .flowWindowEnd theta => decide (theta.length ≤ 4)
  | .coolantWrite _ _ => true
  | .coolantStale => true
  | .dewRisk _ => true
  | .trimStep => true
  | .vcoreUpdate _ _ => true
  | .heartbeat => true
  | .fwAliveLost => true
  | .coldReset => true
  | .sysResetNLow _ => true
  | .perstNAssert => true
  | .hotReset => true
  | .pcieLinkDown => true
  | .fullArm => true
  | .fullGo => true
  | .referenceLoss _ => true
  | .serdesUnlock _ => true
  | .fullResetRelease _ => true
  | .startupStepTimeout => true
  | .tickSyncCheck _ _ => true
  | .computeGo => true
  | .drainEnd => true
  | .heldEnd => true
  | .releaseComplete => true
  | .blockResetGo _ => true
  | .blockIdle => true
  | .blockResetRelease => true
  | .blockResetTimeout => true
  | .romStart _ => true
  | .manifest _ => true
  | .mgmtLoad => true
  | .segmentRead _ _ => true
  | .fwInit log => log.all (fun r => r.length == 64)
  | .memTest rows vaults => 
    rows.all (fun r => decide (r.1 < siteCount ∧ r.2 < 2 ^ 19)) && vaults.all (fun v => decide (v < siteCount))
  | .initFill => true
  | .rainfall _ => true
  | .rainfallPiece _ _ _ => true
  | .endMarker _ _ => true
  | .endMarkerTimeout _ => true
  | .segmentFetch _ => true
  | .fetchAttemptEnd _ _ => true
  | .fetchStageTimeout => true
  | .coreTest failed towers => failed.all (fun c => decide (c < siteCount)) && towers.all (fun t => decide (t < 4))
  | .reconcile => true
  | .bootStageTimeout => true
  | .svnArm => true
  | .svnCommit => true
  | .getVersion _ _ => true
  | .getCapabilities _ _ => true
  | .negotiateAlgorithms _ _ => true
  | .getDigests _ _ => true
  | .getCertificate _ _ => true
  | .challenge _ _ => true
  | .getMeasurements _ _ => true
  | .spdmUnsupported _ _ => true
  | .getSensorReading k => k == 1 || k == 2 || decide (7 ≤ k ∧ k ≤ 9)
  | .getStateSensorReadings k => decide (3 ≤ k ∧ k ≤ 6) || k == 10
  | .setdasa a => a != 0
  | .errorRecord => true
  | .watchdogExpire x => crashWorkOk x.work
  | .mgmtSramUncorrectable => true
  | .crashWriterTimeout => true
  | .crashRelease => true
  | .dbgStep _ => true
  | .snapshot _ _ => true
  | .traceRecord => true
  | .traceWrite => true
  | .telemetryLatch => true
  | .portTrained _ _ _ => true
  | .skyCtrlEnableWrite _ _ => true
  | .referenceRestored => true
  | .perstNDeassert => true
  | .resetStretchEnd => true
  | .vauxLoss => true
  | .hostLinkUp _ _ => true
  | .firmwarePanic h => crashWorkOk h

end Sys2Proof
end

