-- ==== Sys2Proof/Tests/Slice0.lean ====
section
/-!
SUPPORT. Tests of the model: ill-formed commands that WellFormed refuses; for every statement of Obligations.lean that
has hypotheses a state and operands that meet them all, clause by clause (theorems witness_…), most with what the spec
says the step leaves; and single steps (theorems test_…). Expected values are the spec's, by its rule or by hand.
-/
open Sys2Proof Sys2Proof.Machine
namespace Sys2Proof.Tests

set_option Elab.async false

/-- A state with fields set. -/
def fset (s : State) (fs : List (Fld × Nat)) : State := fs.foldl (fun s e => s.setF e.1 e.2) s

/-- Out of reset, every vault filled with pattern 0. -/
def s0 : State := { State.reset with fillBg := some 0, rst := { ResetSt.reset with phase := .out } }

/-- The word of an engine and opcode with its other bits. -/
def word (eng op x : Nat) : BitVec 128 := BitVec.ofNat 128 (eng * 256 + op + x)

/-- Core 0 runs, the words given at its CORE_PC. -/
def runIn (s : State) (c : Core) (ws : List (BitVec 128)) : State :=
  fset { s with cores := [(0, { c with icache := [(0, ⟨ws ++ List.replicate (8 - ws.length) 0, false⟩)] })] }
    [(Reg.coreId_enabled 0, 1), (Reg.coreStatus_state 0, csRunning), (Reg.coreStreamLen_len 0, 16)]

/-- The same from `s0`. -/
def run (c : Core) (ws : List (BitVec 128)) : State := runIn s0 c ws

/-- What a command leaves. -/
def after (c : Instr) (s : State) : State :=
  match exec c s with
  | .next t => t
  | _ => State.reset

/-- A generator of a space and base. -/
def ag (space : BitVec 2) (base : BitVec 64) : Ag := { Ag.zero with space := space, base := base }

/-- Core 0's own generators: a0 in the scratchpad at 64, a1 in its vault at 4096, a2 in the sky at vault 1. -/
def core3 : Core := { Core.reset with ags := [(0, ag 3 64), (1, ag 0 4096), (2, ag 1 (0xFFFFF * 2 ^ 44 + 2 ^ 32 + 8192))] }

/-- Every piece of an access lies in a vault of the package and its words are clean, by evaluation. -/
def cleanB (s : State) (ps : List Piece) : Bool :=
  ps.all (fun p => match p.place with
    | .vault v off => s.vaultState v != vsRetired && readStatus (s.wordsOf v off p.len) == stOk
    | .remote _ _ => false)

theorem cleanB_spec (s : State) (ps : List Piece) (h : cleanB s ps = true) : s.piecesClean ps := by
  intro p hp
  have := List.all_eq_true.1 h p hp
  cases hq : p.place with
  | vault v off =>
    simp only [hq, Bool.and_eq_true, bne_iff_ne, beq_iff_eq] at this
    exact ⟨v, off, hq, this.1, this.2⟩
  | remote n a => simp [hq] at this

/-- No two pieces meet, by evaluation. -/
def apartB : List Piece → Bool
  | [] => true
  | p :: ps => ps.all (fun q => match p.place, q.place with
      | .vault v a, .vault u b => v != u || decide (a + p.len ≤ b) || decide (b + q.len ≤ a)
      | _, _ => true) && apartB ps

theorem apartB_spec (ps : List Piece) (h : apartB ps = true) : piecesApart ps := by
  induction ps with
  | nil => exact List.Pairwise.nil
  | cons p ps ih =>
    simp only [apartB, Bool.and_eq_true, List.all_eq_true] at h
    refine List.Pairwise.cons ?_ (ih h.2)
    intro q hq v a u b hv hu
    have := h.1 q hq
    simp only [Piece.at_] at hv hu
    simp only [hv, hu, Bool.or_eq_true, bne_iff_ne, decide_eq_true_eq] at this
    omega

/-- A range of a core's scratchpad is clean, by evaluation. -/
def scratchB (s : State) (i a n : Nat) : Bool :=
  (s.core i).touch == none && (EccMem.scan scratchZero (s.core i).scratch a n).all (fun x => x.2.kind == .clean)

theorem scratchB_spec (s : State) (i a n : Nat) (h : scratchB s i a n = true) : s.scratchClean i a n := by
  simp only [scratchB, Bool.and_eq_true, beq_iff_eq, List.all_eq_true] at h
  exact h

/-- A value read from a table is one it lists or the default. -/
theorem get_all {α : Type} (d : Nat → α) (m : SMap α) (k : Nat) (p : α → Bool) (hm : m.all (fun e => p e.2) = true)
    (hd : p (d k) = true) : p (SMap.get d m k) = true := by
  induction m with
  | nil => exact hd
  | cons e m ih =>
    obtain ⟨j, w⟩ := e
    simp only [List.all_cons, Bool.and_eq_true] at hm
    have := ih hm.2
    simp only [SMap.get, SMap.find] at this ⊢
    by_cases h : k = j
    · simpa [h] using hm.1
    · simpa [h] using this

theorem zero_clean : (Codeword.zero.decode.kind == .clean) = true := by decide +kernel

theorem enc_zero_good : (Codeword.enc 0).decode.kind.bad = false := by decide +kernel

/-- Every word a scratchpad lists is clean, by evaluation. -/
def cleanScratch (s : State) (i : Nat) : Bool :=
  (s.core i).touch == none && (s.core i).scratch.all (fun e => e.2.decode.kind == .clean)

/-- Then so is every range. -/
theorem scratch_listed (s : State) (i : Nat) (h : cleanScratch s i = true) (a n : Nat) : s.scratchClean i a n := by
  simp only [cleanScratch, Bool.and_eq_true, beq_iff_eq] at h
  refine ⟨h.1, fun x hx => ?_⟩
  simp only [EccMem.scan] at hx
  split at hx
  · simp at hx
  · simp only [List.mem_map, List.mem_range] at hx
    obtain ⟨k, -, rfl⟩ := hx
    exact beq_iff_eq.1 (get_all scratchZero _ _ (fun c => c.decode.kind == .clean) (by simpa using h.2) zero_clean)

/-- A vault filled with 0, without retired rows, whose listed words are readable, by evaluation. -/
def cleanVault (s : State) (v : Nat) : Bool :=
  s.vaultState v != vsRetired && ((s.vault v).retired.isEmpty && ((s.vault v).bg == some 0 &&
    ((s.vault v).seen v).all (fun e => !e.2.decode.kind.bad)))

theorem words_good (s : State) (v : Nat) (hb : (s.vault v).bg = some 0)
    (hm : ((s.vault v).seen v).all (fun e => !e.2.decode.kind.bad) = true) (k : Nat) :
    (EccMem.word (wordDefault v (s.vault v)) ((s.vault v).seen v) k).decode.kind.bad = false := by
  have hd : (!(wordDefault v (s.vault v) k).decode.kind.bad) = true := by
    unfold wordDefault
    rw [hb]
    exact congrArg not enc_zero_good
  simpa only [Bool.not_eq_true', EccMem.word] using (get_all (wordDefault v (s.vault v)) _ k (fun c => !c.decode.kind.bad) hm hd)

theorem status_good (ws : List WordRead) (h : ∀ w ∈ ws, w.gone = false ∧ w.dec.kind.bad = false) : readStatus ws = stOk := by
  have h1 : ws.any WordRead.gone = false := List.any_eq_false.2 (fun w hw => by simp [(h w hw).1])
  have h2 : ws.any (fun w => w.dec.kind.bad) = false := List.any_eq_false.2 (fun w hw => by simp [(h w hw).2])
  unfold readStatus
  rw [h1, h2]
  rfl

theorem words_of_good (s : State) (v off n : Nat) (hr : (s.vault v).retired = [])
    (hk : ∀ k, (EccMem.word (wordDefault v (s.vault v)) ((s.vault v).seen v) k).decode.kind.bad = false) :
    ∀ w ∈ s.wordsOf v off n, w.gone = false ∧ w.dec.kind.bad = false := by
  intro w hw
  unfold State.wordsOf at hw
  split at hw
  · cases hw
  · obtain ⟨j, -, rfl⟩ := List.mem_map.1 hw
    refine ⟨?_, hk _⟩
    show (s.vault v).retired.contains _ = false
    rw [hr]
    rfl

/-- Then so is every range. -/
theorem vault_listed (s : State) (v : Nat) (h : cleanVault s v = true) (off n : Nat) :
    s.vaultState v ≠ vsRetired ∧ readStatus (s.wordsOf v off n) = stOk := by
  simp only [cleanVault, Bool.and_eq_true, beq_iff_eq, bne_iff_ne, List.isEmpty_iff] at h
  exact ⟨h.1, status_good _ (words_of_good s v off n h.2.1 (words_good s v h.2.2.1 h.2.2.2))⟩

/-- A piece of it. -/
theorem piece_listed (s : State) (v off pos n : Nat) (h : cleanVault s v = true) :
    s.piecesClean [⟨.vault v off, pos, n⟩] := by
  intro p hp
  simp only [List.mem_singleton] at hp
  subst hp
  exact ⟨v, off, rfl, vault_listed s v h off n⟩

/-! ## The queue and SYN -/

theorem witness_queue : step { s0 with pending := [.coldReset, .fullArm] } = exec .coldReset { s0 with pending := [.fullArm] } :=
  rfl

theorem test_idle_tick : (match step s0 with | .next t => t.now | _ => 0) = 1 := by decide +kernel

theorem witness_canonical : s0.regsWf = true ∧ (run core3 []).regsWf = true := by decide +kernel

theorem witness_fuses : s0.fusesFrom s0.chip.serial 0 0 0 := ⟨rfl, Nat.zero_le _, by decide, by decide⟩

theorem witness_wedged : (fset s0 [(Reg.glbState_state, 4)]).wedged = true ∧
    (after .computeGo (fset s0 [(Reg.glbState_state, 4), (Reg.rstCtrl_compute_mask, 1)])).wedged = true ∧
    (after .coldReset (fset s0 [(Reg.glbState_state, 4)])).inFullReset = true := by decide +kernel

theorem witness_nop : let s := run core3 [word 0 0 0]
    s.clear 0 (word 0 0 0) = true ∧ isOp (word 0 0 0) 0 0 = true ∧ rsvOk (word 0 0 0).toNat [] = true ∧
      (after (.nop 0 (word 0 0 0)) s).pc 0 = 16 := by decide +kernel

theorem witness_fence : let s := run core3 [word 0 2 0]
    s.clear 0 (word 0 2 0) = true ∧ rsvOk (word 0 2 0).toNat [(39, 32)] = true ∧
      (after (.fence 0 (word 0 2 0)) s).pc 0 = 16 := by decide +kernel

theorem witness_fence_holds : let w := word 0 2 (2 ^ 33)
    let s := { run core3 [w] with jobs := [Job.start 1 0 1 0 0] }
    s.canIssue 0 w = true ∧ isOp w 0 2 = true ∧ bits w.toNat 15 14 = 0 ∧ rsvOk w.toNat [(39, 32)] = true ∧
      s.engBusy 0 (fenceMask w.toNat) = true ∧ (after (.fence 0 w) s).pc 0 = 0 ∧
      ((after (.fence 0 w) s).core 0).hold = .fence 2 := by decide +kernel

theorem witness_agset_base : let w := word 0 8 (5 * 2 ^ 32 + 2 * 2 ^ 36 + 0x123 * 2 ^ 64)
    let s := run core3 [w]
    s.clear 0 w = true ∧ rsvOk w.toNat [(35, 32), (37, 36), (127, 64)] = true ∧
      ((after (.agsetBase 0 w) s).core 0).ag 5 = ag 2 0x123 := by decide +kernel

theorem witness_agset_stride : [0, 1, 2].all (fun d =>
    let w := word 0 9 (1 * 2 ^ 32 + d * 2 ^ 36 + 0xFFFFFFF0 * 2 ^ 64)
    let s := run core3 [w]
    let g := ((after (.agsetStride 0 w) s).core 0).ag 1
    s.clear 0 w && rsvOk w.toNat [(35, 32), (37, 36), (95, 64)] && bits w.toNat 37 36 == d &&
      g == (match d with
        | 0 => { ag 0 4096 with s0 := 0xFFFFFFF0 }
        | 1 => { ag 0 4096 with s1 := 0xFFFFFFF0 }
        | _ => { ag 0 4096 with s2 := 0xFFFFFFF0 })) = true := by decide +kernel

theorem witness_agadd : let w := word 0 10 (1 * 2 ^ 32 + 0xFFFFFFFF * 2 ^ 64)
    let s := run core3 [w]
    s.clear 0 w = true ∧ rsvOk w.toNat [(35, 32), (95, 64)] = true ∧
      ((after (.agadd 0 w) s).core 0).ag 1 = ag 0 4095 := by decide +kernel

theorem witness_tick : let w := word 0 0xC 0
    let s := { run core3 [w] with now := 2 }
    s.clear 0 w = true ∧ rsvOk w.toNat [(35, 32), (59, 36)] = true ∧ ((s.core 0).opnd 0 0).inScratch 8 = true ∧
      ((s.core 0).opnd 0 0).ea % 8 = 0 ∧ (after (.tick 0 w) s).scratchBytes 0 64 8 = clean [2, 0, 0, 0, 0, 0, 0, 0] := by
  decide +kernel

/-- Channel 0 holds core 0 and posts to event ring 3. -/
def chan0 : Channel := { Channel.free with gen := 1, st := .live, eq := 3, cores := [0] }

theorem witness_notify : let w := word 0 0xD (7 * 2 ^ 16 + 9 * 2 ^ 32)
    let s := { run core3 [w] with chans := [(0, chan0)] }
    s.clear 0 w = true ∧ rsvOk w.toNat [(63, 32)] = true ∧ chanOfSite s.chans 0 = some 0 ∧
      (after (.notify 0 w) s).events = [⟨3, 2, 0, 2 ^ 24, stOk, 0, 7, 9, 0⟩] := by decide +kernel

theorem witness_end : let w := word 0 1 0
    let s := { run core3 [w] with chans := [(0, chan0)] }
    s.clear 0 w = true ∧ rsvOk w.toNat [] = true ∧ (after (.endStream 0 w) s).coreState 0 = csIdle ∧
      (after (.endStream 0 w) s).events = [⟨3, 1, 0, 2 ^ 24, stOk, 0, 0, 0, 0⟩] := by decide +kernel

theorem witness_signal : [0, 1].all (fun m =>
    let w := word 0 3 (1 * 2 ^ 32 + m * 2 ^ 60 + 5 * 2 ^ 64)
    let s := run core3 [w]
    let o := (s.core 0).opnd (bits w.toNat 35 32) (sbits w.toNat 59 36)
    s.clear 0 w && rsvOk w.toNat [(35, 32), (59, 36), (61, 60), (95, 64), (103, 96)] && o.space == spGround &&
      o.ea == 4096 && s.pieceReady (towerOf 0) true ⟨.vault 0 o.ea, 0, 8⟩ && (s.vault 0).watches.isEmpty &&
      !anyPoison (s.peekVault 0 o.ea 8) && s.vaultState 0 != vsRetired &&
      !(s.vault 0).retired.contains (rowOf (physAddr (s.frameBase 0) o.ea)) &&
      s.atomicReady (towerOf 0) ⟨.vault 0 o.ea, 0, 8⟩ &&
      (after (.signal 0 w) s).peekVault 0 4096 8 == clean [5, 0, 0, 0, 0, 0, 0, 0]) = true := by decide +kernel

theorem witness_wait : [0, 1].all (fun v =>
    let w := word 0 4 (1 * 2 ^ 32 + v * 2 ^ 64 + 10 * 2 ^ 96)
    let s := run core3 [w]
    let flag := s.peekVault 0 4096 8
    let t := after (.wait 0 w) s
    s.clear 0 w && rsvOk w.toNat [(35, 32), (59, 36), (61, 60), (95, 64), (119, 96)] &&
      s.pieceReady (towerOf 0) false ⟨.vault 0 4096, 0, 8⟩ && decide ((s.vault 0).watches.length < watchMax) &&
      !anyPoison flag && s.vaultState 0 != vsRetired &&
      !(s.vault 0).retired.contains (rowOf (physAddr (s.frameBase 0) 4096)) &&
      (if v = 0 then waitHolds 0 v (leP flag) && t.pc 0 == 16
       else !waitHolds 0 v (leP flag) && t.pc 0 == 0 && (t.vault 0).watches == [⟨4096, .core 0⟩])) = true := by
  decide +kernel

/-- A REPEAT with its count, then a NOP that closes its body. -/
def loop (op x : Nat) : List (BitVec 128) := [word 0 op x, word 0 0 (2 ^ 13), word 0 0 0]

theorem witness_repeat : [0, 3].all (fun n =>
    let w := word 0 5 (n * 2 ^ 32)
    let s := run core3 (loop 5 (n * 2 ^ 32))
    let t := after (.repeatImm 0 w) s
    s.clear 0 w && s.lookBody 0 == .closes 16 && rsvOk w.toNat [(47, 32)] && (s.core 0).wordAt 32 != .poison &&
      t.pc 0 == (if n = 0 then 32 else 16) && (t.core 0).frames == (if n = 0 then [] else [⟨16, n, 0⟩])) = true := by
  decide +kernel

theorem witness_repeat_ind :
    let w := word 0 6 (64 * 2 ^ 32)
    let s := run { core3 with scratch := EccMem.write scratchZero [] 64 (clean [2, 0, 0, 0]) } (loop 6 (64 * 2 ^ 32))
    s.clear 0 w = true ∧ s.lookBody 0 = .closes 16 ∧ rsvOk w.toNat [(51, 32)] = true ∧ bits w.toNat 51 32 % 4 = 0 ∧
      (s.core 0).touch = none ∧ scratchB s 0 64 4 = true ∧ leP (s.readScratch 0 64 4).2 = 2 ∧
      ((after (.repeatInd 0 w) s).core 0).frames = [⟨16, 2, 0⟩] := by decide +kernel

theorem witness_last_of_repeat : [0, 2].all (fun k =>
    let w := word 0 0 (2 ^ 13)
    let s := fset (run { core3 with frames := [⟨16, 3, k⟩] } [0, w, 0]) [(Reg.corePc_pc 0, 16)]
    let t := after (.nop 0 w) s
    s.canIssue 0 w && rsvOk w.toNat [] && bits w.toNat 15 13 == 1 && (s.core 0).icache.all (fun l => !l.2.poison) &&
      t.pc 0 == (if k = 0 then 16 else 32) && (t.core 0).frames == (if k = 0 then [⟨16, 3, 1⟩] else []) &&
      (t.core 0).loopBuf == (if k = 0 then [(16, w)] else [])) = true := by
  decide +kernel

theorem witness_reserved : let w := word 0 0x0B 0
    let s := run core3 [w]
    s.clear 0 w = true ∧ definedOp (iEng w.toNat) (iOp w.toNat) = false ∧
      definedOp (iEng (word 8 0 0).toNat) (iOp (word 8 0 0).toNat) = false ∧
      (after (.reservedOpcode 0 w) s).getF (Reg.coreSoftErr_count 0) = 1 ∧
      (after (.reservedOpcode 0 w) s).getF (Reg.coreSoftErr_first_status 0) = stBadOpcode := by decide +kernel

/-! ## MOV -/

/-- Core 0 with bytes 1 to 16 at scratchpad address 64. -/
def bytes16 : List PByte := clean ((List.range 16).map (fun k => BitVec.ofNat 8 (k + 1)))
/-- `core3` with them. -/
def core3b : Core := { core3 with scratch := EccMem.write scratchZero [] 64 bytes16 }
/-- A word of vault 0 at offset 4096 holds 0x0807060504030201. -/
def withVault (s : State) : State := (s.writeVault 0 4096 (bytes16.take 8) false).1

theorem witness_load : let w := word 1 0 (0 + 1 * 2 ^ 36 + 12 * 2 ^ 96)
    let s := withVault (run core3 [w])
    let o := movOpnds (s.core 0) w.toNat
    let x := s.resolve 0 o.2 12 false
    (s.clear 0 w = true ∧ isOp w 1 0 = true ∧ movBad w.toNat = false ∧ bits w.toNat 116 96 = 12) ∧
      (s.core 0).touch = none ∧ o.1.inScratch 12 = true ∧
      EccMem.mergeMeetsPoison scratchZero (s.core 0).scratch o.1.ea 12 = false ∧ o.2.space ≠ spScratch ∧ x.st = stOk ∧ x.ready = true ∧
      cleanB s x.pieces = true ∧
      (after (.movLoad 0 w) s).scratchBytes 0 64 12 = bytes16.take 8 ++ clean [0, 0, 0, 0] := by decide +kernel

theorem witness_load_n : let w := word 1 3 (0 + 1 * 2 ^ 36 + 128 * 2 ^ 96 + 1 * 2 ^ 117)
    let s := withVault (run { core3 with scratch := EccMem.write scratchZero [] 128 (clean [4, 0, 0, 0]) } [w])
    let o := movOpnds (s.core 0) w.toNat
    let x := s.resolve 0 o.2 8 false
    (s.clear 0 w = true ∧ isOp w 1 3 = true ∧ movNBad w.toNat = false ∧ scratchB s 0 (bits w.toNat 115 96) 4 = true) ∧
      leP (s.scratchBytes 0 (bits w.toNat 115 96) 4) * 2 ^ bits w.toNat 119 117 = 8 ∧
      (s.core 0).touch = none ∧ o.1.inScratch 8 = true ∧
      EccMem.mergeMeetsPoison scratchZero (s.core 0).scratch o.1.ea 8 = false ∧ o.2.space ≠ spScratch ∧ x.st = stOk ∧ x.ready = true ∧
      cleanB s x.pieces = true ∧ (after (.loadN 0 w) s).scratchBytes 0 64 8 = bytes16.take 8 := by decide +kernel

theorem witness_store : let w := word 1 1 (1 + (2 ^ 32 - 1) + 0 * 2 ^ 36 + 5 * 2 ^ 96)
    let s := run core3b [w]
    let o := movOpnds (s.core 0) w.toNat
    let x := s.resolve 0 o.1 5 true
    (s.clear 0 w = true ∧ isOp w 1 1 = true ∧ movBad w.toNat = false) ∧ scratchB s 0 o.2.ea 5 = true ∧
      o.2.inScratch 5 = true ∧ o.1.space ≠ spScratch ∧ x.st = stOk ∧ x.ready = true ∧ cleanB s x.pieces = true ∧
      apartB x.pieces = true ∧
      (after (.movStore 0 w) s).peekVault 0 4096 8 = clean [1, 2, 3, 4, 5, 0, 0, 0] := by decide +kernel

theorem witness_store_n : let w := word 1 4 (2 ^ 32 + 0 * 2 ^ 36 + 128 * 2 ^ 96)
    let s := run { core3b with scratch := EccMem.write scratchZero core3b.scratch 128 (clean [8, 0, 0, 0]) } [w]
    let o := movOpnds (s.core 0) w.toNat
    let x := s.resolve 0 o.1 8 true
    (s.clear 0 w = true ∧ isOp w 1 4 = true ∧ movNBad w.toNat = false ∧ scratchB s 0 (bits w.toNat 115 96) 4 = true) ∧
      leP (s.scratchBytes 0 (bits w.toNat 115 96) 4) * 2 ^ bits w.toNat 119 117 = 8 ∧ scratchB s 0 o.2.ea 8 = true ∧
      o.2.inScratch 8 = true ∧ o.1.space ≠ spScratch ∧ x.st = stOk ∧ x.ready = true ∧ cleanB s x.pieces = true ∧
      apartB x.pieces = true ∧ (after (.storeN 0 w) s).peekVault 0 4096 8 = bytes16.take 8 := by decide +kernel

theorem witness_copy : let w := word 1 2 (1 * 2 ^ 36 + 2 * 2 ^ 32 + 8 * 2 ^ 96)
    let s := withVault (run core3 [w])
    let o := movOpnds (s.core 0) w.toNat
    let x := s.resolve 0 o.2 8 false
    let y := x.s.resolve 0 o.1 8 true
    (s.clear 0 w = true ∧ isOp w 1 2 = true ∧ movBad w.toNat = false) ∧ o.1.space ≠ spScratch ∧ o.2.space ≠ spScratch ∧
      x.st = stOk ∧ y.st = stOk ∧ x.ready = true ∧ y.ready = true ∧ cleanB s x.pieces = true ∧ cleanB s y.pieces = true ∧
      apartB y.pieces = true ∧ (after (.movCopy 0 w) s).peekVault 1 8192 8 = bytes16.take 8 := by decide +kernel

/-- A GATHER or SCATTER of two rows of 32 bytes, 64 apart in the vault from 4096 on, packed at 64, by the indices at 256. -/
def rows2 (op : Nat) : BitVec 128 :=
  word 1 op (1 * 2 ^ 36 + 3 * 2 ^ 40 + 2 * 2 ^ 48 + 32 * 2 ^ 64 + 64 * 2 ^ 96)

/-- Core 0 with the indices 1 and 0, and 64 bytes at 64. -/
def coreRows : Core := { core3 with
  ags := core3.ags ++ [(3, ag 3 256)]
  scratch := EccMem.write scratchZero (EccMem.write scratchZero [] 64 (clean ((List.range 64).map (BitVec.ofNat 8)))) 256
    (clean [1, 0, 0, 0, 0, 0, 0, 0]) }

theorem witness_gather_scatter : [false, true].all (fun write =>
    let w := rows2 (if write then 6 else 5)
    let s := withVault (run coreRows [w])
    let r := rowOps (s.core 0) w.toNat
    let xs := [some 1, some 0]
    let q := s.checkRows 0 r xs write
    let ps := q.rows.flatMap (fun x => x.2.getD [])
    let t := if write then after (.scatter 0 w) s else after (.movGather 0 w) s
    s.clear 0 w && isOp w 1 (if write then 6 else 5) && !rowBad w.toNat r && (s.rowIndices 0 r).1 == s &&
      (match (s.rowIndices 0 r).2 with | .ok ys => ys == xs | .error _ => false) &&
      scratchB s 0 r.sp.ea (2 * r.rowBytes) && q.d.st == stOk && q.ready && cleanB s ps && apartB ps &&
      (if write then t.peekVault 0 4160 4 == clean [0, 1, 2, 3] && t.peekVault 0 4096 4 == clean [32, 33, 34, 35]
       else t.scratchBytes 0 96 8 == bytes16.take 8 && t.scratchBytes 0 64 4 == clean [0, 0, 0, 0])) = true := by
  decide +kernel

theorem witness_fill : let w := word 1 7 (0x04030201 * 2 ^ 64 + 6 * 2 ^ 96 + 1 * 2 ^ 40)
    let s := run core3 [w]
    let o := (s.core 0).opnd (bits w.toNat 35 32) (sbits w.toNat 63 40)
    s.clear 0 w = true ∧ bits w.toNat 39 36 = 0 ∧ bits w.toNat 127 117 = 0 ∧ o.inScratch 6 = true ∧
      EccMem.mergeMeetsPoison scratchZero (s.core 0).scratch o.ea 6 = false ∧
      (after (.movFill 0 w) s).scratchBytes 0 64 8 = clean [0, 1, 2, 3, 4, 1, 2, 0] := by decide +kernel

theorem witness_atomic : let w := word 1 8 (1 * 2 ^ 36 + 2 ^ 100)
    let s := withVault (run core3b [w])
    let res := (s.core 0).opnd 0 0
    let tgt := (s.core 0).opnd 1 0
    let x := s.resolve 0 tgt 8 true
    s.clear 0 w = true ∧ bits w.toNat 127 101 = 0 ∧ bits w.toNat 99 96 < 8 ∧ res.inScratch 8 = true ∧ res.ea % 8 = 0 ∧
      tgt.space ≠ spScratch ∧ tgt.ea % 8 = 0 ∧ x.st = stOk ∧ x.ready = true ∧ x.pieces = [⟨.vault 0 4096, 0, 8⟩] ∧
      s.atomicReady (towerOf 0) ⟨.vault 0 4096, 0, 8⟩ = true ∧ cleanB s [⟨.vault 0 4096, 0, 8⟩] = true ∧ scratchB s 0 res.ea 8 = true ∧
      (after (.movAtomic 0 w) s).peekVault 0 4096 8 = clean [2, 4, 6, 8, 10, 12, 14, 16] ∧
      (after (.movAtomic 0 w) s).scratchBytes 0 64 8 = bytes16.take 8 := by decide +kernel

/-! ## The tile engine -/

/-- Operand bits that each instruction of layout A takes in one of the forms: none, a destination mask, TOPK's k, RND's
format, INT32 lanes, and KLOGIC's and FLAGS's mask. -/
def takenForms : List Nat :=
  [0, 2 ^ 59, 2 ^ 59 + 2 ^ 64, 2 ^ 100, 2 ^ 52, 2 ^ 32]

theorem witness_tile_complete : Claims.tileOps.all (fun x => takenForms.any (fun e =>
    let w := word 3 x.op e
    (run core3 [w]).clear 0 w && isOp w 3 x.op && x.takes w.toNat)) = true := by decide +kernel

theorem witness_tile_refused : Claims.tileOps.all (fun x =>
    let w := word 3 x.op (2 ^ 127)
    (run core3 [w]).clear 0 w && isOp w 3 x.op && (x.op == 0x41 || !x.takes w.toNat)) = true := by decide +kernel

/-- Tile 1 holds 7 in lane (0, 0), a poisoned lane (0, 1) and -3 in lane (1, 0), tile 2 the value 2 in lane (0, 0); mask 1
holds lane (0, 0), mask 2 is poisoned. -/
def tle1 : Tle :=
  { tiles := [(1, [(0, ⟨7, false, .none⟩), (1, ⟨5, true, .none⟩), (32, ⟨-3, false, .none⟩)]), (2, [(0, ⟨2, false, .none⟩)])]
    masks := [(1, ⟨1, false⟩), (2, ⟨1, true⟩)] }

/-- An ADD of INT32 lanes of tiles 1 and 2 into tile 3 under a mask. -/
def addA (mreg : Nat) (mz : Bool) : LayA := { layA 0 with td := 3, ta := 1, tb := 2, mreg := mreg, mz := mz, isInt := true }

theorem witness_lanes :
    let x := Claims.arith .add
    let t := tle1
    ((t.mask 1).at 0 0 = true ∧ x.poisoned t (addA 1 false) 0 0 = false ∧ (t.mask 1).poison = false ∧
      ((x.out t (addA 1 false) 0).t.tile 3).at 0 0 = ⟨9, false, .none⟩) ∧
    ((t.mask 0).at 0 1 = true ∧ x.poisoned t (addA 0 false) 0 1 = true) ∧
    ((t.mask 2).at 0 0 = true ∧ (t.mask 2).poison = true) ∧
    ((t.mask 1).at 1 0 = false ∧ ((x.out t (addA 1 false) 0).t.tile 3).at 1 0 = Lane.zero) ∧
    ((t.mask 1).at 1 0 = false ∧ ((x.out t { addA 1 true with td := 1 } 0).t.tile 1).at 1 0 = Lane.zero) := by
  decide +kernel

theorem test_int_lanes :
    arInt .add 0x7FFFFFFF 1 0 = (0x7FFFFFFF, .ofIsat) ∧ arInt .mul (-4) 5 0 = (-20, .none) ∧
    arInt .fma 3 4 (-20) = (-8, .none) ∧ arInt .div (-7) 2 0 = (-3, .none) ∧ arInt .div 5 0 0 = (0, .ofInv) ∧
    arInt .div 0x80000000 0xFFFFFFFF 0 = (0x7FFFFFFF, .ofIsat) ∧ absNeg false true 0x80000000 = (0x7FFFFFFF, .ofIsat) := by
  decide +kernel

theorem test_shifts : bitOp .shl 1 33 = 2 ∧ bitOp .shrl 0x80000000 31 = 1 ∧ bitOp .shra 0x80000000 31 = 0xFFFFFFFF := by
  decide +kernel

theorem test_float_lanes :
    arFloat .add false 0x3F800000 0x40000000 0 = (0x40400000, .none) ∧
    arFloat .div false 0x3F800000 0x40400000 0 = (0x3EAAAAAB, .none) ∧
    (arFloat .mul false 0x7F000000 0x7F000000 0).1 = 0x7F800000 ∧
    (arFloat .mul true 0x7F000000 0x7F000000 0).1 = 0x7F7FFFFF := by decide +kernel

theorem witness_sel_trn :
    let a : LayA := { addA 1 false with isInt := false, kd := 3, cond := 0 }
    let t := tle1
    ((t.mask a.mreg).poison = false ∧ ((tleSel t a 0).t.tile 3).at 0 0 = ⟨7, false, .none⟩ ∧
      ((tleSel t a 0).t.tile 3).at 0 1 = Lane.zero) ∧
    (((tleTrn t a).t.tile 3).at 1 0).poison = true ∧ (((tleTrn t a).t.tile 3).at 0 1).v = -3 ∧
    (a.kd ≠ 0 ∧ ((tleCmp t { a with isInt := true, cond := 1 }).t.mask 3).at 0 0 = cmpLane true 1 7 2) := by
  decide +kernel

/-- Tile 1 holds 7 and 4 in lanes (0, 0) and (0, 2), which mask 1 holds. -/
def tleR : Tle := ⟨[(1, [(0, ⟨7, false, .none⟩), (2, ⟨4, false, .none⟩)])], [(1, ⟨5, false⟩)]⟩

/-- A reduction of tile 1 under mask 1 into tile 4. -/
def redA : LayA := { addA 1 false with td := 4 }

theorem witness_reductions : (tleR.mask redA.mreg).poison = false ∧
    (((tleReduce .sum false tleR redA 0).t.tile 4).at 0 5).v = 11 := by decide +kernel

theorem test_max : (reduce .max true false [some 7, none, some 4]).1 = 7 := by decide +kernel

theorem witness_topk :
    let a : LayA := { addA 1 false with kd := 2, imm := 2 }
    let t : Tle := ⟨[(1, [(1, ⟨7, false, .none⟩), (2, ⟨4, false, .none⟩), (3, ⟨4, false, .none⟩)])], [(1, ⟨14, false⟩)]⟩
    a.kd ≠ 0 ∧ ((tleTopk t a).t.mask 2).at 0 1 = true ∧ ((tleTopk t a).t.mask 2).at 0 2 = true ∧
      ((tleTopk t a).t.mask 2).at 0 3 = false := by decide +kernel

theorem witness_kld : let w := word 3 3 (2 ^ 32)
    let s := run { core3b with tle := tle1 } [w]
    let b := layB (s.core 0) w.toNat
    let t := after (.kld 0 w) s
    s.clear 0 w = true ∧ onlyUses w.toNat useKld = true ∧ b.t ≤ 7 ∧ b.t ≠ 0 ∧ b.data.ea % 8 = 0 ∧
      b.data.inScratch 128 = true ∧ isOp w 3 3 = true ∧ scratchB s 0 b.data.ea 128 = true ∧
      ((t.core 0).tle.mask 1).m.toNat = leP (s.scratchBytes 0 64 128) := by decide +kernel

theorem witness_kst : let w := word 3 4 (2 ^ 32)
    let s := run { core3 with tle := tle1 } [w]
    let b := layB (s.core 0) w.toNat
    s.clear 0 w = true ∧ onlyUses w.toNat useKld = true ∧ isOp w 3 4 = true ∧ b.data.ea % 8 = 0 ∧
      b.data.inScratch 128 = true ∧ ((s.core 0).tle.mask b.t).poison = false ∧
      leP ((after (.kst 0 w) s).scratchBytes 0 64 128) = 1 := by decide +kernel

/-- A core whose a0 lies at 0, so that 32 rows fit. -/
def coreT : Core := { core3b with ags := [(0, ag 3 0)], tle := { tle1 with tiles := [(1, [(0, ⟨7, false, .none⟩)])] } }

theorem witness_tld : let w := word 3 1 (1 * 2 ^ 32 + 2 ^ 64 + 4 * 2 ^ 60 + 128 * 2 ^ 73)
    let s := run { coreT with scratch := [] } [w]
    let b := layB (s.core 0) w.toNat
    (s.clear 0 w = true ∧ bits w.toNat 127 117 = 0 ∧ b.ok = true ∧ ((s.core 0).tle.mask b.mreg).poison = false ∧
      isOp w 3 1 = true ∧ bits w.toNat 70 68 = 0 ∧ b.biasAuto = false ∧ cleanScratch s 0 = true) ∧
      (((after (.tld 0 w) s).core 0).tle.tile 1).at 0 0 = Lane.zero := by decide +kernel

theorem witness_tst : let w := word 3 2 (1 * 2 ^ 32 + 2 ^ 64 + 128 * 2 ^ 73)
    let s := run { coreT with scratch := [] } [w]
    let b := layB (s.core 0) w.toNat
    (s.clear 0 w = true ∧ bits w.toNat 127 117 = 0 ∧ b.ok = true ∧ ((s.core 0).tle.mask b.mreg).poison = false ∧
      isOp w 3 2 = true ∧ b.mz = false ∧ b.rowBytes ≤ b.pitch ∧ b.scaled = false ∧ cleanScratch s 0 = true) ∧ (after (.tst 0 w) s).scratchBytes 0 0 4 = clean [7, 0, 0, 0] := by decide +kernel

theorem witness_cmps : let w := word 3 0x4A (1 * 2 ^ 32 + 1 * 2 ^ 60 + 4 * 2 ^ 80)
    let s := run { core3 with tle := tle1 } [w]
    let d := (s.core 0).opnd (bits w.toNat 39 36) (sbits w.toNat 59 40)
    let m := (s.core 0).tle.mask (bits w.toNat 62 60)
    s.clear 0 w = true ∧ bits w.toNat 95 80 ≠ 0 ∧ d.ea % 8 = 0 ∧ d.inScratch (4 + 4 * bits w.toNat 95 80) = true ∧
      m.poison = false ∧ scratchB s 0 d.ea (4 + 4 * bits w.toNat 95 80) = true ∧ isOp w 3 0x4A = true ∧
      bits w.toNat 79 66 = 0 ∧ bit w.toNat 63 = false ∧ (activeLanes m).length ≤ bits w.toNat 95 80 ∧
      (activeLanes m).all (fun p => !(compressElem (s.core 0).tle (bits w.toNat 35 32) (bits w.toNat 65 64)
        (bits w.toNat 127 96) p.1 p.2).2) = true ∧
      (after (.cmps 0 w) s).scratchBytes 0 64 8 = clean [1, 0, 0, 0, 7, 0, 0, 0] := by decide +kernel

theorem witness_exps : let w := word 3 0x4B (4 * 2 ^ 32 + 1 * 2 ^ 60 + 4 * 2 ^ 80)
    let s := run { core3 with tle := tle1, scratch := EccMem.write scratchZero [] 64 (clean [1, 0, 0, 0, 9, 0, 0, 0]) } [w]
    let d := (s.core 0).opnd (bits w.toNat 39 36) (sbits w.toNat 59 40)
    s.clear 0 w = true ∧ bits w.toNat 95 80 ≠ 0 ∧ d.ea % 8 = 0 ∧ d.inScratch (4 + 4 * bits w.toNat 95 80) = true ∧
      scratchB s 0 d.ea (4 + 4 * bits w.toNat 95 80) = true ∧ isOp w 3 0x4B = true ∧ bits w.toNat 79 64 = 0 ∧
      bits w.toNat 127 96 = 0 ∧ leP (s.scratchBytes 0 d.ea 4) ≤ bits w.toNat 95 80 ∧
      ((((after (.exps 0 w) s).core 0).tle.tile 4).at 0 0).v = 9 := by decide +kernel

/-! ## The matrix array -/

/-- An entry of the array's queue, as it is queued. -/
def mmaEnt (job : Nat) (f : Option MxaFlush) : MxaEnt :=
  { job := job, sfc := 10, passes := 1, swaps := [0], rowBytes := 32, entBytes := 1, scale := 0, slot := 0, plane := 0, flush := f
    flags := .none, st := stOk, done := false }

/-- An MMA of INT8 by UINT8 on the operands from 64 and 1088 on, with zero = 1. -/
def mmaI8 : BitVec 128 := word 2 0 (16 * 2 ^ 56 + 10 * 2 ^ 72 + 11 * 2 ^ 76 + 2 ^ 82)

theorem witness_mma : let s := run { core3 with mxa := Mxa.reset.push (mmaEnt 1 none) } [mmaI8]
    let c := s.core 0
    let f := mmaF c mmaI8.toNat
    let m := Claims.mmaIn s 0 f .i8
    s.clear 0 mmaI8 = true ∧ isOp mmaI8 2 0 = true ∧ mmaCheck c f mmaI8.toNat = some .i8 ∧ c.mxa.queue.length < mxaDepth ∧
      cleanScratch s 0 = true ∧ anyPoison m.stat = false ∧ f.zero = true ∧ f.flush = false := by decide +kernel

/-- The same with a flush to the scratchpad from 2112 on, and with one to tile 3. -/
theorem witness_mma_flush : [2 ^ 83 + 2 ^ 84 + 32 * 2 ^ 93, 2 ^ 83 + 3 * 2 ^ 85].all (fun x =>
    let w := mmaI8 + BitVec.ofNat 128 x
    let s := run core3 [w]
    let f := mmaF (s.core 0) w.toNat
    s.clear 0 w && mmaCheck (s.core 0) f w.toNat == some .i8 && f.flush && f.dkind == (x != 2 ^ 83 + 3 * 2 ^ 85)) = true := by
  decide +kernel

/-- Row 3 of the stationary tile holds 5 in column 2, vector 1 holds 200 at row 3. -/
def mmaOne : MmaIn :=
  { g := .i8, sf := .int8, vf := .uint8, cplx := false, mx := false, sat := false, zero := false
    stat := clean ((List.range 1024).map (fun k => if k = 98 then 5 else 0))
    vec := clean ((List.range 1024).map (fun k => if k = 35 then 200 else 0)), scale := [] }

theorem witness_int8 : mmaOne.g = .i8 ∧ mmaOne.cplx = false ∧ mmaOne.stat.length = 1024 ∧ mmaOne.vec.length = 1024 ∧
    (mmaOne.elem 1 2 7 0).1 = (1007, .none) ∧ (mmaOne.elem 1 2 0x7FFFFFFF 0).1 = (0x7FFFFFFF, .ofIsat) ∧
    (mmaOne.elem 2 1 7 0).1 = (7, .none) := by decide +kernel

/-- 1.5 * 2 + 0.5 in binary32 by the first element of a packed E4M3 row; a third of a rounded sum stays exact. -/
theorem test_float_mma :
    (stepBlock false false id [valF .e4m3 0x3C] [valF .e4m3 0x40] (0x3F000000, .none)).1 = 0x40600000 := by decide +kernel

/-- The second MMA of a queue of two, held as it was read and with its accumulators as they were. -/
theorem test_mma_queued :
    let t := after (.mma 0 mmaI8) (run { core3 with mxa := Mxa.reset.push (mmaEnt 1 none) } [mmaI8])
    (t.core 0).mxa.queue.map MxaEnt.slot = [0, 32] ∧ (t.core 0).mxa.slots = 64 ∧ t.getF (Reg.mxaStatus_pending 0) = 2 ∧
      t.pc 0 = 16 ∧ t.jobs.length = 1 := by decide +kernel

/-- Core 0's array with an MMA queued, its row 0 loaded and fed. -/
def arr (f : Mxa → Mxa) : State :=
  let a := Mxa.reset.push (mmaEnt 1 none)
  run { core3 with mxa := f { a with rows := ⟨1, 0, 1, 0⟩ :: List.replicate 31 ⟨0, 0, 0, 0⟩ } } []

/-- No MMA of an array completes, by evaluation. -/
def noneEndsB (a : Mxa) : Bool :=
  a.queue.all (fun e => !e.done) && (match a.entAt (a.row 31).used with
    | some e => (a.row 31).used + 1 != e.slot + e.length
    | none => true)

theorem noneEndsB_spec (a : Mxa) (h : noneEndsB a = true) : Claims.noneEnds a := by
  simp only [noneEndsB, Bool.and_eq_true, List.all_eq_true, Bool.not_eq_true'] at h
  refine ⟨h.1, fun e he => ?_⟩
  have := h.2
  rw [he] at this
  simpa using this

theorem witness_array_first : [arr id, arr (fun a => { a with quiet := false, gap := 5 })].all (fun s =>
    let a := (s.core 0).mxa
    let t := after (.mmaFirstStep 0 [0] [0] [false] [false]) s
    !a.freeze.any && !a.mid && a.drain.isEmpty && noneEndsB a && a.canStart && decide (a.lead ≤ a.leadRun) &&
      ((t.core 0).mxa.row 0).used == 1 && !(t.core 0).mxa.quiet && t.getF (Reg.mxaCntStep_steps 0) == 1) = true := by
  decide +kernel

theorem witness_array_lead :
    let s := arr (fun a => { a with lead := 7, leadRun := 7 })
    let a := (s.core 0).mxa
    let t := after (.fillerLeadEnd ⟨0, [freeCycle]⟩) s
    (a.freeze.any = false ∧ a.mid = false ∧ a.drain = [] ∧ noneEndsB a = true ∧ a.canStart = true ∧ a.quiet = true ∧ a.lead ≠ 0 ∧
      a.lead ≤ a.leadRun) ∧ ((t.core 0).mxa.row 0).used = 1 := by decide +kernel

theorem witness_array_window :
    let s := run { core3 with mxa := { Mxa.reset with quiet := false, gap := 63 } } []
    let a := (s.core 0).mxa
    let t := after (.fillerWindowEnd ⟨0, [freeCycle]⟩) s
    (a.freeze.any = false ∧ a.mid = false ∧ a.drain = [] ∧ noneEndsB a = true ∧ a.canStart = false ∧ a.quiet = false ∧
      a.inGap = true ∧ a.fillerOn = true ∧ a.gap + 1 = a.window ∧ a.hist.contains true = false) ∧
      t.getF (Reg.mxaCntFiller_fillers 0) = 1 ∧ t.getF (Reg.mxaStatus_state 0) = mxQuiet := by decide +kernel

/-- Row 1 is due and not fed: the array freezes. -/
theorem witness_array_frozen :
    let s := arr (fun a => { a with quiet := false, hist := true :: a.hist.take 30 })
    let a := (s.core 0).mxa
    let t := s.arrayCycle 0 freeCycle
    (a.drain = [] ∧ noneEndsB a = true ∧ a.plan.z.any = true ∧ a.plan.z.feedDry = true) ∧
      t.getF (Reg.mxaCntFreeze_feed_dry 0) = 1 ∧ t.getF (Reg.mxaCntStep_steps 0) = 0 := by decide +kernel

/-- A row of accumulator 0 with 7 in column 3. -/
def acc7 : Acc := ⟨some true, [(3, ⟨7, false⟩)]⟩

theorem witness_drain_row : [some 5, none].all (fun d =>
    let e := mmaEnt 1 (some ⟨d, 4096, acc7, Acc.start, 0⟩)
    let s := run { core3 with mxa := { Mxa.reset with queue := [e], drain := [(1, 0)] } } []
    let t := s.drainRow 0 false
    ((s.core 0).mxa.queue.find? (fun x => x.job == 1) == some e) &&
      (if d = none then t.scratchBytes 0 4108 4 == clean [7, 0, 0, 0] else (((t.core 0).tle.tile 5).at 0 3).v == 7)) = true := by
  decide +kernel

/-! ## Bank units -/

/-- No row of a command is retired and the queue has room, by evaluation. -/
def bkuFree (s : State) (rows : List Nat) : Bool :=
  s.vaultState 0 != vsRetired && !rows.any (s.vault 0).retired.contains && decide ((s.vault 0).queue.length < bkuDepth)

/-- The operations of the commands in vault 0's queue. -/
def queued (s : State) : List BkuOp := (s.vault 0).queue.map BkuCmd.op

theorem witness_fill_copy :
    (let w := word 4 0 (1 * 2 ^ 32 + 1 * 2 ^ 60 + 0x55 * 2 ^ 64)
     let s := run core3 [w]
     let d := (s.core 0).opnd 1 0
     s.clear 0 w = true ∧ isOp w 4 0 = true ∧ d.ea % 1024 = 0 ∧ d.inGround 1024 = true ∧
       oneBank (rowsOf (s.frameBase 0) d.ea 1024) = some 4 ∧ bkuFree s (rowsOf (s.frameBase 0) d.ea 1024) = true ∧
       queued (after (.bkdFill 0 w) s) = [.fill (physAddr (s.frameBase 0) 4096) 1 0x55]) ∧
    (let w := word 4 1 (1 * 2 ^ 32 + 1 * 2 ^ 36 + 2 ^ 17 * 2 ^ 64 + 1 * 2 ^ 88)
     let s := run core3 [w]
     let d := (s.core 0).opnd 1 0
     let o := (s.core 0).opnd 1 (2 ^ 17)
     let rows := rowsOf (s.frameBase 0) d.ea 1024 ++ rowsOf (s.frameBase 0) o.ea 1024
     s.clear 0 w = true ∧ isOp w 4 1 = true ∧ bits w.toNat 127 91 = 0 ∧ d.ea % 1024 = 0 ∧ o.ea % 1024 = 0 ∧
       d.inGround 1024 = true ∧ o.inGround 1024 = true ∧ d.ea + 1024 ≤ o.ea ∧ oneBank rows = some 4 ∧
       bkuFree s rows = true ∧
       queued (after (.bkdCopy 0 w) s) = [.copy (physAddr (s.frameBase 0) 4096) (physAddr (s.frameBase 0) (4096 + 2 ^ 17)) 1]) := by
  decide +kernel

/-- Every licence. -/
def licensedAll (s : State) : State := { s with features := 7 }

theorem witness_gather_qld :
    (let w := word 4 2 (1 * 2 ^ 32 + 2 * 2 ^ 84)
     let s := licensedAll (run { core3 with scratch := EccMem.write scratchZero [] 64 (clean [0x82, 0, 0, 1, 0x81, 0, 0, 2]) } [w])
     let l := (s.core 0).opnd 0 0
     let d := (s.core 0).opnd 1 0
     let its := [(4160, 32), (4128, 64)]
     let rows := rowsOf (s.frameBase 0) d.ea 1 ++ its.flatMap (fun e => rowsOf (s.frameBase 0) e.1 e.2)
     s.clear 0 w = true ∧ isOp w 4 2 = true ∧ s.licensed licBku = true ∧ bits w.toNat 127 88 = 0 ∧ bits w.toNat 87 84 = 2 ∧
       l.ea % 4 = 0 ∧ l.inScratch 8 = true ∧ d.ea % 32 = 0 ∧ d.inGround 32 = true ∧ scratchB s 0 l.ea 8 = true ∧
       (List.range 2).map (fun m => gatherItem (leP (s.scratchBytes 0 (l.ea + 4 * m) 4))) = its.map some ∧
       oneBank rows = some 4 ∧ bkuFree s rows = true ∧
       queued (after (.bkdGather 0 w) s) = [.gather (physAddr (s.frameBase 0) 4096) (its.map (fun e => (physAddr (s.frameBase 0) e.1, e.2)))]) ∧
    (let w := word 4 8 (0 * 2 ^ 32 + 1 * 2 ^ 56 + 4 * 2 ^ 57 + 3 * 2 ^ 68 + 2 * 2 ^ 84)
     let s := licensedAll (run core3b [w])
     let q := (s.core 0).opnd 0 0
     s.clear 0 w = true ∧ isOp w 4 8 = true ∧ s.licensed licBku = true ∧ bit w.toNat 67 = false ∧ bits w.toNat 127 92 = 0 ∧
       unitsOf (bits w.toNat 91 84) (bits w.toNat 83 68) = [16, 17] ∧ q.ea % 8 = 0 ∧ q.inScratch 8 = true ∧
       scratchB s 0 q.ea 8 = true ∧ bkuFree s [] = true ∧
       queued (after (.qld 0 w) s) = [.qld 1 4 [16, 17] (bytes16.take 8)]) := by decide +kernel

/-- Vault 0 with both latches of unit 4 loaded. -/
def latched (s : State) : State :=
  s.setVault 0 { s.vault 0 with latchValid := [8, 9], latches := [(8, List.replicate 512 (0x3F80, false))] }

theorem witness_score_acc : [9, 10].all (fun op =>
    let w := word 4 op (1 * 2 ^ 32 + 4 * 2 ^ 76 + 2 * 2 ^ 81 + 4 * 2 ^ 95 + 8 * 2 ^ 105)
    let s := latched (licensedAll (run core3 [w]))
    let f := scoreF (s.core 0) w.toNat
    let rows := rowsOf (s.frameBase 0) f.m.ea (512 * (f.count - 1) + f.recBytes)
    let t := if op = 9 then after (.bkdScore 0 w) s else after (.bkdAcc 0 w) s
    s.clear 0 w && isOp w 4 op && s.licensed licBku && f.ok w.toNat && oneBank rows == some 4 && bkuFree s rows &&
      (s.vault 0).latchValid.contains (8 + f.slot) && f.woff == 0 && f.d.inScratch 16 &&
      queued t == [if op = 9 then .score (physAddr (s.frameBase 0) 4096) 4 0 2 0 4 8 64
        else .acc (physAddr (s.frameBase 0) 4096) 4 0 2 0 4 8 0 64]) = true := by decide +kernel

/-- A command in vault 0. -/
def bkc (op : BkuOp) : BkuCmd :=
  { op := op, itag := 9, job := 1, kvx := none, units := [0], cycles := 19, uncounted := 0, ends := 25, status := stOk
    writes := [], result := [] }

/-- `s0` with a job of core 0 in BKD and vault 0's queue, running commands and results. -/
def bks (q r : List BkuCmd) (res : List BkuResult) : State :=
  let s := run core3 []
  { s with now := 30, jobs := [{ Job.start 1 0 4 0 9 with left := 1 }],
           vaults := [(0, { s.vaultDefault with queue := q, running := r, results := res })] }

theorem witness_grant :
    let c := bkc (.fill 4096 1 0)
    let s := fset (bks [c] [] []) [(Reg.bkuBudget_remaining 0, 100)]
    let t := after (.bankUnitGrant 0) s
    s.bkuPick 0 = some (0, c) ∧ s.bkuGone 0 c.op = none ∧ 0 < s.bkuRemaining 0 ∧ (s.core 0).kvRun = [] ∧ (s.core 0).kvq = [] ∧ (t.vault 0).queue = [] ∧
      (t.vault 0).running.map BkuCmd.ends = [30 + vaultCycles 19] ∧ t.bkuRemaining 0 = 81 := by decide +kernel

theorem witness_end_of_command :
    let d := clean [1, 2, 3, 4, 5, 6, 7, 8]
    let c := { bkc (.fill 4096 1 0) with writes := [(4096, d)] }
    let s := bks [] [c] []
    let t := after (.bankUnitCommandEnd 0 0) s
    (s.vault 0).running[0]? = some c ∧ c.ends ≤ s.now ∧ (s.job? 1).isSome = true ∧ (s.vault 0).watches = [] ∧
      (s.vault 0).retired = [] ∧ (s.vault 0).waiting = [] ∧ (s.core 0).synq = [] ∧ (s.core 0).kvRun = [] ∧ (s.core 0).kvq = [] ∧
      anyPoison d = false ∧
      t.peekVault 0 (offsetOf (s.frameBase 0) 4096) 8 = d ∧ t.jobs = [] := by decide +kernel

theorem witness_drain :
    let r : BkuResult := { site := 0, dst := 64, data := bytes16.take 8, job := 1, itag := 9, op := 9, status := stOk,
                           kvx := none }
    let s := bks [] [] [r]
    let t := after (.bankUnitResultDrain 0) s
    (s.vault 0).results = [r] ∧ (s.job? 1).map Job.site = some 0 ∧ anyPoison r.data = false ∧ (s.core 0).touch = none ∧
      (s.core 0).hold = .none ∧ (s.core 0).synq = [] ∧ (s.core 0).kvRun = [] ∧ (s.core 0).kvq = [] ∧
      EccMem.mergeMeetsPoison scratchZero (s.core 0).scratch 64 8 = false ∧ s.coreState 0 = csRunning ∧
      t.scratchBytes 0 64 8 = bytes16.take 8 ∧ t.jobs = [] ∧ (t.vault 0).results = [] := by decide +kernel

theorem witness_window : s0.now % 1000 = 0 ∧ s0.bkuWin ≤ s0.now / 1000 := by decide

/-- 2.0 * 1.5 + 1.0 * 0.5 by bfloat16 and E4M3 codes, with a poisoned element and without. -/
theorem witness_score_of :
    let q := [(valF .bfloat16 0x4000, false), (valF .bfloat16 0x3F80, false)]
    let v := [(valF .e4m3 0x3C, false), (valF .e4m3 0x30, true)]
    q.length = v.length ∧ q.length ≤ 32 ∧ q ≠ [] ∧ scoreOf q v = (0x40600000, true) := by decide +kernel

/-! ## The key-value agent and prefix sharing -/

/-- A sky address of vault 0 of this node. -/
def here (off : Nat) : Nat := 0xFFFFF * 2 ^ 44 + off

/-- Where vault 0's frames begin. -/
def frames0 : Nat := 0x10000000

/-- Vault 0 holds a first-level entry at 0x10000, and at 0x20000 the second-level entry of page-layer 0. -/
def withTable (e2 : Nat) (s : State) : State :=
  let s := fset s [(Reg.vltMap_frame_base 0, 16)]
  let s := (s.writeVault 0 0x10000 (clean (toLE 8 (here 0x20000 + 1))) true).1
  { (s.writeVault 0 0x20000 (clean (toLE 16 e2)) true).1 with
    chans := [(0, { chan0 with windows := [(2, ⟨BitVec.ofNat 256 (3 + 256 * 2 ^ 16 + here 0x10000 * 2 ^ 64), []⟩)] })] }

/-- A stream block: window 2, one stream, E4M3 records of 32 bytes, tokens from t0 on, the pool 0. -/
def streamB (t0 nt : Nat) : List PByte :=
  clean ([2, 1, 0, 3] ++ toLE 2 32 ++ toLE 2 0 ++ toLE 2 32 ++ toLE 2 0 ++ toLE 4 t0 ++ toLE 4 nt ++ List.replicate 12 0)

/-- A core with the block at 64 and data at 256. -/
def coreK (t0 nt : Nat) (data : List PByte) : Core :=
  { core3 with scratch := EccMem.write scratchZero (EccMem.write scratchZero [] 64 (streamB t0 nt)) 256 data }

/-- A stream-form word: block at 64, destination at 512, source at 256. -/
def kvw (op : Nat) (d : Bool) (x : Bool) : BitVec 128 :=
  word 6 op ((if d then 448 * 2 ^ 56 else 0) + (if x then 192 * 2 ^ 80 else 0))

/-- The block and window of a stream form pass. -/
def streamFitsB (s : State) (w : BitVec 128) : Bool :=
  let f := Claims.kvF s 0 w.toNat
  !f.first && f.len == 0 && f.top == 0 && f.b.kvx 32 && cleanScratch s 0 && chanOfSite s.chans 0 == some 0 &&
    (Claims.streamBlk s 0 w.toNat).ok && winKind (s.window 0 (Claims.streamBlk s 0 w.toNat).window) == 3

theorem streamFitsB_spec (s : State) (w : BitVec 128) (h : streamFitsB s w = true) : Claims.streamFits s 0 w.toNat 0 := by
  simp only [streamFitsB, Bool.and_eq_true, beq_iff_eq, Bool.not_eq_true'] at h
  obtain ⟨⟨⟨⟨⟨⟨⟨h1, h2⟩, h3⟩, h4⟩, h5⟩, h6⟩, h7⟩, h8⟩ := h
  exact ⟨⟨h1, h2, h3⟩, h4, scratch_listed s 0 h5 0 _, h6, h7, h8⟩

/-- A backed page-layer with two records in vault 0's first frame. -/
def withRecords (s : State) : State :=
  let s := withTable (pteValue (here frames0) 2 false 0) s
  let s := (s.writeVault 0 frames0 (clean ((List.range 32).map (fun _ => 0x38))) false).1
  (s.writeVault 0 (frames0 + 512) (clean ((List.range 32).map (fun _ => 0x40))) false).1

theorem witness_fetch :
    let w := kvw 0 true false
    let s := withRecords (run (coreK 0 2 []) [w])
    let f := Claims.kvF s 0 w.toNat
    let k := Claims.streamBlk s 0 w.toNat
    let q := s.kvWalk 0 0 (s.window 0 2) k true
    s.clear 0 w = true ∧ isOp w 6 0 = true ∧ streamFitsB s w = true ∧ f.g = 1 ∧ k.n % 32 = 0 ∧ k.nt ≤ 256 ∧ k.pool = 0 ∧
      f.d.kvx 1024 = true ∧ k.fmt ≠ 14 ∧ f.xClear = true ∧ q.st = stOk ∧ q.ready = true ∧ cleanVault s 0 = true ∧
      (match q.s.fetchPieces 0 k.recBytes q.pages with
        | .ok ps => ps == [⟨.vault 0 frames0, 0, 32⟩, ⟨.vault 0 (frames0 + 512), 512, 32⟩] &&
            ps.all (q.s.pieceReady 0 false)
        | .error _ => false) = true ∧
      (after (.fetch 0 w) s).scratchBytes 0 543 2 = clean [0x38, 0x40] := by decide +kernel

theorem witness_kvx_score_acc : [1, 2].all (fun op =>
    let w := kvw op true true
    let ones := (List.range 32).flatMap (fun _ => clean [0x80, 0x3F])
    let s := licensedAll (withRecords (run (coreK 0 2 ones) [w]))
    let f := Claims.kvF s 0 w.toNat
    let k := Claims.streamBlk s 0 w.toNat
    let q := s.kvWalk 0 0 (s.window 0 2) k true
    let t := if op = 1 then after (.kvxScore 0 w) s else after (.kvxAcc 0 w) s
    s.clear 0 w && isOp w 6 op && streamFitsB s w && s.licensed licBku && f.g == 1 && k.pool == 0 && q.st == stOk && q.ready &&
      (match q.pages with
        | [p] => p.count == k.nt && p.slot == 0 && p.tok == 0 && s.ownFrame 0 (pteFrame p.e2) == some frames0
        | _ => false) && decide (s.frameBase 0 ≤ frames0) && s.vaultState 0 != vsRetired && (s.vault 0).retired == [] &&
      f.d.kvx 128 && f.x.kvx 64 && t.pc 0 == 16 && (t.core 0).kvRun.length == 1) = true := by decide +kernel

/-- The last result of a SCORE, or ACC, of one head, two tokens and two elements at vault 0. -/
theorem witness_kvx_results : [false, true].all (fun acc =>
    let r : BkuResult := { site := 0, dst := 0, data := clean (toLE 4 0x42000000 ++ toLE 4 0x42800000), job := 1, itag := 9
                           op := 9, status := stOk, kvx := some (0, 7) }
    let j := { Job.start 1 0 6 1 9 with left := 1, fin := .absorb acc 512 1 2 2 [] [4] }
    let s := run { core3 with kvRun := [1] } []
    let s := { s with jobs := [j], vaults := [(0, { s.vaultDefault with results := [r], latchValid := [9] })] }
    let t := after (.bankUnitResultDrain 0) s
    (s.vault 0).results == [r] && s.job? 1 == some j && (s.core 0).hold == .none && s.coreState 0 == csRunning &&
      !anyPoison r.data && (s.core 0).touch == none && !EccMem.mergeMeetsPoison scratchZero (s.core 0).scratch 512 8 &&
      t.jobs == [] && (t.vault 0).latchValid == [] && t.scratchBytes 0 512 8 == r.data) = true := by decide +kernel

/-- A core in the middle of a SCORE hands its commands to the vault's queue (08 R303). -/
theorem test_kvx_feed :
    let cs := (List.range 20).map (fun k => (⟨.qld 1 1 [4] [], [4], k, 0⟩ : KvCmd))
    let j := { Job.start 1 0 6 1 9 with left := 20, fin := .absorb false 512 1 2 2 cs [4] }
    let t := { run { core3 with kvRun := [1] } [] with jobs := [j] }.kvFeed 0
    (t.vault 0).queue.length = 16 ∧ t.jobs.map Job.left = [20] := by decide +kernel

/-- Scores 1.0 and 2.0 of a head that starts, scaled by 1: the weight of the larger is 1. -/
theorem test_smax : let r := smaxHead Head.start fOne [0x3F800000, 0x40000000]
    r.1.m = 0x40000000 ∧ r.1.seen = true ∧ r.2.getD 1 0 = 0x3F80 := by decide +kernel

theorem test_merge_fin : mergeRow { Head.start with alpha := 0x40000000 } false [0x3F800000] [0x3F800000] = [0x40400000] ∧
    (finHead { Head.start with seen := true, l := 0x40000000 } [0x3F800000]).2 = [0x3F000000] ∧
    (finHead Head.start [0x3F800000]).1.masked = true := by decide +kernel

/-- A softmax word: state block at 64 (scale 1), destination at 512, source at 256, rows of two. -/
def smw (op : Nat) (x : Bool) : BitVec 128 :=
  word 6 op (448 * 2 ^ 56 + (if x then 192 * 2 ^ 80 else 0) + 2 * 2 ^ 105)

theorem witness_softmax : [4, 5, 6, 7].all (fun op =>
    let w := smw op (op != 7)
    let s := run { core3 with scratch := EccMem.write scratchZero [] 64 (clean (toLE 4 0x3F800000)) } [w]
    let f := Claims.kvF s 0 w.toNat
    s.clear 0 w && isOp w 6 op && cleanScratch s 0 && f.g == 1 && f.top == 0 && f.len == 2 && !f.first && f.b.kvx 32 &&
      scaleOk (word32 (s.scratchBytes 0 64 32) 0) && f.d.kvx 8 && f.x.kvx (if op = 7 then 0 else 40) && (op != 7 || f.xClear)) =
    true := by decide +kernel

theorem witness_append :
    let w := kvw 8 false true
    let s := withTable (pteValue (here frames0) 2 false 0) (run (coreK 2 1 (clean ((List.range 32).map (fun _ => 7)))) [w])
    let f := Claims.kvF s 0 w.toNat
    let k := Claims.streamBlk s 0 w.toNat
    let q := s.kvWalk 0 0 (s.window 0 2) k false
    let t := after (.append 0 w) s
    s.clear 0 w = true ∧ isOp w 6 8 = true ∧ streamFitsB s w = true ∧ f.g = 1 ∧ k.nt ≤ 256 ∧ k.pool % 64 = 0 ∧
      f.dClear = true ∧ f.x.kvx 32 = true ∧ winReadOnly (s.window 0 2) = false ∧ q.st = stOk ∧ q.ready = true ∧
      (match q.pages with
        | [p] => p.count == k.nt && p.tok == 0 && p.slot == fillOf p.e2 && !needsFrame p.e2 &&
            pteFrame p.e2 == here frames0 && p.at_ == here 0x20000
        | _ => false) = true ∧
      (s.placeOf 0 (here frames0)).toOption = some (.vault 0 frames0) ∧
      (s.placeOf 0 (here 0x20000)).toOption = some (.vault 0 0x20000) ∧ cleanVault s 0 = true ∧
      s.pieceReady 0 true ⟨.vault 0 frames0, 0, 8⟩ = true ∧ s.pieceReady 0 true ⟨.vault 0 0x20000, 0, 8⟩ = true ∧
      (s.vault 0).running = [] ∧ (s.vault 0).wbuf.all (fun e => e.merge == none) = true ∧
      t.peekVault 0 (frames0 + 1024) 8 = clean (List.replicate 8 7) ∧
      leP (t.peekVault 0 0x20000 16) = pteValue (here frames0) 3 false 0 := by decide +kernel

/-- The prefix block at 256 and the tokens, zeros, at 512; desc names vault 0 from 0x40000 on. -/
def corePx (op : Nat) : Core := coreK 0 256 (clean (List.replicate 24 0 ++ toLE 8 (if op = 16 then 0 else here 0x40000)))

/-- LINK or PUBLISH with the block at 64, the prefix block at 256, the tokens at 512. -/
def pxw (op : Nat) : BitVec 128 := word 6 op (192 * 2 ^ 56 + 448 * 2 ^ 80)

theorem witness_link_publish : [16, 17].all (fun op =>
    let w := pxw op
    let s := withTable (if op = 16 then 0 else pteValue (here frames0) 256 false 0) (run (corePx op) [w])
    let f := Claims.kvF s 0 w.toNat
    let k := Claims.streamBlk s 0 w.toNat
    let q := s.pageWalk 0 (s.window 0 2) k (op == 17)
    s.clear 0 w && isOp w 6 op && streamFitsB s w && f.g == 1 && k.t0 == 0 && k.nt == 256 && k.pool == 0 && f.d.kvx 64 &&
      f.x.kvx 1024 && q.st == stOk && q.ready &&
      (if op = 16 then q.pages.all (fun p => !pteValid p.e2)
       else q.pages.all (fun p => pteFill p.e2 == 256 && !pteShared p.e2) &&
        leP (s.scratchBytes 0 280 8) == here 0x40000 && here 0x40000 % 64 == 0 && skyOk (here 0x40000) &&
        (s.placeOf 0 (here 0x40000)).toOption == some (.vault 0 0x40000) && cleanVault s 0 &&
        s.pieceReady 0 true ⟨.vault 0 0x40000, 0, 8⟩ && (s.vault 0).running == [] &&
        (s.vault 0).wbuf.all (fun e => e.merge == none))) = true := by decide +kernel

/-- A request of job 1 at core 0 of a page of zeros, one stream. -/
def ask0 : PfxAsk :=
  { job := 1, site := 0, streams := 1, domain := 0, parent := List.replicate 16 0, mtag := List.replicate 8 0
    tokens := List.replicate 8 0, desc := here 0x40000, block := 256, ents := [(here 0x20000, 0)] }

/-- The directory is on, with a queue, entries and reclaimed ones. -/
def pxs (q : List PfxArrival) (es : SMap (BitVec 256)) (rec_ : List Nat) : State :=
  { fset (run core3 []) [(Reg.pfxCtrl_enable, 1), (Reg.dlkLinkStatus_state 0, lkActive)] with
    pfx := ⟨es, [], q, rec_⟩, jobs := [{ Job.start 1 0 6 16 9 with left := 1 }] }

theorem witness_publish_request :
    let s := pxs [⟨0, 0, .publish ask0⟩] [] []
    s.on Reg.rasInject_arm = false ∧ s.asker = none ∧ s.tables = [] ∧ s.on Reg.pfxCtrl_enable = true ∧
      s.pfx.match_ (pageKey ask0) 0 = none ∧
      ((({ s with pfx := { s.pfx with queue := [] } }).incWrap Reg.pfxCntLookup_requests 1).skyWrite hostSite 0
        (ask0.desc + 16) (clean (pageKey ask0)) false).ready = true ∧
      (s.pfx.freeWay (pageKey ask0)).isSome = true ∧ ask0.desc < 2 ^ 64 ∧ (pageKey ask0).length = 16 := by decide +kernel

/-- The same page with its 1,024 token bytes, and the first way of its set. -/
def askL : PfxAsk := { ask0 with tokens := List.replicate 1024 0 }
/-- See `askL`. -/
def wayL : Nat := setBase (pageKey askL)

/-- The directory holds the page in that way with one reference, vault 0 its descriptor. -/
def pxL : State :=
  let s := pxs [⟨0, 0, .link askL⟩] [(wayL, BitVec.ofNat 256 (peNew (leNat (pageKey askL)) (here 0x40000) 1 0 true))] []
  (s.writeVault 0 0x40000 (clean (descHead askL)) false).1

theorem witness_link_request :
    let c := (({ pxL with pfx := { pxL.pfx with queue := [] } }).incWrap Reg.pfxCntLookup_requests 1).pfxCompare askL wayL
    pxL.pfx.queue = [⟨0, 0, .link askL⟩] ∧ pxL.on Reg.pfxCtrl_enable = true ∧ pxL.pfx.match_ (pageKey askL) 0 = some wayL ∧
      c.ready = true ∧ c.same = true ∧ c.streams = true ∧ peRefs (pxL.pfx.entry wayL) = 1 ∧ pxL.pfx.match_ (pageKey askL) 1 = none ∧
      peRefs ((after .prefixLinkRequest pxL).pfx.entry wayL) = 2 := by decide +kernel

theorem witness_release : [1, 2].all (fun n =>
    let s := pxs [⟨0, 4, .release 5⟩] [(5, BitVec.ofNat 256 (peNew 3 0 n 0 true))] []
    let t := after .prefixRelease s
    !s.on Reg.rasInject_arm && !s.pfx.dead.contains 5 && peState (s.pfx.entry 5) == pfxLive && peRefs (s.pfx.entry 5) == n &&
      peRefs (t.pfx.entry 5) == n - 1 && t.pfx.reclaim == (if n = 1 then [5] else []) && t.pfx.queue == []) = true := by
  decide +kernel

theorem witness_reclaim :
    let s := pxs [] [(5, BitVec.ofNat 256 (peNew 3 0 0 0 true))] [5]
    s.pfx.reclaim = [5] ∧ bit (0x40000000#32).toNat 30 = true ∧ (after (.pfxReclaimRelease 0x40000000) s).pfx.reclaim = [] ∧
      (after (.pfxReclaimRelease 0x40000000) s).pfx.entry 5 = 0 := by decide +kernel

/-! ## Stage queues and the fabric engine -/

/-- A near operand of core 0 is clean and can be used now, by evaluation. -/
def nearB (s : State) (o : Opnd) (n : Nat) (write : Bool) : Bool :=
  cleanScratch s 0 && o.near n && s.nearReady 0 o n write && (o.space == spScratch || cleanVault s 0)

theorem nearB_spec (s : State) (o : Opnd) (n : Nat) (write : Bool) (h : nearB s o n write = true) :
    Claims.nearOk s 0 o n write := by
  simp only [nearB, Bool.and_eq_true, Bool.or_eq_true, beq_iff_eq] at h
  obtain ⟨⟨⟨h1, h2⟩, h3⟩, h4⟩ := h
  exact ⟨scratch_listed s 0 h1 0 _, h2, h3, fun hs => piece_listed s 0 o.ea 0 n (h4.resolve_left hs)⟩

/-- Core 0 with generators at scratchpad 64, 256, 512, 1024 and at its own queue (9), and bytes at the first four. -/
def coreQ (b0 b1 b2 b3 : List PByte) : Core :=
  { Core.reset with
    ags := [(0, ag 3 64), (1, ag 3 256), (2, ag 3 512), (3, ag 3 1024), (9, ag 1 (BitVec.ofNat 64 (here 0)))]
    scratch := [(64, b0), (256, b1), (512, b2), (1024, b3)].foldl (fun m e => EccMem.write scratchZero m e.1 e.2) [] }

/-- The same answer, where both are answers. -/
def queueIs (x : Except Nat (Bool × Nat)) (y : Bool × Nat) : Bool :=
  match x with
  | .ok z => z == y
  | .error _ => false

theorem witness_push : let w := word 7 0 (9 * 2 ^ 36 + 16 * 2 ^ 40 + 77 * 2 ^ 56)
    let s := run (coreQ bytes16 [] [] []) [w]
    let ops := engOps (s.core 0) w.toNat
    let t := after (.push 0 w) s
    s.clear 0 w = true ∧ cleanScratch s 0 = true ∧ isOp w 7 0 = true ∧ bits w.toNat 127 72 = 0 ∧
      bits w.toNat 55 40 % 8 = 0 ∧ (s.core 0).sq = [] ∧ s.sender? 0 7 = none ∧ (opAt ops 0).inScratch 16 = true ∧
      (opAt ops 1).space = spSky ∧ badQueue (opAt ops 1).ea = false ∧ bits (opAt ops 1).ea 63 44 = 0xFFFFF ∧
      queueIs (s.queueAt 0 (opAt ops 1).ea) (false, 0) = true ∧
      t.senders.map Sender.header = [bundleHeader 2 77 (s.vidOf 0)] ∧
      t.senders.map Sender.words = [[(0x0807060504030201, false), (0x100F0E0D0C0B0A09, false)]] := by decide +kernel

/-- A dispatch block: base and flag in vault 0, pitch and source pitch 32, rows by index. -/
def dispatch0 : List PByte :=
  clean (toLE 8 (here 0x8000) ++ toLE 8 (here 0x9000) ++ toLE 4 32 ++ toLE 4 0 ++ toLE 4 32 ++ [1, 0, 0, 0])

theorem witness_tsend : let w := word 5 0x10 (1 * 2 ^ 36 + 2 * 2 ^ 40 + 3 * 2 ^ 44 + 32 * 2 ^ 48 + 5 * 2 ^ 64)
    let s := run (coreQ (clean (toLE 8 (here 0))) (clean (toLE 4 1 ++ toLE 4 1)) (clean (List.replicate 64 9)) dispatch0) [w]
    let ops := engOps (s.core 0) w.toNat
    let d := Dispatch.parse (s.scratchBytes 0 1024 32)
    let t := after (.tsend 0 w) s
    s.clear 0 w = true ∧ isOp w 5 0x10 = true ∧ (s.core 0).fmv = [] ∧ s.sender? 0 5 = none ∧ bits w.toNat 127 80 = 0 ∧
      rowOk 32 = true ∧ (opAt ops 0).inScratch 8 = true ∧ (opAt ops 1).inScratch 4 = true ∧
      (opAt ops 3).inScratch 32 = true ∧ (opAt ops 2).space = spScratch ∧ leP (s.scratchBytes 0 256 4) = 1 ∧
      d.ok (s.scratchBytes 0 1024 32) = true ∧ badQueue (leP (s.scratchBytes 0 64 8)) = false ∧
      queueIs (s.queueAt 0 (leP (s.scratchBytes 0 64 8))) (false, 0) = true ∧
      nearB s { opAt ops 2 with ea := 512 + 32 } 32 false = true ∧
      t.senders.map (fun x => x.words.length) = [9] := by decide +kernel

/-- A bundle of core 0's queue, by its payload words. -/
def bundle0 (utag : Nat) (ws : List (BitVec 64)) : Bundle :=
  { id := ⟨3, 7, 0⟩, header := bundleHeader ws.length utag 3, bank := 0, pos := 0
    words := (List.range ws.length).map (fun k => (k, ⟨ws.getD k 0, false, true⟩)), lost := false, lastWord := 0
    remote := false }

/-- Core 0's queue is open with a bundle in it. -/
def withBundle (s : State) (b : Bundle) : State :=
  fset { s with queues := [(0, { StageQueue.reset with resident := [b] })] } [(Reg.sqStatus_state 0, sqOpen)]

/-- The head bundle and its operands pass, by evaluation. -/
def popB (s : State) (f : PopF) (pop : Bool) (b : Bundle) : Bool :=
  f.ok pop && (s.core 0).sq == [] && (s.sender? 0 7).isNone && s.sqState 0 == sqOpen && (s.queue 0).resident == [b] &&
    b.words.map Prod.fst == List.range b.size && b.words.all (fun x => x.2.parityOk && !x.2.poison) && !s.on (Reg.sqInject_arm 0) &&
    !s.injected 3 0 && nearB s f.d (if pop then f.max else f.cap * f.rb) true

theorem witness_pop : let w := word 7 1 (2 * 2 ^ 32 + 1 * 2 ^ 36 + 16 * 2 ^ 40 + 9 * 2 ^ 56)
    let b := bundle0 7 [0x0807060504030201]
    let s := withBundle (run (coreQ [] [] [] []) [w]) b
    let f := popF w.toNat (engOps (s.core 0) w.toNat)
    let t := after (.pop 0 w) s
    s.clear 0 w = true ∧ isOp w 7 1 = true ∧ popB s f true b = true ∧ f.d.ea + f.max ≤ 1024 ∧ f.h.ea + 16 ≤ f.d.ea ∧
      8 * b.size ≤ f.max ∧ t.scratchBytes 0 512 8 = bytes16.take 8 ∧
      t.scratchBytes 0 256 16 = clean (toLE 8 b.header.toNat ++ toLE 4 8 ++ toLE 4 0) ∧ (t.queue 0).resident = [] := by
  decide +kernel

/-- A token bundle of one row of 32 bytes. -/
def tokens1 : Bundle :=
  bundle0 7 [1, BitVec.ofNat 64 (here 0x8000), BitVec.ofNat 64 (here 0x9000), 32, 5, 0x1111, 0x2222, 0x3333, 0x4444]

theorem witness_popa : let w := word 7 2 (1 * 2 ^ 32 + 2 * 2 ^ 36 + 32 * 2 ^ 48 + 2 * 2 ^ 64 + 3 * 2 ^ 80 + 9 * 2 ^ 88)
    let s := withBundle (run (coreQ [] [] [] []) [w]) tokens1
    let f := popF w.toNat (engOps (s.core 0) w.toNat)
    let p := Claims.payload tokens1
    let t := after (.popa 0 w) s
    s.clear 0 w = true ∧ isOp w 7 2 = true ∧ popB s f false tokens1 = true ∧ f.h.ea + f.areaBytes ≤ f.d.ea ∧
      f.append = false ∧ 0 < f.segCap ∧ p.length = 32 + 8 * ceilDiv 1 2 + 1 * f.rb ∧ leP (p.take 4) = 1 ∧ 1 ≤ f.cap ∧
      t.scratchBytes 0 256 8 = clean [1, 0, 0, 0, 1, 0, 0, 0] ∧
      t.scratchBytes 0 264 8 = clean (List.replicate 8 0) ∧ t.scratchBytes 0 512 8 = clean [0x11, 0x11, 0, 0, 0, 0, 0, 0] ∧ (t.queue 0).resident = [] := by decide +kernel

/-- A gather area at 256 of three segments, one filled: a row for slot 5 of vault 0 from 0x8000 on, flag at 0x9000. -/
def area0 : List PByte :=
  clean (toLE 4 1 ++ toLE 4 1 ++ toLE 8 0 ++ toLE 4 0 ++ toLE 4 1 ++ toLE 8 (here 0x8000) ++ toLE 8 (here 0x9000) ++
    toLE 4 32 ++ toLE 4 0 ++ List.replicate 64 0 ++ toLE 4 1 ++ toLE 4 5)

theorem witness_reply : let w := word 5 0x11 (1 * 2 ^ 32 + 2 * 2 ^ 36 + 32 * 2 ^ 48)
    let c := coreQ [] area0 (clean (List.replicate 32 7)) []
    let s := run { c with areas := [(256, 3)] } [w]
    let ops := engOps (s.core 0) w.toNat
    let ps : List Piece := [⟨.vault 0 0x9000, 0, 8⟩, ⟨.vault 0 (0x8000 + 160), 0, 32⟩]
    let t := after (.reply 0 w) s
    s.clear 0 w = true ∧ isOp w 5 0x11 = true ∧ cleanScratch s 0 = true ∧ (s.core 0).fmv = [] ∧ s.sender? 0 5 = none ∧
      bits w.toNat 47 40 = 0 ∧ bits w.toNat 127 64 = 0 ∧ (opAt ops 0).inScratch 20 = true ∧ leP (s.scratchBytes 0 260 4) = 1 ∧
      leP (s.scratchBytes 0 (256 + 16 + 96) 4) = 1 ∧ nearB s (opAt ops 1) 32 false = true ∧
      (opAt ops 1).space = spScratch ∧ skyRoom (here 0x9000) 8 = true ∧
      (s.placeOf 0 (here 0x9000)).toOption = some (.vault 0 0x9000) ∧ skyRoom (here (0x8000 + 160)) 32 = true ∧
      (s.placeOf 0 (here (0x8000 + 160))).toOption = some (.vault 0 (0x8000 + 160)) ∧ cleanVault s 0 = true ∧
      apartB ps = true ∧ ps.all (s.pieceReady 0 true) = true ∧ s.atomicReady 0 ⟨.vault 0 0x9000, 0, 8⟩ = true ∧
      t.peekVault 0 (0x8000 + 160) 8 = clean (List.replicate 8 7) ∧ t.peekVault 0 0x9000 8 = clean [1, 0, 0, 0, 0, 0, 0, 0] := by
  decide +kernel

/-- PUT, GET and PUTF words: near operand a0, far operand a8 in vault 0 at 0x5000, flag a9 at 0x9000, 8 bytes. -/
def bulkW (op : Nat) : BitVec 128 :=
  word 5 op (match op with
    | 0 => 8 * 2 ^ 32 + 0 * 2 ^ 36 + 8 * 2 ^ 48
    | 1 => 0 * 2 ^ 32 + 8 * 2 ^ 36 + 8 * 2 ^ 48
    | _ => 8 * 2 ^ 32 + 0 * 2 ^ 36 + 9 * 2 ^ 40 + 8 * 2 ^ 48 + 3 * 2 ^ 73)

theorem witness_put_get_putf : [0, 1, 2].all (fun op =>
    let w := bulkW op
    let c := { core3b with ags := [(0, ag 3 64), (8, ag 1 (BitVec.ofNat 64 (here 0x5000))), (9, ag 1 (BitVec.ofNat 64 (here 0x9000)))] }
    let s := run c [w]
    let ops := engOps (s.core 0) w.toNat
    let far := opAt ops (if op = 1 then 1 else 0)
    let x := s.resolve 0 far 8 (op != 1)
    let y := x.s.resolve 0 (opAt ops 2) 8 true
    let t := if op = 0 then after (.put 0 w) s else if op = 1 then after (.get 0 w) s else after (.putf 0 w) s
    s.clear 0 w && cleanScratch s 0 && (s.core 0).fmv == [] && (s.sender? 0 5).isNone && isOp w 5 op &&
      !bulkBad w.toNat (op == 2) && far.space == spSky && nearB s (opAt ops (if op = 1 then 0 else 1)) 8 (op == 1) &&
      x.st == stOk && x.ready && x.pieces == [⟨.vault 0 0x5000, 0, 8⟩] && cleanVault s 0 &&
      (op != 2 || (!badFlag (opAt ops 2) && y.st == stOk && y.ready && y.pieces == [⟨.vault 0 0x9000, 0, 8⟩] &&
        y.s.atomicReady 0 ⟨.vault 0 0x9000, 0, 8⟩)) &&
      (if op = 1 then t.scratchBytes 0 64 8 == clean (List.replicate 8 0)
       else t.peekVault 0 0x5000 8 == bytes16.take 8) &&
      (op != 2 || t.peekVault 0 0x9000 8 == clean [3, 0, 0, 0, 0, 0, 0, 0])) = true := by decide +kernel

/-! ## The core from outside its stream -/

/-- Core 0 in a state, in live channel 0. -/
def coreIn (st : Nat) (c : Core) : State :=
  fset { run c [word 0 0 0] with chans := [(0, chan0)] } [(Reg.coreStatus_state 0, st)]

theorem witness_core_control :
    (let s := coreIn csIdle core3b
     let t := after (.coreCtrlStart 0) s
     s.locked 0 = false ∧ s.coreOn 0 = true ∧ s.coreState 0 = csIdle ∧ s.liveChan 0 = some 0 ∧
       streamOk (s.streamBase 0) (s.streamLen 0) = true ∧ t.coreState 0 = csRunning ∧ (t.core 0).ags = [] ∧
       (t.core 0).scratch = (s.core 0).scratch) ∧
    (let s := coreIn csRunning { core3b with hold := .fence 2 }
     s.locked 0 = false ∧ (s.core 0).hold = .fence 2 ∧ (after (.coreCtrlStop 0) s).coreState 0 = csBreak ∧
       ((after (.coreCtrlStop 0) s).core 0).hold = .none) ∧
    (let s := coreIn csBreak core3b
     s.locked 0 = false ∧ (s.core 0).wordAt (s.pc 0) = .word (word 0 0 0) ∧
       (after (.coreCtrlResume 0) s).coreState 0 = csRunning ∧ ((after (.coreCtrlResume 0) s).core 0).noBreak = true) := by
  decide +kernel

theorem witness_icache : [false, true].all (fun fail =>
    let c := { core3 with icache := if fail then [(0, ⟨List.replicate 8 1, false⟩)] else [] }
    let s := (fset { s0 with cores := [(0, c)] }
      [(Reg.coreId_enabled 0, 1), (Reg.coreStatus_state 0, csRunning), (Reg.coreStreamLen_len 0, 16)]).writeVault 0 0 bytes16 false
    let s := s.1
    let t := after (.icacheLineFill 0 0 fail 5) s
    s.coreState 0 == csRunning && !(s.core 0).pastEnd && decide (0 < s.streamEnd 0) && (SMap.find (s.core 0).icache 0).isSome == fail &&
      (fail || (s.core 0).victimOk 0 5) && s.readReady 0 0 128 && s.vaultState 0 != vsRetired &&
      (s.wordsOf 0 0 128).all (fun x => !x.gone && x.dec.kind == .clean) && (s.core 0).wordAt (s.pc 0) != .poison &&
      !s.injected 2 0 && (SMap.find (t.core 0).icache 0) == some (lineOf (bytes16 ++ clean (List.replicate 112 0))) &&
      t.getF (Reg.coreIcStat_misses 0) == (if fail then 0 else 1) &&
      t.getF (Reg.coreIcStat_parity_refetch 0) == (if fail then 1 else 0)) = true := by decide +kernel

theorem witness_breakpoint : let w := word 0 0 (5 * 2 ^ 16)
    let s := fset (run core3 [w]) [(Reg.coreCtrl_tag_brk_enable 0, 1), (Reg.coreBrkTag_tag 0, 5), (Reg.coreBrkTag_mask 0, 0xFF)]
    s.atWord 0 w = true ∧ (s.core 0).noBreak = false ∧ s.breakHit 0 w.toNat = true ∧
      (after (.breakpointStop 0) s).coreState 0 = csBreak ∧ (after (.breakpointStop 0) s).pc 0 = 0 := by decide +kernel

theorem witness_overrun : let s := fset (run core3 []) [(Reg.corePc_pc 0, 256)]
    s.coreState 0 = csRunning ∧ (s.core 0).hold = .none ∧ s.atEnd 0 = true ∧
      (after (.streamOverrun 0) s).coreState 0 = csFaulted ∧
      (after (.streamOverrun 0) s).getF (Reg.coreFaultStatus_status 0) = stStreamOverrun ∧
      (after (.streamOverrun 0) s).getF (Reg.coreFaultAddr_addr 0) = s.streamEnd 0 := by decide +kernel

theorem witness_channel_fault : let s := { run core3 [] with chans := [(0, { chan0 with st := .faulted })] }
    chanOfSite s.chans 0 = some 0 ∧ (s.chan 0).st = .faulted ∧ s.coreState 0 = csRunning ∧ (s.core 0).hold = .none ∧
      (after (.channelFaultStop 0) s).getF (Reg.coreFaultStatus_status 0) = stChannelFaulted := by decide +kernel

/-- A WAIT for the flag at 4096 of vault 0 to be 1 (or 9 of a remote vault). -/
def wait0 (remote armed : Bool) : WaitSt :=
  { addr := 4096, space := 0, remote := remote, vid := if remote then 2 ^ 12 else 0, off := 4096, cmp := 0, value := 1
    deadline := 100, seen := 0, armed := armed, highest := 4, itag := 7, nextTry := 0 }

theorem witness_wait_timeout : let s := { run { core3 with hold := .wait (wait0 false true) } [] with now := 100 }
    let t := after (.waitTimeout 0) s
    s.waiting 0 = some (wait0 false true) ∧ (wait0 false true).deadline ≤ s.now ∧ t.coreState 0 = csFaulted ∧
      t.getF (Reg.coreFaultStatus_status 0) = stWaitTimeout ∧ t.getF (Reg.coreFaultInfo_expected 0) = 1 := by decide +kernel

/-- A POP that waits, past its deadline. -/
def pop0 : EngIns := { w := word 7 1 (7 * 2 ^ 16), ops := [], job := 1, deadline := 20, begun := false, copied := 0, st := stOk, block := [] }

theorem witness_pop_timeout : let s := { run { core3 with sq := [pop0] } [] with now := 20, jobs := [{ Job.start 1 0 7 1 7 with left := 1 }] }
    let t := after (.popTimeout 0) s
    (s.core 0).sq = [pop0] ∧ iOp pop0.w.toNat ≠ 0 ∧ pop0.begun = false ∧ pop0.deadline ≤ s.now ∧
      (s.job? 1).map (fun j => (j.site, j.engine, j.itag)) = some (0, 7, 7) ∧ s.coreState 0 = csRunning ∧
      (s.core 0).hold = .none ∧ (s.core 0).synq = [] ∧ t.coreState 0 = csFaulted ∧
      t.getF (Reg.coreFaultStatus_engine 0) = 7 ∧ (t.core 0).sq = [] := by decide +kernel

theorem witness_rearm : let s := { run { core3 with hold := .wait (wait0 false false) } [] with now := 50 }
    let t := after (.waitRearm 0) s
    s.waiting 0 = some (wait0 false false) ∧ s.readReady 0 4096 8 = true ∧ (s.vault 0).watches.length < watchMax ∧
      cleanVault s 0 = true ∧ (t.core 0).hold = .wait { wait0 false true with seen := 0 } ∧
      t.getF (Reg.coreWaitState_rearms 0) = 1 := by decide +kernel

theorem witness_notice_vault : [0, 1].all (fun x =>
    let s := { run { core3 with hold := .wait (wait0 false true) } [] with now := 50 }
    let d := clean (toLE 8 x)
    let s := s.setVault 0 { s.vault 0 with notices := [(.core 0, 4096, d)] }
    let t := after (.notice 0 (.fromVault 0)) s
    s.waiting 0 == some (wait0 false true) && dropNotice 0 (s.vault 0).notices == some ((4096, d), []) && !anyPoison d &&
      (t.core 0).hold == (if x = 1 then .none else .wait (wait0 false true)) &&
      t.getF (Reg.coreRetired_count 0) == x && t.getF (Reg.coreWaitState_notices 0) == 1) = true := by decide +kernel

/-! ## Vaults -/

/-- A request meets nothing waiting and can be served now, on clean words, by evaluation. -/
def freeB (s : State) (q : VReq) : Bool :=
  (s.vault 0).waiting == [] && s.reqReady 0 false q && cleanVault s 0

theorem witness_vault_read : let s := withVault s0
    freeB s (.read 4096 8) = true ∧
      (after (.vaultRead 0 4096 8 .coreRead false) s).out = s.out ++ [.vaultData 0 stOk (bytes16.take 8)] := by decide +kernel

theorem witness_vault_write : [8, 3].all (fun n =>
    let d := (bytes16.drop 8).take n
    let s := withVault s0
    let t := after (.vaultWrite 0 4096 d .coreWrite false) s
    freeB s (.write 4096 d) && !anyPoison d && (s.vault 0).watches == [] && partialWords 4096 n == (n == 3) &&
      t.peekVault 0 4096 8 == d ++ (bytes16.take 8).drop n &&
      t.out == (if n = 8 then [.vaultAck 0 stOk []] else [])) = true := by decide +kernel

theorem witness_vault_atomic : let op := clean (toLE 8 5)
    let s := withVault s0
    let t := after (.vaultAtomic 0 4096 0 true op op) s
    freeB s (.atomic 4096 0 true op op) = true ∧ op.length = 8 ∧ anyPoison op = false ∧ (s.vault 0).watches = [] ∧
      t.peekVault 0 4096 8 = clean [6, 2, 3, 4, 5, 6, 7, 8] ∧ t.out = [.vaultAck 0 stOk (bytes16.take 8)] := by decide +kernel

theorem witness_watch : let s := withVault s0
    let t := after (.watchInstall 0 4096 3) s
    freeB s (.watch 4096 (.core 3)) = true ∧ (s.vault 0).watches.length < watchMax ∧
      (t.vault 0).watches = [⟨4096, .core 3⟩] ∧ t.out = [.vaultAck 0 stOk (bytes16.take 8)] := by decide +kernel

/-- Vault 0 with an entry of its write buffer. -/
def buffered (m : Option Merge) : State :=
  s0.setVault 0 { s0.vault 0 with wbuf := [⟨physAddr (s0.frameBase 0) 4096, clean [9, 9, 9], m⟩] }

theorem witness_merge : let g : Merge := ⟨1, stOk, none⟩
    let s := buffered (some g)
    let x := s.vault 0
    let t := after (.partialWordMerge 0 0) s
    x.waiting = [] ∧ x.wbuf.map WEntry.merge = [some g] ∧ g.reply = none ∧
      (x.wbuf.filter (fun e => e.merge == some g)).any (fun e => x.busyBank (bankOf e.addr)) = false ∧
      (t.vault 0).wbuf.map WEntry.merge = [none] ∧ t.out = [.vaultAck 0 stOk []] := by decide +kernel

theorem witness_drain_entry : let s := buffered none
    let x := s.vault 0
    let t := after (.writeBufferDrain 0 0) s
    x.waiting = [] ∧ x.wbuf.length = 1 ∧ (x.wbuf.take 0) = [] ∧ x.wbuf.all (fun e => !x.blocked (bankOf e.addr)) = true ∧ (t.vault 0).wbuf = [] ∧
      t.peekVault 0 4096 3 = clean [9, 9, 9] := by decide +kernel

/-- Vault 0 with bank 3 in a state, maybe its unit busy, maybe in the keeper. -/
def bankIn (b : Bank) (busy keeper : Bool) : State :=
  let x := s0.vault 0
  { s0.setVault 0 { x.setBank 3 b with
      keeper := keeper, running := if busy then [{ bkc (.fill 0 1 0) with units := [3] }] else [] } with now := 10 ^ 9 }

/-- What a due refresh of that bank leaves, and the bank it is to leave. -/
def refreshed (c : Instr) (s : State) (keeper busy : Bool) (row : Option Nat) (ptr debt : Nat) : Bool :=
  let u := s.settleRates 0
  (s.vault 0).keeper == keeper && u.refreshDue 0 3 && (s.vault 0).busyBank 3 == busy && (s.vault 0).retired == [] &&
    ((after c s).vault 0).bank 3 == ⟨row, 100, ptr, debt, us ((u.vault 0).layer 0).trefw⟩

theorem witness_precharge : let s := bankIn ⟨some 5, 100, 0, 0, 0⟩ false false
    ((s.vault 0).bank 3).openRow ≠ none ∧ ((s.vault 0).bank 3).lastUse + 43 ≤ s.now ∧
      ((after (.rowIdlePrecharge 0 3) s).vault 0).bank 3 = ⟨none, 100, 0, 0, 0⟩ := by decide +kernel

theorem witness_refresh :
    let s := bankIn ⟨some 5, 100, 4095, 2, 0⟩ false false
    let b := bankIn ⟨some 5, 100, 7, 8, 0⟩ true false
    let k := bankIn ⟨none, 100, 7, 0, 0⟩ false true
    refreshed (.refresh 0 3) s false false none 2 0 = true ∧ refreshed (.refresh 0 3) b false true (some 5) 7 8 = true ∧
      refreshed (.keeperRefresh 0 3) k true false none 8 0 = true := by decide +kernel

theorem witness_rates :
    let f := fset s0 [(Reg.ptmStatus_forecast_running, 1), (Reg.ptmTZone_temp 0 (zoneIx 0 2), 680), (Reg.ptmTZone_forecast 0 (zoneIx 0 2), 600)]
    let s := { f with now := us 100 }
    let old := { f with now := ms 2 }
    let band := { s0.setVault 0 { s0.vault 0 with bandUntil := 5 } with now := 5 }
    ((s.vault 0).keeper = false ∧ s.bandMode 0 = false ∧ s.zoneStale 0 2 = false ∧
      (s.vault 0).rateAt + us 100 ≤ s.now ∧ ((after (.refreshRateUpdate 0) s).vault 0).rateAt = us 100 ∧
      (((after (.refreshRateUpdate 0) s).vault 0).layer 2).temp = 696) ∧
    (old.bandMode 0 = false ∧ old.zoneStale 0 2 = true ∧
      ((after (.zoneTempStale 0 2) old).vault 0).layer 2 = ⟨1000, 0, true, 3⟩) ∧
    ((band.vault 0).bandUntil ≠ 0 ∧ (band.vault 0).bandUntil ≤ band.now ∧
      ((after (.bandModeEnd 0) band).vault 0).bandUntil = 0) := by decide +kernel

theorem test_trefw : trefwOf 520 = 32000 ∧ trefwOf 600 = 16000 ∧ trefwOf 680 = 8000 ∧ trefwOf 760 = 4000 ∧ trefwOf 920 = 1000 := by
  decide +kernel

theorem witness_init : let s := fset s0 [(Reg.vltStatus_state 5, vsInService), (Reg.vltInitPattern_pattern 5, 0x1122)]
    let t := after (.vltInit 5) s
    let u := after (.initFillDone 5) t
    s.vaultState 5 ≠ vsInitBusy ∧ s.vaultState 5 ≠ vsRetired ∧ s.fillWaits (towerOf 5) = false ∧ s.filling (towerOf 5) < 64 ∧ s.getF (Reg.bkuStatus_fill_token 5) = 0 ∧
      s.getF (Reg.bkuStatus_fill_waiting 5) = 0 ∧ t.vaultState 5 = vsInitBusy ∧ t.on (Reg.bkuStatus_fill_token 5) = true ∧
      (t.vault 5).waiting = [] ∧ (t.vault 5).running = [] ∧ u.vaultState 5 = vsInService ∧
      u.peekVault 5 0x1FFFFFF8 8 = clean [0x22, 0x11, 0, 0, 0, 0, 0, 0] := by decide +kernel

theorem witness_fill_token : let s := fset s0 [(Reg.bkuStatus_fill_waiting 700, 1)]
    let t := after (.fillTokenGrant 1) s
    (List.range 576).find? (fun k => s.on (Reg.bkuStatus_fill_waiting (576 * 1 + k))) = some 124 ∧ s.filling 1 < 64 ∧
      t.on (Reg.bkuStatus_fill_token 700) = true ∧ t.on (Reg.bkuStatus_fill_waiting 700) = false := by decide +kernel

theorem witness_scrub :
    let s := fset s0 [(Reg.vltScrubBase_base 0, 32), (Reg.vltScrubLen_len 0, 1)]
    let t := after (.scrubStart 0) s
    let g := after (.scrubGranule 0) t
    let e := after (.scrubGranule 0) g
    (s.on (Reg.vltStatus_scrub_busy 0) = false ∧ s.getF (Reg.vltScrubLen_len 0) * 128 ≠ 0 ∧
      s.getF (Reg.vltScrubBase_base 0) * 128 + 128 ≤ vaultSize ∧ (t.vault 0).scrubAt = 4096 ∧ (t.vault 0).scrubEnd = 4224) ∧
    (s0.getF (Reg.vltScrubLen_len 0) * 128 = 0 ∧ (after (.scrubStart 0) s0).on (Reg.vltStatus_scrub_refused 0) = true) ∧
    (t.getF (Reg.vltStatus_scrub_busy 0) = 1 ∧ ((after (.scrubAbort 0) t).vault 0).scrubStop = true) ∧
    (t.portOpen 0 = true ∧ (t.vault 0).busyBank (bankOf (physAddr (t.frameBase 0) 4096)) = false ∧
      g.getF (Reg.vltStatus_scrub_busy 0) = 1 ∧ e.getF (Reg.vltStatus_scrub_busy 0) = 0 ∧
      e.getF (Reg.vltStatus_scrub_done 0) = 1) := by decide +kernel

theorem witness_hold_map :
    let s := after (.vltHold 0 true) s0
    let h := after (.vaultHeld 0) s
    let m := after (.vltMapWrite 0 40) h
    s.on (Reg.vltCtrl_hold 0) = true ∧ s.vaultQuiet 0 = true ∧ h.on (Reg.vltStatus_held 0) = true ∧
      m.getF (Reg.vltMap_frame_base 0) = 32 ∧ (h.vault 0).waiting = [] ∧
      (after (.vltHold 0 false) h).getF (Reg.vltStatus_held 0) = 0 := by decide +kernel

theorem witness_retire :
    let t := after (.vltRetire 0 1024) s0
    let u := after (.retireVault 0) s0
    (s0.vaultState 0 ≠ vsRetired ∧ (s0.vault 0).retired = [] ∧
      (t.vault 0).retired = [rowOf (physAddr (s0.frameBase 0) 1024)] ∧ t.getF (Reg.vltStatus_retired_rows 0) = 1) ∧
    ((s0.vault 0).waiting = [] ∧ u.vaultState 0 = vsRetired ∧ u.peekVault 0 64 1 = [(0, true)]) := by decide +kernel

theorem witness_raw : [false, true].all (fun write =>
    let s := fset (withVault s0) [(Reg.vltCtrl_test_enable 0, 1), (Reg.vltRawData_data 0, 3), (Reg.vltRawCheck_check 0, 1)]
    let v := BitVec.ofNat 32 (4096 + 2 ^ 30 + if write then 2 ^ 29 else 0)
    let t := after (.rawAccess 0 v) s
    let p := physAddr (t.frameBase 0) (t.getF (Reg.vltRawCtrl_addr 0) * 8)
    let x := { t.vault 0 with wbuf := [], mem := (t.vault 0).seen 0 }
    let t := t.setVault 0 x
    let u := after (.rawAccessDone 0) t
    (s.vault 0).raw == none && s.on (Reg.vltCtrl_test_enable 0) && bit v.toNat 30 && x.raw == some true && t.portOpen 0 && !x.blocked (bankOf p) && x.wbuf == [] &&
      t.vaultState 0 != vsRetired && !x.retired.contains (rowOf p) && u.on (Reg.vltRawCtrl_done 0) &&
      (if write then EccMem.word (wordDefault 0 (u.vault 0)) (u.vault 0).mem (p / 8) == ⟨3, 1⟩
       else u.getF (Reg.vltRawData_data 0) == 0x0807060504030201)) = true := by decide +kernel

/-- The credits come to more than one while a class asks; weight 0 of the fourth is idle; no class, no grant. -/
theorem witness_arbiter : let w := [4, 4, 4, 0]
    arbPick w ⟨[0, 3, 0, 0], 2⟩ [true, true, false, true] = some (1, ⟨[0, 2, 0, 0], 2⟩) ∧
    arbPick w ⟨[0, 0, 0, 0], 2⟩ [true, true, false, true] = some (0, ⟨[3, 4, 4, 0], 1⟩) ∧
    arbPick w ⟨[1, 2, 3, 0], 2⟩ [false, false, false, true] = some (3, ⟨[1, 2, 3, 0], 0⟩) ∧
    arbPick w ⟨[1, 2, 3, 0], 2⟩ [false, false, false, false] = none ∧
    arbPick [4, 4, 4, 1] ⟨[0, 0, 0, 1], 3⟩ [true, false, false, true] = some (3, ⟨[0, 0, 0, 0], 0⟩) := by decide +kernel

/-! ## Stage queues as bundles move -/

/-- Core 0's SQ engine sends two words to core 1's queue. -/
def sender0 (st : SendSt) (next_ : Nat) : Sender :=
  { site := 0, engine := 7, op := 0, itag := 9, seq := 0, dst := 1, remote := false, header := bundleHeader 2 77 0
    words := [(11, false), (22, false)], next := next_, job := 1, st := st, firstRefusal := 0 }

/-- Its bundle, of which some words have arrived. -/
def partial0 (ws : SMap QWord) : Bundle :=
  { id := ⟨0, 7, 0⟩, header := bundleHeader 2 77 0, bank := 0, pos := 0, words := ws, lost := false, lastWord := 0, remote := false }

/-- `s0` with that sender, its job, and core 1's queue open with requests and bundles; core 1 in channel 0. -/
def sqs (xs : List Sender) (q : List QReq) (bs : List Bundle) : State :=
  fset { run core3 [] with
    senders := xs, jobs := [{ Job.start 1 0 7 0 9 with left := 1 }],
    queues := [(1, { StageQueue.reset with resident := bs, requests := q })], chans := [(0, { chan0 with cores := [0, 1] })] }
    [(Reg.coreId_enabled 1, 1), (Reg.sqStatus_state 1, sqOpen)]

/-- The request of that bundle. -/
def req0 : QReq := { id := ⟨0, 7, 0⟩, tag := 0, header := bundleHeader 2 77 0, at_ := 0, remote := false, abandoned := false }

theorem witness_admission : [false, true].all (fun again =>
    let x := { sender0 (.asking 0) 0 with firstRefusal := if again then 1 else 0 }
    let s := sqs [x] [] []
    let t := if again then after (.admissionRetry 0 false) s else after (.admissionRequest 0 false) s
    s.dueSender 0 false again == some x && s.diePath 0 0 == .now && !s.on (Reg.skyStatus_resetting 0) && s.coreOn 1 &&
      s.sqState 1 == sqOpen && (s.queue 1).requests == [] && (s.queue 1).resident == [] && s.senderId x == ⟨0, 7, 0⟩ &&
      (t.queue 1).requests == [req0] && (t.sender? 0 7).map Sender.st == some .recorded) = true := by decide +kernel

theorem witness_bundle_admit :
    let s := sqs [sender0 .recorded 0] [req0] []
    let t := after (.bundleAdmit 1) s
    (s.queue 1).requests = [req0] ∧ (s.queue 1).place (8 + 8 * hdrWords req0.header) = some (0, 24, 0, 0) ∧
      s.localSender req0.id = some (sender0 .recorded 0) ∧ (s.core 0).sq = [] ∧ (s.core 0).fmv = [] ∧
      (t.queue 1).resident = [partial0 []] ∧ (t.queue 1).wp = 24 ∧ (t.sender? 0 7).map Sender.st = some .admitted := by
  decide +kernel

theorem witness_bundle_word : [0, 1].all (fun n =>
    let b := partial0 (if n = 0 then [] else [(0, ⟨11, false, true⟩)])
    let x := sender0 .admitted n
    let s := sqs [x] [] [b]
    let t := after (.bundleWord 0 false true) s
    s.sender? 0 7 == some x && (s.core 0).sq == [] && (s.core 0).fmv == [] && s.diePath 0 0 == .now &&
      (s.queue 1).resident.find? (fun b => b.id == s.senderId x && !b.whole) == some b && x.words[n]?.isSome &&
      decide (n < b.size) && ((t.queue 1).resident.map (fun b => b.words.length)) == [n + 1] &&
      (t.sender? 0 7).isSome == (n == 0) && t.jobs.isEmpty == (n == 1)) = true := by decide +kernel

theorem witness_bundle_available :
    let w := word 7 1 (2 * 2 ^ 32 + 1 * 2 ^ 36 + 16 * 2 ^ 40 + 9 * 2 ^ 56)
    let b := bundle0 7 [0x0807060504030201]
    let c := coreQ [] [] [] []
    let en : EngIns := { w := w, ops := engOps c w.toNat, job := 1, deadline := 50, begun := false, copied := 0, st := stOk, block := [] }
    let s := withBundle { run { c with sq := [en] } [] with jobs := [{ Job.start 1 0 7 1 9 with left := 1 }] } b
    let f := popF en.w.toNat en.ops
    let t := after (.bundleAvailable 0) s
    (s.core 0).sq = [en] ∧ (s.core 0).fmv = [] ∧ (s.core 0).synq = [] ∧ s.sender? 0 7 = none ∧ iOp en.w.toNat = 1 ∧
      s.now < en.deadline ∧ f.ok true = true ∧ s.sqState 0 = sqOpen ∧ (s.queue 0).resident = [b] ∧
      b.words.length = b.size ∧ b.words.all (fun x => x.2.parityOk && !x.2.poison) = true ∧ f.d.ea + f.max ≤ 1024 ∧
      f.h.ea + 16 ≤ f.d.ea ∧ s.jobs.all (fun j => j.site == 0) = true ∧
      s.on (Reg.sqInject_arm 0) = false ∧ s.injected 3 0 = false ∧ nearB s f.d f.max true = true ∧ 8 * b.size ≤ f.max ∧
      (t.core 0).sq = [] ∧ t.jobs = [] ∧ t.scratchBytes 0 512 8 = bytes16.take 8 := by decide +kernel

theorem witness_stall :
    let s := { fset (sqs [] [req0] []) [(Reg.sqStall_us 1, 1)] with now := 1001 }
    let t := after (.sqStall 1) s
    (s.queue 1).requests = [req0] ∧ s.getF (Reg.sqStall_us 1) ≠ 0 ∧ (s.queue 1).stallSent = false ∧
      req0.at_ + us (s.getF (Reg.sqStall_us 1)) < s.now ∧ chanOfSite s.chans 1 = some 0 ∧
      t.events.map Event.kind = [6] ∧ (t.queue 1).stallSent = true := by decide +kernel

theorem witness_bundle_lost :
    let b := partial0 [(0, ⟨11, false, true⟩)]
    let s := { sqs [] [] [b] with now := 10 ^ 9 }
    let t := after (.bundleLost 1 0 7 0) s
    let u := after (.bundleWordTimeout 1 0) s
    (s.queue 1).resident.find? (fun b => b.id == ⟨0, 7, 0⟩ && !b.whole) = some b ∧ s.localSender b.id = none ∧
      b.whole = false ∧ b.lastWord + 2 * s.lifetime (towerOf 1) ≤ s.now ∧ t.getF (Reg.sqErr_lost 1) = 1 ∧
      (t.queue 1).resident.map Bundle.words = [[(0, ⟨11, false, true⟩), (1, ⟨0, true, true⟩)]] ∧
      (u.queue 1).resident.map Bundle.lost = [true] := by decide +kernel

theorem witness_memory_expires :
    let s := { sqs [] [] [] with now := 9, queues := [(1, { StageQueue.reset with remembered := [(⟨0, 7, 0⟩, 9), (⟨0, 7, 1⟩, 10)] })],
                                 seqs := [(1, ⟨4, [(2, some 9), (3, none)]⟩)] }
    ((after (.bundleMemoryExpire 1) s).queue 1).remembered = [(⟨0, 7, 1⟩, 10)] := by decide +kernel

theorem witness_open_close :
    let s := fset (sqs [] [req0] [partial0 []]) [(Reg.sqStatus_state 1, sqClosed)]
    let t := after (.sqOpenWrite 1 true) s
    let u := after (.sqOpenWrite 1 false) t
    s.coreOn 1 = true ∧ s.sqState 1 ≠ sqLost ∧ t.sqState 1 = sqOpen ∧ t.senders = [] ∧
      t.cores.all (fun c => c.2.sq.isEmpty && c.2.fmv.isEmpty) = true ∧ u.sqState 1 = sqClosed ∧
      (u.queue 1).resident = [] ∧ (u.queue 1).requests = [] := by decide +kernel

/-! ## Packets -/

/-- Port 0 of tower 0 is UP, leads to node 3 and has credit. -/
def fab (s : State) : State :=
  fset (s.setPort 0 0 { Port.reset with retry := { Retry.reset with credit := List.replicate 8 4096 } }) [(Reg.skyRouteM_valid 0 3, 1), (Reg.skyRouteM_mask 0 3, 1), (Reg.optPortStatus_state 0 0, portUp)]

/-- A packet of node 3's vault 0 to vault 0 here, with a vault offset. -/
def pkt3 (cls op off : Nat) : Packet :=
  { Packet.blank with cls := cls, op := op, src := 3 * 2 ^ 12, dst := off, tag := 7, hopsLeft := true }

/-- Nothing is on its way, by evaluation. -/
def quietB (s : State) : Bool :=
  s.ports.all (fun e => e.2.rx.isEmpty && e.2.tx.q.isEmpty) && s.landed.isEmpty &&
    s.links.all (fun e => e.2.tx.q.isEmpty && e.2.txFar.q.isEmpty && e.2.stream.isEmpty)

/-- A packet can go out at once by port 0 of tower 0, by evaluation. -/
def sendsB (s : State) (k : Packet) : Bool :=
  decide (0 < (s.skyWeights 0).getD k.cls 0) && decide (flitsOf k ≤ (s.port 0 0).retry.credit.getD (creditId k) 0) &&
    decide ((s.port 0 0).retry.buf.length + flitsOf k ≤ replaySize) && !s.expired 0 k

/-- It arrives, by evaluation. -/
def arrivesB (s : State) (k : Packet) (cls op : Nat) : Bool :=
  s.portIsUp 0 0 && k.cls == cls && k.op == op && vidNode (destVid k) == s.nodeOf 0 && !s.expired 0 (Claims.aged s 0 0 k) &&
    vidSite (destVid k) == some 0 && quietB s && !s.dieHeld 0 0 && (k.cls != clsReq || decide (s.poolUsed 0 < poolSize))

/-- It is admitted, by evaluation. -/
def admitsB (s : State) (k : Packet) : Bool :=
  !s.on (Reg.skyStatus_resetting 0) && !(s.tower 0).refusals.contains (sourceBit k.src) && !k.resync &&
    !s.on (Reg.skyInject_refuse 0)

/-- The packets that have left. -/
def sentOut (s : State) : List (Nat × Nat × Nat × List PByte) :=
  s.out.filterMap (fun o => match o with
    | .packet g p k => some (g, p, k.op, k.payload)
    | _ => none)

theorem witness_packet_read :
    let s := fab (withVault s0)
    let k := { pkt3 clsReq 0 4096 with aux := 8 }
    admitsB s k = true ∧ arrivesB s k clsReq 0 = true ∧ freeB s (.read 4096 8) = true ∧
      s.route 0 3 = some (0, 1) ∧ sentOut (after (.read 0 0 k) s) = [(0, 0, 0, bytes16.take 8)] := by decide +kernel

theorem witness_packet_write :
    let s := fab (withVault s0)
    let k := { pkt3 clsReq 1 4096 with payload := bytes16.drop 8, length := 8 }
    let t := after (.write 0 0 k) s
    admitsB s k = true ∧ arrivesB s k clsReq 1 = true ∧ freeB s (.write 4096 k.payload) = true ∧
      anyPoison k.payload = false ∧ (s.vault 0).watches = [] ∧ t.peekVault 0 4096 8 = bytes16.drop 8 ∧
      sentOut t = [(0, 0, 1, [])] := by decide +kernel

theorem witness_packet_atomic :
    let s := fab (withVault s0)
    let k := { pkt3 clsReq 2 4096 with aop := 16, payload := clean (toLE 8 5), length := 8 }
    let t := after (.atomic 0 0 k) s
    admitsB s k = true ∧ arrivesB s k clsReq 2 = true ∧
      freeB s (.atomic 4096 0 true (k.payload.take 8) (slice k.payload 8 8)) = true ∧ anyPoison k.payload = false ∧
      t.peekVault 0 4096 8 = clean [6, 2, 3, 4, 5, 6, 7, 8] ∧ sentOut t = [(0, 0, 2, bytes16.take 8)] := by decide +kernel

theorem witness_packet_watch :
    let s := fab (withVault s0)
    let k := pkt3 clsReq 3 4096
    let t := after (.watchArm 0 0 k) s
    let c := pkt3 clsReq 4 0
    let u := after (.watchCancel 0 0 c) t
    admitsB s k = true ∧ arrivesB s k clsReq 3 = true ∧ freeB s (.watch 4096 (.remote k.src 0 7 0)) = true ∧
      (t.vault 0).watches = [⟨4096, .remote (3 * 2 ^ 12) 0 7 0⟩] ∧ sentOut t = [(0, 0, 3, bytes16.take 8)] ∧
      admitsB t c = true ∧ arrivesB t c clsReq 4 = true ∧ (u.vault 0).watches = [] := by decide +kernel

/-- Core 0 has one REQ packet out to node 3's vault 0, of job 1 with two parts. -/
def out1 (op : Nat) (dest : Dest) : Sent :=
  { pkt := { Packet.blank with op := op, tag := 7, dst := 3 * 2 ^ 44, src := 0 }, tower := 0, site := 0, job := 1
    dest := dest, st := .flying, port := 0, since := 0, firstRefusal := 0, why := 0, noPort := 0, ans := none }

/-- `s0` with it. -/
def withOut (x : Sent) (c : Core) : State :=
  fab { run c [] with sent := [x], jobs := [{ Job.start 1 0 5 1 9 with left := 2 }] }

/-- It is the only one, by evaluation. -/
def oneOutB (s : State) (x : Sent) : Bool :=
  s.sent == [x] && x.ans == none && x.site == 0 && x.pkt.cls == clsReq && (s.core 0).sq == [] && (s.core 0).fmv == [] &&
    (s.core 0).kvq == [] && (s.core 0).kvRun == [] && (match s.job? x.job with
      | some j => decide (2 ≤ j.left)
      | none => false)

theorem witness_answers : [0, 1, 2, 5].all (fun op =>
    let x := out1 (if op = 5 then 1 else op) (if op = 0 then .scratch 0 64 else .part 64)
    let s := withOut x core3
    let k := { pkt3 clsRsp op 0 with payload := if op = 0 then bytes16.take 8 else [], status := if op = 5 then stNoResource else stOk }
    let t := if op = 0 then after (.readData 0 0 k) s else if op = 1 then after (.writeAck 0 0 k) s
      else if op = 2 then after (.atomicOld 0 0 k) s else after (.refuse 0 0 k) s
    s.sentBy (destVid k) k.tag == some x && oneOutB s x && arrivesB s k clsRsp op && cleanScratch s 0 && t.sent == [] &&
      t.jobs.map Job.left == [1] && t.jobs.map Job.status == [k.status] && (op != 0 || t.scratchBytes 0 64 8 == bytes16.take 8)) =
    true := by decide +kernel

theorem witness_watch_ack : let x := out1 3 .none
    let s := { withOut x { core3 with hold := .wait { wait0 true false with vid := 3 * 2 ^ 12 } } with now := 50 }
    let k := { pkt3 clsRsp 3 0 with payload := clean (toLE 8 1) }
    let t := after (.watchAck 0 0 k) s
    s.sentBy (destVid k) k.tag = some x ∧ arrivesB s k clsRsp 3 = true ∧ s.sent = [x] ∧
      s.waiting 0 = s.armedBy 0 x.pkt.tag ∧ (s.armedBy 0 7).map WaitSt.armed = some false ∧ anyPoison k.payload = false ∧
      (t.core 0).hold = .none ∧ t.getF (Reg.coreRetired_count 0) = 1 := by decide +kernel

theorem witness_refusal : let x := out1 1 (.part 64)
    let s := withOut x core3
    let k := { pkt3 clsRsp 5 0 with status := stNodeResetting }
    let t := after (.refuse 0 0 k) s
    s.sentBy (destVid k) k.tag = some x ∧ arrivesB s k clsRsp 5 = true ∧ t.sent.map Sent.st = [.refused] ∧
      bit (t.entry 0 3) 3 = true := by decide +kernel

/-- A bundle of 40 words that core 0's FMV sends to node 3. -/
def senderR (st : SendSt) : Sender :=
  { site := 0, engine := 5, op := 16, itag := 9, seq := 0, dst := 3 * 2 ^ 12, remote := true, header := bundleHeader 40 77 0
    words := List.replicate 40 (1, false), next := 0, job := 1, st := st, firstRefusal := 0 }

theorem witness_bundle_answers : [6, 7].all (fun op =>
    let y := senderR (if op = 6 then .recorded else .admitted)
    let x := { out1 (op - 6) .none with pkt := { (out1 (op - 6) .none).pkt with cls := clsTok, srcEngine := 5 } }
    let s := { withOut x core3 with senders := [y] }
    let k := pkt3 clsRsp op 0
    let t := if op = 6 then after (.admitted 0 0 k) s else after (.accepted 0 0 k) s
    s.sentBy (destVid k) k.tag == some x && s.senderOf x == some y && s.sent == [x] && arrivesB s k clsRsp op &&
      (if op = 6 then t.sent.length == 2 && t.sent.all (fun z => z.pkt.op == 1 && z.pkt.cls == clsTok)
       else t.senders == [])) = true := by decide +kernel

/-- Tower 0's queue 0 is open to bundles of node 3. -/
def fabQ (bs : List Bundle) : State :=
  fab (fset { run core3 [] with queues := [(0, { StageQueue.reset with resident := bs })] } [(Reg.sqStatus_state 0, sqOpen)])

/-- A bundle of node 3 of two words, one there. -/
def bundleR : Bundle := { partial0 [(0, ⟨11, false, true⟩)] with id := ⟨3 * 2 ^ 12, 0, 0⟩, remote := true }

theorem witness_admit :
    let s := fabQ []
    let k := { pkt3 clsTok 0 0 with payload := clean (toLE 8 2) }
    admitsB s k = true ∧ arrivesB s k clsTok 0 = true ∧ s.coreOn 0 = true ∧ s.sqState 0 = sqOpen ∧
      ((after (.admitPkt 0 0 k) s).queue 0).requests.map QReq.header = [2] := by decide +kernel

theorem witness_data :
    let s := fabQ [bundleR]
    let k := { pkt3 clsTok 1 0 with aux := 1, payload := clean (toLE 8 22) }
    let t := after (.dataTok 0 0 ⟨k, []⟩) s
    admitsB s k = true ∧ arrivesB s k clsTok 1 = true ∧ k.aux + k.payload.length / 8 ≤ bundleR.size ∧
      (s.queue 0).resident.find? (fun b => b.id == bundleOf k && !b.whole) = some bundleR ∧
      (t.queue 0).resident.map Bundle.words = [[(0, ⟨11, false, true⟩), (1, ⟨22, false, true⟩)]] ∧
      sentOut t = [(0, 0, 7, [])] := by decide +kernel

theorem witness_abandon :
    let s := fabQ [bundleR]
    let k := pkt3 clsTok 2 0
    let t := after (.abandon 0 0 k) s
    admitsB s k = true ∧ arrivesB s k clsTok 2 = true ∧ s.sqState 0 = sqOpen ∧ bundleR.whole = false ∧
      (t.queue 0).resident.map Bundle.lost = [true] ∧ sentOut t = [(0, 0, 7, [])] := by decide +kernel

theorem witness_ping :
    let s := fab s0
    let k := { pkt3 clsMgt 0 0 with payload := bytes16, length := 16 }
    let a := { Packet.blank with
      cls := clsMgt, op := 1, srcEngine := 12, length := 16, tag := 7, dst := k.src * 2 ^ 32, src := s.towerVid 0, payload := bytes16 }
    arrivesB s k clsMgt 0 = true ∧ s.route 0 (vidNode k.src) = some (0, 1) ∧ sendsB s a = true ∧
      s.sprayPort 0 1 (s.tower 0).sprayMgt a = some 0 ∧
      sentOut (after (.ping 0 0 k) s) = [(0, 0, 1, bytes16)] := by decide +kernel

theorem witness_mgt_packets : [(clsMgt, 1), (clsMgt, 2), (clsMgt, 5), (clsReq, 5)].all (fun e =>
    let s := fab s0
    let k := pkt3 e.1 e.2 0
    let t := if e == (clsMgt, 1) then after (.pong 0 0 k) s else if e == (clsMgt, 2) then after (.stateMgt 0 0 k) s
      else if e == (clsMgt, 5) then after (.regData 0 0 k) s else after (.fabricReservedPacket 0 0 k) s
    arrivesB s k e.1 e.2 && s.mayTake 0 k && reservedPkt e.1 e.2 == (e == (clsReq, 5)) &&
      (if e == (clsMgt, 2) then t.out == [.message []] else t.getF (Reg.skyCntLost_discarded 0) == 1 && t.out == [])) = true := by
  decide +kernel

theorem witness_forward : [clsReq, clsRsp].all (fun c =>
    let s := fab s0
    let k := { pkt3 c 0 (3 * 2 ^ 44) with src := 5 * 2 ^ 12 }
    let z := { k with hopsLeft := false }
    s.portIsUp 0 0 && reservedPkt c 0 == false && vidNode (destVid k) != s.nodeOf 0 && !s.expired 0 (Claims.aged s 0 0 k) &&
      k.hopsLeft && s.route 0 (vidNode (destVid k)) == some (0, 1) && quietB s && s.mayTake 0 k && sendsB s z &&
      s.portIsUp 0 (flowPort 1 k.src (destVid k) k.srcEngine) && s.sprayPort 0 1 (s.tower 0).sprayRsp z == some 0 &&
      (after (.packetForward 0 0 k) s).out.head? == some (.packet 0 0 z)) = true := by decide +kernel

theorem witness_source_timers :
    (let s := { withOut (out1 1 (.part 64)) core3 with now := 10 ^ 9 }
     let t := after (.packetLostTimeout 0) s
     oneOutB s (out1 1 (.part 64)) = true ∧ 0 + 2 * s.lifetime 0 ≤ s.now ∧ t.sent = [] ∧ t.jobs.map Job.status = [stFabricLost] ∧
       t.getF (Reg.skyCntLost_declared 0) = 1) ∧
    (let x := { out1 1 (.part 64) with st := .waiting, noPort := 1 }
     let s := { fset (withOut x core3) [(Reg.optPortStatus_state 0 0, 0)] with now := 10 ^ 9 }
     oneOutB s x = true ∧ x.noPort + ms (s.getF (Reg.skyE2e_reroute_ms 0)) ≤ s.now + 1 ∧ s.portless x = true ∧
       (after (.rerouteTimeout 0) s).jobs.map Job.status = [stUnreachable]) ∧
    (let x := { out1 1 (.part 64) with st := .refused, why := stNodeResetting, firstRefusal := 1 }
     let s := { withOut x core3 with now := ms 100 }
     let r := { withOut x core3 with now := us 10 }
     oneOutB s x = true ∧ vidNode (destVid x.pkt) = 3 ∧ x.firstRefusal + ms 100 ≤ s.now + 1 ∧
       (after (.refusalGiveUp 0 3) s).jobs.map Job.status = [stNodeResetting] ∧ s.portless x = false ∧
       x.since + us 10 ≤ r.now ∧ (after (.refusalResend 0 3) r).sent.map (fun y => (y.st, y.pkt.resync)) = [(.flying, true)]) ∧
    (let x := { out1 1 (.part 64) with st := .waiting }
     let s := withOut x core3
     s.mayGo x [] = some (0, 0) ∧ (after (.flowPortChange 0) s).sent.map Sent.st = [.flying]) := by decide +kernel

theorem witness_notice_packet :
    let s := { fab (run { core3 with hold := .wait (wait0 true true) } []) with now := 50 }
    let k : Packet := { Packet.blank with
      cls := clsRsp, op := 4, dst := s.vidOf 0 * 2 ^ 32, tag := 7, src := 2 ^ 12, seq := 5, payload := clean (toLE 8 1) }
    let t := after (.notice 0 (.packet 0 0 k)) s
    s.waiting 0 = some (wait0 true true) ∧ arrivesB s k clsRsp 4 = true ∧ s.coreOn 0 = true ∧ newer 5 4 = true ∧ anyPoison k.payload = false ∧
      (t.core 0).hold = .none ∧ t.getF (Reg.coreRetired_count 0) = 1 := by decide +kernel

/-! ## Fabric ports and die links -/

/-- A trailer in order: sequence, the acknowledgement as last, no nak, and its check. -/
def trailer (flit : List Byte) (seq : Nat) : BitVec 64 :=
  let w := seq + 4095 * 2 ^ 12
  BitVec.ofNat 64 (w + crc24 flit w * 2 ^ 40)

theorem witness_flit : [0, 31].all (fun owed =>
    let f : List Byte := [1, 2, 3, 4]
    let s := (fab s0).setPort 0 0 { Port.reset with retry := { Retry.reset with owed := owed, expect := 5 } }
    let r := (s.port 0 0).retry
    let w := (trailer f 5).toNat
    let t := after (.fabricFlit 0 0 f (trailer f 5)) s
    s.portIsUp 0 0 && quietB s && (s.tower 0).unsprayed == [] && crc24 f w == bits w 63 40 && bits w 23 12 == r.acked && !bit w 24 && bits w 11 0 == r.expect &&
      (t.port 0 0).retry.expect == 6 && (t.port 0 0).retry.owed == (if owed = 31 then 0 else 1) &&
      t.getF (Reg.skyCntRx_flits 0) == 1) = true := by decide +kernel

theorem witness_flit_crc : let s := fab s0
    let t := after (.fabricFlit 0 0 [1, 2] (trailer [1, 3] 0)) s
    s.portIsUp 0 0 = true ∧ crc24 [1, 2] (trailer [1, 3] 0).toNat ≠ bits (trailer [1, 3] 0).toNat 63 40 ∧
      (t.port 0 0).retry.nakSent = true ∧ t.getF (Reg.optPortErr_crc 0 0) = 1 ∧ t.records.length = 1 := by decide +kernel

theorem witness_progress_ack :
    let s := { (fab s0).setPort 0 0 { Port.reset with retry := { Retry.reset with buf := [⟨0, 7, []⟩], owed := 3 } } with now := us 10 }
    (s.portIsUp 0 0 = true ∧ (s.port 0 0).retry.buf ≠ [] ∧ (s.port 0 0).retry.ackAt + us 10 ≤ s.now ∧
      bit s.usablePorts 0 = true ∧ (s.port 0 0).tx.q = [] ∧ (after (.fabricNoProgress 0 0) s).portState 0 0 = ptRetrain) ∧
    ((s.port 0 0).retry.owed ≠ 0 ∧ (s.port 0 0).retry.owedAt + 64 ≤ s.now ∧
      ((after (.fabricAckTimer 0 0) s).port 0 0).retry.owed = 0) := by decide +kernel

/-- Link control in order, with its check. -/
def control (flit : List Byte) (seq : Nat) : BitVec 64 :=
  let w := seq + 4095 * 2 ^ 12
  BitVec.ofNat 64 (w + crc16 flit w * 2 ^ 48)

theorem witness_die_flit :
    let f : List Byte := [1, 2, 3]
    let a := fset s0 [(Reg.dlkLinkStatus_state 0, lkActive)]
    let s := { a.setLink 0 { a.link 0 with retry := { Retry.reset with owed := 2 } } with now := 8 }
    let w := (control f 0).toNat
    let t := after (.dieLinkFlit 0 f (control f 0)) s
    let u := after (.dieLinkFlit 0 f (control [7] 0)) s
    s.linkState 0 = lkActive ∧ crc16 f w = bits w 63 48 ∧ bits w 23 12 = (s.link 0).retry.acked ∧ bit w 24 = false ∧
      bits w 11 0 = 0 ∧ s.on (Reg.dlkInject_crc 0) = false ∧ (t.link 0).retry.expect = 1 ∧ (t.link 0).retry.owed = 3 ∧
      crc16 f (control [7] 0).toNat ≠ bits (control [7] 0).toNat 63 48 ∧ (u.link 0).retry.nakSent = true ∧
      quietB s = true ∧ (s.tower 0).unsprayed = [] ∧
      u.getF (Reg.dlkLinkErr_crc 0) = 1 ∧ (after (.dieLinkNoProgress ⟨0, true⟩) s).linkState 0 = lkRetrain ∧
      (s.link 0).retry.owedAt + 8 ≤ s.now ∧ ((after (.dieLinkAckTimer 0) s).link 0).retry.owed = 0 := by decide +kernel

/-- The check of 10 R376 over the digits: CRC-24 of OpenPGP without the trailer's bits, by its published check value. -/
theorem test_crc24 : crcBits 24 0x864CFB 0xB704CE (flitBits [0x31, 0x32, 0x33, 0x34, 0x35, 0x36, 0x37, 0x38, 0x39]) = 0x21CF02 := by
  decide +kernel

/-- CRC-16/CCITT-FALSE by its published check value. -/
theorem test_crc16 : crcBits 16 0x1021 0xFFFF (flitBits [0x31, 0x32, 0x33, 0x34, 0x35, 0x36, 0x37, 0x38, 0x39]) = 0x29B1 := by
  decide +kernel

/-- Port 5 of tower 1 in a state, its tower enabled. -/
def portIn (st : Nat) : State :=
  fset s0 [(Reg.optPortStatus_state 1 5, st), (Reg.skyCtrl_enable 1, 1), (Reg.optPortCtrl_enable 1 5, 1)]

/-- A peer. -/
def peer0 : TrainedPeer := ⟨3, 9, 120, 0x0101010101010101, 1⟩

/-- A nak of the flits the peer lacks: once, and the 16th in a row. -/
theorem witness_nak : [(0, portUp), (15, ptRetrain)].all (fun e =>
    let w := 4095 + 4095 * 2 ^ 12 + 2 ^ 24
    let tr := BitVec.ofNat 64 (w + crc24 [] w * 2 ^ 40)
    let s := (fab s0).setPort 0 0 { Port.reset with retry := { Retry.reset with buf := [⟨0, 7, [1]⟩], next := 1, naks := e.1 } }
    let t := after (.fabricFlit 0 0 [] tr) s
    s.portIsUp 0 0 && quietB s && (s.tower 0).unsprayed == [] && crc24 [] tr.toNat == bits tr.toNat 63 40 &&
      bits tr.toNat 23 12 == (s.port 0 0).retry.acked && bit tr.toNat 24 && bits tr.toNat 11 0 == ((s.port 0 0).retry.expect + 4095) % 4096 &&
      bit s.usablePorts 0 && (t.port 0 0).retry.naks == e.1 + 1 && (t.port 0 0).retry.buf == (s.port 0 0).retry.buf &&
      t.getF (Reg.optPortErr_replays 0 0) == 1 && t.getF (Reg.skyCntTx_flits 0) == 1 && t.portState 0 0 == e.2) = true := by
  decide +kernel

/-- A packet in transit passes a local one of its class; of two local ones the pointer takes the later site. -/
theorem witness_turns :
    let e (site transit : Nat) : TxEnt := { pkt := { Packet.blank with src := site }, hop := 0, transit := transit != 0
                                            since := 0, back := none, die := 0, goal := .site 0 0 [] }
    let rank := fun (x : TxEnt) => if x.transit then 1 else 0
    let x : Tx := { Tx.reset with q := [e 0 0, e 1 0, e 2 1], rr := [5, 0, 0, 0] }
    let y : Tx := { Tx.reset with q := [e 0 0, e 1 0], rr := [5, 0, 0, 0] }
    ((x.pick [4, 4, 4, 1] rank (fun _ => true)).map (fun r => (r.1.pkt.src, r.2.q.length, r.2.rr)) = some (2, 2, [5, 0, 0, 0])) ∧
      ((y.pick [4, 4, 4, 1] rank (fun _ => true)).map (fun r => (r.1.pkt.src, r.2.q.length, r.2.rr)) = some (1, 1, [17, 0, 0, 0])) := by
  decide +kernel

theorem witness_die_carry : [false, true].all (fun far =>
    let s := fset s0 [(Reg.dlkLinkStatus_state 0, lkActive)]
    let d := if far then (linkEnds 0).2 else (linkEnds 0).1
    let h := if far then (linkEnds 0).1 else (linkEnds 0).2
    let e : TxEnt := { pkt := Packet.blank, hop := 0, transit := false, since := 0, back := none, die := h, goal := .site 0 0 [] }
    let t := (s.cross d e).pump
    s.linkState 0 == lkActive && quietB s && s.failover == none && s.nextHop d h == h && (s.link 0).room far e &&
      t.landed == [.site 0 0 Packet.blank []] && t.out.length == (if far then 0 else (t.link 0).retry.buf.length) &&
      (t.link 0).retry.buf.length == (if far then 0 else ceilDiv (pktWords Packet.blank).length 56)) = true := by decide +kernel

theorem witness_training :
    (let s := portIn ptTraining
     let d := fset s [(Reg.skyCtrl_enable 1, 0)]
     bit s.usablePorts 5 = true ∧ s.portState 1 5 = ptTraining ∧ s.mayTrain 1 = true ∧ s.sent = [] ∧ quietB s = true ∧
       (s.tower 1).unsprayed = [] ∧ d.portState 1 5 = ptTraining ∧ d.mayTrain 1 = false ∧
       (after (.portTrained 1 5 (some peer0)) d).portState 1 5 = ptTraining ∧
       ((after (.portTrained 1 5 (some peer0)) s).port 1 5).retry.credit = List.replicate 8 8 ∧
       (after (.portTrained 1 5 (some peer0)) s).portState 1 5 = portUp ∧
       (after (.portTrained 1 5 (some peer0)) s).getF (Reg.optPortStatus_peer_node 1 5) = 3 ∧
       (after (.portTrained 1 5 none) s).portState 1 5 = ptDead) ∧
    (let s := (portIn ptRetrain).setPort 1 5 { Port.reset with retry := { Retry.reset with buf := [⟨0, 7, []⟩, ⟨1, 7, []⟩] } }
     let r := { s with now := ms 1 + 1 }
     ((after (.fabricRetrainEnd 1 5 (some peer0)) s).port 1 5).retry.buf = [⟨1, 7, []⟩] ∧ (s.port 1 5).since + ms 1 < r.now ∧
       (after (.fabricRetrainEnd 1 5 (some peer0)) r).portState 1 5 = ptDead ∧ quietB s = true ∧
       s.portState 1 5 = ptRetrain ∧ s.portFails 1 5 = false ∧
       (after (.fabricRetrainEnd 1 5 (some peer0)) s).portState 1 5 = portUp ∧
       (after (.fabricRetrainEnd 1 5 none) s).portState 1 5 = ptDead) := by decide +kernel

theorem witness_port_writes :
    (let s := portIn ptDead
     s.portState 1 5 = ptDead ∧ s.mayTrain 1 = true ∧ s.on (Reg.optPortCtrl_enable 1 5) = true ∧
       (after (.portRetrain 1 5) s).portState 1 5 = ptTraining) ∧
    (let s := portIn ptDisabled
     s.portState 1 5 ≠ ptAbsent ∧ s.mayTrain 1 = true ∧ (after (.portEnableWrite 1 5 true) s).portState 1 5 = ptTraining ∧
       (after (.portEnableWrite 1 5 false) s).getF (Reg.optPortCtrl_enable 1 5) = 0) ∧
    (let s := portIn ptNoLight
     s.portState 1 5 = ptNoLight ∧ (after (.portEnableWrite 1 5 true) s).portState 1 5 = ptNoLight ∧
       (after (.portEnableWrite 1 5 false) s).portState 1 5 = ptNoLight) ∧
    (let s := portIn portUp
     (after (.skyCtrlEnableWrite 1 false) s).portState 1 5 = ptDisabled ∧
       (after (.skyCtrlEnableWrite 1 false) s).getF (Reg.skyCtrl_enable 1) = 0) := by decide +kernel

theorem witness_sky_enable :
    let s := portIn ptDisabled
    s.on (Reg.skyStatus_node_mismatch 1) = false ∧ s.portState 1 5 = ptDisabled ∧
      (after (.skyCtrlEnableWrite 1 true) s).portState 1 5 = ptTraining := by decide +kernel

theorem witness_light :
    let s := portIn portUp
    let d := after (.laserLow 1 0 true 69) s
    5 / 8 = (0 : Fin 4).val ∧ (69 : BitVec 8).toInt < 70 ∧ d.portState 1 5 = ptNoLight ∧ (70 : BitVec 8).toInt = 70 ∧
      (after (.laserRestored 1 0 true 70) d).portState 1 5 = ptDead := by decide +kernel

theorem witness_node_write :
    let t := after (.skyNodeWrite 1 7) s0
    s0.on (Reg.skyCtrl_enable 1) = false ∧ bits (7#32).toNat 19 0 ≠ 0xFFFFF ∧ t.nodeOf 1 = 7 ∧
      t.getF (Reg.skyStatus_node_mismatch 1) = 1 ∧ t.getF (Reg.skyStatus_node_mismatch 2) = 0 := by decide +kernel

theorem witness_credit_write :
    let w : BitVec 64 := 0x2020202020202020
    (List.range 32).all (fun p => [ptAbsent, ptDisabled, ptDead, ptNoLight].contains (s0.portState 2 p)) = true ∧
      (after (.skyCreditWrite 2 w) s0).reg (Reg.skyCredit_req0 2).off = w ∧
      (after (.skyCreditWrite 2 (w + 1)) s0).getF (Reg.skyStatus_cfg_err 2) = 1 ∧
      (after (.skyCreditWrite 2 0x00FF000000000000) s0).getF (Reg.skyStatus_cfg_err 2) = 1 := by decide +kernel

theorem witness_routing_write :
    let s := { s0 with features := 7 }
    s.licensed licFabric = true ∧ s.sent = [] ∧
      (after (.routingEntryWrite 0 true 9 0xFF00000000050001) s).reg (Reg.skyRouteG_valid 0 9).off = 0x00050001 ∧
      (after (.routingEntryWrite 0 false 9 0x0000000000050003) s0).reg (Reg.skyRouteM_valid 0 9).off = 0x00050003 ∧
      s0.licensed licFabric = false ∧ (after (.routingEntryWrite 0 true 9 0x00050001) s0).getF (Reg.skyStatus_cfg_err 0) = 1 := by
  decide +kernel

/-- What all modules training brings. -/
def allGood : TrainResult := ⟨List.range 8, [], 0, [0], 1⟩

/-- Link 2 in a state. -/
def linkIn (st : Nat) : State := { fset s0 [(Reg.dlkLinkStatus_state 2, st)] with now := us 100 }

theorem witness_link_training :
    let s := linkIn 3
    let me := s.caps (linkEnds 2).1
    let peer := s.caps (linkEnds 2).2
    let t := after (.dieLinkTrained 2 peer allGood) s
    let o := { s with now := ms 5 }
    let p := { s with now := ms 5 + 1 }
    quietB s = true ∧ 0 < linkModules 2 ∧ s.repairable 2 0 allGood = true ∧ s.now ≤ (s.link 2).since + ms 5 ∧ (s.link 2).since + ms 5 < p.now ∧
      (after (.dieLinkTrained 2 peer allGood) p).linkState 2 = lkDown ∧ (t.link 2).retry = Retry.reset ∧
      peer.keepAlive = true ∧ peer.tickSync = true ∧ peer.poisonWord = true ∧ s.linkTraining 2 = true ∧ s.sent = [] ∧ me.strap = 2 ∧ peer.strap = 4 ∧ 2 ≤ peer.version ∧
      s.on (Reg.dlkInject_module_fail 2) = false ∧ s.roleOf 2 0 = 0 ∧ t.linkState 2 = lkActive ∧
      t.getF (Reg.dlkLinkCap_tags 2) = 256 ∧
      (after (.dieLinkTrained 2 { peer with strap := 1 } allGood) s).linkState 2 = lkDown ∧
      (s.link 2).since + ms 5 ≤ o.now ∧ (after (.dieLinkTrainTimeout 2) o).linkState 2 = lkDown := by decide +kernel

theorem witness_link_retrain :
    let s := linkIn lkRetrain
    let peer := s.caps (linkEnds 2).2
    let r := { s with now := us 100 + 1 }
    s.linkState 2 = lkRetrain ∧ (after (.dieLinkRetrainEnd 2 (some (peer, allGood))) s).linkState 2 = lkActive ∧
      (s.link 2).since + us 100 < r.now ∧ (after (.dieLinkRetrainEnd 2 (some (peer, allGood))) r).linkState 2 = lkDown ∧
      (after (.dieLinkRetrainEnd 2 none) s).linkState 2 = lkDown ∧
      (after (.dlkLinkRetrain 2) (linkIn lkActive)).linkState 2 = lkRetrain ∧ (linkIn lkActive).linkState 2 = lkActive ∧
      (linkIn lkDown).on (Reg.dlkLinkCtrl_force_down 2) = false ∧ (after (.dlkLinkRetrain 2) (linkIn lkDown)).linkState 2 = lkSbinit ∧
      (after (.forceDown 2 true) (linkIn lkActive)).linkState 2 = lkDown := by decide +kernel

theorem witness_failover :
    let s := fset (linkIn lkDown) [(Reg.dlkCtrl_failover_enable, 1)]
    let t := after (.failoverStart 2) s
    let u := after (.failoverComplete 0) t
    s.linkState 2 = lkDown ∧ s.on Reg.dlkCtrl_failover_enable = true ∧ s.failover = none ∧ s.changedRoutes ≠ [] ∧
      quietB s = true ∧ t.failover = some ⟨s.now, 2, s.changedRoutes, []⟩ ∧ t.sent = [] ∧ quietB t = true ∧ u.failover = none ∧ u.nextHop 4 2 = 3 := by decide +kernel

/-! ## The host's rings and commands -/

/-- A command of 64 bytes: opcode, flags, tag, handle, and parameters by offset and width. -/
def cmdOf (op flags handle : Nat) (fs : List (Nat × Nat × Nat)) : List Byte :=
  fs.foldl (fun c f => c.take f.1 ++ toLE f.2.1 f.2.2 ++ c.drop (f.1 + f.2.1))
    ([BitVec.ofNat 8 op, BitVec.ofNat 8 flags] ++ toLE 2 0x1234 ++ toLE 4 handle ++ List.replicate 56 0)

/-- Ring 3 is ACTIVE with 16 entries, event ring 3 on, the device READY. -/
def rings : State :=
  fset s0 [(Reg.glbState_state, 1), (Reg.cmpRingStatus_state 3, rgActive), (Reg.cmpRingCfg_log2_entries 3, 4),
    (Reg.cmpCqBase_base 3, 2), (Reg.cmpEqCfg_log2_entries 3, 4), (Reg.cmpEqCfg_enable 3, 1)]

theorem witness_doorbells :
    rings.wedged = false ∧ rings.ringSize 3 ≤ 65536 ∧ rings.eqSize 3 ≤ 65536 ∧ rings.ringState 3 ≠ rgDisabled ∧
      (after (.sqTailDoorbell 3 15) rings).getF (Reg.cmpRingIdx_sq_tail 3) = 15 ∧
      (after (.sqTailDoorbell 3 16) rings).getF (Reg.cmpRingStatus_db_err 3) = 1 ∧
      (after (.sqTailDoorbell 4 0) rings).getF (Reg.cmpRingStatus_db_err 4) = 1 ∧ rings.ringState 4 = rgDisabled ∧
      (after (.cqHeadDoorbell 3 1) rings).getF (Reg.cmpRingStatus_cq_full 3) = 1 ∧ rings.eqOn 3 = true ∧
      ((after (.eqHeadDoorbell 3 5) rings).evRing 3).head = 5 := by decide +kernel

theorem witness_take :
    let s := fset rings [(Reg.cmpRingIdx_sq_tail 3, 1)]
    let bad := cmdOf 1 0 0 [(48, 1, 7)]
    s.getF Reg.glbState_state ≠ gsBooting ∧ s.started = [] ∧ s.ringTurn = some 3 ∧
      s.mayStart 3 (cmdOf 0xEE 0 0 []) = true ∧ cmdForm 0xEE = none ∧
      (after (.commandTake (some (cmdOf 0xEE 0 0 []))) s).started.map Started.done = [none] ∧
      (cmdForm 1).map (fun f => cmdReservedOk f bad) = some false ∧
      (after (.commandTake (some bad)) s).started.map Started.done = [some (stBadParam, 0)] ∧
      (after (.commandTake none) s).ringState 3 = rgError := by decide +kernel

theorem witness_passed_over :
    let c := cmdOf 0 1 0 []
    let s := { fset rings [(Reg.cmpRingIdx_sq_tail 3, 1)] with started := [⟨3, cmdOf 0 0 0 [], 1, none, none⟩] }
    let t := after (.commandTake (some c)) s
    s.ringTurn = some 3 ∧ s.mayStart 3 c = false ∧ t.started = s.started ∧ t.arbPtr = 0 ∧ t.ringTurn = none := by decide +kernel

/-- A complete command of ring 3 that asks for an interrupt. -/
def ended : Started := ⟨3, cmdOf 0 2 0 [], 1, none, some (stOk, 9)⟩

theorem witness_post :
    let s := { fset rings [(Reg.cmpRingIdx_cq_tail 3, 15)] with started := [ended], rings := [(3, ⟨5, true, false⟩)] }
    let t := after (.completionPost 3) s
    s.oldestDone 3 = some (ended, stOk, 9) ∧ (s.ring 3).muted = false ∧ s.cqFull 3 = false ∧
      t.getF (Reg.cmpRingIdx_cq_tail 3) = 0 ∧ (t.ring 3).phase = false ∧
      t.out = [.hostWrite (8192 + 240) (clean [0x34, 0x12, 0, 1, 1, 0, 0, 0, 9, 0, 0, 0, 0, 0, 0, 0]), .msix 4] ∧
      (after (.completionWriteFail false 3) s).ringState 3 = rgError ∧
      ((after (.completionWriteFail false 3) s).ring 3).muted = true := by decide +kernel

/-- An event of event ring 3. -/
def event0 : Event := ⟨3, 2, 0, 2 ^ 24, stOk, 0, 7, 9, 0⟩

theorem witness_events :
    let s := { rings with events := [event0] }
    let f := { s with evRings := [(3, ⟨1, true, [], 0⟩)] }
    s.eqPosting 3 = true ∧ (after (.completionWriteFail true 3) s).eqOn 3 = false ∧
      (List.range 64).find? s.owes = none ∧ s.eqFull 3 = false ∧ (after .eventPost s).events = [] ∧
      (after .eventPost s).out.length = 2 ∧ (List.range 64).find? f.owes = none ∧ f.eqFull 3 = true ∧
      ((after .eventPost f).evRing 3).held = [event0] := by decide +kernel

theorem witness_ring_states :
    let d := after (.ringEnableWrite false 3 false) rings
    rings.ringState 4 = rgDisabled ∧ (after (.ringEnableWrite false 4 true) rings).ringState 4 = rgActive ∧
      rings.ringState 3 = rgActive ∧ d.ringState 3 = rgDraining ∧ rings.eqNamed 3 = false ∧
      (after (.ringEnableWrite true 3 false) rings).eqOn 3 = false ∧ d.started = [] ∧
      (after (.ringDrained 3) d).ringState 3 = rgDisabled := by decide +kernel

/-- A command that has been taken. -/
def taken (c : List Byte) : Started := ⟨3, c, 1, none, none⟩

/-- A state with it. -/
def taking (s : State) (c : List Byte) : State := { s with started := [taken c] }

/-- The command processor reads tables for the command. -/
def asks (s : State) (c : List Byte) : State := s.ask hostSite (Claims.cmdKey (taken c))

/-- It waits for none, by evaluation. -/
def unasked (s : State) (c : List Byte) : Bool := !s.asked hostSite (Claims.cmdKey (taken c))

/-- What became of it. -/
def ends (s : State) : List (Option (Nat × Nat)) := s.started.map Started.done

theorem witness_plain_commands :
    let id := taking (fset rings [(Reg.hifLink_up, 1)]) (cmdOf 1 0 0 [(8, 8, 8192)])
    ends (after (.cmdNop 0) (taking rings (cmdOf 0 0 0 []))) = [some (stOk, 0)] ∧
      ends (after (.undefinedCommand 0) (taking rings (cmdOf 0x3F 0 0 []))) = [some (stBadOpcode, 0)] ∧
      ends (after (.identify 0) id) = [some (stOk, 4096)] ∧ id.on Reg.hifLink_up = true ∧
      ends (after (.identify 0) { id with regs := rings.regs }) = [some (stHostFault, 0)] ∧ rings.ringState 4 = rgDisabled ∧
      ends (after (.ringCreate 0) (taking rings (cmdOf 2 0 0 [(8, 1, 4), (9, 1, 4), (16, 8, 4096), (24, 8, 8192)]))) = [some (stOk, 0)] ∧
      ends (after (.eqCreate 0) (taking rings (cmdOf 4 0 0 [(8, 1, 5), (9, 1, 16), (16, 8, 4096)]))) = [some (stOk, 0)] ∧
      rings.eqOn 5 = false ∧ rings.eqNamed 3 = false ∧
      ends (after (.eqDestroy 0) (taking rings (cmdOf 5 0 0 [(8, 1, 3)]))) = [some (stOk, 0)] := by decide +kernel

theorem witness_ring_destroy :
    let s := taking (after (.ringEnableWrite false 4 true) rings) (cmdOf 3 0 0 [(8, 1, 4)])
    s.ringState 4 = rgActive ∧ ends (after (.ringDestroy 0) s) = [some (stOk, 0)] ∧
      (after (.ringDestroy 0) s).ringState 4 = rgDraining := by decide +kernel

theorem witness_chan_create :
    let c := cmdOf 0x10 0 0 [(10, 1, 3), (11, 1, 20), (24, 4, 2)]
    let list : HostRead := some (clean [5, 0, 6, 0])
    let s := taking (fset rings [(Reg.coreId_enabled 5, 1), (Reg.coreId_enabled 6, 1)]) c
    let t := after (.chanCreate 0 list) s
    unasked s c = true ∧ s.gradeRefuses = false ∧ createOk c = true ∧ s.on Reg.rasInject_arm = false ∧ (siteList 2 list).toOption = some [5, 6] ∧
      s.createCheck c [5, 6] = stOk ∧ s.freeIndex chanMax 0 = some 0 ∧ [5, 6].all s.vaultQuiet = true ∧
      ends t = [some (stOk, 2 ^ 24)] ∧ (t.chan 0).cores = [5, 6] ∧ t.sqState 6 = sqOpen ∧
      t.getF (Reg.vltMap_frame_base 5) = 20 := by decide +kernel

theorem witness_grade_refusal :
    let c := cmdOf 0x10 0 0 [(10, 1, 3), (11, 1, 77), (24, 4, 2)]
    let s := taking (fset rings [(Reg.glbState_state, gsGradeFault)]) c
    unasked s c = true ∧ s.gradeRefuses = true ∧ createOk c = false ∧
      ends (after (.chanCreate 0 none) s) = [some (stGradeFault, 0)] := by decide +kernel

/-- Core 0 in channel 0, which a command names. -/
def named (st : Nat) (c : List Byte) : State := taking (fset (coreIn st core3) [(Reg.glbState_state, 1)]) c

theorem witness_chan_destroy :
    let s := named csIdle (cmdOf 0x11 0 (2 ^ 24) [])
    let t := after (.chanDestroy 0) s
    s.senders = [] ∧ s.cores.all (fun x => x.2.sq.isEmpty && x.2.fmv.isEmpty) = true ∧
      (s.chan 0).cores.all (fun i => s.coreState i == csIdle) = true ∧ ends t = [some (stOk, 0)] ∧
      t.chan 0 = { Channel.free with gen := 1 } := by decide +kernel

theorem witness_window_set :
    let d := 1 + 2 ^ 16 + here 0x1000 * 2 ^ 64
    let s := named csIdle (cmdOf 0x13 0 (2 ^ 24) [(8, 1, 7), (32, 32, d)])
    descOk d = true ∧ bits d 1 0 = 1 ∧ ends (after (.windowSet 0) s) = [some (stOk, 0)] ∧
      (after (.windowSet 0) s).window 0 7 = ⟨BitVec.ofNat 256 d, []⟩ := by decide +kernel

theorem witness_stream_commands :
    (let c := cmdOf 0x18 0 (2 ^ 24) [(12, 4, 1024), (16, 4, 64)]
     let s := named csIdle c
     let t := after (.streamStart 0 none) s
     s.namedCores c none = (s, .ok [0]) ∧ streamOk 1024 64 = true ∧ s.getF (Reg.ptmTState_level 0) ≠ 3 ∧
       s.coreState 0 = csIdle ∧ ends t = [some (stOk, 1)] ∧ t.coreState 0 = csRunning ∧ t.pc 0 = 1024) := by
  refine ⟨rfl, ?_⟩; decide +kernel

theorem witness_stream_resume :
    let c := cmdOf 0x18 0 (2 ^ 24) [(8, 1, 1)]
    let s := named csBreak c
    (s.core 0).wordAt (s.pc 0) ≠ .poison ∧ s.coreState 0 = csBreak ∧ (s.chan 0).cores = [0] ∧
      ends (after (.streamStart 0 none) s) = [some (stOk, 1)] ∧ (after (.streamStart 0 none) s).coreState 0 = csRunning := by
  decide +kernel

theorem witness_stream_stop : [0, 1].all (fun mode =>
    let c := cmdOf 0x19 0 (2 ^ 24) [(8, 1, mode)]
    let s := named csRunning c
    let t := after (.streamStop 0 none) s
    s.coreState 0 == csRunning && (s.core 0).hold == .none && unasked s c && (s.core 0).synq == [] && s.jobs == [] &&
      !s.on (Reg.skyStatus_resetting 0) && (s.chan 0).cores == [0] && ends t == [some (stOk, 1)] &&
      t.coreState 0 == (if mode = 0 then csBreak else csIdle)) = true := by decide +kernel

/-- The host link reaches tower 0. -/
def linked (s : State) : State := fset s [(Reg.dlkLinkStatus_state 0, lkActive)]

/-- A spread window on two vaults, the list at 4096; of one vault twice, the window is refused. -/
theorem witness_window_list : [(1, stOk), (0, stBadParam)].all (fun e =>
    let d := 2 + 16 + 2 * 2 ^ 16 + here 4096 * 2 ^ 128
    let c := cmdOf 0x13 0 (2 ^ 24) [(8, 1, 7), (32, 32, d)]
    let ids := [0xFFFFF * 2 ^ 12, 0xFFFFF * 2 ^ 12 + e.1]
    let s := linked (named csIdle c)
    let s := (s.writeVault 0 4096 (clean ((ids.map (toLE 4)).flatten)) true).1
    let x := (asks s c).skyRead hostSite (bits d 191 128) 8 true
    let t := after (.windowSet 0) s
    unasked s c && descOk d && bits d 1 0 == 2 && x.ready && x.s.wanted == [] && x.st == stOk && !anyPoison x.data &&
      x.data == clean ((ids.map (toLE 4)).flatten) && distinct ids == (e.2 == stOk) && ids.all (fun v => skyOk (v * 2 ^ 32)) &&
      ends t == [some (e.2, 0)] && t.window 0 7 == (if e.2 = stOk then ⟨BitVec.ofNat 256 d, ids⟩ else s.window 0 7)) = true := by
  decide +kernel

theorem witness_host_load :
    let c := cmdOf 0x20 0 0 [(12, 4, 16), (16, 8, 0x5000), (24, 8, here 4096)]
    let s := taking (linked rings) c
    let x := (asks s c).hostRange c false (here 4096) 16 true
    let t := after (.load 0 none (some bytes16)) s
    unasked s c = true ∧ x.s.wanted = [] ∧ x.st = stOk ∧ x.ready = true ∧ x.pieces = [⟨.vault 0 4096, 0, 16⟩] ∧ cleanVault s 0 = true ∧
      s.on Reg.rasInject_arm = false ∧ anyPoison bytes16 = false ∧ ends t = [some (stOk, 16)] ∧
      t.peekVault 0 4096 16 = bytes16 := by decide +kernel

theorem witness_host_store :
    let c := cmdOf 0x21 0 0 [(12, 4, 8), (16, 8, 0x5000), (24, 8, here 4096)]
    let s := taking (linked (withVault rings)) c
    let x := (asks s c).hostRange c false (here 4096) 8 false
    let t := after (.store 0 none true) s
    unasked s c = true ∧ x.s.wanted = [] ∧ x.st = stOk ∧ x.ready = true ∧ x.pieces = [⟨.vault 0 4096, 0, 8⟩] ∧ cleanVault s 0 = true ∧
      ends t = [some (stOk, 8)] ∧ t.out = [.hostWrite 0x5000 (bytes16.take 8)] := by decide +kernel

theorem witness_flag_write : [0, 1].all (fun add =>
    let c := cmdOf 0x23 0 0 [(8, 1, add), (16, 8, here 4096), (24, 8, 5)]
    let s := taking (linked (withVault rings)) c
    let x := (asks s c).hostRange c false (here 4096) 8 true
    let t := after (.flagWrite 0) s
    unasked s c && x.s.wanted == [] && x.st == stOk && x.ready && x.pieces == [⟨.vault 0 4096, 0, 8⟩] && cleanVault s 0 && x.s.readReady 0 4096 8 &&
      ends t == [some (stOk, if add = 1 then 0x0807060504030201 else 0)] &&
      leP (t.peekVault 0 4096 8) == 5 + (if add = 1 then 0x0807060504030201 else 0)) = true := by decide +kernel

/-- A sky address in vault 0 that the host link can write now, by evaluation. -/
def hostPlaceB (s : State) (off n : Nat) : Bool :=
  skyOk (here off) && (s.placeOf ioDie (here off)).toOption == some (.vault 0 off) && cleanVault s 0 &&
    s.pieceReady ioDie true ⟨.vault 0 off, 0, n⟩ && (s.vault 0).running == [] &&
    (s.vault 0).wbuf.all (fun e => e.merge == none)

/-- Channel 0's window 2 holds a private page-layer, window 3 an unbacked one with its table at 0x30000; the pool at
0x50000 holds 4 entries. -/
def forkS (c : List Byte) : State :=
  let s := linked (withTable (pteValue (here frames0) 9 false 0) (fset (run core3 []) [(Reg.glbState_state, 1)]))
  let s := (s.writeVault 0 0x11000 (clean (toLE 8 (here 0x30000 + 1))) true).1
  let s := (s.writeVault 0 0x50000 (clean (toLE 4 2 ++ toLE 4 0 ++ toLE 4 4)) true).1
  let ch := s.chan 0
  taking (s.setChan 0 { ch with windows := ch.windows ++ [(3, ⟨BitVec.ofNat 256 (3 + 256 * 2 ^ 16 + here 0x11000 * 2 ^ 64), []⟩)] }) c

theorem witness_fork :
    let c := cmdOf 0x28 0 (2 ^ 24) [(8, 1, 2), (9, 1, 3), (10, 1, 1), (12, 4, 1), (16, 8, here 0x40000), (24, 8, 0x1000)]
    let s := forkS c
    let x := (asks s c).seqWalk (s.window 0 2) 1 0 1
    let y := x.s.seqWalk (s.window 0 3) 1 0 1
    unasked s c = true ∧ y.s.wanted = [] ∧ s.pfx.queue = [] ∧ winKind (s.window 0 2) = 3 ∧ winKind (s.window 0 3) = 3 ∧ here 0x40000 % 64 = 0 ∧ forkSize 1 ≤ 0x1000 ∧ x.st = stOk ∧
      y.st = stOk ∧ x.ready = true ∧ y.ready = true ∧ x.ents.map (fun e => (e.page, e.layer, e.at_, e.priv)) = [(0, 0, here 0x20000, true)] ∧
      y.ents.map (fun e => (e.page, e.at_, pteValid e.e2)) = [(0, here 0x30000, false)] ∧ s.pfx.forkWays 1 0 = some [0] ∧
      hostPlaceB s 0x40000 (descSize 1) = true ∧ hostPlaceB s 0x20000 16 = true ∧ hostPlaceB s 0x30000 16 = true := by
  decide +kernel

theorem witness_release_seq :
    let c := cmdOf 0x29 0 (2 ^ 24) [(8, 1, 2), (10, 1, 1), (12, 4, 0), (16, 4, 1), (24, 8, here 0x50000)]
    let s := forkS c
    let x := (asks s c).seqWalk (s.window 0 2) 1 0 1
    let h := x.s.poolCap hostSite (here 0x50000)
    let t := after (.seqRelease 0) s
    unasked s c = true ∧ h.1.s.wanted = [] ∧ x.st = stOk ∧ x.ready = true ∧ x.ents.map (fun e => (e.at_, e.priv)) = [(here 0x20000, true)] ∧ h.2.toOption = some 4 ∧
      h.1.ready = true ∧ leP (slice h.1.data 0 4) = 2 ∧ hostPlaceB s 0x20000 16 = true ∧ hostPlaceB s 0x50000 64 = true ∧
      hostPlaceB s 0x50050 8 = true ∧ ends t = [some (stOk, 2 ^ 32)] ∧ leP (t.peekVault 0 0x50050 8) = here frames0 ∧
      leP (t.peekVault 0 0x50000 4) = 3 ∧ bit (leP (t.peekVault 0 0x20000 16)) 0 = false := by decide +kernel

theorem witness_profile :
    let c := cmdOf 0x30 0 0 [(8, 2, 800), (10, 2, 50), (12, 1, 1), (13, 1, 30)]
    let s := taking rings c
    let t := after (.thermalProfile 0) s
    s.capRaiseInStorm 800 = false ∧ ends t = [some (stOk, s.getF Reg.ptmProfile_cap_w)] ∧ t.getF Reg.ptmProfile_cap_w = 800 ∧
      t.getF Reg.ptmProfile_dew_floor = 30 := by decide +kernel

theorem witness_licence_query : let s := taking (licensedAll rings) (cmdOf 0x39 0 0 [])
    s.licenceTurn 0 = true ∧ ends (after (.licenceQuery 0) s) = [some (stOk, 7)] := by decide +kernel

/-! ## The BARs -/

/-- A field of bits 7:4 of each type, old value 0xA5A5, written with 0xFFFF0F5A through a mask of 32 bits; a bit that
hardware has set in this cycle. -/
theorem test_field_types : [FieldTy.rw, .rw1c, .rw1s, .ro, .wo].map (fun ty =>
      fieldWritten (2 ^ 32 - 1) 0x5A 0xA5 0xA5 ⟨7, 4, ty, 0⟩) = [0x55, 0xA5, 0xF5, 0xA5, 0xA5] ∧
    fieldWritten 0xF 0x5A 0xA5 0xA5 ⟨7, 4, .rw, 0⟩ = 0xA5 ∧ fieldWritten 0xFF 0x20 0xA5 0xA5 ⟨7, 4, .rw1c, 0⟩ = 0x85 ∧
    fieldWritten 0xFF 0x20 0x85 0xA5 ⟨7, 4, .rw1c, 0⟩ = 0xA5 := by decide +kernel

/-- TLE_STATUS of core 0. -/
def tleAt : Nat := siteBase 0 + 0xC00

/-- CORE_PARAM_PTR of core 0, of 64 bits. -/
def wideReg : Nat := siteBase 0 + 0x30

/-- The first register that starts at an offset of a block. -/
def regOf (b : RegBlock) (l : Nat) : RegDesc := ((findReg b.regs l).map (fun r => r.1)).getD ⟨0, 0, 0, 0, []⟩

/-- `s0` with core 0 and flags of its tile engine set before this cycle. -/
def regS (s : State) : State :=
  let t := fset s [(Reg.coreId_enabled 0, 1), (Reg.tleStatus_nan_op 0, 1), (Reg.tleStatus_ovf 0, 1), (Reg.tleStatus_busy 0, 1)]
  { t with regs0 := t.regs }

/-- A plain register, by evaluation. -/
def plainB (s : State) (b : RegBlock) (i l : Nat) : Bool :=
  ((b == .core && l != 8) || (b == .hif && l != 4) || b == .tle) && !s.writeIgnored b i l && !s.absentAt b i l

/-- TLE_STATUS of core 0: bits 0 to 4 clear where 1 is written, the rest is read only. -/
theorem witness_register_write :
    let s := regS s0
    let d := regOf .tle 0
    let t := after (.registerWrite (BitVec.ofNat 27 tleAt) false 0xFFFF0004) s
    (BitVec.ofNat 27 tleAt).toNat = tleAt ∧ tleAt % 4 = 0 ∧ barLocate tleAt = some (.tle, 0, 0) ∧
      (findReg RegBlock.tle.regs 0).map (fun r => (r.2.1, r.1.width)) = some (0, 32) ∧
      plainB s .tle 0 0 = true ∧ t.reg tleAt = 0x10001 ∧
      t.reg tleAt = BitVec.ofNat 64 (regWritten d (2 ^ 32 - 1) 0xFFFF0004 (s.reg0 tleAt).toNat (s.reg tleAt).toNat) := by
  decide +kernel

/-- A register of 64 bits of 47: its low half waits for the high one; the whole at once; a high half alone. -/
theorem witness_register_halves :
    let s := regS s0
    let t := after (.registerWrite (BitVec.ofNat 27 wideReg) false 0x89ABCDEF) s
    let u := after (.registerWrite (BitVec.ofNat 27 (wideReg + 4)) false 0xFFFF1234) t
    let w := after (.registerWrite (BitVec.ofNat 27 wideReg) true 0xFFFF123489ABCDEF) s
    let h := after (.registerWrite (BitVec.ofNat 27 (wideReg + 4)) false 0xFFFF5678) w
    wideReg % 8 = 0 ∧ barLocate wideReg = some (.core, 0, 0x30) ∧ barLocate (wideReg + 4) = some (.core, 0, 0x34) ∧
      (findReg RegBlock.core.regs 0x30).map (fun r => (r.2.1, r.1.width)) = some (0, 64) ∧
      (findReg RegBlock.core.regs 0x34).map (fun r => (r.2.1, r.1.width)) = some (4, 64) ∧
      plainB s .core 0 0x30 = true ∧ s.absentAt .core 0 0x34 = false ∧ SMap.find t.wrHold wideReg = some 0x89ABCDEF ∧
      t.reg wideReg = 0 ∧ SMap.find s.wrHold wideReg = none ∧ u.reg wideReg = 0x123489ABCDEF ∧ u.wrHold = [] ∧
      w.reg wideReg = 0x123489ABCDEF ∧ h.reg wideReg = 0x567889ABCDEF := by decide +kernel

theorem witness_bar_errors :
    (∀ z ∈ [1, 2, 16], ¬ ((z = 4 ∨ z = 8) ∧ 0x100000 % z = 0)) ∧ ¬ ((8 = 4 ∨ 8 = 8) ∧ 0x100004 % 8 = 0) ∧
      (after (.bar0BadAccess false 0x100004 8) s0).getF Reg.hifErr_bad_access = 1 ∧
      (after (.bar0BadAccess false 0x100004 8) s0).out = [.barData 0 false] ∧
      (after (.bar0BadAccess true 0x100004 8) s0).getF Reg.hifErr_bad_access = 1 ∧
      0x100004 % 8 ≠ 0 ∧ (after (.registerWrite 0x100004 true 0) s0).getF Reg.hifErr_bad_access = 1 ∧
      0x100002 % 4 ≠ 0 ∧ (after (.registerWrite 0x100002 false 0) s0).getF Reg.hifErr_bad_access = 1 ∧
      barLocate 0x7FFF000 = none ∧ barLocate 0x7FFF004 = none ∧ (after (.registerWrite 0x7FFF000 false 9) s0).regs = s0.regs := by
  decide +kernel

theorem witness_bar_timeouts :
    (after (.barReadTimeout false 0x100000) s0).out = [.barData 0xFFFFFFFF false] ∧
      (after (.barReadTimeout false 0xFFFFF) s0).out = [] ∧ s0.barPending 64 = none ∧
      (after (.barReadTimeout true 64) s0).out = [.barData 0xFFFFFFFF false] ∧
      (after (.barReadTimeout true 64) s0).getF Reg.hifErr_read_timeout = 1 := by decide +kernel

theorem witness_bar4_timeout :
    let j : Job := { Job.start 5 hostSite hostEngine 0 0 with fin := .hostRead 64 8, issued := 7, left := 1 }
    let s := { fset s0 [(Reg.hifCtrl_bar_timeout_us, 100)] with jobs := [j], now := 100007 }
    let t := after (.barReadTimeout true 64) s
    s.barPending 64 = some j ∧ j.issued + us (s.getF Reg.hifCtrl_bar_timeout_us) ≤ s.now ∧ t.jobs = [] ∧
      t.out = [.barData (2 ^ 64 - 1) false] ∧ t.getF Reg.hifErr_read_timeout = 1 := by decide +kernel

/-- The sky window's slot 1 is vault 0 of this node, its slot 0 is not valid. -/
def slotted : State := fset (linked (withVault s0)) [(Reg.hifSkySlot_valid 0, 0), (Reg.hifSkySlot_valid 1, 1), (Reg.hifSkySlot_vault 1, here 0 / 2 ^ 32)]

theorem witness_sky_window :
    let s := slotted
    let o := 2 ^ 29 + 4096
    let vid := here 0 / 2 ^ 32
    let r := s.skyRange ioDie (vid * 2 ^ 32 + o % 2 ^ 29) 8 stTranslation false 0
    let w := s.skyRange ioDie (vid * 2 ^ 32 + o % 2 ^ 29) 8 stTranslation true 0
    s.slotVault 4096 = none ∧ (after (.skyWindowRead 4096 8) s).out = [.barData 0 false] ∧
      (after (.skyWindowWrite 4096 []) s).getF Reg.hifErr_unmapped = 1 ∧ s.slotVault o = some vid ∧ r.st = stOk ∧ r.ready = true ∧
      r.pieces = [⟨.vault 0 4096, 0, 8⟩] ∧ w.st = stOk ∧ w.ready = true ∧ w.pieces = [⟨.vault 0 4096, 0, 8⟩] ∧
      apartB w.pieces = true ∧ cleanVault s 0 = true ∧ anyPoison (bytes16.drop 8) = false := by
  decide +kernel

theorem witness_sky_window_moves :
    let s := slotted
    (after (.skyWindowRead (2 ^ 29 + 4096) 8) s).out = [.barData 0x0807060504030201 false] ∧
      (after (.skyWindowWrite (2 ^ 29 + 4096) (bytes16.drop 8)) s).peekVault 0 4096 8 = bytes16.drop 8 := by decide +kernel

/-- Slot 2 is vault 0 of node 3, which port 0 reaches; slot 3 is one of node 9, which nothing reaches. -/
def slotsFar : State :=
  fset (linked (fab s0)) [(Reg.hifSkySlot_valid 2, 1), (Reg.hifSkySlot_vault 2, 3 * 2 ^ 12), (Reg.hifSkySlot_valid 3, 1),
    (Reg.hifSkySlot_vault 3, 9 * 2 ^ 12)]

theorem witness_sky_window_far : [false, true].all (fun write =>
    let s := slotsFar
    let o := 2 * 2 ^ 29 + 4096
    let r := s.skyRange ioDie (3 * 2 ^ 12 * 2 ^ 32 + o % 2 ^ 29) 8 stTranslation write 0
    let t := if write then after (.skyWindowWrite (BitVec.ofNat 40 o) (bytes16.take 8)) s else after (.skyWindowRead (BitVec.ofNat 40 o) 8) s
    s.slotVault o == some (3 * 2 ^ 12) && r.st == stOk && quietB s &&
      (match r.pieces with
        | [⟨.remote _ b, 0, 8⟩] => (cutAt hostPkt b 8).length == 1
        | _ => false) &&
      t.jobs.map (fun j => (j.fin, j.left)) == [(if write then .hostWrite o else .hostRead o 8, 1)]) = true := by decide +kernel

theorem witness_sky_window_lost :
    let s := slotsFar
    let o := 3 * 2 ^ 29 + 4096
    let r := s.skyRange ioDie (9 * 2 ^ 12 * 2 ^ 32 + o % 2 ^ 29) 8 stTranslation false 0
    let w := s.skyRange ioDie (9 * 2 ^ 12 * 2 ^ 32 + o % 2 ^ 29) 8 stTranslation true 0
    s.slotVault o = some (9 * 2 ^ 12) ∧ r.st ≠ stOk ∧ hardSt w.st = true ∧
      (after (.skyWindowRead (BitVec.ofNat 40 o) 8) s).out = [.barData (2 ^ 64 - 1) true] ∧
      (after (.skyWindowRead (BitVec.ofNat 40 o) 8) s).getF Reg.hifErr_poisoned_read = 1 ∧
      (after (.skyWindowWrite (BitVec.ofNat 40 o) (bytes16.take 8)) s).getF Reg.hifErr_write_lost = 1 := by decide +kernel

/-- A REG packet from node 3 for the register at an offset. -/
def regPkt (op a v : Nat) : Packet :=
  { pkt3 clsMgt op 0 with payload := clean (toLE 8 a ++ (if op = 4 then toLE 8 v else [])), length := if op = 4 then 16 else 8 }

/-- The same, poisoned. -/
def badPkt (op a : Nat) : Packet := { regPkt op a 0 with payload := [(0, true)] }

/-- Port 0 of tower 0 leads to node 3, and REG packets are allowed. -/
def regF (allowed : Bool) : State :=
  let s := fset (regS (fab s0)) [(Reg.skyCtrl_mgt_reg 0, b2n allowed)]
  { s with regs0 := s.regs, rdLatch := [(wideReg + 4, 77)] }

/-- The answer, after what must hold of a REG packet. -/
def regAnswered (s : State) (k : Packet) : Option (Nat × Nat) :=
  let t := if k.op = 3 then after (.regRead 0 0 k) s else after (.regWrite 0 0 k) s
  if arrivesB s k clsMgt k.op && s.route 0 (vidNode k.src) == some (0, 1) then
    match sentOut t with
    | [(0, 0, 5, data)] => some (leP (data.take 8), leP (data.drop 8))
    | _ => none
  else none

theorem witness_reg_read :
    let s := regF true
    let at_ (a : Nat) := regAnswered s (regPkt 3 a 0)
    (∀ a ∈ [tleAt, wideReg, wideReg + 4, wideReg + 1], leP ((regPkt 3 a 0).payload.take 8) % 2 ^ 27 = a ∧
      anyPoison (regPkt 3 a 0).payload = false) ∧ s.on (Reg.skyCtrl_mgt_reg 0) = true ∧
    wideAt tleAt = false ∧ SMap.find s.rdLatch tleAt = none ∧ at_ tleAt = some (0x10005, 0) ∧
    wideAt wideReg = true ∧ at_ wideReg = some (0, 0) ∧
    wideAt (wideReg + 4) = false ∧ SMap.find s.rdLatch (wideReg + 4) = some 77 ∧ at_ (wideReg + 4) = some (77, 0) ∧
    at_ (wideReg + 1) = some (0, 0) := by decide +kernel

theorem witness_reg_retained :
    let s := regF true
    (EccMem.scan retZero s.rst.retained 0 4).all (fun w => w.2.kind == .clean) = true ∧
      regAnswered s (regPkt 3 0x00410000 0) = some (0, 0) := by decide +kernel

theorem witness_reg_barred : [3, 4].all (fun op =>
    let s := regF false
    !s.on (Reg.skyCtrl_mgt_reg 0) && ((regAnswered s (regPkt op tleAt 4)).map Prod.snd) == some stBadOpcode &&
      (op == 3 || (after (.regWrite 0 0 (regPkt 4 tleAt 4)) s).reg tleAt == s.reg tleAt)) = true := by decide +kernel

theorem witness_reg_poisoned : [3, 4].all (fun op =>
    let s := regF true
    anyPoison (badPkt op tleAt).payload && ((regAnswered s (badPkt op tleAt)).map Prod.snd) == some stPoisoned) = true := by
  decide +kernel

theorem witness_reg_write :
    let s := regF true
    let at_ (a v : Nat) := (regAnswered s (regPkt 4 a v)).map Prod.snd
    (∀ a ∈ [tleAt, wideReg, wideReg + 1, 0x7FFF000], leP ((regPkt 4 a 9).payload.take 8) % 2 ^ 27 = a ∧
      anyPoison (regPkt 4 a 9).payload = false) ∧ plainB s .tle 0 0 = true ∧ plainB s .core 0 0x30 = true ∧
    wideAt tleAt = false ∧ at_ tleAt 4 = some 0 ∧ (after (.regWrite 0 0 (regPkt 4 tleAt 4)) s).reg tleAt = 0x10001 ∧
    at_ wideReg 9 = some 0 ∧ (after (.regWrite 0 0 (regPkt 4 wideReg 0x5000000009)) s).reg wideReg = 0x5000000009 ∧
    at_ (wideReg + 1) 9 = some 0 ∧ barLocate 0x7FFF000 = none ∧ barLocate (0x7FFF000 + 4) = none ∧
    at_ 0x7FFF000 9 = some 0 := by decide +kernel

/-! ## Power and temperature -/

/-- The device is READY, its firmware up and alive. -/
def fw (s : State) : State := fset s [(Reg.bootStatus_stage, 10), (Reg.glbState_state, 1), (Reg.glbState_fw_alive, 1)]

/-- Tower 0 at a level. -/
def atLevel (l : Nat) (s : State) : State := fset s [(Reg.ptmTState_level 0, l)]

theorem witness_sensor_sample :
    let r : List (Nat × Int) := [(3, 400), (700, 1300)]
    s0.sent = [] ∧ s0.inFullReset = false ∧ s0.on Reg.ptmInject_offset_en = false ∧
      duePeriod s0.power.sampledAt (us 20) s0.now = true ∧ duePeriod (some 0) (us 20) 19999 = false ∧ (r.map Prod.fst).Nodup ∧
      (∀ e ∈ r, e.1 % 128 < sensorCount (e.1 / 128)) ∧
      (r.foldl (fun s e => s.sampleOne (e.1 / 128) (e.1 % 128) e.2) s0).sensors.map Prod.snd =
        [⟨400, 0, false⟩, ⟨1300, 0, true⟩] := by decide +kernel

theorem witness_sensor_silent :
    let s := { s0 with now := us 200 }
    let t := s.breakSensor 0 3
    s.inFullReset = false ∧ 3 < sensorCount 0 ∧ (s.rawSensor 0 3).at_ + us 200 ≤ s.now ∧ (s.rawSensor 0 3).broken = false ∧
      (t.rawSensor 0 3).broken = true ∧ t.records.map (fun x => (x.cls, x.kind, x.addr)) = [(1, 15, 3)] ∧
      t.getF Reg.ptmSensorSel_index < sensorCount (t.getF Reg.ptmSensorSel_die) := by decide +kernel

theorem witness_quiesce :
    let s := atLevel 3 (fw s0)
    s.fwUp = true ∧ s.level 0 = 3 ∧ s.on (Reg.ptmTState_tripped 0) = false ∧
      ((List.range 576).all fun j => s.engBusy j 127 == false) = true := by decide +kernel

theorem witness_quiesce_timeout :
    let s := { atLevel 3 s0 with now := ms 5 }
    s.sent = [] ∧ s.on (Reg.ptmTState_quiesce_done 0) = false ∧ (s.tpwr 0).stormAt + ms 5 ≤ s.now ∧
      s.on (Reg.ptmTState_tripped 0) = false ∧ s.on Reg.ptmInject_trip_dry = false := by decide +kernel

theorem witness_rate_request :
    let s := { s0 with pwr := [(0, { TowerPwr.reset with detector := 2 })], now := ms 10 }
    (s.tpwr 0).detector = 2 ∧ (s.tpwr 0).detectorAt + ms 10 ≤ s.now ∧
      ((after (.rateRequestExpire 0) s).tpwr 0).detector = 0 := by decide +kernel

/-- The rate detector asks for Overcast, and the tower rises to it at once. -/
theorem witness_levels :
    let s := fw (fset { s0 with pwr := [(0, { TowerPwr.reset with detector := 2 })] } [(Reg.ptmTState_level 0, 0)])
    (s.tpwr 0).detector ≤ 3 ∧ (s.levelRequest 0).1 = 2 ∧ s.on (Reg.ptmTState_tripped 0) = false := by decide +kernel

theorem witness_power_sample :
    let mv := fun _ => 700
    let s := s0
    let t := after (.powerSample ((List.range 9).map (fun r => (r, some (mv r, 1000)))) ⟨[], 0⟩) s
    s.inFullReset = false ∧ s.on Reg.rasInject_arm = false ∧ duePeriod s.power.powerAt (us 100) s.now = true ∧
      t.getF Reg.ptmPower_sample_w = 630 := by decide +kernel

theorem witness_power_windows :
    let s := fw { s0 with now := ms 1000 }
    s.windowDue (ms 100) s.power.winAt = true ∧ s.inFullReset = false ∧ s.fwManages = true ∧
      duePeriod s.power.trimAt (ms 10) s.now = true ∧ s.power.coolantAt.getD 0 + ms 1000 ≤ s.now ∧
      (after .powerWindowEnd s).getF Reg.ptmPower_avg_w = 0 ∧ coolantCap 320 110 = 1000 ∧ coolantCap 336 220 = 1900 := by
  decide +kernel

theorem witness_flow_suspect :
    let s := { fw s0 with pwr := [(0, { TowerPwr.reset with suspectRun := 1 })], now := ms 100 }
    s.windowDue (ms 100) s.power.flowAt = true ∧ s.fwManages = true ∧ s.on Reg.ptmStatus_flow_suspect = false ∧
      flowSuspect { s.tpwr 0 with residPast := some (0, 0) } (some (115, 100)) = true ∧ 1 ≤ (s.tpwr 0).suspectRun := by
  decide +kernel

/-- The judgement of a window that has ended. -/
theorem test_flow_suspect :
    let s := { fw s0 with pwr := [(0, { TowerPwr.reset with suspectRun := 1, residPast := some (0, 0) })] }
    let t := after (.flowWindowEnd [(115, 100)]) s
    t.on Reg.ptmStatus_flow_suspect = true ∧ .msix 0 ∈ t.out := by decide +kernel

/-- Tower 0 in Clear with a target of 700 mV, 1 ms on. -/
def vcoreS : State := { atLevel 0 (fset (fw s0) [(Reg.ptmTVcore_target_mv 0, 700)]) with now := ms 1 }

theorem witness_vcore :
    let s := vcoreS
    let t := after (.vcoreUpdate 0 900) s
    s.fwManages = true ∧ s.on (Reg.ptmRail_stale 0) = false ∧ s.on (Reg.ptmTState_tripped 0) = false ∧ s.level 0 ≠ 3 ∧
      (s.tpwr 0).vcoreAt + ms 1 ≤ s.now ∧ s.vcoreNow 0 = 700 ∧ t.getF (Reg.ptmTVcore_target_mv 0) = 850 ∧
      (t.tpwr 0).vcoreAt = ms 1 ∧ t.railNow 0 = s.railNow 0 ∧
      (after (.vcoreUpdate 0 697) s).getF (Reg.ptmTVcore_target_mv 0) = 697 := by decide +kernel

/-- Toward 700 mV from 750, from 692 and from 703, at a tick of 10 µs and at one that is none. -/
theorem witness_vcore_moves :
    let s := vcoreS
    [(750, 745), (692, 697), (703, 700)].all (fun e =>
      let r := fset s [(Reg.ptmRail_target_mv 0, e.1)]
      s.now % us 10 == 0 && r.vcoreNow 0 == 700 && r.railNow 0 == e.1 && r.vcoreTicks.railNow 0 == e.2) = true := by decide +kernel

theorem witness_vcore_rests :
    let s := { vcoreS with now := ms 1 + 1 }
    s.now % us 10 ≠ 0 ∧ s.vcoreTicks.railNow 0 = 750 := by decide +kernel

theorem witness_heartbeat :
    let s := { fw s0 with now := ms 10 }
    let t := after .heartbeat (fset s [(Reg.ptmStatus_fw_fallback, 1)])
    s.fwUp = true ∧ s.on Reg.glbState_fw_alive = true ∧ s.power.beatAt + ms 10 ≤ s.now ∧
      (∀ k : Tower, (s.tpwr k).detector ≤ 3) ∧ t.on Reg.ptmStatus_fw_fallback = false ∧ t.power.beatAt = ms 10 := by decide +kernel

theorem witness_forecast_gate :
    let s := fw s0
    s.fwManages = true ∧ duePeriod s.power.forecastAt (us 100) s.now = true ∧ s.now % 1000 = 0 ∧ (∀ k : Tower, (s.tpwr k).detector ≤ 3) ∧
      s.hot.all (fun e => decide (-2048 ≤ e.2.offset ∧ e.2.offset ≤ 2048)) = true ∧ HotSpot.reset.offset = 0 := by decide +kernel

theorem witness_dew :
    let s := { fw s0 with pwr := [(0, { TowerPwr.reset with heatersFullSince := some 0 })], now := ms 1000 }
    (s.tpwr 0).heatersFullSince = some 0 ∧ 0 + ms 1000 ≤ s.now ∧ s.fwManages = true ∧ s.on Reg.ptmStatus_dew_risk = false ∧
      s.layer7Below 0 (8 * s.getF Reg.ptmProfile_dew_floor) = true ∧ (after (.dewRisk 0) s).out = [.msix 0] := by decide +kernel

theorem witness_rise :
    let x := { HotSpot.reset with winFirst := some 0, hist := [17] }
    let s := { fw s0 with hot := [(0, x)], now := ms 10 }
    s.windowDue (ms 10) (s.tpwr 0).riseAt = true ∧ s.inFullReset = false ∧ s.fwManages = true ∧ s.level 0 = 2 ∧
      s0.fwManages = false ∧ ((after (.riseWindowEnd 0) s).tpwr 0).beCeiling = Nat.max 1 (beCeiling 2 / 2) := by decide +kernel

/-! ## Reset and clocks -/

theorem witness_full_reset :
    let s := { s0 with rst := { s0.rst with vauxOk := true } }
    let t := after .perstNAssert s
    s.rst.vauxOk = true ∧ s.inFullReset = false ∧ t.on (causeBit .perst) = true ∧ t.rst.sources = [.perst] ∧
      t.getF Reg.rstCause_full_resets = 1 ∧ t.getF Reg.glbState_state = 0 ∧ t.rst.phase = .driving s.driveUntil := by
  decide +kernel

theorem witness_hot_reset :
    let s := s0
    let s' := { s with rst := { s.rst with optBytes := List.replicate 0x71 0 ++ [1] } }
    bit (fieldLE s.rst.optBytes 0x71 1) 0 = false ∧ bit (fieldLE s'.rst.optBytes 0x71 1) 0 = true ∧
      (after .hotReset s').on Reg.hifLink_up = false ∧ (after .hotReset s').rst = s'.rst ∧ s'.inFullReset = false := by
  decide +kernel

theorem witness_full_go :
    let s := { s0 with rst := { s0.rst with armedAt := some 5 }, now := 6 }
    let u := { s with now := ms 2 }
    s.rst.armedAt = some 5 ∧ s.now < 5 + ms 1 ∧ (after .fullGo s).on (causeBit .host) = true ∧ 5 + ms 1 ≤ u.now ∧
      after .fullGo u = u ∧ s0.rst.armedAt = none := by decide +kernel

theorem witness_reset_release :
    let d := { s0 with rst := { s0.rst with phase := .driving 9, sources := [] }, now := 9 }
    let s := { s0 with rst := { s0.rst with phase := .released }, now := 9 }
    let t := after (.fullResetRelease 1000) s
    d.rst.phase = .driving 9 ∧ 9 ≤ d.now ∧ d.rst.sources = [] ∧ after .resetStretchEnd d = { d with rst := { d.rst with phase := .released } } ∧
      (after (.fullResetRelease 0) { s with rst := { s.rst with phase := .exiting 1 } }).now = 0 ∧
      (after (.fullResetRelease 999) s).now = 9 ∧ s.rst.phase = .released ∧ t.now = 0 ∧ t.on Reg.clkStatus_pll_locked = true := by decide +kernel

theorem witness_startup_stuck : [1, 2, 3, 4, 5].all (fun k =>
    let s := { s0 with rst := { s0.rst with phase := .exiting k }, now := us 100000000 }
    let t := after .startupStepTimeout s
    s.rst.phase == .exiting k && decide (s.rst.stepAt + us (stepBound k) ≤ s.now) && t.rst.phase == .stuck k &&
      t.getF Reg.rstStatus_stuck == 2 ^ (k - 1)) = true := by decide +kernel

theorem witness_clocks :
    let s := fset s0 [(Reg.dlkLinkStatus_state 0, lkActive)]
    let t := after (.tickSyncCheck 0 (-5)) s
    s.inFullReset = false ∧ s.linkState 0 = lkActive ∧ s.rst.phase = .out ∧
      duePeriod (SMap.find s.rst.syncAt 0) (ms 1) s.now = true ∧
      (after (.serdesUnlock (.link 0)) s).linkState 0 = lkRetrain ∧ t.getF (Reg.clkTickSync_offset 0) = 251 ∧
      t.getF (Reg.clkTickSync_corrections 0) = 1 := by decide +kernel

/-- A device READY whose compute mask names tower 1. -/
def crs (st : Nat) : State :=
  fset s0 [(Reg.glbState_state, 1), (Reg.rstCtrl_compute_mask, 2), (Reg.rstStatus_cr_mask, 2), (Reg.rstStatus_cr_state, st)]

theorem witness_compute_go :
    let s := crs 0
    s.getF Reg.rstCtrl_compute_mask ≠ 0 ∧ s.getF Reg.rstStatus_cr_state = 0 ∧ s.getF Reg.glbState_state = 1 ∧
      s.rst.block = none ∧ s.queues = [] ∧ s.cores = [] ∧ Core.reset.hold = .none ∧
      (after .computeGo s0).on Reg.rstStatus_cr_refused = true := by decide +kernel

theorem witness_compute_phases :
    let d := { crs 1 with now := ms 100 }
    let h := crs 2
    let r := { crs 3 with rst := { s0.rst with crChans := [0] }, chans := [(0, { chan0 with st := .faulted })] }
    d.getF Reg.rstStatus_cr_state = 1 ∧ d.rst.crSince + us (d.getF Reg.rstCrCfg_drain_us) ≤ d.now ∧
      h.getF Reg.rstStatus_cr_state = 2 ∧ r.getF Reg.rstStatus_cr_state = 3 ∧ r.sent = [] ∧ r.wedged = false ∧
      (after .releaseComplete r).getF Reg.rstStatus_cr_state = 0 ∧
      (after .releaseComplete r).events.map (fun e => (e.kind, e.site, e.status)) = [(3, 0xFFFF, stResetAborted)] := by
  decide +kernel

/-- A block reset of core 0's block of a kind. -/
def blk (kind : Nat) (force : Bool) : BlockReset :=
  { site := 0, kind := kind, force := force, since := 0, timeout := 1, heldAt := 0, status := 0 }

theorem witness_block_go :
    let s := fset s0 [(Reg.coreId_enabled 0, 1)]
    let go := fun (n : Nat) => after (.blockResetGo (BitVec.ofNat 32 n)) s
    s.getF Reg.rstBlockStatus_state = 0 ∧ s.getF Reg.rstStatus_cr_state = 0 ∧ s.coreOn 0 = true ∧ s.coreOn 1 = false ∧
      (go (2304 + 0x8000)).getF Reg.rstBlockStatus_last_status = stBadParam ∧
      (go (1 + 0x8000)).getF Reg.rstBlockStatus_last_status = stEngineAbsent ∧
      (go (0x8000 + 0x4000)).rst.block = some (blk 0 true) ∧
      (after (.blockResetGo 0x8000) (go 0x8000)).on Reg.rstBlockStatus_busy_err = true := by decide +kernel

theorem witness_block_idle : [0, 1, 2].all (fun kind =>
    let b := blk kind false
    let s := fset { s0 with rst := { s0.rst with block := some b } } [(Reg.coreId_enabled 0, 1), (Reg.rstBlockStatus_state, 1)]
    let t := after .blockIdle s
    s.rst.block == some b && s.blockIdle b && (s.core 0).hold == .none && (s.queue 0).requests == [] &&
      (s.vault 0).watches == [] && t.getF Reg.rstBlockStatus_state == 2 && t.rst.block == some b) = true := by decide +kernel

theorem witness_block_release :
    let b := { blk 2 false with heldAt := 3, status := 7 }
    let s := fset { s0 with rst := { s0.rst with block := some b }, now := 1003 } [(Reg.rstBlockStatus_state, 2)]
    let t := after .blockResetRelease s
    s.rst.block = some b ∧ b.heldAt + us 1 ≤ s.now ∧ (s.vault b.site).waiting = [] ∧ t.rst.block = none ∧
      t.getF Reg.rstBlockStatus_last_status = 7 := by decide +kernel

theorem witness_block_timeout : [false, true].all (fun force =>
    let b := blk 0 force
    let s := fset { s0 with rst := { s0.rst with block := some b }, now := us 1 } [(Reg.rstBlockStatus_state, 1)]
    let t := after .blockResetTimeout s
    s.rst.block == some b && decide (b.since + us b.timeout ≤ s.now) && (s.vault 0).waiting == [] &&
      (s.core 0).hold == .none && t.on Reg.rstBlockStatus_timed_out &&
      t.getF Reg.rstBlockStatus_state == (if force then 2 else 0) &&
      t.getF Reg.rstBlockStatus_last_status == (if force then 0 else stBlockBusy)) = true := by decide +kernel

/-! ## Bring-up and trust -/

/-- A public key on P-384: 0x04, then x and y. -/
def theKey : List Byte :=
  toLE 52 0x6f6a0183dc188cb22be578c7f795e3431754632b601b264c9f8fad0808a7721c12ae18f6355bc90e850f3987b55e919560f9fb04 ++
  toLE 45 0x3cabc9df9ddc151a81191e01df65ec950910ae87db19d00a73e480b43b21d23ca548d13b0ad56a3268932cf7f3

/-- A manifest of one MGMT segment of 64 bytes of 0xAA, svn 3, revoking slot 1, signed under `theKey`. -/
def theManifest : List Byte :=
  toLE 52 0x770000000100000744030200014c524d46 ++
  toLE 52 0x0 ++
  toLE 52 0x9f8fad0808a7721c12ae18f6355bc90e850f3987b55e919560f9fb04000000000000000000000000000000000000000000000000 ++
  toLE 52 0x10ae87db19d00a73e480b43b21d23ca548d13b0ad56a3268932cf7f36f6a0183dc188cb22be578c7f795e3431754632b601b264c ++
  toLE 52 0x3cabc9df9ddc151a81191e01df65ec9509 ++
  toLE 52 0x29a97b5a08b8b85223821ec36c997c13c6d0b425b80bf6621cb944752c02e6df3f072572567fac65000000000000100000000040 ++
  toLE 52 0xc3dbbc0ae697a21c4a2f8837b08365e5cb61664fc58ff9bf1de508f267e425a05eac3c5777c751c2a224de119db2678e37ff884c ++
  toLE 52 0xd46d64fb9a6db0f4b50fad10f74851349f804bd4166413dcb1e6eeff450801ef963ec59eafc939666215ce2a2529b89ebc846d83

/-- A licence of 160 bytes for serial 0 with features 5, signed under `theKey`. -/
def theLicence : List Byte :=
  toLE 52 0x5000000000000000000a001014c444c43 ++
  toLE 52 0xb2ebb9556f52058b501c7bfa9dcc582dfa5feafb97e96fadfedf4e23bf8e9ff28847ce65731d3c28000000000000000000000000 ++
  toLE 52 0xd668659c04370870c7f24a7bc43934ccbddacbe7f8caf486a8effaa1c2b76bba5518556d6212b65675836a37e1d0b68fb4050f04 ++
  toLE 4 0xa62948dc

/-- A part whose image slot 0 and licence slot 1 hold `theKey`. -/
def keyed (s : State) : State :=
  { s with chip := { s.chip with imageKeys := [sha384 theKey], licKeys := [[], theKey] } }

/-- In a boot stage. -/
def stage (n : Nat) (s : State) : State := fset s [(Reg.bootStatus_stage, n)]

/-- SHA-384 of the empty string and of abc, FIPS 180-4's examples. -/
theorem test_sha384 :
    beNat (sha384 []) = 0x38B060A751AC96384CD9327EB1B1E36A21FDB71114BE07434C0CC7BF63F6E1DA274EDEBFE76F65FBD51AD2F14898B95B ∧
      beNat (sha384 [0x61, 0x62, 0x63]) =
        0xCB00753F45A35E8BB5A03D699AC65007272C32AB0EDED1631A8B605A43FF5BED8086072BA1E7CC2358BAECA134C825A7 := by decide +kernel

theorem witness_rom_start :
    let s := stage 0 s0
    s.rst.phase = .out ∧ s.bootStage = 0 ∧ (after (.romStart (some 0x10000000)) s).bootStage = 1 ∧
      (after (.romStart (some 0x10000001)) s).bootStage = stageFailed := by decide +kernel

/-- A manifest passes its checks: form, key, signature, svn floor. -/
theorem witness_manifest :
    let s := keyed (stage 1 s0)
    let t := after (.manifest (some theManifest)) s
    s.rst.phase = .out ∧ s.bootStage = 1 ∧ s.on Reg.bootInject_sig_fail = false ∧ s.manifestOutcome theManifest false = none ∧
      t.bootStage = 2 ∧ t.getF Reg.bootImage_svn = 3 ∧ t.getF Reg.bootImage_segments = 1 ∧ t.getF Reg.bootImage_version = 0x77 := by
  decide +kernel

theorem test_manifest_refused :
    let s := keyed (stage 1 s0)
    s.manifestOutcome (theManifest.set 16 0x78) false = some stSigInvalid ∧
      s.manifestOutcome (theManifest.set 0 0) false = some stImageIncomplete ∧
      { s with chip := { s.chip with svnFloor := 4 } }.manifestOutcome theManifest false = some stImageRollback := by
  decide +kernel

/-- Stage 2 with the manifest read, its segment not yet loaded. -/
def read2 : State := { stage 2 s0 with boot := { s0.boot with manifest := some (manifestOf theManifest) } }

theorem witness_segment_read :
    let x := segEntry theManifest 0
    let good : List Byte := List.replicate 64 0xAA
    let bad : List Byte := [1]
    read2.segs[0]? = some x ∧ read2.mayRead x.1 = true ∧ read2.loaded 0 = false ∧
      ([bad, good].take 3).find? (readMatches x) = some good ∧ ([bad, bad, bad].take 3).find? (readMatches x) = none ∧
      (after (.segmentRead 0 [bad, bad, bad]) read2).bootStage = stageFailed := by decide +kernel

theorem witness_mgmt_load :
    let s := { read2 with boot := { read2.boot with image := [(0, [1])] } }
    s.bootStage = 2 ∧ s.classLoaded 0 = true ∧ (after .mgmtLoad s).bootStage = 3 ∧
      (after .mgmtLoad s).getF (Reg.ptmRail_target_mv 5) = 1800 := by decide +kernel

theorem witness_fw_init :
    let s := fw (stage 3 s0)
    let s := stage 3 s
    let r := yieldRecord s 1 0 5 0x12345
    s.fwUp = true ∧ s.bootStage = 3 ∧ s.recordValid r = true ∧ s.pendRecords = [] ∧ fieldLE r 4 1 = 1 ∧ fieldLE r 6 2 = 5 ∧
      (s.vault 5).retired = [] ∧ s.vaultState 5 ≠ vsRetired ∧ ((after (.fwInit [r]) s).vault 5).retired = [0x12345] := by
  decide +kernel

theorem witness_mem_test :
    let s := stage 4 s0
    let t := after (.memTest [(5, 77)] []) s
    s.bootStage = 4 ∧ s.vaults = [] ∧ s.vaultState 5 ≠ vsRetired ∧ (t.vault 5).retired = [77] ∧ t.bootStage = 5 ∧
      t.boot.found.length = 1 ∧ (stage 5 s).bootStage = 5 := by decide +kernel

theorem witness_core_test :
    let s := stage 8 s0
    let t := after (.coreTest [7, 9999] [2]) s
    s.bootStage = 8 ∧ s.on Reg.bootInject_core_fail = false ∧ t.boot.coreFail = [7] ∧ t.bootStage = 9 := by decide +kernel

theorem witness_reconcile :
    let s := stage 9 s0
    s.bootStage = 9 ∧ s.fwUp = true ∧ s.coreVerdict 0 = 4 ∧ gradeTower 2 [0, 2, 0, 0] = [0, 2, 0, 1] := by decide +kernel

theorem witness_stage_timeout : [0, 1, 2, 3, 4, 5, 6, 8, 9].all (fun n =>
    let s := { stage n s0 with now := ms 1000 }
    s.rst.phase == .out && s.bootStage == n && decide (s.boot.stageAt + ms (bootBound n) ≤ s.now) &&
      (after .bootStageTimeout s).bootStage == stageFailed) = true := by decide +kernel

theorem witness_svn_commit :
    let m := manifestOf theManifest
    let s := { fw s0 with boot := { s0.boot with manifest := some m, svnArmed := some 0 } }
    let t := after .svnCommit s
    s.boot.svnArmed = some 0 ∧ s.boot.manifest = some m ∧ s.now < 0 + ms 1 ∧ s.inService = true ∧ t.chip.svnFloor = 3 ∧
      t.chip.imageRevoked = 2 ∧ t.on Reg.secSvnCommit_done = true := by decide +kernel

/-- A manifest of one CORE segment of 300 bytes for offset 4096, loaded; boot is in a stage. -/
def core1 (n : Nat) : State :=
  let bs : List Byte := List.replicate 300 0x5A
  { stage n s0 with boot := { s0.boot with
      manifest := some { version := 0, svn := 0, keySlot := 0, revoke := 0, digest := [], segs := [(2, 300, 4096, sha384 bs)] }
      image := [(0, bs)] } }

theorem witness_rainfall :
    let s := core1 6
    let t := after (.rainfall 0) s
    s.coreSegs.map Prod.fst = [0] ∧ s.bootStage = 6 ∧ s.boot.rained = 0 ∧ s.loaded 0 = true ∧
      t.getF Reg.bootRain_pieces = 2 ∧ t.bootStage = 7 := by decide +kernel

theorem witness_rainfall_piece :
    let s := fset (core1 7) [(Reg.bootRain_pieces, 2)]
    let t := after (.rainfallPiece 3 1 false) s
    s.eligible 3 = true ∧ 1 < s.getF Reg.bootRain_pieces ∧ (s.receiver 3).next ≤ 1 ∧ (s.receiver 3).marked = false ∧
      s.bootStage = 7 ∧ s.on Reg.bootInject_drop = false ∧ placePiece s.coreSegs 0 1 = some (0, 1) ∧
      (slice ((SMap.find s.boot.image 0).getD []) 256 256).length = 44 ∧ 4096 + 256 + 44 ≤ vaultSize ∧ cleanVault s 3 = true ∧
      (t.receiver 3).next = 2 ∧ (t.receiver 3).missed = [0] ∧ t.peekVault 3 4352 44 = clean (List.replicate 44 0x5A) := by
  decide +kernel

theorem witness_end_marker :
    let s := fset { (core1 7).setReceiver 3 { Receiver.reset with next := 1, lastAt := some 0 } with now := ms 1 } [(Reg.bootRain_pieces, 2)]
    let t := after (.endMarker 3 2) s
    s.bootStage = 7 ∧ s.eligible 3 = true ∧ (s.receiver 3).marked = false ∧ (s.receiver 3).done = false ∧
      (s.receiver 3).lastAt = some 0 ∧ 0 + ms 1 ≤ s.now ∧ (t.receiver 3).missed = [0] ∧ t.boot.fetchQ = [3] ∧
      (after (.segmentFetch none) t).boot.fetchQ = [] ∧ ((after (.segmentFetch none) t).receiver 3).served = true := by decide +kernel

/-- Site 3 waits for its first missed segment after some attempts, this one begun some time ago. -/
def fetching (n age : Nat) : State :=
  { (core1 7).setReceiver 3 { Receiver.reset with
      marked := true, missed := [0], served := true, attempts := n, fetchAt := ms 10 - age } with now := ms 10 }

theorem witness_fetch_attempt :
    let s := fetching 2 (ms 2 - 1)
    let o := fetching 2 (ms 2)
    let bs : List Byte := List.replicate 300 0x5A
    let t := after (.fetchAttemptEnd 3 (some bs)) s
    let u := after (.fetchAttemptEnd 3 none) o
    s.bootStage = 7 ∧ (s.receiver 3).marked = true ∧ (s.receiver 3).done = false ∧ (s.receiver 3).missed ≠ [] ∧
      s.on Reg.bootInject_absent = false ∧ (s.receiver 3).served = true ∧
      (s.coreSegs[0]?).map (fun e => readMatches e.2 bs) = some true ∧ cleanVault s 3 = true ∧ s.eligible 3 = true ∧
      s.now < (s.receiver 3).fetchAt + ms 2 ∧ (o.receiver 3).fetchAt + ms 2 ≤ o.now ∧ (t.receiver 3).done = true ∧ (u.receiver 3).absent = true ∧
      ((after (.fetchAttemptEnd 3 none) (fetching 1 (ms 2))).receiver 3).attempts = 2 ∧ s.boot.stageAt + ms 10 ≤ s.now := by
  decide +kernel

theorem test_fetch_data : (after (.fetchAttemptEnd 3 (some (List.replicate 300 0x5A))) (fetching 0 0)).peekVault 3 4392 4 =
    clean [0x5A, 0x5A, 0x5A, 0x5A] := by decide +kernel

theorem witness_licence :
    let s := keyed (taking rings (cmdOf 0x38 0 0 [(8, 4, 160), (16, 8, 0x5000)]))
    let data := clean theLicence
    let t := after (.licenceInstall 0 (some data)) s
    s.licenceTurn 0 = true ∧ s.on Reg.rasInject_arm = false ∧ s.on Reg.licInject_arm = false ∧ data.length = 160 ∧
      anyPoison data = false ∧ licenceForm 160 theLicence = true ∧ s.licenceSigned 160 theLicence = true ∧ t.features = 5 ∧
      ends t = [some (stOk, 5)] := by decide +kernel

/-! ## Errors, the crash record, debug and management -/

/-- An error record of a class at tick 5. -/
def rec0 (c site : Nat) : Record :=
  { cls := c, block := 3, site := site, status := 9, kind := 2, suppressed := 0, addr := 64, tick := 5, detail := 0 }

theorem witness_error_record :
    let s := { s0 with records := [rec0 1 9, rec0 1 4] }
    let t := after .errorRecord s
    s.logCount < 1023 ∧ (rec0 1 4).cls ≠ 0 ∧ nextRecord 1 0 (rec0 1 9) [rec0 1 4] = 1 ∧ t.records = [rec0 1 9] ∧
      t.getF Reg.rasLogIdx_tail = 1 ∧ t.on Reg.rasStatus_pending = true := by decide +kernel

/-- A first corrected error of a window is logged, a second one only counted. -/
theorem witness_ce_records :
    let s := { s0 with records := [rec0 0 4] }
    let t := after .errorRecord s
    let u := { t with records := [rec0 0 4] }
    let w := after .errorRecord u
    (SMap.get (fun _ => (0, 0)) s.ras.ceWin (rec0 0 4).source).1 ≠ s.ceWindow 5 + 1 ∧ t.getF Reg.rasLogIdx_tail = 1 ∧
      u.logCount < 1023 ∧ (SMap.get (fun _ => (0, 0)) u.ras.ceWin (rec0 0 4).source).1 = u.ceWindow 5 + 1 ∧
      w.getF Reg.rasLogIdx_tail = 1 ∧ (SMap.get (fun _ => (0, 0)) w.ras.ceWin (rec0 0 4).source).2 = 1 := by decide +kernel

/-- The handler's work: core 1 wrote its section, core 0 the header too or not. -/
def work (header : Bool) : CrashWork := ⟨[none, some (List.replicate 2048 7), none, none], header⟩

theorem witness_watchdog :
    let s := fw s0
    let t := after (.watchdogExpire ⟨2, work false⟩) s
    let u := after (.watchdogExpire ⟨1, work true⟩) s
    s.fwUp = true ∧ t.getF Reg.rasWdog_expired = 4 ∧ t.getF Reg.glbState_state = 4 ∧ t.ras.crashes = [(0, 1, 4, 2)] ∧
      t.records.map (fun r => (r.cls, r.kind, r.site)) = [(4, 25, 0xFFFF)] ∧
      s.on Reg.rstRetCtrl_crash_lock = false ∧ u.ras.crashes = [] ∧ u.on Reg.rstRetCtrl_crash_lock = true ∧
      u.on Reg.glbState_crash_record = true ∧ (u.retBytes 0 8).drop 4 = [1, 1, 0, 2] ∧ u.retBytes 0xC00 2 = [7, 7] := by decide +kernel

theorem witness_crash_writer : [0, 1].all (fun lock =>
    let s := fset { s0 with ras := { s0.ras with crashes := [(0, 1, 4, 2)] }, now := ms 1 } [(Reg.rstRetCtrl_crash_lock, lock)]
    s.ras.crashes == [(0, 1, 4, 2)] && decide (0 + ms 1 ≤ s.now) && s.on Reg.rstRetCtrl_crash_lock == (lock == 1)) = true := by
  decide +kernel

theorem witness_crash_release :
    (EccMem.word retZero s0.rst.retained 0).decode.kind = .clean ∧
      (after .crashRelease (fset s0 [(Reg.rstRetCtrl_crash_lock, 1)])).on Reg.rstRetCtrl_crash_lock = false := by decide +kernel

theorem witness_panic :
    let s := fw s0
    let t := after (.firmwarePanic (work true)) s
    s.fwUp = true ∧ s.on Reg.rstRetCtrl_crash_lock = false ∧ t.on Reg.glbState_crash_record = true ∧
      t.getF Reg.glbState_state = s.getF Reg.glbState_state := by decide +kernel

theorem witness_step :
    let s := fset (run core3 [word 7 0 0]) [(Reg.coreStatus_state 0, csBreak)]
    let t := after (.dbgStep 0x2000) s
    s.stepping = false ∧ s.coreState 0 = csBreak ∧ (s.core 0).wordAt (s.pc 0) ≠ .poison ∧ t.coreState 0 = csRunning ∧
      (t.core 0).stepsLeft = 2 ∧ (after (.dbgStep 0) s).on Reg.dbgStatus_step_err = true := by decide +kernel

theorem witness_snapshot :
    let s := { s0 with chans := [(1, { chan0 with cores := [] })] }
    s.on Reg.dbgStatus_snap_busy = false ∧ (s.chan 1).st = .live ∧ (s.chan 2).st ≠ .live ∧ (s.chan 2).st ≠ .faulted ∧
      (after (.snapshot 1 true) s).out = [] ∧ (after (.snapshot 0x4002 true) s).on Reg.dbgStatus_snap_err = true := by
  decide +kernel

/-- A trace record of a cycle, site and type. -/
def tr (cycle site ty : Nat) : List Byte := toLE 4 cycle ++ toLE 4 0 ++ toLE 4 0 ++ toLE 4 (site + ty * 2 ^ 12)

theorem witness_trace_record :
    let s := { s0 with dbg := { s0.dbg with incoming := [tr 1 5 0, tr 1 2 1, tr 1 2 0] } }
    let f := { s with dbg := { s.dbg with store := List.replicate 256 (tr 0 0 0) } }
    traceNext (tr 1 5 0) [tr 1 2 1, tr 1 2 0] [] = (tr 1 2 0, [tr 1 5 0, tr 1 2 1]) ∧ s.dbg.droppedSince = 0 ∧
      s.dbg.store.length < traceStore ∧ traceStore ≤ f.dbg.store.length ∧ (after .traceRecord s).dbg.store = [tr 1 2 0] ∧
      (after .traceRecord f).getF Reg.dbgTraceCnt_dropped = 1 := by decide +kernel

theorem witness_trace_write :
    let s := fset { withVault (linked s0) with dbg := { s0.dbg with store := [tr 1 2 0], pos := 48 } }
      [(Reg.dbgTraceCtrl_enable, 1), (Reg.dbgTraceBase_base, here 4096), (Reg.dbgTraceLen_len, 64)]
    let x := s.skyRange ioDie (s.getF Reg.dbgTraceBase_base + 48) 16 stTranslation true 0
    let t := after .traceWrite s
    (tr 1 2 0).length = 16 ∧ s.dbg.stopped = false ∧ s.on Reg.dbgTraceCtrl_wrap = false ∧ x.st = stOk ∧ x.ready = true ∧
      s.dbg.wroteAt ≠ some (s.now / 2) ∧ x.pieces = [⟨.vault 0 4144, 0, 16⟩] ∧ cleanVault s 0 = true ∧ t.dbg.stopped = true ∧
      t.peekVault 0 4144 16 = clean (tr 1 2 0) := by decide +kernel

theorem witness_management :
    let s := fw s0
    s.fwUp = true ∧ s.getF Reg.glbState_state = 1 ∧ (after (.getVersion [0x10] [4]) s).out = [.message [4]] ∧
      (after (.getSensorReading 9) s).out = [.reading 9 0] ∧ (after (.getSensorReading 3) s).out = [] ∧
      (after (.getStateSensorReadings 10) { s with rst := { s.rst with i3cAddr := 8 } }).out = [.reading 10 0, .ibi] := by
  decide +kernel

theorem witness_setdasa :
    let s := { s0 with rst := { s0.rst with vauxOk := true } }
    s.rst.i3cAddr = 0 ∧ (after (.setdasa 0x2A) s).rst.i3cAddr = 0x2A := by decide +kernel

/-- The measurements stand beside their answer. -/
theorem witness_measurements :
    let t := after (.getMeasurements [1] [2]) (fw s0)
    t.out.length = 2 ∧ t.out.getLast? = some (.message [2]) := by decide +kernel

theorem witness_telemetry : s0.dbg.latchedAt ≠ some s0.now ∧ s0.now % 1000000 = 0 ∧ (telCounters 3 5).map Prod.fst = [(4 * 576 + 3) * 8] := by decide +kernel

/-! ## Ill-formed commands -/

/-- Core instructions' constructors with their engines and opcodes. -/
def coded0 : List ((Site → BitVec 128 → Instr) × Nat × Nat) :=
  [(.nop, 0, 0x00), (.endStream, 0, 0x01), (.fence, 0, 0x02), (.signal, 0, 0x03), (.wait, 0, 0x04),
   (.repeatImm, 0, 0x05), (.repeatInd, 0, 0x06), (.agsetBase, 0, 0x08), (.agsetStride, 0, 0x09), (.agadd, 0, 0x0A),
   (.tick, 0, 0x0C), (.notify, 0, 0x0D), (.movLoad, 1, 0x00), (.movStore, 1, 0x01), (.movCopy, 1, 0x02),
   (.loadN, 1, 0x03), (.storeN, 1, 0x04), (.movGather, 1, 0x05), (.scatter, 1, 0x06), (.movFill, 1, 0x07),
   (.movAtomic, 1, 0x08), (.mma, 2, 0x00), (.tld, 3, 0x01), (.tst, 3, 0x02), (.kld, 3, 0x03), (.kst, 3, 0x04),
   (.tleMov, 3, 0x08), (.add, 3, 0x09), (.sub, 3, 0x0A), (.mul, 3, 0x0B), (.fma, 3, 0x0C), (.div, 3, 0x0D),
   (.minT, 3, 0x0E), (.maxT, 3, 0x0F), (.absT, 3, 0x10), (.neg, 3, 0x11), (.andT, 3, 0x12), (.orT, 3, 0x13),
   (.xor, 3, 0x14), (.shl, 3, 0x15)]

/-- Core instructions' constructors with their engines and opcodes. -/
def coded1 : List ((Site → BitVec 128 → Instr) × Nat × Nat) :=
  [(.shrl, 3, 0x16), (.shra, 3, 0x17), (.sel, 3, 0x18), (.cvt, 3, 0x20), (.rnd, 3, 0x21), (.exp2, 3, 0x28),
   (.expT, 3, 0x29), (.log2, 3, 0x2A), (.ln, 3, 0x2B), (.rcp, 3, 0x2C), (.sqrt, 3, 0x2D), (.rsqrt, 3, 0x2E),
   (.sigmoid, 3, 0x2F), (.tanh, 3, 0x30), (.silu, 3, 0x31), (.rsum, 3, 0x38), (.rmax, 3, 0x39), (.rmin, 3, 0x3A),
   (.csum, 3, 0x3B), (.cmax, 3, 0x3C), (.cmin, 3, 0x3D), (.trn, 3, 0x3E), (.cmp, 3, 0x40), (.topk, 3, 0x41),
   (.klogic, 3, 0x42), (.flags, 3, 0x43), (.cmpr, 3, 0x48), (.expr, 3, 0x49), (.cmps, 3, 0x4A), (.exps, 3, 0x4B),
   (.tmm, 3, 0x50), (.bkdFill, 4, 0x00), (.bkdCopy, 4, 0x01), (.bkdGather, 4, 0x02), (.qld, 4, 0x08),
   (.bkdScore, 4, 0x09), (.bkdAcc, 4, 0x0A), (.fetch, 6, 0x00), (.kvxScore, 6, 0x01), (.kvxAcc, 6, 0x02)]

/-- Core instructions' constructors with their engines and opcodes. -/
def coded2 : List ((Site → BitVec 128 → Instr) × Nat × Nat) :=
  [(.smax, 6, 0x04), (.merge, 6, 0x05), (.comb, 6, 0x06), (.fin, 6, 0x07), (.append, 6, 0x08), (.link, 6, 0x10),
   (.publish, 6, 0x11), (.push, 7, 0x00), (.pop, 7, 0x01), (.popa, 7, 0x02), (.tsend, 5, 0x10), (.reply, 5, 0x11),
   (.put, 5, 0x00), (.get, 5, 0x01), (.putf, 5, 0x02)]

/-- Does a constructor accept its own code and refuse its neighbours', whatever the other bits? -/
def codeKept (c : (Site → BitVec 128 → Instr) × Nat × Nat) : Bool :=
  (c.1 0 (word c.2.1 c.2.2 (2 ^ 100))).wf && !(c.1 0 (word c.2.1 (c.2.2 + 1) 0)).wf && !(c.1 0 (word (c.2.1 + 1) c.2.2 0)).wf

theorem test_wf_codes0 : coded0.all codeKept = true := by decide +kernel
theorem test_wf_codes1 : coded1.all codeKept = true := by decide +kernel
theorem test_wf_codes2 : coded2.all codeKept = true := by decide +kernel

theorem test_wf_reserved : (Instr.reservedOpcode 0 (word 0 0 0)).wf = false ∧ (Instr.reservedOpcode 0 (word 0 0x0B 0)).wf = true := by
  decide +kernel

/-- Every packet command with its class and opcode. -/
def packeted : List ((Tower → Sys2Proof.Port → Packet → Instr) × Nat × Nat) :=
  [(.read, 0, 0), (.write, 0, 1), (.atomic, 0, 2), (.watchArm, 0, 3), (.watchCancel, 0, 4), (.readData, 1, 0),
   (.writeAck, 1, 1), (.atomicOld, 1, 2), (.watchAck, 1, 3), (.refuse, 1, 5), (.admitted, 1, 6), (.accepted, 1, 7),
   (.admitPkt, 2, 0), (fun t p k => .dataTok t p ⟨k, []⟩, 2, 1), (.abandon, 2, 2), (.ping, 3, 0), (.pong, 3, 1), (.stateMgt, 3, 2),
   (.regRead, 3, 3), (.regWrite, 3, 4), (.regData, 3, 5)]

theorem test_wf_packets : packeted.all (fun c =>
    let k := { Packet.blank with cls := c.2.1, op := c.2.2, payload := [(0, false)], length := 1 }
    (c.1 0 0 k).wf && !(c.1 0 0 { k with op := c.2.2 + 1 }).wf && !(c.1 0 0 { k with cls := c.2.1 + 1 }).wf &&
      !(c.1 0 0 { k with length := 2 }).wf) = true := by decide +kernel

/-! Each pair: a command that breaks a bound, which is refused, and one beside it that keeps it, which is not. -/

theorem test_wf_vault_and_packets :
  let d := fun (n : Nat) => List.replicate n ((0, false) : PByte)
  let l : List (Instr × Instr) :=
  [(.notice 0 (.packet 0 0 Packet.blank), .notice 0 (.packet 0 0 { Packet.blank with cls := 1, op := 4 })),
   (.packetForward 0 0 { Packet.blank with tag := 65536 }, .packetForward 0 0 { Packet.blank with tag := 65535 }),
   (.vaultRead 0 0 0 .coreRead false, .vaultRead 0 0 8 .coreRead false),
   (.vaultRead 0 0x1FFFFFF8 16 .coreRead false, .vaultRead 0 0x1FFFFFF8 8 .coreRead false),
   (.vaultWrite 0 0 [] .coreRead false, .vaultWrite 0 0 (d 8) .coreRead false),
   (.vaultAtomic 0 0 8 true (d 8) (d 8), .vaultAtomic 0 0 7 true (d 8) (d 8)),
   (.vaultAtomic 0 0 4 true (d 8) [], .vaultAtomic 0 0 4 true (d 8) (d 8)),
   (.vaultAtomic 0 4 0 true (d 8) [], .vaultAtomic 0 4 0 false (d 8) []),
   (.watchInstall 0 4 0, .watchInstall 0 8 0),
   (.bundleLost 0 0 16 0, .bundleLost 0 0 15 0xFFFF),
   (.fabricReservedPacket 0 0 { Packet.blank with cls := 1, op := 0 }, .fabricReservedPacket 0 0 { Packet.blank with cls := 1, op := 15 }),
   (.packetForward 0 0 { Packet.blank with length := 1 }, .packetForward 0 0 Packet.blank)]
  l.all (fun c => !c.1.wf && c.2.wf) = true := by decide +kernel

theorem test_wf_links_and_power :
  let d := fun (n : Nat) => List.replicate n ((0, false) : PByte)
  let b := fun (n : Nat) => List.replicate n (0 : Byte)
  let l : List (Instr × Instr) :=
  [(.fabricFlit 0 0 (b 63) 0, .fabricFlit 0 0 (b 64) 0),
   (.routingEntryWrite 0 false 256 0, .routingEntryWrite 0 true 256 0),
   (.dieLinkFlit 0 (b 64) 0, .dieLinkFlit 0 (b 56) 0),
   (.commandTake (some (b 63)), .commandTake (some (b 64))),
   (.bar0BadAccess false 8 8, .bar0BadAccess false 4 8),
   (.skyWindowRead 0 4097, .skyWindowRead 0 4096),
   (.skyWindowWrite 0 [], .skyWindowWrite 0 (d 512)),
   (.registerWrite 4 true 0, .registerWrite 4 false 0),
   (.sensorSample [(768, 0)], .sensorSample [(767, 0)]),
   (.sensorSilent 768, .sensorSilent 767),
   (.powerSample [(9, none)] ⟨[], 0⟩, .powerSample [(8, none)] ⟨[], 0⟩),
   (.forecastStep [(296, 0)] [], .forecastStep [(295, 0)] [(383, 0)]),
   (.flowWindowEnd (List.replicate 5 (0, 0)), .flowWindowEnd [])]
  l.all (fun c => !c.1.wf && c.2.wf) = true := by decide +kernel

theorem test_wf_boot_and_management :
  let b := fun (n : Nat) => List.replicate n (0 : Byte)
  let l : List (Instr × Instr) :=
  [(.fwInit [b 63], .fwInit [b 64]),
   (.memTest [(0, 2 ^ 19)] [], .memTest [(2303, 2 ^ 19 - 1)] []),
   (.memTest [] [2304], .memTest [] [2303]),
   (.coreTest [2304] [], .coreTest [2303] []),
   (.coreTest [] [4], .coreTest [] [3]),
   (.getSensorReading 3, .getSensorReading 7),
   (.getStateSensorReadings 7, .getStateSensorReadings 10),
   (.setdasa 0, .setdasa 1),
   (.firmwarePanic ⟨[], true⟩, .firmwarePanic ⟨[none, none, none, some (b 2048)], true⟩),
   (.watchdogExpire ⟨0, [none, none, none, some (b 2047)], true⟩, .watchdogExpire ⟨0, [none, none, none, none], false⟩)]
  l.all (fun c => !c.1.wf && c.2.wf) = true := by decide +kernel

/-- The table gives no row bits, so no word spells a command. -/
theorem test_no_words : decodeTableWord 128 0x2A = none ∧ s0.withFetchWord 128 0x2A = s0 := by decide +kernel

end Sys2Proof.Tests
end

section
/-!
PROOF. What every operation of the model keeps: a canonical register table stays canonical, no burnt fuse is restored, and
the time and the queue of commands stand. The relation is a preorder; the first lemmas say how it composes through
updates, folds, branches and Option results, and after them there is one lemma per operation, in the model's order.
-/
namespace Sys2Proof.Machine

/-- `t` comes from `s` by what a command's effect may do: a canonical register table stays canonical, no fuse is
restored, the time tick stands and the queue of commands is as it was. Every operation of the model but the start of the
tick at the end of a full reset keeps this, so it is a preorder that the effects compose in. -/
structure State.Keeps (s t : State) : Prop where
  regs : s.regsWf = true → t.regsWf = true
  fuses : ∀ {serial floor image lic}, s.fusesFrom serial floor image lic → t.fusesFrom serial floor image lic
  now : t.now = s.now
  pending : t.pending = s.pending

theorem land_lor_of_land {a b : Nat} (h : Nat.land a b = a) (c : Nat) : Nat.land a (Nat.lor b c) = a := by
  change a &&& (b ||| c) = a
  rw [Nat.and_or_distrib_left, show a &&& b = a from h]
  refine Nat.eq_of_testBit_eq fun i => ?_
  rw [Nat.testBit_or, Nat.testBit_and]
  cases a.testBit i <;> rfl

/-- The state that an attempt leaves, whether it waits or has taken effect. -/
def Tried.state {α : Type} : Tried α → State
  | .waits s => s
  | .done s _ => s

/-- The state that a look at a stage queue leaves. -/
def PopNow.state : PopNow → State
  | .waits s => s
  | .done s => s

/-- The state that a step of an APPEND leaves. -/
def AppOut.state : AppOut → State
  | .on s _ _ => s
  | .waits s _ _ => s
  | .ends s _ _ _ _ _ => s

namespace State.Keeps
variable {s₀ s t : State}

theorem refl (s : State) : s.Keeps s := ⟨id, id, rfl, rfl⟩
theorem withRegs (h : s₀.Keeps s) (hr : s.regsWf = true → t.regsWf = true) (hc : t.chip = s.chip) (hn : t.now = s.now)
    (hp : t.pending = s.pending) : s₀.Keeps t :=
  ⟨fun hw => hr (h.regs hw),
   fun hf =>
    have hs := h.fuses hf
    ⟨hc ▸ hs.serial, hc ▸ hs.floor, hc ▸ hs.image, hc ▸ hs.lic⟩,
   hn.trans h.now, hp.trans h.pending⟩

/-- Taking registers out of a canonical table leaves it canonical. -/
theorem regsWf_keep (p : Nat → Bool) (hw : s.regsWf = true) (ht : t.regs = SMap.keep p s.regs) : t.regsWf = true := by
  unfold State.regsWf SMap.wf at *
  rw [Bool.and_eq_true] at *
  rw [ht]
  exact ⟨sortedFrom_keep p none s.regs hw.1, noDefault_keep regReset p s.regs hw.2⟩

theorem setReg (h : s₀.Keeps s) (a : Nat) (v : BitVec 64) : s₀.Keeps (s.setReg a v) :=
  h.withRegs (State.regsWf_setReg s a v) rfl rfl rfl

theorem upd (h : s₀.Keeps s) (regs0 rdLatch wrHold cores vaults bkuWin epoch fillBg queues senders seqs jobs jobCtr sent
    tables asker quarantine towers ports links failover landed pfx chans started arbPtr skipped rings evRings events
    records sensors zoneAt hot pwr gates power rst boot features ras dbg out fresh) :
    s₀.Keeps
      { now := s.now, regs := s.regs, regs0 := regs0, rdLatch := rdLatch, wrHold := wrHold, cores := cores,
        vaults := vaults, bkuWin := bkuWin
        epoch := epoch, fillBg := fillBg, queues := queues, senders := senders, seqs := seqs, jobs := jobs,
        jobCtr := jobCtr, sent := sent
        tables := tables, asker := asker, quarantine := quarantine, towers := towers, ports := ports, links := links,
        failover := failover
        landed := landed, pfx := pfx, chans := chans, started := started, arbPtr := arbPtr, skipped := skipped,
        rings := rings
        evRings := evRings, events := events, records := records, sensors := sensors, zoneAt := zoneAt, hot := hot,
        pwr := pwr
        gates := gates, power := power, rst := rst, boot := boot, features := features, ras := ras, dbg := dbg,
        chip := s.chip
        out := out, fresh := fresh, pending := s.pending } :=
  h.withRegs id rfl rfl rfl

theorem keepRegs (h : s₀.Keeps s) (p : Nat → Bool) (regs0 rdLatch wrHold cores vaults bkuWin epoch fillBg queues
    senders seqs jobs jobCtr sent
    tables asker quarantine towers ports links failover landed pfx chans started arbPtr skipped rings evRings events
    records sensors zoneAt hot pwr gates power rst boot features ras dbg out fresh) :
    s₀.Keeps
      { now := s.now, regs := SMap.keep p s.regs, regs0 := regs0, rdLatch := rdLatch, wrHold := wrHold,
        cores := cores, vaults := vaults, bkuWin := bkuWin
        epoch := epoch, fillBg := fillBg, queues := queues, senders := senders, seqs := seqs, jobs := jobs,
        jobCtr := jobCtr, sent := sent
        tables := tables, asker := asker, quarantine := quarantine, towers := towers, ports := ports, links := links,
        failover := failover
        landed := landed, pfx := pfx, chans := chans, started := started, arbPtr := arbPtr, skipped := skipped,
        rings := rings
        evRings := evRings, events := events, records := records, sensors := sensors, zoneAt := zoneAt, hot := hot,
        pwr := pwr
        gates := gates, power := power, rst := rst, boot := boot, features := features, ras := ras, dbg := dbg,
        chip := s.chip
        out := out, fresh := fresh, pending := s.pending } :=
  h.withRegs (fun hw => regsWf_keep p hw rfl) rfl rfl rfl

theorem setF (h : s₀.Keeps s) (f : Fld) (v : Nat) : s₀.Keeps (s.setF f v) := h.setReg _ _
theorem incSat (h : s₀.Keeps s) (f : Fld) (v : Nat) : s₀.Keeps (s.incSat f v) := h.setF _ _
theorem incWrap (h : s₀.Keeps s) (f : Fld) (v : Nat) : s₀.Keeps (s.incWrap f v) := h.setF _ _
/-- A fold over values that carry a State keeps what each of its steps keeps. -/
theorem foldl_of {α β : Type} (g : β → State) {f : β → α → β} {b : β} (h : s₀.Keeps (g b))
    (hf : ∀ b a c, s₀.Keeps (g b) → f b a = c → s₀.Keeps (g c)) (l : List α) : s₀.Keeps (g (l.foldl f b)) := by
  induction l generalizing b with
  | nil => exact h
  | cons x xs ih => exact ih (hf b x _ h rfl)

theorem foldl {α : Type} {f : State → α → State} (h : s₀.Keeps s) (hf : ∀ s, s₀.Keeps s → ∀ a, s₀.Keeps (f s a))
    (l : List α) : s₀.Keeps (l.foldl f s) :=
  foldl_of id h (fun s a _ h e => e ▸ hf s h a) l

theorem foldl₁ {α β : Type} {f : State × β → α → State × β} {p : State × β} (h : s₀.Keeps p.1)
    (hf : ∀ p a q, s₀.Keeps p.1 → f p a = q → s₀.Keeps q.1) (l : List α) : s₀.Keeps (l.foldl f p).1 :=
  foldl_of Prod.fst h hf l

theorem ite_of {β : Type} (g : β → State) {c : Prop} [Decidable c] {a b : β} (ha : s₀.Keeps (g a))
    (hb : s₀.Keeps (g b)) :
    s₀.Keeps (g (if c then a else b)) := by
  split <;> assumption

theorem ite {c : Prop} [Decidable c] (hs : s₀.Keeps s) (ht : s₀.Keeps t) : s₀.Keeps (if c then s else t) :=
  ite_of id hs ht

theorem xlat_foldl {α : Type} {f : Xlat → α → Xlat} {x : Xlat} (h : s₀.Keeps x.s)
    (hf : ∀ x a y, s₀.Keeps x.s → f x a = y → s₀.Keeps y.s) {l : List α} : s₀.Keeps (l.foldl f x).s :=
  foldl_of Xlat.s h hf l

/-- The two outcomes of an `if`, taken apart without reducing what stands in them. -/
theorem of_ite {α : Type} {c : Prop} [Decidable c] {a b r : α} {P : Prop} (e : (if c then a else b) = r)
    (ha : a = r → P)
    (hb : b = r → P) : P := by
  split at e
  · exact ha e
  · exact hb e

theorem of_next (e : Machine.next s = .next t) (h : s₀.Keeps s) : s₀.Keeps t := by cases e; exact h

theorem refuse {st r} (e : Machine.refuse s st = some r) (h : s₀.Keeps s) : s₀.Keeps r.1 := by cases e; exact h

theorem complete {st r} (e : Machine.complete s st = some r) (h : s₀.Keeps s) : s₀.Keeps r.1 := by cases e; exact h

theorem setCore (h : s₀.Keeps s) (i c) : s₀.Keeps (s.setCore i c) := by
  unfold State.setCore
  grind [upd]

theorem setVault (h : s₀.Keeps s) (i v) : s₀.Keeps (s.setVault i v) := by
  unfold State.setVault
  grind [upd]

theorem setQueue (h : s₀.Keeps s) (i q) : s₀.Keeps (s.setQueue i q) := by
  unfold State.setQueue
  grind [upd]

theorem setTower (h : s₀.Keeps s) (t1 x) : s₀.Keeps (s.setTower t1 x) := by
  unfold State.setTower
  grind [upd]

theorem setPort (h : s₀.Keeps s) (t1 p x) : s₀.Keeps (s.setPort t1 p x) := by
  unfold State.setPort
  grind [upd]

theorem setLink (h : s₀.Keeps s) (l x) : s₀.Keeps (s.setLink l x) := by
  unfold State.setLink
  grind [upd]

theorem setChan (h : s₀.Keeps s) (k c) : s₀.Keeps (s.setChan k c) := by
  unfold State.setChan
  grind [upd]

theorem setRing (h : s₀.Keeps s) (r x) : s₀.Keeps (s.setRing r x) := by
  unfold State.setRing
  grind [upd]

theorem setEvRing (h : s₀.Keeps s) (r x) : s₀.Keeps (s.setEvRing r x) := by
  unfold State.setEvRing
  grind [upd]

theorem setTpwr (h : s₀.Keeps s) (t1 x) : s₀.Keeps (s.setTpwr t1 x) := by
  unfold State.setTpwr
  grind [upd]

theorem setSeqCtr (h : s₀.Keeps s) (i e1 x) : s₀.Keeps (s.setSeqCtr i e1 x) := by
  unfold State.setSeqCtr
  grind [upd]

theorem bump (h : s₀.Keeps s) (n) : s₀.Keeps (s.bump n) := by
  unfold State.bump
  grind [upd]

theorem freeBytes (h : s₀.Keeps s) (n) : s₀.Keeps (s.freeBytes n).1 := by
  unfold State.freeBytes
  grind [bump]

theorem emit (h : s₀.Keeps s) (o) : s₀.Keeps (s.emit o) := by
  unfold State.emit
  grind [upd]

theorem record (h : s₀.Keeps s) (r) : s₀.Keeps (s.record r) := by
  unfold State.record
  grind [upd]

theorem inBand (h : s₀.Keeps s) : s₀.Keeps (s.inBand) := by
  unfold State.inBand
  grind [emit]

theorem event (h : s₀.Keeps s) (k kind site status engine itag value addr) :
    s₀.Keeps (s.event k kind site status engine itag value addr) := by
  unfold State.event
  grind [upd]

theorem coreEvent (h : s₀.Keeps s) (site kind status engine itag value addr) :
    s₀.Keeps (s.coreEvent site kind status engine itag value addr) := by
  unfold State.coreEvent
  grind [event]

theorem dropWatches (h : s₀.Keeps s) (i) : s₀.Keeps (s.dropWatches i) := by
  unfold State.dropWatches
  grind [upd]

theorem faultChannel (h : s₀.Keeps s) (i st engine itag addr) : s₀.Keeps (s.faultChannel i st engine itag addr) := by
  unfold State.faultChannel
  grind [setChan, record, event]

theorem softErr (h : s₀.Keeps s) (i st engine) : s₀.Keeps (s.softErr i st engine) := by
  unfold State.softErr
  grind [incSat, setF]

theorem usedInject (h : s₀.Keeps s) : s₀.Keeps (s.usedInject) := by
  unfold State.usedInject
  grind [setF]

theorem hostRead (h : s₀.Keeps s) (r) : s₀.Keeps (s.hostRead r).1 := by
  unfold State.hostRead
  grind [usedInject]

end State.Keeps
end Sys2Proof.Machine
end

section
/-!
PROOF. What the operations of Machine/FabricOps keep.
-/
namespace Sys2Proof.Machine
namespace State.Keeps
variable {s₀ s t : State}

theorem wireFlit (h : s₀.Keeps s) (t1 p seq nak bs) : s₀.Keeps (s.wireFlit t1 p seq nak bs) := by
  unfold State.wireFlit
  grind [bump, setPort, setF, emit]

theorem idleFlit (h : s₀.Keeps s) (t1 p nak) : s₀.Keeps (s.idleFlit t1 p nak) := by
  unfold State.idleFlit
  grind [wireFlit]

theorem replay (h : s₀.Keeps s) (t1 p) : s₀.Keeps (s.replay t1 p) := by
  unfold State.replay
  grind [incSat, incWrap, wireFlit, foldl, foldl₁]

theorem newFlit (h : s₀.Keeps s) (t1 p itag bs) : s₀.Keeps (s.newFlit t1 p itag bs) := by
  unfold State.newFlit
  grind [setPort, wireFlit]

theorem discard (h : s₀.Keeps s) (t1) : s₀.Keeps (s.discard t1) := by
  unfold State.discard
  grind [incSat]

theorem freeRx (h : s₀.Keeps s) (back k) : s₀.Keeps (s.freeRx back k) := by
  unfold State.freeRx
  grind [setPort]

theorem outlived (h : s₀.Keeps s) (t1 k) : s₀.Keeps (s.outlived t1 k) := by
  unfold State.outlived
  grind [discard, upd]

theorem bounce (h : s₀.Keeps s) (t1 k st) : s₀.Keeps (s.bounce t1 k st) := by
  unfold State.bounce
  grind [discard, upd]

theorem sendOn (h : s₀.Keeps s) (t1 p e1) : s₀.Keeps (s.sendOn t1 p e1) := by
  unfold State.sendOn
  grind [incWrap, setPort, outlived, newFlit, freeRx, emit, foldl, foldl₁]

theorem servePort (n : Nat) : ∀ {s : State} (_ : s₀.Keeps s) (t p), s₀.Keeps (State.servePort t p n s) := by
  induction n with
  | zero => exact fun h _ _ => h
  | succ n ih =>
    intro s h t p
    unfold State.servePort
    grind [setPort, sendOn]

theorem servePorts (h : s₀.Keeps s) : s₀.Keeps s.servePorts :=
  h.foldl (fun _ h _ => servePort _ h _ _) _

theorem toPort (h : s₀.Keeps s) (t1 p e1) : s₀.Keeps (s.toPort t1 p e1) := by
  unfold State.toPort
  grind [setPort]

theorem sprayHere (h : s₀.Keeps s) (e1) : s₀.Keeps (s.sprayHere e1) := by
  unfold State.sprayHere
  grind [setTower, discard, toPort, freeRx]

theorem kickSpray (h : s₀.Keeps s) (t1) : s₀.Keeps (s.kickSpray t1) := by
  unfold State.kickSpray
  grind [setTower, sprayHere, foldl, foldl₁]

theorem noWay (h : s₀.Keeps s) (d e1) : s₀.Keeps (s.noWay d e1) := by
  unfold State.noWay
  grind [bounce, freeRx]

theorem atGoal (h : s₀.Keeps s) (e1) : s₀.Keeps (s.atGoal e1) := by
  unfold State.atGoal
  grind [sprayHere, toPort, upd]

theorem toLink (h : s₀.Keeps s) (d e1) : s₀.Keeps (s.toLink d e1) := by
  unfold State.toLink
  grind [noWay, setLink]

theorem cross (h : s₀.Keeps s) (d e1) : s₀.Keeps (s.cross d e1) := by
  unfold State.cross
  grind [toLink, atGoal, upd]

theorem wireDie (h : s₀.Keeps s) (l seq nak bs) : s₀.Keeps (s.wireDie l seq nak bs) := by
  unfold State.wireDie
  refine ite (record (incSat (incSat (emit (bump (setF ?_ _ _) _) _) _ _) _ _) _) (emit ?_ _) <;>
    exact h.setLink _ _

theorem idleDie (h : s₀.Keeps s) (l nak) : s₀.Keeps (s.idleDie l nak) := by
  unfold State.idleDie
  grind [wireDie]

theorem newDieFlit (h : s₀.Keeps s) (l bs) : s₀.Keeps (s.newDieFlit l bs) := by
  unfold State.newDieFlit
  grind [wireDie, setLink]

theorem replayDie (h : s₀.Keeps s) (l) : s₀.Keeps (s.replayDie l) := by
  unfold State.replayDie
  grind [incSat, wireDie, foldl, foldl₁]

theorem flushDie (h : s₀.Keeps s) (l) : s₀.Keeps (s.flushDie l) := by
  unfold State.flushDie
  grind [setLink, newDieFlit, foldl, foldl₁]

theorem carry (n : Nat) : ∀ {s : State} (_ : s₀.Keeps s) (l far), s₀.Keeps (State.carry l far n s) := by
  induction n with
  | zero => exact fun h _ _ => h
  | succ n ih =>
    intro s h l far
    unfold State.carry
    grind [setLink, cross]

theorem serveLinks (h : s₀.Keeps s) : s₀.Keeps s.serveLinks :=
  h.foldl (fun _ h _ => (carry _ (carry _ h _ _) _ _).flushDie _) _

theorem pump (h : s₀.Keeps s) : s₀.Keeps (s.pump) := by
  unfold State.pump
  grind [serveLinks, servePorts]

theorem sendSpray (h : s₀.Keeps s) (t1 node k) : s₀.Keeps (s.sendSpray t1 node k) := by
  unfold State.sendSpray
  grind [cross, pump, discard]

theorem answer (h : s₀.Keeps s) (site k op st data) : s₀.Keeps (s.answer site k op st data) := by
  unfold State.answer
  grind [sendSpray]

theorem timeWaits (h : s₀.Keeps s) : s₀.Keeps (s.timeWaits) := by
  unfold State.timeWaits
  grind [upd]

theorem depart (h : s₀.Keeps s) (x g p) : s₀.Keeps (s.depart x g p) := by
  unfold State.depart
  grind [cross, setF]

theorem launch (h : s₀.Keeps s) (x) : s₀.Keeps (s.launch x) := by
  unfold State.launch
  grind [pump, depart, upd]

theorem tryWaiting (h : s₀.Keeps s) (k) : s₀.Keeps (s.tryWaiting k) := by
  unfold State.tryWaiting
  grind [depart, upd]

theorem kickWaiting (h : s₀.Keeps s) : s₀.Keeps (s.kickWaiting) := by
  unfold State.kickWaiting
  grind [pump, tryWaiting, foldl, foldl₁]

theorem quarantineTag (h : s₀.Keeps s) (t1 src itag) : s₀.Keeps (s.quarantineTag t1 src itag) := by
  unfold State.quarantineTag
  grind [upd]

theorem addJob (h : s₀.Keeps s) (j) : s₀.Keeps (s.addJob j) := by
  unfold State.addJob
  grind [upd]

theorem setJob (h : s₀.Keeps s) (j) : s₀.Keeps (s.setJob j) := by
  unfold State.setJob
  grind [upd]

theorem request (h : s₀.Keeps s) (site engine job dest k) : s₀.Keeps (s.request site engine job dest k) := by
  unfold State.request
  grind [launch]

end State.Keeps
end Sys2Proof.Machine
end

section
/-!
PROOF. What the operations of Machine/VaultOps keep.
-/
namespace Sys2Proof.Machine
namespace State.Keeps
variable {s₀ s t : State}

theorem rowAsked (h : s₀.Keeps s) (v p) : s₀.Keeps (s.rowAsked v p) := by
  unfold State.rowAsked
  grind [setVault]

theorem touchRow (h : s₀.Keeps s) (v p) : s₀.Keeps (s.touchRow v p) := by
  unfold State.touchRow
  grind [incWrap, setVault]

theorem bookAs (h : s₀.Keeps s) (v cls narrow n) : s₀.Keeps (s.bookAs v cls narrow n) := by
  unfold State.bookAs
  grind [setVault]

theorem arbitrate (h : s₀.Keeps s) (v cls narrow off n) : s₀.Keeps (s.arbitrate v cls narrow off n) := by
  unfold State.arbitrate
  grind [bookAs]

theorem eccFirst (h : s₀.Keeps s) (v off kind d) : s₀.Keeps (s.eccFirst v off kind d) := by
  unfold State.eccFirst
  grind [setF]

theorem ceNote (h : s₀.Keeps s) (v off p) : s₀.Keeps (s.ceNote v off p) := by
  unfold State.ceNote
  grind [setVault, record]

theorem noteWord (h : s₀.Keeps s) (v off p d) : s₀.Keeps (s.noteWord v off p d) := by
  unfold State.noteWord
  grind [incSat, eccFirst, record, ceNote]

theorem readVault (h : s₀.Keeps s) (v off n narrow) : s₀.Keeps (s.readVault v off n narrow).1 := by
  unfold State.readVault
  grind [incWrap, touchRow, noteWord, foldl, foldl₁]

theorem drainOne (h : s₀.Keeps s) (v) : s₀.Keeps (s.drainOne v) := by
  unfold State.drainOne
  grind [setVault, touchRow]

theorem drainSome (h : s₀.Keeps s) (v k) : s₀.Keeps (s.drainSome v k) := by
  induction k generalizing s with
  | zero => exact h
  | succ k ih => exact ih (h.drainOne v)

theorem makeRoom (h : s₀.Keeps s) (v n) : s₀.Keeps (s.makeRoom v n) := by
  unfold State.makeRoom
  grind [drainSome]

theorem bufPut (h : s₀.Keeps s) (v e1) : s₀.Keeps (s.bufPut v e1) := by
  unfold State.bufPut
  grind [setVault, rowAsked]

theorem accept (h : s₀.Keeps s) (v e1) : s₀.Keeps (s.accept v e1) := by
  unfold State.accept
  grind [bufPut, makeRoom]

theorem notify (h : s₀.Keeps s) (v off n) : s₀.Keeps (s.notify v off n) := by
  unfold State.notify
  grind [setVault, sendSpray, foldl, foldl₁]

theorem writeVault (h : s₀.Keeps s) (v off data narrow) : s₀.Keeps (s.writeVault v off data narrow).1 := by
  unfold State.writeVault
  grind [notify, incWrap, noteWord, accept, foldl, foldl₁]

theorem atomicVault (h : s₀.Keeps s) (v off aop wide operand compare) :
    s₀.Keeps (s.atomicVault v off aop wide operand compare).1 := by
  unfold State.atomicVault
  grind [readVault, writeVault]

theorem readAs (h : s₀.Keeps s) (site v off n narrow) : s₀.Keeps (s.readAs site v off n narrow).1 := by
  unfold State.readAs
  grind [readVault, arbitrate]

theorem writeAs (h : s₀.Keeps s) (site v off data narrow) : s₀.Keeps (s.writeAs site v off data narrow).1 := by
  unfold State.writeAs
  grind [arbitrate, writeVault]

theorem atomicAs (h : s₀.Keeps s) (site v off aop wide operand compare) :
    s₀.Keeps (s.atomicAs site v off aop wide operand compare).1 := by
  unfold State.atomicAs
  grind [arbitrate, atomicVault]

theorem installWatch (v off who) {r} (e : s.installWatch v off who = some r) (h : s₀.Keeps s) : s₀.Keeps r.1 := by
  unfold State.installWatch at e
  grind [setVault, readVault]

theorem xlat_fail (h : s₀.Keeps s) (st) : s₀.Keeps (Xlat.fail s st).s := by
  unfold Machine.Xlat.fail
  grind

end State.Keeps
end Sys2Proof.Machine
end

section
/-!
PROOF. What the operations of Machine/Operands keep.
-/
namespace Sys2Proof.Machine
namespace State.Keeps
variable {s₀ s t : State}

theorem skyRange (h : s₀.Keeps s) (die a n bad write pos) : s₀.Keeps (s.skyRange die a n bad write pos).s := by
  unfold State.skyRange
  grind [xlat_fail]

theorem xlat_andThen {x : Xlat} {f : State → Xlat} (h : s₀.Keeps x.s)
    (hf : ∀ s y, s₀.Keeps s → f s = y → s₀.Keeps y.s) : s₀.Keeps (x.andThen f).s := by
  unfold Xlat.andThen
  split
  · exact (hf x.s (f x.s) h rfl :)
  · exact h

theorem ask (h : s₀.Keeps s) (site key) : s₀.Keeps (s.ask site key) := by
  unfold State.ask
  grind [upd]

theorem dropTables (h : s₀.Keeps s) (site key) : s₀.Keeps (s.dropTables site key) := by
  unfold State.dropTables
  grind [upd]

theorem forget (h : s₀.Keeps s) (site key) : s₀.Keeps (s.forget site key) := by
  unfold State.forget
  grind [dropTables, upd]

theorem tabRead (h : s₀.Keeps s) (vid off n) : s₀.Keeps (s.tabRead vid off n).1 := by
  unfold State.tabRead
  grind [upd]

theorem sendWanted (h : s₀.Keeps s) (site key eng ws) : s₀.Keeps (s.sendWanted site key eng ws) := by
  unfold State.sendWanted
  grind [request, upd, foldl, foldl₁]

theorem tabAnswer (h : s₀.Keeps s) (site key addr len st data) : s₀.Keeps (s.tabAnswer site key addr len st data) := by
  unfold State.tabAnswer
  grind [upd]

theorem lookUp {α : Type} (h : s₀.Keeps s) (site key eng : Nat) {f : State → Option (State × α)}
    (hf : ∀ s r, s₀.Keeps s → f s = some r → s₀.Keeps r.1) : s₀.Keeps (s.lookUp site key eng f).state := by
  unfold State.lookUp
  split
  · exact h
  · split
    · exact h
    · rename_i r hr
      split
      · exact (hf _ r (h.ask site key) hr).forget site key
      · exact h.sendWanted site key eng r.1.wanted

theorem lookUp_of {α : Type} {site key eng : Nat} {f : State → Option (State × α)} {r} (e : s.lookUp site key eng f = r)
    (h : s₀.Keeps s) (hf : ∀ s r, s₀.Keeps s → f s = some r → s₀.Keeps r.1) : s₀.Keeps r.state :=
  e ▸ h.lookUp site key eng hf

theorem setWaits (h : s₀.Keeps s) (i bs) : s₀.Keeps (s.setWaits i bs) := by
  unfold State.setWaits
  grind [setCore]

theorem walkRead (h : s₀.Keeps s) (die site a n) : s₀.Keeps (s.walkRead die site a n).s := by
  unfold State.walkRead
  grind [tabRead, readAs]

theorem walkPoison (h : s₀.Keeps s) (site st a) : s₀.Keeps (s.walkPoison site st a) := by
  unfold State.walkPoison
  grind [record]

theorem walkAnew (h : s₀.Keeps s) (die site w off) : s₀.Keeps (s.walkAnew die site w off).s := by
  unfold State.walkAnew
  grind [walkPoison, walkRead]

theorem walk (h : s₀.Keeps s) (die site w off) : s₀.Keeps (s.walk die site w off).s := by
  unfold State.walk
  grind [walkAnew, upd]

theorem windowRange (h : s₀.Keeps s) (die site w off n write) : s₀.Keeps (s.windowRange die site w off n write).s := by
  unfold State.windowRange
  grind [skyRange, walk, xlat_foldl, xlat_andThen]

theorem virtRange (h : s₀.Keeps s) (die site ch a n write) : s₀.Keeps (s.virtRange die site ch a n write).s := by
  unfold State.virtRange
  grind [xlat_fail, windowRange]

theorem touchedMem (h : s₀.Keeps s) (i xs) : s₀.Keeps (s.touchedMem i xs) := by
  unfold State.touchedMem
  grind [setCore]

theorem resolvePlain (h : s₀.Keeps s) (site o n write) : s₀.Keeps (s.resolvePlain site o n write).s := by
  unfold State.resolvePlain
  grind [skyRange, xlat_fail, virtRange]

theorem resolve (h : s₀.Keeps s) (site o n write) : s₀.Keeps (s.resolve site o n write).s := by
  unfold State.resolve
  grind [touchedMem, resolvePlain]

theorem waitFor (h : s₀.Keeps s) (i bs) : s₀.Keeps (s.waitFor i bs) := by
  unfold State.waitFor
  grind [setWaits]

theorem waitOver (h : s₀.Keeps s) (i bs) : s₀.Keeps (s.waitOver i bs) := by
  unfold State.waitOver
  grind [setWaits]

theorem noteScratch (h : s₀.Keeps s) (i w) : s₀.Keeps (s.noteScratch i w) := by
  unfold State.noteScratch
  grind [record, setCore]

theorem touched (h : s₀.Keeps s) (i a n) : s₀.Keeps (s.touched i a n) := by
  unfold State.touched
  grind [setCore]

theorem readScratch (h : s₀.Keeps s) (i a n) : s₀.Keeps (s.readScratch i a n).1 := by
  unfold State.readScratch
  grind [touched, noteScratch, foldl, foldl₁]

theorem writeScratch (h : s₀.Keeps s) (i a data) : s₀.Keeps (s.writeScratch i a data) := by
  unfold State.writeScratch
  grind [touched, setCore]

theorem readPieces (h : s₀.Keeps s) (site ps narrow) : s₀.Keeps (s.readPieces site ps narrow).1 := by
  unfold State.readPieces
  grind [readAs, foldl₁]

theorem writePieces (h : s₀.Keeps s) (site ps data narrow) : s₀.Keeps (s.writePieces site ps data narrow).1 := by
  unfold State.writePieces
  grind [writeAs, foldl₁]

theorem sendReads (h : s₀.Keeps s) (site engine job sz narrow dest ps) :
    s₀.Keeps (s.sendReads site engine job sz narrow dest ps).1 := by
  unfold State.sendReads
  grind [request, foldl, foldl₁]

theorem sendWritesAt (h : s₀.Keeps s) (site engine job sz src narrow pos data ps) :
    s₀.Keeps (s.sendWritesAt site engine job sz src narrow pos data ps).1 := by
  unfold State.sendWritesAt
  grind [request, foldl, foldl₁]

theorem sendWrites (h : s₀.Keeps s) (site engine job sz src narrow data ps) :
    s₀.Keeps (s.sendWrites site engine job sz src narrow data ps).1 := by
  unfold State.sendWrites
  grind [sendWritesAt]

end State.Keeps
end Sys2Proof.Machine
end

section
/-!
PROOF. What the operations of Machine/CoreOps keep.
-/
namespace Sys2Proof.Machine
namespace State.Keeps
variable {s₀ s t : State}

theorem tracePut (h : s₀.Keeps s) (r) : s₀.Keeps (s.tracePut r) := by
  unfold State.tracePut
  grind [upd]

theorem traceIns (h : s₀.Keeps s) (i eng op itag st issued) : s₀.Keeps (s.traceIns i eng op itag st issued) := by
  unfold State.traceIns
  grind [tracePut]

theorem traceRoute (h : s₀.Keeps s) (i eng op st route) : s₀.Keeps (s.traceRoute i eng op st route) := by
  unfold State.traceRoute
  grind [bump, tracePut]

theorem traced (h : s₀.Keeps s) (i eng op itag st issued route) :
    s₀.Keeps (s.traced i eng op itag st issued route) := by
  unfold State.traced
  grind [traceIns, traceRoute]

theorem tracedHere (h : s₀.Keeps s) (i w st) : s₀.Keeps (s.tracedHere i w st) := by
  unfold State.tracedHere
  grind [traced]

theorem stampJobs (h : s₀.Keeps s) (i before issued) : s₀.Keeps (s.stampJobs i before issued) := by
  unfold State.stampJobs
  grind [upd]

theorem endStep (h : s₀.Keeps s) (i) : s₀.Keeps (s.endStep i) := by
  unfold State.endStep
  grind [setCore, upd]

theorem withdraw (h : s₀.Keeps s) (i) : s₀.Keeps (s.withdraw i) := by
  unfold State.withdraw
  grind [dropWatches, setF, dropTables, setCore, request]

theorem stopCore (h : s₀.Keeps s) (i st engine itag space addr) : s₀.Keeps (s.stopCore i st engine itag space addr) :=
  (((((((((h.withdraw _).endStep _).setF _ _).setF _ _).setF _ _).setF _ _).setF _ _).setF _ _).setF _ _).faultChannel
    _ _ _ _ _

theorem settle (h : s₀.Keeps s) (i engine itag d) : s₀.Keeps (s.settle i engine itag d) := by
  unfold State.settle
  grind [stopCore, softErr]

theorem checkLine (h : s₀.Keeps s) (i) : s₀.Keeps (s.checkLine i) := by
  unfold State.checkLine
  grind [stopCore]

theorem retire (h : s₀.Keeps s) (i) : s₀.Keeps (s.retire i) := by
  unfold State.retire
  grind [incWrap, setF, endStep, setCore]

theorem setPc (h : s₀.Keeps s) (i a) : s₀.Keeps (s.setPc i a) := by
  unfold State.setPc
  grind [setF, setCore]

theorem capture (h : s₀.Keeps s) (i w) : s₀.Keeps (s.capture i w) := by
  unfold State.capture
  grind [setCore]

theorem stepPc (h : s₀.Keeps s) (i last) : s₀.Keeps (s.stepPc i last) := by
  unfold State.stepPc
  grind [setCore, setPc]

theorem advance (h : s₀.Keeps s) (i w) : s₀.Keeps (s.advance i w) := by
  unfold State.advance
  grind [retire, stepPc, checkLine, capture]

theorem doSignal (i g addr space value add) {t : State} (e : s.doSignal i g addr space value add = some t)
    (h : s₀.Keeps s) :
    s₀.Keeps t := by
  unfold State.doSignal at e
  grind [settle, request, writeAs, resolve, atomicAs, traced, addJob]

theorem synHead (h : s₀.Keeps s) (i) : s₀.Keeps (s.synHead i).state := by
  unfold State.synHead
  split
  · exact h
  · rename_i g gs hq
    dsimp only
    split
    · split
      · exact h
      · rename_i mask addr space add value _ _
        have hk := h.lookUp i synKey 0 (f := fun s =>
          ((s.setCore i { s.core i with synq := gs }).doSignal i g addr.toNat space value add).map fun r => (r, ()))
          (fun s r h e => by
            obtain ⟨u, hu, rfl⟩ := Option.map_eq_some_iff.mp e
            exact doSignal _ _ _ _ _ _ hu (h.setCore _ _))
        split <;> grind [Tried.state, waitFor]
    · exact ((h.setCore _ _).writeScratch _ _ _).traced _ _ _ _ _ _ _
    · exact ((h.setCore _ _).coreEvent _ _ _ _ _ _ _).traced _ _ _ _ _ _ _

theorem runSyn (h : s₀.Keeps s) (i k) : s₀.Keeps (s.runSyn i k) := by
  induction k generalizing s with
  | zero => exact h
  | succ k ih =>
    unfold State.runSyn
    have hk := h.synHead i
    split <;> grind [Tried.state]

theorem streamDone (h : s₀.Keeps s) (i st) : s₀.Keeps (s.streamDone i st) := by
  unfold State.streamDone
  grind [coreEvent]

theorem wake (h : s₀.Keeps s) (i) : s₀.Keeps (s.wake i) := by
  unfold State.wake
  grind [setF, runSyn, setCore, tracedHere, traced, streamDone, advance]

theorem queuedLast (h : s₀.Keeps s) (i eng st itag op) : s₀.Keeps (s.queuedLast i eng st itag op) := by
  unfold State.queuedLast
  grind [setF]

theorem endJob (h : s₀.Keeps s) (j st halt) : s₀.Keeps (s.endJob j st halt) := by
  unfold State.endJob
  grind [queuedLast, wake, settle, traced, upd]

theorem bkuLast (h : s₀.Keeps s) (i st itag op) : s₀.Keeps (s.bkuLast i st itag op) := by
  unfold State.bkuLast
  grind [setF]

theorem lastOf (h : s₀.Keeps s) (i eng n st begun) : s₀.Keeps (s.lastOf i eng n st begun) := by
  unfold State.lastOf
  grind [queuedLast, setF, bkuLast]

theorem guarded (h : s₀.Keeps s) (i eng) {act : Act} (ha : ∀ s r, s₀.Keeps s → act s = some r → s₀.Keeps r.1) {r}
    (e : s.guarded i eng act = some r) : s₀.Keeps r.1 := by
  unfold State.guarded at e
  dsimp only at e
  split at e
  · exact ha _ _ h e
  · split at e
    · cases e
    · rename_i q hq
      split at e
      · cases e
      · cases e
        exact (ha _ q (h.setCore _ _) hq).setCore _ _

/-- An instruction leaves what its effect leaves. -/
theorem issue (h : s₀.Keeps s) (i : Nat) (w : BitVec 128) (eng : Nat) (ops : List Nat) {act : Act}
    (ha : ∀ s r, s₀.Keeps s → act s = some r → s₀.Keeps r.1) : s₀.Keeps (s.issue i w eng ops act) := by
  unfold State.issue
  dsimp only
  split
  · exact h
  · have hk := h.lookUp i eng eng (f := fun s =>
      if s.unlicensed eng (iOp w.toNat) then some (s, Done.of stLicenceAbsent)
      else if bits w.toNat 15 14 != 0 then some (s, Done.of stBadParam) else s.guarded i eng act)
      (fun s r h e => by
        split at e
        · cases e; exact h
        · split at e
          · cases e; exact h
          · exact h.guarded i eng ha e)
    split <;> grind [Tried.state, setWaits, lastOf, stampJobs, traced, advance, settle, wake]

theorem startOr (free) {act : Act} {queued : State} {r} (e : s.startOr free act queued = some r) (h : s₀.Keeps s)
    (ha : ∀ s r, s₀.Keeps s → act s = some r → s₀.Keeps r.1) (hq : s₀.Keeps queued) : s₀.Keeps r.1 := by
  unfold State.startOr at e
  grind [Machine.complete]

end State.Keeps
end Sys2Proof.Machine
end

section
/-!
PROOF. What the operations of Machine/Syn keep.
-/
namespace Sys2Proof.Machine
namespace State.Keeps
variable {s₀ s t : State}

theorem plainAct (h : s₀.Keeps s) (n fields) {f : State → State} (hf : ∀ s, s₀.Keeps s → s₀.Keeps (f s)) {r}
    (e : Machine.plainAct n fields f s = some r) : s₀.Keeps r.1 := by
  unfold Machine.plainAct at e
  grind [Machine.refuse]

theorem execNop (i w) {t : State} (e : execNop i w s = .next t) (h : s₀.Keeps s) : s₀.Keeps t := by
  refine of_next e (h.issue _ _ _ _ fun s r h e => h.plainAct _ _ (fun s h => ?_) e)
  grind

theorem execEndStream (i w) {t : State} (e : execEndStream i w s = .next t) (h : s₀.Keeps s) : s₀.Keeps t := by
  refine of_next e (h.issue _ _ _ _ fun s r h e => ?_)
  dsimp only at e
  repeat' split at e
  all_goals grind [complete, setCore, refuse]

theorem holdAt (h : s₀.Keeps s) (i w h1) : s₀.Keeps (s.holdAt i w h1) := by
  unfold State.holdAt
  grind [setCore]

theorem execFence (i w) {t : State} (e : Machine.execFence i w s = .next t) (h : s₀.Keeps s) : s₀.Keeps t := by
  unfold Machine.execFence at e
  dsimp only at e
  split at e
  · exact of_next e (h.holdAt _ _ _)
  · exact of_next e (h.issue _ _ _ _ fun s r h e => h.plainAct _ _ (fun _ h => h) e)

theorem synEnter (i itag k) {r} (e : synEnter i itag k s = some r) (h : s₀.Keeps s) : s₀.Keeps r.1 := by
  unfold Machine.synEnter at e
  grind [Machine.complete, setCore]

theorem execSignal (i w) {t : State} (e : execSignal i w s = .next t) (h : s₀.Keeps s) : s₀.Keeps t := by
  refine of_next e (h.issue _ _ _ _ fun s r h e => ?_)
  dsimp only at e
  repeat' split at e
  all_goals grind [resolve, refuse, synEnter]

theorem execTick (i w) {t : State} (e : execTick i w s = .next t) (h : s₀.Keeps s) : s₀.Keeps t := by
  refine of_next e (h.issue _ _ _ _ fun s r h e => ?_)
  dsimp only at e
  repeat' split at e
  all_goals grind [touched, refuse, synEnter]

theorem execNotify (i w) {t : State} (e : execNotify i w s = .next t) (h : s₀.Keeps s) : s₀.Keeps t := by
  refine of_next e (h.issue _ _ _ _ fun s r h e => ?_)
  dsimp only at e
  repeat' split at e
  all_goals grind [refuse, synEnter]

theorem setAg (h : s₀.Keeps s) (i g a) : s₀.Keeps (s.setAg i g a) := by
  unfold State.setAg
  grind [setCore]

theorem execAgsetBase (i w) {t : State} (e : execAgsetBase i w s = .next t) (h : s₀.Keeps s) : s₀.Keeps t := by
  refine of_next e (h.issue _ _ _ _ fun s r h e => h.plainAct _ _ (fun s h => ?_) e)
  grind [setAg]

theorem execAgsetStride (i w) {t : State} (e : execAgsetStride i w s = .next t) (h : s₀.Keeps s) : s₀.Keeps t := by
  refine of_next e (h.issue _ _ _ _ fun s r h e => ?_)
  dsimp only at e
  repeat' split at e
  all_goals grind [setAg, complete, refuse]

theorem execAgadd (i w) {t : State} (e : execAgadd i w s = .next t) (h : s₀.Keeps s) : s₀.Keeps t := by
  refine of_next e (h.issue _ _ _ _ fun s r h e => h.plainAct _ _ (fun s h => ?_) e)
  grind [setAg]

theorem openBody (h : s₀.Keeps s) (i count w) : s₀.Keeps (s.openBody i count w) := by
  unfold State.openBody
  grind [retire, setCore, setPc, capture]

theorem repeatBody (h : s₀.Keeps s) (i w count bad) : s₀.Keeps (s.repeatBody i w count bad) := by
  unfold State.repeatBody
  grind [stopCore, retire, checkLine, openBody, settle, tracedHere, setPc, advance, capture]

theorem refuseRepeat (h : s₀.Keeps s) (i w) : s₀.Keeps (s.refuseRepeat i w) := by
  unfold State.refuseRepeat
  grind [settle, tracedHere, advance]

theorem execRepeatImm (i w) {t : State} (e : execRepeatImm i w s = .next t) (h : s₀.Keeps s) : s₀.Keeps t := by
  unfold Machine.execRepeatImm at e
  grind [repeatBody, Machine.next, refuseRepeat]

theorem execRepeatInd (i w) {t : State} (e : execRepeatInd i w s = .next t) (h : s₀.Keeps s) : s₀.Keeps t := by
  unfold Machine.execRepeatInd at e
  grind [repeatBody, settle, readScratch, tracedHere, Machine.next, advance, refuseRepeat]

theorem finishWait (h : s₀.Keeps s) (i) : s₀.Keeps (s.finishWait i) := by
  unfold State.finishWait
  grind [withdraw, tracedHere, advance]

theorem failWait (h : s₀.Keeps s) (i x st) : s₀.Keeps (s.failWait i x st) := by
  unfold State.failWait
  grind [stopCore, setF, tracedHere]

theorem seeFlag (h : s₀.Keeps s) (i x v) : s₀.Keeps (s.seeFlag i x v) := by
  unfold State.seeFlag
  grind [failWait, finishWait, setCore]

theorem armLocal (h : s₀.Keeps s) (i v off x) : s₀.Keeps (s.armLocal i v off x) := by
  unfold State.armLocal
  split
  · exact h.setCore _ _
  · rename_i e
    have := (h.arbitrate v (accessClass i v false) true off 8).installWatch _ _ _ e
    grind [failWait, seeFlag]

theorem armRemote (h : s₀.Keeps s) (i x) : s₀.Keeps (s.armRemote i x) := by
  unfold State.armRemote
  grind [setCore, request]

theorem arm (h : s₀.Keeps s) (i x) : s₀.Keeps (s.arm i x) := by
  unfold State.arm
  grind [armRemote, armLocal]

theorem startWait (h : s₀.Keeps s) (i w x) : s₀.Keeps (s.startWait i w x) := by
  unfold State.startWait
  grind [setF, arm, holdAt]

theorem execWait (i w) {t : State} (e : Machine.execWait i w s = .next t) (h : s₀.Keeps s) : s₀.Keeps t := by
  unfold Machine.execWait at e
  dsimp only at e
  split at e
  · exact of_next e h
  split at e
  · exact of_next e (h.issue _ _ _ _ fun _ _ h e => refuse e h)
  split at e
  · exact of_next e (h.issue _ _ _ _ fun _ _ _ e => by cases e; exact h.resolve _ _ _ _)
  split at e
  · exact of_next e h
  split at e
  · exact of_next e ((h.resolve _ _ _ _).startWait _ _ _)
  · exact of_next e ((h.resolve _ _ _ _).startWait _ _ _)
  · exact of_next e h

theorem execReservedOpcode (i w) {t : State} (e : execReservedOpcode i w s = .next t) (h : s₀.Keeps s) :
    s₀.Keeps t := by
  unfold Machine.execReservedOpcode at e
  grind [settle, tracedHere, Machine.next, advance]

end State.Keeps
end Sys2Proof.Machine
end

section
/-!
PROOF. What the operations of Machine/Mov keep.
-/
namespace Sys2Proof.Machine
namespace State.Keeps
variable {s₀ s t : State}

theorem pull (i eng op itag sz o dst n narrow) {r} (e : s.pull i eng op itag sz o dst n narrow = some r)
    (h : s₀.Keeps s) : s₀.Keeps r.1 := by
  unfold State.pull at e
  dsimp only at e
  split at e
  · cases e; exact h.resolve _ _ _ _
  split at e
  · cases e
  have h1 := ((h.resolve i o n false).readPieces i (s.resolve i o n false).pieces narrow).foldl
    (fun s h p => h.writeScratch i (dst + p.1) p.2)
    ((s.resolve i o n false).s.readPieces i (s.resolve i o n false).pieces narrow).2.1
  split at e
  · cases e; exact ((h1.addJob _).sendReads _ _ _ _ _ _ _).upd ..
  · cases e; exact ((h1.addJob _).sendReads _ _ _ _ _ _ _).setJob _

theorem push (h : s₀.Keeps s) (i op itag src o pieces data narrow st) :
    s₀.Keeps (s.push i op itag src o pieces data narrow st).1 := by
  unfold State.push
  grind [writePieces, setJob, sendWrites, addJob, upd]

theorem movLoadAct (i op itag dst src n narrow) {r} (e : movLoadAct i op itag dst src n narrow s = some r)
    (h : s₀.Keeps s) :
    s₀.Keeps r.1 := by
  unfold Machine.movLoadAct at e
  grind [pull, Machine.refuse]

theorem movStoreAct (i op itag dst src n narrow) {r} (e : movStoreAct i op itag dst src n narrow s = some r)
    (h : s₀.Keeps s) :
    s₀.Keeps r.1 := by
  unfold Machine.movStoreAct at e
  grind [readScratch, resolve, push, Machine.refuse]

theorem execMovLoad (i w) {t : State} (e : execMovLoad i w s = .next t) (h : s₀.Keeps s) : s₀.Keeps t := by
  refine of_next e (h.issue _ _ _ _ fun s r h e => ?_)
  dsimp only at e
  repeat' split at e
  all_goals grind [movLoadAct, refuse]

theorem execMovStore (i w) {t : State} (e : execMovStore i w s = .next t) (h : s₀.Keeps s) : s₀.Keeps t := by
  refine of_next e (h.issue _ _ _ _ fun s r h e => ?_)
  dsimp only at e
  repeat' split at e
  all_goals grind [movStoreAct, refuse]

theorem execMovCopy (i w) {t : State} (e : execMovCopy i w s = .next t) (h : s₀.Keeps s) : s₀.Keeps t := by
  refine of_next e (h.issue _ _ _ _ fun s r h e => ?_)
  dsimp only at e
  repeat' split at e
  all_goals grind [sendReads, setJob, readPieces, resolve, push, refuse, addJob, foldl, foldl₁]

theorem countLen (h : s₀.Keeps s) (i a scale) : s₀.Keeps (s.countLen i a scale).1 := by
  unfold State.countLen
  grind [readScratch]

theorem execLoadN (i w) {t : State} (e : execLoadN i w s = .next t) (h : s₀.Keeps s) : s₀.Keeps t := by
  refine of_next e (h.issue _ _ _ _ fun s r h e => ?_)
  dsimp only at e
  repeat' split at e
  all_goals grind [countLen, movLoadAct, refuse]

theorem execStoreN (i w) {t : State} (e : execStoreN i w s = .next t) (h : s₀.Keeps s) : s₀.Keeps t := by
  refine of_next e (h.issue _ _ _ _ fun s r h e => ?_)
  dsimp only at e
  repeat' split at e
  all_goals grind [countLen, movStoreAct, refuse]

theorem rowIndices (h : s₀.Keeps s) (i r) : s₀.Keeps (s.rowIndices i r).1 := by
  unfold State.rowIndices
  grind [readScratch]

theorem checkRows (h : s₀.Keeps s) (i r xs write) : s₀.Keeps (s.checkRows i r xs write).s := by
  unfold State.checkRows
  exact foldl_of Rows.s h (fun q x c h e => by grind [resolve]) xs

theorem execMovGather (i w) {t : State} (e : execMovGather i w s = .next t) (h : s₀.Keeps s) : s₀.Keeps t := by
  refine of_next e (h.issue _ _ _ _ fun s r h e => ?_)
  dsimp only at e
  repeat' split at e
  all_goals grind [sendReads, rowIndices, setJob, readPieces, checkRows, refuse, addJob, writeScratch, upd, foldl,
    foldl₁]

theorem execScatter (i w) {t : State} (e : execScatter i w s = .next t) (h : s₀.Keeps s) : s₀.Keeps t := by
  refine of_next e (h.issue _ _ _ _ fun s r h e => ?_)
  dsimp only at e
  repeat' split at e
  all_goals grind [writePieces, rowIndices, readScratch, setJob, sendWrites, checkRows, refuse, addJob, upd, foldl,
    foldl₁]

theorem execMovFill (i w) {t : State} (e : execMovFill i w s = .next t) (h : s₀.Keeps s) : s₀.Keeps t := by
  refine of_next e (h.issue _ _ _ _ fun s r h e => ?_)
  dsimp only at e
  repeat' split at e
  all_goals grind [complete, refuse, writeScratch]

theorem execMovAtomic (i w) {t : State} (e : execMovAtomic i w s = .next t) (h : s₀.Keeps s) : s₀.Keeps t := by
  refine of_next e (h.issue _ _ _ _ fun s r h e => ?_)
  dsimp only at e
  repeat' split at e
  all_goals grind [readScratch, request, resolve, atomicAs, refuse, addJob, writeScratch]

end State.Keeps
end Sys2Proof.Machine
end

section
/-!
PROOF. What the operations of Machine/Serve keep.
-/
namespace Sys2Proof.Machine
namespace State.Keeps
variable {s₀ s t : State}

theorem respondRead (h : s₀.Keeps s) (v reply st data) : s₀.Keeps (s.respondRead v reply st data) := by
  unfold State.respondRead
  grind [answer, emit]

theorem respond (h : s₀.Keeps s) (v op reply st data) : s₀.Keeps (s.respond v op reply st data) := by
  unfold State.respond
  grind [answer, emit]

theorem acceptPartial (h : s₀.Keeps s) (v off data narrow reply) :
    s₀.Keeps (s.acceptPartial v off data narrow reply) := by
  unfold State.acceptPartial
  grind [notify, bufPut, incWrap, makeRoom, respond, accept, foldl, foldl₁]

theorem serve (h : s₀.Keeps s) (v q) : s₀.Keeps (s.serve v q) := by
  unfold State.serve
  split
  · exact (h.readVault _ _ _ _).respondRead _ _ _ _
  · exact ite (h.acceptPartial _ _ _ _ _) ((h.writeVault _ _ _ _).respond _ _ _ _ _)
  · exact (h.atomicVault ..).respond _ _ _ _ _
  · split
    · exact h.respond _ _ _ _ _
    · rename_i e
      exact (h.installWatch _ _ _ e).respond _ _ _ _ _

theorem grantOne (h : s₀.Keeps s) (v narrow) : s₀.Keeps (s.grantOne v narrow).1 := by
  unfold State.grantOne
  grind [setVault, serve]

theorem grants (h : s₀.Keeps s) (v k) : s₀.Keeps (s.grants v k) := by
  induction k generalizing s with
  | zero => exact h
  | succ k ih =>
    unfold State.grants
    grind [grantOne]

theorem arrive (h : s₀.Keeps s) (v q) : s₀.Keeps (s.arrive v q) := by
  unfold State.arrive
  grind [setVault, serve, bookAs, rowAsked, grants, foldl, foldl₁]

theorem serveWaiting (h : s₀.Keeps s) (v) : s₀.Keeps (s.serveWaiting v) := by
  unfold State.serveWaiting
  grind [grants]

theorem openPort (h : s₀.Keeps s) (v) : s₀.Keeps (s.openPort v) := by
  unfold State.openPort
  grind [setVault, arrive, foldl, foldl₁]

theorem mergeGroup (h : s₀.Keeps s) (v g) : s₀.Keeps (s.mergeGroup v g) := by
  unfold State.mergeGroup
  grind [serveWaiting, setVault, respond, noteWord, foldl, foldl₁]

theorem drainAt (h : s₀.Keeps s) (v k) : s₀.Keeps (s.drainAt v k) := by
  unfold State.drainAt
  grind [setVault, touchRow]

theorem drainBank (h : s₀.Keeps s) (v b) : s₀.Keeps (s.drainBank v b) := by
  unfold State.drainBank
  grind [setVault, touchRow, foldl, foldl₁]

end State.Keeps
end Sys2Proof.Machine
end

section
/-!
PROOF. What the operations of Machine/YieldOps keep.
-/
namespace Sys2Proof.Machine
namespace State.Keeps
variable {s₀ s t : State}

theorem setYield (h : s₀.Keeps s) (i v) : s₀.Keeps (s.setYield i v) := by
  unfold State.setYield
  grind [setF]

theorem yieldLost (h : s₀.Keeps s) (v) : s₀.Keeps (s.yieldLost v) := by
  unfold State.yieldLost
  have hs : ∀ s, s₀.Keeps s → s₀.Keeps (if s.getF Reg.glbState_state = gsReady && s.gradeFails
      then s.setF Reg.glbState_state gsGradeFault else s) := fun s h => ite (h.setF _ _) h
  exact ite h (hs _ ((ite ((h.setYield _ _).setF _ _) (h.setYield _ _)).incSat _ _))

theorem retNote (h : s₀.Keeps s) (a n) : s₀.Keeps (s.retNote a n) := by
  unfold State.retNote
  grind [incSat, record, foldl, foldl₁]

theorem retWrite (h : s₀.Keeps s) (a bs) : s₀.Keeps (s.retWrite a bs) := by
  unfold State.retWrite
  grind [upd]

theorem pend (h : s₀.Keeps s) (kind v row) : s₀.Keeps (s.pend kind v row) := by
  unfold State.pend
  split
  · exact h
  · split
    · exact h.retWrite _ _
    · exact (h.setF _ _).record _

theorem retireVault (h : s₀.Keeps s) (v) : s₀.Keeps (s.retireVault v) := by
  unfold State.retireVault
  exact ite h ((((((h.setF _ _).setF _ _).setF _ _).yieldLost _).pend _ _ _).serveWaiting _)

theorem retireRow (h : s₀.Keeps s) (v row) : s₀.Keeps (s.retireRow v row) := by
  unfold State.retireRow
  grind [setVault, setF, retireVault, pend]

end State.Keeps
end Sys2Proof.Machine
end

section
/-!
PROOF. What the operations of Machine/Vault keep.
-/
namespace Sys2Proof.Machine
namespace State.Keeps
variable {s₀ s t : State}

theorem submit (h : s₀.Keeps s) (v q cls narrow) : s₀.Keeps (s.submit v q cls narrow) := by
  unfold State.submit
  grind [arrive]

theorem execVaultRead (i off len cls narrow) {t : State} (e : execVaultRead i off len cls narrow s = .next t)
    (h : s₀.Keeps s) :
    s₀.Keeps t := by
  unfold Machine.execVaultRead at e
  grind [submit, Machine.next]

theorem execVaultWrite (i off data cls narrow) {t : State} (e : execVaultWrite i off data cls narrow s = .next t)
    (h : s₀.Keeps s) :
    s₀.Keeps t := by
  unfold Machine.execVaultWrite at e
  grind [submit, Machine.next]

theorem execPartialWordMerge (i k) {t : State} (e : execPartialWordMerge i k s = .next t) (h : s₀.Keeps s) :
    s₀.Keeps t := by
  unfold Machine.execPartialWordMerge at e
  grind [Machine.next, mergeGroup]

theorem execVaultAtomic (i off aop wide operand compare) {t : State} (e : execVaultAtomic i off aop wide operand
    compare s = .next t) (h : s₀.Keeps s) :
    s₀.Keeps t := by
  unfold Machine.execVaultAtomic at e
  grind [submit, Machine.next]

theorem execWatchInstall (i off who) {t : State} (e : execWatchInstall i off who s = .next t) (h : s₀.Keeps s) :
    s₀.Keeps t := by
  unfold Machine.execWatchInstall at e
  grind [submit, Machine.next]

theorem execWriteBufferDrain (i k) {t : State} (e : execWriteBufferDrain i k s = .next t) (h : s₀.Keeps s) :
    s₀.Keeps t := by
  unfold Machine.execWriteBufferDrain at e
  grind [serveWaiting, Machine.next, drainAt]

theorem execRowIdlePrecharge (i bank) {t : State} (e : execRowIdlePrecharge i bank s = .next t) (h : s₀.Keeps s) :
    s₀.Keeps t := by
  unfold Machine.execRowIdlePrecharge at e
  grind [setVault, Machine.next]

theorem putLayer (h : s₀.Keeps s) (v l y) : s₀.Keeps (s.putLayer v l y) := by
  unfold State.putLayer
  grind [setVault]

theorem settleRates (h : s₀.Keeps s) (v) : s₀.Keeps (s.settleRates v) := by
  unfold State.settleRates
  grind [putLayer, foldl]

theorem refreshRates (h : s₀.Keeps s) (v) : s₀.Keeps (s.refreshRates v) := by
  unfold State.refreshRates
  grind [putLayer, foldl]

theorem execRefreshRateUpdate (i) {t : State} (e : execRefreshRateUpdate i s = .next t) (h : s₀.Keeps s) :
    s₀.Keeps t := by
  unfold Machine.execRefreshRateUpdate at e
  split at e
  · exact of_next e h
  · exact of_next e ((h.refreshRates i).setVault i _)

theorem execZoneTempStale (i layer) {t : State} (e : execZoneTempStale i layer s = .next t) (h : s₀.Keeps s) :
    s₀.Keeps t := by
  unfold Machine.execZoneTempStale at e
  grind [putLayer, Machine.next]

theorem execBandModeEnd (i) {t : State} (e : execBandModeEnd i s = .next t) (h : s₀.Keeps s) : s₀.Keeps t := by
  unfold Machine.execBandModeEnd at e
  grind [setVault, Machine.next, refreshRates]

theorem execRefresh (i bank) {t : State} (e : execRefresh i bank s = .next t) (h : s₀.Keeps s) : s₀.Keeps t := by
  unfold Machine.execRefresh at e
  grind [setVault, settleRates, Machine.next]

theorem execKeeperRefresh (i bank) {t : State} (e : execKeeperRefresh i bank s = .next t) (h : s₀.Keeps s) :
    s₀.Keeps t := by
  unfold Machine.execKeeperRefresh at e
  grind [setVault, settleRates, Machine.next]

theorem execVltInit (i) {t : State} (e : Machine.execVltInit i s = .next t) (h : s₀.Keeps s) : s₀.Keeps t := by
  unfold Machine.execVltInit at e
  dsimp only at e
  split at e
  · exact h.of_next e
  · split at e
    · exact of_next e ((h.setF _ _).setF _ _)
    · exact of_next e ((h.setF _ _).setF _ _)

theorem execFillTokenGrant (t1) {t : State} (e : execFillTokenGrant t1 s = .next t) (h : s₀.Keeps s) : s₀.Keeps t := by
  unfold Machine.execFillTokenGrant at e
  grind [setF, Machine.next]

theorem mergeAll (h : s₀.Keeps s) (v) : s₀.Keeps (s.mergeAll v) := by
  unfold State.mergeAll
  grind [mergeGroup, foldl]

theorem fillCounts (h : s₀.Keeps s) (v) : s₀.Keeps (s.fillCounts v) := by
  unfold State.fillCounts
  grind [incWrap]

theorem fillDone (h : s₀.Keeps s) (v) : s₀.Keeps (s.fillDone v) :=
  ((((((h.mergeAll _).setVault _ _).fillCounts _).setF _ _).setF _ _).foldl (fun _ h _ => h.notify _ _ _) _).openPort _

theorem execInitFillDone (i) {t : State} (e : execInitFillDone i s = .next t) (h : s₀.Keeps s) : s₀.Keeps t := by
  unfold Machine.execInitFillDone at e
  grind [fillDone, Machine.next]

theorem execScrubStart (i) {t : State} (e : execScrubStart i s = .next t) (h : s₀.Keeps s) : s₀.Keeps t := by
  unfold Machine.execScrubStart at e
  grind [setVault, setF, Machine.next]

theorem execScrubAbort (i) {t : State} (e : execScrubAbort i s = .next t) (h : s₀.Keeps s) : s₀.Keeps t := by
  unfold Machine.execScrubAbort at e
  grind [setVault, Machine.next]

theorem scrubWord (h : s₀.Keeps s) (v off) : s₀.Keeps (s.scrubWord v off) := by
  rw [show @State.scrubWord = _ from by delta State.scrubWord; rfl]
  have hn := h.noteWord v off (physAddr (s.frameBase v) off)
  dsimp only
  generalize (EccMem.word _ _ _).decode = d
  split
  · exact hn _
  · exact hn _
  · exact (hn _).setVault _ _
  · exact (hn _).setVault _ _

theorem execScrubGranule (i) {t : State} (e : Machine.execScrubGranule i s = .next t) (h : s₀.Keeps s) : s₀.Keeps t :=
    by
  unfold Machine.execScrubGranule at e
  have hs : ∀ gone : Bool, s₀.Keeps (if gone then s else
      (List.range 8).foldl (fun u k => u.scrubWord i ((s.vault i).scrubAt + 8 * k))
        (((s.arbitrate i .scrub false (s.vault i).scrubAt 64).touchRow i
          (physAddr (s.frameBase i) (s.vault i).scrubAt)).incWrap (Reg.vltCntRd_bytes i) 4)) := fun _ =>
    ite h ((((h.arbitrate ..).touchRow _ _).incWrap _ _).foldl (fun _ h _ => h.scrubWord _ _) _)
  refine of_ite e (fun e => of_next e h) fun e => ?_
  refine of_ite e (fun e => of_next e ((((hs _).setVault _ _).setF _ _).setF _ _)) fun e => ?_
  exact of_ite e (fun e => of_next e (((hs _).setVault _ _).setF _ _)) fun e => of_next e ((hs _).setVault _ _)

theorem execVltHold (i b) {t : State} (e : execVltHold i b s = .next t) (h : s₀.Keeps s) : s₀.Keeps t := by
  unfold Machine.execVltHold at e
  grind [setF, openPort, Machine.next]

theorem execVaultHeld (i) {t : State} (e : execVaultHeld i s = .next t) (h : s₀.Keeps s) : s₀.Keeps t := by
  unfold Machine.execVaultHeld at e
  grind [setF, Machine.next]

theorem execVltMapWrite (i v) {t : State} (e : execVltMapWrite i v s = .next t) (h : s₀.Keeps s) : s₀.Keeps t := by
  unfold Machine.execVltMapWrite at e
  grind [setF, Machine.next]

theorem execVltRetire (i v) {t : State} (e : execVltRetire i v s = .next t) (h : s₀.Keeps s) : s₀.Keeps t := by
  unfold Machine.execVltRetire at e
  grind [retireRow, Machine.next]

theorem execRetireVault (i) {t : State} (e : execRetireVault i s = .next t) (h : s₀.Keeps s) : s₀.Keeps t := by
  unfold Machine.execRetireVault at e
  grind [Machine.next, retireVault]

theorem execRawAccess (i v) {t : State} (e : execRawAccess i v s = .next t) (h : s₀.Keeps s) : s₀.Keeps t := by
  unfold Machine.execRawAccess at e
  grind [setVault, setF, Machine.next]

theorem execRawAccessDone (i) {t : State} (e : Machine.execRawAccessDone i s = .next t) (h : s₀.Keeps s) : s₀.Keeps
    t := by
  unfold Machine.execRawAccessDone at e
  refine of_ite e (fun e => of_next e h) fun e => of_next e (setF ?_ _ _)
  have hb : ∀ b p, s₀.Keeps ((s.arbitrate i .scrub true (s.getF (Reg.vltRawCtrl_addr i) * 8) 8).drainBank i b) ∧
      s₀.Keeps (((s.arbitrate i .scrub true (s.getF (Reg.vltRawCtrl_addr i) * 8) 8).drainBank i b).touchRow i p) :=
    fun b p => ⟨(h.arbitrate ..).drainBank _ _, ((h.arbitrate ..).drainBank _ _).touchRow _ _⟩
  have hs : ∀ (gone : Bool) b p, s₀.Keeps (if gone then
      (s.arbitrate i .scrub true (s.getF (Reg.vltRawCtrl_addr i) * 8) 8).drainBank i b
      else ((s.arbitrate i .scrub true (s.getF (Reg.vltRawCtrl_addr i) * 8) 8).drainBank i b).touchRow i p) :=
    fun _ b p => ite (hb b p).1 (hb b p).2
  exact ite ((hs _ _ _).setVault _ _) ((((hs _ _ _).setVault _ _).setF _ _).setF _ _)

end State.Keeps
end Sys2Proof.Machine
end

section
/-!
PROOF. What the operations of Machine/Bkd keep.
-/
namespace Sys2Proof.Machine
namespace State.Keeps
variable {s₀ s t : State}

theorem bkuShow (h : s₀.Keeps s) (v) : s₀.Keeps (s.bkuShow v) := by
  unfold State.bkuShow
  grind [setF]

theorem queueBku (i itag opc spans units op) {r} (e : s.queueBku i itag opc spans units op = some r) (h : s₀.Keeps s) :
    s₀.Keeps r.1 := by
  unfold State.queueBku at e
  grind [setVault, bkuShow, addJob]

theorem bkd (h : s₀.Keeps s) (i w op licence) {act : Nat → Act}
    (ha : ∀ n s r, s₀.Keeps s → act n s = some r → s₀.Keeps r.1) : s₀.Keeps (s.bkd i w op licence act) :=
  h.issue _ _ _ _ fun s r h e => by
    split at e
    · exact refuse e h
    · exact ha _ _ _ h e

theorem execBkdFill (i w) {t : State} (e : execBkdFill i w s = .next t) (h : s₀.Keeps s) : s₀.Keeps t := by
  refine of_next e (h.bkd _ _ _ _ fun n s r h e => ?_)
  dsimp only at e
  repeat' split at e
  all_goals grind [refuse, queueBku]

theorem execBkdCopy (i w) {t : State} (e : execBkdCopy i w s = .next t) (h : s₀.Keeps s) : s₀.Keeps t := by
  refine of_next e (h.bkd _ _ _ _ fun n s r h e => ?_)
  dsimp only at e
  repeat' split at e
  all_goals grind [refuse, queueBku]

theorem execBkdGather (i w) {t : State} (e : execBkdGather i w s = .next t) (h : s₀.Keeps s) : s₀.Keeps t := by
  refine of_next e (h.bkd _ _ _ _ fun n s r h e => ?_)
  dsimp only at e
  repeat' split at e
  all_goals grind [readScratch, refuse, queueBku, foldl, foldl₁]

theorem execQld (i w) {t : State} (e : execQld i w s = .next t) (h : s₀.Keeps s) : s₀.Keeps t := by
  refine of_next e (h.bkd _ _ _ _ fun n s r h e => ?_)
  dsimp only at e
  repeat' split at e
  all_goals grind [readScratch, refuse, queueBku]

theorem scoreF_run (f i itag opc mk) {r} (e : ScoreF.run f i itag opc mk s = some r) (h : s₀.Keeps s) :
    s₀.Keeps r.1 := by
  unfold Machine.ScoreF.run at e
  grind [Machine.refuse, queueBku]

theorem execBkdScore (i w) {t : State} (e : execBkdScore i w s = .next t) (h : s₀.Keeps s) : s₀.Keeps t := by
  refine of_next e (h.bkd _ _ _ _ fun n s r h e => ?_)
  dsimp only at e
  repeat' split at e
  all_goals grind [scoreF_run, refuse]

theorem execBkdAcc (i w) {t : State} (e : execBkdAcc i w s = .next t) (h : s₀.Keeps s) : s₀.Keeps t := by
  refine of_next e (h.bkd _ _ _ _ fun n s r h e => ?_)
  dsimp only at e
  repeat' split at e
  all_goals grind [scoreF_run, refuse]

theorem readBank (h : s₀.Keeps s) (v p n inject) : s₀.Keeps (s.readBank v p n inject).1 := by
  unfold State.readBank
  grind [incSat, eccFirst, record, noteWord, foldl, foldl₁]

theorem readRecs (h : s₀.Keeps s) (v p count recBytes inject) : s₀.Keeps (s.readRecs v p count recBytes inject).1 := by
  unfold State.readRecs
  grind [readBank, foldl₁]

theorem bkuWork (h : s₀.Keeps s) (v c inject) : s₀.Keeps (s.bkuWork v c inject).s := by
  unfold State.bkuWork
  grind [readBank, readRecs, foldl₁]

end State.Keeps
end Sys2Proof.Machine
end

section
/-!
PROOF. What the operations of Machine/Kvx keep.
-/
namespace Sys2Proof.Machine
namespace State.Keeps
variable {s₀ s t : State}

theorem retireKvx (h : s₀.Keeps s) (i k) : s₀.Keeps (s.retireKvx i k) := by
  induction k generalizing s with
  | zero => exact h
  | succ k ih =>
    unfold State.retireKvx
    split
    · exact h
    · dsimp only
      split
      · exact ih (h.setCore _ _)
      · split
        · exact ih ((h.setCore _ _).endJob _ _ _)
        · exact h

theorem endKvx (h : s₀.Keeps s) (j st halt) : s₀.Keeps (s.endKvx j st halt) :=
  (h.setJob _).retireKvx _ _

theorem kvStarts (i n) {act : Act} {r} (e : Machine.kvStarts i n act s = some r) (h : s₀.Keeps s)
    (ha : ∀ s r, s₀.Keeps s → act s = some r → s₀.Keeps r.1) : s₀.Keeps r.1 := by
  unfold Machine.kvStarts at e
  split at e
  · cases e
  · rename_i hr
    have ht := ha _ _ h hr
    grind [setCore, addJob]

theorem kvEnqueue (h : s₀.Keeps s) (i w ops) : s₀.Keeps (s.kvEnqueue i w ops) := by
  unfold State.kvEnqueue
  grind [touched, setCore, addJob, foldl, foldl₁]

theorem kvx (h : s₀.Keeps s) (i w op licence) {act : Nat → List (Nat × Nat × Nat) → Act}
    (ha : ∀ n ops s r, s₀.Keeps s → act n ops s = some r → s₀.Keeps r.1) : s₀.Keeps (s.kvx i w op licence act) :=
  h.issue _ _ _ _ fun s r h e => by
    dsimp only at e
    split at e
    · exact refuse e h
    · exact startOr _ e h (fun _ _ h e => kvStarts _ _ e h (ha _ _)) (h.kvEnqueue _ _ _)

theorem streamForm (i n ops) {act : KvxF → StreamBlk → Window → Act} {r} (e : Machine.streamForm i n ops act s = some r)
    (h : s₀.Keeps s) (ha : ∀ f k w s r, s₀.Keeps s → act f k w s = some r → s₀.Keeps r.1) : s₀.Keeps r.1 := by
  unfold Machine.streamForm at e
  dsimp only at e
  have hr := h.readScratch i (kvxF n ops).b.ea 32
  repeat' split at e
  all_goals grind [refuse]

theorem kvWalk_step (q : KvWalk) (hq : s₀.Keeps q.s) (die site w k layer page slot count tok needValid) :
    s₀.Keeps (KvWalk.step q die site w k layer page slot count tok needValid).s := by
  unfold Machine.KvWalk.step
  grind [incWrap, touchedMem, walk]

theorem kvWalk (h : s₀.Keeps s) (die site w k needValid) : s₀.Keeps (s.kvWalk die site w k needValid).s := by
  unfold State.kvWalk
  exact foldl_of KvWalk.s h (fun q _ _ h e => e ▸ kvWalk_step q h ..) _

theorem skyRead (h : s₀.Keeps s) (site a n narrow) : s₀.Keeps (s.skyRead site a n narrow).s := by
  unfold State.skyRead
  grind [tabRead, readAs]

theorem skyWriteAt (h : s₀.Keeps s) (site job a pos data narrow) :
    s₀.Keeps (s.skyWriteAt site job a pos data narrow).s := by
  unfold State.skyWriteAt
  grind [sendWritesAt, writeAs]

theorem skyWrite (h : s₀.Keeps s) (site job a data narrow) : s₀.Keeps (s.skyWrite site job a data narrow).s := by
  unfold State.skyWrite
  grind [skyWriteAt]

theorem skyWrite_and {x : SkyWrite} {f : State → SkyWrite} (h : s₀.Keeps x.s)
    (hf : ∀ s y, s₀.Keeps s → f s = y → s₀.Keeps y.s) : s₀.Keeps (x.and f).s :=
  (hf x.s _ h rfl : s₀.Keeps (f x.s).s)

theorem stage (h : s₀.Keeps s) (i d x fmt e0 n nt buf) : s₀.Keeps (s.stage i d x fmt e0 n nt buf).1 := by
  unfold State.stage
  grind [writeScratch, foldl₁]

theorem fetchAct (i n ops) {r} (e : fetchAct i n ops s = some r) (h : s₀.Keeps s) : s₀.Keeps r.1 := by
  refine streamForm _ _ _ e h fun f k win s r h e => ?_
  dsimp only at e
  repeat' split at e
  all_goals grind [stage, sendReads, touchedMem, setJob, readPieces, refuse, kvWalk, addJob, foldl, foldl₁]

theorem execFetch (i w) {t : State} (e : execFetch i w s = .next t) (h : s₀.Keeps s) : s₀.Keeps t := by
  exact of_next e (h.kvx _ _ _ _ fun _ _ _ _ h e => fetchAct _ _ _ e h)

theorem kvRows (h : s₀.Keeps s) (i acc g x pitch n ps) : s₀.Keeps (s.kvRows i acc g x pitch n ps).1 := by
  unfold State.kvRows
  grind [readScratch, foldl₁]

theorem dropSlot (h : s₀.Keeps s) (v units) : s₀.Keeps (s.dropSlot v units) := by
  unfold State.dropSlot
  grind [setVault]

theorem scoreRows (h : s₀.Keeps s) (i d g nt buf) : s₀.Keeps (s.scoreRows i d g nt buf).1 := by
  unfold State.scoreRows
  grind [writeScratch, foldl, foldl₁]

theorem sumRows (h : s₀.Keeps s) (i d g n buf) : s₀.Keeps (s.sumRows i d g n buf).1 := by
  unfold State.sumRows
  grind [writeScratch, foldl₁]

theorem absorbEnd (h : s₀.Keeps s) (i acc d g n nt units buf) : s₀.Keeps (s.absorbEnd i acc d g n nt units buf).1 := by
  unfold State.absorbEnd
  grind [sumRows, scoreRows, dropSlot]

theorem absorbAct (acc i n ops) {r} (e : absorbAct acc i n ops s = some r) (h : s₀.Keeps s) : s₀.Keeps r.1 := by
  refine streamForm _ _ _ e h fun f k win s r h e => ?_
  dsimp only at e
  repeat' split at e
  all_goals grind [incWrap, kvRows, absorbEnd, refuse, kvWalk, addJob]

theorem execKvxScore (i w) {t : State} (e : execKvxScore i w s = .next t) (h : s₀.Keeps s) : s₀.Keeps t := by
  exact of_next e (h.kvx _ _ _ _ fun _ _ _ _ h e => absorbAct _ _ _ _ e h)

theorem execKvxAcc (i w) {t : State} (e : execKvxAcc i w s = .next t) (h : s₀.Keeps s) : s₀.Keeps t := by
  exact of_next e (h.kvx _ _ _ _ fun _ _ _ _ h e => absorbAct _ _ _ _ e h)

theorem kvFeed (h : s₀.Keeps s) (i) : s₀.Keeps (s.kvFeed i) := by
  unfold State.kvFeed
  grind [setVault, setJob, bkuShow]

theorem poolCap (h : s₀.Keeps s) (site pool) : s₀.Keeps (s.poolCap site pool).1.s := by
  unfold State.poolCap
  grind [skyRead]

theorem poolOffer (i pool cap) {r} (e : s.poolOffer i pool cap = some r) (h : s₀.Keeps s) : s₀.Keeps r.1 := by
  unfold State.poolOffer at e
  dsimp only at e
  repeat' split at e
  all_goals grind [skyRead]

theorem askPfx (h : s₀.Keeps s) (source r) : s₀.Keeps (s.askPfx source r) := by
  unfold State.askPfx
  grind [upd]

theorem releaseAll (h : s₀.Keeps s) (source es) : s₀.Keeps (s.releaseAll source es) := by
  unfold State.releaseAll
  grind [askPfx, foldl]

theorem frameLost (h : s₀.Keeps s) (i f itag) : s₀.Keeps (s.frameLost i f itag) := by
  unfold State.frameLost
  grind [setF, coreEvent]

theorem appSt_took (h : s₀.Keeps s) (a : AppSt) (j f low) : s₀.Keeps (a.took s j f low).state := by
  unfold AppSt.took
  exact ite ((h.incSat _ _).coreEvent ..) (h.incSat _ _)

theorem appSt_take (h : s₀.Keeps s) (a : AppSt) (j) : s₀.Keeps (a.take s j).state := by
  unfold AppSt.take
  have hk := h.lookUp j.site (jobKey j.id) 6 (f := fun s => s.poolOffer j.site a.pool a.cap)
    (fun _ _ h e => poolOffer _ _ _ e h)
  split <;> grind [Tried.state, AppOut.state, appSt_took, atomicAs, request]

theorem appSt_send (h : s₀.Keeps s) (a : AppSt) (j p f taken copied) :
    s₀.Keeps (a.send s j p f taken copied).state := by
  unfold AppSt.send
  dsimp only
  have hw : ∀ b at_ narrow s y, s₀.Keeps s → s.skyWrite j.site j.id at_ b narrow = y → s₀.Keeps y.s :=
    fun _ _ _ _ _ h e => e ▸ h.skyWrite _ _ _ _ _
  have hx : s₀.Keeps (if copied.isEmpty then (⟨s, stOk, 0, true⟩ : SkyWrite)
      else SkyWrite.and ⟨s.incSat (Reg.kvxCntAlloc_copies j.site) 1, stOk, 0, true⟩
        (fun s => s.skyWrite j.site j.id f copied false)).s :=
    ite_of SkyWrite.s h (skyWrite_and (h.incSat _ _) (hw _ _ _))
  have hk := foldl_of SkyWrite.s hx (fun x m y (h : s₀.Keeps x.s) e => e ▸
    skyWrite_and (skyWrite_and h (hw (slice a.rows ((p.tok + m) * a.pitch) a.recBytes) (f + 512 * (p.slot + m)) false))
      (f := fun s => ⟨s, srcStatus (slice a.rows ((p.tok + m) * a.pitch) a.recBytes), 0, true⟩)
      (fun s y h e => e ▸ h)) (List.range p.count)
  exact ite_of AppOut.state h (ite_of AppOut.state hk hk)

theorem appSt_copy (h : s₀.Keeps s) (a : AppSt) (j p f taken) : s₀.Keeps (a.copy s j p f taken).state := by
  unfold AppSt.copy
  extract_lets n
  clear_value n
  split
  · exact h.appSt_send ..
  split
  · exact h
  · split
    · exact h
    extract_lets r
    split
    · exact h.readAs ..
    · exact (h.readAs ..).appSt_send ..
  · exact h.sendReads ..

theorem appSt_next (h : s₀.Keeps s) (a : AppSt) (j) : s₀.Keeps (a.next s j).state := h

theorem appSt_release (h : s₀.Keeps s) (a : AppSt) (j p) : s₀.Keeps (a.release s j p).state :=
  appSt_next (ite (h.releaseAll _ _) h) a j

theorem appSt_install (h : s₀.Keeps s) (a : AppSt) (j p f taken) : s₀.Keeps (a.install s j p f taken).state := by
  unfold AppSt.install
  dsimp only
  have hk := h.lookUp j.site (jobKey j.id) 6 (f := fun s =>
      let r := s.skyRead j.site p.at_ 16 true
      if r.ready then some (r.s, pteValid (leP r.data)) else none)
    (by grind [skyRead])
  split
  · grind [AppOut.state, skyWrite, appSt_release]
  · split <;> grind [Tried.state, AppOut.state, skyWrite, appSt_release, appSt_next, frameLost]

theorem appSt_step (h : s₀.Keeps s) (a : AppSt) (j) : s₀.Keeps (a.step s j).state := by
  unfold AppSt.step
  grind [AppOut.state, appSt_take, appSt_took, appSt_copy, appSt_send, appSt_install, appSt_release]

theorem appOut_run (k) {o : AppOut} (h : s₀.Keeps o.state) : s₀.Keeps (AppOut.run k o).state := by
  induction k generalizing o with
  | zero => cases o <;> exact h
  | succ k ih =>
    cases o with
    | on s j a => exact ih (appSt_step h a j)
    | waits s j a => exact h
    | ends => exact h

theorem appOut_of_run {k} {o p : AppOut} (e : AppOut.run k o = p) (h : s₀.Keeps o.state) : s₀.Keeps p.state :=
  e ▸ appOut_run k h

theorem appendAct (i n ops) {r} (e : Machine.appendAct i n ops s = some r) (h : s₀.Keeps s) : s₀.Keeps r.1 := by
  refine streamForm _ _ _ e h fun f k win s r h e => ?_
  have hq := h.kvWalk (towerOf i) i win k false
  refine of_ite e (fun e => refuse e h) fun e => ?_
  refine of_ite e (fun e => by cases e; exact hq) fun e => ?_
  refine of_ite e (fun e => by cases e; exact hq) fun e => ?_
  refine of_ite e (fun e => refuse e hq) fun e => ?_
  split at e
  · cases e; exact hq
  dsimp only at e
  have hc : ∀ b : Bool, s₀.Keeps (if b then (s.kvWalk (towerOf i) i win k false).s.poolCap i k.pool
      else ({ s := (s.kvWalk (towerOf i) i win k false).s, data := [], st := stOk, ready := true }, .ok 1)).1.s :=
    fun _ => ite_of (fun c : SkyRead × Except Nat Nat => c.1.s) (hq.poolCap _ _) hq
  specialize hc ((s.kvWalk (towerOf i) i win k false).pages.any fun p => needsFrame p.e2)
  split at e
  · refine of_ite e (fun e => by cases e) fun e => ?_
    refine of_ite e (fun e => refuse e hq) fun e => ?_
    cases e; exact hc
  · refine of_ite e (fun e => complete e (hc.readScratch _ _ _)) fun e => ?_
    refine of_ite e (fun e => by cases e) fun e => ?_
    split at e
    all_goals rename_i hrun; have hr := appOut_of_run hrun ((hc.readScratch _ _ _).addJob _)
    · cases e; exact hr.setJob _
    · cases e; exact hr.upd ..
    · cases e; exact hr.setJob _

theorem execAppend (i w) {t : State} (e : execAppend i w s = .next t) (h : s₀.Keeps s) : s₀.Keeps t := by
  exact of_next e (h.kvx _ _ _ _ fun _ _ _ _ h e => appendAct _ _ _ e h)

end State.Keeps
end Sys2Proof.Machine
end

section
/-!
PROOF. What the operations of Machine/Prefix keep.
-/
namespace Sys2Proof.Machine
namespace State.Keeps
variable {s₀ s t : State}

theorem pfxScan (h : s₀.Keeps s) (b) : s₀.Keeps (s.pfxScan b) := by
  unfold State.pfxScan
  grind [usedInject, record, upd]

theorem pageWalk (h : s₀.Keeps s) (i w k needValid) : s₀.Keeps (s.pageWalk i w k needValid).s := by
  unfold State.pageWalk
  exact foldl_of KvWalk.s h (fun q _ _ h e => e ▸ kvWalk_step q h ..) _

theorem blockPoison (h : s₀.Keeps s) (i a) : s₀.Keeps (s.blockPoison i a) := by
  unfold State.blockPoison
  grind [writeScratch]

theorem prefixForm (i op n ops publish) {act : StreamBlk → KvWalk → PfxAsk → Option (State × Done)} {r}
    (e : Machine.prefixForm i op n ops publish act s = some r) (h : s₀.Keeps s)
    (ha : ∀ k q a r, s₀.Keeps q.s → act k q a = some r → s₀.Keeps r.1) : s₀.Keeps r.1 := by
  refine streamForm _ _ _ e h fun f k win s r h e => ?_
  dsimp only at e
  repeat' split at e
  all_goals grind [refuse, complete, pageWalk, readScratch, blockPoison, addJob]

theorem linkAct (i n ops) {r} (e : Machine.linkAct i n ops s = some r) (h : s₀.Keeps s) : s₀.Keeps r.1 :=
  prefixForm _ _ _ _ _ e h fun _ _ _ _ h e => complete e (h.askPfx _ _)

theorem execLink (i w) {t : State} (e : execLink i w s = .next t) (h : s₀.Keeps s) : s₀.Keeps t := by
  exact of_next e (h.kvx _ _ _ _ fun _ _ _ _ h e => linkAct _ _ _ e h)

theorem publishAct (i n ops) {r} (e : publishAct i n ops s = some r) (h : s₀.Keeps s) : s₀.Keeps r.1 := by
  refine prefixForm _ _ _ _ _ e h fun k q a r h e => ?_
  dsimp only at e
  repeat' split at e
  all_goals grind [skyWrite, skyWrite_and, askPfx, setJob, complete, refuse, upd]

theorem execPublish (i w) {t : State} (e : execPublish i w s = .next t) (h : s₀.Keeps s) : s₀.Keeps t := by
  exact of_next e (h.kvx _ _ _ _ fun _ _ _ _ h e => publishAct _ _ _ e h)

theorem pfxCount (h : s₀.Keeps s) (link r) : s₀.Keeps (s.pfxCount link r) := by
  unfold State.pfxCount
  grind [incSat]

theorem writeEntries (h : s₀.Keeps s) (j ws addr fill) : s₀.Keeps (s.writeEntries j ws addr fill) := by
  unfold State.writeEntries
  have hx := foldl_of SkyWrite.s (b := ⟨s, stOk, 0, true⟩) h (fun x (e : Nat × List PByte) y (h : s₀.Keeps x.s) ey =>
    ey ▸
    skyWrite_and (skyWrite_and h (f := fun s => s.skyWrite j.site j.id e.1 e.2 true)
      (fun s y h e => e ▸ h.skyWrite _ _ _ _ _)) (f := fun s => ⟨s, srcStatus e.2, 0, true⟩) (fun s y h e => e ▸ h)) ws
  exact ite (h.setJob _) (ite ((hx.writeScratch _ _ _).endKvx _ _ _) (hx.setJob _))

theorem pfxAnswer (h : s₀.Keeps s) (a ws fill) : s₀.Keeps (s.pfxAnswer a ws fill) := by
  unfold State.pfxAnswer
  grind [writeEntries]

theorem pfxCompare (h : s₀.Keeps s) (a e1) : s₀.Keeps (s.pfxCompare a e1).s := by
  unfold State.pfxCompare
  grind [setF, skyRead]

theorem serveLink (a) {t : State} (e : s.serveLink a = some t) (h : s₀.Keeps s) : s₀.Keeps t := by
  unfold State.serveLink at e
  have hs := (h.incWrap Reg.pfxCntLookup_requests 1).pfxScan (setBase (pageKey a))
  have out : ∀ u r, s₀.Keeps u → s₀.Keeps ((u.pfxCount true r).pfxAnswer a [] (blockOut (pageKey a) r 0)) :=
    fun _ _ hu => (hu.pfxCount _ _).pfxAnswer _ _ _
  refine of_ite e (fun e => ?_) (fun e => ?_)
  · cases e; exact out _ _ hs
  split at e
  · cases e; exact out _ _ hs
  have hc := hs.pfxCompare a
  repeat' refine of_ite e (fun e => ?_) (fun e => ?_)
  all_goals cases e
  · exact out _ _ (hc _)
  · exact out _ _ (hc _)
  · exact out _ _ (hc _)
  · exact (((hc _).upd ..).pfxCount _ _).pfxAnswer _ _ _

theorem servePublish (a) {t : State} (e : s.servePublish a = some t) (h : s₀.Keeps s) : s₀.Keeps t := by
  unfold State.servePublish at e
  have hs := ((h.incWrap Reg.pfxCntLookup_requests 1).pfxScan (setBase (pageKey a))).skyWrite hostSite 0 (a.desc + 16)
    (clean (pageKey a)) false
  have out : ∀ u r e, s₀.Keeps u → s₀.Keeps ((u.pfxCount false r).pfxAnswer a [] (blockOut (pageKey a) r e)) :=
    fun _ _ _ hu => (hu.pfxCount _ _).pfxAnswer _ _ _
  refine of_ite e (fun e => by cases e) (fun e => ?_)
  refine of_ite e (fun e => ?_) (fun e => ?_)
  · cases e; exact out _ _ _ hs
  have hc := hs.pfxCompare a
  split at e
  · refine of_ite e (fun e => by cases e) (fun e => ?_)
    refine of_ite e (fun e => ?_) (fun e => ?_)
    · cases e; exact out _ _ _ (hc _)
    · cases e; exact out _ _ _ (hc _)
  · split at e
    · cases e; exact out _ _ _ hs
    · cases e; exact ((hs.upd ..).pfxCount _ _).pfxAnswer _ _ _

theorem pfxRelease (h : s₀.Keeps s) (e1) : s₀.Keeps (s.pfxRelease e1) := by
  unfold State.pfxRelease
  dsimp only
  repeat' split
  all_goals grind [pfxScan, upd]

theorem pfxTidy (h : s₀.Keeps s) : s₀.Keeps (s.pfxTidy) := by
  unfold State.pfxTidy
  grind [upd]

theorem pfxServe (h : s₀.Keeps s) {serve : State → PfxReq → Option State}
    (ha : ∀ s q t, s₀.Keeps s → serve s q = some t → s₀.Keeps t) : s₀.Keeps (s.pfxServe serve) := by
  unfold State.pfxServe
  dsimp only
  split
  · exact h.pfxTidy
  · rename_i x rest _
    have hk := h.pfxTidy.lookUp hostSite pfxKey hostEngine (f := fun s =>
        (serve { s with pfx := { s.pfx with queue := rest } } x.req).map (fun t => (t, ())))
      (fun s r h e => by
        obtain ⟨u, hu, rfl⟩ := Option.map_eq_some_iff.mp e
        exact ha _ _ _ (h.upd ..) hu)
    split <;> grind [Tried.state]

theorem linkRequest (a) {t : State} (e : linkRequest s a = some t) (h : s₀.Keeps s) : s₀.Keeps t := by
  unfold Machine.linkRequest at e
  grind [serveLink]

theorem publishRequest (a) {t : State} (e : publishRequest s a = some t) (h : s₀.Keeps s) : s₀.Keeps t := by
  unfold Machine.publishRequest at e
  grind [servePublish]

theorem releaseRequest (a) {t : State} (e : releaseRequest s a = some t) (h : s₀.Keeps s) : s₀.Keeps t := by
  unfold Machine.releaseRequest at e
  grind [pfxRelease]

theorem pfxGo (h : s₀.Keeps s) : s₀.Keeps s.pfxGo :=
  ite ((h.pfxServe fun _ _ _ h e => linkRequest _ e h).pfxServe fun _ _ _ h e => publishRequest _ e h) h

theorem execPrefixLinkRequest {t : State} (e : execPrefixLinkRequest s = .next t) (h : s₀.Keeps s) : s₀.Keeps t := by
  exact of_next e (h.pfxServe fun _ _ _ h e => linkRequest _ e h)

theorem execPrefixPublishRequest {t : State} (e : execPrefixPublishRequest s = .next t) (h : s₀.Keeps s) :
    s₀.Keeps t := by
  exact of_next e (h.pfxServe fun _ _ _ h e => publishRequest _ e h)

theorem execPrefixRelease {t : State} (e : execPrefixRelease s = .next t) (h : s₀.Keeps s) : s₀.Keeps t := by
  exact of_next e (h.pfxServe fun _ _ _ h e => releaseRequest _ e h)

theorem execPfxReclaimRelease (v) {t : State} (e : execPfxReclaimRelease v s = .next t) (h : s₀.Keeps s) :
    s₀.Keeps t := by
  unfold Machine.execPfxReclaimRelease at e
  grind [Machine.next, upd]

end State.Keeps
end Sys2Proof.Machine
end

section
/-!
PROOF. What the operations of Machine/Softmax keep.
-/
namespace Sys2Proof.Machine
namespace State.Keeps
variable {s₀ s t : State}

theorem row32 (h : s₀.Keeps s) (i a n) : s₀.Keeps (s.row32 i a n).1 := by
  unfold State.row32
  grind [readScratch]

theorem rows32 (h : s₀.Keeps s) (i a n g) : s₀.Keeps (s.rows32 i a n g).1 := by
  unfold State.rows32
  grind [row32, foldl₁]

theorem putRow (h : s₀.Keeps s) (i a width xs bad) : s₀.Keeps (s.putRow i a width xs bad) := by
  unfold State.putRow
  grind [writeScratch]

theorem putHeads (h : s₀.Keeps s) (i a bs hs) : s₀.Keeps (s.putHeads i a bs hs) := by
  unfold State.putHeads
  grind [writeScratch]

theorem softForm (i n ops maxLen useFirst useX dBytes xBytes) {act : KvxF → State → List PByte → Option
    (State × Done)} {r}
    (e : Machine.softForm i n ops maxLen useFirst useX dBytes xBytes act s = some r) (h : s₀.Keeps s)
    (ha : ∀ f s bs r, s₀.Keeps s → act f s bs = some r → s₀.Keeps r.1) : s₀.Keeps r.1 := by
  unfold Machine.softForm at e
  dsimp only at e
  repeat' split at e
  all_goals grind [refuse, readScratch]

theorem smaxAct (i n ops) {r} (e : smaxAct i n ops s = some r) (h : s₀.Keeps s) : s₀.Keeps r.1 := by
  refine softForm _ _ _ _ _ _ _ _ e h fun f s bs r h e => ?_
  dsimp only at e
  repeat' split at e
  all_goals grind [putHeads, putRow, complete, rows32, refuse, foldl, foldl₁]

theorem execSmax (i w) {t : State} (e : execSmax i w s = .next t) (h : s₀.Keeps s) : s₀.Keeps t := by
  exact of_next e (h.kvx _ _ _ _ fun _ _ _ _ h e => smaxAct _ _ _ e h)

theorem putAcc (h : s₀.Keeps s) (i a n rs) : s₀.Keeps (s.putAcc i a n rs) := by
  unfold State.putAcc
  grind [putRow, foldl]

theorem mergeAct (i n ops) {r} (e : mergeAct i n ops s = some r) (h : s₀.Keeps s) : s₀.Keeps r.1 := by
  refine softForm _ _ _ _ _ _ _ _ e h fun f s bs r h e => ?_
  dsimp only at e
  repeat' split at e
  all_goals grind [putHeads, putAcc, complete, rows32]

theorem execMerge (i w) {t : State} (e : execMerge i w s = .next t) (h : s₀.Keeps s) : s₀.Keeps t := by
  exact of_next e (h.kvx _ _ _ _ fun _ _ _ _ h e => mergeAct _ _ _ e h)

theorem combAct (i n ops) {r} (e : combAct i n ops s = some r) (h : s₀.Keeps s) : s₀.Keeps r.1 := by
  refine softForm _ _ _ _ _ _ _ _ e h fun f s bs r h e => ?_
  dsimp only at e
  grind [putHeads, readScratch, putAcc, complete, rows32]

theorem execComb (i w) {t : State} (e : execComb i w s = .next t) (h : s₀.Keeps s) : s₀.Keeps t := by
  exact of_next e (h.kvx _ _ _ _ fun _ _ _ _ h e => combAct _ _ _ e h)

theorem finAct (i n ops) {r} (e : finAct i n ops s = some r) (h : s₀.Keeps s) : s₀.Keeps r.1 := by
  refine softForm _ _ _ _ _ _ _ _ e h fun f s bs r h e => ?_
  dsimp only at e
  grind [putHeads, putAcc, putRow, complete, rows32]

theorem execFin (i w) {t : State} (e : execFin i w s = .next t) (h : s₀.Keeps s) : s₀.Keeps t := by
  exact of_next e (h.kvx _ _ _ _ fun _ _ _ _ h e => finAct _ _ _ e h)

end State.Keeps
end Sys2Proof.Machine
end

section
/-!
PROOF. What the operations of Machine/QueueOps keep.
-/
namespace Sys2Proof.Machine
namespace State.Keeps
variable {s₀ s t : State}

theorem queueShow (h : s₀.Keeps s) (q) : s₀.Keeps (s.queueShow q) :=
  (((((h.setF _ _).setF _ _).setF _ _).setF _ _).setF _ _).setF _ _

theorem setSender (h : s₀.Keeps s) (x) : s₀.Keeps (s.setSender x) := by
  unfold State.setSender
  grind [upd]

theorem resolveSeq (h : s₀.Keeps s) (i e1 seq) : s₀.Keeps (s.resolveSeq i e1 seq) := by
  unfold State.resolveSeq
  grind [setSeqCtr]

theorem endSender (h : s₀.Keeps s) (x st) : s₀.Keeps (s.endSender x st) := by
  unfold State.endSender
  grind [resolveSeq, endJob, upd]

theorem recordReq (h : s₀.Keeps s) (q r) : s₀.Keeps (s.recordReq q r).1 := by
  unfold State.recordReq
  grind [incSat, setQueue, queueShow]

theorem tellAdmitted (h : s₀.Keeps s) (q r) : s₀.Keeps (s.tellAdmitted q r) := by
  unfold State.tellAdmitted
  grind [answer, endSender, setSender]

theorem remember (h : s₀.Keeps s) (q id) : s₀.Keeps (s.remember q id) := by
  unfold State.remember
  grind [setQueue]

theorem admitReq (h : s₀.Keeps s) (q) : s₀.Keeps (s.admitReq q) := by
  unfold State.admitReq
  dsimp only
  split
  · exact h
  split
  · exact h
  · have hs := fun x n => ((h.setQueue q x).incWrap (Reg.sqCntIn_bundles q) 1).incWrap (Reg.sqCntBytes_words q) n
    exact ((ite ((hs _ _).remember _ _) (hs _ _)).tellAdmitted _ _).queueShow _

theorem setBundle (h : s₀.Keeps s) (q b) : s₀.Keeps (s.setBundle q b) := by
  unfold State.setBundle
  grind [setQueue]

theorem putWords (h : s₀.Keeps s) (q b off ws) : s₀.Keeps (s.putWords q b off ws).1 := by
  unfold State.putWords
  grind [remember, setBundle, foldl₁]

theorem loseBundle (h : s₀.Keeps s) (q b) : s₀.Keeps (s.loseBundle q b) := by
  unfold State.loseBundle
  grind [incSat, setBundle, queueShow, foldl, foldl₁]

theorem parityFails (h : s₀.Keeps s) (q n) : s₀.Keeps (s.parityFails q n) := by
  unfold State.parityFails
  grind [incSat, record, foldl, foldl₁]

theorem readWords (h : s₀.Keeps s) (q b k m) : s₀.Keeps (s.readWords q b k m).1 := by
  unfold State.readWords
  grind [setF, parityFails]

theorem readHeader (h : s₀.Keeps s) (q b) : s₀.Keeps (s.readHeader q b).1 := by
  unfold State.readHeader
  grind [setF, parityFails]

theorem releaseHead (h : s₀.Keeps s) (q) : s₀.Keeps (s.releaseHead q) := by
  unfold State.releaseHead
  grind [setQueue, queueShow]

theorem askAgain (x st) {t : State} (e : s.askAgain x st = some t) (h : s₀.Keeps s) : s₀.Keeps t := by
  unfold State.askAgain at e
  grind [setSender]

theorem unbegin (h : s₀.Keeps s) (q) : s₀.Keeps (s.unbegin q) := by
  unfold State.unbegin
  grind [setCore]

theorem emptyQueue (h : s₀.Keeps s) (q st) : s₀.Keeps (s.emptyQueue q st) := by
  unfold State.emptyQueue
  grind [incSat, setQueue, answer, endSender, askAgain, unbegin, queueShow, foldl, foldl₁]

theorem takeSeq (h : s₀.Keeps s) (i e1) : s₀.Keeps (s.takeSeq i e1).1 := by
  unfold State.takeSeq
  grind [setSeqCtr]

theorem useSeq (h : s₀.Keeps s) (i e1 seq) : s₀.Keeps (s.useSeq i e1 seq) := by
  unfold State.useSeq
  grind [setSeqCtr]

theorem startSender (h : s₀.Keeps s) (i e1 op itag dst remote utag payload addr) :
    s₀.Keeps (s.startSender i e1 op itag dst remote utag payload addr) := by
  unfold State.startSender
  grind [takeSeq, addJob, upd]

end State.Keeps
end Sys2Proof.Machine
end

section
/-!
PROOF. What the operations of Machine/FmvOps keep.
-/
namespace Sys2Proof.Machine
namespace State.Keeps
variable {s₀ s t : State}

theorem readNear (h : s₀.Keeps s) (i space a n narrow) : s₀.Keeps (s.readNear i space a n narrow).1 := by
  unfold State.readNear
  grind [readScratch, touchedMem, readAs]

theorem addFlag (h : s₀.Keeps s) (i job remote v off addend) : s₀.Keeps (s.addFlag i job remote v off addend).1 := by
  unfold State.addFlag
  grind [request, atomicAs]

theorem putAct (i n flag ops) {r} (e : putAct i n flag ops s = some r) (h : s₀.Keeps s) : s₀.Keeps r.1 := by
  unfold Machine.putAct at e
  grind [writePieces, setJob, sendWrites, resolve, addFlag, Machine.refuse, addJob, readNear, upd]

theorem getAct (i n ops) {r} (e : getAct i n ops s = some r) (h : s₀.Keeps s) : s₀.Keeps r.1 := by
  unfold Machine.getAct at e
  grind [sendReads, touchedMem, setJob, readPieces, pull, writeAs, resolve, Machine.refuse, addJob, upd, foldl, foldl₁]

theorem tsendAct (i n ops) {r} (e : Machine.tsendAct i n ops s = some r) (h : s₀.Keeps s) : s₀.Keeps r.1 := by
  unfold Machine.tsendAct at e
  refine of_ite e (fun e => refuse e h) fun e => ?_
  have hs := ((h.readScratch i (opAt ops 0).ea 8).readScratch i (opAt ops 3).ea 32).readScratch i (opAt ops 1).ea 4
  refine of_ite e (fun e => complete e hs) fun e => ?_
  refine of_ite e (fun e => refuse e hs) fun e => ?_
  have hx := fun a n => hs.readScratch i a n
  refine of_ite e (fun e => by cases e; exact hx _ _) fun e => ?_
  split at e
  · cases e; exact hx _ _
  refine of_ite e (fun e => by cases e; exact hx _ _) fun e => ?_
  refine of_ite e (fun e => by cases e) fun e => ?_
  dsimp only at e
  generalize hp : List.foldl _ _ _ = p at e
  have hk : s₀.Keeps p.1 := hp ▸ foldl₁ (p := (_, [], stOk)) (hx _ _)
    (fun p a q h e => by subst e; cases a; exacts [h, h.readNear ..]) _
  exact of_ite e (fun e => by cases e; exact hk) fun e => complete e ((hk.startSender ..).upd ..)

theorem repPlan_seg (p : RepPlan) (hp : s₀.Keeps p.s) (rb ra nrows d idx) :
    s₀.Keeps (RepPlan.seg p rb ra nrows d idx).s := by
  unfold Machine.RepPlan.seg
  grind

theorem repRows (h : s₀.Keeps s) (i job space rb rows) : s₀.Keeps (s.repRows i job space rb rows).1 := by
  unfold State.repRows
  grind [touchedMem, sendWrites, writeAs, readNear, foldl, foldl₁]

theorem replyGo (segs) : ∀ {s : State} (_ : s₀.Keeps s) (rowsDone j space rb),
    s₀.Keeps (Machine.replyGo segs rowsDone s j space rb).s := by
  induction segs with
  | nil => exact fun h _ _ _ _ => h
  | cons g gs ih =>
    intro s h rowsDone j space rb
    unfold Machine.replyGo
    have hr : s₀.Keeps (if rowsDone then (s, stOk, 0) else s.repRows j.site j.id space rb g.rows).1 :=
      ite_of Prod.fst h (h.repRows _ _ _ _ _)
    refine ite_of RepOut.s hr (ite_of RepOut.s hr ?_)
    split
    · exact hr
    · dsimp only
      split
      · have ha := fun v off => (hr.touchedMem j.site [(v, off, 8)]).addFlag j.site j.id false v off g.count
        exact ite_of RepOut.s (ha _ _) (ite_of RepOut.s (ha _ _) (ih (ha _ _) _ _ _ _))
      · have ha := fun v off => hr.addFlag j.site j.id true v off g.count
        exact ite_of RepOut.s (ha _ _) (ite_of RepOut.s (ha _ _) (ih (ha _ _) _ _ _ _))

theorem replyAct (i n ops) {r} (e : Machine.replyAct i n ops s = some r) (h : s₀.Keeps s) : s₀.Keeps r.1 := by
  unfold Machine.replyAct at e
  refine of_ite e (fun e => refuse e h) fun e => ?_
  have hw := h.readScratch i ((opAt ops 0).ea + 4) 4
  refine of_ite e (fun e => complete e hw) fun e => ?_
  refine of_ite e (fun e => refuse e hw) fun e => ?_
  have hr := fun a => hw.readScratch i a 4
  refine of_ite e (fun e => complete e (hr _)) fun e => ?_
  refine of_ite e (fun e => refuse e (hr _)) fun e => ?_
  have hg := fun a b n c m => ((hr a).readScratch i b n).readScratch i c m
  dsimp only at e
  generalize hp : List.foldl _ _ _ = p at e
  have hk : s₀.Keeps p.s := hp ▸ foldl_of RepPlan.s (b := RepPlan.mk ..) (ite ((hg ..).touched ..) (hg ..))
    (fun p a q h e => e ▸ repPlan_seg p h ..) _
  refine of_ite e (fun e => refuse e hk) fun e => ?_
  split at e
  · cases e; exact hk
  refine of_ite e (fun e => by cases e) fun e => ?_
  have ho := fun j space => Machine.State.Keeps.replyGo p.segs (hk.addJob j) false j space (bits n 63 48)
  exact of_ite e (fun e => by cases e; exact (ho _ _).setJob _) fun e => by cases e; exact (ho _ _).upd ..

end State.Keeps
end Sys2Proof.Machine
end

section
/-!
PROOF. What the operations of Machine/Sq keep.
-/
namespace Sys2Proof.Machine
namespace State.Keeps
variable {s₀ s t : State}

theorem pushAct (i n ops) {r} (e : pushAct i n ops s = some r) (h : s₀.Keeps s) : s₀.Keeps r.1 := by
  unfold Machine.pushAct at e
  grind [readScratch, Machine.complete, startSender, Machine.refuse]

theorem writeNear (h : s₀.Keeps s) (i space a data) : s₀.Keeps (s.writeNear i space a data).1 := by
  unfold State.writeNear
  grind [touchedMem, writeAs, writeScratch]

theorem endEntry (h : s₀.Keeps s) (e1 st space addr halt) : s₀.Keeps (s.endEntry e1 st space addr halt) := by
  unfold State.endEntry
  grind [endJob]

theorem noteRoute (h : s₀.Keeps s) (job r) : s₀.Keeps (s.noteRoute job r) := by
  unfold State.noteRoute
  grind [setJob]

theorem dropSq (h : s₀.Keeps s) (i) : s₀.Keeps (s.dropSq i) := by
  unfold State.dropSq
  grind [setCore]

theorem setSq (h : s₀.Keeps s) (i e1) : s₀.Keeps (s.setSq i e1) := by
  unfold State.setSq
  grind [setCore]

theorem popOn (h : s₀.Keeps s) (i e f b) : s₀.Keeps (s.popOn i e f b).state := by
  unfold State.popOn
  have hw := fun a k space => (h.readWords i b e.copied k).writeNear i space a (s.readWords i b e.copied k).2
  exact ite_of PopNow.state h (ite_of PopNow.state ((hw _ _ _).setSq _ _)
    (((((((hw _ _ _).readHeader _ _).writeScratch _ _ _).dropSq _).releaseHead _).endEntry ..)))

theorem popF_counts (h : s₀.Keeps s) (f i) : s₀.Keeps (PopF.counts f s i).1 := by
  unfold Machine.PopF.counts
  grind [readScratch]

theorem popF_putCounts (h : s₀.Keeps s) (f i rows segs) : s₀.Keeps (PopF.putCounts f s i rows segs) := by
  unfold Machine.PopF.putCounts
  grind [writeScratch]

theorem popaBlind (h : s₀.Keeps s) (i e1 f n0 s0) : s₀.Keeps (s.popaBlind i e1 f n0 s0) := by
  unfold State.popaBlind
  grind [popF_putCounts, dropSq, releaseHead, endEntry, writeScratch]

theorem popaCopy (h : s₀.Keeps s) (i f b n0 c k m) : s₀.Keeps (s.popaCopy i f b n0 c k m).1 := by
  unfold State.popaCopy
  grind [readWords, writeNear, writeScratch]

theorem popaOn (h : s₀.Keeps s) (i e f b) : s₀.Keeps (s.popaOn i e f b).state := by
  unfold State.popaOn
  have hq := h.popF_counts f i
  have hn : ∀ (u : State) (blind : Bool) r, s₀.Keeps u → s₀.Keeps (if blind then u else u.noteRoute e.job r) :=
    fun _ _ _ hu => ite hu (hu.noteRoute _ _)
  have hd : s₀.Keeps (if e.copied != 0 then ((f.counts s i).1, e.block)
      else if b.size = 0 then (f.counts s i).1.readHeader i b else (f.counts s i).1.readWords i b 0 4).1 :=
    ite_of Prod.fst hq (ite_of Prod.fst (hq.readHeader i b) (hq.readWords i b 0 4))
  refine ite_of PopNow.state ((hq.dropSq _).endEntry ..) (ite_of PopNow.state h ?_)
  refine ite_of PopNow.state ((((hn _ _ _ hq).dropSq _).queueShow _).endEntry ..) ?_
  have hc := fun blind r n0 c k m => (hn _ blind r hd).popaCopy i f b n0 c k m
  refine ite_of PopNow.state (ite_of PopNow.state ((hn _ _ _ hd).popaBlind ..) ((hn _ _ _ hd).setSq _ _)) ?_
  refine ite_of PopNow.state h (ite_of PopNow.state ((hc ..).setSq _ _) ?_)
  exact ((((((hc ..).setCore _ _).writeScratch _ _ _).popF_putCounts ..).dropSq _).releaseHead _).endEntry ..

theorem descRead (h : s₀.Keeps s) (i) : s₀.Keeps (s.descRead i) := by
  unfold State.descRead
  grind [setF, usedInject, record]

theorem tryPop (h : s₀.Keeps s) (i e) : s₀.Keeps (s.tryPop i e).state := by
  unfold State.tryPop
  have hs : s₀.Keeps (if s.headReady i then s.descRead i else s) := ite (h.descRead _) h
  refine ite_of PopNow.state (((hs.dropSq _).queueShow _).endEntry ..) ?_
  split
  · exact hs
  · refine ite_of PopNow.state hs (ite_of PopNow.state (((hs.dropSq _).queueShow _).endEntry ..) ?_)
    exact ite_of PopNow.state ((hs.setSq _ _).popOn _ _ _ _) ((hs.setSq _ _).popaOn _ _ _ _)

theorem fmvAct (i n ops) {r} (e : Machine.fmvAct i n ops s = some r) (h : s₀.Keeps s) : s₀.Keeps r.1 := by
  generalize ha : Machine.fmvAct i n ops = act at e
  unfold Machine.fmvAct at ha
  split at ha <;> subst ha
  · exact putAct _ _ _ _ e h
  · exact getAct _ _ _ e h
  · exact putAct _ _ _ _ e h
  · exact tsendAct _ _ _ e h
  · exact replyAct _ _ _ e h

theorem ordered (i eng) {act : Act} {r} (e : s.ordered i eng act = some r) (h : s₀.Keeps s)
    (ha : ∀ s r, s₀.Keeps s → act s = some r → s₀.Keeps r.1) : s₀.Keeps r.1 := by
  unfold State.ordered at e
  dsimp only at e
  split at e
  · exact ha _ _ h e
  · split at e
    · cases e
    · rename_i q hq
      split at e
      · cases e
      · cases e
        exact (ha _ q (h.setCore _ _) hq).setCore _ _

theorem startEntry (h : s₀.Keeps s) (i eng e) {act : Act} (ha : ∀ s r, s₀.Keeps s → act s = some r → s₀.Keeps r.1) :
    s₀.Keeps (s.startEntry i eng e act).state := by
  unfold State.startEntry
  dsimp only
  split <;> rename_i hl <;>
    have hk := lookUp_of hl h (fun s r h e => ordered _ _ e ((h.setCore _ _).upd ..) ha)
  · exact Keeps.setWaits hk _ _
  · have hb := fun n st b k => ((Keeps.setWaits hk i []).lastOf i eng n st b).stampJobs i s.newJob k
    exact ((ite (hb ..) ((hb ..).traced ..)).settle ..).wake _

theorem startEntry_of {i eng x} {act : Act} {r} (e : s.startEntry i eng x act = r) (h : s₀.Keeps s)
    (ha : ∀ s r, s₀.Keeps s → act s = some r → s₀.Keeps r.1) : s₀.Keeps r.state :=
  e ▸ h.startEntry i eng x ha

theorem runSq (k) : ∀ {s : State} (_ : s₀.Keeps s) (i), s₀.Keeps (State.runSq k s i) := by
  induction k with
  | zero => exact fun h _ => h
  | succ k ih =>
    intro s h i
    unfold State.runSq
    split
    · exact h
    · rename_i e _ _
      refine ite h (ite ?_ ?_)
      · split <;> rename_i hs <;> have hk := startEntry_of hs h (fun _ _ h e => pushAct _ _ _ e h)
        · exact hk
        · exact ih hk _
      · have hk := h.tryPop i e
        split <;> rename_i hs <;> rw [hs] at hk
        · exact hk
        · exact ih hk _

theorem runFmv (k) : ∀ {s : State} (_ : s₀.Keeps s) (i), s₀.Keeps (State.runFmv k s i) := by
  induction k with
  | zero => exact fun h _ => h
  | succ k ih =>
    intro s h i
    unfold State.runFmv
    split
    · exact h
    · refine ite h ?_
      split <;> rename_i hs <;> have hk := startEntry_of hs h (fun _ _ h e => fmvAct _ _ _ e h)
      · exact hk
      · exact ih hk _

theorem runEngines (h : s₀.Keeps s) (i) : s₀.Keeps (s.runEngines i) := runFmv _ (runSq _ h _) _

theorem runQueues (h : s₀.Keeps s) : s₀.Keeps (s.runQueues) := by
  unfold State.runQueues
  grind [runEngines, foldl]

theorem enqueue (h : s₀.Keeps s) (i w deadline) : s₀.Keeps (s.enqueue i w deadline) := by
  unfold State.enqueue
  grind [touched, setCore, addJob, foldl, foldl₁]

theorem fmv (h : s₀.Keeps s) (i w op) {act : List (Nat × Nat × Nat) → Act}
    (ha : ∀ ops s r, s₀.Keeps s → act ops s = some r → s₀.Keeps r.1) : s₀.Keeps (s.fmv i w op act) :=
  h.issue _ _ _ _ fun _ _ h e => startOr _ e h (ha _) (h.enqueue _ _ _)

theorem execPush (i w) {t : State} (e : Machine.execPush i w s = .next t) (h : s₀.Keeps s) : s₀.Keeps t :=
  of_next e (h.issue _ _ _ _ fun _ _ h e => startOr _ e h (fun _ _ h e => pushAct _ _ _ e h) (h.enqueue _ _ _))

theorem popIssue (i w) {r} (e : Machine.popIssue i w s = some r) (h : s₀.Keeps s) : s₀.Keeps r.1 := by
  unfold Machine.popIssue at e
  exact of_ite e (fun e => refuse e h) fun e => complete e ((runSq _ (h.enqueue _ _ _) _).queueShow _)

theorem execPop (i w) {t : State} (e : Machine.execPop i w s = .next t) (h : s₀.Keeps s) : s₀.Keeps t :=
  of_next e (h.issue _ _ _ _ fun _ _ h e => popIssue _ _ e h)

theorem execPopa (i w) {t : State} (e : Machine.execPopa i w s = .next t) (h : s₀.Keeps s) : s₀.Keeps t :=
  of_next e (h.issue _ _ _ _ fun _ _ h e => popIssue _ _ e h)

theorem execTsend (i w) {t : State} (e : execTsend i w s = .next t) (h : s₀.Keeps s) : s₀.Keeps t := by
  exact of_next e (h.fmv _ _ _ fun _ _ _ h e => tsendAct _ _ _ e h)

theorem execReply (i w) {t : State} (e : execReply i w s = .next t) (h : s₀.Keeps s) : s₀.Keeps t := by
  exact of_next e (h.fmv _ _ _ fun _ _ _ h e => replyAct _ _ _ e h)

theorem execPut (i w) {t : State} (e : execPut i w s = .next t) (h : s₀.Keeps s) : s₀.Keeps t := by
  exact of_next e (h.fmv _ _ _ fun _ _ _ h e => putAct _ _ _ _ e h)

theorem execGet (i w) {t : State} (e : execGet i w s = .next t) (h : s₀.Keeps s) : s₀.Keeps t := by
  exact of_next e (h.fmv _ _ _ fun _ _ _ h e => getAct _ _ _ e h)

theorem execPutf (i w) {t : State} (e : execPutf i w s = .next t) (h : s₀.Keeps s) : s₀.Keeps t := by
  exact of_next e (h.fmv _ _ _ fun _ _ _ h e => putAct _ _ _ _ e h)

end State.Keeps
end Sys2Proof.Machine
end

section
/-!
PROOF. What the operations of Machine/Jobs keep.
-/
namespace Sys2Proof.Machine
namespace State.Keeps
variable {s₀ s t : State}

theorem deliver (h : s₀.Keeps s) (j d data) : s₀.Keeps (s.deliver j d data).1 := by
  unfold State.deliver
  grind [writeAs, writeScratch]

theorem endCommand (h : s₀.Keeps s) (ring head st res) : s₀.Keeps (s.endCommand ring head st res) := by
  unfold State.endCommand
  grind [upd]

theorem hostRecord (h : s₀.Keeps s) (st) : s₀.Keeps (s.hostRecord st) := by
  unfold State.hostRecord
  grind [record]

theorem hostWrites (h : s₀.Keeps s) (sgl data) : s₀.Keeps (s.hostWrites sgl data) := by
  unfold State.hostWrites
  grind [emit, foldl₁]

theorem hifFirst (h : s₀.Keeps s) (kind bar off) : s₀.Keeps (s.hifFirst kind bar off) := by
  unfold State.hifFirst
  grind [setF]

theorem endHostRead (h : s₀.Keeps s) (off len st data) : s₀.Keeps (s.endHostRead off len st data) := by
  unfold State.endHostRead
  grind [incSat, hifFirst, emit]

theorem endHostWrite (h : s₀.Keeps s) (off st) : s₀.Keeps (s.endHostWrite off st) := by
  unfold State.endHostWrite
  grind [incSat, hifFirst]

theorem endHost (h : s₀.Keeps s) (ring head e1 st data) : s₀.Keeps (s.endHost ring head e1 st data) := by
  unfold State.endHost
  grind [bump, endCommand, hostRecord, hostWrites]

theorem traceWritten (h : s₀.Keeps s) (st) : s₀.Keeps (s.traceWritten st) := by
  unfold State.traceWritten
  grind [incWrap, setF, upd]

theorem dropJob (h : s₀.Keeps s) (id) : s₀.Keeps (s.dropJob id) := by
  unfold State.dropJob
  grind [upd]

theorem copyOn (h : s₀.Keeps s) (j space ea src len narrow pieces) :
    s₀.Keeps (s.copyOn j space ea src len narrow pieces) := by
  unfold State.copyOn
  grind [writePieces, setJob, sendWrites, endJob]

theorem replyOn (h : s₀.Keeps s) (j flagSent segs space rb) : s₀.Keeps (s.replyOn j flagSent segs space rb) := by
  unfold State.replyOn
  have ho := ite_of (c := flagSent = true) RepOut.s (replyGo (segs.drop 1) h false j space rb)
    (replyGo segs h true j space rb)
  exact ite (h.endJob _ _ _) (ite h (ite (ho.setJob _) (ho.endJob _ _ _)))

theorem appendOn (h : s₀.Keeps s) (j a) : s₀.Keeps (s.appendOn j a) := by
  unfold State.appendOn
  split <;> rename_i hrun <;> have hr := appOut_of_run hrun h
  · exact hr.setJob _
  · exact hr.setJob _
  · exact hr.endKvx _ _ _

theorem absorbOn (h : s₀.Keeps s) (j acc d g n nt units) : s₀.Keeps (s.absorbOn j acc d g n nt units) := by
  unfold State.absorbOn
  grind [absorbEnd, endKvx, dropSlot]

theorem finishJob (h : s₀.Keeps s) (j) : s₀.Keeps (s.finishJob j) := by
  unfold State.finishJob
  grind [endHostRead, endHost, traceWritten, askPfx, stage, replyOn, writeEntries, dropJob, appendOn, endKvx, setJob,
    copyOn, addFlag, endHostWrite, absorbOn, writeScratch, endJob]

theorem finishJobs (h : s₀.Keeps s) : s₀.Keeps (s.finishJobs) := by
  unfold State.finishJobs
  grind [finishJob, foldl]

theorem kvxAct (i n ops) {r} (e : Machine.kvxAct i n ops s = some r) (h : s₀.Keeps s) : s₀.Keeps r.1 := by
  generalize ha : Machine.kvxAct i n ops = act at e
  unfold Machine.kvxAct at ha
  split at ha <;> subst ha
  · exact fetchAct _ _ _ e h
  · exact absorbAct _ _ _ _ e h
  · exact absorbAct _ _ _ _ e h
  · exact smaxAct _ _ _ e h
  · exact mergeAct _ _ _ e h
  · exact combAct _ _ _ e h
  · exact finAct _ _ _ e h
  · exact appendAct _ _ _ e h
  · exact linkAct _ _ _ e h
  · exact publishAct _ _ _ e h

theorem runKvx (k) : ∀ {s : State} (_ : s₀.Keeps s) (i), s₀.Keeps (State.runKvx k s i) := by
  induction k with
  | zero => exact fun h _ => h
  | succ k ih =>
    intro s h i
    unfold State.runKvx
    split
    · exact h
    · refine ite h ?_
      split <;> rename_i hs <;>
        have hk := startEntry_of hs h (fun _ _ h e => kvStarts _ _ e h fun _ _ h e => kvxAct _ _ _ e h)
      · exact hk
      · exact ih hk _

theorem kvGo (h : s₀.Keeps s) (i) : s₀.Keeps (s.kvGo i) := by
  unfold State.kvGo
  exact (runKvx _ (h.foldl (fun s h _ => by grind [finishJob]) _) _).kvFeed _

theorem armEnded (h : s₀.Keeps s) (x st data) : s₀.Keeps (s.armEnded x st data) := by
  unfold State.armEnded
  grind [failWait, seeFlag, setCore]

theorem partDone (h : s₀.Keeps s) (x st data) : s₀.Keeps (s.partDone x st data) := by
  unfold State.partDone
  grind [tabAnswer, setJob, armEnded, finishJob, deliver]

theorem ripen (k) : ∀ {s : State} (_ : s₀.Keeps s), s₀.Keeps (State.ripen k s) := by
  induction k with
  | zero => exact fun h => h
  | succ k ih =>
    intro s h
    unfold State.ripen
    split
    · exact h
    · split
      · exact h
      · exact ih ((h.upd ..).partDone _ _ _)

theorem answered (h : s₀.Keeps s) (x st data) : s₀.Keeps (s.answered x st data) := by
  unfold State.answered
  have hs : ∀ k sent, s₀.Keeps (State.kickWaiting
      (State.ripen k { s.quarantineTag x.tower x.pkt.src x.pkt.tag with sent := sent })) :=
    fun k _ => kickWaiting (ripen k ((h.quarantineTag _ _ _).upd ..))
  exact ite (((hs _ _).runEngines _).kvGo _) (hs _ _)

theorem goOn (h : s₀.Keeps s) : s₀.Keeps s.goOn := by
  unfold State.goOn
  exact ((((ripen _ h).finishJobs.pfxGo).foldl (fun _ h _ => h.kvGo _) _).foldl (fun _ h _ => h.wake _) _).runQueues

end State.Keeps
end Sys2Proof.Machine
end

section
/-!
PROOF. What the operations of Machine/Banks keep.
-/
namespace Sys2Proof.Machine
namespace State.Keeps
variable {s₀ s t : State}

theorem bkuEnded (h : s₀.Keeps s) (j c st result) : s₀.Keeps (s.bkuEnded j c st result) := by
  unfold State.bkuEnded
  grind [setJob, endJob]

theorem bkuNote (h : s₀.Keeps s) (v itag opc st result) : s₀.Keeps (s.bkuNote v itag opc st result) := by
  unfold State.bkuNote
  grind [incSat, incWrap, bkuLast]

theorem bkuDone (h : s₀.Keeps s) (v job itag opc st kvx result) :
    s₀.Keeps (s.bkuDone v job itag opc st kvx result) := by
  unfold State.bkuDone
  grind [bkuEnded, bkuNote]

theorem bkuRetired (h : s₀.Keeps s) (v c p) : s₀.Keeps (s.bkuRetired v c p) := by
  unfold State.bkuRetired
  grind [bkuEnded, bkuLast]

theorem bkuGrant (h : s₀.Keeps s) (i k c) : s₀.Keeps (s.bkuGrant i k c) := by
  unfold State.bkuGrant
  have hs := (((h.settleRates i).foldl (fun s h u => h.setVault i ((s.vault i).refreshBank u (s.duesOf i u)))
    c.units).foldl
    (fun _ h u => h.drainBank i u) c.units).bkuWork i c
  exact ((((ite ((hs _).setF _ _) (hs _)).incWrap _ _).setVault _ _)).setF _ _

theorem execBankUnitGrant (i) {t : State} (e : Machine.execBankUnitGrant i s = .next t) (h : s₀.Keeps s) : s₀.Keeps
    t := by
  unfold Machine.execBankUnitGrant at e
  split at e
  · exact of_next e h
  · split at e
    · exact of_next e ((((h.setVault _ _).bkuRetired _ _ _).kvGo _).bkuShow _)
    · exact of_ite e (fun e => of_next e h) fun e => of_next e (((h.bkuGrant _ _ _).kvGo _).bkuShow _)

theorem writeBank (h : s₀.Keeps s) (v p data) : s₀.Keeps (s.writeBank v p data) := by
  unfold State.writeBank
  grind [notify, setVault, foldl, foldl₁]

theorem loadLatch (h : s₀.Keeps s) (v slot n units data) : s₀.Keeps (s.loadLatch v slot n units data) := by
  unfold State.loadLatch
  grind [bump, setVault, foldl₁]

theorem bkuResult (h : s₀.Keeps s) (i : Nat) (c : BkuCmd) : s₀.Keeps
    (if c.result.isEmpty then s.bkuDone i c.job c.itag (bkuOpcode c.op) c.status c.kvx []
      else if (State.job? s c.job).isNone then s
      else
        let x := s.vault i
        s.setVault i { x with results := x.results ++
          [{ site := i, dst := bkuDst c.op, data := c.result, job := c.job, itag := c.itag, op := bkuOpcode c.op
             status := c.status, kvx := c.kvx }] }) :=
  ite (h.bkuDone ..) (ite h (h.setVault _ _))

theorem execBankUnitCommandEnd (i k) {t : State} (e : Machine.execBankUnitCommandEnd i k s = .next t) (h : s₀.Keeps s) :
    s₀.Keeps t := by
  unfold Machine.execBankUnitCommandEnd at e
  dsimp only at e
  split at e
  · exact of_next e h
  · rename_i c _
    refine of_ite e (fun e => of_next e h) fun e => of_next e ((kvGo (serveWaiting (bkuResult ?_ i c) _) _).bkuShow _)
    have hs := fun x => (((h.setVault i x).foldl (fun s h w => h.writeBank i w.1 w.2) c.writes).incWrap
      (Reg.bkuCntBusy_unit_cycles i) (c.uncounted * c.units.length))
    split
    · exact (hs _).loadLatch ..
    · exact hs _

theorem execBankUnitResultDrain (i) {t : State} (e : execBankUnitResultDrain i s = .next t) (h : s₀.Keeps s) :
    s₀.Keeps t := by
  unfold Machine.execBankUnitResultDrain at e
  grind [setVault, bkuShow, bkuDone, Machine.next, kvGo, writeScratch]

theorem execBankUnitWindowStart {t : State} (e : execBankUnitWindowStart s = .next t) (h : s₀.Keeps s) :
    s₀.Keeps t := by
  unfold Machine.execBankUnitWindowStart at e
  grind [setF, Machine.next, upd, foldl, foldl₁]

theorem vaultCycle (h : s₀.Keeps s) (v) : s₀.Keeps (s.vaultCycle v) := by
  unfold State.vaultCycle
  grind [incWrap, setVault]

theorem unitTicks (h : s₀.Keeps s) : s₀.Keeps (s.unitTicks) := by
  unfold State.unitTicks
  grind [vaultCycle, foldl]

end State.Keeps
end Sys2Proof.Machine
end

section
/-!
PROOF. What the operations of Machine/StageQ keep.
-/
namespace Sys2Proof.Machine
namespace State.Keeps
variable {s₀ s t : State}

theorem refusedReq (h : s₀.Keeps s) (x st) : s₀.Keeps (s.refusedReq x st) := by
  unfold State.refusedReq
  grind [endSender, askAgain, runEngines]

theorem sendTok (h : s₀.Keeps s) (x op aux data) : s₀.Keeps (s.sendTok x op aux data) := by
  unfold State.sendTok
  grind [launch]

theorem askQueue (h : s₀.Keeps s) (x) : s₀.Keeps (s.askQueue x) := by
  unfold State.askQueue
  grind [endSender, refusedReq, sendTok, useSeq, setSender, recordReq, runEngines]

theorem execAdmissionRequest (i fmv) {t : State} (e : execAdmissionRequest i fmv s = .next t) (h : s₀.Keeps s) :
    s₀.Keeps t := by
  unfold Machine.execAdmissionRequest at e
  grind [askQueue, Machine.next]

theorem execAdmissionRetry (i fmv) {t : State} (e : execAdmissionRetry i fmv s = .next t) (h : s₀.Keeps s) :
    s₀.Keeps t := by
  unfold Machine.execAdmissionRetry at e
  grind [askQueue, Machine.next]

theorem execBundleAdmit (i) {t : State} (e : execBundleAdmit i s = .next t) (h : s₀.Keeps s) : s₀.Keeps t := by
  unfold Machine.execBundleAdmit at e
  grind [admitReq, Machine.next, runEngines]

theorem deliverWord (h : s₀.Keeps s) (x parityOk) : s₀.Keeps (s.deliverWord x parityOk) := by
  unfold State.deliverWord
  grind [endSender, putWords, setSender, runEngines]

theorem execBundleWord (i fmv parityOk) {t : State} (e : execBundleWord i fmv parityOk s = .next t) (h : s₀.Keeps s) :
    s₀.Keeps t := by
  unfold Machine.execBundleWord at e
  grind [deliverWord, Machine.next]

theorem execBundleAvailable (i) {t : State} (e : Machine.execBundleAvailable i s = .next t) (h : s₀.Keeps s) :
    s₀.Keeps t := by
  unfold Machine.execBundleAvailable at e
  exact of_ite e (fun e => of_next e (runSq _ h _)) fun e => of_next e h

theorem execSqStall (i) {t : State} (e : execSqStall i s = .next t) (h : s₀.Keeps s) : s₀.Keeps t := by
  unfold Machine.execSqStall at e
  grind [setQueue, coreEvent, Machine.next]

theorem stallTicks (h : s₀.Keeps s) : s₀.Keeps (s.stallTicks) := by
  unfold State.stallTicks
  grind [incWrap, foldl]

theorem bundleGone (h : s₀.Keeps s) (q b) : s₀.Keeps (s.bundleGone q b) := by
  unfold State.bundleGone
  grind [loseBundle, endSender, runEngines]

theorem execBundleLost (i src engine seq) {t : State} (e : execBundleLost i src engine seq s = .next t)
    (h : s₀.Keeps s) :
    s₀.Keeps t := by
  unfold Machine.execBundleLost at e
  grind [Machine.next, bundleGone]

theorem execBundleWordTimeout (i k) {t : State} (e : execBundleWordTimeout i k s = .next t) (h : s₀.Keeps s) :
    s₀.Keeps t := by
  unfold Machine.execBundleWordTimeout at e
  grind [Machine.next, bundleGone]

theorem execBundleMemoryExpire (i) {t : State} (e : execBundleMemoryExpire i s = .next t) (h : s₀.Keeps s) :
    s₀.Keeps t := by
  unfold Machine.execBundleMemoryExpire at e
  grind [setQueue, Machine.next]

theorem execBundleSeqFree (i fmv) {t : State} (e : execBundleSeqFree i fmv s = .next t) (h : s₀.Keeps s) :
    s₀.Keeps t := by
  unfold Machine.execBundleSeqFree at e
  grind [setSeqCtr, Machine.next]

theorem closeQueue (h : s₀.Keeps s) (q) : s₀.Keeps (s.closeQueue q) := by
  unfold State.closeQueue
  grind [setF, emptyQueue]

theorem openQueue (h : s₀.Keeps s) (q) : s₀.Keeps (s.openQueue q) := ite (h.setF _ _) ((h.setF _ _).setF _ _)

theorem execSqOpenWrite (i b) {t : State} (e : execSqOpenWrite i b s = .next t) (h : s₀.Keeps s) : s₀.Keeps t := by
  unfold Machine.execSqOpenWrite at e
  grind [openQueue, closeQueue, runQueues, Machine.next]

theorem execPopTimeout (i) {t : State} (e : execPopTimeout i s = .next t) (h : s₀.Keeps s) : s₀.Keeps t := by
  unfold Machine.execPopTimeout at e
  grind [dropSq, endEntry, queueShow, Machine.next]

end State.Keeps
end Sys2Proof.Machine
end

section
/-!
PROOF. What the operations of Machine/CoreCtl keep.
-/
namespace Sys2Proof.Machine
namespace State.Keeps
variable {s₀ s t : State}

theorem startStream (h : s₀.Keeps s) (i) : s₀.Keeps (s.startStream i) := by
  unfold State.startStream
  grind [setVault, setF, setCore, setPc, foldl, foldl₁]

theorem execCoreCtrlStart (i) {t : State} (e : execCoreCtrlStart i s = .next t) (h : s₀.Keeps s) : s₀.Keeps t := by
  unfold Machine.execCoreCtrlStart at e
  grind [setF, Machine.next, startStream]

theorem pauseCore (h : s₀.Keeps s) (i) : s₀.Keeps (s.pauseCore i) := by
  unfold State.pauseCore
  grind [setF, withdraw, endStep]

theorem execCoreCtrlStop (i) {t : State} (e : execCoreCtrlStop i s = .next t) (h : s₀.Keeps s) : s₀.Keeps t := by
  unfold Machine.execCoreCtrlStop at e
  grind [pauseCore, Machine.next]

theorem resumeCore (h : s₀.Keeps s) (i) : s₀.Keeps (s.resumeCore i) := by
  unfold State.resumeCore
  grind [checkLine, setF, setCore]

theorem execCoreCtrlResume (i) {t : State} (e : execCoreCtrlResume i s = .next t) (h : s₀.Keeps s) : s₀.Keeps t := by
  unfold Machine.execCoreCtrlResume at e
  grind [resumeCore, Machine.next]

theorem putLine (h : s₀.Keeps s) (i l victim data) : s₀.Keeps (s.putLine i l victim data) := by
  unfold State.putLine
  grind [checkLine, setCore]

theorem execIcacheLineFill (i ahead parityFail victim) {t : State} (e : execIcacheLineFill i ahead parityFail victim s
    = .next t) (h : s₀.Keeps s) :
    s₀.Keeps t := by
  unfold Machine.execIcacheLineFill at e
  grind [stopCore, incSat, usedInject, readVault, record, putLine, arbitrate, waitFor, waitOver, Machine.next]

theorem execBreakpointStop (i) {t : State} (e : execBreakpointStop i s = .next t) (h : s₀.Keeps s) : s₀.Keeps t := by
  unfold Machine.execBreakpointStop at e
  grind [setF, endStep, Machine.next]

theorem execStreamOverrun (i) {t : State} (e : execStreamOverrun i s = .next t) (h : s₀.Keeps s) : s₀.Keeps t := by
  unfold Machine.execStreamOverrun at e
  grind [stopCore, Machine.next]

theorem execChannelFaultStop (i) {t : State} (e : execChannelFaultStop i s = .next t) (h : s₀.Keeps s) :
    s₀.Keeps t := by
  unfold Machine.execChannelFaultStop at e
  grind [stopCore, Machine.next]

theorem execWaitTimeout (i) {t : State} (e : execWaitTimeout i s = .next t) (h : s₀.Keeps s) : s₀.Keeps t := by
  unfold Machine.execWaitTimeout at e
  grind [failWait, Machine.next]

theorem execWaitRearm (i) {t : State} (e : execWaitRearm i s = .next t) (h : s₀.Keeps s) : s₀.Keeps t := by
  unfold Machine.execWaitRearm at e
  grind [incSat, arm, waitFor, waitOver, Machine.next]

theorem takeNotice (h : s₀.Keeps s) (i x v) : s₀.Keeps (s.takeNotice i x v) := by
  unfold State.takeNotice
  grind [incSat, seeFlag]

theorem cancelStray (h : s₀.Keeps s) (i k) : s₀.Keeps (s.cancelStray i k) := by
  unfold State.cancelStray
  grind [launch]

theorem noticeHere (h : s₀.Keeps s) (i v) : s₀.Keeps (s.noticeHere i v) := by
  unfold State.noticeHere
  grind [setVault, takeNotice]

theorem noticePkt (h : s₀.Keeps s) (t1 i k) : s₀.Keeps (s.noticePkt t1 i k) := by
  unfold State.noticePkt
  grind [cancelStray, discard, takeNotice]

end State.Keeps
end Sys2Proof.Machine
end

section
/-!
PROOF. What the operations of Machine/Rings keep.
-/
namespace Sys2Proof.Machine
namespace State.Keeps
variable {s₀ s t : State}

theorem showFull (h : s₀.Keeps s) (r) : s₀.Keeps (s.showFull r) := by
  unfold State.showFull
  grind [setF]

theorem enableRing (h : s₀.Keeps s) (r) : s₀.Keeps (s.enableRing r) := by
  unfold State.enableRing
  grind [setF, setRing, foldl, foldl₁]

theorem drainRing (h : s₀.Keeps s) (r) : s₀.Keeps (s.drainRing r) := by
  unfold State.drainRing
  grind [setF]

theorem showHeld (h : s₀.Keeps s) (e1) : s₀.Keeps (s.showHeld e1) := by
  unfold State.showHeld
  grind [setF]

theorem enableEq (h : s₀.Keeps s) (e1) : s₀.Keeps (s.enableEq e1) := by
  unfold State.enableEq
  grind [setEvRing, setF, showHeld]

theorem disableEq (h : s₀.Keeps s) (e1) : s₀.Keeps (s.disableEq e1) := by
  unfold State.disableEq
  grind [incSat, setEvRing, setF, showHeld]

theorem badDoorbell (h : s₀.Keeps s) (off) : s₀.Keeps (s.badDoorbell off) := by
  unfold State.badDoorbell
  grind [hifFirst]

theorem execSqTailDoorbell (r v) {t : State} (e : execSqTailDoorbell r v s = .next t) (h : s₀.Keeps s) :
    s₀.Keeps t := by
  unfold Machine.execSqTailDoorbell at e
  grind [setF, badDoorbell, Machine.next]

theorem execCqHeadDoorbell (r v) {t : State} (e : execCqHeadDoorbell r v s = .next t) (h : s₀.Keeps s) :
    s₀.Keeps t := by
  unfold Machine.execCqHeadDoorbell at e
  grind [showFull, setF, badDoorbell, setRing, Machine.next]

theorem execEqHeadDoorbell (e1 v) {t : State} (e : execEqHeadDoorbell e1 v s = .next t) (h : s₀.Keeps s) :
    s₀.Keeps t := by
  unfold Machine.execEqHeadDoorbell at e
  grind [setEvRing, badDoorbell, Machine.next]

theorem execCommandTake (entry) {t : State} (e : execCommandTake entry s = .next t) (h : s₀.Keeps s) : s₀.Keeps t := by
  unfold Machine.execCommandTake at e
  grind [setF, Machine.next, emit, upd]

theorem command (h : s₀.Keeps s) (k op) {f : State → Started → State} (hf : ∀ s c, s₀.Keeps s → s₀.Keeps (f s c)) :
    s₀.Keeps (s.command k op f) := by
  unfold State.command
  split
  · exact h
  · refine ite ?_ h
    split <;> rename_i hl <;> exact lookUp_of hl h (fun s r h e => by cases e; exact hf _ _ h)

theorem done (h : s₀.Keeps s) (c st res) : s₀.Keeps (s.done c st res) := by
  unfold State.done
  grind [endCommand]

theorem begin_ (h : s₀.Keeps s) (c cores) : s₀.Keeps (s.begin_ c cores) := by
  unfold State.begin_
  grind [upd]

theorem execCompletionPost (r) {t : State} (e : execCompletionPost r s = .next t) (h : s₀.Keeps s) : s₀.Keeps t := by
  unfold Machine.execCompletionPost at e
  grind [showFull, setF, setRing, Machine.next, emit, upd]

theorem execRingDrained (r) {t : State} (e : execRingDrained r s = .next t) (h : s₀.Keeps s) : s₀.Keeps t := by
  unfold Machine.execRingDrained at e
  grind [setF, Machine.next]

theorem execRingEnableWrite (event r b) {t : State} (e : execRingEnableWrite event r b s = .next t) (h : s₀.Keeps s) :
    s₀.Keeps t := by
  unfold Machine.execRingEnableWrite at e
  grind [enableRing, drainRing, disableEq, Machine.next, enableEq]

theorem postEvent (h : s₀.Keeps s) (v) : s₀.Keeps (s.postEvent v) := by
  unfold State.postEvent
  grind [setEvRing, setF, emit]

theorem postOwed (h : s₀.Keeps s) (e1) : s₀.Keeps (s.postOwed e1) := by
  unfold State.postOwed
  grind [setEvRing, postEvent, showHeld, emit]

theorem dropEvent (h : s₀.Keeps s) (e1 full) : s₀.Keeps (s.dropEvent e1 full) := by
  unfold State.dropEvent
  grind [incSat, setEvRing]

theorem execEventPost {t : State} (e : execEventPost s = .next t) (h : s₀.Keeps s) : s₀.Keeps t := by
  unfold Machine.execEventPost at e
  grind [setEvRing, postOwed, postEvent, dropEvent, Machine.next, showHeld, upd]

theorem execCompletionWriteFail (event r) {t : State} (e : Machine.execCompletionWriteFail event r s = .next t)
    (h : s₀.Keeps s) : s₀.Keeps t := by
  unfold Machine.execCompletionWriteFail at e
  refine of_ite e (fun e => of_next e h) fun e => of_ite e (fun e => ?_) fun e => ?_
  · refine of_ite e (fun e => of_next e h) fun e => of_next e (((disableEq ?_ _).record _).emit _)
    have hs : ∀ (b : Bool) events, s₀.Keeps (if b then { s with events := events } else s) := fun _ _ => ite
      (h.upd ..) h
    exact ite ((hs _ _).incSat _ _) (hs _ _)
  · split at e
    · exact of_next e h
    · exact of_ite e (fun e => of_next e h) fun e => of_next e (((((h.upd ..).setRing _ _).setF _ _).record _).emit _)

end State.Keeps
end Sys2Proof.Machine
end

section
/-!
PROOF. What the operations of Machine/Channels keep.
-/
namespace Sys2Proof.Machine
namespace State.Keeps
variable {s₀ s t : State}

theorem execCmdNop (k) {t : State} (e : Machine.execCmdNop k s = .next t) (h : s₀.Keeps s) : s₀.Keeps t :=
  of_next e (h.command _ _ fun _ _ h => h.done ..)

theorem execUndefinedCommand (k) {t : State} (e : execUndefinedCommand k s = .next t) (h : s₀.Keeps s) :
    s₀.Keeps t := by
  unfold Machine.execUndefinedCommand at e
  grind [done, Machine.next]

theorem execIdentify (k) {t : State} (e : execIdentify k s = .next t) (h : s₀.Keeps s) : s₀.Keeps t := by
  refine of_next e (h.command _ _ fun s c h => ?_)
  dsimp only
  repeat' split
  all_goals grind [hostRecord, done, emit]

theorem execRingCreate (k) {t : State} (e : execRingCreate k s = .next t) (h : s₀.Keeps s) : s₀.Keeps t := by
  refine of_next e (h.command _ _ fun s c h => ?_)
  dsimp only
  repeat' split
  all_goals grind [setF, enableRing, done]

theorem execRingDestroy (k) {t : State} (e : execRingDestroy k s = .next t) (h : s₀.Keeps s) : s₀.Keeps t := by
  refine of_next e (h.command _ _ fun s c h => ?_)
  dsimp only
  repeat' split
  all_goals grind [drainRing, done]

theorem execEqCreate (k) {t : State} (e : execEqCreate k s = .next t) (h : s₀.Keeps s) : s₀.Keeps t := by
  refine of_next e (h.command _ _ fun s c h => ?_)
  dsimp only
  repeat' split
  all_goals grind [setF, done, enableEq]

theorem execEqDestroy (k) {t : State} (e : execEqDestroy k s = .next t) (h : s₀.Keeps s) : s₀.Keeps t := by
  refine of_next e (h.command _ _ fun s c h => ?_)
  dsimp only
  repeat' split
  all_goals grind [disableEq, done]

theorem newChannel (h : s₀.Keeps s) (c sites) : s₀.Keeps (s.newChannel c sites) := by
  unfold State.newChannel
  grind [setChan]

theorem holdVaults (h : s₀.Keeps s) (sites) : s₀.Keeps (s.holdVaults sites) := by
  unfold State.holdVaults
  grind [setF, foldl]

theorem mapVaults (h : s₀.Keeps s) (fb sites) : s₀.Keeps (s.mapVaults fb sites) := by
  unfold State.mapVaults
  grind [setF, openPort, foldl, foldl₁]

theorem createOn (h : s₀.Keeps s) (c sites ch) : s₀.Keeps (s.createOn c sites ch) := by
  unfold State.createOn
  grind [setF, openQueue, mapVaults, done, foldl, foldl₁]

theorem execChanCreate (k list) {t : State} (e : execChanCreate k list s = .next t) (h : s₀.Keeps s) : s₀.Keeps t := by
  refine of_next e (h.command _ _ fun s c h => ?_)
  dsimp only
  repeat' split
  all_goals grind [holdVaults, newChannel, hostRead, createOn, done, begin_]

theorem abortCore (h : s₀.Keeps s) (i) : s₀.Keeps (s.abortCore i) := by
  unfold State.abortCore
  grind [setF, wake, withdraw, endStep]

theorem settleFaulted (h : s₀.Keeps s) (i) : s₀.Keeps (s.settleFaulted i) := by
  unfold State.settleFaulted
  grind [setF]

theorem freeChannel (h : s₀.Keeps s) (ch) : s₀.Keeps (s.freeChannel ch) := by
  unfold State.freeChannel
  grind [dropWatches, setF, setChan, closeQueue, showHeld, upd, foldl, foldl₁]

theorem execChanDestroy (k) {t : State} (e : execChanDestroy k s = .next t) (h : s₀.Keeps s) : s₀.Keeps t := by
  refine of_next e (h.command _ _ fun s c h => ?_)
  dsimp only
  repeat' split
  all_goals grind [settleFaulted, abortCore, setChan, freeChannel, runQueues, done, begin_, foldl, foldl₁]

theorem execWindowSet (k) {t : State} (e : execWindowSet k s = .next t) (h : s₀.Keeps s) : s₀.Keeps t := by
  refine of_next e (h.command _ _ fun s c h => ?_)
  dsimp only
  repeat' split
  all_goals grind [setChan, skyRead, done]

theorem namedCores (h : s₀.Keeps s) (c list) : s₀.Keeps (s.namedCores c list).1 := by
  unfold State.namedCores
  grind [hostRead]

theorem launchStream (h : s₀.Keeps s) (i base len) : s₀.Keeps (s.launchStream i base len) := by
  unfold State.launchStream
  grind [setF, startStream]

theorem execStreamStart (k list) {t : State} (e : Machine.execStreamStart k list s = .next t) (h : s₀.Keeps s) :
    s₀.Keeps t := by
  refine of_next e (h.command _ _ fun s c h => ite (h.done ..) ?_)
  have hn := h.namedCores c.cmd list
  dsimp only
  split
  · exact hn.done ..
  · exact ite (hn.done ..) (ite (hn.done ..)
      ((hn.foldl (fun _ h _ => ite (h.resumeCore _) (h.launchStream _ _ _)) _).done ..))

theorem execStreamStop (k list) {t : State} (e : execStreamStop k list s = .next t) (h : s₀.Keeps s) : s₀.Keeps t := by
  refine of_next e (h.command _ _ fun s c h => ?_)
  dsimp only
  repeat' split
  all_goals grind [pauseCore, abortCore, namedCores, done, begin_, foldl, foldl₁]

end State.Keeps
end Sys2Proof.Machine
end

section
/-!
PROOF. What the operations of Machine/HostData keep.
-/
namespace Sys2Proof.Machine
namespace State.Keeps
variable {s₀ s t : State}

theorem hostRange (h : s₀.Keeps s) (c virt a n write) : s₀.Keeps (s.hostRange c virt a n write).s := by
  unfold State.hostRange
  grind [skyRange, xlat_fail, virtRange]

theorem hostEnd (h : s₀.Keeps s) (c id e1 st sent data) : s₀.Keeps (s.hostEnd c id e1 st sent data) := by
  unfold State.hostEnd
  grind [endHost, addJob]

theorem execLoad (k sgl data) {t : State} (e : execLoad k sgl data s = .next t) (h : s₀.Keeps s) : s₀.Keeps t := by
  refine of_next e (h.command _ _ fun s c h => ?_)
  dsimp only
  repeat' split
  all_goals grind [writePieces, hostRecord, sendWrites, hostRead, hostRange, hostEnd, done]

theorem execStore (k sgl writeOk) {t : State} (e : execStore k sgl writeOk s = .next t) (h : s₀.Keeps s) :
    s₀.Keeps t := by
  refine of_next e (h.command _ _ fun s c h => ?_)
  dsimp only
  repeat' split
  all_goals grind [sendReads, hostRange, readPieces, hostEnd, done, foldl, foldl₁]

theorem execFlagWrite (k) {t : State} (e : execFlagWrite k s = .next t) (h : s₀.Keeps s) : s₀.Keeps t := by
  refine of_next e (h.command _ _ fun s c h => ?_)
  dsimp only
  repeat' split
  all_goals grind [hostRange, request, writeAs, hostEnd, done, atomicAs]

theorem seqWalk (h : s₀.Keeps s) (w streams first pages) : s₀.Keeps (s.seqWalk w streams first pages).s := by
  unfold State.seqWalk
  exact ite_of SeqWalk.s h (foldl_of SeqWalk.s h (fun q j p h e => by grind [walk]) _)

theorem forkDesc (h : s₀.Keeps s) (streams ents) : s₀.Keeps (s.forkDesc streams ents).1 := by
  unfold State.forkDesc
  grind [freeBytes]

theorem skyWrite_forkPage (x : SkyWrite) (hx : s₀.Keeps x.s) (job streams domain desc way ents) :
    s₀.Keeps (SkyWrite.forkPage x job streams domain desc way ents).s := by
  unfold Machine.SkyWrite.forkPage
  dsimp only
  have hs := hx.foldl (f := fun s (e : SeqEnt) =>
    if e.shared then
      let k := pteEntry e.e2
      let v := s.pfx.entry k
      { s with pfx := s.pfx.setEntry k (setBits v 215 192 (peRefs v + 1)) }
    else s) (fun s h e => ite (h.upd ..) h) ents
  split
  · exact hs
  · exact skyWrite_and (((hs.forkDesc _ _).bump _).upd ..) (fun s y h e => e ▸ h.skyWrite ..)

theorem skyWrite_forkEnts (x : SkyWrite) (hx : s₀.Keeps x.s) (job way src dst) :
    s₀.Keeps (SkyWrite.forkEnts x job way src dst).s := by
  unfold Machine.SkyWrite.forkEnts
  have hw : ∀ {x : SkyWrite} (_ : s₀.Keeps x.s) a v, s₀.Keeps (x.and fun s => s.skyWrite hostSite job a v true).s :=
    fun h a v => skyWrite_and h (fun s y h e => e ▸ h.skyWrite ..)
  refine foldl_of SkyWrite.s hx (fun x e y h ey => ?_) _
  subst ey
  exact ite_of SkyWrite.s h (ite_of SkyWrite.s (hw (hw h _ _) _ _) (hw h _ _))

theorem forkTurn (h : s₀.Keeps s) (key) : s₀.Keeps (s.forkTurn key).state := by
  unfold State.forkTurn
  dsimp only
  split
  · exact h.pfxTidy
  · exact ite_of Tried.state (h.pfxTidy.upd ..) (ite_of Tried.state h.pfxTidy (h.pfxTidy.askPfx _ _))

theorem execSeqFork (k) {t : State} (e : Machine.execSeqFork k s = .next t) (h : s₀.Keeps s) : s₀.Keeps t := by
  refine of_next e (h.command _ _ fun s0 c h => ?_)
  have hf := h.forkTurn (2 ^ 16 * c.ring + c.head)
  dsimp only
  split <;> rename_i hs <;> rw [hs] at hf
  · exact hf
  replace hf : s₀.Keeps _ := hf
  refine ite (hf.done ..) ?_
  have ha := fun w n => hf.seqWalk w n 0
  refine ite ((ha ..).done ..) ?_
  have hb := fun w n m v k => (ha w n m).seqWalk v k 0
  refine ite ((hb ..).done ..) (ite ((hb ..).done ..) (ite h ?_))
  split
  · exact (hb ..).done ..
  refine ite ((hb ..).done ..) ?_
  generalize hx : List.foldl _ _ _ = x
  have hk : s₀.Keeps x.1.s := hx ▸ foldl_of (fun x : SkyWrite × List Nat × Nat => x.1.s)
    (b := (⟨_, stOk, 0, true⟩, _, 0))
    (hb ..) (fun x p y h e => e ▸ ite_of (fun x : SkyWrite × List Nat × Nat => x.1.s)
      (skyWrite_forkEnts _ (skyWrite_forkPage _ h ..) ..) (skyWrite_forkEnts _ (skyWrite_forkPage _ h ..) ..)) _
  exact ite h (hk.hostEnd ..)

theorem execSeqRelease (k) {t : State} (e : Machine.execSeqRelease k s = .next t) (h : s₀.Keeps s) : s₀.Keeps t := by
  refine of_next e (h.command _ _ fun s c h => ite (h.done ..) ?_)
  have ha := fun w n m k => h.seqWalk w n m k
  refine ite ((ha ..).done ..) ?_
  have hp : ∀ (b : Bool) w n m k p, s₀.Keeps (if b then (⟨(s.seqWalk w n m k).s, [], stOk, true⟩, .ok 0)
      else (s.seqWalk w n m k).s.poolCap hostSite p : SkyRead × Except Nat Nat).1.s :=
    fun b w n m k p => ite_of (fun x : SkyRead × Except Nat Nat => x.1.s) (ha ..) ((ha ..).poolCap _ _)
  dsimp only
  split
  · exact ite h ((hp ..).done ..)
  · refine ite h (ite ((hp ..).done ..) ?_)
    have hw : ∀ {x : SkyWrite} (_ : s₀.Keeps x.s) id a v,
        s₀.Keeps (x.and fun s => s.skyWrite hostSite id a v true).s :=
      fun h _ _ _ => skyWrite_and h (fun s y h e => e ▸ h.skyWrite ..)
    generalize hx : List.foldl _ _ (List.zip _ _) = x
    have hk : s₀.Keeps x.s := hx ▸ foldl_of SkyWrite.s (b := ⟨_, stOk, 0, true⟩) (hp ..)
      (fun x f y h e => e ▸ hw h ..) _
    generalize hy : List.foldl _ _ (List.filter _ _) = y
    have hl : s₀.Keeps y.s := hy ▸ foldl_of SkyWrite.s (ite_of SkyWrite.s hk (hw hk ..))
      (fun x f y h e => e ▸ hw h ..) _
    exact ite h ((hl.releaseAll _ _).hostEnd ..)

end State.Keeps
end Sys2Proof.Machine
end

section
/-!
PROOF. What the operations of Machine/Fabric keep.
-/
namespace Sys2Proof.Machine
namespace State.Keeps
variable {s₀ s t : State}

theorem refusePkt (h : s₀.Keeps s) (t1 k st) : s₀.Keeps (s.refusePkt t1 k st) := by
  unfold State.refusePkt
  grind [sendSpray]

theorem setRefusals (h : s₀.Keeps s) (t1 xs) : s₀.Keeps (s.setRefusals t1 xs) := by
  unfold State.setRefusals
  grind [setTower, setF]

theorem admission (h : s₀.Keeps s) (k q gentle) {f : State → State} (hf : ∀ s, s₀.Keeps s → s₀.Keeps (f s)) :
    s₀.Keeps (s.admission k q gentle f) := by
  unfold State.admission
  refine ite ?_ (ite (h.refusePkt ..) (ite ((h.setF _ _).refusePkt ..) (hf _ (ite (h.setRefusals _ _) h))))
  split
  · exact h.answer ..
  · exact (h.setRefusals _ _).refusePkt ..

theorem vaultPkt (h : s₀.Keeps s) (t k q r) : s₀.Keeps (s.vaultPkt t k q r) :=
  h.admission _ _ _ fun _ h => h.arrive ..

theorem readPkt (h : s₀.Keeps s) (t1 q k) : s₀.Keeps (s.readPkt t1 q k) := by
  unfold State.readPkt
  grind [vaultPkt]

theorem writePkt (h : s₀.Keeps s) (t1 q k) : s₀.Keeps (s.writePkt t1 q k) := by
  unfold State.writePkt
  grind [vaultPkt]

theorem atomicPkt (h : s₀.Keeps s) (t1 q k) : s₀.Keeps (s.atomicPkt t1 q k) := by
  unfold State.atomicPkt
  grind [vaultPkt]

theorem watchArmPkt (h : s₀.Keeps s) (t1 q k) : s₀.Keeps (s.watchArmPkt t1 q k) := by
  unfold State.watchArmPkt
  grind [vaultPkt]

theorem watchCancelPkt (h : s₀.Keeps s) (q k) : s₀.Keeps (s.watchCancelPkt q k) := by
  refine h.admission _ _ _ fun s h => ?_
  dsimp only
  grind [answer, setVault]

theorem answerFor (h : s₀.Keeps s) (t1 k ops) : s₀.Keeps (s.answerFor t1 k ops) := by
  unfold State.answerFor
  grind [answered, discard]

theorem readDataPkt (h : s₀.Keeps s) (t1 k) : s₀.Keeps (s.readDataPkt t1 k) := by
  unfold State.readDataPkt
  grind [answerFor]

theorem writeAckPkt (h : s₀.Keeps s) (t1 k) : s₀.Keeps (s.writeAckPkt t1 k) := by
  unfold State.writeAckPkt
  grind [answerFor]

theorem atomicOldPkt (h : s₀.Keeps s) (t1 k) : s₀.Keeps (s.atomicOldPkt t1 k) := by
  unfold State.atomicOldPkt
  grind [answerFor]

theorem watchAckPkt (h : s₀.Keeps s) (t1 k) : s₀.Keeps (s.watchAckPkt t1 k) := by
  unfold State.watchAckPkt
  grind [answerFor]

theorem dropTok (h : s₀.Keeps s) (x) : s₀.Keeps (s.dropTok x) := by
  unfold State.dropTok
  grind [quarantineTag, upd]

theorem endRemote (h : s₀.Keeps s) (y st) : s₀.Keeps (s.endRemote y st) := by
  unfold State.endRemote
  grind [endSender, kickWaiting, runEngines]

theorem setHold (h : s₀.Keeps s) (t1 node v) : s₀.Keeps (s.setHold t1 node v) := by
  unfold State.setHold
  grind [setF]

theorem rearm (h : s₀.Keeps s) (t1 test) : s₀.Keeps (s.rearm t1 test) := by
  unfold State.rearm
  grind [upd]

theorem rearmEntry (h : s₀.Keeps s) (t1 off) : s₀.Keeps (s.rearmEntry t1 off) := by
  unfold State.rearmEntry
  grind [rearm]

theorem holdRefused (h : s₀.Keeps s) (x why) : s₀.Keeps (s.holdRefused x why) := by
  unfold State.holdRefused
  grind [setHold, rearmEntry, upd]

theorem watchGone (h : s₀.Keeps s) (t1 k) : s₀.Keeps (s.watchGone t1 k) := by
  unfold State.watchGone
  grind [discard, setCore]

theorem refusedPkt (h : s₀.Keeps s) (t1 k) : s₀.Keeps (s.refusedPkt t1 k) := by
  unfold State.refusedPkt
  grind [dropTok, refusedReq, watchGone, answered, discard, endRemote, holdRefused]

theorem sendData (h : s₀.Keeps s) (y) : s₀.Keeps (s.sendData y) := by
  unfold State.sendData
  grind [sendTok, foldl]

theorem admittedPkt (h : s₀.Keeps s) (t1 k) : s₀.Keeps (s.admittedPkt t1 k) := by
  unfold State.admittedPkt
  grind [dropTok, sendData, discard, endRemote, setSender]

theorem acceptedPkt (h : s₀.Keeps s) (t1 k) : s₀.Keeps (s.acceptedPkt t1 k) := by
  unfold State.acceptedPkt
  grind [dropTok, answered, discard, endRemote]

theorem admitPkt (h : s₀.Keeps s) (q k) : s₀.Keeps (s.admitPkt q k) := by
  refine h.admission _ _ _ fun s h => ?_
  dsimp only
  repeat' split
  all_goals grind [answer, recordReq]

theorem dataPkt (h : s₀.Keeps s) (t1 q k bad) : s₀.Keeps (s.dataPkt t1 q k bad) := by
  refine h.admission _ _ _ fun s h => ?_
  dsimp only
  repeat' split
  all_goals grind [answer, putWords, discard]

theorem abandonAt (h : s₀.Keeps s) (q k) : s₀.Keeps (s.abandonAt q k).1 := by
  unfold State.abandonAt
  grind [loseBundle, setQueue, queueShow]

theorem abandonPkt (h : s₀.Keeps s) (q k) : s₀.Keeps (s.abandonPkt q k) := by
  refine h.admission _ _ _ fun s h => ?_
  dsimp only
  grind [abandonAt, answer]

theorem pingPkt (h : s₀.Keeps s) (q k) : s₀.Keeps (s.pingPkt q k) := by
  unfold State.pingPkt
  grind [sendSpray]

theorem pongPkt (h : s₀.Keeps s) (t1) : s₀.Keeps (s.pongPkt t1) := by
  unfold State.pongPkt
  grind [discard]

theorem statePkt (h : s₀.Keeps s) (k) : s₀.Keeps (s.statePkt k) := by
  unfold State.statePkt
  grind [emit]

theorem regDataPkt (h : s₀.Keeps s) (t1) : s₀.Keeps (s.regDataPkt t1) := by
  unfold State.regDataPkt
  grind [discard]

theorem declareLost (h : s₀.Keeps s) (x) : s₀.Keeps (s.declareLost x) := by
  unfold State.declareLost
  have hs := ite (c := (s.incSat (Reg.skyCntLost_declared x.tower) 1).on (Reg.skyLostFirst_valid x.tower) = true)
    (h.incSat (Reg.skyCntLost_declared x.tower) 1) ((h.incSat (Reg.skyCntLost_declared x.tower) 1).foldl
      (fun s h (f : Fld × Nat) => h.setF f.1 f.2)
      [(Reg.skyLostFirst_dst_vault x.tower, destVid x.pkt), (Reg.skyLostFirst_engine x.tower, x.pkt.srcEngine),
      (Reg.skyLostFirst_class x.tower, x.pkt.cls), (Reg.skyLostFirst_op x.tower, x.pkt.op),
      (Reg.skyLostFirst_port x.tower, x.port % 32), (Reg.skyLostFirst_valid x.tower, 1)])
  exact ite (hs.record _) (ite (hs.record _) hs)

theorem abandon (h : s₀.Keeps s) (y) : s₀.Keeps (s.abandon y) := by
  unfold State.abandon
  grind [dropTok, sendTok, setSender, foldl, foldl₁]

theorem execPacketLostTimeout (k) {t : State} (e : execPacketLostTimeout k s = .next t) (h : s₀.Keeps s) :
    s₀.Keeps t := by
  unfold Machine.execPacketLostTimeout at e
  grind [dropTok, answered, abandon, declareLost, endRemote, Machine.next]

theorem failSent (h : s₀.Keeps s) (x st) : s₀.Keeps (s.failSent x st) := by
  unfold State.failSent
  grind [dropTok, answered, endRemote]

theorem execRerouteTimeout (k) {t : State} (e : execRerouteTimeout k s = .next t) (h : s₀.Keeps s) : s₀.Keeps t := by
  unfold Machine.execRerouteTimeout at e
  grind [failSent, Machine.next]

theorem resend (h : s₀.Keeps s) (x) : s₀.Keeps (s.resend x) := by
  unfold State.resend
  grind [depart, upd]

theorem execRefusalResend (t1 node) {t : State} (e : execRefusalResend t1 node s = .next t) (h : s₀.Keeps s) :
    s₀.Keeps t := by
  unfold Machine.execRefusalResend at e
  grind [resend, Machine.next, setHold, kickWaiting, foldl, foldl₁]

theorem execRefusalGiveUp (t1 node) {t : State} (e : execRefusalGiveUp t1 node s = .next t) (h : s₀.Keeps s) :
    s₀.Keeps t := by
  unfold Machine.execRefusalGiveUp at e
  grind [failSent, Machine.next, setHold, kickWaiting, foldl, foldl₁]

theorem execFlowPortChange (k) {t : State} (e : execFlowPortChange k s = .next t) (h : s₀.Keeps s) : s₀.Keeps t := by
  unfold Machine.execFlowPortChange at e
  grind [pump, Machine.next, tryWaiting]

end State.Keeps
end Sys2Proof.Machine
end

section
/-!
PROOF. What the operations of Machine/FabLink keep.
-/
namespace Sys2Proof.Machine
namespace State.Keeps
variable {s₀ s t : State}

theorem unqueue (h : s₀.Keeps s) (t1 e1) : s₀.Keeps (s.unqueue t1 e1) := by
  unfold State.unqueue
  grind [bounce, sprayHere, freeRx, upd]

theorem emptyPort (h : s₀.Keeps s) (t1 p) : s₀.Keeps (s.emptyPort t1 p) := by
  unfold State.emptyPort
  grind [setPort, unqueue, foldl, foldl₁]

theorem setPortState (h : s₀.Keeps s) (t1 p st) : s₀.Keeps (s.setPortState t1 p st) := by
  unfold State.setPortState
  grind [setF, emptyPort, timeWaits, emit]

theorem stopPort (h : s₀.Keeps s) (t1 p st) : s₀.Keeps (s.stopPort t1 p st) := by
  unfold State.stopPort
  grind [setPort, setPortState]

theorem losePort (h : s₀.Keeps s) (t1 p st) : s₀.Keeps (s.losePort t1 p st) := by
  unfold State.losePort
  grind [stopPort, record, rearm, foldl, foldl₁]

theorem trainPort (h : s₀.Keeps s) (t1 p) : s₀.Keeps (s.trainPort t1 p) := by
  unfold State.trainPort
  grind [stopPort]

theorem learnPeer (h : s₀.Keeps s) (t1 p x) : s₀.Keeps (s.learnPeer t1 p x) := by
  unfold State.learnPeer
  grind [setF]

theorem portOpens (h : s₀.Keeps s) (t1) : s₀.Keeps (s.portOpens t1) := by
  unfold State.portOpens
  grind [kickSpray, kickWaiting]

theorem execPortTrained (t p peer) {u : State} (e : Machine.execPortTrained t p peer s = .next u) (h : s₀.Keeps s) :
    s₀.Keeps u := by
  unfold Machine.execPortTrained at e
  split at e
  · exact of_next e h
  split at e
  · exact of_next e (h.losePort ..)
  · exact of_next e ((((h.setPort ..).learnPeer ..).setPortState ..).portOpens _)

theorem execFabricRetrainEnd (t p peer) {u : State} (e : Machine.execFabricRetrainEnd t p peer s = .next u)
    (h : s₀.Keeps s) : s₀.Keeps u := by
  unfold Machine.execFabricRetrainEnd at e
  refine of_ite e (fun e => of_next e h) fun e => ?_
  split at e
  · exact of_next e ((ite h.usedInject h).losePort ..)
  · refine of_ite e (fun e => of_next e (h.usedInject.losePort ..)) fun e => ?_
    refine of_ite e (fun e => of_next e (h.losePort ..)) fun e => ?_
    exact of_next e (((((h.setPort ..).learnPeer ..).setPortState ..).replay ..).portOpens _)

theorem retrain (h : s₀.Keeps s) (t1 p) : s₀.Keeps (s.retrain t1 p) := by
  unfold State.retrain
  grind [incSat, setPort, setPortState]

theorem execFabricNoProgress (t1 p) {t : State} (e : execFabricNoProgress t1 p s = .next t) (h : s₀.Keeps s) :
    s₀.Keeps t := by
  unfold Machine.execFabricNoProgress at e
  grind [Machine.next, retrain]

theorem execPortRetrain (t1 p) {t : State} (e : execPortRetrain t1 p s = .next t) (h : s₀.Keeps s) : s₀.Keeps t := by
  unfold Machine.execPortRetrain at e
  grind [Machine.next, trainPort]

theorem execPortEnableWrite (t1 p b) {t : State} (e : execPortEnableWrite t1 p b s = .next t) (h : s₀.Keeps s) :
    s₀.Keeps t := by
  unfold Machine.execPortEnableWrite at e
  grind [setF, stopPort, Machine.next, trainPort]

theorem execSkyCtrlEnableWrite (t1 b) {t : State} (e : execSkyCtrlEnableWrite t1 b s = .next t) (h : s₀.Keeps s) :
    s₀.Keeps t := by
  unfold Machine.execSkyCtrlEnableWrite at e
  grind [setF, stopPort, Machine.next, trainPort, foldl, foldl₁]

theorem showLaser (h : s₀.Keeps s) (t1 e1 inputB power low) : s₀.Keeps (s.showLaser t1 e1 inputB power low) := by
  unfold State.showLaser
  grind [setF]

theorem execLaserLow (t1 e1 inputB power) {t : State} (e : execLaserLow t1 e1 inputB power s = .next t)
    (h : s₀.Keeps s) :
    s₀.Keeps t := by
  unfold Machine.execLaserLow at e
  grind [losePort, Machine.next, showLaser, foldl, foldl₁]

theorem execLaserRestored (t1 e1 inputB power) {t : State} (e : execLaserRestored t1 e1 inputB power s = .next t)
    (h : s₀.Keeps s) :
    s₀.Keeps t := by
  unfold Machine.execLaserRestored at e
  grind [setPortState, Machine.next, showLaser, foldl, foldl₁]

theorem takeTrailer (h : s₀.Keeps s) (t1 p w) : s₀.Keeps (s.takeTrailer t1 p w) := by
  unfold State.takeTrailer
  grind [setPort, pump, replay, kickSpray, retrain]

theorem execFabricFlit (t1 p flit trailer) {t : State} (e : execFabricFlit t1 p flit trailer s = .next t)
    (h : s₀.Keeps s) :
    s₀.Keeps t := by
  unfold Machine.execFabricFlit at e
  grind [incSat, incWrap, setPort, takeTrailer, record, idleFlit, Machine.next]

theorem execFabricAckTimer (t1 p) {t : State} (e : execFabricAckTimer t1 p s = .next t) (h : s₀.Keeps s) :
    s₀.Keeps t := by
  unfold Machine.execFabricAckTimer at e
  grind [idleFlit, Machine.next]

theorem showMismatch (h : s₀.Keeps s) : s₀.Keeps (s.showMismatch) := by
  unfold State.showMismatch
  grind [setF, foldl]

theorem execSkyNodeWrite (t1 v) {t : State} (e : execSkyNodeWrite t1 v s = .next t) (h : s₀.Keeps s) : s₀.Keeps t := by
  unfold Machine.execSkyNodeWrite at e
  grind [showMismatch, setF, Machine.next]

theorem execSkyCreditWrite (t1 v) {t : State} (e : execSkyCreditWrite t1 v s = .next t) (h : s₀.Keeps s) :
    s₀.Keeps t := by
  unfold Machine.execSkyCreditWrite at e
  grind [setReg, setF, Machine.next, foldl, foldl₁]

theorem execRoutingEntryWrite (t1 group k v) {t : State} (e : execRoutingEntryWrite t1 group k v s = .next t)
    (h : s₀.Keeps s) :
    s₀.Keeps t := by
  unfold Machine.execRoutingEntryWrite at e
  grind [setReg, setF, timeWaits, Machine.next, kickWaiting, rearmEntry]

end State.Keeps
end Sys2Proof.Machine
end

section
/-!
PROOF. What the operations of Machine/DieLinks keep.
-/
namespace Sys2Proof.Machine
namespace State.Keeps
variable {s₀ s t : State}

theorem takeRoutes (h : s₀.Keeps s) : s₀.Keeps (s.takeRoutes) := by
  unfold State.takeRoutes
  grind [setF, timeWaits, kickWaiting, foldl, foldl₁]

theorem keepOnLink (h : s₀.Keeps s) (l f) : s₀.Keeps (s.keepOnLink l f) := by
  unfold State.keepOnLink
  grind [setLink]

theorem lostOnLink (h : s₀.Keeps s) (l xs) : s₀.Keeps (s.lostOnLink l xs) := by
  unfold State.lostOnLink
  grind [incSat, freeRx, foldl, foldl₁]

theorem startReroute (h : s₀.Keeps s) (l) : s₀.Keeps (s.startReroute l) := by
  unfold State.startReroute
  grind [setF, lostOnLink, keepOnLink, upd]

theorem endReroute (h : s₀.Keeps s) (f) : s₀.Keeps (s.endReroute f) :=
  pump (foldl (takeRoutes (lostOnLink (upd (h.foldl (fun _ h _ => h.keepOnLink ..) _) ..) ..))
    (fun _ h _ => h.cross ..) _)

theorem setLinkState (h : s₀.Keeps s) (l st) : s₀.Keeps (s.setLinkState l st) := by
  unfold State.setLinkState
  grind [setF, emit]

theorem passTo (h : s₀.Keeps s) (l st) : s₀.Keeps (s.passTo l st) := by
  unfold State.passTo
  grind [setLinkState]

theorem loseTower (h : s₀.Keeps s) (t) : s₀.Keeps (s.loseTower t) := by
  unfold State.loseTower
  have hf := fun gone => h.foldl (fun s h j => (h.setYield (576 * t + j)
    (4 + yVault (s.yieldOf (576 * t + j)) * 8)).setF (Reg.coreId_enabled (576 * t + j)) 0) gone
  have hs := fun gone a n => (((hf gone).setF (Reg.bootTower_enabled t) 0).setF (Reg.bootTower_standby t) 0).setF a n
  exact ite h (ite ((hs ..).setF ..) (hs ..))

theorem downLink (h : s₀.Keeps s) (l) : s₀.Keeps (s.downLink l) := by
  unfold State.downLink
  have hs := fun r => ((((h.setLinkState l lkDown).record r).loseTower (l % 4)).loseTower ((l + 1) % 4))
  exact ite (hs _) (((hs _).keepOnLink ..).takeRoutes.foldl (fun _ h _ => h.noWay ..) _)

theorem upLink (h : s₀.Keeps s) (l) : s₀.Keeps (s.upLink l) := by
  unfold State.upLink
  grind [startReroute, kickWaiting, setLinkState]

theorem trainModules (h : s₀.Keeps s) (l x) : s₀.Keeps (s.trainModules l x) := by
  unfold State.trainModules
  refine ((((setF (foldl (foldl h ?_ _) ?_ _) _ _).setF _ _).setF _ _).setF _ _).setF _ _ |>.setF _ _
  · exact fun _ h _ => h.setF ..
  · exact fun _ h _ => h.record _

theorem agree (h : s₀.Keeps s) (l a b) : s₀.Keeps (s.agree l a b) := by
  unfold State.agree
  grind [setF, foldl]

theorem tickSync (h : s₀.Keeps s) (t1) : s₀.Keeps (s.tickSync t1) := by
  unfold State.tickSync
  grind [setF]

theorem settleExit (h : s₀.Keeps s) : s₀.Keeps (s.settleExit) := by
  unfold State.settleExit
  grind [tickSync, upd, foldl, foldl₁]

theorem trainOn (h : s₀.Keeps s) (l peer x) : s₀.Keeps (s.trainOn l peer x).1 := by
  unfold State.trainOn
  have hm := h.trainModules l x
  have hs := fun me => (ite (c := (s.trainModules l x).linkState l = lkRetrain) hm (hm.passTo l 4)).agree l me peer
  exact ite_of Prod.fst (hm.downLink _) (ite_of Prod.fst ((((hs _).setF _ _).setF _ _).downLink _)
    (ite_of Prod.fst (((hs _).setF _ _).downLink _) (hs _)))

theorem execDieLinkTrained (l peer train) {t : State} (e : Machine.execDieLinkTrained l peer train s = .next t)
    (h : s₀.Keeps s) : s₀.Keeps t := by
  unfold Machine.execDieLinkTrained at e
  refine of_ite e (fun e => of_next e h) fun e => ?_
  refine of_ite e (fun e => of_next e (h.downLink _).settleExit) fun e => ?_
  exact of_ite e (fun e => of_next e (h.trainOn ..).settleExit) fun e =>
    of_next e (((h.trainOn ..).setLink ..).upLink _).pump.settleExit

theorem execDieLinkTrainTimeout (l) {t : State} (e : execDieLinkTrainTimeout l s = .next t) (h : s₀.Keeps s) :
    s₀.Keeps t := by
  unfold Machine.execDieLinkTrainTimeout at e
  grind [settleExit, downLink, Machine.next]

theorem retrainLink (h : s₀.Keeps s) (l) : s₀.Keeps (s.retrainLink l) := by
  unfold State.retrainLink
  grind [incSat, record, setLink, setLinkState]

theorem execDieLinkNoProgress (e1) {t : State} (e : execDieLinkNoProgress e1 s = .next t) (h : s₀.Keeps s) :
    s₀.Keeps t := by
  unfold Machine.execDieLinkNoProgress at e
  grind [retrainLink, Machine.next]

theorem execDieLinkRetrainEnd (l train) {t : State} (e : Machine.execDieLinkRetrainEnd l train s = .next t)
    (h : s₀.Keeps s) : s₀.Keeps t := by
  unfold Machine.execDieLinkRetrainEnd at e
  refine of_ite e (fun e => of_next e h) fun e => ?_
  split at e
  · exact of_next e ((h.setF _ _).downLink _)
  · refine of_ite e (fun e => of_next e (h.downLink _)) fun e => ?_
    exact of_ite e (fun e => of_next e (h.trainOn ..)) fun e =>
      of_next e ((((h.trainOn ..).setLink ..).upLink _).replayDie _).pump

theorem execDlkLinkRetrain (l) {t : State} (e : execDlkLinkRetrain l s = .next t) (h : s₀.Keeps s) : s₀.Keeps t := by
  unfold Machine.execDlkLinkRetrain at e
  grind [retrainLink, Machine.next, setLink, setLinkState]

theorem execForceDown (l b) {t : State} (e : execForceDown l b s = .next t) (h : s₀.Keeps s) : s₀.Keeps t := by
  unfold Machine.execForceDown at e
  grind [setF, downLink, Machine.next]

theorem execFailoverStart (l) {t : State} (e : execFailoverStart l s = .next t) (h : s₀.Keeps s) : s₀.Keeps t := by
  unfold Machine.execFailoverStart at e
  grind [Machine.next, startReroute]

theorem execFailoverComplete (late) {t : State} (e : execFailoverComplete late s = .next t) (h : s₀.Keeps s) :
    s₀.Keeps t := by
  unfold Machine.execFailoverComplete at e
  split at e
  · exact of_next e h
  · dsimp only at e
    split at e
    · exact of_next e h
    · exact of_next e ((h.incSat _ _).endReroute _)

theorem takeControl (h : s₀.Keeps s) (l w) : s₀.Keeps (s.takeControl l w) := by
  unfold State.takeControl
  grind [pump, retrainLink, replayDie, setLink]

theorem execDieLinkFlit (l flit control) {t : State} (e : execDieLinkFlit l flit control s = .next t) (h : s₀.Keeps s) :
    s₀.Keeps t := by
  unfold Machine.execDieLinkFlit at e
  grind [incSat, record, Machine.next, setLink, idleDie, takeControl]

theorem execDieLinkAckTimer (l) {t : State} (e : execDieLinkAckTimer l s = .next t) (h : s₀.Keeps s) : s₀.Keeps t := by
  unfold Machine.execDieLinkAckTimer at e
  grind [Machine.next, idleDie]

end State.Keeps
end Sys2Proof.Machine
end

section
/-!
PROOF. What the operations of Machine/Ras keep.
-/
namespace Sys2Proof.Machine
namespace State.Keeps
variable {s₀ s t : State}

theorem putLog (h : s₀.Keeps s) (k r) : s₀.Keeps (s.putLog k r) := by
  unfold State.putLog
  grind [upd]

theorem logRecord (h : s₀.Keeps s) (r) : s₀.Keeps (s.logRecord r) := by
  unfold State.logRecord
  grind [incSat, putLog, setF]

theorem raiseRecord (h : s₀.Keeps s) (c) : s₀.Keeps (s.raiseRecord c) := by
  unfold State.raiseRecord
  grind [setF, emit, upd]

theorem takeRecord (h : s₀.Keeps s) (r) : s₀.Keeps (s.takeRecord r) := by
  unfold State.takeRecord
  grind [incSat, logRecord, raiseRecord, upd]

theorem execErrorRecord {t : State} (e : execErrorRecord s = .next t) (h : s₀.Keeps s) : s₀.Keeps t := by
  unfold Machine.execErrorRecord at e
  grind [takeRecord, Machine.next, upd]

theorem putCrashHead (h : s₀.Keeps s) (head) : s₀.Keeps (s.putCrashHead head) := by
  unfold State.putCrashHead
  grind [retWrite]

theorem crashCapture (h : s₀.Keeps s) : s₀.Keeps (s.crashCapture) := by
  unfold State.crashCapture
  grind [retWrite]

theorem writeCrash (h : s₀.Keeps s) (tick_ cause detail writer cores) :
    s₀.Keeps (s.writeCrash tick_ cause detail writer cores) := by
  unfold State.writeCrash
  grind [retNote, setF, crashCapture, putCrashHead]

theorem putSections (h : s₀.Keeps s) (h1) : s₀.Keeps (s.putSections h1) := by
  unfold State.putSections
  grind [retWrite, foldl]

theorem crash (h : s₀.Keeps s) (cause detail h1) : s₀.Keeps (s.crash cause detail h1) := by
  unfold State.crash
  grind [putSections, writeCrash, upd]

theorem crashTrip (h : s₀.Keeps s) (t1) : s₀.Keeps (s.crashTrip t1) := by
  unfold State.crashTrip
  grind [freeBytes, crash]

theorem freeWork (h : s₀.Keeps s) : s₀.Keeps (s.freeWork).1 := by
  unfold State.freeWork
  grind [bump, freeBytes]

theorem execCrashWriterTimeout {t : State} (e : execCrashWriterTimeout s = .next t) (h : s₀.Keeps s) : s₀.Keeps t := by
  unfold Machine.execCrashWriterTimeout at e
  split at e
  · exact of_next e h
  · split at e
    · exact of_next e h
    · exact of_next e ((h.upd ..).writeCrash ..)

theorem execCrashRelease {t : State} (e : execCrashRelease s = .next t) (h : s₀.Keeps s) : s₀.Keeps t := by
  unfold Machine.execCrashRelease at e
  grind [retWrite, setF, Machine.next]

theorem execFirmwarePanic (h1) {t : State} (e : execFirmwarePanic h1 s = .next t) (h : s₀.Keeps s) : s₀.Keeps t := by
  unfold Machine.execFirmwarePanic at e
  grind [crash, Machine.next]

theorem wedge (h : s₀.Keeps s) (block kind cause detail h1) : s₀.Keeps (s.wedge block kind cause detail h1) := by
  unfold State.wedge
  grind [setF, record, crash, emit]

theorem execWatchdogExpire (x) {t : State} (e : execWatchdogExpire x s = .next t) (h : s₀.Keeps s) : s₀.Keeps t := by
  unfold Machine.execWatchdogExpire at e
  grind [setF, wedge, usedInject, Machine.next]

theorem execMgmtSramUncorrectable {t : State} (e : execMgmtSramUncorrectable s = .next t) (h : s₀.Keeps s) :
    s₀.Keeps t := by
  unfold Machine.execMgmtSramUncorrectable at e
  grind [setF, wedge, usedInject, freeWork, Machine.next]

end State.Keeps
end Sys2Proof.Machine
end

section
/-!
PROOF. What the operations of Machine/Power keep.
-/
namespace Sys2Proof.Machine
namespace State.Keeps
variable {s₀ s t : State}

theorem setSensor (h : s₀.Keeps s) (die k x) : s₀.Keeps (s.setSensor die k x) := by
  unfold State.setSensor
  grind [upd]

theorem setHotSpot (h : s₀.Keeps s) (k x) : s₀.Keeps (s.setHotSpot k x) := by
  unfold State.setHotSpot
  grind [upd]

theorem showZones (h : s₀.Keeps s) (t1) : s₀.Keeps (s.showZones t1) := by
  unfold State.showZones
  grind [setF, foldl]

theorem setCeilings (h : s₀.Keeps s) (t1) : s₀.Keeps (s.setCeilings t1) := by
  unfold State.setCeilings
  grind [setF]

theorem setDuties (h : s₀.Keeps s) (t1 lat be) : s₀.Keeps (s.setDuties t1 lat be) := by
  unfold State.setDuties
  grind [setF]

theorem ptmRecord (h : s₀.Keeps s) (cls site kind addr) : s₀.Keeps (s.ptmRecord cls site kind addr) := by
  unfold State.ptmRecord
  grind [record]

theorem enterStorm (h : s₀.Keeps s) (t1) : s₀.Keeps (s.enterStorm t1) := by
  unfold State.enterStorm
  grind [setTpwr, setF, ptmRecord]

theorem leaveStorm (h : s₀.Keeps s) (t) : s₀.Keeps (s.leaveStorm t) := by
  unfold State.leaveStorm
  have hs := (h.setF (Reg.ptmTState_held t) 0).foldl (f := fun s j =>
    s.setVault (576 * t + j) { s.vault (576 * t + j) with bandUntil := s.now + ms 10 }) (fun _ h _ => h.setVault ..)
    (List.range 576)
  exact ite (hs.setDuties ..) (hs.setDuties ..)

theorem setLevel (h : s₀.Keeps s) (t l cause) : s₀.Keeps (s.setLevel t l cause) := by
  unfold State.setLevel
  have hs := fun u f => (((((h.setF (Reg.ptmTState_level t) l).setF (Reg.ptmTState_cause t) cause).setF f l).setTpwr t
    u).setCeilings t).showZones t
  exact ((ite ((hs ..).enterStorm _) (ite ((hs ..).leaveStorm _) (hs ..))).emit _).inBand

theorem relevel (h : s₀.Keeps s) (t1) : s₀.Keeps (s.relevel t1) := by
  unfold State.relevel
  grind [showZones, setLevel]

theorem relevelAll (h : s₀.Keeps s) : s₀.Keeps (s.relevelAll) := by
  unfold State.relevelAll
  grind [relevel, foldl]

theorem trip (h : s₀.Keeps s) (t cause sensor) : s₀.Keeps (s.trip t cause sensor) := by
  unfold State.trip
  have hp := fun c => ((h.setF (Reg.ptmTTrip_cause t) c).setF (Reg.ptmTTrip_sensor t) sensor).setF
    (Reg.ptmTTrip_valid t) 1
  refine ite h (ite ((hp _).setF _ _) (relevel (crashTrip (ptmRecord (foldl (setF (upd (setF (hp _) _ _) ..) _ _) ?_
    _) ..) _) _))
  exact fun _ h _ => ite h (h.downLink _)

theorem breakSensor (h : s₀.Keeps s) (die k) : s₀.Keeps (s.breakSensor die k) := by
  unfold State.breakSensor
  grind [setSensor, ptmRecord]

theorem sampleOne (h : s₀.Keeps s) (die k r) : s₀.Keeps (s.sampleOne die k r) := by
  unfold State.sampleOne
  grind [breakSensor, setSensor]

theorem pairAgrees (h : s₀.Keeps s) (k) : s₀.Keeps (s.pairAgrees k) := by
  unfold State.pairAgrees
  grind [setF, setHotSpot, ptmRecord]

theorem tripSpot (h : s₀.Keeps s) (k) : s₀.Keeps (s.tripSpot k) := by
  unfold State.tripSpot
  grind [trip, foldl]

theorem rateTrip (h : s₀.Keeps s) (t1) : s₀.Keeps (s.rateTrip t1) := by
  unfold State.rateTrip
  grind [incSat, setTpwr, setHotSpot, ptmRecord, foldl, foldl₁]

theorem rateSpot (h : s₀.Keeps s) (k) : s₀.Keeps (s.rateSpot k) := by
  unfold State.rateSpot
  grind [setTpwr, setHotSpot, rateTrip]

theorem endDetectorStorm (h : s₀.Keeps s) (t1) : s₀.Keeps (s.endDetectorStorm t1) := by
  unfold State.endDetectorStorm
  grind [setTpwr]

theorem publishZone (h : s₀.Keeps s) (t z) : s₀.Keeps (s.publishZone t z) := by
  unfold State.publishZone
  split
  · exact h
  · exact ite ((h.setF _ _).upd ..) (((h.setF _ _).upd ..).setF _ _)

theorem publishZones (h : s₀.Keeps s) : s₀.Keeps (s.publishZones) := by
  unfold State.publishZones
  grind [publishZone, upd, foldl, foldl₁]

theorem showTemps (h : s₀.Keeps s) (t1) : s₀.Keeps (s.showTemps t1) := by
  unfold State.showTemps
  grind [setF]

theorem endRiseWindow (h : s₀.Keeps s) (t1) : s₀.Keeps (s.endRiseWindow t1) := by
  unfold State.endRiseWindow
  grind [setTpwr, setF, setCeilings, setHotSpot, foldl, foldl₁]

theorem execSensorSample (readings) {t : State} (e : Machine.execSensorSample readings s = .next t) (h : s₀.Keeps s) :
    s₀.Keeps t := by
  unfold Machine.execSensorSample at e
  refine of_ite e (fun e => of_next e h) fun e => of_next e (relevelAll (foldl ?_ (fun _ h _ => h.showTemps ..) _))
  refine publishZones (foldl (foldl ?_ (fun _ h _ => h.tripSpot ..) _) (fun _ h _ => h.endDetectorStorm ..) _)
  have hs : ∀ u, s₀.Keeps u → s₀.Keeps (if u.on Reg.ptmInject_rate_trip then
      (u.rateTrip (u.getF Reg.ptmInject_tsel)).setF Reg.ptmInject_rate_trip 0 else u) :=
    fun _ h => ite ((h.rateTrip ..).setF ..) h
  refine hs _ (foldl (foldl (foldl (foldl (h.upd ..) ?_ _) ?_ _) ?_ _) ?_ _)
  · exact fun _ h _ => h.endRiseWindow ..
  · exact fun _ h _ => ite (h.sampleOne ..) h
  · exact fun _ h _ => h.pairAgrees ..
  · exact fun _ h _ => h.rateSpot ..

theorem execSensorSilent (k) {t : State} (e : execSensorSilent k s = .next t) (h : s₀.Keeps s) : s₀.Keeps t := by
  unfold Machine.execSensorSilent at e
  grind [relevelAll, breakSensor, Machine.next]

theorem execSensorRearm {t : State} (e : execSensorRearm s = .next t) (h : s₀.Keeps s) : s₀.Keeps t := by
  unfold Machine.execSensorRearm at e
  grind [setSensor, Machine.next]

theorem execQuiesceDone (t) {u : State} (e : Machine.execQuiesceDone t s = .next u) (h : s₀.Keeps s) : s₀.Keeps u := by
  unfold Machine.execQuiesceDone at e
  exact of_ite e (fun e => of_next e h) fun e => of_next e (((((h.setF _ _).bump _).setTpwr ..).setF _ _).relevel _)

theorem execQuiesceTimeout (t1) {t : State} (e : execQuiesceTimeout t1 s = .next t) (h : s₀.Keeps s) : s₀.Keeps t := by
  unfold Machine.execQuiesceTimeout at e
  grind [trip, Machine.next]

theorem execRateRequestExpire (t1) {t : State} (e : execRateRequestExpire t1 s = .next t) (h : s₀.Keeps s) :
    s₀.Keeps t := by
  unfold Machine.execRateRequestExpire at e
  grind [setTpwr, relevel, Machine.next]

theorem showCap (h : s₀.Keeps s) : s₀.Keeps (s.showCap) := by
  unfold State.showCap
  grind [setF]

theorem halveDuties (h : s₀.Keeps s) : s₀.Keeps (s.halveDuties) := by
  unfold State.halveDuties
  grind [setF, setDuties, foldl₁]

theorem lowerDuties (h : s₀.Keeps s) : s₀.Keeps (s.lowerDuties) := by
  unfold State.lowerDuties
  grind [setF, setDuties, foldl, foldl₁]

theorem raiseDuties (h : s₀.Keeps s) (rise room) : s₀.Keeps (s.raiseDuties rise room) := by
  unfold State.raiseDuties
  grind [setF, setDuties, foldl, foldl₁]

theorem railLost (h : s₀.Keeps s) (r) : s₀.Keeps (s.railLost r) := by
  unfold State.railLost
  grind [setF, ptmRecord]

theorem readRail (h : s₀.Keeps s) (r x) : s₀.Keeps (s.readRail r x) := by
  unfold State.readRail
  grind [setF, usedInject, railLost, upd]

theorem showGlb (h : s₀.Keeps s) (p) : s₀.Keeps (s.showGlb p) := by
  have put : ∀ {u : State} (_ : s₀.Keeps u) f (v : Option Int),
      s₀.Keeps (match v with | some m => u.setF f (wholeDegrees m) | none => u) :=
    fun hu f v => by
      cases v
      · exact hu
      · exact hu.setF f _
  unfold State.showGlb
  dsimp only
  refine ite (h.upd ..) (setF (put (put (upd (setF (h.upd ..) _ _) ..) _ _) _ _) _ _)

theorem endPowerWindow (h : s₀.Keeps s) : s₀.Keeps (s.endPowerWindow) := by
  unfold State.endPowerWindow
  grind [setF, upd]

theorem execPowerSample (rails model) {t : State} (e : execPowerSample rails model s = .next t) (h : s₀.Keeps s) :
    s₀.Keeps t := by
  unfold Machine.execPowerSample at e
  grind [halveDuties, lowerDuties, setF, raiseDuties, showGlb, endPowerWindow, readRail, Machine.next, upd, foldl,
    foldl₁]

theorem execPowerWindowEnd {t : State} (e : execPowerWindowEnd s = .next t) (h : s₀.Keeps s) : s₀.Keeps t := by
  unfold Machine.execPowerWindowEnd at e
  grind [endPowerWindow, Machine.next]

theorem forecastSpot (h : s₀.Keeps s) (k f) : s₀.Keeps (s.forecastSpot k f) := by
  unfold State.forecastSpot
  grind [setTpwr, setHotSpot]

theorem publishForecast (h : s₀.Keeps s) (zones t z) : s₀.Keeps (s.publishForecast zones t z) := by
  rw [show @State.publishForecast = _ from by delta State.publishForecast; rfl]
  extract_lets k x u
  have hu : s₀.Keeps u := h.setF _ _
  clear_value x u
  split
  · exact hu
  · dsimp only
    split
    · exact hu.setF _ _
    · exact hu

theorem keepWarm (h : s₀.Keeps s) (t1) : s₀.Keeps (s.keepWarm t1) := by
  unfold State.keepWarm
  grind [setTpwr, setF, upd]

theorem endFlowWindow (h : s₀.Keeps s) : s₀.Keeps (s.endFlowWindow) := by
  unfold State.endFlowWindow
  grind [setTpwr, upd, foldl, foldl₁]

theorem execForecastStep (hot zones) {t : State} (e : execForecastStep hot zones s = .next t) (h : s₀.Keeps s) :
    s₀.Keeps t := by
  unfold Machine.execForecastStep at e
  grind [showTemps, setF, publishForecast, forecastSpot, relevelAll, endFlowWindow, Machine.next, keepWarm, upd,
    foldl, foldl₁]

theorem execDewRisk (t1) {t : State} (e : execDewRisk t1 s = .next t) (h : s₀.Keeps s) : s₀.Keeps t := by
  unfold Machine.execDewRisk at e
  grind [setF, Machine.next, emit]

theorem openGates (h : s₀.Keeps s) (t1 b) : s₀.Keeps (s.openGates t1 b) := by
  unfold State.openGates
  grind [upd]

theorem execGatePeriod {t : State} (e : execGatePeriod s = .next t) (h : s₀.Keeps s) : s₀.Keeps t := by
  unfold Machine.execGatePeriod at e
  grind [openGates, Machine.next, foldl, foldl₁]

theorem execRiseWindowEnd (t1) {t : State} (e : execRiseWindowEnd t1 s = .next t) (h : s₀.Keeps s) : s₀.Keeps t := by
  unfold Machine.execRiseWindowEnd at e
  grind [endRiseWindow, Machine.next]

theorem execFlowWindowEnd (theta) {t : State} (e : execFlowWindowEnd theta s = .next t) (h : s₀.Keeps s) :
    s₀.Keeps t := by
  unfold Machine.execFlowWindowEnd at e
  grind [setTpwr, setF, relevelAll, showCap, endFlowWindow, Machine.next, emit, upd, foldl, foldl₁]

theorem execCoolantWrite (inlet flow) {t : State} (e : execCoolantWrite inlet flow s = .next t) (h : s₀.Keeps s) :
    s₀.Keeps t := by
  unfold Machine.execCoolantWrite at e
  grind [setF, relevelAll, showCap, Machine.next, endDetectorStorm, upd, foldl, foldl₁]

theorem execCoolantStale {t : State} (e : execCoolantStale s = .next t) (h : s₀.Keeps s) : s₀.Keeps t := by
  unfold Machine.execCoolantStale at e
  grind [setF, relevelAll, showCap, Machine.next]

theorem execTrimStep {t : State} (e : execTrimStep s = .next t) (h : s₀.Keeps s) : s₀.Keeps t := by
  unfold Machine.execTrimStep at e
  grind [Machine.next, upd]

theorem vcoreTicks (h : s₀.Keeps s) : s₀.Keeps (s.vcoreTicks) := by
  unfold State.vcoreTicks
  grind [setF]

theorem setFixedRails (h : s₀.Keeps s) : s₀.Keeps (s.setFixedRails) := by
  unfold State.setFixedRails
  grind [setF, foldl]

theorem execVcoreUpdate (t1 target) {t : State} (e : execVcoreUpdate t1 target s = .next t) (h : s₀.Keeps s) :
    s₀.Keeps t := by
  unfold Machine.execVcoreUpdate at e
  grind [setTpwr, setF, Machine.next]

theorem execHeartbeat {t : State} (e : execHeartbeat s = .next t) (h : s₀.Keeps s) : s₀.Keeps t := by
  unfold Machine.execHeartbeat at e
  grind [incWrap, setF, Machine.next, upd]

theorem execFwAliveLost {t : State} (e : execFwAliveLost s = .next t) (h : s₀.Keeps s) : s₀.Keeps t := by
  unfold Machine.execFwAliveLost at e
  grind [setF, setDuties, relevelAll, Machine.next, foldl, foldl₁]

theorem execThermalProfile (k) {t : State} (e : Machine.execThermalProfile k s = .next t) (h : s₀.Keeps s) : s₀.Keeps
    t :=
  of_next e (h.command _ _ fun _ _ h => ite (h.done ..) (ite (h.done ..)
    (((((h.setF _ _).setF _ _).setF _ _).setF _ _).showCap.done ..)))

end State.Keeps
end Sys2Proof.Machine
end

section
/-!
PROOF. What the operations of Machine/Reset keep.
-/
namespace Sys2Proof.Machine
namespace State.Keeps
variable {s₀ s t : State}

theorem applyOptions (h : s₀.Keeps s) : s₀.Keeps (s.applyOptions) := by
  unfold State.applyOptions
  grind [setF, setLink, upd, foldl, foldl₁]

theorem wipe (h : s₀.Keeps s) : s₀.Keeps s.wipe :=
  (h.keepRegs retainedReg ..).setF _ _

theorem fullReset (h : s₀.Keeps s) (x) : s₀.Keeps (s.fullReset x) := by
  unfold State.fullReset
  grind [incSat, setReg, setF, wipe, upd]

theorem coldWipe (h : s₀.Keeps s) : s₀.Keeps s.coldWipe := h.withRegs (fun _ => rfl) rfl rfl rfl

theorem execColdReset {t : State} (e : execColdReset s = .next t) (h : s₀.Keeps s) : s₀.Keeps t := by
  unfold Machine.execColdReset at e
  grind [setF, coldWipe, Machine.next, upd]

theorem execVauxLoss {t : State} (e : execVauxLoss s = .next t) (h : s₀.Keeps s) : s₀.Keeps t := by
  unfold Machine.execVauxLoss at e
  grind [coldWipe, Machine.next, upd]

theorem execSysResetNLow (ns) {t : State} (e : execSysResetNLow ns s = .next t) (h : s₀.Keeps s) : s₀.Keeps t := by
  unfold Machine.execSysResetNLow at e
  grind [Machine.next, fullReset]

theorem execPerstNAssert {t : State} (e : execPerstNAssert s = .next t) (h : s₀.Keeps s) : s₀.Keeps t := by
  unfold Machine.execPerstNAssert at e
  grind [Machine.next, fullReset]

theorem execPerstNDeassert {t : State} (e : execPerstNDeassert s = .next t) (h : s₀.Keeps s) : s₀.Keeps t := by
  unfold Machine.execPerstNDeassert at e
  grind [Machine.next, upd]

theorem execPcieLinkDown {t : State} (e : execPcieLinkDown s = .next t) (h : s₀.Keeps s) : s₀.Keeps t := by
  unfold Machine.execPcieLinkDown at e
  grind [setF, Machine.next]

theorem execHostLinkUp (wide rate) {t : State} (e : execHostLinkUp wide rate s = .next t) (h : s₀.Keeps s) :
    s₀.Keeps t := by
  unfold Machine.execHostLinkUp at e
  grind [setF, Machine.next]

theorem execHotReset {t : State} (e : execHotReset s = .next t) (h : s₀.Keeps s) : s₀.Keeps t := by
  unfold Machine.execHotReset at e
  grind [setF, Machine.next, fullReset]

theorem execFullArm {t : State} (e : execFullArm s = .next t) (h : s₀.Keeps s) : s₀.Keeps t := by
  unfold Machine.execFullArm at e
  grind [Machine.next, upd]

theorem execFullGo {t : State} (e : execFullGo s = .next t) (h : s₀.Keeps s) : s₀.Keeps t := by
  unfold Machine.execFullGo at e
  split at e
  · exact of_next e h
  · split at e
    · exact of_next e (h.fullReset _)
    · exact of_next e h

theorem execReferenceLoss (pll) {t : State} (e : execReferenceLoss pll s = .next t) (h : s₀.Keeps s) : s₀.Keeps t := by
  unfold Machine.execReferenceLoss at e
  grind [Machine.next, fullReset]

theorem execReferenceRestored {t : State} (e : execReferenceRestored s = .next t) (h : s₀.Keeps s) : s₀.Keeps t := by
  unfold Machine.execReferenceRestored at e
  grind [Machine.next, upd]

theorem execResetStretchEnd {t : State} (e : execResetStretchEnd s = .next t) (h : s₀.Keeps s) : s₀.Keeps t := by
  unfold Machine.execResetStretchEnd at e
  grind [Machine.next, upd]

/-- The exit of a full reset starts the tick at 0, and keeps the rest. -/
theorem beginExit (s : State) : ({ s with now := 0 } : State).Keeps s.beginExit := by
  unfold State.beginExit
  exact settleExit (foldl (applyOptions (setF (setF (setF (upd (refl _) ..) _ _) _ _) _ _))
    (fun _ h _ => ite ((h.setLink ..).setLinkState ..) h) _)

theorem execFullResetRelease (ns) {t : State} (e : Machine.execFullResetRelease ns s = .next t) :
    ({ s with now := t.now } : State).Keeps t := by
  unfold Machine.execFullResetRelease at e
  have hb := beginExit s
  repeat' split at e
  · cases e; exact refl s
  · cases e; rw [hb.now]; exact hb
  · cases e; rw [hb.now]; exact hb
  · cases e; exact refl s

theorem execStartupStepTimeout {t : State} (e : execStartupStepTimeout s = .next t) (h : s₀.Keeps s) : s₀.Keeps t := by
  unfold Machine.execStartupStepTimeout at e
  grind [setF, Machine.next, upd]

theorem execSerdesUnlock (which) {t : State} (e : execSerdesUnlock which s = .next t) (h : s₀.Keeps s) :
    s₀.Keeps t := by
  unfold Machine.execSerdesUnlock at e
  have hu : ∀ x, s₀.Keeps { s.incSat Reg.clkStatus_serdes_unlocks 1 with rst := x } := fun x => (h.incSat _ _).upd ..
  split at e
  · exact of_next e h
  · dsimp only at e
    split at e
    · exact of_next e (ite ((hu _).retrainLink _) (hu _))
    · exact of_next e (ite ((hu _).retrain _ _) (hu _))

theorem execTickSyncCheck (t1 offset) {t : State} (e : execTickSyncCheck t1 offset s = .next t) (h : s₀.Keeps s) :
    s₀.Keeps t := by
  unfold Machine.execTickSyncCheck at e
  grind [incSat, tickSync, setF, Machine.next, upd]

theorem abandonSites (h : s₀.Keeps s) (sites) : s₀.Keeps (s.abandonSites sites) := by
  unfold State.abandonSites
  grind [quarantineTag, upd, foldl, foldl₁]

theorem dropLast (h : s₀.Keeps s) (sites) : s₀.Keeps (s.dropLast sites) := by
  unfold State.dropLast
  grind [upd]

theorem dropQueued (h : s₀.Keeps s) (i) : s₀.Keeps (s.dropQueued i) := by
  unfold State.dropQueued
  grind [setVault, bkuShow, upd]

theorem dropLatches (h : s₀.Keeps s) (i) : s₀.Keeps (s.dropLatches i) := by
  unfold State.dropLatches
  grind [setVault]

theorem drainCore (h : s₀.Keeps s) (i) : s₀.Keeps (s.drainCore i) := by
  unfold State.drainCore
  grind [setF, withdraw, endStep]

theorem resetCommands (h : s₀.Keeps s) (ks) : s₀.Keeps (s.resetCommands ks) := by
  unfold State.resetCommands
  grind [upd]

theorem endBlock (h : s₀.Keeps s) (st) : s₀.Keeps (s.endBlock st) := by
  unfold State.endBlock
  grind [setF, upd]

theorem withdrawBlock (h : s₀.Keeps s) (m) : s₀.Keeps (s.withdrawBlock m) := by
  unfold State.withdrawBlock
  grind [openPort, endBlock]

theorem execComputeGo {t : State} (e : Machine.execComputeGo s = .next t) (h : s₀.Keeps s) : s₀.Keeps t := by
  unfold Machine.execComputeGo at e
  refine of_ite e (fun e => of_next e (h.setF _ _)) fun e => of_next e
    (foldl (resetCommands (foldl (foldl ?_ ?_ _) ?_ _) _) ?_ _)
  · exact ((((h.withdrawBlock _).setF _ _).setF _ _).setF _ _).upd ..
  · exact fun _ h _ => h.setF _ _
  · exact fun _ h _ => h.setChan ..
  · exact fun _ h _ => ite ((h.drainCore _).dropQueued _) (((h.drainCore _).dropQueued _).emptyQueue ..)

theorem execDrainEnd {t : State} (e : Machine.execDrainEnd s = .next t) (h : s₀.Keeps s) : s₀.Keeps t := by
  unfold Machine.execDrainEnd at e
  refine of_ite e (fun e => of_next e h) fun e => of_next e ((dropLast (keepRegs (foldl (h.abandonSites _) ?_ _) ..)
    _).setF _ _)
  exact fun _ h _ => (((h.dropWatches _).dropLatches _).setVault ..).bkuShow _

theorem execHeldEnd {t : State} (e : execHeldEnd s = .next t) (h : s₀.Keeps s) : s₀.Keeps t := by
  unfold Machine.execHeldEnd at e
  grind [setVault, setF, Machine.next, foldl, foldl₁]

theorem execReleaseComplete {t : State} (e : execReleaseComplete s = .next t) (h : s₀.Keeps s) : s₀.Keeps t := by
  unfold Machine.execReleaseComplete at e
  grind [setF, Machine.next, kickWaiting, event, upd, foldl, foldl₁]

theorem execBlockResetGo (v) {t : State} (e : Machine.execBlockResetGo v s = .next t) (h : s₀.Keeps s) : s₀.Keeps t :=
    by
  unfold Machine.execBlockResetGo at e
  have hs := fun a b c d => (((h.setF Reg.rstBlock_site a).setF Reg.rstBlock_kind b).setF Reg.rstBlock_force c).setF
    Reg.rstBlock_timeout_us d
  refine of_ite e (fun e => of_next e (hs ..)) fun e => ?_
  refine of_ite e (fun e => of_next e ((hs ..).setF _ _)) fun e => ?_
  refine of_ite e (fun e => of_next e ((hs ..).setF _ _)) fun e => ?_
  exact of_ite e (fun e => of_next e ((hs ..).setF _ _)) fun e => of_next e (((hs ..).upd ..).setF _ _)

theorem resetCore (h : s₀.Keeps s) (i) : s₀.Keeps (s.resetCore i) := by
  unfold State.resetCore
  have hs := ite (c := s.coreState i = csRunning ∨ s.coreState i = csBreak) (h.faultChannel i stResetAborted 0 0 0) h
  have hb := fun x => (((((((hs.withdraw i).endStep i).dropQueued i).abandonSites (fun j => j == i)).dropLatches
    i).setVault i
    x).bkuShow i).dropLast (fun j => j == i)
  exact (hb _).keepRegs ..

theorem resetSq (h : s₀.Keeps s) (i) : s₀.Keeps (s.resetSq i) := by
  unfold State.resetSq
  have hs := ((h.emptyQueue i stSqClosed).setF (Reg.sqCtrl_open i) 0).setF (Reg.sqStatus_state i) 0
  dsimp only
  split
  · exact hs
  · exact (((hs.upd ..).setCore ..).wake _).runQueues

theorem resetVault (h : s₀.Keeps s) (i) : s₀.Keeps (s.resetVault i) := by
  unfold State.resetVault
  grind [setVault, setF, setCore, sendSpray, foldl, foldl₁]

theorem holdBlock (h : s₀.Keeps s) (b st) : s₀.Keeps (s.holdBlock b st) := by
  unfold State.holdBlock
  grind [resetSq, resetVault, setF, resetCore, upd]

theorem execBlockIdle {t : State} (e : execBlockIdle s = .next t) (h : s₀.Keeps s) : s₀.Keeps t := by
  unfold Machine.execBlockIdle at e
  grind [holdBlock, Machine.next]

theorem execBlockResetRelease {t : State} (e : execBlockResetRelease s = .next t) (h : s₀.Keeps s) : s₀.Keeps t := by
  unfold Machine.execBlockResetRelease at e
  grind [setVault, openPort, endBlock, Machine.next]

theorem execBlockResetTimeout {t : State} (e : execBlockResetTimeout s = .next t) (h : s₀.Keeps s) : s₀.Keeps t := by
  unfold Machine.execBlockResetTimeout at e
  grind [setF, holdBlock, openPort, endBlock, Machine.next]

end State.Keeps
end Sys2Proof.Machine
end

section
/-!
PROOF. What the operations of Machine/Boot keep.
-/
namespace Sys2Proof.Machine
namespace State.Keeps
variable {s₀ s t : State}

theorem toStage (h : s₀.Keeps s) (n) : s₀.Keeps (s.toStage n) := by
  unfold State.toStage
  grind [setF, upd]

theorem bootFail (h : s₀.Keeps s) (st) : s₀.Keeps (s.bootFail st) := by
  unfold State.bootFail
  grind [setF]

theorem bootRecord (h : s₀.Keeps s) (site addr) : s₀.Keeps (s.bootRecord site addr) := by
  unfold State.bootRecord
  grind [record]

theorem execBootStageTimeout {t : State} (e : execBootStageTimeout s = .next t) (h : s₀.Keeps s) : s₀.Keeps t := by
  unfold Machine.execBootStageTimeout at e
  grind [Machine.next, bootFail]

theorem execRomStart (flash) {t : State} (e : execRomStart flash s = .next t) (h : s₀.Keeps s) : s₀.Keeps t := by
  unfold Machine.execRomStart at e
  grind [toStage, Machine.next, bootFail]

theorem execManifest (bytes) {t : State} (e : Machine.execManifest bytes s = .next t) (h : s₀.Keeps s) : s₀.Keeps t :=
    by
  unfold Machine.execManifest at e
  refine of_ite e (fun e => of_next e h) fun e => ?_
  split at e
  · exact of_next e (h.bootFail _)
  · dsimp only at e
    split at e
    · exact of_next e ((ite (h.setF _ _) h).bootFail _)
    · exact of_next e (((((h.setF _ _).setF _ _).setF _ _).setF _ _).upd .. |>.toStage _)

theorem execSegmentRead (k bytes) {t : State} (e : execSegmentRead k bytes s = .next t) (h : s₀.Keeps s) :
    s₀.Keeps t := by
  unfold Machine.execSegmentRead at e
  grind [Machine.next, bootFail, upd]

theorem execMgmtLoad {t : State} (e : execMgmtLoad s = .next t) (h : s₀.Keeps s) : s₀.Keeps t := by
  unfold Machine.execMgmtLoad at e
  grind [setF, toStage, setFixedRails, Machine.next]

theorem bootRetireRow (h : s₀.Keeps s) (why v row) : s₀.Keeps (s.bootRetireRow why v row) := by
  unfold State.bootRetireRow
  grind [retireRow, setYield]

theorem bootRetireVault (h : s₀.Keeps s) (why v) : s₀.Keeps (s.bootRetireVault why v) := by
  unfold State.bootRetireVault
  grind [setYield, retireVault]

theorem applyRecord (h : s₀.Keeps s) (r) : s₀.Keeps (s.applyRecord r) := by
  unfold State.applyRecord
  grind [bootRetireRow, bootRetireVault]

theorem execFwInit (log) {t : State} (e : execFwInit log s = .next t) (h : s₀.Keeps s) : s₀.Keeps t := by
  unfold Machine.execFwInit at e
  grind [retNote, applyRecord, toStage, Machine.next, upd, foldl, foldl₁]

theorem execMemTest (rows vaults) {t : State} (e : Machine.execMemTest rows vaults s = .next t) (h : s₀.Keeps s) :
    s₀.Keeps t := by
  unfold Machine.execMemTest at e
  refine of_ite e (fun e => of_next e h) fun e => of_next e (toStage (setF (foldl (foldl (upd ?_ ..) ?_ _) ?_ _) _ _) _)
  · exact ite ((h.bump _).setF _ _) h
  · exact fun _ h _ => ((h.bootRetireRow ..).bootRecord ..).upd ..
  · exact fun _ h _ => ((h.bootRetireVault ..).bootRecord ..).upd ..

theorem execInitFill {t : State} (e : Machine.execInitFill s = .next t) (h : s₀.Keeps s) : s₀.Keeps t := by
  unfold Machine.execInitFill at e
  refine of_ite e (fun e => of_next e h) fun e => of_next e ?_
  have hs : ∀ u, s₀.Keeps u → s₀.Keeps (if (u.segs.filter (fun x => x.1 == 2)).isEmpty then u.toStage 7 else u) :=
    fun _ h => ite (h.toStage _) h
  exact hs _ (toStage (foldl (h.upd ..) (fun _ h _ => ite h ((h.fillCounts _).setF _ _)) _) _)

theorem setReceiver (h : s₀.Keeps s) (i r) : s₀.Keeps (s.setReceiver i r) := by
  unfold State.setReceiver
  grind [upd]

theorem execRainfall (k) {t : State} (e : execRainfall k s = .next t) (h : s₀.Keeps s) : s₀.Keeps t := by
  unfold Machine.execRainfall at e
  grind [setF, toStage, Machine.next, upd]

theorem execRainfallPiece (i num full) {t : State} (e : execRainfallPiece i num full s = .next t) (h : s₀.Keeps s) :
    s₀.Keeps t := by
  unfold Machine.execRainfallPiece at e
  grind [setF, Machine.next, writeVault, setReceiver]

theorem fetchDone (h : s₀.Keeps s) : s₀.Keeps (s.fetchDone) := by
  unfold State.fetchDone
  grind [toStage]

theorem nextFetch (h : s₀.Keeps s) (i) : s₀.Keeps (s.nextFetch i) := by
  unfold State.nextFetch
  grind [incSat, fetchDone, setReceiver, upd]

theorem takeMarker (h : s₀.Keeps s) (i count) : s₀.Keeps (s.takeMarker i count) := by
  unfold State.takeMarker
  grind [nextFetch, setReceiver]

theorem execEndMarker (i count) {t : State} (e : execEndMarker i count s = .next t) (h : s₀.Keeps s) : s₀.Keeps t := by
  unfold Machine.execEndMarker at e
  grind [takeMarker, Machine.next]

theorem execEndMarkerTimeout (i) {t : State} (e : execEndMarkerTimeout i s = .next t) (h : s₀.Keeps s) :
    s₀.Keeps t := by
  unfold Machine.execEndMarkerTimeout at e
  grind [takeMarker, Machine.next]

theorem execSegmentFetch (reread) {t : State} (e : Machine.execSegmentFetch reread s = .next t) (h : s₀.Keeps s) :
    s₀.Keeps t := by
  unfold Machine.execSegmentFetch at e
  split at e
  · exact of_next e h
  dsimp only at e
  split at e
  · exact of_next e ((h.setReceiver ..).upd ..)
  split at e
  · exact of_next e h
  split at e
  · exact of_next e h
  · exact of_next e (h.bootFail _)
  · exact of_next e (((h.upd ..).setReceiver ..).upd ..)

theorem declareAbsent (h : s₀.Keeps s) (i) : s₀.Keeps (s.declareAbsent i) := by
  unfold State.declareAbsent
  grind [setF, bootRecord, setReceiver, upd]

theorem execFetchAttemptEnd (i answer) {t : State} (e : Machine.execFetchAttemptEnd i answer s = .next t)
    (h : s₀.Keeps s) : s₀.Keeps t := by
  unfold Machine.execFetchAttemptEnd at e
  dsimp only at e
  split at e
  · exact of_next e h
  refine of_ite e (fun e => of_next e h) fun e => ?_
  refine of_ite e (fun e => of_next e (((h.writeVault ..).setReceiver ..).nextFetch _)) fun e => ?_
  have hs := (h.incSat Reg.bootRain_fetch_failed 1)
  exact of_ite e (fun e => of_next e ((hs.upd ..).declareAbsent _).fetchDone)
    fun e => of_next e (((hs.upd ..).setReceiver ..).nextFetch _)

theorem execFetchStageTimeout {t : State} (e : execFetchStageTimeout s = .next t) (h : s₀.Keeps s) : s₀.Keeps t := by
  unfold Machine.execFetchStageTimeout at e
  grind [toStage, Machine.next, declareAbsent, foldl, foldl₁]

theorem execCoreTest (failed towers) {t : State} (e : execCoreTest failed towers s = .next t) (h : s₀.Keeps s) :
    s₀.Keeps t := by
  unfold Machine.execCoreTest at e
  grind [setF, toStage, bootRecord, Machine.next, upd, foldl, foldl₁]

theorem reconcileTower (h : s₀.Keeps s) (t) : s₀.Keeps (s.reconcileTower t) :=
  (((((((foldl h (fun _ h _ => ite ((h.setYield ..).setF ..) (h.setYield ..)) _).setF _ _).setF _ _).setF _ _).setF _
    _).setF
    _ _).setF _ _).setF _ _ |>.setF _ _

theorem writeLog (h : s₀.Keeps s) : s₀.Keeps (s.writeLog) := by
  unfold State.writeLog
  grind [retWrite, setF, upd]

theorem execReconcile {t : State} (e : execReconcile s = .next t) (h : s₀.Keeps s) : s₀.Keeps t := by
  unfold Machine.execReconcile at e
  grind [reconcileTower, setF, toStage, writeLog, Machine.next, foldl, foldl₁]

theorem execSvnArm {t : State} (e : execSvnArm s = .next t) (h : s₀.Keeps s) : s₀.Keeps t := by
  unfold Machine.execSvnArm at e
  grind [Machine.next, upd]

theorem execSvnCommit {t : State} (e : Machine.execSvnCommit s = .next t) (h : s₀.Keeps s) : s₀.Keeps t := by
  unfold Machine.execSvnCommit at e
  split at e
  · refine of_ite e (fun e => of_next e h) fun e => ?_
    refine of_ite e (fun e => of_next e (h.upd ..)) fun e => of_next e (setF ?_ _ _)
    refine ⟨h.regs, fun hf => ?_, h.now, h.pending⟩
    have hs := h.fuses hf
    refine ⟨hs.serial, Nat.le_trans hs.floor (Nat.le_max_left ..), ?_, hs.lic⟩
    exact land_lor_of_land hs.image _
  · exact of_next e h

theorem answerMessage (h : s₀.Keeps s) (bytes) : s₀.Keeps (s.answerMessage bytes) := by
  unfold State.answerMessage
  grind [inBand, emit]

theorem spdm (h : s₀.Keeps s) (answer) : s₀.Keeps (s.spdm answer) := by
  unfold State.spdm
  grind [answerMessage]

theorem execGetVersion (_request answer) {t : State} (e : execGetVersion _request answer s = .next t) (h : s₀.Keeps s) :
    s₀.Keeps t := by
  unfold Machine.execGetVersion at e
  grind [spdm, Machine.next]

theorem execGetCapabilities (_request answer) {t : State} (e : execGetCapabilities _request answer s = .next t)
    (h : s₀.Keeps s) :
    s₀.Keeps t := by
  unfold Machine.execGetCapabilities at e
  grind [spdm, Machine.next]

theorem execNegotiateAlgorithms (_request answer) {t : State} (e : execNegotiateAlgorithms _request answer s = .next
    t) (h : s₀.Keeps s) :
    s₀.Keeps t := by
  unfold Machine.execNegotiateAlgorithms at e
  grind [spdm, Machine.next]

theorem execGetDigests (_request answer) {t : State} (e : execGetDigests _request answer s = .next t) (h : s₀.Keeps s) :
    s₀.Keeps t := by
  unfold Machine.execGetDigests at e
  grind [spdm, Machine.next]

theorem execGetCertificate (_request answer) {t : State} (e : execGetCertificate _request answer s = .next t)
    (h : s₀.Keeps s) :
    s₀.Keeps t := by
  unfold Machine.execGetCertificate at e
  grind [spdm, Machine.next]

theorem execChallenge (_request answer) {t : State} (e : execChallenge _request answer s = .next t) (h : s₀.Keeps s) :
    s₀.Keeps t := by
  unfold Machine.execChallenge at e
  grind [spdm, Machine.next]

theorem execGetMeasurements (_request answer) {t : State} (e : execGetMeasurements _request answer s = .next t)
    (h : s₀.Keeps s) :
    s₀.Keeps t := by
  unfold Machine.execGetMeasurements at e
  grind [spdm, Machine.next, emit]

theorem execSpdmUnsupported (_request answer) {t : State} (e : execSpdmUnsupported _request answer s = .next t)
    (h : s₀.Keeps s) :
    s₀.Keeps t := by
  unfold Machine.execSpdmUnsupported at e
  grind [spdm, Machine.next]

theorem endInstall (h : s₀.Keeps s) (c st) : s₀.Keeps (s.endInstall c st) := by
  unfold State.endInstall
  grind [incSat, setF, done]

theorem execLicenceInstall (k data) {t : State} (e : Machine.execLicenceInstall k data s = .next t) (h : s₀.Keeps s) :
    s₀.Keeps t := by
  unfold Machine.execLicenceInstall at e
  refine of_ite e (fun e => of_next e h) fun e => of_next e (h.command _ _ fun s c h => ite (h.endInstall ..) ?_)
  have hr := h.hostRead data
  dsimp only
  split
  · exact (hr.hostRecord _).endInstall ..
  · refine ite ((hr.hostRecord _).endInstall ..) (ite (hr.endInstall ..) ?_)
    exact ite ((ite (hr.setF _ _) hr).endInstall ..) (((ite (hr.setF _ _) hr).upd ..).endInstall ..)

theorem execLicenceQuery (k) {t : State} (e : Machine.execLicenceQuery k s = .next t) (h : s₀.Keeps s) : s₀.Keeps t :=
    by
  unfold Machine.execLicenceQuery at e
  exact of_ite e (fun e => of_next e (h.command _ _ fun _ _ h => h.done ..)) fun e => of_next e h

end State.Keeps
end Sys2Proof.Machine
end

section
/-!
PROOF. What the operations of Machine/Debug keep.
-/
namespace Sys2Proof.Machine
namespace State.Keeps
variable {s₀ s t : State}

theorem execDbgStep (v) {t : State} (e : execDbgStep v s = .next t) (h : s₀.Keeps s) : s₀.Keeps t := by
  unfold Machine.execDbgStep at e
  grind [setF, resumeCore, setCore, Machine.next, upd]

theorem snapWrite (h : s₀.Keeps s) (cores) : s₀.Keeps (s.snapWrite cores) := by
  unfold State.snapWrite
  grind [bump, emit, foldl, foldl₁]

theorem execSnapshot (v writeOk) {t : State} (e : execSnapshot v writeOk s = .next t) (h : s₀.Keeps s) :
    s₀.Keeps t := by
  unfold Machine.execSnapshot at e
  grind [setF, snapWrite, Machine.next]

theorem execTraceRecord {t : State} (e : execTraceRecord s = .next t) (h : s₀.Keeps s) : s₀.Keeps t := by
  unfold Machine.execTraceRecord at e
  grind [incSat, Machine.next, upd]

theorem traceOut (a r) {t : State} (e : s.traceOut a r = some t) (h : s₀.Keeps s) : s₀.Keeps t := by
  unfold State.traceOut at e
  grind [writePieces, traceWritten, skyRange, sendWrites, addJob]

theorem execTraceWrite {t : State} (e : execTraceWrite s = .next t) (h : s₀.Keeps s) : s₀.Keeps t := by
  unfold Machine.execTraceWrite at e
  grind [setF, traceOut, Machine.next, upd]

theorem latchSum (h : s₀.Keeps s) (t1 k) : s₀.Keeps (s.latchSum t1 k) := by
  unfold State.latchSum
  grind [setF, upd, foldl₁]

theorem execTelemetryLatch {t : State} (e : execTelemetryLatch s = .next t) (h : s₀.Keeps s) : s₀.Keeps t := by
  unfold Machine.execTelemetryLatch at e
  grind [latchSum, Machine.next, upd, foldl, foldl₁]

theorem answerReading (h : s₀.Keeps s) (sensor v) : s₀.Keeps (s.answerReading sensor v) := by
  unfold State.answerReading
  grind [inBand, emit]

theorem execGetSensorReading (sensor) {t : State} (e : execGetSensorReading sensor s = .next t) (h : s₀.Keeps s) :
    s₀.Keeps t := by
  unfold Machine.execGetSensorReading at e
  grind [answerReading, Machine.next]

theorem execGetStateSensorReadings (sensor) {t : State} (e : execGetStateSensorReadings sensor s = .next t)
    (h : s₀.Keeps s) :
    s₀.Keeps t := by
  unfold Machine.execGetStateSensorReadings at e
  grind [answerReading, Machine.next]

theorem execSetdasa (addr) {t : State} (e : execSetdasa addr s = .next t) (h : s₀.Keeps s) : s₀.Keeps t := by
  unfold Machine.execSetdasa at e
  grind [Machine.next, upd]

end State.Keeps
end Sys2Proof.Machine
end

section
/-!
PROOF. What the operations of Machine/Bar keep.
-/
namespace Sys2Proof.Machine
namespace State.Keeps
variable {s₀ s t : State}

theorem after (h : s₀.Keeps s) {f : State → Host.Outcome State Fault Refusal}
    (hf : ∀ t, f s = .next t → s₀.Keeps t) : s₀.Keeps (Machine.after s f) := by
  unfold Machine.after
  split
  · exact hf _ ‹_›
  · exact h

theorem ifBit (h : s₀.Keeps s) (v n) {f : State → Host.Outcome State Fault Refusal}
    (hf : ∀ s t, f s = .next t → s₀.Keeps s → s₀.Keeps t) : s₀.Keeps (s.ifBit v n f) :=
  ite (after h fun _ e => hf _ _ e h) h

theorem armRas (h : s₀.Keeps s) : s₀.Keeps (s.armRas) := by
  unfold State.armRas
  grind [usedInject, record, setCore, upd]

theorem forcedBroken {u : State} (hu : s₀.Keeps u) : s₀.Keeps (s.forcedBroken u) := by
  unfold State.forcedBroken
  grind [ptmRecord]

theorem writeTraceCtrl (h : s₀.Keeps s) (v) : s₀.Keeps (s.writeTraceCtrl v) := by
  unfold State.writeTraceCtrl
  grind [setF, upd]

theorem writeRingCfg (h : s₀.Keeps s) (event r v) : s₀.Keeps (s.writeRingCfg event r v) := by
  unfold State.writeRingCfg
  grind [setF, execRingEnableWrite, after]

theorem writeOwn (b i l v) {t : State} (e : s.writeOwn b i l v = some t) (h : s₀.Keeps s) : s₀.Keeps t := by
  unfold State.writeOwn at e
  grind [execPortEnableWrite, execRoutingEntryWrite, execVltMapWrite, execSkyCtrlEnableWrite, execSnapshot, setF,
    execDbgStep, execRawAccess, execDlkLinkRetrain, execSqOpenWrite, writeRingCfg, relevel, execPortRetrain,
    execPfxReclaimRelease, writeTraceCtrl, execForceDown, after, execVltRetire, ifBit, execSkyCreditWrite,
    execSkyNodeWrite, execBlockResetGo]

theorem writeActs {u : State} (hu : s₀.Keeps u) (b i l v) : s₀.Keeps (s.writeActs u b i l v) := by
  unfold State.writeActs
  grind [forcedBroken, execVltInit, execScrubStart, setF, execVltHold, execComputeGo, execSvnArm, execRetireVault,
    execFullGo, execScrubAbort, execCoreCtrlResume, showCap, execCrashRelease, execSvnCommit, execFullArm,
    execCoreCtrlStart, execSensorRearm, execCoreCtrlStop, after, ifBit, armRas]

theorem writeReg (h : s₀.Keeps s) (b i l a d m v) : s₀.Keeps (s.writeReg b i l a d m v) := by
  unfold State.writeReg
  grind [setReg, setF, writeActs, writeOwn, foldl, foldl₁]

theorem writeWindow (h : s₀.Keeps s) (b l n v) : s₀.Keeps (s.writeWindow b l n v) := by
  unfold State.writeWindow
  grind [retWrite]

theorem write32 (h : s₀.Keeps s) (a v) : s₀.Keeps (s.write32 a v) := by
  unfold State.write32
  grind [writeWindow, writeReg, upd]

theorem write64 (h : s₀.Keeps s) (a v) : s₀.Keeps (s.write64 a v) := by
  unfold State.write64
  grind [write32, writeWindow, writeReg, upd]

theorem badAccess (h : s₀.Keeps s) (off) : s₀.Keeps (s.badAccess off) := by
  unfold State.badAccess
  grind [incSat, hifFirst]

theorem barWrite (h : s₀.Keeps s) (off wide v) : s₀.Keeps (s.barWrite off wide v) := by
  unfold State.barWrite
  grind [write32, badAccess, write64]

theorem barRead (h : s₀.Keeps s) (a) : s₀.Keeps (s.barRead a).1 := by
  unfold State.barRead
  grind [badAccess, retNote, upd]

theorem execRegisterWrite (off wide v) {t : State} (e : execRegisterWrite off wide v s = .next t) (h : s₀.Keeps s) :
    s₀.Keeps t := by
  unfold Machine.execRegisterWrite at e
  grind [Machine.next, barWrite]

theorem execBar0BadAccess (isWrite off size) {t : State} (e : execBar0BadAccess isWrite off size s = .next t)
    (h : s₀.Keeps s) :
    s₀.Keeps t := by
  unfold Machine.execBar0BadAccess at e
  grind [badAccess, Machine.next, emit]

theorem regAnswer (h : s₀.Keeps s) (k q v st) : s₀.Keeps (s.regAnswer k q v st) := by
  unfold State.regAnswer
  grind [sendSpray]

theorem regStatus (h : s₀.Keeps s) (k q st) : s₀.Keeps (s.regStatus k q st) := by
  unfold State.regStatus
  grind [bump, regAnswer]

theorem regReadPkt (h : s₀.Keeps s) (t1 q k) : s₀.Keeps (s.regReadPkt t1 q k) := by
  unfold State.regReadPkt
  grind [regAnswer, regStatus, barRead]

theorem regWritePkt (h : s₀.Keeps s) (t1 q k) : s₀.Keeps (s.regWritePkt t1 q k) := by
  unfold State.regWritePkt
  grind [barWrite, regStatus]

theorem unmapped (h : s₀.Keeps s) (off) : s₀.Keeps (s.unmapped off) := by
  unfold State.unmapped
  grind [incSat, hifFirst]

theorem execSkyWindowRead (off len) {t : State} (e : execSkyWindowRead off len s = .next t) (h : s₀.Keeps s) :
    s₀.Keeps t := by
  unfold Machine.execSkyWindowRead at e
  grind [unmapped, endHostRead, sendReads, skyRange, readPieces, Machine.next, addJob, emit, foldl, foldl₁]

theorem execSkyWindowWrite (off data) {t : State} (e : execSkyWindowWrite off data s = .next t) (h : s₀.Keeps s) :
    s₀.Keeps t := by
  unfold Machine.execSkyWindowWrite at e
  grind [unmapped, writePieces, skyRange, sendWrites, Machine.next, endHostWrite, addJob]

theorem readLost (h : s₀.Keeps s) (bar off len) : s₀.Keeps (s.readLost bar off len) := by
  unfold State.readLost
  grind [incSat, hifFirst, emit]

theorem execBarReadTimeout (bar4 off) {t : State} (e : execBarReadTimeout bar4 off s = .next t) (h : s₀.Keeps s) :
    s₀.Keeps t := by
  unfold Machine.execBarReadTimeout at e
  grind [readLost, dropJob, Machine.next]

end State.Keeps
end Sys2Proof.Machine
end

section
/-!
PROOF. What the operations of Machine/Mxa keep.
-/
namespace Sys2Proof.Machine
namespace State.Keeps
variable {s₀ s t : State}

theorem mxaFlags (h : s₀.Keeps s) (i f) : s₀.Keeps (s.mxaFlags i f) := by
  unfold State.mxaFlags
  grind [setF]

theorem mxaShow (h : s₀.Keeps s) (i) : s₀.Keeps (s.mxaShow i) := by
  unfold State.mxaShow
  grind [setF]

theorem mxaRetire (h : s₀.Keeps s) (i k) : s₀.Keeps (s.mxaRetire i k) := by
  induction k generalizing s with
  | zero => exact h
  | succ k ih =>
    unfold State.mxaRetire
    dsimp only
    split
    · exact h
    · refine ite h (ih ?_)
      split
      · exact (h.setCore ..).endJob ..
      · exact h.setCore ..

theorem mxaQueue (h : s₀.Keeps s) (i w e1 dests tiles) : s₀.Keeps (s.mxaQueue i w e1 dests tiles) := by
  unfold State.mxaQueue
  grind [setCore, mxaShow, addJob]

theorem mmaRun (i w f g) {r} (e : mmaRun i w f g s = some r) (h : s₀.Keeps s) : s₀.Keeps r.1 := by
  unfold Machine.mmaRun at e
  grind [bump, mxaQueue, readScratch, setCore]

theorem mmaRefuse (i w) {r} (e : mmaRefuse i w s = some r) (h : s₀.Keeps s) : s₀.Keeps r.1 := by
  unfold Machine.mmaRefuse at e
  grind [mxaQueue, Machine.refuse]

theorem execMma (i w) {t : State} (e : execMma i w s = .next t) (h : s₀.Keeps s) : s₀.Keeps t := by
  refine of_next e (h.issue _ _ _ _ fun s r h e => ?_)
  dsimp only at e
  repeat' split at e
  all_goals grind [mmaRefuse, mmaRun]

theorem drainRow (h : s₀.Keeps s) (i late) : s₀.Keeps (s.drainRow i late) := by
  unfold State.drainRow
  dsimp only
  split
  · exact h
  split
  · exact h.setCore ..
  split
  · exact h
  refine ite h ?_
  split
  · exact h.setCore ..
  · exact (h.setCore ..).writeScratch ..

theorem mxaRaise (h : s₀.Keeps s) (i e1) : s₀.Keeps (s.mxaRaise i e1) := by
  unfold State.mxaRaise
  grind [setF, mxaFlags]

theorem heldShow (h : s₀.Keeps s) (i a start) : s₀.Keeps (s.heldShow i a start) := by
  unfold State.heldShow
  grind [setF]

theorem arrayCycle (h : s₀.Keeps s) (i x) : s₀.Keeps (s.arrayCycle i x) := by
  unfold State.arrayCycle
  extract_lets p s a filler stepped out b b₁ c s₁ s₂ s₃ s₄ s₅ s₆ s₇ s₈ s₉ s₁₀
  have h₁ : s₀.Keeps s₁ := (h.drainRow ..).setCore ..
  have h₂ : s₀.Keeps s₂ := ite h₁ (h₁.heldShow ..)
  have h₃ : s₀.Keeps s₃ := by
    unfold s₃
    split
    · exact ite (h₂.mxaRaise ..) h₂
    · exact h₂
  have h₄ : s₀.Keeps s₄ := ite (h₃.incWrap ..) h₃
  have h₅ : s₀.Keeps s₅ := ite (h₄.incWrap ..) h₄
  have h₆ : s₀.Keeps s₆ := ite (h₅.incSat ..) h₅
  have h₇ : s₀.Keeps s₇ := ite (h₆.incSat ..) h₆
  have h₈ : s₀.Keeps s₈ := ite (h₇.incSat ..) h₇
  exact ((h₈.setF ..).mxaRetire ..).mxaShow _

theorem arrayUntil (i hit) (xs : List ArrayCycle) : ∀ {s : State} {t} (_ : s.arrayUntil i hit xs = some t)
    (_ : s₀.Keeps s),
    s₀.Keeps t := by
  induction xs with
  | nil => exact fun e _ => by cases e
  | cons x xs ih =>
    intro s t e h
    unfold State.arrayUntil at e
    exact of_ite e (fun e => by cases e; exact h.arrayCycle ..) fun e => ih e (h.arrayCycle ..)

theorem arrayEvent (i hit cycles) {t : State} (e : Machine.arrayEvent i hit cycles s = .next t) (h : s₀.Keeps s) :
    s₀.Keeps t := by
  refine of_next e ?_
  cases hu : s.arrayUntil i hit cycles with
  | none => exact h
  | some t => exact arrayUntil _ _ _ hu h

theorem execMmaFirstStep (i feed shadow scale drain) {t : State} (e : execMmaFirstStep i feed shadow scale drain s =
    .next t) (h : s₀.Keeps s) :
    s₀.Keeps t := by
  unfold Machine.execMmaFirstStep at e
  grind [arrayEvent]

theorem execFillerWindowEnd (r) {t : State} (e : execFillerWindowEnd r s = .next t) (h : s₀.Keeps s) : s₀.Keeps t := by
  unfold Machine.execFillerWindowEnd at e
  grind [arrayEvent]

theorem execFillerLeadEnd (r) {t : State} (e : execFillerLeadEnd r s = .next t) (h : s₀.Keeps s) : s₀.Keeps t := by
  unfold Machine.execFillerLeadEnd at e
  grind [arrayEvent]

theorem arrays (h : s₀.Keeps s) : s₀.Keeps (s.arrays) := by
  unfold State.arrays
  grind [arrayCycle, foldl]

end State.Keeps
end Sys2Proof.Machine
end

section
/-!
PROOF. What the operations of Machine/Packets keep.
-/
namespace Sys2Proof.Machine
namespace State.Keeps
variable {s₀ s t : State}

theorem deliverPkt (h : s₀.Keeps s) (t1 q k bad) : s₀.Keeps (s.deliverPkt t1 q k bad) := by
  unfold State.deliverPkt
  grind [readPkt, refusedPkt, noticePkt, watchAckPkt, admittedPkt, pongPkt, readDataPkt, admitPkt, pingPkt,
    regDataPkt, atomicOldPkt, acceptedPkt, discard, writePkt, statePkt, writeAckPkt, atomicPkt, watchCancelPkt,
    abandonPkt, watchArmPkt, regWritePkt, dataPkt, regReadPkt]

theorem land (h : s₀.Keeps s) (x) : s₀.Keeps (s.land x) := by
  unfold State.land
  grind [refusedPkt, deliverPkt, refusePkt]

theorem landAll (k) : ∀ {s : State} (_ : s₀.Keeps s), s₀.Keeps (State.landAll k s) := by
  induction k with
  | zero => exact fun h => h
  | succ k ih =>
    intro s h
    unfold State.landAll
    split
    · exact h
    · exact ih ((h.upd ..).land _)

theorem forward (h : s₀.Keeps s) (t1 k back) : s₀.Keeps (s.forward t1 k back) := by
  unfold State.forward
  grind [cross, bounce, freeRx]

theorem takeIn (h : s₀.Keeps s) (t1 p e1) : s₀.Keeps (s.takeIn t1 p e1) := by
  unfold State.takeIn
  grind [cross, setPort, outlived, discard, forward, freeRx]

theorem meshRun (t k) : ∀ {s : State} (_ : s₀.Keeps s), s₀.Keeps (State.meshRun t k s) := by
  induction k with
  | zero => exact fun h => h
  | succ k ih =>
    intro s h
    unfold State.meshRun
    split
    · exact h
    · exact ih ((h.setTower ..).takeIn ..)

theorem fabricOn (h : s₀.Keeps s) : s₀.Keeps s.fabricOn :=
  landAll _ (foldl h (fun _ h _ => meshRun _ _ h) _).pump

theorem receive (h : s₀.Keeps s) (t1 p k bad) : s₀.Keeps (s.receive t1 p k bad) := by
  unfold State.receive
  grind [setPort, fabricOn]

theorem packetIn (h : s₀.Keeps s) (t1 p k cls op bad) : s₀.Keeps (s.packetIn t1 p k cls op bad) := by
  unfold State.packetIn
  grind [receive]

theorem fabricTicks (h : s₀.Keeps s) : s₀.Keeps (s.fabricTicks) := by
  unfold State.fabricTicks
  grind [idleFlit, fabricOn, foldl, foldl₁]

theorem execRead (t1 p k) {t : State} (e : execRead t1 p k s = .next t) (h : s₀.Keeps s) : s₀.Keeps t := by
  unfold Machine.execRead at e
  grind [Machine.next, packetIn]

theorem execWrite (t1 p k) {t : State} (e : execWrite t1 p k s = .next t) (h : s₀.Keeps s) : s₀.Keeps t := by
  unfold Machine.execWrite at e
  grind [Machine.next, packetIn]

theorem execAtomic (t1 p k) {t : State} (e : execAtomic t1 p k s = .next t) (h : s₀.Keeps s) : s₀.Keeps t := by
  unfold Machine.execAtomic at e
  grind [Machine.next, packetIn]

theorem execWatchArm (t1 p k) {t : State} (e : execWatchArm t1 p k s = .next t) (h : s₀.Keeps s) : s₀.Keeps t := by
  unfold Machine.execWatchArm at e
  grind [Machine.next, packetIn]

theorem execWatchCancel (t1 p k) {t : State} (e : execWatchCancel t1 p k s = .next t) (h : s₀.Keeps s) :
    s₀.Keeps t := by
  unfold Machine.execWatchCancel at e
  grind [Machine.next, packetIn]

theorem execReadData (t1 p k) {t : State} (e : execReadData t1 p k s = .next t) (h : s₀.Keeps s) : s₀.Keeps t := by
  unfold Machine.execReadData at e
  grind [Machine.next, packetIn]

theorem execWriteAck (t1 p k) {t : State} (e : execWriteAck t1 p k s = .next t) (h : s₀.Keeps s) : s₀.Keeps t := by
  unfold Machine.execWriteAck at e
  grind [Machine.next, packetIn]

theorem execAtomicOld (t1 p k) {t : State} (e : execAtomicOld t1 p k s = .next t) (h : s₀.Keeps s) : s₀.Keeps t := by
  unfold Machine.execAtomicOld at e
  grind [Machine.next, packetIn]

theorem execWatchAck (t1 p k) {t : State} (e : execWatchAck t1 p k s = .next t) (h : s₀.Keeps s) : s₀.Keeps t := by
  unfold Machine.execWatchAck at e
  grind [Machine.next, packetIn]

theorem execRefuse (t1 p k) {t : State} (e : execRefuse t1 p k s = .next t) (h : s₀.Keeps s) : s₀.Keeps t := by
  unfold Machine.execRefuse at e
  grind [Machine.next, packetIn]

theorem execAdmitted (t1 p k) {t : State} (e : execAdmitted t1 p k s = .next t) (h : s₀.Keeps s) : s₀.Keeps t := by
  unfold Machine.execAdmitted at e
  grind [Machine.next, packetIn]

theorem execAccepted (t1 p k) {t : State} (e : execAccepted t1 p k s = .next t) (h : s₀.Keeps s) : s₀.Keeps t := by
  unfold Machine.execAccepted at e
  grind [Machine.next, packetIn]

theorem execAdmit (t1 p k) {t : State} (e : execAdmit t1 p k s = .next t) (h : s₀.Keeps s) : s₀.Keeps t := by
  unfold Machine.execAdmit at e
  grind [Machine.next, packetIn]

theorem execAbandon (t1 p k) {t : State} (e : execAbandon t1 p k s = .next t) (h : s₀.Keeps s) : s₀.Keeps t := by
  unfold Machine.execAbandon at e
  grind [Machine.next, packetIn]

theorem execPing (t1 p k) {t : State} (e : execPing t1 p k s = .next t) (h : s₀.Keeps s) : s₀.Keeps t := by
  unfold Machine.execPing at e
  grind [Machine.next, packetIn]

theorem execPong (t1 p k) {t : State} (e : execPong t1 p k s = .next t) (h : s₀.Keeps s) : s₀.Keeps t := by
  unfold Machine.execPong at e
  grind [Machine.next, packetIn]

theorem execStateMgt (t1 p k) {t : State} (e : execStateMgt t1 p k s = .next t) (h : s₀.Keeps s) : s₀.Keeps t := by
  unfold Machine.execStateMgt at e
  grind [Machine.next, packetIn]

theorem execRegRead (t1 p k) {t : State} (e : execRegRead t1 p k s = .next t) (h : s₀.Keeps s) : s₀.Keeps t := by
  unfold Machine.execRegRead at e
  grind [Machine.next, packetIn]

theorem execRegWrite (t1 p k) {t : State} (e : execRegWrite t1 p k s = .next t) (h : s₀.Keeps s) : s₀.Keeps t := by
  unfold Machine.execRegWrite at e
  grind [Machine.next, packetIn]

theorem execRegData (t1 p k) {t : State} (e : execRegData t1 p k s = .next t) (h : s₀.Keeps s) : s₀.Keeps t := by
  unfold Machine.execRegData at e
  grind [Machine.next, packetIn]

theorem execDataTok (t1 p k) {t : State} (e : execDataTok t1 p k s = .next t) (h : s₀.Keeps s) : s₀.Keeps t := by
  unfold Machine.execDataTok at e
  grind [Machine.next, packetIn]

theorem execNotice (i n) {t : State} (e : execNotice i n s = .next t) (h : s₀.Keeps s) : s₀.Keeps t := by
  unfold Machine.execNotice at e
  grind [noticeHere, Machine.next, packetIn]

theorem execFabricReservedPacket (t1 p k) {t : State} (e : execFabricReservedPacket t1 p k s = .next t)
    (h : s₀.Keeps s) :
    s₀.Keeps t := by
  unfold Machine.execFabricReservedPacket at e
  grind [receive, Machine.next]

theorem execPacketForward (t1 p k) {t : State} (e : execPacketForward t1 p k s = .next t) (h : s₀.Keeps s) :
    s₀.Keeps t := by
  unfold Machine.execPacketForward at e
  grind [receive, Machine.next]

end State.Keeps
end Sys2Proof.Machine
end

section
/-!
PROOF. What the operations of Machine/Tle keep.
-/
namespace Sys2Proof.Machine
namespace State.Keeps
variable {s₀ s t : State}

theorem tleFlags (h : s₀.Keeps s) (i f) : s₀.Keeps (s.tleFlags i f) := by
  unfold State.tleFlags
  grind [setF]

theorem tleEnd (h : s₀.Keeps s) (i cycles o) : s₀.Keeps (s.tleEnd i cycles o) :=
  ((((((h.setCore ..).bump _).tleFlags ..).setF ..).incWrap ..).incWrap ..).incWrap ..

theorem tleA (h : s₀.Keeps s) (i w op fields ok cycles f) : s₀.Keeps (s.tleA i w op fields ok cycles f) := by
  unfold State.tleA
  grind [issue, tleEnd, Machine.refuse]

theorem execTleMov (i w) {t : State} (e : execTleMov i w s = .next t) (h : s₀.Keeps s) : s₀.Keeps t := by
  unfold Machine.execTleMov at e
  grind [Machine.next, tleA]

theorem execAdd (i w) {t : State} (e : execAdd i w s = .next t) (h : s₀.Keeps s) : s₀.Keeps t := by
  unfold Machine.execAdd at e
  grind [Machine.next, tleA]

theorem execSub (i w) {t : State} (e : execSub i w s = .next t) (h : s₀.Keeps s) : s₀.Keeps t := by
  unfold Machine.execSub at e
  grind [Machine.next, tleA]

theorem execMul (i w) {t : State} (e : execMul i w s = .next t) (h : s₀.Keeps s) : s₀.Keeps t := by
  unfold Machine.execMul at e
  grind [Machine.next, tleA]

theorem execFma (i w) {t : State} (e : execFma i w s = .next t) (h : s₀.Keeps s) : s₀.Keeps t := by
  unfold Machine.execFma at e
  grind [Machine.next, tleA]

theorem execDiv (i w) {t : State} (e : execDiv i w s = .next t) (h : s₀.Keeps s) : s₀.Keeps t := by
  unfold Machine.execDiv at e
  grind [Machine.next, tleA]

theorem execMinT (i w) {t : State} (e : execMinT i w s = .next t) (h : s₀.Keeps s) : s₀.Keeps t := by
  unfold Machine.execMinT at e
  grind [Machine.next, tleA]

theorem execMaxT (i w) {t : State} (e : execMaxT i w s = .next t) (h : s₀.Keeps s) : s₀.Keeps t := by
  unfold Machine.execMaxT at e
  grind [Machine.next, tleA]

theorem execAbsT (i w) {t : State} (e : execAbsT i w s = .next t) (h : s₀.Keeps s) : s₀.Keeps t := by
  unfold Machine.execAbsT at e
  grind [Machine.next, tleA]

theorem execNeg (i w) {t : State} (e : execNeg i w s = .next t) (h : s₀.Keeps s) : s₀.Keeps t := by
  unfold Machine.execNeg at e
  grind [Machine.next, tleA]

theorem execAndT (i w) {t : State} (e : execAndT i w s = .next t) (h : s₀.Keeps s) : s₀.Keeps t := by
  unfold Machine.execAndT at e
  grind [Machine.next, tleA]

theorem execOrT (i w) {t : State} (e : execOrT i w s = .next t) (h : s₀.Keeps s) : s₀.Keeps t := by
  unfold Machine.execOrT at e
  grind [Machine.next, tleA]

theorem execXor (i w) {t : State} (e : execXor i w s = .next t) (h : s₀.Keeps s) : s₀.Keeps t := by
  unfold Machine.execXor at e
  grind [Machine.next, tleA]

theorem execShl (i w) {t : State} (e : execShl i w s = .next t) (h : s₀.Keeps s) : s₀.Keeps t := by
  unfold Machine.execShl at e
  grind [Machine.next, tleA]

theorem execShrl (i w) {t : State} (e : execShrl i w s = .next t) (h : s₀.Keeps s) : s₀.Keeps t := by
  unfold Machine.execShrl at e
  grind [Machine.next, tleA]

theorem execShra (i w) {t : State} (e : execShra i w s = .next t) (h : s₀.Keeps s) : s₀.Keeps t := by
  unfold Machine.execShra at e
  grind [Machine.next, tleA]

theorem execSel (i w) {t : State} (e : execSel i w s = .next t) (h : s₀.Keeps s) : s₀.Keeps t := by
  unfold Machine.execSel at e
  grind [Machine.next, tleA]

theorem execCvt (i w) {t : State} (e : execCvt i w s = .next t) (h : s₀.Keeps s) : s₀.Keeps t := by
  unfold Machine.execCvt at e
  grind [Machine.next, tleA]

theorem execRnd (i w) {t : State} (e : execRnd i w s = .next t) (h : s₀.Keeps s) : s₀.Keeps t := by
  unfold Machine.execRnd at e
  grind [Machine.next, tleA]

theorem execExp2 (i w) {t : State} (e : execExp2 i w s = .next t) (h : s₀.Keeps s) : s₀.Keeps t := by
  unfold Machine.execExp2 at e
  grind [Machine.next, tleA]

theorem execExpT (i w) {t : State} (e : execExpT i w s = .next t) (h : s₀.Keeps s) : s₀.Keeps t := by
  unfold Machine.execExpT at e
  grind [Machine.next, tleA]

theorem execLog2 (i w) {t : State} (e : execLog2 i w s = .next t) (h : s₀.Keeps s) : s₀.Keeps t := by
  unfold Machine.execLog2 at e
  grind [Machine.next, tleA]

theorem execLn (i w) {t : State} (e : execLn i w s = .next t) (h : s₀.Keeps s) : s₀.Keeps t := by
  unfold Machine.execLn at e
  grind [Machine.next, tleA]

theorem execRcp (i w) {t : State} (e : execRcp i w s = .next t) (h : s₀.Keeps s) : s₀.Keeps t := by
  unfold Machine.execRcp at e
  grind [Machine.next, tleA]

theorem execSqrt (i w) {t : State} (e : execSqrt i w s = .next t) (h : s₀.Keeps s) : s₀.Keeps t := by
  unfold Machine.execSqrt at e
  grind [Machine.next, tleA]

theorem execRsqrt (i w) {t : State} (e : execRsqrt i w s = .next t) (h : s₀.Keeps s) : s₀.Keeps t := by
  unfold Machine.execRsqrt at e
  grind [Machine.next, tleA]

theorem execSigmoid (i w) {t : State} (e : execSigmoid i w s = .next t) (h : s₀.Keeps s) : s₀.Keeps t := by
  unfold Machine.execSigmoid at e
  grind [Machine.next, tleA]

theorem execTanh (i w) {t : State} (e : execTanh i w s = .next t) (h : s₀.Keeps s) : s₀.Keeps t := by
  unfold Machine.execTanh at e
  grind [Machine.next, tleA]

theorem execSilu (i w) {t : State} (e : execSilu i w s = .next t) (h : s₀.Keeps s) : s₀.Keeps t := by
  unfold Machine.execSilu at e
  grind [Machine.next, tleA]

theorem execRsum (i w) {t : State} (e : execRsum i w s = .next t) (h : s₀.Keeps s) : s₀.Keeps t := by
  unfold Machine.execRsum at e
  grind [Machine.next, tleA]

theorem execRmax (i w) {t : State} (e : execRmax i w s = .next t) (h : s₀.Keeps s) : s₀.Keeps t := by
  unfold Machine.execRmax at e
  grind [Machine.next, tleA]

theorem execRmin (i w) {t : State} (e : execRmin i w s = .next t) (h : s₀.Keeps s) : s₀.Keeps t := by
  unfold Machine.execRmin at e
  grind [Machine.next, tleA]

theorem execCsum (i w) {t : State} (e : execCsum i w s = .next t) (h : s₀.Keeps s) : s₀.Keeps t := by
  unfold Machine.execCsum at e
  grind [Machine.next, tleA]

theorem execCmax (i w) {t : State} (e : execCmax i w s = .next t) (h : s₀.Keeps s) : s₀.Keeps t := by
  unfold Machine.execCmax at e
  grind [Machine.next, tleA]

theorem execCmin (i w) {t : State} (e : execCmin i w s = .next t) (h : s₀.Keeps s) : s₀.Keeps t := by
  unfold Machine.execCmin at e
  grind [Machine.next, tleA]

theorem execTrn (i w) {t : State} (e : execTrn i w s = .next t) (h : s₀.Keeps s) : s₀.Keeps t := by
  unfold Machine.execTrn at e
  grind [Machine.next, tleA]

theorem execCmp (i w) {t : State} (e : execCmp i w s = .next t) (h : s₀.Keeps s) : s₀.Keeps t := by
  unfold Machine.execCmp at e
  grind [Machine.next, tleA]

theorem execTopk (i w) {t : State} (e : execTopk i w s = .next t) (h : s₀.Keeps s) : s₀.Keeps t := by
  unfold Machine.execTopk at e
  grind [Machine.next, tleA]

theorem execCmpr (i w) {t : State} (e : execCmpr i w s = .next t) (h : s₀.Keeps s) : s₀.Keeps t := by
  unfold Machine.execCmpr at e
  grind [Machine.next, tleA]

theorem execExpr (i w) {t : State} (e : execExpr i w s = .next t) (h : s₀.Keeps s) : s₀.Keeps t := by
  unfold Machine.execExpr at e
  grind [Machine.next, tleA]

theorem execTmm (i w) {t : State} (e : execTmm i w s = .next t) (h : s₀.Keeps s) : s₀.Keeps t := by
  unfold Machine.execTmm at e
  grind [Machine.next, tleA]

theorem execKlogic (i w) {t : State} (e : execKlogic i w s = .next t) (h : s₀.Keeps s) : s₀.Keeps t := by
  refine of_next e (h.issue _ _ _ _ fun s r h e => ?_)
  dsimp only at e
  repeat' split at e
  all_goals grind [tleEnd, refuse]

theorem execFlags (i w) {t : State} (e : execFlags i w s = .next t) (h : s₀.Keeps s) : s₀.Keeps t := by
  refine of_next e (h.issue _ _ _ _ fun s r h e => ?_)
  dsimp only at e
  repeat' split at e
  all_goals grind [tleEnd, refuse]

theorem readRows (h : s₀.Keeps s) (i b k) : s₀.Keeps (s.readRows i b k).1 := by
  unfold State.readRows
  grind [readScratch, foldl₁]

theorem execTld (i w) {t : State} (e : execTld i w s = .next t) (h : s₀.Keeps s) : s₀.Keeps t := by
  refine of_next e (h.issue _ _ _ _ fun s r h e => ?_)
  dsimp only at e
  repeat' split at e
  all_goals grind [readRows, tleEnd, refuse]

theorem writeRow (h : s₀.Keeps s) (i a rowBytes w es) : s₀.Keeps (s.writeRow i a rowBytes w es) := by
  unfold State.writeRow
  grind [readScratch, writeScratch, foldl, foldl₁]

theorem layB_noteStore (h : s₀.Keeps s) (b i) : s₀.Keeps (LayB.noteStore b i s) := by
  unfold Machine.LayB.noteStore
  grind [touched, foldl]

theorem execTst (i w) {t : State} (e : Machine.execTst i w s = .next t) (h : s₀.Keeps s) : s₀.Keeps t := by
  refine of_next e (h.issue _ _ _ _ fun s r h e => ?_)
  refine of_ite e (fun e => refuse e h) fun e => ?_
  refine of_ite e (fun e => by cases e) fun e => ?_
  dsimp only at e
  generalize hz : List.foldl _ _ _ = z at e
  have hk : s₀.Keeps z.1 := hz ▸ foldl₁ (p := (_, _)) (h.layB_noteStore ..) (fun z r y h ey => by
    subst ey
    refine writeRow ?_ ..
    split
    · exact writeScratch (ite_of (β := State × PByte) Prod.fst (h.readScratch ..) h) ..
    · exact ite_of (β := State × PByte) Prod.fst (h.readScratch ..) h) _
  cases e
  exact hk.tleEnd ..

theorem execKld (i w) {t : State} (e : execKld i w s = .next t) (h : s₀.Keeps s) : s₀.Keeps t := by
  refine of_next e (h.issue _ _ _ _ fun s r h e => ?_)
  dsimp only at e
  repeat' split at e
  all_goals grind [readScratch, tleEnd, refuse]

theorem execKst (i w) {t : State} (e : execKst i w s = .next t) (h : s₀.Keeps s) : s₀.Keeps t := by
  refine of_next e (h.issue _ _ _ _ fun s r h e => ?_)
  dsimp only at e
  repeat' split at e
  all_goals grind [tleEnd, refuse, writeScratch]

theorem execCmps (i w) {t : State} (e : execCmps i w s = .next t) (h : s₀.Keeps s) : s₀.Keeps t := by
  refine of_next e (h.issue _ _ _ _ fun s r h e => ?_)
  dsimp only at e
  repeat' split at e
  all_goals grind [touched, readScratch, tleEnd, refuse, writeScratch]

theorem execExps (i w) {t : State} (e : execExps i w s = .next t) (h : s₀.Keeps s) : s₀.Keeps t := by
  refine of_next e (h.issue _ _ _ _ fun s r h e => ?_)
  dsimp only at e
  repeat' split at e
  all_goals grind [readScratch, tleEnd, refuse]

theorem at_now (h : s.Keeps t) : ({ s with now := t.now } : State).Keeps t := h.now ▸ h

end State.Keeps
end Sys2Proof.Machine
end

section
/-!
PROOF. What the operations of Machine/Dispatch keep.
-/
namespace Sys2Proof.Machine
namespace State.Keeps
variable {s₀ s t : State}

/-- What a command's effect keeps. -/
theorem exec (c : Instr) {t : State} (e : Machine.exec c s = .next t) : ({ s with now := t.now } : State).Keeps t := by
  cases c with
  | nop _ _ => exact at_now (execNop _ _ e (refl s))
  | endStream _ _ => exact at_now (execEndStream _ _ e (refl s))
  | fence _ _ => exact at_now (execFence _ _ e (refl s))
  | signal _ _ => exact at_now (execSignal _ _ e (refl s))
  | wait _ _ => exact at_now (execWait _ _ e (refl s))
  | repeatImm _ _ => exact at_now (execRepeatImm _ _ e (refl s))
  | repeatInd _ _ => exact at_now (execRepeatInd _ _ e (refl s))
  | agsetBase _ _ => exact at_now (execAgsetBase _ _ e (refl s))
  | agsetStride _ _ => exact at_now (execAgsetStride _ _ e (refl s))
  | agadd _ _ => exact at_now (execAgadd _ _ e (refl s))
  | tick _ _ => exact at_now (execTick _ _ e (refl s))
  | notify _ _ => exact at_now (execNotify _ _ e (refl s))
  | reservedOpcode _ _ => exact at_now (execReservedOpcode _ _ e (refl s))
  | movLoad _ _ => exact at_now (execMovLoad _ _ e (refl s))
  | movStore _ _ => exact at_now (execMovStore _ _ e (refl s))
  | movCopy _ _ => exact at_now (execMovCopy _ _ e (refl s))
  | loadN _ _ => exact at_now (execLoadN _ _ e (refl s))
  | storeN _ _ => exact at_now (execStoreN _ _ e (refl s))
  | movGather _ _ => exact at_now (execMovGather _ _ e (refl s))
  | scatter _ _ => exact at_now (execScatter _ _ e (refl s))
  | movFill _ _ => exact at_now (execMovFill _ _ e (refl s))
  | movAtomic _ _ => exact at_now (execMovAtomic _ _ e (refl s))
  | mma _ _ => exact at_now (execMma _ _ e (refl s))
  | mmaFirstStep _ _ _ _ _ => exact at_now (execMmaFirstStep _ _ _ _ _ e (refl s))
  | fillerWindowEnd _ => exact at_now (execFillerWindowEnd _ e (refl s))
  | fillerLeadEnd _ => exact at_now (execFillerLeadEnd _ e (refl s))
  | tld _ _ => exact at_now (execTld _ _ e (refl s))
  | tst _ _ => exact at_now (execTst _ _ e (refl s))
  | kld _ _ => exact at_now (execKld _ _ e (refl s))
  | kst _ _ => exact at_now (execKst _ _ e (refl s))
  | tleMov _ _ => exact at_now (execTleMov _ _ e (refl s))
  | add _ _ => exact at_now (execAdd _ _ e (refl s))
  | sub _ _ => exact at_now (execSub _ _ e (refl s))
  | mul _ _ => exact at_now (execMul _ _ e (refl s))
  | fma _ _ => exact at_now (execFma _ _ e (refl s))
  | div _ _ => exact at_now (execDiv _ _ e (refl s))
  | minT _ _ => exact at_now (execMinT _ _ e (refl s))
  | maxT _ _ => exact at_now (execMaxT _ _ e (refl s))
  | absT _ _ => exact at_now (execAbsT _ _ e (refl s))
  | neg _ _ => exact at_now (execNeg _ _ e (refl s))
  | andT _ _ => exact at_now (execAndT _ _ e (refl s))
  | orT _ _ => exact at_now (execOrT _ _ e (refl s))
  | xor _ _ => exact at_now (execXor _ _ e (refl s))
  | shl _ _ => exact at_now (execShl _ _ e (refl s))
  | shrl _ _ => exact at_now (execShrl _ _ e (refl s))
  | shra _ _ => exact at_now (execShra _ _ e (refl s))
  | sel _ _ => exact at_now (execSel _ _ e (refl s))
  | cvt _ _ => exact at_now (execCvt _ _ e (refl s))
  | rnd _ _ => exact at_now (execRnd _ _ e (refl s))
  | exp2 _ _ => exact at_now (execExp2 _ _ e (refl s))
  | expT _ _ => exact at_now (execExpT _ _ e (refl s))
  | log2 _ _ => exact at_now (execLog2 _ _ e (refl s))
  | ln _ _ => exact at_now (execLn _ _ e (refl s))
  | rcp _ _ => exact at_now (execRcp _ _ e (refl s))
  | sqrt _ _ => exact at_now (execSqrt _ _ e (refl s))
  | rsqrt _ _ => exact at_now (execRsqrt _ _ e (refl s))
  | sigmoid _ _ => exact at_now (execSigmoid _ _ e (refl s))
  | tanh _ _ => exact at_now (execTanh _ _ e (refl s))
  | silu _ _ => exact at_now (execSilu _ _ e (refl s))
  | rsum _ _ => exact at_now (execRsum _ _ e (refl s))
  | rmax _ _ => exact at_now (execRmax _ _ e (refl s))
  | rmin _ _ => exact at_now (execRmin _ _ e (refl s))
  | csum _ _ => exact at_now (execCsum _ _ e (refl s))
  | cmax _ _ => exact at_now (execCmax _ _ e (refl s))
  | cmin _ _ => exact at_now (execCmin _ _ e (refl s))
  | trn _ _ => exact at_now (execTrn _ _ e (refl s))
  | cmp _ _ => exact at_now (execCmp _ _ e (refl s))
  | topk _ _ => exact at_now (execTopk _ _ e (refl s))
  | klogic _ _ => exact at_now (execKlogic _ _ e (refl s))
  | flags _ _ => exact at_now (execFlags _ _ e (refl s))
  | cmpr _ _ => exact at_now (execCmpr _ _ e (refl s))
  | expr _ _ => exact at_now (execExpr _ _ e (refl s))
  | cmps _ _ => exact at_now (execCmps _ _ e (refl s))
  | exps _ _ => exact at_now (execExps _ _ e (refl s))
  | tmm _ _ => exact at_now (execTmm _ _ e (refl s))
  | bkdFill _ _ => exact at_now (execBkdFill _ _ e (refl s))
  | bkdCopy _ _ => exact at_now (execBkdCopy _ _ e (refl s))
  | bkdGather _ _ => exact at_now (execBkdGather _ _ e (refl s))
  | qld _ _ => exact at_now (execQld _ _ e (refl s))
  | bkdScore _ _ => exact at_now (execBkdScore _ _ e (refl s))
  | bkdAcc _ _ => exact at_now (execBkdAcc _ _ e (refl s))
  | bankUnitGrant _ => exact at_now (execBankUnitGrant _ e (refl s))
  | bankUnitCommandEnd _ _ => exact at_now (execBankUnitCommandEnd _ _ e (refl s))
  | bankUnitResultDrain _ => exact at_now (execBankUnitResultDrain _ e (refl s))
  | bankUnitWindowStart => exact at_now (execBankUnitWindowStart e (refl s))
  | fetch _ _ => exact at_now (execFetch _ _ e (refl s))
  | kvxScore _ _ => exact at_now (execKvxScore _ _ e (refl s))
  | kvxAcc _ _ => exact at_now (execKvxAcc _ _ e (refl s))
  | smax _ _ => exact at_now (execSmax _ _ e (refl s))
  | merge _ _ => exact at_now (execMerge _ _ e (refl s))
  | comb _ _ => exact at_now (execComb _ _ e (refl s))
  | fin _ _ => exact at_now (execFin _ _ e (refl s))
  | append _ _ => exact at_now (execAppend _ _ e (refl s))
  | link _ _ => exact at_now (execLink _ _ e (refl s))
  | publish _ _ => exact at_now (execPublish _ _ e (refl s))
  | prefixLinkRequest => exact at_now (execPrefixLinkRequest e (refl s))
  | prefixPublishRequest => exact at_now (execPrefixPublishRequest e (refl s))
  | prefixRelease => exact at_now (execPrefixRelease e (refl s))
  | pfxReclaimRelease _ => exact at_now (execPfxReclaimRelease _ e (refl s))
  | push _ _ => exact at_now (execPush _ _ e (refl s))
  | pop _ _ => exact at_now (execPop _ _ e (refl s))
  | popa _ _ => exact at_now (execPopa _ _ e (refl s))
  | tsend _ _ => exact at_now (execTsend _ _ e (refl s))
  | reply _ _ => exact at_now (execReply _ _ e (refl s))
  | put _ _ => exact at_now (execPut _ _ e (refl s))
  | get _ _ => exact at_now (execGet _ _ e (refl s))
  | putf _ _ => exact at_now (execPutf _ _ e (refl s))
  | icacheLineFill _ _ _ _ => exact at_now (execIcacheLineFill _ _ _ _ e (refl s))
  | breakpointStop _ => exact at_now (execBreakpointStop _ e (refl s))
  | streamOverrun _ => exact at_now (execStreamOverrun _ e (refl s))
  | channelFaultStop _ => exact at_now (execChannelFaultStop _ e (refl s))
  | waitTimeout _ => exact at_now (execWaitTimeout _ e (refl s))
  | waitRearm _ => exact at_now (execWaitRearm _ e (refl s))
  | notice _ _ => exact at_now (execNotice _ _ e (refl s))
  | popTimeout _ => exact at_now (execPopTimeout _ e (refl s))
  | coreCtrlStart _ => exact at_now (execCoreCtrlStart _ e (refl s))
  | coreCtrlStop _ => exact at_now (execCoreCtrlStop _ e (refl s))
  | coreCtrlResume _ => exact at_now (execCoreCtrlResume _ e (refl s))
  | vaultRead _ _ _ _ _ => exact at_now (execVaultRead _ _ _ _ _ e (refl s))
  | vaultWrite _ _ _ _ _ => exact at_now (execVaultWrite _ _ _ _ _ e (refl s))
  | partialWordMerge _ _ => exact at_now (execPartialWordMerge _ _ e (refl s))
  | vaultAtomic _ _ _ _ _ _ => exact at_now (execVaultAtomic _ _ _ _ _ _ e (refl s))
  | watchInstall _ _ _ => exact at_now (execWatchInstall _ _ _ e (refl s))
  | writeBufferDrain _ _ => exact at_now (execWriteBufferDrain _ _ e (refl s))
  | rowIdlePrecharge _ _ => exact at_now (execRowIdlePrecharge _ _ e (refl s))
  | refresh _ _ => exact at_now (execRefresh _ _ e (refl s))
  | refreshRateUpdate _ => exact at_now (execRefreshRateUpdate _ e (refl s))
  | zoneTempStale _ _ => exact at_now (execZoneTempStale _ _ e (refl s))
  | bandModeEnd _ => exact at_now (execBandModeEnd _ e (refl s))
  | keeperRefresh _ _ => exact at_now (execKeeperRefresh _ _ e (refl s))
  | vltInit _ => exact at_now (execVltInit _ e (refl s))
  | fillTokenGrant x => exact at_now (execFillTokenGrant x (s := s) e (refl s))
  | initFillDone _ => exact at_now (execInitFillDone _ e (refl s))
  | scrubStart _ => exact at_now (execScrubStart _ e (refl s))
  | scrubAbort _ => exact at_now (execScrubAbort _ e (refl s))
  | scrubGranule _ => exact at_now (execScrubGranule _ e (refl s))
  | vltHold _ _ => exact at_now (execVltHold _ _ e (refl s))
  | vaultHeld _ => exact at_now (execVaultHeld _ e (refl s))
  | vltMapWrite _ _ => exact at_now (execVltMapWrite _ _ e (refl s))
  | vltRetire _ _ => exact at_now (execVltRetire _ _ e (refl s))
  | retireVault _ => exact at_now (execRetireVault _ e (refl s))
  | rawAccess _ _ => exact at_now (execRawAccess _ _ e (refl s))
  | rawAccessDone _ => exact at_now (execRawAccessDone _ e (refl s))
  | admissionRequest _ _ => exact at_now (execAdmissionRequest _ _ e (refl s))
  | admissionRetry _ _ => exact at_now (execAdmissionRetry _ _ e (refl s))
  | bundleAdmit _ => exact at_now (execBundleAdmit _ e (refl s))
  | bundleWord _ _ _ => exact at_now (execBundleWord _ _ _ e (refl s))
  | bundleAvailable _ => exact at_now (execBundleAvailable _ e (refl s))
  | sqStall _ => exact at_now (execSqStall _ e (refl s))
  | bundleLost _ _ _ _ => exact at_now (execBundleLost _ _ _ _ e (refl s))
  | sqOpenWrite _ _ => exact at_now (execSqOpenWrite _ _ e (refl s))
  | bundleWordTimeout _ _ => exact at_now (execBundleWordTimeout _ _ e (refl s))
  | bundleMemoryExpire _ => exact at_now (execBundleMemoryExpire _ e (refl s))
  | bundleSeqFree _ _ => exact at_now (execBundleSeqFree _ _ e (refl s))
  | read _ _ _ => exact at_now (execRead _ _ _ e (refl s))
  | write _ _ _ => exact at_now (execWrite _ _ _ e (refl s))
  | atomic _ _ _ => exact at_now (execAtomic _ _ _ e (refl s))
  | watchArm _ _ _ => exact at_now (execWatchArm _ _ _ e (refl s))
  | watchCancel _ _ _ => exact at_now (execWatchCancel _ _ _ e (refl s))
  | readData _ _ _ => exact at_now (execReadData _ _ _ e (refl s))
  | writeAck _ _ _ => exact at_now (execWriteAck _ _ _ e (refl s))
  | atomicOld _ _ _ => exact at_now (execAtomicOld _ _ _ e (refl s))
  | watchAck _ _ _ => exact at_now (execWatchAck _ _ _ e (refl s))
  | refuse _ _ _ => exact at_now (execRefuse _ _ _ e (refl s))
  | admitted _ _ _ => exact at_now (execAdmitted _ _ _ e (refl s))
  | accepted _ _ _ => exact at_now (execAccepted _ _ _ e (refl s))
  | admitPkt _ _ _ => exact at_now (execAdmit _ _ _ e (refl s))
  | dataTok _ _ _ => exact at_now (execDataTok _ _ _ e (refl s))
  | abandon _ _ _ => exact at_now (execAbandon _ _ _ e (refl s))
  | ping _ _ _ => exact at_now (execPing _ _ _ e (refl s))
  | pong _ _ _ => exact at_now (execPong _ _ _ e (refl s))
  | stateMgt _ _ _ => exact at_now (execStateMgt _ _ _ e (refl s))
  | regRead _ _ _ => exact at_now (execRegRead _ _ _ e (refl s))
  | regWrite _ _ _ => exact at_now (execRegWrite _ _ _ e (refl s))
  | regData _ _ _ => exact at_now (execRegData _ _ _ e (refl s))
  | fabricReservedPacket _ _ _ => exact at_now (execFabricReservedPacket _ _ _ e (refl s))
  | packetForward _ _ _ => exact at_now (execPacketForward _ _ _ e (refl s))
  | packetLostTimeout _ => exact at_now (execPacketLostTimeout _ e (refl s))
  | rerouteTimeout _ => exact at_now (execRerouteTimeout _ e (refl s))
  | refusalResend _ _ => exact at_now (execRefusalResend _ _ e (refl s))
  | refusalGiveUp _ _ => exact at_now (execRefusalGiveUp _ _ e (refl s))
  | flowPortChange _ => exact at_now (execFlowPortChange _ e (refl s))
  | fabricFlit _ _ _ _ => exact at_now (execFabricFlit _ _ _ _ e (refl s))
  | fabricAckTimer _ _ => exact at_now (execFabricAckTimer _ _ e (refl s))
  | fabricNoProgress _ _ => exact at_now (execFabricNoProgress _ _ e (refl s))
  | fabricRetrainEnd _ _ _ => exact at_now (execFabricRetrainEnd _ _ _ e (refl s))
  | laserLow _ _ _ _ => exact at_now (execLaserLow _ _ _ _ e (refl s))
  | laserRestored _ _ _ _ => exact at_now (execLaserRestored _ _ _ _ e (refl s))
  | portRetrain _ _ => exact at_now (execPortRetrain _ _ e (refl s))
  | portEnableWrite _ _ _ => exact at_now (execPortEnableWrite _ _ _ e (refl s))
  | skyNodeWrite _ _ => exact at_now (execSkyNodeWrite _ _ e (refl s))
  | skyCreditWrite _ _ => exact at_now (execSkyCreditWrite _ _ e (refl s))
  | routingEntryWrite _ _ _ _ => exact at_now (execRoutingEntryWrite _ _ _ _ e (refl s))
  | dieLinkTrained _ _ _ => exact at_now (execDieLinkTrained _ _ _ e (refl s))
  | dieLinkTrainTimeout _ => exact at_now (execDieLinkTrainTimeout _ e (refl s))
  | dieLinkFlit _ _ _ => exact at_now (execDieLinkFlit _ _ _ e (refl s))
  | dieLinkAckTimer _ => exact at_now (execDieLinkAckTimer _ e (refl s))
  | dieLinkNoProgress _ => exact at_now (execDieLinkNoProgress _ e (refl s))
  | dieLinkRetrainEnd _ _ => exact at_now (execDieLinkRetrainEnd _ _ e (refl s))
  | failoverStart _ => exact at_now (execFailoverStart _ e (refl s))
  | failoverComplete _ => exact at_now (execFailoverComplete _ e (refl s))
  | dlkLinkRetrain _ => exact at_now (execDlkLinkRetrain _ e (refl s))
  | forceDown _ _ => exact at_now (execForceDown _ _ e (refl s))
  | sqTailDoorbell _ _ => exact at_now (execSqTailDoorbell _ _ e (refl s))
  | cqHeadDoorbell _ _ => exact at_now (execCqHeadDoorbell _ _ e (refl s))
  | eqHeadDoorbell _ _ => exact at_now (execEqHeadDoorbell _ _ e (refl s))
  | commandTake _ => exact at_now (execCommandTake _ e (refl s))
  | completionPost _ => exact at_now (execCompletionPost _ e (refl s))
  | completionWriteFail _ _ => exact at_now (execCompletionWriteFail _ _ e (refl s))
  | ringEnableWrite _ _ _ => exact at_now (execRingEnableWrite _ _ _ e (refl s))
  | ringDrained _ => exact at_now (execRingDrained _ e (refl s))
  | eventPost => exact at_now (execEventPost e (refl s))
  | cmdNop _ => exact at_now (execCmdNop _ e (refl s))
  | undefinedCommand _ => exact at_now (execUndefinedCommand _ e (refl s))
  | identify _ => exact at_now (execIdentify _ e (refl s))
  | ringCreate _ => exact at_now (execRingCreate _ e (refl s))
  | ringDestroy _ => exact at_now (execRingDestroy _ e (refl s))
  | eqCreate _ => exact at_now (execEqCreate _ e (refl s))
  | eqDestroy _ => exact at_now (execEqDestroy _ e (refl s))
  | chanCreate _ _ => exact at_now (execChanCreate _ _ e (refl s))
  | chanDestroy _ => exact at_now (execChanDestroy _ e (refl s))
  | windowSet _ => exact at_now (execWindowSet _ e (refl s))
  | streamStart _ _ => exact at_now (execStreamStart _ _ e (refl s))
  | streamStop _ _ => exact at_now (execStreamStop _ _ e (refl s))
  | load _ _ _ => exact at_now (execLoad _ _ _ e (refl s))
  | store _ _ _ => exact at_now (execStore _ _ _ e (refl s))
  | flagWrite _ => exact at_now (execFlagWrite _ e (refl s))
  | seqFork _ => exact at_now (execSeqFork _ e (refl s))
  | seqRelease _ => exact at_now (execSeqRelease _ e (refl s))
  | thermalProfile _ => exact at_now (execThermalProfile _ e (refl s))
  | licenceInstall _ _ => exact at_now (execLicenceInstall _ _ e (refl s))
  | licenceQuery _ => exact at_now (execLicenceQuery _ e (refl s))
  | bar0BadAccess _ _ _ => exact at_now (execBar0BadAccess _ _ _ e (refl s))
  | barReadTimeout _ _ => exact at_now (execBarReadTimeout _ _ e (refl s))
  | skyWindowRead _ _ => exact at_now (execSkyWindowRead _ _ e (refl s))
  | skyWindowWrite _ _ => exact at_now (execSkyWindowWrite _ _ e (refl s))
  | registerWrite _ _ _ => exact at_now (execRegisterWrite _ _ _ e (refl s))
  | sensorSample _ => exact at_now (execSensorSample _ e (refl s))
  | sensorSilent _ => exact at_now (execSensorSilent _ e (refl s))
  | sensorRearm => exact at_now (execSensorRearm e (refl s))
  | quiesceDone _ => exact at_now (execQuiesceDone _ e (refl s))
  | quiesceTimeout _ => exact at_now (execQuiesceTimeout _ e (refl s))
  | rateRequestExpire _ => exact at_now (execRateRequestExpire _ e (refl s))
  | powerSample _ _ => exact at_now (execPowerSample _ _ e (refl s))
  | forecastStep _ _ => exact at_now (execForecastStep _ _ e (refl s))
  | gatePeriod => exact at_now (execGatePeriod e (refl s))
  | riseWindowEnd _ => exact at_now (execRiseWindowEnd _ e (refl s))
  | powerWindowEnd => exact at_now (execPowerWindowEnd e (refl s))
  | flowWindowEnd _ => exact at_now (execFlowWindowEnd _ e (refl s))
  | coolantWrite _ _ => exact at_now (execCoolantWrite _ _ e (refl s))
  | coolantStale => exact at_now (execCoolantStale e (refl s))
  | dewRisk _ => exact at_now (execDewRisk _ e (refl s))
  | trimStep => exact at_now (execTrimStep e (refl s))
  | vcoreUpdate _ _ => exact at_now (execVcoreUpdate _ _ e (refl s))
  | heartbeat => exact at_now (execHeartbeat e (refl s))
  | fwAliveLost => exact at_now (execFwAliveLost e (refl s))
  | coldReset => exact at_now (execColdReset e (refl s))
  | sysResetNLow _ => exact at_now (execSysResetNLow _ e (refl s))
  | perstNAssert => exact at_now (execPerstNAssert e (refl s))
  | hotReset => exact at_now (execHotReset e (refl s))
  | pcieLinkDown => exact at_now (execPcieLinkDown e (refl s))
  | fullArm => exact at_now (execFullArm e (refl s))
  | fullGo => exact at_now (execFullGo e (refl s))
  | referenceLoss _ => exact at_now (execReferenceLoss _ e (refl s))
  | serdesUnlock _ => exact at_now (execSerdesUnlock _ e (refl s))
  | fullResetRelease _ => exact execFullResetRelease _ e
  | startupStepTimeout => exact at_now (execStartupStepTimeout e (refl s))
  | tickSyncCheck _ _ => exact at_now (execTickSyncCheck _ _ e (refl s))
  | computeGo => exact at_now (execComputeGo e (refl s))
  | drainEnd => exact at_now (execDrainEnd e (refl s))
  | heldEnd => exact at_now (execHeldEnd e (refl s))
  | releaseComplete => exact at_now (execReleaseComplete e (refl s))
  | blockResetGo _ => exact at_now (execBlockResetGo _ e (refl s))
  | blockIdle => exact at_now (execBlockIdle e (refl s))
  | blockResetRelease => exact at_now (execBlockResetRelease e (refl s))
  | blockResetTimeout => exact at_now (execBlockResetTimeout e (refl s))
  | romStart _ => exact at_now (execRomStart _ e (refl s))
  | manifest _ => exact at_now (execManifest _ e (refl s))
  | mgmtLoad => exact at_now (execMgmtLoad e (refl s))
  | segmentRead _ _ => exact at_now (execSegmentRead _ _ e (refl s))
  | fwInit _ => exact at_now (execFwInit _ e (refl s))
  | memTest _ _ => exact at_now (execMemTest _ _ e (refl s))
  | initFill => exact at_now (execInitFill e (refl s))
  | rainfall _ => exact at_now (execRainfall _ e (refl s))
  | rainfallPiece _ _ _ => exact at_now (execRainfallPiece _ _ _ e (refl s))
  | endMarker _ _ => exact at_now (execEndMarker _ _ e (refl s))
  | endMarkerTimeout _ => exact at_now (execEndMarkerTimeout _ e (refl s))
  | segmentFetch _ => exact at_now (execSegmentFetch _ e (refl s))
  | fetchAttemptEnd _ _ => exact at_now (execFetchAttemptEnd _ _ e (refl s))
  | fetchStageTimeout => exact at_now (execFetchStageTimeout e (refl s))
  | coreTest _ _ => exact at_now (execCoreTest _ _ e (refl s))
  | reconcile => exact at_now (execReconcile e (refl s))
  | bootStageTimeout => exact at_now (execBootStageTimeout e (refl s))
  | svnArm => exact at_now (execSvnArm e (refl s))
  | svnCommit => exact at_now (execSvnCommit e (refl s))
  | getVersion x y => exact at_now (execGetVersion x y e (refl s))
  | getCapabilities x y => exact at_now (execGetCapabilities x y e (refl s))
  | negotiateAlgorithms x y => exact at_now (execNegotiateAlgorithms x y e (refl s))
  | getDigests x y => exact at_now (execGetDigests x y e (refl s))
  | getCertificate x y => exact at_now (execGetCertificate x y e (refl s))
  | challenge x y => exact at_now (execChallenge x y e (refl s))
  | getMeasurements x y => exact at_now (execGetMeasurements x y e (refl s))
  | spdmUnsupported x y => exact at_now (execSpdmUnsupported x y e (refl s))
  | getSensorReading _ => exact at_now (execGetSensorReading _ e (refl s))
  | getStateSensorReadings _ => exact at_now (execGetStateSensorReadings _ e (refl s))
  | setdasa _ => exact at_now (execSetdasa _ e (refl s))
  | errorRecord => exact at_now (execErrorRecord e (refl s))
  | watchdogExpire _ => exact at_now (execWatchdogExpire _ e (refl s))
  | mgmtSramUncorrectable => exact at_now (execMgmtSramUncorrectable e (refl s))
  | crashWriterTimeout => exact at_now (execCrashWriterTimeout e (refl s))
  | crashRelease => exact at_now (execCrashRelease e (refl s))
  | dbgStep _ => exact at_now (execDbgStep _ e (refl s))
  | snapshot _ _ => exact at_now (execSnapshot _ _ e (refl s))
  | traceRecord => exact at_now (execTraceRecord e (refl s))
  | traceWrite => exact at_now (execTraceWrite e (refl s))
  | telemetryLatch => exact at_now (execTelemetryLatch e (refl s))
  | portTrained _ _ _ => exact at_now (execPortTrained _ _ _ e (refl s))
  | skyCtrlEnableWrite _ _ => exact at_now (execSkyCtrlEnableWrite _ _ e (refl s))
  | referenceRestored => exact at_now (execReferenceRestored e (refl s))
  | perstNDeassert => exact at_now (execPerstNDeassert e (refl s))
  | resetStretchEnd => exact at_now (execResetStretchEnd e (refl s))
  | vauxLoss => exact at_now (execVauxLoss e (refl s))
  | hostLinkUp _ _ => exact at_now (execHostLinkUp _ _ e (refl s))
  | firmwarePanic _ => exact at_now (execFirmwarePanic _ e (refl s))

end State.Keeps
end Sys2Proof.Machine
end

section
/-!
PROOF. What the operations of Machine/Step keep.
-/
namespace Sys2Proof.Machine
namespace State.Keeps
variable {s₀ s t : State}

/-- What a tick of the time keeps. -/
theorem tickOn (s : State) : ({ s with now := s.now + 1 } : State).Keeps (Machine.tickOn s) :=
  (upd (refl { s with now := s.now + 1 }) ..).arrays.unitTicks.stallTicks.fabricTicks.vcoreTicks.goOn

/-- What a step keeps: it takes the front command from the queue and puts none in. -/
theorem step (e : Machine.step s = .next t) : ({ s with now := t.now, pending := s.pending.tail } : State).Keeps t := by
  unfold Machine.step at e
  split at e
  · rename_i hp
    have hk := tickOn s
    generalize Machine.tickOn s = u at e hk
    cases e
    exact ⟨hk.regs, fun hf => hk.fuses ⟨hf.serial, hf.floor, hf.image, hf.lic⟩, rfl, hk.pending.trans (by rw [hp]; rfl)⟩
  · rename_i hp
    have hk := exec _ e
    exact ⟨hk.regs, fun hf => hk.fuses ⟨hf.serial, hf.floor, hf.image, hf.lic⟩, rfl, hk.pending.trans (by rw [hp]; rfl)⟩

end State.Keeps
end Sys2Proof.Machine
end

section
/-!
PROOF. The scope statements about every step: the register table stays canonical (O4), and a step with an empty queue can
change the chip's fuses (O2 fails).
-/
namespace Sys2Proof.Machine

/-- Settles O4: the register table is one of the things that every operation keeps canonical. -/
theorem registersStayCanonical : Obligations.RegistersStayCanonical :=
  fun _ _ hw e => (State.Keeps.step e).regs hw

/-- A state with no command waiting: the device is READY, its SVN commit is armed and its manifest names svn 1, and a
REG_WRITE packet of the go bit of SEC_SVN_COMMIT has reached a tower that takes REG packets. -/
def commitLanded : State :=
  { (State.reset.setF (Reg.skyCtrl_mgt_reg 0) 1).setF Reg.glbState_state gsReady with
    boot := { Boot.reset with
      svnArmed := some 0
      manifest := some { version := 0, svn := 1, keySlot := 0, revoke := 0, digest := [], segs := [] } }
    landed := [.site 0 0 { Packet.blank with cls := 3, op := 4, payload := clean (toLE 8 0x00504008 ++ toLE 8 2) } []] }

/-- The tick serves the packet, and the register write commits the SVN of the manifest. -/
theorem tickOn_commitLanded_svnFloor : (tickOn commitLanded).chip.svnFloor = 1 := by decide +kernel

/-- Refutes O2: a tick serves the packets that have landed, and a REG_WRITE that commits the SVN raises the floor in the
chip's fuses, so the chip is not the one before the tick. -/
theorem not_idleStepIsOneTick : ¬ Obligations.IdleStepIsOneTick := by
  intro h
  obtain ⟨t, hstep, -, -, hchip⟩ := h commitLanded rfl
  have ht : tickOn commitLanded = t := Host.Outcome.next.inj hstep
  have hfloor : (1 : Nat) = 0 := by rw [← tickOn_commitLanded_svnFloor, ht, hchip]; rfl
  exact absurd hfloor (by decide)

end Sys2Proof.Machine
end

section
/-!
PROOF. The soft error of an instruction that is refused: what CORE_SOFT_ERR tells, and that nothing else changes.
-/
namespace Sys2Proof.Machine

/-- The fields of CORE_SOFT_ERR that name the first error stand beside its count. -/
theorem State.getF_setF_firstStatus (s : State) (i v : Nat) {g : Fld} (ho : g.off = siteBase i + 0x60)
    (hd : g.hi < 16 ∨ 23 < g.lo) : (s.setF (Reg.coreSoftErr_first_status i) v).getF g = s.getF g :=
  State.getF_setF_bits s (Reg.coreSoftErr_first_status i) g v ho (by simp [Reg.coreSoftErr_first_status])
    (by simp [Reg.coreSoftErr_first_status]) hd

theorem State.getF_setF_firstEngine (s : State) (i v : Nat) {g : Fld} (ho : g.off = siteBase i + 0x60)
    (hd : g.hi < 24 ∨ 31 < g.lo) : (s.setF (Reg.coreSoftErr_first_engine i) v).getF g = s.getF g :=
  State.getF_setF_bits s (Reg.coreSoftErr_first_engine i) g v ho (by simp [Reg.coreSoftErr_first_engine])
    (by simp [Reg.coreSoftErr_first_engine]) hd

theorem State.getF_setF_softCount (s : State) (i v : Nat) {g : Fld} (ho : g.off = siteBase i + 0x60) (hd : 15 < g.lo) :
    (s.setF (Reg.coreSoftErr_count i) v).getF g = s.getF g :=
  State.getF_setF_bits s (Reg.coreSoftErr_count i) g v ho (by simp [Reg.coreSoftErr_count])
    (by simp [Reg.coreSoftErr_count]) (.inr hd)

/-- The first error recorded, before it is counted. -/
def State.softFirst (s : State) (i st eng : Nat) : State :=
  if s.getF (Reg.coreSoftErr_count i) = 0 then
    (s.setF (Reg.coreSoftErr_first_status i) st).setF (Reg.coreSoftErr_first_engine i) eng
  else s

theorem State.softErr_eq (s : State) (i st eng : Nat) :
    s.softErr i st eng = (s.softFirst i st eng).setF (Reg.coreSoftErr_count i)
      (Nat.min ((s.softFirst i st eng).getF (Reg.coreSoftErr_count i) + 1) 65535) := by
  have hw : 2 ^ fldWidth (Reg.coreSoftErr_count i) - 1 = 65535 := by simp [fldWidth, Reg.coreSoftErr_count]
  unfold State.softErr State.softFirst State.incSat satAdd
  simp only [hw]

theorem State.softFirst_reg (s : State) (i st eng a : Nat) (h : a ≠ siteBase i + 0x60) :
    (s.softFirst i st eng).reg a = s.reg a := by
  unfold State.softFirst
  split
  · exact (State.reg_setF_ne _ (Reg.coreSoftErr_first_engine i) _ _ h).trans
      (State.reg_setF_ne _ (Reg.coreSoftErr_first_status i) _ _ h)
  · rfl

theorem State.softFirst_count (s : State) (i st eng : Nat) :
    (s.softFirst i st eng).getF (Reg.coreSoftErr_count i) = s.getF (Reg.coreSoftErr_count i) := by
  unfold State.softFirst
  split
  · rw [State.getF_setF_firstEngine _ _ _ rfl (.inl (by simp [Reg.coreSoftErr_count])),
      State.getF_setF_firstStatus _ _ _ rfl (.inl (by simp [Reg.coreSoftErr_count]))]
  · rfl

theorem State.softErr_reg (s : State) (i st eng a : Nat) (h : a ≠ siteBase i + 0x60) :
    (s.softErr i st eng).reg a = s.reg a :=
  (State.reg_setF_ne _ (Reg.coreSoftErr_count i) _ _ h).trans (State.softFirst_reg s i st eng a h)

/-- A field of another register does not change. -/
theorem State.softErr_getF (s : State) (i st eng : Nat) (f : Fld) (h : f.off ≠ siteBase i + 0x60) :
    (s.softErr i st eng).getF f = s.getF f := by
  simp only [State.getF, State.softErr_reg s i st eng f.off h]

@[simp] theorem State.softErr_core (s : State) (i st eng j : Nat) : (s.softErr i st eng).core j = s.core j := by
  rw [State.softErr_eq, State.setF_core, State.softFirst]
  split <;> simp

theorem State.sameBeyondCores_softErr {s t : State} (i st eng : Nat) (h : s.sameBeyondCores t) :
    s.sameBeyondCores (t.softErr i st eng) := by
  rw [State.softErr_eq, State.softFirst]
  split
  · exact State.sameBeyondCores_setF _ _ (State.sameBeyondCores_setF _ _ (State.sameBeyondCores_setF _ _ h))
  · exact State.sameBeyondCores_setF _ _ h

theorem State.softErr_coreState (s : State) (i st eng : Nat) : (s.softErr i st eng).coreState i = s.coreState i :=
  State.softErr_getF s i st eng (Reg.coreStatus_state i) (by simp [Reg.coreStatus_state])

theorem State.softErr_count (s : State) (i st eng : Nat) :
    (s.softErr i st eng).getF (Reg.coreSoftErr_count i) = Nat.min (s.getF (Reg.coreSoftErr_count i) + 1) 65535 := by
  rw [State.softErr_eq, State.softFirst_count,
    State.getF_setF_same _ (Reg.coreSoftErr_count i) _ (by simp [Reg.coreSoftErr_count]) (by simp [Reg.coreSoftErr_count])]
  exact Nat.mod_eq_of_lt (Nat.lt_of_le_of_lt (Nat.min_le_right _ 65535) (by simp [Reg.coreSoftErr_count]))

/-- The first soft error is recorded with its status and engine. -/
theorem State.softErr_first (s : State) (i st eng : Nat) (h : s.getF (Reg.coreSoftErr_count i) = 0) (hst : st < 256)
    (he : eng < 256) : (s.softErr i st eng).getF (Reg.coreSoftErr_first_status i) = st ∧
      (s.softErr i st eng).getF (Reg.coreSoftErr_first_engine i) = eng := by
  rw [State.softErr_eq, State.softFirst, if_pos h]
  constructor
  · rw [State.getF_setF_softCount _ _ _ rfl (by simp [Reg.coreSoftErr_first_status]),
      State.getF_setF_firstEngine _ _ _ rfl (.inl (by simp [Reg.coreSoftErr_first_status])),
      State.getF_setF_same _ (Reg.coreSoftErr_first_status i) _ (by simp [Reg.coreSoftErr_first_status])
        (by simp [Reg.coreSoftErr_first_status])]
    exact Nat.mod_eq_of_lt hst
  · rw [State.getF_setF_softCount _ _ _ rfl (by simp [Reg.coreSoftErr_first_engine]),
      State.getF_setF_same _ (Reg.coreSoftErr_first_engine i) _ (by simp [Reg.coreSoftErr_first_engine])
        (by simp [Reg.coreSoftErr_first_engine])]
    exact Nat.mod_eq_of_lt he

/-- A soft error after the sequencer has moved on tells only of itself. -/
theorem State.ran_softErr {s t : State} {i : Nat} {changed : List Nat} {c : Core} (h : s.ran t i changed c)
    (st eng : Nat) : s.ran (t.softErr i st eng) i ((Reg.coreSoftErr_count i).off :: changed) c := by
  obtain ⟨⟨hpc, hret, hreg, hcores⟩, hcore, hrest⟩ := h
  refine ⟨⟨?_, ?_, fun a ha hb => ?_, fun j hj => ?_⟩, ?_, State.sameBeyondCores_softErr i st eng hrest⟩
  · rw [← hpc]; exact State.softErr_getF t i st eng (Reg.corePc_pc i) (by simp [Reg.corePc_pc])
  · rw [← hret]; exact State.softErr_getF t i st eng (Reg.coreRetired_count i) (by simp [Reg.coreRetired_count])
  · rw [List.mem_cons, not_or] at hb
    rw [State.softErr_reg _ _ _ _ _ hb.1, hreg a ha hb.2]
  · rw [State.softErr_core, hcores j hj]
  · rw [State.softErr_core, hcore]

theorem State.past_softCount (s : State) (i : Nat) :
    (s.past i).getF (Reg.coreSoftErr_count i) = s.getF (Reg.coreSoftErr_count i) := by
  simp only [State.getF]
  rw [State.past_reg _ _ _ (by simp [pcRegs, Reg.coreSoftErr_count, Reg.corePc_pc, Reg.coreRetired_count])]

/-- The sequencer of a core that issues at once moves past a word that does nothing. -/
theorem State.ran_past_same (s : State) (i : Nat) (w : BitVec 128) (h : Clear s i w) :
    s.ran (s.past i) i [] (s.core i) :=
  State.ran_past s s i [] rfl rfl (fun _ _ _ => rfl) (fun _ _ => rfl) h.steps (State.sameBeyondCores_refl s)

/-- A word with a reserved opcode moves the sequencer on and leaves a soft error. -/
theorem exec_reservedOpcode (s : State) (i : Site) (w : BitVec 128) (hc : Clear s i w)
    (hd : definedOp (iEng w.toNat) (iOp w.toNat) = false) :
    exec (.reservedOpcode i w) s = .next ((s.past i).softErr i stBadOpcode (iEng w.toNat)) := by
  have he : exec (.reservedOpcode i w) s =
      .next (((s.tracedHere i w stBadOpcode).advance i w).settle i (iEng w.toNat) (iTag w.toNat) (Done.of stBadOpcode)) := by
    change execReservedOpcode i w s = _
    simp [execReservedOpcode, hc.can, hd, next]
  rw [he, State.tracedHere, State.traced_off _ _ _ _ _ _ _ _ hc.trace, State.advance_quiet s i w hc.frames hc.steps hc.line]
  rfl

/-- Settles O13: past the sequencer's step, the status is settled as a soft error. -/
theorem reservedOpcodeIsBadOpcode : Obligations.ReservedOpcodeIsBadOpcode := by
  unfold Obligations.ReservedOpcodeIsBadOpcode
  intro s i w hclear hd
  have hc := (State.clear_iff s i w).1 hclear
  refine ⟨_, exec_reservedOpcode s i w hc hd, State.ran_softErr (State.ran_past_same s i w hc) _ _, ?_, fun h0 => ?_, ?_⟩
  · rw [State.softErr_count, State.past_softCount]
  · exact State.softErr_first _ _ _ _ (by rw [State.past_softCount, h0]) (by decide)
      (Nat.lt_of_lt_of_le (Nat.mod_lt _ (by decide)) (by decide))
  · rw [State.softErr_coreState, State.past_coreState]
    exact (State.canIssue_state s i w hc.can).1

end Sys2Proof.Machine
end

section
/-!
PROOF. Register fields bit by bit (00 R13, R14): the arithmetic by which a write replaces bits is the bitwise operation it
stands for (O47).
-/
namespace Sys2Proof.Machine

theorem bit_eq_testBit (x k : Nat) : bit x k = x.testBit k := by
  rw [Nat.testBit_eq_decide_div_mod_eq]; rfl

/-- Numbers with no common bit add without a carry. -/
theorem add_eq_lor {a b : Nat} (h : a &&& b = 0) : a + b = a ||| b := by
  have hlt : a + b < 2 ^ (a + b) := Nat.lt_two_pow_self
  have ha : a % 2 ^ (a + b) = a := Nat.mod_eq_of_lt (by omega)
  have hb : b % 2 ^ (a + b) = b := Nat.mod_eq_of_lt (by omega)
  have hand : BitVec.ofNat (a + b) a &&& BitVec.ofNat (a + b) b = 0#(a + b) := by
    rw [← BitVec.ofNat_and, h]
  have hadd := congrArg BitVec.toNat (BitVec.add_eq_or_of_and_eq_zero _ _ hand)
  simpa [ha, hb, Nat.mod_eq_of_lt hlt] using hadd

/-- Taking away the bits that are also in `y` leaves the others. -/
theorem sub_land_eq_ldiff (x y : Nat) : x - (x &&& y) = Nat.ldiff x y := by
  have hdisj : Nat.ldiff x y &&& (x &&& y) = 0 := by
    refine Nat.eq_of_testBit_eq fun i => ?_
    rw [Nat.testBit_and, Nat.testBit_ldiff, Nat.testBit_and, Nat.zero_testBit]
    cases x.testBit i <;> cases y.testBit i <;> rfl
  have hunion : Nat.ldiff x y ||| (x &&& y) = x := by
    refine Nat.eq_of_testBit_eq fun i => ?_
    rw [Nat.testBit_or, Nat.testBit_ldiff, Nat.testBit_and]
    cases x.testBit i <;> cases y.testBit i <;> rfl
  have hsum := (add_eq_lor hdisj).trans hunion
  omega

/-- The bits that an access writes of a field. -/
def fieldMask (hi lo m : Nat) : Nat := Nat.land (setBits 0 hi lo (2 ^ (hi + 1 - lo) - 1)) m

theorem testBit_fieldMask (hi lo m k : Nat) (h : lo ≤ hi) :
    (fieldMask hi lo m).testBit k = (!decide (k < lo ∨ hi < k ∨ bit m k = false)) := by
  have hmask : setBits 0 hi lo (2 ^ (hi + 1 - lo) - 1) = (2 ^ (hi + 1 - lo) - 1) * 2 ^ lo := by
    have hpos := Nat.two_pow_pos (hi + 1 - lo)
    rw [setBits, Nat.zero_div, Nat.zero_mod, Nat.mod_eq_of_lt (by omega)]
    omega
  rw [fieldMask, hmask, show ∀ a b, Nat.land a b = a &&& b from fun _ _ => rfl, Nat.testBit_and,
    Nat.testBit_mul_two_pow, Nat.testBit_two_pow_sub_one, bit_eq_testBit]
  by_cases hm : m.testBit k = true
  · have hiff : lo ≤ k ∧ k - lo < hi + 1 - lo ↔ ¬ (k < lo ∨ hi < k) := by omega
    rw [hm, Bool.and_true, ← Bool.decide_and, decide_eq_decide.mpr hiff, decide_not]
    simp
  · simp [hm]

/-- A written bit takes the place of the old one where the mask allows it. -/
theorem bit_replace (old v fm k : Nat) :
    bit (old - Nat.land old fm + Nat.land v fm) k = if fm.testBit k then bit v k else bit old k := by
  have hdisj : Nat.ldiff old fm &&& (v &&& fm) = 0 := by
    refine Nat.eq_of_testBit_eq fun i => ?_
    rw [Nat.testBit_and, Nat.testBit_ldiff, Nat.testBit_and, Nat.zero_testBit]
    cases fm.testBit i <;> simp
  rw [bit_eq_testBit, bit_eq_testBit, bit_eq_testBit, show Nat.land old fm = old &&& fm from rfl, sub_land_eq_ldiff,
    show Nat.land v fm = v &&& fm from rfl, add_eq_lor hdisj, Nat.testBit_or, Nat.testBit_ldiff, Nat.testBit_and]
  cases fm.testBit k <;> simp

/-- A written 1 clears the bit where the mask allows it, but a bit set since the cycle began stays. -/
theorem bit_clear (old was v fm k : Nat) : bit (old - Nat.land (Nat.land old was) (Nat.land v fm)) k =
    if fm.testBit k then bit old k && !(bit was k && bit v k) else bit old k := by
  simp only [bit_eq_testBit]
  rw [show Nat.land (Nat.land old was) (Nat.land v fm) = old &&& was &&& (v &&& fm) from rfl, Nat.and_assoc,
    sub_land_eq_ldiff, Nat.testBit_ldiff, Nat.testBit_and, Nat.testBit_and]
  cases fm.testBit k <;> simp

/-- A written 1 sets the bit where the mask allows it. -/
theorem bit_set (old v fm k : Nat) :
    bit (Nat.lor old (Nat.land v fm)) k = if fm.testBit k then bit old k || bit v k else bit old k := by
  simp only [bit_eq_testBit]
  rw [show Nat.lor old (Nat.land v fm) = old ||| v &&& fm from rfl, Nat.testBit_or, Nat.testBit_and]
  cases fm.testBit k <;> simp

/-- Settles O47: each field type's arithmetic, read bit by bit. -/
theorem fieldTypesWrite : Obligations.FieldTypesWrite := by
  intro m v was old k f hf
  have hmask := testBit_fieldMask f.hi f.lo m k hf
  have keep : ∀ b c : Bool, (if (fieldMask f.hi f.lo m).testBit k then b else c) =
      if k < f.lo ∨ f.hi < k ∨ bit m k = false then c else b := fun b c => by
    rw [hmask]
    by_cases hk : k < f.lo ∨ f.hi < k ∨ bit m k = false <;> simp [hk]
  unfold fieldWritten
  cases f.ty with
  | rw => exact (bit_replace old v _ k).trans (keep _ _)
  | rw1c => exact (bit_clear old was v _ k).trans (keep _ _)
  | rw1s => exact (bit_set old v _ k).trans (keep _ _)
  | ro => exact (ite_self _).symm
  | wo => exact (ite_self _).symm

end Sys2Proof.Machine
end

section
/-!
PROOF. The end of a tile instruction (05 R207): the registers it leaves, and that it leaves the rest of the machine alone
(O17).
-/
namespace Sys2Proof.Machine

/-! ## Fields apart -/

/-- Do two fields share no bit? -/
def fldApart (f g : Fld) : Bool := g.off != f.off || decide (g.hi < f.lo) || decide (f.hi < g.lo)

/-- Is a field a range of bits of its register? -/
def fldProper (f : Fld) : Bool := decide (f.lo ≤ f.hi) && decide (f.hi < 64)

theorem fldProper_iff (f : Fld) : fldProper f = true ↔ f.lo ≤ f.hi ∧ f.hi < 64 := by simp [fldProper]

theorem State.getF_setF_apart (s : State) (f g : Fld) (v : Nat) (hp : fldProper f = true) (ha : fldApart f g = true) :
    (s.setF f v).getF g = s.getF g := by
  obtain ⟨hlo, hhi⟩ := (fldProper_iff f).1 hp
  by_cases ho : g.off = f.off
  · refine State.getF_setF_bits s f g v ho hlo hhi ?_
    simpa [fldApart, ho] using ha
  · exact State.getF_setF_off s f g v ho

theorem State.getF_incWrap_apart (s : State) (f g : Fld) (n : Nat) (hp : fldProper f = true) (ha : fldApart f g = true) :
    (s.incWrap f n).getF g = s.getF g := State.getF_setF_apart s f g _ hp ha

theorem State.getF_setF_self (s : State) (f : Fld) (v : Nat) (hp : fldProper f = true) :
    (s.setF f v).getF f = v % 2 ^ (f.hi + 1 - f.lo) :=
  State.getF_setF_same s f v ((fldProper_iff f).1 hp).1 ((fldProper_iff f).1 hp).2

theorem State.getF_incWrap_self (s : State) (f : Fld) (n : Nat) (hp : fldProper f = true) :
    (s.incWrap f n).getF f = (s.getF f + n) % 2 ^ (f.hi + 1 - f.lo) := by
  rw [State.incWrap, State.getF_setF_self s f _ hp]
  exact Nat.mod_mod _ _

/-! ## Flags that are only ever raised -/

/-- A flag raised when a condition holds, and else left as it was. -/
def State.raise (s : State) (b : Bool) (f : Fld) : State := if b then s.setF f 1 else s

@[simp] theorem State.raise_core (s : State) (b : Bool) (f : Fld) (j : Nat) : (s.raise b f).core j = s.core j := by
  cases b <;> simp [State.raise]

theorem State.reg_raise_ne (s : State) (b : Bool) (f : Fld) (a : Nat) (h : a ≠ f.off) : (s.raise b f).reg a = s.reg a := by
  cases b
  · rfl
  · exact State.reg_setF_ne s f 1 a h

theorem State.getF_raise_self (s : State) (b : Bool) (f : Fld) (hp : fldProper f = true) :
    (s.raise b f).getF f = if b then 1 else s.getF f := by
  obtain ⟨hlo, hhi⟩ := (fldProper_iff f).1 hp
  cases b
  · rfl
  · exact (State.getF_setF_self s f 1 hp).trans (Nat.mod_eq_of_lt (Nat.one_lt_two_pow (by omega)))

theorem State.getF_raise_apart (s : State) (b : Bool) (f g : Fld) (hp : fldProper f = true) (ha : fldApart f g = true) :
    (s.raise b f).getF g = s.getF g := by
  cases b
  · rfl
  · exact State.getF_setF_apart s f g 1 hp ha

theorem State.sameBeyondCores_raise {s t : State} (b : Bool) (f : Fld) (h : s.sameBeyondCores t) :
    s.sameBeyondCores (t.raise b f) := by
  cases b
  · exact h
  · exact State.sameBeyondCores_setF f 1 h

/-! ## What a tile instruction leaves -/

/-- The state once a tile instruction has ended, before the sequencer moves on. -/
def State.tileLeft (s : State) (i : Nat) (w : BitVec 128) (cycles : Nat) (o : TleOut) : State :=
  (s.tleEnd i cycles o).lastOf i 3 w.toNat (tleSt o) false

/-- The writes that end a tile instruction, in their order. -/
theorem State.tileLeft_eq (s : State) (i : Nat) (w : BitVec 128) (cycles : Nat) (o : TleOut) :
    s.tileLeft i w cycles o =
      ((((((((((((((s.setCore i { s.core i with tle := o.t }).bump 1).raise o.flags.nanOp (Reg.tleStatus_nan_op i)).raise
        o.flags.inv (Reg.tleStatus_inv i)).raise o.flags.ovf (Reg.tleStatus_ovf i)).raise o.flags.isat
        (Reg.tleStatus_isat i)).setF (Reg.tleKpoison_kpoison i) (kpoison o.t)).incWrap (Reg.tleCntLane_lanes i)
        o.lanes).incWrap (Reg.tleCntXcn_results i) o.xcns).incWrap (Reg.tleCntBusy_cycles i) cycles).setF
        (Reg.tleLast_status i) (tleSt o)).setF (Reg.tleLast_tag i) (iTag w.toNat)).setF (Reg.tleLast_op i)
        (iOp w.toNat)).raise o.poison (Reg.tleStatus_poison i)) := by
  have hpoison : (tleSt o = stPoisoned) = (o.poison = true) := by
    unfold tleSt
    cases o.poison <;> simp [stPoisoned, stOk]
  rw [State.tileLeft, State.lastOf, if_pos rfl]
  simp only [hpoison]
  rfl

@[simp] theorem State.tileLeft_core (s : State) (i : Nat) (w : BitVec 128) (cycles : Nat) (o : TleOut) (j : Nat) :
    (s.tileLeft i w cycles o).core j = if j = i then { s.core i with tle := o.t } else s.core j := by
  rw [State.tileLeft_eq]
  simp

theorem State.tileLeft_reg (s : State) (i : Nat) (w : BitVec 128) (cycles : Nat) (o : TleOut) (a : Nat)
    (h : a ∉ Claims.tileRegs i) : (s.tileLeft i w cycles o).reg a = s.reg a := by
  simp only [Claims.tileRegs, List.mem_cons, List.not_mem_nil, or_false, not_or] at h
  obtain ⟨hstatus, hlast, hkpoison, hlanes, hresults, hbusy⟩ := h
  rw [State.tileLeft_eq, State.reg_raise_ne _ _ (Reg.tleStatus_poison i) _ hstatus,
    State.reg_setF_ne _ (Reg.tleLast_op i) _ _ hlast, State.reg_setF_ne _ (Reg.tleLast_tag i) _ _ hlast,
    State.reg_setF_ne _ _ _ _ hlast, State.incWrap, State.reg_setF_ne _ _ _ _ hbusy, State.incWrap,
    State.reg_setF_ne _ _ _ _ hresults, State.incWrap, State.reg_setF_ne _ _ _ _ hlanes,
    State.reg_setF_ne _ _ _ _ hkpoison, State.reg_raise_ne _ _ (Reg.tleStatus_isat i) _ hstatus,
    State.reg_raise_ne _ _ (Reg.tleStatus_ovf i) _ hstatus, State.reg_raise_ne _ _ (Reg.tleStatus_inv i) _ hstatus,
    State.reg_raise_ne _ _ _ _ hstatus]
  rfl

theorem State.sameBeyondCores_tleEnd (s : State) (i cycles : Nat) (o : TleOut) :
    s.sameBeyondCores (s.tleEnd i cycles o) := by
  refine State.sameBeyondCores_incWrap _ _ (State.sameBeyondCores_incWrap _ _ (State.sameBeyondCores_incWrap _ _
    (State.sameBeyondCores_setF _ _ ?_)))
  exact State.sameBeyondCores_raise _ _ (State.sameBeyondCores_raise _ _ (State.sameBeyondCores_raise _ _
    (State.sameBeyondCores_raise _ _ (State.sameBeyondCores_bump 1 (State.sameBeyondCores_setCore i _
    (State.sameBeyondCores_refl s))))))

/-- TLE_LAST is all that the completion of a tile instruction writes. -/
theorem State.sameBeyondCores_lastOf_tle {s t : State} (i n st : Nat) (b : Bool) (h : s.sameBeyondCores t) :
    s.sameBeyondCores (t.lastOf i 3 n st b) := by
  rw [State.lastOf, if_pos rfl]
  have hl := State.sameBeyondCores_setF (Reg.tleLast_op i) (iOp n) (State.sameBeyondCores_setF (Reg.tleLast_tag i) (iTag n)
    (State.sameBeyondCores_setF (Reg.tleLast_status i) st h))
  split
  · exact State.sameBeyondCores_setF _ _ hl
  · exact hl

theorem State.sameBeyondCores_tileLeft (s : State) (i : Nat) (w : BitVec 128) (cycles : Nat) (o : TleOut) :
    s.sameBeyondCores (s.tileLeft i w cycles o) :=
  State.sameBeyondCores_lastOf_tle _ _ _ _ (s.sameBeyondCores_tleEnd i cycles o)

/-- A number put together from bits, the lowest first. -/
def ofBits (p : Nat → Bool) (n : Nat) : Nat := (List.range n).foldl (fun a k => a + b2n (p k) * 2 ^ k) 0

theorem ofBits_succ (p : Nat → Bool) (n : Nat) : ofBits p (n + 1) = 2 ^ n * b2n (p n) + ofBits p n := by
  simp only [ofBits, List.range_succ, List.foldl_append, List.foldl_cons, List.foldl_nil]
  rw [Nat.add_comm, Nat.mul_comm]

theorem ofBits_lt (p : Nat → Bool) (n : Nat) : ofBits p n < 2 ^ n := by
  induction n with
  | zero => exact Nat.zero_lt_one
  | succ n ih =>
    rw [ofBits_succ, Nat.pow_succ]
    cases p n <;> simp only [b2n, Bool.false_eq_true, if_true, if_false] <;> omega

theorem bit_ofBits (p : Nat → Bool) (n k : Nat) (hk : k < n) : bit (ofBits p n) k = p k := by
  rw [bit_eq_testBit]
  induction n with
  | zero => exact absurd hk (Nat.not_lt_zero k)
  | succ n ih =>
    rw [ofBits_succ, Nat.testBit_two_pow_mul_add _ (ofBits_lt p n)]
    split
    · next hlt => exact ih hlt
    · next hge =>
      obtain rfl : k = n := by omega
      rw [Nat.sub_self]
      cases p k <;> rfl

theorem kpoison_eq_ofBits (t : Tle) : kpoison t = ofBits (fun k => (t.mask k).poison) 8 := rfl

/-- The tile engine's registers after an instruction. -/
theorem State.tileLeft_ends (s : State) (i : Site) (w : BitVec 128) (cycles : Nat) (o : TleOut) :
    Claims.tileEnds s (s.tileLeft i w cycles o) i w cycles o := by
  have hst : tleSt o < 2 ^ 8 := by unfold tleSt; split <;> decide
  have htag : iTag w.toNat < 2 ^ 16 := bits_lt _ _ _
  have hop : iOp w.toNat < 2 ^ 8 := bits_lt _ _ _
  have hk : kpoison o.t < 2 ^ 8 := ofBits_lt _ 8
  rw [State.tileLeft_eq]
  constructor
  all_goals
    simp (disch := simp [fldProper, fldApart, Reg.tleStatus_nan_op, Reg.tleStatus_inv, Reg.tleStatus_ovf,
      Reg.tleStatus_isat, Reg.tleStatus_poison, Reg.tleLast_status, Reg.tleLast_tag, Reg.tleLast_op,
      Reg.tleKpoison_kpoison, Reg.tleCntLane_lanes, Reg.tleCntXcn_results, Reg.tleCntBusy_cycles]) only
      [State.getF_raise_self, State.getF_raise_apart, State.getF_setF_self, State.getF_setF_apart,
       State.getF_incWrap_self, State.getF_incWrap_apart, State.bump_getF, State.setCore_getF]
  case status => rw [← tleSt]; exact Nat.mod_eq_of_lt hst
  case tag => exact Nat.mod_eq_of_lt htag
  case op => exact Nat.mod_eq_of_lt hop
  case lanes => rfl
  case results => rfl
  case busy => rfl
  case kpoison =>
    intro k hk8
    rw [← State.tileLeft_eq, State.tileLeft_core, if_pos rfl]
    exact (congrArg (bit · k) (Nat.mod_eq_of_lt hk)).trans (bit_ofBits _ 8 k hk8)

/-! ## What nothing beyond the cores means for the parts of an issue -/

section
variable {s t : State} (h : s.sameBeyondCores t)
include h

theorem State.sameBeyondCores_eq : { t with regs := s.regs, cores := s.cores, fresh := s.fresh } = s := h
theorem State.sameBeyondCores_asker : t.asker = s.asker := (congrArg State.asker (State.sameBeyondCores_eq h) :)
theorem State.sameBeyondCores_tables : t.tables = s.tables := (congrArg State.tables (State.sameBeyondCores_eq h) :)
theorem State.sameBeyondCores_jobs : t.jobs = s.jobs := (congrArg State.jobs (State.sameBeyondCores_eq h) :)
theorem State.sameBeyondCores_dbg : t.dbg = s.dbg := (congrArg State.dbg (State.sameBeyondCores_eq h) :)
theorem State.sameBeyondCores_now : t.now = s.now := (congrArg State.now (State.sameBeyondCores_eq h) :)

end

theorem State.getF_of_reg {s t : State} (f : Fld) (h : t.reg f.off = s.reg f.off) : t.getF f = s.getF f := by
  simp only [State.getF, h]

theorem State.traceOn_of_same {s t : State} (h : s.sameBeyondCores t) (hr : ∀ a, a < 0x01000000 → t.reg a = s.reg a) :
    t.traceOn = s.traceOn := by
  simp only [State.traceOn, State.on, State.getF_of_reg _ (hr Reg.dbgTraceCtrl_enable.off (by decide)),
    State.getF_of_reg _ (hr Reg.dbgTraceStart_start.off (by decide)),
    State.getF_of_reg _ (hr Reg.dbgTraceEnd_stop.off (by decide)), State.sameBeyondCores_dbg h,
    State.sameBeyondCores_now h]

theorem siteBase_ge (i : Nat) : 0x01000000 ≤ siteBase i := by unfold siteBase towerBase; omega

/-- A core that has changed only its tile engine is as quiet as it was. -/
theorem State.quietAt_of_tile {s t : State} {i : Nat} {w : BitVec 128} {T : Tle} (hc : Clear s i w)
    (hsame : s.sameBeyondCores t) (hcore : t.core i = { s.core i with tle := T }) (hpc : t.pc i = s.pc i)
    (hstate : t.coreState i = s.coreState i) : t.quietAt i := by
  have hq := s.quietAt_of_clear i w hc
  constructor
  case frames => rw [hcore]; exact hq.frames
  case synq => rw [hcore]; exact hq.synq
  case steps => rw [hcore]; exact hq.steps
  case hold => rw [hcore]; exact hq.hold
  case waits => rw [hcore]; exact hq.waits
  case state => rw [hstate]; exact hq.state
  case asker => rw [State.sameBeyondCores_asker hsame]; exact hq.asker
  case tables => rw [State.sameBeyondCores_tables hsame]; exact hq.tables
  case line => rw [hcore, State.nextPc, hpc]; exact hq.line

/-! ## The issue of a tile instruction -/

/-- The registers of the sequencer are none of the tile engine's. -/
theorem tileReg_ge {i a : Nat} (h : a ∈ Claims.tileRegs i) : siteBase i + 0xC00 ≤ a := by
  simp only [Claims.tileRegs, Reg.tleStatus_nan_op, Reg.tleLast_status, Reg.tleKpoison_kpoison, Reg.tleCntLane_lanes,
    Reg.tleCntXcn_results, Reg.tleCntBusy_cycles, List.mem_cons, List.not_mem_nil, or_false] at h
  omega

theorem not_tileReg {i a : Nat} (h : a < siteBase i + 0xC00) : a ∉ Claims.tileRegs i :=
  fun hm => absurd (tileReg_ge hm) (Nat.not_le.2 h)

theorem pc_not_tileReg (i : Nat) : (Reg.corePc_pc i).off ∉ Claims.tileRegs i := not_tileReg (by simp [Reg.corePc_pc])
theorem retired_not_tileReg (i : Nat) : (Reg.coreRetired_count i).off ∉ Claims.tileRegs i :=
  not_tileReg (by simp [Reg.coreRetired_count])
theorem coreState_not_tileReg (i : Nat) : (Reg.coreStatus_state i).off ∉ Claims.tileRegs i :=
  not_tileReg (by simp [Reg.coreStatus_state])

/-- A refused tile instruction writes TLE_LAST alone. -/
theorem State.lastOf_refused_reg (s : State) (i n a : Nat) (h : a ≠ (Reg.tleLast_status i).off) :
    (s.lastOf i 3 n stBadParam false).reg a = s.reg a := by
  rw [State.lastOf, if_pos rfl, if_neg (by decide), State.reg_setF_ne _ (Reg.tleLast_op i) _ _ h,
    State.reg_setF_ne _ (Reg.tleLast_tag i) _ _ h, State.reg_setF_ne _ _ _ _ h]

/-- A tile instruction issued by a core that issues at once: what its action leaves, TLE_LAST, the sequencer's move and
what its status settles. -/
theorem State.issue_tile (s s' : State) (i : Nat) (w : BitVec 128) (op : Nat) (act : Act) (d : Done) (T : Tle)
    (hc : Clear s i w) (hop : isOp w 3 op = true) (ha : act (s.ask i 3) = some (s'.ask i 3, d))
    (hsame : s.sameBeyondCores s') (hlast : s.sameBeyondCores (s'.lastOf i 3 w.toNat d.st false))
    (hcore' : s'.core i = { s.core i with tle := T })
    (hcore : (s'.lastOf i 3 w.toNat d.st false).core i = { s.core i with tle := T })
    (hreg : ∀ a, a ∉ Claims.tileRegs i → (s'.lastOf i 3 w.toNat d.st false).reg a = s.reg a) :
    s.issue i w 3 [op] act = (((s'.lastOf i 3 w.toNat d.st false).past i).settle i 3 (iTag w.toNat) d).wake i := by
  obtain ⟨heng, hopc⟩ : iEng w.toNat = 3 ∧ iOp w.toNat = op := by simpa [isOp] using hop
  have hjobs' : s'.jobs.any (fun j => j.site == i) = false := by rw [State.sameBeyondCores_jobs hsame]; exact hc.jobs
  have hjobs : (s'.lastOf i 3 w.toNat d.st false).jobs.any (fun j => j.site == i) = false := by
    rw [State.sameBeyondCores_jobs hlast]; exact hc.jobs
  have hlow : ∀ a, a < 0x01000000 → (s'.lastOf i 3 w.toNat d.st false).reg a = s.reg a := fun a ha => hreg a (not_tileReg
    (by have hbase := siteBase_ge i; omega))
  have htrace : (s'.lastOf i 3 w.toNat d.st false).traceOn = false := by
    rw [State.traceOn_of_same hlast hlow]; exact hc.trace
  have hpc : (s'.lastOf i 3 w.toNat d.st false).pc i = s.pc i := State.getF_of_reg _ (hreg _ (pc_not_tileReg i))
  have hstate : (s'.lastOf i 3 w.toNat d.st false).coreState i = s.coreState i :=
    State.getF_of_reg _ (hreg _ (coreState_not_tileReg i))
  have hq := State.quietAt_of_tile hc hlast hcore hpc hstate
  rw [State.issue_clear s i w 3 [op] act s' d hc heng (by simp [hopc]) rfl ha
    ((State.sameBeyondCores_asker hsame).trans hc.asker)
    (by rw [State.sameBeyondCores_tables hsame]; exact hc.tables)]
  simp only
  rw [State.setWaits_same s' i (by rw [hcore']; exact hc.waits), State.begun_none s' i _ hjobs',
    State.stampJobs_none _ _ _ _ hjobs, State.traced_off _ _ _ _ _ _ _ _ htrace, ite_self,
    State.advance_quiet _ i w hq.frames hq.steps hq.line]

section
variable (s : State) (i k : Nat)

theorem State.core_ask (j : Nat) : (s.ask i k).core j = s.core j := rfl
theorem State.setCore_ask (j : Nat) (c : Core) : (s.ask i k).setCore j c = (s.setCore j c).ask i k := rfl
theorem State.bump_ask (n : Nat) : (s.ask i k).bump n = (s.bump n).ask i k := rfl
theorem State.setF_ask (f : Fld) (v : Nat) : (s.ask i k).setF f v = (s.setF f v).ask i k := rfl
theorem State.incWrap_ask (f : Fld) (n : Nat) : (s.ask i k).incWrap f n = (s.incWrap f n).ask i k := rfl
theorem State.raise_ask (b : Bool) (f : Fld) : (s.ask i k).raise b f = (s.raise b f).ask i k := by cases b <;> rfl

theorem State.tleFlags_eq (f : Flags) : s.tleFlags i f = (((s.raise f.nanOp (Reg.tleStatus_nan_op i)).raise f.inv
    (Reg.tleStatus_inv i)).raise f.ovf (Reg.tleStatus_ovf i)).raise f.isat (Reg.tleStatus_isat i) := rfl

theorem State.tleEnd_eq (cycles : Nat) (o : TleOut) : s.tleEnd i cycles o =
    ((((((s.setCore i { s.core i with tle := o.t }).bump 1).tleFlags i o.flags).setF (Reg.tleKpoison_kpoison i)
      (kpoison o.t)).incWrap (Reg.tleCntLane_lanes i) o.lanes).incWrap (Reg.tleCntXcn_results i) o.xcns).incWrap
      (Reg.tleCntBusy_cycles i) cycles := rfl

/-- Which site asks for table words makes no difference to how a tile instruction ends. -/
theorem State.tleEnd_ask (cycles : Nat) (o : TleOut) :
    (s.ask i k).tleEnd i cycles o = (s.tleEnd i cycles o).ask i k := by
  rw [State.tleEnd_eq, State.tleEnd_eq, State.core_ask, State.setCore_ask, State.bump_ask, State.tleFlags_eq,
    State.tleFlags_eq, State.raise_ask, State.raise_ask, State.raise_ask, State.raise_ask, State.setF_ask,
    State.incWrap_ask, State.incWrap_ask, State.incWrap_ask]

end

@[simp] theorem State.lastOf_tle_core (s : State) (i n st : Nat) (b : Bool) (j : Nat) :
    (s.lastOf i 3 n st b).core j = s.core j := by
  rw [State.lastOf, if_pos rfl]
  split <;> simp

/-- A core past a tile instruction has nothing left to go on with. -/
theorem State.wake_past_tile {s t v : State} {i : Nat} {w : BitVec 128} {T : Tle} (hc : Clear s i w)
    (hcore : t.core i = { s.core i with tle := T }) (hstate : t.coreState i = s.coreState i)
    (hv : v.core i = (t.past i).core i) (hvs : v.coreState i = (t.past i).coreState i) : v.wake i = v := by
  apply State.wake_quiet
  · rw [hv, State.past_synq, hcore]; exact hc.synq
  · rw [hv, State.past_hold, hcore]; exact (s.canIssue_state i w hc.can).2
  · rw [hvs, State.past_coreState, hstate, (s.canIssue_state i w hc.can).1]; decide

/-- A tile instruction that completes: what it leaves, and the sequencer past it. -/
theorem State.issue_tile_complete (s : State) (i : Nat) (w : BitVec 128) (op cycles : Nat) (act : Act) (o : TleOut)
    (hc : Clear s i w) (hop : isOp w 3 op = true)
    (ha : act (s.ask i 3) = some ((s.ask i 3).tleEnd i cycles o, Done.of (tleSt o))) :
    s.issue i w 3 [op] act = (s.tileLeft i w cycles o).past i := by
  have hcore : (s.tleEnd i cycles o).core i = { s.core i with tle := o.t } := by
    rw [← State.lastOf_tle_core (s.tleEnd i cycles o) i w.toNat (tleSt o) false, ← State.tileLeft, State.tileLeft_core,
      if_pos rfl]
  have hsettle : ∀ u : State, u.settle i 3 (iTag w.toNat) (Done.of (tleSt o)) = u := fun u => by
    unfold tleSt
    cases o.poison <;> rfl
  rw [State.tleEnd_ask] at ha
  rw [State.issue_tile s _ i w op act _ o.t hc hop ha (s.sameBeyondCores_tleEnd i cycles o)
    (s.sameBeyondCores_tileLeft i w cycles o) hcore ((State.lastOf_tle_core ..).trans hcore)
    (fun a h => s.tileLeft_reg i w cycles o a h), hsettle]
  have hcl : (s.tileLeft i w cycles o).core i = { s.core i with tle := o.t } := by rw [State.tileLeft_core, if_pos rfl]
  exact State.wake_past_tile hc hcl (State.getF_of_reg _ (State.tileLeft_reg _ _ _ _ _ _
    (coreState_not_tileReg i))) rfl rfl

/-- A tile instruction that is refused: the sequencer moves past it, and TLE_LAST and CORE_SOFT_ERR tell of it. -/
theorem State.issue_tile_refused (s : State) (i : Nat) (w : BitVec 128) (op : Nat) (act : Act) (hc : Clear s i w)
    (hop : isOp w 3 op = true) (ha : act (s.ask i 3) = refuse (s.ask i 3) stBadParam) :
    s.issue i w 3 [op] act = ((s.lastOf i 3 w.toNat stBadParam false).past i).softErr i stBadParam 3 := by
  have hcore : (s.lastOf i 3 w.toNat stBadParam false).core i = { s.core i with tle := (s.core i).tle } :=
    State.lastOf_tle_core ..
  have hreg : ∀ a, a ∉ Claims.tileRegs i → (s.lastOf i 3 w.toNat stBadParam false).reg a = s.reg a := fun a h =>
    State.lastOf_refused_reg s i w.toNat a fun e => h (by simp [Claims.tileRegs, e])
  rw [State.issue_tile s s i w op act (Done.of stBadParam) (s.core i).tle hc hop ha (State.sameBeyondCores_refl s)
    (State.sameBeyondCores_lastOf_tle _ _ _ _ (State.sameBeyondCores_refl s)) rfl hcore hreg]
  exact State.wake_past_tile hc hcore (State.getF_of_reg _ (hreg _ (coreState_not_tileReg i))) (State.softErr_core ..)
    (State.softErr_coreState ..)

/-! ## Completed and refused -/

/-- What a completed tile instruction changes. -/
theorem State.ran_tileLeft (s : State) (i : Nat) (w : BitVec 128) (cycles : Nat) (o : TleOut) (hc : Clear s i w) :
    s.ran ((s.tileLeft i w cycles o).past i) i (Claims.tileRegs i) { s.core i with tle := o.t } := by
  have hcl : (s.tileLeft i w cycles o).core i = { s.core i with tle := o.t } := by rw [State.tileLeft_core, if_pos rfl]
  have hreg := s.tileLeft_reg i w cycles o
  rw [← hcl]
  refine State.ran_past s _ i _ (State.getF_of_reg _ (hreg _ ?_)) (State.getF_of_reg _ (hreg _ ?_)) (fun a _ h => hreg a h)
    (fun j hj => ?_) ?_ (s.sameBeyondCores_tileLeft i w cycles o)
  · exact pc_not_tileReg i
  · exact retired_not_tileReg i
  · rw [State.tileLeft_core, if_neg hj]
  · rw [hcl]; exact hc.steps

theorem State.getF_past_tile (t : State) (i : Nat) (f : Fld) (h : f.off ∈ Claims.tileRegs i) :
    (t.past i).getF f = t.getF f := by
  have hge := tileReg_ge h
  refine State.getF_of_reg f (State.past_reg _ _ _ ?_)
  simp only [pcRegs, Reg.corePc_pc, Reg.coreRetired_count, List.mem_cons, List.not_mem_nil, or_false]
  omega

/-- The tile engine's registers stand as the sequencer moves past the instruction. -/
theorem State.tileEnds_past {s t : State} {i : Site} {w : BitVec 128} {cycles : Nat} {o : TleOut}
    (h : Claims.tileEnds s t i w cycles o) : Claims.tileEnds s (t.past i) i w cycles o := by
  have hstatus : ∀ f : Fld, f.off = (Reg.tleStatus_nan_op i).off → (t.past i).getF f = t.getF f := fun f e =>
    t.getF_past_tile i f (e ▸ .head _)
  have hlast : ∀ f : Fld, f.off = (Reg.tleLast_status i).off → (t.past i).getF f = t.getF f := fun f e =>
    t.getF_past_tile i f (e ▸ .tail _ (.head _))
  have hmask : ((t.past i).core i).tle = (t.core i).tle := by rw [State.past_core, if_pos rfl]
  constructor
  case status => exact (hlast _ rfl).trans h.status
  case tag => exact (hlast (Reg.tleLast_tag i) rfl).trans h.tag
  case op => exact (hlast (Reg.tleLast_op i) rfl).trans h.op
  case lanes => exact (t.getF_past_tile i _ (by simp [Claims.tileRegs])).trans h.lanes
  case results => exact (t.getF_past_tile i _ (by simp [Claims.tileRegs])).trans h.results
  case busy => exact (t.getF_past_tile i _ (by simp [Claims.tileRegs])).trans h.busy
  case nanOp => exact (hstatus _ rfl).trans h.nanOp
  case inv => exact (hstatus (Reg.tleStatus_inv i) rfl).trans h.inv
  case ovf => exact (hstatus (Reg.tleStatus_ovf i) rfl).trans h.ovf
  case isat => exact (hstatus (Reg.tleStatus_isat i) rfl).trans h.isat
  case poison => exact (hstatus (Reg.tleStatus_poison i) rfl).trans h.poison
  case kpoison => rw [t.getF_past_tile i _ (by simp [Claims.tileRegs]), hmask]; exact h.kpoison

/-- What a tile instruction that completes changes. -/
def State.tileDone (s : State) (e : Host.Outcome State Fault Refusal) (i : Site) (w : BitVec 128) (cycles : Nat)
    (o : TleOut) : Prop :=
  ∃ t, e = .next t ∧ s.ran t i (Claims.tileRegs i) { s.core i with tle := o.t } ∧ Claims.tileEnds s t i w cycles o

/-- What a tile instruction that is refused changes. -/
def State.tileRefused (s : State) (e : Host.Outcome State Fault Refusal) (i : Site) : Prop :=
  ∃ t, e = .next t ∧ s.ran t i [(Reg.tleLast_status i).off, (Reg.coreSoftErr_count i).off] (s.core i) ∧
    t.getF (Reg.tleLast_status i) = stBadParam ∧
    t.getF (Reg.coreSoftErr_count i) = Nat.min (s.getF (Reg.coreSoftErr_count i) + 1) 65535

theorem State.tileDone_issue (s : State) (i : Site) (w : BitVec 128) (op cycles : Nat) (act : Act) (o : TleOut)
    (hc : Clear s i w) (hop : isOp w 3 op = true)
    (ha : act (s.ask i 3) = some ((s.ask i 3).tleEnd i cycles o, Done.of (tleSt o))) :
    s.tileDone (next (s.issue i w 3 [op] act)) i w cycles o := by
  rw [s.issue_tile_complete i w op cycles act o hc hop ha]
  exact ⟨_, rfl, s.ran_tileLeft i w cycles o hc, State.tileEnds_past (s.tileLeft_ends i w cycles o)⟩

theorem State.tileRefused_issue (s : State) (i : Site) (w : BitVec 128) (op : Nat) (act : Act) (hc : Clear s i w)
    (hop : isOp w 3 op = true) (ha : act (s.ask i 3) = refuse (s.ask i 3) stBadParam) :
    s.tileRefused (next (s.issue i w 3 [op] act)) i := by
  rw [s.issue_tile_refused i w op act hc hop ha]
  have hreg := s.lastOf_refused_reg i w.toNat
  have hpast : s.ran ((s.lastOf i 3 w.toNat stBadParam false).past i) i [(Reg.tleLast_status i).off] (s.core i) := by
    have hran := State.ran_past s (s.lastOf i 3 w.toNat stBadParam false) i [(Reg.tleLast_status i).off]
      (State.getF_of_reg _ (hreg _ (by simp [Reg.corePc_pc, Reg.tleLast_status])))
      (State.getF_of_reg _ (hreg _ (by simp [Reg.coreRetired_count, Reg.tleLast_status])))
      (fun a _ h => hreg a (by simpa using h)) (fun j _ => State.lastOf_tle_core ..)
      ((congrArg Core.stepsLeft (State.lastOf_tle_core ..)).trans hc.steps)
      (State.sameBeyondCores_lastOf_tle _ _ _ _ (State.sameBeyondCores_refl s))
    rwa [State.lastOf_tle_core] at hran
  refine ⟨_, rfl, ?_, ?_, ?_⟩
  · obtain ⟨⟨hpc, hret, hregs, hcores⟩, hcore, hrest⟩ := State.ran_softErr hpast stBadParam 3
    exact ⟨⟨hpc, hret, fun a ha hb => hregs a ha (fun hm => hb (by simpa [or_comm] using hm)), hcores⟩, hcore, hrest⟩
  · rw [State.softErr_getF _ _ _ _ _ (by simp [Reg.tleLast_status]), State.getF_past_tile _ _ _ (by simp [Claims.tileRegs]),
      State.lastOf, if_pos rfl, if_neg (by decide),
      State.getF_setF_apart _ _ _ _ (by simp [fldProper, Reg.tleLast_op])
        (by simp [fldApart, Reg.tleLast_op, Reg.tleLast_status]),
      State.getF_setF_apart _ _ _ _ (by simp [fldProper, Reg.tleLast_tag])
        (by simp [fldApart, Reg.tleLast_tag, Reg.tleLast_status]),
      State.getF_setF_self _ _ _ (by simp [fldProper, Reg.tleLast_status])]
    rfl
  · rw [State.softErr_count, State.past_softCount, State.getF_of_reg _ (hreg _ (by
      simp [Reg.coreSoftErr_count, Reg.tleLast_status]))]

/-! ## The instructions -/

/-- An instruction of the tile engine completes where its word is taken and is refused where it is not. -/
def tileOpEnds (x : Claims.TileOp) : Prop :=
  ∀ (s : State) (i : Site) (w : BitVec 128), Clear s i w → isOp w 3 x.op = true →
    (x.takes w.toNat = true →
      s.tileDone (exec (x.cmd i w) s) i w x.cycles (x.out (s.core i).tle w.toNat s.fresh)) ∧
    (x.takes w.toNat = false → s.tileRefused (exec (x.cmd i w) s) i)

/-- No tile register is awaited where no job of the site runs. -/
theorem State.tilesBusy_none (s : State) (i : Nat) (ts : List Nat) (h : s.jobs.any (fun j => j.site == i) = false) :
    s.tilesBusy i ts = false := by
  simp [State.tilesBusy, State.pendingTiles, s.jobsAt_none i h]

theorem tileOpEnds_ofA {cmd : Site → BitVec 128 → Instr} {op fields cycles : Nat} {ok : LayA → Bool}
    {f : Tle → LayA → Nat → TleOut}
    (hexec : ∀ i w s, exec (cmd i w) s = next (s.tleA i w op fields ok cycles f)) :
    tileOpEnds (.ofA cmd op fields ok cycles f) := by
  intro s i w hc hop
  have hbusy := (s.ask i 3).tilesBusy_none i (tilesNamed (layA w.toNat) op fields) hc.jobs
  constructor
  · intro htake
    obtain ⟨huses, hok⟩ : onlyUses w.toNat fields = true ∧ ok (layA w.toNat) = true := Bool.and_eq_true_iff.1 htake
    refine (congrArg (s.tileDone · i w cycles _) (hexec i w s)).mpr (s.tileDone_issue i w op cycles _ _ hc hop ?_)
    simp only [huses, hok, hbusy, Bool.not_true, Bool.or_self, Bool.false_eq_true, if_false]
    rfl
  · intro htake
    have hbad : (!onlyUses w.toNat fields || !ok (layA w.toNat)) = true := by
      rw [← Bool.not_and, Bool.not_eq_true']
      exact htake
    refine (congrArg (s.tileRefused · i) (hexec i w s)).mpr (s.tileRefused_issue i w op _ hc hop ?_)
    simp only [hbad, if_true]

/-- KLOGIC and FLAGS take a word of their fields alone that names a mask register. -/
theorem mask_refused_iff {n fields : Nat} :
    (!onlyUses n fields || bits n 34 32 == 0) = !(onlyUses n fields && bits n 34 32 != 0) := by
  rw [Bool.not_and, bne, Bool.not_not]

theorem tileOpEnds_klogic : tileOpEnds ⟨.klogic, 0x42, fun n => onlyUses n (0x7 + 0x70 + 0x700 + 0x3000) &&
    bits n 34 32 != 0, cycMask, fun t n _ => tleKlogic t (bits n 34 32) (bits n 38 36) (bits n 42 40) (bits n 45 44)⟩ := by
  intro s i w hc hop
  constructor
  · intro (htake : (onlyUses w.toNat (0x7 + 0x70 + 0x700 + 0x3000) && bits w.toNat 34 32 != 0) = true)
    refine s.tileDone_issue i w 0x42 cycMask _ _ hc hop ?_
    simp only [mask_refused_iff, htake, Bool.not_true, Bool.false_eq_true, if_false]
    rfl
  · intro (htake : (onlyUses w.toNat (0x7 + 0x70 + 0x700 + 0x3000) && bits w.toNat 34 32 != 0) = false)
    refine s.tileRefused_issue i w 0x42 _ hc hop ?_
    simp only [mask_refused_iff, htake, Bool.not_false, if_true]

theorem tileOpEnds_flags : tileOpEnds ⟨.flags, 0x43, fun n => onlyUses n (0x7 + 0x4000 + 0x18000) &&
    bits n 34 32 != 0, cycMask, fun t n _ => tleFlags t (bits n 34 32) (bits n 48 47) (bit n 46)⟩ := by
  intro s i w hc hop
  have hbusy := (s.ask i 3).tilesBusy_none i (List.range 16) hc.jobs
  constructor
  · intro (htake : (onlyUses w.toNat (0x7 + 0x4000 + 0x18000) && bits w.toNat 34 32 != 0) = true)
    refine s.tileDone_issue i w 0x43 cycMask _ _ hc hop ?_
    simp only [mask_refused_iff, htake, hbusy, Bool.not_true, Bool.false_eq_true, if_false]
    rfl
  · intro (htake : (onlyUses w.toNat (0x7 + 0x4000 + 0x18000) && bits w.toNat 34 32 != 0) = false)
    refine s.tileRefused_issue i w 0x43 _ hc hop ?_
    simp only [mask_refused_iff, htake, Bool.not_false, if_true]

theorem tileOps_end : ∀ x ∈ Claims.tileOps, tileOpEnds x := by
  simp only [Claims.tileOps, List.forall_mem_cons]
  and_intros
  on_goal 42 => exact tileOpEnds_klogic
  on_goal 42 => exact tileOpEnds_flags
  on_goal 42 => exact fun x hx => absurd hx List.not_mem_nil
  all_goals exact tileOpEnds_ofA fun _ _ _ => rfl

/-- Settles O17: layout A by one lemma over its fields, check and effect, KLOGIC and FLAGS beside it. -/
theorem tileInstructions : Obligations.TileInstructions :=
  ⟨fun x hx s i w hclear hop htake => (tileOps_end x hx s i w ((s.clear_iff i w).1 hclear) hop).1 htake,
   fun x hx s i w hclear hop htake => (tileOps_end x hx s i w ((s.clear_iff i w).1 hclear) hop).2 htake⟩

end Sys2Proof.Machine
end

section
/-!
PROOF. A refused REG_WRITE can change a register of the die links (O48 fails): its answer crosses a die link whose CRC
injection is armed, and the first flit sent disarms it. The answer carries a value that the spec leaves free, so its way is
followed in steps that leave that value open.
-/
namespace Sys2Proof.Machine

/-! ## Steps of the fabric -/

/-- REG_DATA of a value, on its way from a site to a die. -/
def State.regData (s : State) (k : Packet) (q v st g : Nat) : TxEnt :=
  { pkt := { Packet.blank with
      cls := clsMgt, op := 5, srcEngine := 12, length := 9, status := 0, tag := k.tag, dst := k.src * 2 ^ 32
      src := s.towerVid (towerOf q), payload := clean (toLE 8 v ++ toLE 1 st) }
    hop := 0, transit := false, since := s.now, back := none, die := g, goal := .spray }

theorem State.regAnswer_routed {s : State} {k : Packet} {q v st g cand : Nat}
    (h : s.route (towerOf q) (vidNode k.src) = some (g, cand)) :
    s.regAnswer k q v st = (s.cross (towerOf q) (s.regData k q v st g)).pump := by
  rw [State.regAnswer, State.sendSpray, h]
  rfl

/-- A link that is ACTIVE puts the packet it picks on itself. -/
theorem State.carry_picked {s : State} {l n : Nat} {e : TxEnt} {q : Tx}
    (hact : s.getF (Reg.dlkLinkStatus_state l) = lkActive)
    (hpick : (s.link l).tx.pick dieWeights TxEnt.hop ((s.link l).room false) = some (e, q)) :
    State.carry l false (n + 1) s = State.carry l false n ((s.setLink l
      { s.link l with tx := q, stream := (s.link l).stream ++ pktWords e.pkt }).cross (linkEnd l true)
      { e with hop := e.hop + 1 }) := by
  have hpick' : ((s.link l).txOf false).pick dieWeights TxEnt.hop ((s.link l).room false) = some (e, q) := hpick
  rw [State.carry, hact]
  simp only [bne_self_eq_false, Bool.false_eq_true, if_false, hpick', Bool.not_false]

theorem State.serveLinks_single {s : State} {l : Nat} {x : DieLink} (h : s.links = [(l, x)]) :
    s.serveLinks = (State.carry l true x.txFar.q.length (State.carry l false x.tx.q.length s)).flushDie l := by
  rw [State.serveLinks, h]
  rfl

theorem State.toLink_near {s : State} {d h l : Nat} {e : TxEnt} (hhop : s.nextHop d e.die = h)
    (hway : ¬ (5 ≤ h ∨ 3 ≤ e.hop)) (hlink : linkOf d h = l) (hnear : l % 4 = d) (hidle : (s.link l).tx = Tx.reset) :
    s.toLink d e = s.setLink l { s.link l with tx := { Tx.reset with q := [e] } } := by
  rw [State.toLink, hhop]
  simp only [if_neg hway, hlink, if_pos hnear, hidle]
  rfl

theorem State.fabricOn_eq {s t : State} {n : Nat} (hn : s.ports.foldl (fun n e => n + e.2.rx.length) 0 = n)
    (ht : ([0, 1, 2, 3].foldl (fun s t => State.meshRun t n s) s).pump = t) :
    s.fabricOn = State.landAll (2 * t.landed.length + 16) t := by
  rw [State.fabricOn, hn, ht]

/-! ## The state and the packet -/

/-- A state at rest whose tower 0 answers node 0 by a port of tower 1, over die link 4, which is ACTIVE, awaits flit 1 and
has its CRC injection armed. Tower 0 takes no REG packets. -/
def answerCrossesLink : State :=
  ((((((State.reset.setF (Reg.optPortStatus_state 0 0) portUp).setReg (State.reset.entryOff 0 0) 0x10003#64).setReg
    (State.reset.entryOff 1 0) 0x10003#64).setF (Reg.dlkRoute_next 0) 8).setF (Reg.dlkLinkStatus_state 4) lkActive).setF
    (Reg.dlkInject_crc 4) 1).setLink 4 { DieLink.reset with retry := { Retry.reset with expect := 1 } }

/-- A REG_WRITE of DLK_INJECT of link 4. -/
def writeInject : Packet := { Packet.blank with cls := 3, op := 4, payload := clean (toLE 8 0x00800228 ++ toLE 8 0) }

theorem writeInject_arrives : Claims.arrives answerCrossesLink 0 0 writeInject clsMgt 4 0 where
  up := by decide +kernel
  kind := by decide
  node := by decide +kernel
  young := by decide +kernel
  site := by decide
  quiet := ⟨by decide +kernel, by decide +kernel, rfl⟩
  held := rfl
  room := fun h => absurd h (by decide)

theorem answerCrossesLink_barred : answerCrossesLink.on (Reg.skyCtrl_mgt_reg 0) = false := by decide +kernel

theorem writeInject_offset : leP (writeInject.payload.take 8) % 2 ^ 27 = 0x00800228 := by decide +kernel

theorem barLocate_inject : barLocate 0x00800228 = some (.dlk, 0, 552) := by decide +kernel

/-! ## The packet comes in -/

/-- The state once the packet has crossed its tower. -/
def packetAtSite : State :=
  ([0, 1, 2, 3].foldl (fun s t => State.meshRun t 1 s)
    (answerCrossesLink.setPort 0 0 { answerCrossesLink.port 0 0 with rx := [⟨writeInject, [], 0⟩] })).pump

/-- The state that answers it. -/
def atRest : State := { packetAtSite with landed := [] }

theorem packetAtSite_landed : packetAtSite.landed = [.site 0 0 writeInject []] := by decide +kernel

theorem atRest_barred : atRest.regBarred 0 writeInject = some stBadOpcode := by decide +kernel

theorem exec_writeInject : exec (.regWrite 0 0 writeInject) answerCrossesLink =
    .next (State.landAll 17 (atRest.regStatus writeInject 0 stBadOpcode)) := by
  have hpacket : answerCrossesLink.packetIn 0 0 writeInject clsMgt 4 [] = State.landAll 18 packetAtSite := by
    rw [State.packetIn, if_neg (by decide +kernel), State.receive, if_neg (by decide +kernel)]
    refine (State.fabricOn_eq (n := 1) ?_ rfl).trans ?_
    · decide +kernel
    · change State.landAll (2 * packetAtSite.landed.length + 16) packetAtSite = _
      rw [packetAtSite_landed]
      rfl
  have hland : State.landAll 18 packetAtSite = State.landAll 17 (atRest.regWritePkt 0 0 writeInject) := by
    rw [State.landAll, packetAtSite_landed]
    rfl
  change next (answerCrossesLink.packetIn 0 0 writeInject clsMgt 4 []) = _
  rw [hpacket, hland, State.regWritePkt, atRest_barred]
  rfl

/-! ## The answer goes out -/

/-- The answer: its value is free. -/
def answerOut : TxEnt := (atRest.bump 1).regData writeInject 0 (Config.freeWord atRest.fresh).toNat stBadOpcode 1

/-- The link with the answer in its queue. -/
def linkLoaded : DieLink := { (atRest.bump 1).link 4 with tx := { Tx.reset with q := [answerOut] } }

/-- The link with the answer on its way over it. -/
def linkSent : DieLink :=
  { linkLoaded with tx := ⟨[], ⟨[4, 4, 4, 0], 0⟩, [0, 0, 0, 13]⟩, stream := pktWords answerOut.pkt }

def answerQueued : State := (atRest.bump 1).setLink 4 linkLoaded

/-- The state once the link has been served. -/
def answerSent : State := ((answerQueued.setLink 4 linkSent).cross 1 { answerOut with hop := 1 }).flushDie 4

theorem cross_answerOut : (atRest.bump 1).cross 0 answerOut = answerQueued := by
  have hhop : (atRest.bump 1).nextHop 0 answerOut.die = 1 := by decide +kernel
  rw [State.cross, if_neg (by decide), show (atRest.bump 1).failover = none from rfl]
  change (atRest.bump 1).toLink 0 answerOut = _
  exact State.toLink_near hhop (by decide +kernel) rfl rfl (by decide +kernel)

theorem link_answerQueued : answerQueued.link 4 = linkLoaded := rfl

theorem pick_linkLoaded : linkLoaded.tx.pick dieWeights TxEnt.hop (linkLoaded.room false) =
    some (answerOut, ⟨[], ⟨[4, 4, 4, 0], 0⟩, [0, 0, 0, 13]⟩) := by
  have herase : linkLoaded.tx.pick dieWeights TxEnt.hop (linkLoaded.room false) =
      some (answerOut, ⟨[answerOut].erase answerOut, ⟨[4, 4, 4, 0], 0⟩, [0, 0, 0, 13]⟩) := by rfl
  rw [herase, List.erase_cons_head]

theorem serveLinks_answerQueued : answerQueued.serveLinks = answerSent := by
  have hact : answerQueued.getF (Reg.dlkLinkStatus_state 4) = lkActive := by decide +kernel
  have hcarry : State.carry 4 false 1 answerQueued =
      (answerQueued.setLink 4 linkSent).cross 1 { answerOut with hop := 1 } := by
    rw [State.carry_picked hact (link_answerQueued ▸ pick_linkLoaded), link_answerQueued, State.carry,
      show linkEnd 4 true = 1 from rfl, show linkLoaded.stream = [] from rfl, List.nil_append,
      show answerOut.hop + 1 = 1 from rfl]
    rfl
  rw [State.serveLinks_single (show answerQueued.links = [(4, linkLoaded)] from rfl),
    show linkLoaded.tx.q.length = 1 from rfl, show linkLoaded.txFar.q.length = 0 from rfl, hcarry, State.carry]
  rfl

/-- The injection is armed before the packet, and disarmed once the answer has gone out. -/
theorem inject_armed : answerCrossesLink.reg 0x00800228 = 1#64 := by decide +kernel

theorem inject_disarmed :
    (State.landAll 17 answerSent.serveLinks.serveLinks.servePorts).reg 0x00800228 = 0#64 := by decide +kernel

theorem regStatus_atRest :
    atRest.regStatus writeInject 0 stBadOpcode = answerSent.serveLinks.serveLinks.servePorts := by
  have hroute : (atRest.bump 1).route (towerOf 0) (vidNode writeInject.src) = some (1, 1) := by decide +kernel
  have hout : atRest.regStatus writeInject 0 stBadOpcode = ((atRest.bump 1).cross 0 answerOut).pump :=
    State.regAnswer_routed hroute
  rw [hout, cross_answerOut, State.pump, serveLinks_answerQueued]

/-- Refutes O48: of a REG_WRITE that the tower does not allow it says that the register named keeps its value, unless it
is one of a fabric block; but the answer's way out can disarm an injection in the DLK block. -/
theorem not_barAccesses : ¬ Obligations.BarAccesses := by
  rintro ⟨-, -, hpackets⟩
  obtain ⟨-, hwrite⟩ := hpackets answerCrossesLink 0 0 writeInject 0
  obtain ⟨hbarred, -⟩ := hwrite writeInject_arrives
  obtain ⟨t, v, hexec, -, hkept⟩ := hbarred answerCrossesLink_barred
  rw [exec_writeInject, regStatus_atRest] at hexec
  rw [writeInject_offset, ← Host.Outcome.next.inj hexec] at hkept
  have hsame := hkept .dlk 0 552 barLocate_inject (by decide) (by decide)
  rw [inject_disarmed, inject_armed] at hsame
  exact absurd hsame (by decide)

end Sys2Proof.Machine
end

section
/-!
PROOF. Traffic: what the fabric and the vaults do as packets move and requests are served. It is said once which parts of
the state and which registers that can change; what it leaves alone then follows for all of it at once.
-/
namespace Sys2Proof.Machine

/-- The register fields that traffic writes: counts of flits and bytes, the first ECC error, and armed injections. -/
inductive TrafficField : Fld → Prop
  | sentFlits (t : Nat) : TrafficField (Reg.skyCntTx_flits t)
  | discarded (t : Nat) : TrafficField (Reg.skyCntLost_discarded t)
  | portInject (t : Nat) : TrafficField (Reg.optInject_arm t)
  | dieCrc (l : Nat) : TrafficField (Reg.dlkLinkErr_crc l)
  | dieReplays (l : Nat) : TrafficField (Reg.dlkLinkErr_replays l)
  | activates (v : Nat) : TrafficField (Reg.vltCntAct_activates v)
  | bytesRead (v : Nat) : TrafficField (Reg.vltCntRd_bytes v)
  | bytesWritten (v : Nat) : TrafficField (Reg.vltCntWr_bytes v)
  | corrected (v : Nat) : TrafficField (Reg.vltEccCnt_corrected v)
  | uncorrectable (v : Nat) : TrafficField (Reg.vltEccCnt_uncorrectable v)
  | poisonReads (v : Nat) : TrafficField (Reg.vltEccCnt_poison_reads v)
  | eccAddr (v : Nat) : TrafficField (Reg.vltEccFirst_addr v)
  | eccSyndrome (v : Nat) : TrafficField (Reg.vltEccFirst_syndrome v)
  | eccParity (v : Nat) : TrafficField (Reg.vltEccFirst_parity v)
  | eccKind (v : Nat) : TrafficField (Reg.vltEccFirst_kind v)
  | eccValid (v : Nat) : TrafficField (Reg.vltEccFirst_valid v)

/-- `s` comes from `s₀` by traffic: updates of the vaults, the fabric, the records and what goes out, writes of the fields
above, and the disarming of a die link's CRC injection. -/
inductive State.Traffic (s₀ : State) : State → Prop
  | refl : s₀.Traffic s₀
  | upd {s : State} (h : s₀.Traffic s) (vaults ports links towers landed failover records out fresh) : s₀.Traffic
      { s with vaults := vaults, ports := ports, links := links, towers := towers, landed := landed
               failover := failover, records := records, out := out, fresh := fresh }
  | setF {s : State} (h : s₀.Traffic s) (f : Fld) (v : Nat) (hf : TrafficField f) : s₀.Traffic (s.setF f v)
  | disarm {s : State} (h : s₀.Traffic s) {l : Nat} : s₀.Traffic (s.setF (Reg.dlkInject_crc l) 0)

namespace State.Traffic
variable {s₀ s t : State}

theorem incSat (h : s₀.Traffic s) (f : Fld) (v : Nat) (hf : TrafficField f) : s₀.Traffic (s.incSat f v) := h.setF _ _ hf
theorem incWrap (h : s₀.Traffic s) (f : Fld) (v : Nat) (hf : TrafficField f) : s₀.Traffic (s.incWrap f v) := h.setF _ _ hf

theorem foldl {α : Type} {f : State → α → State} (h : s₀.Traffic s) (hf : ∀ s, s₀.Traffic s → ∀ a, s₀.Traffic (f s a))
    (l : List α) : s₀.Traffic (l.foldl f s) := by
  induction l generalizing s with
  | nil => exact h
  | cons x xs ih => exact ih (hf s h x)

theorem ite {c : Prop} [Decidable c] (hs : s₀.Traffic s) (ht : s₀.Traffic t) : s₀.Traffic (if c then s else t) := by
  split
  · exact hs
  · exact ht

theorem emit (h : s₀.Traffic s) (o) : s₀.Traffic (s.emit o) := by
  unfold State.emit
  grind [upd]

theorem setVault (h : s₀.Traffic s) (i v) : s₀.Traffic (s.setVault i v) := by
  unfold State.setVault
  grind [upd]

theorem setPort (h : s₀.Traffic s) (t1 p x) : s₀.Traffic (s.setPort t1 p x) := by
  unfold State.setPort
  grind [upd]

theorem setTower (h : s₀.Traffic s) (t1 x) : s₀.Traffic (s.setTower t1 x) := by
  unfold State.setTower
  grind [upd]

theorem setLink (h : s₀.Traffic s) (l x) : s₀.Traffic (s.setLink l x) := by
  unfold State.setLink
  grind [upd]

theorem record (h : s₀.Traffic s) (r) : s₀.Traffic (s.record r) := by
  unfold State.record
  grind [upd]

theorem bump (h : s₀.Traffic s) (n) : s₀.Traffic (s.bump n) := by
  unfold State.bump
  grind [upd]

theorem discard (h : s₀.Traffic s) (t1) : s₀.Traffic (s.discard t1) := by
  unfold State.discard
  grind [TrafficField.discarded, incSat]

theorem freeRx (h : s₀.Traffic s) (back k) : s₀.Traffic (s.freeRx back k) := by
  unfold State.freeRx
  grind [setPort]

theorem bounce (h : s₀.Traffic s) (t1 k st) : s₀.Traffic (s.bounce t1 k st) := by
  unfold State.bounce
  grind [discard, upd]

theorem outlived (h : s₀.Traffic s) (t1 k) : s₀.Traffic (s.outlived t1 k) := by
  unfold State.outlived
  grind [discard, upd]

theorem wireFlit (h : s₀.Traffic s) (t1 p seq nak bs) : s₀.Traffic (s.wireFlit t1 p seq nak bs) := by
  unfold State.wireFlit
  grind [TrafficField.portInject, bump, setPort, setF, emit]

theorem newFlit (h : s₀.Traffic s) (t1 p itag bs) : s₀.Traffic (s.newFlit t1 p itag bs) := by
  unfold State.newFlit
  grind [setPort, wireFlit]

theorem sendOn (h : s₀.Traffic s) (t1 p e1) : s₀.Traffic (s.sendOn t1 p e1) := by
  unfold State.sendOn
  grind [TrafficField.sentFlits, incWrap, setPort, outlived, newFlit, freeRx, emit, foldl]

theorem servePort (n : Nat) : ∀ {s : State} (_ : s₀.Traffic s) (t p), s₀.Traffic (State.servePort t p n s) := by
  induction n with
  | zero => exact fun h _ _ => h
  | succ n ih =>
    intro s h t p
    unfold State.servePort
    grind [setPort, sendOn]

theorem servePorts (h : s₀.Traffic s) : s₀.Traffic s.servePorts :=
  h.foldl (fun _ h _ => servePort _ h _ _) _

theorem toPort (h : s₀.Traffic s) (t1 p e1) : s₀.Traffic (s.toPort t1 p e1) := by
  unfold State.toPort
  grind [setPort]

theorem sprayHere (h : s₀.Traffic s) (e1) : s₀.Traffic (s.sprayHere e1) := by
  unfold State.sprayHere
  grind [setTower, discard, toPort, freeRx]

theorem noWay (h : s₀.Traffic s) (d e1) : s₀.Traffic (s.noWay d e1) := by
  unfold State.noWay
  grind [bounce, freeRx]

theorem toLink (h : s₀.Traffic s) (d e1) : s₀.Traffic (s.toLink d e1) := by
  unfold State.toLink
  grind [noWay, setLink]

theorem atGoal (h : s₀.Traffic s) (e1) : s₀.Traffic (s.atGoal e1) := by
  unfold State.atGoal
  grind [sprayHere, toPort, upd]

theorem cross (h : s₀.Traffic s) (d e1) : s₀.Traffic (s.cross d e1) := by
  unfold State.cross
  grind [toLink, atGoal, upd]

theorem wireDie (h : s₀.Traffic s) (l seq nak bs) : s₀.Traffic (s.wireDie l seq nak bs) := by
  have hl := fun x => h.setLink l x
  unfold State.wireDie
  refine ite (record (incSat (incSat (emit (bump (disarm ?_) _) _) _ _ (.dieCrc l)) _ _ (.dieReplays l)) _) (emit ?_ _) <;>
    exact hl _

theorem newDieFlit (h : s₀.Traffic s) (l bs) : s₀.Traffic (s.newDieFlit l bs) := by
  unfold State.newDieFlit
  grind [wireDie, setLink]

theorem flushDie (h : s₀.Traffic s) (l) : s₀.Traffic (s.flushDie l) := by
  unfold State.flushDie
  grind [setLink, newDieFlit, foldl]

theorem carry (n : Nat) : ∀ {s : State} (_ : s₀.Traffic s) (l far), s₀.Traffic (State.carry l far n s) := by
  induction n with
  | zero => exact fun h _ _ => h
  | succ n ih =>
    intro s h l far
    unfold State.carry
    grind [setLink, cross]

theorem serveLinks (h : s₀.Traffic s) : s₀.Traffic s.serveLinks :=
  h.foldl (fun _ h _ => (carry _ (carry _ h _ _) _ _).flushDie _) _

theorem pump (h : s₀.Traffic s) : s₀.Traffic (s.pump) := by
  unfold State.pump
  grind [serveLinks, servePorts]

theorem sendSpray (h : s₀.Traffic s) (t1 node k) : s₀.Traffic (s.sendSpray t1 node k) := by
  unfold State.sendSpray
  grind [cross, pump, discard]

theorem answer (h : s₀.Traffic s) (site k op st data) : s₀.Traffic (s.answer site k op st data) := by
  unfold State.answer
  grind [sendSpray]

theorem respond (h : s₀.Traffic s) (v op reply st data) : s₀.Traffic (s.respond v op reply st data) := by
  unfold State.respond
  grind [answer, emit]

theorem respondRead (h : s₀.Traffic s) (v reply st data) : s₀.Traffic (s.respondRead v reply st data) := by
  unfold State.respondRead
  grind [answer, emit]

theorem bookAs (h : s₀.Traffic s) (v cls narrow n) : s₀.Traffic (s.bookAs v cls narrow n) := by
  unfold State.bookAs
  grind [setVault]

theorem arbitrate (h : s₀.Traffic s) (v cls narrow off n) : s₀.Traffic (s.arbitrate v cls narrow off n) := by
  unfold State.arbitrate
  grind [bookAs]

theorem rowAsked (h : s₀.Traffic s) (v p) : s₀.Traffic (s.rowAsked v p) := by
  unfold State.rowAsked
  grind [setVault]

theorem touchRow (h : s₀.Traffic s) (v p) : s₀.Traffic (s.touchRow v p) := by
  unfold State.touchRow
  grind [TrafficField.activates, incWrap, setVault]

theorem eccFirst (h : s₀.Traffic s) (v off kind d) : s₀.Traffic (s.eccFirst v off kind d) := by
  unfold State.eccFirst
  grind [TrafficField.eccAddr, TrafficField.eccSyndrome, TrafficField.eccParity, TrafficField.eccKind, TrafficField.eccValid, setF]

theorem ceNote (h : s₀.Traffic s) (v off p) : s₀.Traffic (s.ceNote v off p) := by
  unfold State.ceNote
  grind [setVault, record]

theorem noteWord (h : s₀.Traffic s) (v off p d) : s₀.Traffic (s.noteWord v off p d) := by
  unfold State.noteWord
  grind [TrafficField.corrected, TrafficField.uncorrectable, TrafficField.poisonReads, incSat, eccFirst, record, ceNote]

theorem readVault (h : s₀.Traffic s) (v off n narrow) : s₀.Traffic (s.readVault v off n narrow).1 := by
  unfold State.readVault
  grind [TrafficField.bytesRead, incWrap, touchRow, noteWord, foldl]

theorem readAs (h : s₀.Traffic s) (site v off n narrow) : s₀.Traffic (s.readAs site v off n narrow).1 := by
  unfold State.readAs
  grind [readVault, arbitrate]

theorem drainOne (h : s₀.Traffic s) (v) : s₀.Traffic (s.drainOne v) := by
  unfold State.drainOne
  grind [setVault, touchRow]

theorem drainSome (h : s₀.Traffic s) (v k) : s₀.Traffic (s.drainSome v k) := by
  induction k generalizing s with
  | zero => exact h
  | succ k ih => exact ih (h.drainOne v)

theorem makeRoom (h : s₀.Traffic s) (v n) : s₀.Traffic (s.makeRoom v n) := by
  unfold State.makeRoom
  grind [drainSome]

theorem bufPut (h : s₀.Traffic s) (v e1) : s₀.Traffic (s.bufPut v e1) := by
  unfold State.bufPut
  grind [setVault, rowAsked]

theorem accept (h : s₀.Traffic s) (v e1) : s₀.Traffic (s.accept v e1) := by
  unfold State.accept
  grind [bufPut, makeRoom]

theorem notify (h : s₀.Traffic s) (v off n) : s₀.Traffic (s.notify v off n) := by
  unfold State.notify
  grind [setVault, sendSpray, foldl]

theorem writeVault (h : s₀.Traffic s) (v off data narrow) : s₀.Traffic (s.writeVault v off data narrow).1 := by
  unfold State.writeVault
  grind [TrafficField.bytesWritten, notify, incWrap, noteWord, accept, foldl]

theorem acceptPartial (h : s₀.Traffic s) (v off data narrow reply) :
    s₀.Traffic (s.acceptPartial v off data narrow reply) := by
  unfold State.acceptPartial
  grind [TrafficField.bytesWritten, notify, bufPut, incWrap, makeRoom, respond, accept, foldl]

theorem atomicVault (h : s₀.Traffic s) (v off aop wide operand compare) :
    s₀.Traffic (s.atomicVault v off aop wide operand compare).1 := by
  unfold State.atomicVault
  grind [readVault, writeVault]

theorem installWatch (v off who) {r} (e : s.installWatch v off who = some r) (h : s₀.Traffic s) : s₀.Traffic r.1 := by
  unfold State.installWatch at e
  grind [setVault, readVault]

theorem serve (h : s₀.Traffic s) (v q) : s₀.Traffic (s.serve v q) := by
  unfold State.serve
  split
  · exact (h.readVault _ _ _ _).respondRead _ _ _ _
  · exact ite (h.acceptPartial _ _ _ _ _) ((h.writeVault _ _ _ _).respond _ _ _ _ _)
  · exact (h.atomicVault ..).respond _ _ _ _ _
  · split
    · exact h.respond _ _ _ _ _
    · rename_i e
      exact (h.installWatch _ _ _ e).respond _ _ _ _ _

theorem grantOne (h : s₀.Traffic s) (v narrow) : s₀.Traffic (s.grantOne v narrow).1 := by
  unfold State.grantOne
  grind [setVault, serve]

theorem grants (h : s₀.Traffic s) (v k) : s₀.Traffic (s.grants v k) := by
  induction k generalizing s with
  | zero => exact h
  | succ k ih =>
    unfold State.grants
    grind [grantOne]

theorem arrive (h : s₀.Traffic s) (v q) : s₀.Traffic (s.arrive v q) := by
  unfold State.arrive
  grind [setVault, serve, bookAs, rowAsked, grants, foldl]

theorem openPort (h : s₀.Traffic s) (v) : s₀.Traffic (s.openPort v) := by
  unfold State.openPort
  grind [setVault, arrive, foldl]

/-! ## What traffic leaves alone -/

theorem cores (h : s₀.Traffic s) : s.cores = s₀.cores := by induction h <;> simp_all
theorem chans (h : s₀.Traffic s) : s.chans = s₀.chans := by induction h <;> simp_all
theorem started (h : s₀.Traffic s) : s.started = s₀.started := by induction h <;> simp_all
theorem asker (h : s₀.Traffic s) : s.asker = s₀.asker := by induction h <;> simp_all
theorem queues (h : s₀.Traffic s) : s.queues = s₀.queues := by induction h <;> simp_all
theorem events (h : s₀.Traffic s) : s.events = s₀.events := by induction h <;> simp_all
theorem senders (h : s₀.Traffic s) : s.senders = s₀.senders := by induction h <;> simp_all

theorem siteBase_mod (i : Nat) : siteBase i % 0x4000 = 0 := by unfold siteBase towerBase; omega

/-- Traffic writes no SQ_STATUS and no VLT_MAP. -/
theorem field_off {f : Fld} (hf : TrafficField f) : f.off % 0x4000 ≠ 0x1408 ∧ f.off % 0x4000 ≠ 0x2010 := by
  cases hf with
  | sentFlits t => simp [Reg.skyCntTx_flits, towerBase]; omega
  | discarded t => simp [Reg.skyCntLost_discarded, towerBase]; omega
  | portInject t => simp [Reg.optInject_arm, towerBase]; omega
  | dieCrc l => simp [Reg.dlkLinkErr_crc]; omega
  | dieReplays l => simp [Reg.dlkLinkErr_replays]; omega
  | activates v => have h := siteBase_mod v; simp [Reg.vltCntAct_activates]; omega
  | bytesRead v => have h := siteBase_mod v; simp [Reg.vltCntRd_bytes]; omega
  | bytesWritten v => have h := siteBase_mod v; simp [Reg.vltCntWr_bytes]; omega
  | corrected v => have h := siteBase_mod v; simp [Reg.vltEccCnt_corrected]; omega
  | uncorrectable v => have h := siteBase_mod v; simp [Reg.vltEccCnt_uncorrectable]; omega
  | poisonReads v => have h := siteBase_mod v; simp [Reg.vltEccCnt_poison_reads]; omega
  | eccAddr v => have h := siteBase_mod v; simp [Reg.vltEccFirst_addr]; omega
  | eccSyndrome v => have h := siteBase_mod v; simp [Reg.vltEccFirst_syndrome]; omega
  | eccParity v => have h := siteBase_mod v; simp [Reg.vltEccFirst_parity]; omega
  | eccKind v => have h := siteBase_mod v; simp [Reg.vltEccFirst_kind]; omega
  | eccValid v => have h := siteBase_mod v; simp [Reg.vltEccFirst_valid]; omega

/-- SQ_STATUS and VLT_MAP of every site keep their values. -/
theorem reg (h : s₀.Traffic s) {a : Nat} (ha : a % 0x4000 = 0x1408 ∨ a % 0x4000 = 0x2010) : s.reg a = s₀.reg a := by
  induction h with
  | refl => rfl
  | upd _ _ _ _ _ _ _ _ _ _ ih => exact ih
  | setF _ f v hf ih =>
    obtain ⟨hsq, hmap⟩ := field_off hf
    rw [State.reg_setF_ne _ _ _ _ (by rintro rfl; omega), ih]
  | @disarm s _ l ih =>
    rw [State.reg_setF_ne _ _ _ _ (by rintro rfl; simp [Reg.dlkInject_crc] at ha; omega), ih]

end State.Traffic
end Sys2Proof.Machine
end

section
/-!
PROOF. Commands of the command processor: how one that is taken completes, and the commands on rings and event rings (O45).
-/
namespace Sys2Proof.Machine

/-! ## How a command completes -/

/-- The k-th command is a given one, not yet complete. -/
def State.holdsCmd (s : State) (k : Nat) (c : Started) : Prop :=
  ∃ d, s.started[k]? = some d ∧ d.ring = c.ring ∧ d.head = c.head ∧ d.cmd = c.cmd ∧ d.done = none

theorem State.holdsCmd_of_takes {s : State} {k op : Nat} {c : Started} (h : Claims.takes s k c op) : s.holdsCmd k c :=
  ⟨c, h.1, rfl, rfl, rfl, h.2.1⟩

theorem State.holdsCmd_of_started {s t : State} {k : Nat} {c : Started} (h : s.holdsCmd k c)
    (he : t.started = s.started) : t.holdsCmd k c := by
  obtain ⟨d, hd, hrest⟩ := h
  exact ⟨d, he ▸ hd, hrest⟩

theorem State.holdsCmd_begin {s : State} {k : Nat} {c : Started} (h : s.holdsCmd k c) (cores : List Nat) :
    (s.begin_ c cores).holdsCmd k c := by
  obtain ⟨d, hd, hring, hhead, hcmd, hdone⟩ := h
  refine ⟨{ d with work := some cores }, ?_, hring, hhead, hcmd, hdone⟩
  simp [State.begin_, hd, hring, hhead, hdone]

theorem State.ends_done {s : State} {k : Nat} {c : Started} (h : s.holdsCmd k c) (st res : Nat) :
    Claims.ends (s.done c st res) k c st res := by
  obtain ⟨d, hd, hring, hhead, hcmd, hdone⟩ := h
  refine ⟨{ d with done := some (st, res) }, ?_, hring, hhead, hcmd, rfl⟩
  simp [State.done, State.endCommand, hd, hring, hhead, hdone]

/-- A command that has completed, its look-ups over. -/
def State.finish (s : State) (c : Started) (st res : Nat) : State :=
  (s.done c st res).forget hostSite (Claims.cmdKey c)

@[simp] theorem State.finish_getF (s : State) (c : Started) (st res : Nat) (f : Fld) :
    (s.finish c st res).getF f = s.getF f := (rfl)
@[simp] theorem State.finish_ringState (s : State) (c : Started) (st res r : Nat) :
    (s.finish c st res).ringState r = s.ringState r := (rfl)
@[simp] theorem State.finish_ringSize (s : State) (c : Started) (st res r : Nat) :
    (s.finish c st res).ringSize r = s.ringSize r := (rfl)
@[simp] theorem State.finish_evRing (s : State) (c : Started) (st res e : Nat) :
    (s.finish c st res).evRing e = s.evRing e := (rfl)
@[simp] theorem State.finish_chan (s : State) (c : Started) (st res k : Nat) :
    (s.finish c st res).chan k = s.chan k := (rfl)
@[simp] theorem State.finish_queue (s : State) (c : Started) (st res q : Nat) :
    (s.finish c st res).queue q = s.queue q := (rfl)

/-- The look-ups of a command begin with nothing to read at other nodes. -/
abbrev State.lookedUp (s : State) (c : Started) : State := s.ask hostSite (Claims.cmdKey c)

theorem State.lookedUp_holdsCmd {s : State} {k op : Nat} {c : Started} (h : Claims.takes s k c op) :
    (s.lookedUp c).holdsCmd k c := State.holdsCmd_of_started (State.holdsCmd_of_takes h) rfl

/-- What keeps the look-ups of a command as they began wants nothing of another node. -/
theorem State.wanted_of_asker {s u : State} {c : Started} (h : u.asker = (s.lookedUp c).asker) : u.wanted = [] := by
  rw [State.wanted, h]
  rfl

/-- A command that completes in one step. -/
theorem State.command_finish {s u : State} {k op st res : Nat} {c : Started} {f : State → Started → State}
    (hc : Claims.takes s k c op) (hf : f (s.lookedUp c) c = u.done c st res) (hw : u.wanted = []) :
    s.command k op f = u.finish c st res := by
  obtain ⟨hget, hdone, hop, hasked⟩ := hc
  have hlook : s.lookUp hostSite (Claims.cmdKey c) hostEngine (fun s => some (f s c, ())) =
      .done (u.finish c st res) () := by
    have hw' : (u.done c st res).wanted = [] := hw
    simp only [State.lookUp, hasked, hf, hw']
    rfl
  simp only [State.command, hget, hdone, hop, and_self, if_true]
  exact congrArg (fun x : Tried Unit => match x with | .waits s' => s' | .done s' _ => s') hlook

theorem State.finish_ends {s : State} {k : Nat} {c : Started} (h : s.holdsCmd k c) (st res : Nat) :
    Claims.ends (s.finish c st res) k c st res := State.ends_done h st res

/-- What a command that completes leaves: its completion, and what holds of the state it completes in. -/
theorem State.command_ends {s u : State} {k op st res : Nat} {c : Started} {f : State → Started → State} {P : State → Prop}
    (hc : Claims.takes s k c op) (hf : f (s.lookedUp c) c = u.done c st res) (hw : u.wanted = [])
    (hu : u.holdsCmd k c) (hP : P (u.finish c st res)) :
    ∃ t, next (s.command k op f) = .next t ∧ Claims.ends t k c st res ∧ P t :=
  ⟨_, congrArg Host.Outcome.next (State.command_finish hc hf hw), State.finish_ends hu st res, hP⟩

/-! ## Bytes of a command -/

theorem leNat_lt (bs : List Byte) : leNat bs < 256 ^ bs.length := by
  induction bs with
  | nil => exact Nat.zero_lt_one
  | cons b bs ih =>
    have hb := b.isLt
    rw [leNat, List.length_cons, Nat.pow_succ]
    omega

theorem fieldLE_lt (bs : List Byte) (o w : Nat) : fieldLE bs o w < 256 ^ w :=
  Nat.lt_of_lt_of_le (leNat_lt _) (Nat.pow_le_pow_right (by decide) (by simp [slice]))

/-! ## NOP, IDENTIFY and undefined opcodes -/

theorem cmdNop_ends {s : State} {k : Nat} {c : Started} (hc : Claims.takes s k c 0) :
    ∃ t, exec (.cmdNop k) s = .next t ∧ Claims.ends t k c stOk 0 := by
  obtain ⟨t, hexec, hends, -⟩ := State.command_ends (u := s.lookedUp c) (st := stOk) (res := 0) (P := fun _ => True)
    (f := fun s c => s.done c stOk 0) hc rfl rfl (State.lookedUp_holdsCmd hc) trivial
  exact ⟨t, hexec, hends⟩

theorem undefinedCommand_ends {s : State} {k op : Nat} {c : Started} (hget : s.started[k]? = some c) (hdone : c.done = none)
    (hop : cmdOp c.cmd = op) (hform : cmdForm op = none) :
    ∃ t, exec (.undefinedCommand k) s = .next t ∧ Claims.ends t k c stBadOpcode 0 := by
  refine ⟨s.done c stBadOpcode 0, ?_, State.ends_done ⟨c, hget, rfl, rfl, rfl, hdone⟩ _ _⟩
  change execUndefinedCommand k s = _
  simp [execUndefinedCommand, hget, hdone, hop, hform, next]

theorem length_toLE (n x : Nat) : (toLE n x).length = n := by
  induction n generalizing x with
  | zero => rfl
  | succ n ih => rw [toLE, List.length_cons, ih]

theorem length_identity (s : State) : s.identity.length = 4096 := by
  rw [State.identity]
  simp only [List.length_append, length_toLE, List.length_replicate, List.length_cons, List.length_nil, bitmap,
    List.length_map, List.length_range]

theorem identify_ends {s : State} {k : Nat} {c : Started} (hc : Claims.takes s k c 1)
    (hpage : fieldLE c.cmd 8 8 % 4096 = 0) (hup : s.on Reg.hifLink_up = true) :
    ∃ t, exec (.identify k) s = .next t ∧ Claims.ends t k c stOk 4096 ∧
      t.out = s.out ++ [.hostWrite (fieldLE c.cmd 8 8) (clean s.identity)] ∧ s.identity.length = 4096 := by
  refine State.command_ends (u := (s.lookedUp c).emit (.hostWrite (fieldLE c.cmd 8 8) (clean s.identity))) hc ?_ rfl
    (State.lookedUp_holdsCmd hc) ⟨rfl, length_identity s⟩
  have hup' : (s.lookedUp c).on Reg.hifLink_up = true := hup
  simp only [hpage, hup']
  rfl

/-! ## Rings -/

theorem kOk_iff (n : Nat) : kOk n = true ↔ 4 ≤ n ∧ n ≤ 16 := by simp [kOk]

/-- A DISABLED ring that is enabled: its indices are 0 and it is ACTIVE. -/
theorem State.enableRing_disabled {s : State} {r : Nat} (h : s.ringState r = rgDisabled) : s.enableRing r =
    (((((((s.setF (Reg.cmpRingStatus_sq_head r) 0).setF (Reg.cmpRingIdx_sq_tail r) 0).setF (Reg.cmpRingIdx_cq_tail r)
      0).setF (Reg.cmpRingStatus_cq_full r) 0).setRing r Ring.reset).setF (Reg.cmpRingCfg_enable r) 1).setF
      (Reg.cmpRingStatus_state r) rgActive) := by
  rw [State.enableRing, h]
  rfl

/-- A ring as RING_CREATE leaves it: its bases and its size set, then enabled. -/
def State.ringMade (s : State) (r sq cq n : Nat) : State :=
  (((s.setF (Reg.cmpSqBase_base r) sq).setF (Reg.cmpCqBase_base r) cq).setF (Reg.cmpRingCfg_log2_entries r) n).enableRing r

section
variable {s : State} {r sq cq n : Nat} (h : s.ringState r = rgDisabled)
include h

theorem State.ringMade_eq : s.ringMade r sq cq n =
    ((((((((((s.setF (Reg.cmpSqBase_base r) sq).setF (Reg.cmpCqBase_base r) cq).setF (Reg.cmpRingCfg_log2_entries r)
      n).setF (Reg.cmpRingStatus_sq_head r) 0).setF (Reg.cmpRingIdx_sq_tail r) 0).setF (Reg.cmpRingIdx_cq_tail r)
      0).setF (Reg.cmpRingStatus_cq_full r) 0).setRing r Ring.reset).setF (Reg.cmpRingCfg_enable r) 1).setF
      (Reg.cmpRingStatus_state r) rgActive) := by
  rw [State.ringMade, State.enableRing_disabled]
  rw [← h]
  simp (disch := simp [fldProper, fldApart, Reg.cmpSqBase_base, Reg.cmpCqBase_base, Reg.cmpRingCfg_log2_entries,
    Reg.cmpRingStatus_state]) only [State.ringState, State.getF_setF_apart]

theorem State.ringMade_started : (s.ringMade r sq cq n).started = s.started := by
  simp only [State.ringMade_eq h, State.setF_started, State.setRing_started]

theorem State.ringMade_asker : (s.ringMade r sq cq n).asker = s.asker := by
  simp only [State.ringMade_eq h, State.setF_asker, State.setRing_asker]


theorem State.ringMade_ringState : (s.ringMade r sq cq n).ringState r = rgActive := by
  rw [State.ringMade_eq h]
  exact State.getF_setF_self _ _ _ (by simp [fldProper, Reg.cmpRingStatus_state])

/-- What a field holds in a ring as RING_CREATE leaves it: the last write of it. -/
theorem State.ringMade_ringSize (hn : n ≤ 16) : (s.ringMade r sq cq n).ringSize r = 2 ^ n := by
  have hfield : (s.ringMade r sq cq n).getF (Reg.cmpRingCfg_log2_entries r) = n % 2 ^ 5 := by
    simp (disch := simp [fldProper, fldApart, Reg.cmpRingCfg_log2_entries, Reg.cmpRingStatus_state,
      Reg.cmpRingStatus_sq_head, Reg.cmpRingIdx_sq_tail, Reg.cmpRingIdx_cq_tail, Reg.cmpRingStatus_cq_full,
      Reg.cmpRingCfg_enable]) only [State.ringMade_eq h, State.getF_setF_apart, State.setRing_getF, State.getF_setF_self]
    rfl
  rw [State.ringSize, hfield, Nat.mod_eq_of_lt (by omega)]

theorem State.ringMade_sqBase (hsq : sq < 2 ^ 52) : (s.ringMade r sq cq n).getF (Reg.cmpSqBase_base r) = sq := by
  simp (disch := simp [fldProper, fldApart, Reg.cmpRingCfg_log2_entries, Reg.cmpRingStatus_state, Reg.cmpSqBase_base,
    Reg.cmpRingStatus_sq_head, Reg.cmpRingIdx_sq_tail, Reg.cmpRingIdx_cq_tail, Reg.cmpRingStatus_cq_full,
    Reg.cmpRingCfg_enable, Reg.cmpCqBase_base]) only [State.ringMade_eq h, State.getF_setF_apart, State.setRing_getF,
    State.getF_setF_self]
  exact Nat.mod_eq_of_lt hsq

theorem State.ringMade_cqBase (hcq : cq < 2 ^ 52) : (s.ringMade r sq cq n).getF (Reg.cmpCqBase_base r) = cq := by
  simp (disch := simp [fldProper, fldApart, Reg.cmpRingCfg_log2_entries, Reg.cmpRingStatus_state,
    Reg.cmpRingStatus_sq_head, Reg.cmpRingIdx_sq_tail, Reg.cmpRingIdx_cq_tail, Reg.cmpRingStatus_cq_full,
    Reg.cmpRingCfg_enable, Reg.cmpCqBase_base]) only [State.ringMade_eq h, State.getF_setF_apart, State.setRing_getF,
    State.getF_setF_self]
  exact Nat.mod_eq_of_lt hcq

end

theorem ringCreate_ends {s : State} {k r : Nat} {c : Started} (hc : Claims.takes s k c 2) (hr : r = fieldLE c.cmd 8 1)
    (h1 : 1 ≤ r) (h64 : r < 64) (hn : 4 ≤ fieldLE c.cmd 9 1) (hn' : fieldLE c.cmd 9 1 ≤ 16)
    (hsq : fieldLE c.cmd 16 8 % 4096 = 0) (hcq : fieldLE c.cmd 24 8 % 4096 = 0) (hring : s.ringState r = rgDisabled) :
    ∃ t, exec (.ringCreate k) s = .next t ∧ Claims.ends t k c stOk 0 ∧ t.ringState r = rgActive ∧
      t.ringSize r = 2 ^ fieldLE c.cmd 9 1 ∧ t.getF (Reg.cmpSqBase_base r) = fieldLE c.cmd 16 8 / 4096 ∧
      t.getF (Reg.cmpCqBase_base r) = fieldLE c.cmd 24 8 / 4096 := by
  have hbase (o : Nat) : fieldLE c.cmd o 8 / 4096 < 2 ^ 52 := by
    have h : fieldLE c.cmd o 8 < 2 ^ 64 := fieldLE_lt c.cmd o 8
    omega
  have hu : (s.lookedUp c).ringState r = rgDisabled := hring
  refine State.command_ends (u := (s.lookedUp c).ringMade r (fieldLE c.cmd 16 8 / 4096) (fieldLE c.cmd 24 8 / 4096)
    (fieldLE c.cmd 9 1)) hc ?_ ?_ (State.holdsCmd_of_started (State.lookedUp_holdsCmd hc) (State.ringMade_started hu))
    ?_
  · have hk := (kOk_iff _).2 ⟨hn, hn'⟩
    have h0 : r ≠ 0 := by omega
    simp only [← hr, h0, hk, hsq, hcq, hu, decide_false, Nat.not_le.2 h64]
    rfl
  · exact State.wanted_of_asker (State.ringMade_asker hu)
  · simp only [State.finish_ringState, State.finish_ringSize, State.finish_getF]
    exact ⟨State.ringMade_ringState hu, State.ringMade_ringSize hu hn', State.ringMade_sqBase hu (hbase 16),
      State.ringMade_cqBase hu (hbase 24)⟩

end Sys2Proof.Machine
end

section
/-!
PROOF. RING_DESTROY and the commands on event rings (O45).
-/
namespace Sys2Proof.Machine

/-! ## RING_DESTROY -/

section
variable {s : State} {r : Nat} (h : s.ringState r = rgActive ∨ s.ringState r = rgError)
include h

theorem State.drainRing_eq : s.drainRing r =
    (s.setF (Reg.cmpRingCfg_enable r) 0).setF (Reg.cmpRingStatus_state r) rgDraining := by
  have hkeep : (s.setF (Reg.cmpRingCfg_enable r) 0).ringState r = s.ringState r :=
    State.getF_setF_apart _ _ _ _ (by simp [fldProper, Reg.cmpRingCfg_enable])
      (by simp [fldApart, Reg.cmpRingCfg_enable, Reg.cmpRingStatus_state])
  rw [State.drainRing, hkeep, if_pos h]

theorem State.drainRing_started : (s.drainRing r).started = s.started := by
  rw [State.drainRing_eq h, State.setF_started, State.setF_started]

theorem State.drainRing_asker : (s.drainRing r).asker = s.asker := by
  rw [State.drainRing_eq h, State.setF_asker, State.setF_asker]

theorem State.drainRing_ringState : (s.drainRing r).ringState r = rgDraining := by
  rw [State.drainRing_eq h]
  exact State.getF_setF_self _ _ _ (by simp [fldProper, Reg.cmpRingStatus_state])

end

theorem ringDestroy_ends {s : State} {k r : Nat} {c : Started} (hc : Claims.takes s k c 3) (hr : r = fieldLE c.cmd 8 1)
    (h1 : 1 ≤ r) (h64 : r < 64) (hother : r ≠ c.ring) (hring : s.ringState r = rgActive ∨ s.ringState r = rgError) :
    ∃ t, exec (.ringDestroy k) s = .next t ∧ Claims.ends t k c stOk 0 ∧ t.ringState r = rgDraining := by
  have hu : (s.lookedUp c).ringState r = rgActive ∨ (s.lookedUp c).ringState r = rgError := hring
  refine State.command_ends (u := (s.lookedUp c).drainRing r) hc ?_ (State.wanted_of_asker (State.drainRing_asker hu))
    (State.holdsCmd_of_started (State.lookedUp_holdsCmd hc) (State.drainRing_started hu)) ?_
  · have h0 : r ≠ 0 := by omega
    have hother' : (r == c.ring) = false := by simp [hother]
    have hoff : ((s.lookedUp c).ringState r == rgDisabled) = false := by rcases hu with h | h <;> rw [h] <;> rfl
    have hdrain : ((s.lookedUp c).ringState r == rgDraining) = false := by rcases hu with h | h <;> rw [h] <;> rfl
    simp only [← hr, h0, hother', hoff, hdrain, decide_false, Nat.not_le.2 h64]
    rfl
  · rw [State.finish_ringState, State.drainRing_ringState hu]

/-! ## Event rings -/

/-- An event ring as EQ_CREATE leaves it: its base and its size set, then enabled. -/
def State.eqMade (s : State) (e a n : Nat) : State :=
  ((s.setF (Reg.cmpEqBase_base e) a).setF (Reg.cmpEqCfg_log2_entries e) n).enableEq e

/-- What an event ring holds is what was last put there. -/
theorem State.setEvRing_evRing_self (s : State) (e : Nat) (x : EvRing) : (s.setEvRing e x).evRing e = x :=
  SMap.get_put_same _ _ _ _

section
variable {s : State} {e a n : Nat} (h : s.eqOn e = false)
include h

theorem State.eqMade_eq : s.eqMade e a n =
    ((((((s.setF (Reg.cmpEqBase_base e) a).setF (Reg.cmpEqCfg_log2_entries e) n).setEvRing e EvRing.reset).setF
      (Reg.cmpEqStatus_tail e) 0).setF (Reg.cmpEqStatus_held e) 0).setF (Reg.cmpEqCfg_enable e) 1) := by
  have hkeep : ((s.setF (Reg.cmpEqBase_base e) a).setF (Reg.cmpEqCfg_log2_entries e) n).getF (Reg.cmpEqCfg_enable e) =
      s.getF (Reg.cmpEqCfg_enable e) := by
    simp (disch := simp [fldProper, fldApart, Reg.cmpEqBase_base, Reg.cmpEqCfg_log2_entries, Reg.cmpEqCfg_enable]) only
      [State.getF_setF_apart]
  have hoff : ((s.setF (Reg.cmpEqBase_base e) a).setF (Reg.cmpEqCfg_log2_entries e) n).eqOn e = false := by
    rw [← h, State.eqOn, State.on, hkeep]
    rfl
  have hheld (u : State) : ((u.setEvRing e EvRing.reset).setF (Reg.cmpEqStatus_tail e) 0).showHeld e =
      ((u.setEvRing e EvRing.reset).setF (Reg.cmpEqStatus_tail e) 0).setF (Reg.cmpEqStatus_held e) 0 := by
    rw [State.showHeld, State.setF_evRing, State.setEvRing_evRing_self]
    rfl
  rw [State.eqMade, State.enableEq, hoff, ← hheld]
  rfl

theorem State.eqMade_started : (s.eqMade e a n).started = s.started := by
  simp only [State.eqMade_eq h, State.setF_started, State.setEvRing_started]

theorem State.eqMade_asker : (s.eqMade e a n).asker = s.asker := by
  simp only [State.eqMade_eq h, State.setF_asker, State.setEvRing_asker]

theorem State.eqMade_eqOn : (s.eqMade e a n).eqOn e = true := by
  have hfield : (s.eqMade e a n).getF (Reg.cmpEqCfg_enable e) = 1 := by
    rw [State.eqMade_eq h]
    exact State.getF_setF_self _ _ _ (by simp [fldProper, Reg.cmpEqCfg_enable])
  rw [State.eqOn, State.on, hfield]
  rfl

theorem State.eqMade_eqSize (hn : n ≤ 16) : (s.eqMade e a n).eqSize e = 2 ^ n := by
  have hfield : (s.eqMade e a n).getF (Reg.cmpEqCfg_log2_entries e) = n % 2 ^ 5 := by
    simp (disch := simp [fldProper, fldApart, Reg.cmpEqCfg_log2_entries, Reg.cmpEqStatus_tail, Reg.cmpEqStatus_held,
      Reg.cmpEqCfg_enable]) only [State.eqMade_eq h, State.getF_setF_apart, State.setEvRing_getF, State.getF_setF_self]
    rfl
  rw [State.eqSize, hfield, Nat.mod_eq_of_lt (by omega)]

theorem State.eqMade_evRing : (s.eqMade e a n).evRing e = EvRing.reset := by
  simp only [State.eqMade_eq h, State.setF_evRing, State.setEvRing_evRing_self]

end

@[simp] theorem State.finish_eqOn (s : State) (c : Started) (st res e : Nat) :
    (s.finish c st res).eqOn e = s.eqOn e := (rfl)
@[simp] theorem State.finish_eqSize (s : State) (c : Started) (st res e : Nat) :
    (s.finish c st res).eqSize e = s.eqSize e := (rfl)

theorem eqCreate_ends {s : State} {k e : Nat} {c : Started} (hc : Claims.takes s k c 4) (he : e = fieldLE c.cmd 8 1)
    (h64 : e < 64) (hn : 4 ≤ fieldLE c.cmd 9 1) (hn' : fieldLE c.cmd 9 1 ≤ 16) (hbase : fieldLE c.cmd 16 8 % 4096 = 0)
    (hoff : s.eqOn e = false) :
    ∃ t, exec (.eqCreate k) s = .next t ∧ Claims.ends t k c stOk 0 ∧ t.eqOn e = true ∧
      t.eqSize e = 2 ^ fieldLE c.cmd 9 1 ∧ t.evRing e = EvRing.reset := by
  have hu : (s.lookedUp c).eqOn e = false := hoff
  refine State.command_ends (u := (s.lookedUp c).eqMade e (fieldLE c.cmd 16 8 / 4096) (fieldLE c.cmd 9 1)) hc ?_
    (State.wanted_of_asker (State.eqMade_asker hu))
    (State.holdsCmd_of_started (State.lookedUp_holdsCmd hc) (State.eqMade_started hu)) ?_
  · have hk := (kOk_iff _).2 ⟨hn, hn'⟩
    simp only [← he, hk, hbase, hu, decide_false, Nat.not_le.2 h64]
    rfl
  · simp only [State.finish_eqOn, State.finish_eqSize, State.finish_evRing]
    exact ⟨State.eqMade_eqOn hu, State.eqMade_eqSize hu hn', State.eqMade_evRing hu⟩

theorem State.disableEq_eqOn (s : State) (e : Nat) : (s.disableEq e).eqOn e = false := by
  have hfield : (s.disableEq e).getF (Reg.cmpEqCfg_enable e) = 0 :=
    State.getF_setF_self _ _ _ (by simp [fldProper, Reg.cmpEqCfg_enable])
  rw [State.eqOn, State.on, hfield]
  rfl

theorem eqDestroy_ends {s : State} {k e : Nat} {c : Started} (hc : Claims.takes s k c 5) (he : e = fieldLE c.cmd 8 1)
    (h64 : e < 64) (hon : s.eqOn e = true) (hfree : s.eqNamed e = false) :
    ∃ t, exec (.eqDestroy k) s = .next t ∧ Claims.ends t k c stOk 0 ∧ t.eqOn e = false := by
  have hon' : (s.lookedUp c).eqOn e = true := hon
  have hfree' : (s.lookedUp c).eqNamed e = false := hfree
  refine State.command_ends (u := (s.lookedUp c).disableEq e) hc ?_ (State.wanted_of_asker (s := s) (c := c) ?_)
    (State.holdsCmd_of_started (State.lookedUp_holdsCmd hc) ?_) ?_
  · simp only [← he, hon', hfree', decide_false, Nat.not_le.2 h64]
    rfl
  · simp only [State.disableEq, State.showHeld, State.setF_asker, State.setEvRing_asker, State.incSat_asker]
  · simp only [State.disableEq, State.showHeld, State.setF_started, State.setEvRing_started, State.incSat_started]
  · rw [State.finish_eqOn, State.disableEq_eqOn]

end Sys2Proof.Machine
end

section
/-!
PROOF. WINDOW_SET (O45).
-/
namespace Sys2Proof.Machine

/-- A window of a channel is set. -/
def State.setWindow (s : State) (ch w : Nat) (x : Window) : State :=
  s.setChan ch { s.chan ch with windows := SMap.put (fun _ => Window.none) w x (s.chan ch).windows }

theorem State.setChan_chan_self (s : State) (ch : Nat) (x : Channel) : (s.setChan ch x).chan ch = x :=
  SMap.get_put_same _ _ _ _

theorem State.setWindow_window (s : State) (ch w : Nat) (x : Window) : (s.setWindow ch w x).window ch w = x := by
  rw [State.window, State.setWindow, State.setChan_chan_self]
  exact SMap.get_put_same _ _ _ _

theorem State.window_of_chans {s t : State} (h : t.chans = s.chans) (ch w : Nat) : t.window ch w = s.window ch w := by
  rw [State.window, State.window, State.chan, State.chan, h]

@[simp] theorem State.finish_chans (s : State) (c : Started) (st res : Nat) :
    (s.finish c st res).chans = s.chans := (rfl)
theorem State.finish_window (s : State) (c : Started) (st res ch w : Nat) :
    (s.finish c st res).window ch w = s.window ch w := State.window_of_chans (State.finish_chans s c st res) ch w

/-! ## What a read through the sky leaves -/

theorem State.tabRead_chans (s : State) (vid off n : Nat) : (s.tabRead vid off n).1.chans = s.chans := by
  unfold State.tabRead
  grind

theorem State.tabRead_started (s : State) (vid off n : Nat) : (s.tabRead vid off n).1.started = s.started := by
  unfold State.tabRead
  grind

/-- A read through the sky is traffic of this package, or a look-up at another node. -/
theorem State.skyRead_traffic_or_lookUp (s : State) (site a n : Nat) (narrow : Bool) :
    s.Traffic (s.skyRead site a n narrow).s ∨ ∃ vid off, (s.skyRead site a n narrow).s = (s.tabRead vid off n).1 := by
  unfold State.skyRead
  simp only
  split
  · exact .inl .refl
  · split
    · exact .inl .refl
    · exact .inl (.readAs .refl _ _ _ _ _)
    · exact .inr ⟨_, _, rfl⟩

theorem State.skyRead_chans (s : State) (site a n : Nat) (narrow : Bool) :
    (s.skyRead site a n narrow).s.chans = s.chans := by
  rcases s.skyRead_traffic_or_lookUp site a n narrow with h | ⟨vid, off, h⟩
  · exact h.chans
  · rw [h, State.tabRead_chans]

theorem State.skyRead_started (s : State) (site a n : Nat) (narrow : Bool) :
    (s.skyRead site a n narrow).s.started = s.started := by
  rcases s.skyRead_traffic_or_lookUp site a n narrow with h | ⟨vid, off, h⟩
  · exact h.started
  · rw [h, State.tabRead_started]

/-! ## WINDOW_SET -/

/-- Window descriptors other than the interleaved: the window is set at once. -/
theorem windowSet_plain_ends {s : State} {k : Nat} {c : Started} (hc : Claims.takes s k c 0x13)
    (hdesc : descOk (fieldLE c.cmd 32 32) = true) (hkind : bits (fieldLE c.cmd 32 32) 1 0 ≠ 2) :
    ∃ t, exec (.windowSet k) s = .next t ∧ Claims.ends t k c stOk 0 ∧
      t.window (cmdHandle c.cmd % 2 ^ 24) (fieldLE c.cmd 8 1) =
        (if bits (fieldLE c.cmd 32 32) 1 0 = 0 then Window.none else ⟨BitVec.ofNat 256 (fieldLE c.cmd 32 32), []⟩) := by
  refine State.command_ends (u := (s.lookedUp c).setWindow (cmdHandle c.cmd % 2 ^ 24) (fieldLE c.cmd 8 1)
    (if bits (fieldLE c.cmd 32 32) 1 0 = 0 then Window.none else ⟨BitVec.ofNat 256 (fieldLE c.cmd 32 32), []⟩)) hc ?_ rfl
    (State.lookedUp_holdsCmd hc) ?_
  · by_cases h0 : bits (fieldLE c.cmd 32 32) 1 0 = 0
    · simp only [hdesc, h0, if_true]
      rfl
    · simp only [hdesc, h0, hkind, if_false]
      rfl
  · rw [State.finish_window, State.setWindow_window]

/-- The vault ids that the list of an interleaved window names. -/
def listedVaults (n : Nat) (data : List PByte) : List Nat := (List.range n).map (fun j => leP (slice data (4 * j) 4))

/-- Does WINDOW_SET refuse the list of an interleaved window, as read? -/
def listRefused (st : Nat) (data : List PByte) (ids : List Nat) : Bool :=
  st != stOk || anyPoison data || !distinct ids || !ids.all (fun v => skyOk (v * 2 ^ 32))

section
variable {s : State} {k : Nat} {c : Started} {x : SkyRead} (hc : Claims.takes s k c 0x13)
  (hdesc : descOk (fieldLE c.cmd 32 32) = true) (hkind : bits (fieldLE c.cmd 32 32) 1 0 = 2)
  (hx : (s.lookedUp c).skyRead hostSite (bits (fieldLE c.cmd 32 32) 191 128) (4 * 2 ^ bits (fieldLE c.cmd 32 32) 7 4)
    true = x) (hready : x.ready = true) (hwanted : x.s.wanted = [])
include hc hdesc hkind hx hready hwanted

/-- An interleaved window whose list is read and taken. -/
theorem windowSet_list_ends
    (hok : listRefused x.st x.data (listedVaults (2 ^ bits (fieldLE c.cmd 32 32) 7 4) x.data) = false) :
    ∃ t, exec (.windowSet k) s = .next t ∧ Claims.ends t k c stOk 0 ∧
      t.window (cmdHandle c.cmd % 2 ^ 24) (fieldLE c.cmd 8 1) = ⟨BitVec.ofNat 256 (fieldLE c.cmd 32 32),
        listedVaults (2 ^ bits (fieldLE c.cmd 32 32) 7 4) x.data⟩ := by
  have hstarted : x.s.started = s.started := by rw [← hx, State.skyRead_started]; rfl
  refine State.command_ends (u := x.s.setWindow (cmdHandle c.cmd % 2 ^ 24) (fieldLE c.cmd 8 1)
    ⟨BitVec.ofNat 256 (fieldLE c.cmd 32 32), listedVaults (2 ^ bits (fieldLE c.cmd 32 32) 7 4) x.data⟩) hc ?_ hwanted
    (State.holdsCmd_of_started (State.holdsCmd_of_takes hc) hstarted) ?_
  · simp only [hdesc, hkind, hx, hready]
    exact if_neg (ne_true_of_eq_false hok)
  · rw [State.finish_window, State.setWindow_window]

/-- An interleaved window whose list is read and not taken: BAD_PARAM, and the window stays. -/
theorem windowSet_list_refused
    (hbad : listRefused x.st x.data (listedVaults (2 ^ bits (fieldLE c.cmd 32 32) 7 4) x.data) = true) :
    ∃ t, exec (.windowSet k) s = .next t ∧ Claims.ends t k c stBadParam 0 ∧
      t.window (cmdHandle c.cmd % 2 ^ 24) (fieldLE c.cmd 8 1) =
        s.window (cmdHandle c.cmd % 2 ^ 24) (fieldLE c.cmd 8 1) := by
  have hstarted : x.s.started = s.started := by rw [← hx, State.skyRead_started]; rfl
  have hchans : x.s.chans = s.chans := by rw [← hx, State.skyRead_chans]; rfl
  refine State.command_ends (u := x.s) hc ?_ hwanted
    (State.holdsCmd_of_started (State.holdsCmd_of_takes hc) hstarted) ?_
  · simp only [hdesc, hkind, hx, hready]
    exact if_pos hbad
  · rw [State.finish_window, State.window_of_chans hchans]

end

end Sys2Proof.Machine
end

section
/-!
PROOF. CHAN_CREATE (O45).
-/
namespace Sys2Proof.Machine

/-! ## Folds over the sites of a channel -/

/-- What each step of a fold keeps, the fold keeps. -/
theorem State.foldl_keeps {P : State → Prop} {f : State → Nat → State} {l : List Nat}
    (hkeep : ∀ s, ∀ j ∈ l, P s → P (f s j)) {s : State} (h : P s) : P (l.foldl f s) := by
  induction l generalizing s with
  | nil => exact h
  | cons j l ih => exact ih (fun s i hi => hkeep s i (List.mem_cons_of_mem j hi)) (hkeep s j List.mem_cons_self h)

/-- What the step of one element brings about, and every step keeps, holds after a fold over that element. -/
theorem State.foldl_sets {P Q : State → Prop} {f : State → Nat → State} {l : List Nat} {i : Nat}
    (hset : ∀ s, Q s → P (f s i)) (hQ : ∀ s, ∀ j ∈ l, Q s → Q (f s j)) (hP : ∀ s, ∀ j ∈ l, P s → P (f s j))
    (hi : i ∈ l) {s : State} (h : Q s) : P (l.foldl f s) := by
  induction l generalizing s with
  | nil => cases hi
  | cons j l ih =>
    have hP' : ∀ s, ∀ i ∈ l, P s → P (f s i) := fun s i hi => hP s i (List.mem_cons_of_mem j hi)
    rcases List.mem_cons.1 hi with rfl | hi
    · exact State.foldl_keeps hP' (hset s h)
    · exact ih (fun s i hi => hQ s i (List.mem_cons_of_mem j hi)) hP' hi (hQ s j List.mem_cons_self h)

/-- A read through a step-wise kept function is the one before the fold. -/
theorem State.foldl_same {α : Type} {g : State → α} {f : State → Nat → State} (h : ∀ s j, g (f s j) = g s) (l : List Nat)
    (s : State) : g (l.foldl f s) = g s :=
  State.foldl_keeps (P := fun t => g t = g s) (fun t j _ ht => (h t j).trans ht) rfl

theorem siteBase_inj {i j : Nat} (h : siteBase i = siteBase j) : i = j := by
  unfold siteBase towerBase at h
  omega

/-! ## Mapping a vault -/

/-- One vault is mapped to a frame base and its port opened. -/
def State.mapVault (fb : Nat) (s : State) (i : Nat) : State :=
  State.openPort ((((s.setF (Reg.vltMap_frame_base i) fb).setF (Reg.vltCtrl_hold i) 0).setF (Reg.vltStatus_held i) 0)) i

theorem State.mapVaults_eq (s : State) (fb : Nat) (sites : List Nat) :
    s.mapVaults fb sites = sites.foldl (State.mapVault fb) s := rfl

theorem State.mapVault_chans (fb : Nat) (s : State) (i : Nat) : (s.mapVault fb i).chans = s.chans := by
  rw [State.mapVault, (Traffic.openPort .refl i).chans, State.setF_chans, State.setF_chans, State.setF_chans]
theorem State.mapVault_started (fb : Nat) (s : State) (i : Nat) : (s.mapVault fb i).started = s.started := by
  rw [State.mapVault, (Traffic.openPort .refl i).started, State.setF_started, State.setF_started, State.setF_started]
theorem State.mapVault_asker (fb : Nat) (s : State) (i : Nat) : (s.mapVault fb i).asker = s.asker := by
  rw [State.mapVault, (Traffic.openPort .refl i).asker, State.setF_asker, State.setF_asker, State.setF_asker]

theorem State.mapVault_sqState (fb : Nat) (s : State) (j i : Nat) : (s.mapVault fb j).sqState i = s.sqState i := by
  have hi := Traffic.siteBase_mod i
  have hj := Traffic.siteBase_mod j
  rw [State.sqState, State.sqState, State.getF, State.getF, State.mapVault,
    (Traffic.openPort .refl j).reg (.inl (by simp [Reg.sqStatus_state]; omega)), State.reg_setF_ne, State.reg_setF_ne,
    State.reg_setF_ne]
  all_goals simp [Reg.sqStatus_state, Reg.vltMap_frame_base, Reg.vltCtrl_hold, Reg.vltStatus_held]; omega

theorem State.mapVault_frameBase_other (fb : Nat) (s : State) {i j : Nat} (hij : i ≠ j) :
    (s.mapVault fb j).getF (Reg.vltMap_frame_base i) = s.getF (Reg.vltMap_frame_base i) := by
  have hi := Traffic.siteBase_mod i
  have hj := Traffic.siteBase_mod j
  have hne : siteBase i ≠ siteBase j := fun h => hij (siteBase_inj h)
  rw [State.getF, State.getF, State.mapVault,
    (Traffic.openPort .refl j).reg (.inr (by simp [Reg.vltMap_frame_base]; omega)), State.reg_setF_ne, State.reg_setF_ne,
    State.reg_setF_ne]
  all_goals simp [Reg.vltMap_frame_base, Reg.vltCtrl_hold, Reg.vltStatus_held]; omega

theorem State.mapVault_frameBase {fb : Nat} (hfb : fb < 64) (s : State) (i : Nat) :
    (s.mapVault fb i).getF (Reg.vltMap_frame_base i) = fb := by
  have hi := Traffic.siteBase_mod i
  have hset := State.getF_setF_self s (Reg.vltMap_frame_base i) fb (by simp [fldProper, Reg.vltMap_frame_base])
  rw [State.getF, State.mapVault, (Traffic.openPort .refl i).reg (.inr (by simp [Reg.vltMap_frame_base]; omega)),
    State.reg_setF_ne, State.reg_setF_ne]
  · exact hset.trans (Nat.mod_eq_of_lt hfb)
  all_goals simp [Reg.vltMap_frame_base, Reg.vltCtrl_hold, Reg.vltStatus_held]

/-- The vaults of the sites are mapped. -/
theorem State.mapVaults_frameBase {fb : Nat} (hfb : fb < 64) (s : State) {sites : List Nat} {i : Nat} (hi : i ∈ sites) :
    (s.mapVaults fb sites).getF (Reg.vltMap_frame_base i) = fb := by
  refine State.foldl_sets (P := fun t => t.getF (Reg.vltMap_frame_base i) = fb) (Q := fun _ => True)
    (fun s _ => State.mapVault_frameBase hfb s i) (fun _ _ _ h => h) (fun s j _ h => ?_) hi trivial
  by_cases hij : i = j
  · exact hij ▸ State.mapVault_frameBase hfb s i
  · exact (State.mapVault_frameBase_other fb s hij).trans h

/-! ## Opening a stage queue -/

/-- A site's stage queue opens for a channel, with the channel's cut. -/
def State.openSite (cut : Nat) (s : State) (i : Nat) : State := (s.setF (Reg.sqCtrl_cut i) cut).openQueue i

theorem State.openSite_eq (cut : Nat) (s : State) (i : Nat) : s.openSite cut i =
    (if s.sqState i = sqLost then (s.setF (Reg.sqCtrl_cut i) cut).setF (Reg.sqCtrl_open i) 1
     else ((s.setF (Reg.sqCtrl_cut i) cut).setF (Reg.sqCtrl_open i) 1).setF (Reg.sqStatus_state i) sqOpen) := by
  have hkeep : ((s.setF (Reg.sqCtrl_cut i) cut).setF (Reg.sqCtrl_open i) 1).sqState i = s.sqState i := by
    rw [State.sqState, State.getF_setF_apart, State.getF_setF_apart] <;>
      simp [State.sqState, fldProper, fldApart, Reg.sqCtrl_cut, Reg.sqCtrl_open, Reg.sqStatus_state]
  rw [State.openSite, State.openQueue, hkeep]

theorem State.openSite_chans (cut : Nat) (s : State) (i : Nat) : (s.openSite cut i).chans = s.chans := by
  rw [State.openSite_eq]
  split <;> simp only [State.setF_chans]
theorem State.openSite_started (cut : Nat) (s : State) (i : Nat) : (s.openSite cut i).started = s.started := by
  rw [State.openSite_eq]
  split <;> simp only [State.setF_started]
theorem State.openSite_asker (cut : Nat) (s : State) (i : Nat) : (s.openSite cut i).asker = s.asker := by
  rw [State.openSite_eq]
  split <;> simp only [State.setF_asker]

/-- Opening a queue leaves registers other than its own SQ_CTRL and SQ_STATUS. -/
theorem State.openSite_reg (cut : Nat) (s : State) {j a : Nat} (hctrl : a ≠ siteBase j + 0x1400)
    (hstatus : a ≠ siteBase j + 0x1408) : (s.openSite cut j).reg a = s.reg a := by
  rw [State.openSite_eq]
  split
  · rw [State.reg_setF_ne _ _ _ _ hctrl, State.reg_setF_ne _ _ _ _ hctrl]
  · rw [State.reg_setF_ne _ _ _ _ hstatus, State.reg_setF_ne _ _ _ _ hctrl, State.reg_setF_ne _ _ _ _ hctrl]

theorem State.openSite_sqState_other (cut : Nat) (s : State) {i j : Nat} (hij : i ≠ j) :
    (s.openSite cut j).sqState i = s.sqState i := by
  have hi := Traffic.siteBase_mod i
  have hj := Traffic.siteBase_mod j
  have hne : siteBase i ≠ siteBase j := fun h => hij (siteBase_inj h)
  rw [State.sqState, State.sqState, State.getF, State.getF, State.openSite_reg] <;>
    (simp [Reg.sqStatus_state]; omega)

theorem State.openSite_frameBase (cut : Nat) (s : State) (j i : Nat) :
    (s.openSite cut j).getF (Reg.vltMap_frame_base i) = s.getF (Reg.vltMap_frame_base i) := by
  have hi := Traffic.siteBase_mod i
  have hj := Traffic.siteBase_mod j
  rw [State.getF, State.getF, State.openSite_reg] <;> (simp [Reg.vltMap_frame_base]; omega)

theorem State.openSite_sqState (cut : Nat) {s : State} {i : Nat} (h : s.sqState i ≠ sqLost) :
    (s.openSite cut i).sqState i = sqOpen := by
  rw [State.openSite_eq, if_neg h]
  exact State.getF_setF_self _ _ _ (by simp [fldProper, Reg.sqStatus_state])

/-- The queues of the sites open, where they are not LOST. -/
theorem State.openSites_sqState (cut : Nat) {s : State} {sites : List Nat} {i : Nat} (hi : i ∈ sites)
    (h : s.sqState i ≠ sqLost) : (sites.foldl (State.openSite cut) s).sqState i = sqOpen := by
  have hkeep (s : State) (j : Nat) : (s.openSite cut j).sqState i = s.sqState i ∨ (i = j ∧ s.sqState i = sqLost) ∨
      (s.openSite cut j).sqState i = sqOpen := by
    by_cases hij : i = j
    · by_cases hl : s.sqState i = sqLost
      · exact .inr (.inl ⟨hij, hl⟩)
      · exact .inr (.inr (hij ▸ State.openSite_sqState cut hl))
    · exact .inl (State.openSite_sqState_other cut s hij)
  have hne : sqOpen ≠ sqLost := by decide
  refine State.foldl_sets (P := fun t => t.sqState i = sqOpen) (Q := fun t => t.sqState i ≠ sqLost)
    (fun s hs => State.openSite_sqState cut hs) (fun s j _ hs => ?_) (fun s j _ hs => ?_) hi h
  · rcases hkeep s j with h | ⟨-, h⟩ | h
    · rwa [h]
    · exact absurd h hs
    · rwa [h]
  · rcases hkeep s j with h | ⟨-, h⟩ | h
    · rwa [h]
    · exact absurd (hs.symm.trans h) hne
    · exact h

/-! ## CHAN_CREATE -/

/-- The vaults of a channel's sites are mapped, when its frame base is not 255, and its stage queues opened. -/
def State.sitesMade (s : State) (fb cut : Nat) (sites : List Nat) : State :=
  sites.foldl (State.openSite cut) (if fb = 255 then s else s.mapVaults fb sites)

/-- What mapping a vault and opening a queue both keep, the making of a channel's sites keeps. -/
theorem State.sitesMade_same {α : Type} {g : State → α} (hmap : ∀ fb s i, g (State.mapVault fb s i) = g s)
    (hopen : ∀ cut s i, g (State.openSite cut s i) = g s) (s : State) (fb cut : Nat) (sites : List Nat) :
    g (s.sitesMade fb cut sites) = g s := by
  rw [State.sitesMade, State.foldl_same (hopen cut)]
  split
  · rfl
  · rw [State.mapVaults_eq, State.foldl_same (hmap fb)]

theorem State.sitesMade_sqState (s : State) (fb cut : Nat) {sites : List Nat} {i : Nat} (hi : i ∈ sites)
    (h : s.sqState i ≠ sqLost) : (s.sitesMade fb cut sites).sqState i = sqOpen := by
  refine State.openSites_sqState cut hi ?_
  split
  · exact h
  · rwa [State.mapVaults_eq, State.foldl_same (g := fun t => t.sqState i) (fun s j => State.mapVault_sqState fb s j i)]

theorem State.sitesMade_frameBase (s : State) {fb : Nat} (hfb : fb < 64) (cut : Nat) {sites : List Nat} {i : Nat}
    (hi : i ∈ sites) : (s.sitesMade fb cut sites).getF (Reg.vltMap_frame_base i) = fb := by
  rw [State.sitesMade, if_neg (by omega), State.foldl_same (g := fun t => t.getF (Reg.vltMap_frame_base i))
    (fun s j => State.openSite_frameBase cut s j i), State.mapVaults_frameBase hfb s hi]

/-- CHAN_CREATE on sites that may be mapped completes. -/
theorem State.createOn_quiet {s : State} {c : Started} {sites : List Nat}
    (h : fieldLE c.cmd 11 1 = 255 ∨ sites.all s.vaultQuiet = true) (ch : Nat) : s.createOn c sites ch =
    (s.sitesMade (fieldLE c.cmd 11 1) (fieldLE c.cmd 12 1) sites).done c stOk
      ((s.sitesMade (fieldLE c.cmd 11 1) (fieldLE c.cmd 12 1) sites).handle ch) := by
  have hgo : (fieldLE c.cmd 11 1 != 255 && !sites.all s.vaultQuiet) = false := by
    rcases h with h | h
    · rw [h]; rfl
    · rw [h, Bool.not_true, Bool.and_false]
  rw [State.createOn, hgo]
  rfl

theorem State.holdVaults_same {α : Type} {g : State → α} (h : ∀ s i, g (s.setF (Reg.vltCtrl_hold i) 1) = g s) (s : State)
    (sites : List Nat) : g (s.holdVaults sites) = g s := State.foldl_same h sites s

end Sys2Proof.Machine
end

section
/-!
PROOF. CHAN_CREATE (O45): the command.
-/
namespace Sys2Proof.Machine

theorem State.freeIndex_of_chans {s t : State} (h : t.chans = s.chans) (n k : Nat) : t.freeIndex n k = s.freeIndex n k := by
  induction n generalizing k with
  | zero => rfl
  | succ n ih => rw [State.freeIndex, State.freeIndex, ih, State.chan, State.chan, h]

theorem State.lookedUp_chans (s : State) (c : Started) : (s.lookedUp c).chans = s.chans := (rfl)
theorem State.lookedUp_chan (s : State) (c : Started) (k : Nat) : (s.lookedUp c).chan k = s.chan k := (rfl)

/-- A look-up does not change which channels are free. -/
theorem State.lookedUp_freeIndex (s : State) (c : Started) : (s.lookedUp c).freeIndex chanMax 0 = s.freeIndex chanMax 0 :=
  State.freeIndex_of_chans (State.lookedUp_chans s c) _ _

/-- The checks of a command's fields do not depend on its look-ups. -/
theorem State.lookedUp_createCheck (s : State) (c : Started) (cmd : List Byte) (sites : List Nat) :
    (s.lookedUp c).createCheck cmd sites = s.createCheck cmd sites := by
  have hreset : (s.lookedUp c).inReset = s.inReset := rfl
  have henabled : (s.lookedUp c).enabled = s.enabled := rfl
  have hlicensed : (s.lookedUp c).licensed = s.licensed := rfl
  have heq : (s.lookedUp c).eqOn = s.eqOn := rfl
  rw [State.createCheck, State.createCheck, State.lookedUp_freeIndex, hreset, henabled, hlicensed, heq,
    State.lookedUp_chans]

/-- A channel is made at a free index, its work begun, and its vaults held while they are to be mapped. -/
def State.chanBegun (s : State) (c : Started) (sites : List Nat) : State :=
  if fieldLE c.cmd 11 1 = 255 then (s.newChannel c.cmd sites).begin_ c sites
  else ((s.newChannel c.cmd sites).begin_ c sites).holdVaults sites

/-- A channel as CHAN_CREATE leaves it. -/
def State.chanMade (s : State) (c : Started) (sites : List Nat) : State :=
  (s.chanBegun c sites).sitesMade (fieldLE c.cmd 11 1) (fieldLE c.cmd 12 1) sites

/-- The channel that CHAN_CREATE makes in place of a free one. -/
def newChan (cmd : List Byte) (sites : List Nat) (old : Channel) : Channel :=
  { gen := if old.gen = 255 then 1 else old.gen + 1, st := .live, bestEffort := fieldLE cmd 8 1 == 1
    domain := fieldLE cmd 9 1, eq := fieldLE cmd 10 1, cores := sites, windows := [] }

theorem State.newChannel_free {s : State} {f : Nat} (hf : s.freeIndex chanMax 0 = some f) (cmd : List Byte)
    (sites : List Nat) : s.newChannel cmd sites = s.setChan f (newChan cmd sites (s.chan f)) := by
  rw [State.newChannel, hf]
  rfl

/-- What holding vaults keeps is as before in a channel that is begun. -/
theorem State.chanBegun_same {α : Type} {g : State → α} (h : ∀ s i, g (s.setF (Reg.vltCtrl_hold i) 1) = g s) (s : State)
    (c : Started) (sites : List Nat) : g (s.chanBegun c sites) = g ((s.newChannel c.cmd sites).begin_ c sites) := by
  rw [State.chanBegun]
  split
  · rfl
  · exact State.holdVaults_same h _ sites

section
variable (s : State) (c : Started) (sites : List Nat)

theorem State.newChannel_vault : (s.newChannel c.cmd sites).vault = s.vault := by
  rw [State.newChannel]
  split <;> rfl

theorem State.newChannel_getF (f : Fld) : (s.newChannel c.cmd sites).getF f = s.getF f := by
  rw [State.newChannel]
  split <;> rfl

theorem State.newChannel_started : (s.newChannel c.cmd sites).started = s.started := by
  rw [State.newChannel]
  split <;> rfl

theorem State.newChannel_asker : (s.newChannel c.cmd sites).asker = s.asker := by
  rw [State.newChannel]
  split <;> rfl

theorem State.chanBegun_vaultQuiet : (s.chanBegun c sites).vaultQuiet = s.vaultQuiet := by
  funext v
  have h (t : State) (i : Nat) : (t.setF (Reg.vltCtrl_hold i) 1).vaultQuiet v = t.vaultQuiet v := by
    simp only [State.vaultQuiet, State.setF_vault]
  have hb (t : State) : (t.begin_ c sites).vaultQuiet v = t.vaultQuiet v := rfl
  rw [State.chanBegun_same (g := fun t => t.vaultQuiet v) h, hb]
  unfold State.vaultQuiet
  rw [State.newChannel_vault]

theorem State.chanBegun_sqState (i : Nat) : (s.chanBegun c sites).sqState i = s.sqState i := by
  have h (t : State) (j : Nat) : (t.setF (Reg.vltCtrl_hold j) 1).sqState i = t.sqState i := by
    have hi := Traffic.siteBase_mod i
    have hj := Traffic.siteBase_mod j
    rw [State.sqState, State.sqState, State.getF, State.getF, State.reg_setF_ne]
    simp [Reg.sqStatus_state, Reg.vltCtrl_hold]
    omega
  have hb (t : State) : (t.begin_ c sites).sqState i = t.sqState i := rfl
  rw [State.chanBegun_same (g := fun t => t.sqState i) h, hb, State.sqState, State.newChannel_getF, State.sqState]

theorem State.chanMade_chans : (s.chanMade c sites).chans = (s.newChannel c.cmd sites).chans := by
  rw [State.chanMade, State.sitesMade_same (g := State.chans) State.mapVault_chans State.openSite_chans,
    State.chanBegun_same (g := State.chans) (fun _ _ => State.setF_chans ..)]
  rfl

theorem State.chanMade_asker : (s.chanMade c sites).asker = s.asker := by
  rw [State.chanMade, State.sitesMade_same (g := State.asker) State.mapVault_asker State.openSite_asker,
    State.chanBegun_same (g := State.asker) (fun _ _ => State.setF_asker ..), ← State.newChannel_asker s c sites]
  rfl

theorem State.chanMade_started : (s.chanMade c sites).started = (s.begin_ c sites).started := by
  rw [State.chanMade, State.sitesMade_same (g := State.started) State.mapVault_started State.openSite_started,
    State.chanBegun_same (g := State.started) (fun _ _ => State.setF_started ..), State.begin_, State.newChannel_started]
  rfl

end

theorem State.chanMade_chan {s : State} {f : Nat} (hf : s.freeIndex chanMax 0 = some f) (c : Started) (sites : List Nat) :
    (s.chanMade c sites).chan f = newChan c.cmd sites (s.chan f) := by
  rw [State.chan, State.chanMade_chans, State.newChannel_free hf]
  exact State.setChan_chan_self s f _

theorem createOk_frameBase {cmd : List Byte} (h : createOk cmd = true) : fieldLE cmd 11 1 ≤ 32 ∨ fieldLE cmd 11 1 = 255 := by
  simp only [createOk, Bool.and_eq_true, Bool.or_eq_true, decide_eq_true_eq, beq_iff_eq] at h
  exact h.1.2

/-- CHAN_CREATE that passes its checks, with vaults that may be mapped, makes the channel and completes. -/
theorem State.chanCreate_made {s : State} {k : Nat} {c : Started} {list : HostRead} {sites : List Nat} {f : Nat}
    (hc : Claims.takes s k c 0x10) (hwork : c.work = none) (hgrade : s.gradeRefuses = false)
    (hform : createOk c.cmd = true) (hinject : s.on Reg.rasInject_arm = false)
    (hlist : siteList (fieldLE c.cmd 24 4) list = .ok sites) (hcheck : s.createCheck c.cmd sites = stOk)
    (hfree : s.freeIndex chanMax 0 = some f)
    (hquiet : fieldLE c.cmd 11 1 = 255 ∨ sites.all s.vaultQuiet = true) {P : State → Prop}
    (hP : P (((s.lookedUp c).chanMade c sites).finish c stOk (((s.lookedUp c).chanMade c sites).handle f))) :
    ∃ t, exec (.chanCreate k list) s = .next t ∧
      Claims.ends t k c stOk (((s.lookedUp c).chanMade c sites).handle f) ∧ P t := by
  refine State.command_ends (u := (s.lookedUp c).chanMade c sites) hc ?_
    (State.wanted_of_asker (State.chanMade_asker _ c sites))
    (State.holdsCmd_of_started (State.holdsCmd_begin (State.lookedUp_holdsCmd hc) sites)
      (State.chanMade_started _ c sites)) hP
  have hgrade' : (s.lookedUp c).gradeRefuses = false := hgrade
  have hinject' : (s.lookedUp c).on Reg.rasInject_arm = false := hinject
  have hcheck' := (State.lookedUp_createCheck s c c.cmd sites).trans hcheck
  have hfree' := (State.lookedUp_freeIndex s c).trans hfree
  have hread : (if fieldLE c.cmd 24 4 = 0 then (s.lookedUp c, list) else (s.lookedUp c).hostRead list) =
      (s.lookedUp c, list) := by
    rw [State.hostRead, hinject']
    split <;> rfl
  have hquiet' : fieldLE c.cmd 11 1 = 255 ∨ sites.all ((s.lookedUp c).chanBegun c sites).vaultQuiet = true := by
    rw [State.chanBegun_vaultQuiet]
    exact hquiet
  have hok : (stOk != stOk) = false := rfl
  simp only [hwork, hgrade', hform, hread, hlist, hcheck', hfree', hok, Option.getD_some]
  exact State.createOn_quiet hquiet' f

@[simp] theorem State.finish_handle (s : State) (c : Started) (st res k : Nat) :
    (s.finish c st res).handle k = s.handle k := (rfl)
@[simp] theorem State.finish_sqState (s : State) (c : Started) (st res q : Nat) :
    (s.finish c st res).sqState q = s.sqState q := (rfl)

/-- A completion with a handle is a completion with the channel's handle in the state it leaves. -/
theorem exists_handle_of_ends {o : Host.Outcome State Fault Refusal} {k f h : Nat} {c : Started} {P : State → Prop}
    (ht : ∃ t, o = .next t ∧ Claims.ends t k c stOk h ∧ t.handle f = h ∧ P t) :
    ∃ t, o = .next t ∧ Claims.ends t k c stOk (t.handle f) ∧ P t := by
  obtain ⟨t, hexec, hends, rfl, hP⟩ := ht
  exact ⟨t, hexec, hends, hP⟩

theorem chanCreate_ends {s : State} {k : Nat} {c : Started} {list : HostRead} {sites : List Nat} {f : Nat}
    (hc : Claims.takes s k c 0x10) (hwork : c.work = none) (hgrade : s.gradeRefuses = false)
    (hform : createOk c.cmd = true) (hinject : s.on Reg.rasInject_arm = false)
    (hlist : siteList (fieldLE c.cmd 24 4) list = .ok sites) (hcheck : s.createCheck c.cmd sites = stOk)
    (hfree : s.freeIndex chanMax 0 = some f)
    (hquiet : fieldLE c.cmd 11 1 = 255 ∨ sites.all s.vaultQuiet = true) :
    ∃ t, exec (.chanCreate k list) s = .next t ∧ Claims.ends t k c stOk (t.handle f) ∧
      t.chan f = newChan c.cmd sites (s.chan f) ∧
      ∀ i ∈ sites, (s.sqState i ≠ sqLost → t.sqState i = sqOpen) ∧
        (fieldLE c.cmd 11 1 ≠ 255 → t.getF (Reg.vltMap_frame_base i) = fieldLE c.cmd 11 1) := by
  refine exists_handle_of_ends (State.chanCreate_made hc hwork hgrade hform hinject hlist hcheck hfree hquiet (P := fun t =>
    t.handle f = ((s.lookedUp c).chanMade c sites).handle f ∧ t.chan f = newChan c.cmd sites (s.chan f) ∧
      ∀ i ∈ sites, (s.sqState i ≠ sqLost → t.sqState i = sqOpen) ∧
        (fieldLE c.cmd 11 1 ≠ 255 → t.getF (Reg.vltMap_frame_base i) = fieldLE c.cmd 11 1)) ?_)
  refine ⟨State.finish_handle .., ?_, fun i hi => ⟨fun hlost => ?_, fun hmap => ?_⟩⟩
  · rw [State.finish_chan, State.chanMade_chan ((State.lookedUp_freeIndex s c).trans hfree), State.lookedUp_chan]
  · rw [State.finish_sqState]
    refine State.sitesMade_sqState _ _ _ hi ?_
    rw [State.chanBegun_sqState]
    exact hlost
  · rw [State.finish_getF]
    have hfb := (createOk_frameBase hform).resolve_right hmap
    exact State.sitesMade_frameBase _ (by omega) _ hi

/-- Where the grade refuses, CHAN_CREATE ends GRADE_FAULT and no channel changes. -/
theorem chanCreate_gradeFault {s : State} {k : Nat} {c : Started} (list : HostRead) (hc : Claims.takes s k c 0x10)
    (hwork : c.work = none) (hgrade : s.gradeRefuses = true) :
    ∃ t, exec (.chanCreate k list) s = .next t ∧ Claims.ends t k c stGradeFault 0 ∧ t.chans = s.chans := by
  have hgrade' : (s.lookedUp c).gradeRefuses = true := hgrade
  refine State.command_ends (u := s.lookedUp c) hc ?_ rfl (State.lookedUp_holdsCmd hc) ?_
  · simp only [hwork, hgrade']
    rfl
  · rw [State.finish_chans]
    rfl

end Sys2Proof.Machine
end

section
/-!
PROOF. CHAN_DESTROY (O45).
-/
namespace Sys2Proof.Machine

/-! ## Closing the stage queue of a site -/

/-- `t` is `s` but for queues, vaults, registers and what traffic changes: the parts that CHAN_DESTROY's queues leave. -/
structure State.QueuesOnly (s t : State) : Prop where
  chans : t.chans = s.chans
  started : t.started = s.started
  asker : t.asker = s.asker
  senders : t.senders = s.senders
  cores : t.cores = s.cores
  events : t.events = s.events

namespace State.QueuesOnly
variable {s t : State}

theorem refl (s : State) : s.QueuesOnly s := ⟨rfl, rfl, rfl, rfl, rfl, rfl⟩

theorem setF (h : s.QueuesOnly t) (f : Fld) (v : Nat) : s.QueuesOnly (t.setF f v) :=
  ⟨(State.setF_chans ..).trans h.chans, (State.setF_started ..).trans h.started, (State.setF_asker ..).trans h.asker,
    (State.setF_senders ..).trans h.senders, (State.setF_cores ..).trans h.cores, (State.setF_events ..).trans h.events⟩

theorem setQueue (h : s.QueuesOnly t) (q : Nat) (x : StageQueue) : s.QueuesOnly (t.setQueue q x) :=
  ⟨h.chans, h.started, h.asker, h.senders, h.cores, h.events⟩

theorem dropWatches (h : s.QueuesOnly t) (i : Nat) : s.QueuesOnly (t.dropWatches i) :=
  ⟨h.chans, h.started, h.asker, h.senders, h.cores, h.events⟩

theorem traffic {u : State} (h : s.QueuesOnly t) (hu : t.Traffic u) : s.QueuesOnly u :=
  ⟨hu.chans.trans h.chans, hu.started.trans h.started, hu.asker.trans h.asker, hu.senders.trans h.senders,
    hu.cores.trans h.cores, hu.events.trans h.events⟩

theorem trans {u : State} (h : s.QueuesOnly t) (hu : t.QueuesOnly u) : s.QueuesOnly u :=
  ⟨hu.chans.trans h.chans, hu.started.trans h.started, hu.asker.trans h.asker, hu.senders.trans h.senders,
    hu.cores.trans h.cores, hu.events.trans h.events⟩

theorem queueShow (h : s.QueuesOnly t) (q : Nat) : s.QueuesOnly (t.queueShow q) :=
  (((((h.setF _ _).setF _ _).setF _ _).setF _ _).setF _ _).setF _ _

end State.QueuesOnly

theorem State.queueShow_queue (s : State) (q i : Nat) : (s.queueShow q).queue i = s.queue i := by
  simp only [State.queueShow, State.setF_queue]

/-- Showing a queue leaves the SQ_STATUS of other sites. -/
theorem State.queueShow_sqState_other (s : State) {q i : Nat} (h : i ≠ q) : (s.queueShow q).sqState i = s.sqState i := by
  have hi := Traffic.siteBase_mod i
  have hq := Traffic.siteBase_mod q
  have hne : siteBase i ≠ siteBase q := fun hb => h (siteBase_inj hb)
  rw [State.sqState, State.sqState, State.getF, State.getF, State.queueShow]
  rw [State.reg_setF_ne, State.reg_setF_ne, State.reg_setF_ne, State.reg_setF_ne, State.reg_setF_ne, State.reg_setF_ne]
  all_goals
    simp [Reg.sqStatus_state, Reg.sqHead_header, Reg.sqFill_bytes, Reg.sqStatus_requests, Reg.sqStatus_resident,
      Reg.sqStatus_rb, Reg.sqStatus_wb]
    omega

/-- No sender and no engine of a core works on a stage queue. -/
def State.calmQueues (s : State) : Prop := s.senders = [] ∧ ∀ x ∈ s.cores, x.2.sq = [] ∧ x.2.fmv = []

theorem mem_of_find_eq_some {α : Type} {m : SMap α} {k : Nat} {v : α} (h : SMap.find m k = some v) : (k, v) ∈ m := by
  induction m with
  | nil => cases h
  | cons e m ih =>
    obtain ⟨j, w⟩ := e
    rw [SMap.find] at h
    split at h
    · next hj =>
      obtain rfl := Option.some.inj h
      exact hj ▸ List.mem_cons_self
    · exact List.mem_cons_of_mem _ (ih h)

theorem State.calmQueues_core {s : State} (h : s.calmQueues) (i : Nat) : (s.core i).sq = [] := by
  rw [State.core, SMap.get]
  split
  · next c hfind => exact (h.2 _ (mem_of_find_eq_some hfind)).1
  · rfl

/-- A queue is reset, the requests it held refused and their senders at other sites answered. -/
def State.queueReset (s : State) (q : Nat) : State :=
  (s.queue q).requests.foldl
    (fun s r => if r.remote ∧ !r.abandoned then s.answer q (tokPacket r.id.src r.id.engine r.tag) 5 stSqClosed [] else s)
    ((s.setQueue q StageQueue.reset).incSat (Reg.sqErr_refused q)
      ((s.queue q).requests.filter (fun r => !r.abandoned)).length)

/-- After the reset of the queue only traffic follows. -/
theorem State.queueReset_traffic (s : State) (q : Nat) : State.Traffic ((s.setQueue q StageQueue.reset).incSat
    (Reg.sqErr_refused q) ((s.queue q).requests.filter (fun r => !r.abandoned)).length) (s.queueReset q) := by
  refine .foldl .refl (fun t ht r => ?_) _
  split
  · exact ht.answer _ _ _ _ _
  · exact ht

theorem State.queueReset_queuesOnly (s : State) (q : Nat) : s.QueuesOnly (s.queueReset q) :=
  .traffic (((QueuesOnly.refl s).setQueue q _).setF _ _) (s.queueReset_traffic q)

/-- A queue that nobody sends to and no core begins on is emptied by its reset alone. -/
theorem State.emptyQueue_calm {s : State} (h : s.calmQueues) (q : Nat) :
    s.emptyQueue q stSqClosed = (s.queueReset q).queueShow q := by
  have hunbegin : (s.setQueue q StageQueue.reset).unbegin q = s.setQueue q StageQueue.reset := by
    rw [State.unbegin, State.setQueue_core, State.calmQueues_core h]
  have hsenders : (s.queueReset q).senders = [] := (s.queueReset_queuesOnly q).senders.trans h.1
  have hnone (id : BundleId) : (s.queueReset q).localSender id = none := by rw [State.localSender, hsenders]; rfl
  rw [State.emptyQueue, hunbegin]
  refine congrArg (fun t => State.queueShow t q) (List.foldl_fixed' (fun id => ?_) _)
  change (match (s.queueReset q).localSender id with | some y => _ | none => s.queueReset q) = _
  rw [hnone]
  rfl

theorem State.calmQueues_of_queuesOnly {s t : State} (h : s.QueuesOnly t) (hs : s.calmQueues) : t.calmQueues :=
  ⟨h.senders.trans hs.1, h.cores ▸ hs.2⟩

/-- A queue emptied and its registers shown, before its state is written. -/
def State.queueShut (s : State) (q : Nat) : State := ((s.setF (Reg.sqCtrl_open q) 0).queueReset q).queueShow q

theorem State.closeQueue_calm {s : State} (h : s.calmQueues) (q : Nat) : s.closeQueue q =
    if s.sqState q == sqLost then s.queueShut q else (s.queueShut q).setF (Reg.sqStatus_state q) sqClosed := by
  have hcalm := State.calmQueues_of_queuesOnly ((QueuesOnly.refl s).setF (Reg.sqCtrl_open q) 0) h
  rw [State.closeQueue, State.emptyQueue_calm hcalm]
  rfl

theorem State.queueShut_queuesOnly (s : State) (q : Nat) : s.QueuesOnly (s.queueShut q) :=
  (((QueuesOnly.refl s).setF _ _).trans (State.queueReset_queuesOnly _ q)).queueShow q

theorem State.queueShut_queue (s : State) (q i : Nat) :
    (s.queueShut q).queue i = if i = q then StageQueue.reset else s.queue i := by
  have hset (t : State) : (t.setQueue q StageQueue.reset).queue i = if i = q then StageQueue.reset else t.queue i :=
    SMap.get_put (fun _ => StageQueue.reset) q i StageQueue.reset t.queues
  rw [State.queueShut, State.queueShow_queue, State.queue, (State.queueReset_traffic _ q).queues, ← State.queue,
    State.incSat_queue, hset, State.setF_queue]

theorem State.queueShut_sqState_other (s : State) {q i : Nat} (h : i ≠ q) : (s.queueShut q).sqState i = s.sqState i := by
  have hi := Traffic.siteBase_mod i
  have hq := Traffic.siteBase_mod q
  rw [State.queueShut, State.queueShow_sqState_other _ h, State.sqState, State.getF,
    (State.queueReset_traffic _ q).reg (.inl (by simp [Reg.sqStatus_state]; omega)), State.incSat, State.reg_setF_ne,
    State.setQueue_reg, State.reg_setF_ne]
  · rfl
  all_goals
    simp [Reg.sqStatus_state, Reg.sqCtrl_open, Reg.sqErr_refused]
    omega

/-- CHAN_DESTROY closes the queue of one site. -/
def State.siteClosed (s : State) (i : Nat) : State :=
  ((s.dropWatches i).closeQueue i).setF (Reg.sqStatus_state i) sqClosed

section
variable {s : State} (h : s.calmQueues) (j : Nat)
include h

/-- Closing comes to shutting the queue and writing its state. -/
theorem State.siteClosed_calm : s.siteClosed j =
    (if s.sqState j == sqLost then (s.dropWatches j).queueShut j
      else ((s.dropWatches j).queueShut j).setF (Reg.sqStatus_state j) sqClosed).setF (Reg.sqStatus_state j) sqClosed := by
  have hcalm := State.calmQueues_of_queuesOnly ((QueuesOnly.refl s).dropWatches j) h
  rw [State.siteClosed, State.closeQueue_calm hcalm]
  rfl

theorem State.siteClosed_queuesOnly : s.QueuesOnly (s.siteClosed j) := by
  have hshut := ((QueuesOnly.refl s).dropWatches j).trans (State.queueShut_queuesOnly _ j)
  rw [State.siteClosed_calm h]
  refine .setF ?_ _ _
  split
  · exact hshut
  · exact hshut.setF _ _

theorem State.siteClosed_queue (i : Nat) :
    (s.siteClosed j).queue i = if i = j then StageQueue.reset else s.queue i := by
  have hshut := State.queueShut_queue (s.dropWatches j) j i
  rw [State.siteClosed_calm h, State.setF_queue]
  split
  · exact hshut
  · exact (State.setF_queue ..).trans hshut

theorem State.siteClosed_sqState_other {i : Nat} (hij : i ≠ j) : (s.siteClosed j).sqState i = s.sqState i := by
  have hshut := State.queueShut_sqState_other (s.dropWatches j) hij
  have hi := Traffic.siteBase_mod i
  have hj := Traffic.siteBase_mod j
  have hne : siteBase i ≠ siteBase j := fun hb => hij (siteBase_inj hb)
  have hset (t : State) : (t.setF (Reg.sqStatus_state j) sqClosed).sqState i = t.sqState i := by
    rw [State.sqState, State.sqState, State.getF, State.getF, State.reg_setF_ne]
    simp only [Reg.sqStatus_state]
    omega
  rw [State.siteClosed_calm h, hset]
  split
  · exact hshut
  · exact (hset _).trans hshut

end

theorem State.siteClosed_sqState (s : State) (i : Nat) : (s.siteClosed i).sqState i = sqClosed :=
  State.getF_setF_self _ _ _ (by simp [fldProper, Reg.sqStatus_state])

/-! ## Closing the queues of a channel -/

/-- What the closing of queues keeps, and what it has closed: the queue of one site, empty and CLOSED. -/
theorem State.sitesClosed_calm {s : State} (h : s.calmQueues) (l : List Nat) :
    s.QueuesOnly (l.foldl State.siteClosed s) :=
  State.foldl_keeps (P := s.QueuesOnly)
    (fun _ j _ ht => ht.trans (State.siteClosed_queuesOnly (State.calmQueues_of_queuesOnly ht h) j)) (.refl s)

/-- Is the queue of a site closed and empty? -/
def State.shutAt (s : State) (i : Nat) : Prop := s.sqState i = sqClosed ∧ s.queue i = StageQueue.reset

theorem State.siteClosed_shutAt_self {s : State} (h : s.calmQueues) (i : Nat) : (s.siteClosed i).shutAt i :=
  ⟨State.siteClosed_sqState s i, by rw [State.siteClosed_queue h, if_pos rfl]⟩

theorem State.siteClosed_shutAt {s : State} (h : s.calmQueues) {i : Nat} (hs : s.shutAt i) (j : Nat) :
    (s.siteClosed j).shutAt i := by
  by_cases hij : i = j
  · exact hij ▸ State.siteClosed_shutAt_self h i
  · exact ⟨(State.siteClosed_sqState_other h j hij).trans hs.1,
      ((State.siteClosed_queue h j i).trans (if_neg hij)).trans hs.2⟩

theorem State.sitesClosed_shutAt {s : State} (h : s.calmQueues) {l : List Nat} {i : Nat} (hi : i ∈ l) :
    (l.foldl State.siteClosed s).shutAt i := by
  have hkeep (t : State) (j : Nat) (ht : t.calmQueues) : (t.siteClosed j).calmQueues :=
    State.calmQueues_of_queuesOnly (State.siteClosed_queuesOnly ht j) ht
  refine (State.foldl_sets (P := fun t => t.calmQueues ∧ t.shutAt i) (Q := State.calmQueues)
    (fun t ht => ⟨hkeep t i ht, State.siteClosed_shutAt_self ht i⟩) (fun t j _ ht => hkeep t j ht)
    (fun t j _ ht => ⟨hkeep t j ht.1, State.siteClosed_shutAt ht.1 ht.2 j⟩) hi h).2

end Sys2Proof.Machine
end

section
/-!
PROOF. CHAN_DESTROY (O45): the command.
-/
namespace Sys2Proof.Machine

/-! ## A channel that is freed -/

/-- The events of a channel are dropped, those that wait for room in an event ring too. -/
def State.dropEvents (s : State) (h : Nat) : State :=
  { s with
    events := s.events.filter (fun v => v.handle != h)
    evRings := SMap.mapVal (fun _ (r : EvRing) => { r with held := r.held.filter (fun v => v.handle != h) }) s.evRings }

/-- A channel's index is free again, with its generation. -/
def State.indexFreed (s : State) (ch gen : Nat) : State := s.setChan ch { Channel.free with gen := gen }

theorem State.freeChannel_eq (s : State) (ch : Nat) : s.freeChannel ch =
    State.showHeld ((((s.chan ch).cores.foldl State.siteClosed s).indexFreed ch (s.chan ch).gen).dropEvents (s.handle ch))
      (s.chan ch).eq := rfl

section
variable {s : State} (h : s.calmQueues) (ch : Nat)
include h

theorem State.freeChannel_started : (s.freeChannel ch).started = s.started := by
  rw [State.freeChannel_eq, State.showHeld, State.setF_started]
  exact (State.sitesClosed_calm h _).started

theorem State.freeChannel_asker : (s.freeChannel ch).asker = s.asker := by
  rw [State.freeChannel_eq, State.showHeld, State.setF_asker]
  exact (State.sitesClosed_calm h _).asker

theorem State.freeChannel_cores : (s.freeChannel ch).cores = s.cores := by
  rw [State.freeChannel_eq, State.showHeld, State.setF_cores]
  exact (State.sitesClosed_calm h _).cores

end

theorem State.freeChannel_chan (s : State) (ch : Nat) :
    (s.freeChannel ch).chan ch = { Channel.free with gen := (s.chan ch).gen } := by
  rw [State.freeChannel_eq, State.showHeld, State.setF_chan]
  exact State.setChan_chan_self _ ch _

theorem State.freeChannel_events {s : State} {ch : Nat} {v : Event} (hv : v ∈ (s.freeChannel ch).events) :
    v.handle ≠ s.handle ch := by
  rw [State.freeChannel_eq, State.showHeld, State.setF_events] at hv
  exact (bne_iff_ne ..).1 (List.mem_filter.1 hv).2

theorem State.freeChannel_shutAt {s : State} (h : s.calmQueues) {ch i : Nat} (hi : i ∈ (s.chan ch).cores) :
    (s.freeChannel ch).shutAt i := by
  obtain ⟨hclosed, hqueue⟩ := State.sitesClosed_shutAt h hi
  rw [State.freeChannel_eq]
  refine ⟨?_, ?_⟩
  · have hbase := Traffic.siteBase_mod i
    rw [State.sqState, State.getF, State.showHeld, State.reg_setF_ne]
    · exact hclosed
    · simp only [Reg.sqStatus_state, Reg.cmpEqStatus_held]
      omega
  · rw [State.showHeld, State.setF_queue]
    exact hqueue

/-- With no entry queued at any core, the engines' queues have nothing to run. -/
theorem State.runQueues_calm {s : State} (h : ∀ x ∈ s.cores, x.2.sq = [] ∧ x.2.fmv = []) : s.runQueues = s := by
  have hnone : s.cores.filter (fun e => !e.2.sq.isEmpty || !e.2.fmv.isEmpty) = [] :=
    List.filter_eq_nil_iff.2 fun x hx => by simp [(h x hx).1, (h x hx).2]
  rw [State.runQueues, hnone]
  rfl

/-! ## CHAN_DESTROY -/

/-- A channel that is being destroyed. -/
def State.destroying (s : State) (ch : Nat) : State := s.setChan ch { s.chan ch with st := .destroying }

theorem State.destroying_chan (s : State) (ch : Nat) :
    (s.destroying ch).chan ch = { s.chan ch with st := .destroying } := State.setChan_chan_self s ch _

theorem State.abortCore_idle {s : State} {i : Nat} (h : s.coreState i = csIdle) : s.abortCore i = s := by
  rw [State.abortCore, h]
  exact if_neg (by decide)

theorem State.settleFaulted_idle {s : State} {i : Nat} (h : s.coreState i = csIdle) : s.settleFaulted i = s := by
  rw [State.settleFaulted, h]
  exact if_neg fun hf => absurd hf.1 (by decide)

/-- A fold whose steps all leave a state alone leaves it alone. -/
theorem State.foldl_fixed {f : State → Nat → State} {s : State} {l : List Nat} (h : ∀ i ∈ l, f s i = s) :
    l.foldl f s = s := by
  induction l with
  | nil => rfl
  | cons i l ih =>
    rw [List.foldl_cons, h i List.mem_cons_self]
    exact ih fun j hj => h j (List.mem_cons_of_mem i hj)

/-- The channel of a CHAN_DESTROY is being destroyed and the command has begun with its cores. -/
def State.goingChan (s : State) (c : Started) (ch : Nat) : State :=
  ((s.lookedUp c).destroying ch).begin_ c ((s.lookedUp c).chan ch).cores

theorem State.goingChan_asker (s : State) (c : Started) (ch : Nat) : (s.goingChan c ch).asker = (s.lookedUp c).asker := (rfl)
theorem State.goingChan_cores (s : State) (c : Started) (ch : Nat) : (s.goingChan c ch).cores = s.cores := (rfl)
theorem State.goingChan_senders (s : State) (c : Started) (ch : Nat) : (s.goingChan c ch).senders = s.senders := (rfl)
theorem State.goingChan_coreState (s : State) (c : Started) (ch i : Nat) :
    (s.goingChan c ch).coreState i = s.coreState i := (rfl)

theorem State.goingChan_chan (s : State) (c : Started) (ch : Nat) :
    (s.goingChan c ch).chan ch = { s.chan ch with st := .destroying } := State.destroying_chan s ch

theorem State.goingChan_handle (s : State) (c : Started) (ch : Nat) : (s.goingChan c ch).handle ch = s.handle ch := by
  rw [State.handle, State.goingChan_chan, State.handle]

theorem State.goingChan_holdsCmd {s : State} {k op : Nat} {c : Started} (hc : Claims.takes s k c op) (ch : Nat) :
    (s.goingChan c ch).holdsCmd k c := by
  have hheld : ((s.lookedUp c).destroying ch).holdsCmd k c := State.holdsCmd_of_started (State.lookedUp_holdsCmd hc) rfl
  exact State.holdsCmd_begin hheld _

theorem State.goingChan_calm {s : State} (h : s.calmQueues) (c : Started) (ch : Nat) : (s.goingChan c ch).calmQueues := by
  rwa [State.calmQueues, State.goingChan_senders, State.goingChan_cores]

section
variable {s : State} {k : Nat} {c : Started} {ch : Nat} (hc : Claims.takes s k c 0x11) (hwork : c.work = none)
  (hch : cmdHandle c.cmd % 2 ^ 24 = ch) (hcalm : s.calmQueues) (hidle : ∀ i ∈ (s.chan ch).cores, s.coreState i = csIdle)
include hc hwork hch hcalm hidle

/-- CHAN_DESTROY of a channel whose cores are IDLE frees it in one step. -/
theorem State.chanDestroy_freed {P : State → Prop} (hP : P (((s.goingChan c ch).freeChannel ch).finish c stOk 0)) :
    ∃ t, exec (.chanDestroy k) s = .next t ∧ Claims.ends t k c stOk 0 ∧ P t := by
  have hcalm' := State.goingChan_calm hcalm c ch
  refine State.command_ends (u := (s.goingChan c ch).freeChannel ch) hc ?_
    (State.wanted_of_asker ((State.freeChannel_asker hcalm' ch).trans (State.goingChan_asker s c ch)))
    (State.holdsCmd_of_started (State.goingChan_holdsCmd hc ch) (State.freeChannel_started hcalm' ch)) hP
  have hidle' : ∀ i ∈ ((s.lookedUp c).chan ch).cores, s.coreState i = csIdle := hidle
  have habort : ((s.lookedUp c).chan ch).cores.foldl (fun s i => s.abortCore i) ((s.lookedUp c).destroying ch) =
      (s.lookedUp c).destroying ch := State.foldl_fixed fun i hi => State.abortCore_idle (hidle' i hi)
  have hsettle : ((s.lookedUp c).chan ch).cores.foldl (fun s i => s.settleFaulted i) (s.goingChan c ch) =
      s.goingChan c ch := State.foldl_fixed fun i hi => State.settleFaulted_idle (hidle' i hi)
  have hall : ((s.lookedUp c).chan ch).cores.all
      (fun i => (s.goingChan c ch).coreState i == csIdle || !(s.goingChan c ch).coreOn i) = true :=
    List.all_eq_true.2 fun i hi => by
      rw [State.goingChan_coreState, hidle' i hi]
      rfl
  have hrun : ((s.goingChan c ch).freeChannel ch).runQueues = (s.goingChan c ch).freeChannel ch := by
    refine State.runQueues_calm ?_
    rw [State.freeChannel_cores hcalm', State.goingChan_cores]
    exact hcalm.2
  simp only [hch, hwork, Option.isSome_none, Bool.false_eq_true, if_false]
  rw [← State.destroying, habort, ← State.goingChan, hsettle, if_pos hall, hrun]

theorem chanDestroy_ends : ∃ t, exec (.chanDestroy k) s = .next t ∧ Claims.ends t k c stOk 0 ∧
    t.chan ch = { Channel.free with gen := (s.chan ch).gen } ∧
    (∀ i ∈ (s.chan ch).cores, t.sqState i = sqClosed ∧ (t.queue i).resident = []) ∧
    ∀ v ∈ t.events, v.handle ≠ s.handle ch := by
  have hcalm' := State.goingChan_calm hcalm c ch
  have hchan := State.goingChan_chan s c ch
  refine State.chanDestroy_freed hc hwork hch hcalm hidle ⟨?_, fun i hi => ?_, fun v hv => ?_⟩
  · rw [State.finish_chan, State.freeChannel_chan, hchan]
  · have hi' : i ∈ ((s.goingChan c ch).chan ch).cores := by rw [hchan]; exact hi
    obtain ⟨hclosed, hqueue⟩ := State.freeChannel_shutAt hcalm' hi'
    rw [State.finish_sqState, State.finish_queue]
    exact ⟨hclosed, by rw [hqueue]; rfl⟩
  · rw [← State.goingChan_handle s c ch]
    exact State.freeChannel_events hv

end

end Sys2Proof.Machine
end

section
/-!
PROOF. What an operation on one core can change, and STREAM_START of a new stream (O45).
-/
namespace Sys2Proof.Machine

/-! ## Operations on one core -/

/-- `s` comes from `s₀` by operations on core `i`: its own state, registers of its site window, and the vaults, look-ups,
events and debugging that such operations touch. -/
inductive State.AtSite (i : Nat) (s₀ : State) : State → Prop
  | refl : s₀.AtSite i s₀
  | setF {s : State} (h : s₀.AtSite i s) (f : Fld) (v : Nat) (hf : siteBase i ≤ f.off ∧ f.off < siteBase i + 0x4000) :
    s₀.AtSite i (s.setF f v)
  | setCore {s : State} (h : s₀.AtSite i s) (c : Core) : s₀.AtSite i (s.setCore i c)
  | upd {s : State} (h : s₀.AtSite i s) (vaults tables events dbg) : s₀.AtSite i
      { s with vaults := vaults, tables := tables, events := events, dbg := dbg }

namespace State.AtSite
variable {i : Nat} {s₀ s : State}

theorem chans (h : s₀.AtSite i s) : s.chans = s₀.chans := by induction h <;> simp_all
theorem started (h : s₀.AtSite i s) : s.started = s₀.started := by induction h <;> simp_all
theorem asker (h : s₀.AtSite i s) : s.asker = s₀.asker := by induction h <;> simp_all
theorem jobs (h : s₀.AtSite i s) : s.jobs = s₀.jobs := by induction h <;> simp_all

/-- Other cores keep their state. -/
theorem core_other (h : s₀.AtSite i s) {j : Nat} (hj : j ≠ i) : s.core j = s₀.core j := by
  induction h with
  | refl => rfl
  | setF _ _ _ _ ih => rwa [State.setF_core]
  | setCore _ c ih => rwa [State.core, State.setCore, SMap.get_put_ne _ _ _ hj]
  | upd _ _ _ _ _ ih => exact ih

/-- Registers outside the site's window keep their value. -/
theorem reg (h : s₀.AtSite i s) {a : Nat} (ha : a < siteBase i ∨ siteBase i + 0x4000 ≤ a) : s.reg a = s₀.reg a := by
  induction h with
  | refl => rfl
  | setF _ f v hf ih => rw [State.reg_setF_ne _ _ _ _ (by rintro rfl; omega), ih]
  | setCore _ _ ih => exact ih
  | upd _ _ _ _ _ ih => exact ih

theorem foldl_setF (h : s₀.AtSite i s) {l : List Fld} (hl : ∀ f ∈ l, siteBase i ≤ f.off ∧ f.off < siteBase i + 0x4000) :
    s₀.AtSite i (l.foldl (fun s f => s.setF f 0) s) := by
  induction l generalizing s with
  | nil => exact h
  | cons f l ih =>
    exact ih (h.setF f 0 (hl f List.mem_cons_self)) fun g hg => hl g (List.mem_cons_of_mem f hg)

theorem trans {t : State} (h : s₀.AtSite i s) (ht : s.AtSite i t) : s₀.AtSite i t := by
  induction ht with
  | refl => exact h
  | setF _ f v hf ih => exact ih.setF f v hf
  | setCore _ c ih => exact ih.setCore c
  | upd _ _ _ _ _ ih => exact ih.upd _ _ _ _

/-- The windows of two sites are apart. -/
theorem window_apart {i j : Nat} (h : j ≠ i) (x : Nat) (hx : x < 0x4000) :
    siteBase j + x < siteBase i ∨ siteBase i + 0x4000 ≤ siteBase j + x := by
  unfold siteBase towerBase
  omega

/-- Fields of other sites keep their value. -/
theorem getF_other (h : s₀.AtSite i s) {j : Nat} (hj : j ≠ i) {f : Fld}
    (hf : siteBase j ≤ f.off ∧ f.off < siteBase j + 0x4000) : s.getF f = s₀.getF f := by
  have hoff := window_apart hj (f.off - siteBase j) (by omega)
  rw [State.getF, State.getF, h.reg (by omega)]

theorem coreState_other (h : s₀.AtSite i s) {j : Nat} (hj : j ≠ i) : s.coreState j = s₀.coreState j :=
  h.getF_other hj (by simp [Reg.coreStatus_state])
theorem pc_other (h : s₀.AtSite i s) {j : Nat} (hj : j ≠ i) : s.pc j = s₀.pc j :=
  h.getF_other hj (by simp [Reg.corePc_pc])
theorem streamLen_other (h : s₀.AtSite i s) {j : Nat} (hj : j ≠ i) : s.streamLen j = s₀.streamLen j := by
  rw [State.streamLen, State.streamLen, h.getF_other hj (by simp [Reg.coreStreamLen_len])]

end State.AtSite

/-! ## One operation on each core of a list -/

section
variable {R P : State → Nat → Prop} {f : State → Nat → State} (hstep : ∀ s i, R s i → State.AtSite i s (f s i) ∧ P (f s i) i)
  (hready : ∀ s i, P s i → R s i) (hR : ∀ s t i j, State.AtSite j s t → i ≠ j → R s i → R t i)
include hstep hready hR

theorem State.step_ready {s : State} {i j : Nat} (hi : R s i) (hj : R s j) : R (f s j) i := by
  obtain ⟨hat, hdone⟩ := hstep s j hj
  by_cases hij : i = j
  · subst hij
    exact hready _ _ hdone
  · exact hR _ _ _ _ hat hij hi

variable {s : State} {xs : List Nat} (h : ∀ i ∈ xs, R s i)
include h

/-- What operations on one core always leave, one on each core of a list leaves. -/
theorem State.foldl_cores_same {α : Type} {g : State → α} (hg : ∀ {i s t}, State.AtSite i s t → g t = g s) :
    g (xs.foldl f s) = g s := by
  refine (State.foldl_keeps (P := fun t => (∀ i ∈ xs, R t i) ∧ g t = g s) (fun t j hj ht => ⟨fun i hi =>
    State.step_ready hstep hready hR (ht.1 i hi) (ht.1 j hj), ?_⟩) ⟨h, rfl⟩).2
  exact (hg (hstep t j (ht.1 j hj)).1).trans ht.2

/-- One operation on each core of a list, each core ready for it: it is done on each. -/
theorem State.foldl_cores (hP : ∀ s t i j, State.AtSite j s t → i ≠ j → P s i → P t i) {i : Nat} (hi : i ∈ xs) :
    P (xs.foldl f s) i := by
  have hkeep (s : State) (j : Nat) (hj : j ∈ xs) (hs : ∀ i ∈ xs, R s i) : ∀ i ∈ xs, R (f s j) i :=
    fun i hi => State.step_ready hstep hready hR (hs i hi) (hs j hj)
  refine (State.foldl_sets (P := fun t => (∀ i ∈ xs, R t i) ∧ P t i) (Q := fun t => ∀ i ∈ xs, R t i) (f := f)
    (fun s hs => ⟨hkeep s i hi hs, (hstep s i (hs i hi)).2⟩) hkeep (fun s j hj hs => ⟨hkeep s j hj hs.1, ?_⟩) hi h).2
  obtain ⟨hat, hdone⟩ := hstep s j (hs.1 j hj)
  by_cases hij : i = j
  · subst hij
    exact hdone
  · exact hP _ _ _ _ hat hij hs.2

end

/-! ## Starting a core on a stream -/

/-- The fields that a core's start of a stream clears. -/
def startCleared (i : Nat) : List Fld :=
  [Reg.coreRetired_count i, Reg.coreIcStat_misses i, Reg.mxaStatus_nan_op i, Reg.mxaStatus_inv i,
    Reg.mxaStatus_ovf i, Reg.mxaHeld_valid i, Reg.mxaHeld_sfmt i, Reg.mxaHeld_shadow_ready i, Reg.mxaStatus_isat i,
    Reg.mxaStatus_poison i, Reg.mxaCntFreeze_feed_dry i, Reg.mxaCntFreeze_shadow_late i, Reg.mxaCntFreeze_drain_full i,
    Reg.tleStatus_nan_op i, Reg.tleStatus_inv i, Reg.tleStatus_ovf i, Reg.tleStatus_isat i, Reg.tleStatus_poison i,
    Reg.tleKpoison_kpoison i, Reg.kvxLast_status i, Reg.kvxLast_tag i, Reg.kvxLast_op i, Reg.kvxLost_valid i,
    Reg.kvxLost_frame i]

/-- They stand in the site's window, past the stream's length and the PC. -/
theorem startCleared_off (i : Nat) : ∀ f ∈ startCleared i, siteBase i + 0x20 < f.off ∧ f.off < siteBase i + 0x4000 := by
  simp [startCleared, Reg.coreRetired_count, Reg.coreIcStat_misses, Reg.mxaStatus_nan_op, Reg.mxaStatus_inv,
    Reg.mxaStatus_ovf, Reg.mxaHeld_valid, Reg.mxaHeld_sfmt, Reg.mxaHeld_shadow_ready, Reg.mxaStatus_isat,
    Reg.mxaStatus_poison, Reg.mxaCntFreeze_feed_dry, Reg.mxaCntFreeze_shadow_late, Reg.mxaCntFreeze_drain_full,
    Reg.tleStatus_nan_op, Reg.tleStatus_inv, Reg.tleStatus_ovf, Reg.tleStatus_isat, Reg.tleStatus_poison,
    Reg.tleKpoison_kpoison, Reg.kvxLast_status, Reg.kvxLast_tag, Reg.kvxLast_op, Reg.kvxLost_valid,
    Reg.kvxLost_frame, Nat.add_assoc]

/-- The core's own state as it starts a stream, and its vault's latches. -/
def State.startedCore (s : State) (i : Nat) : State :=
  let t := s.setCore i { s.core i with
    ags := [], frames := [], loopBuf := [], hold := .none, icache := [], noBreak := false, stepsLeft := 0
    acc0 := Acc.start, acc1 := Acc.start, held := none, mxa := (s.core i).mxa.discard, tle := Tle.start }
  t.setVault i { t.vault i with latchValid := [] }

theorem State.startStream_eq (s : State) (i : Nat) : s.startStream i =
    (((startCleared i).foldl (fun s f => s.setF f 0) ((s.startedCore i).setPc i (s.streamBase i)))).setF
      (Reg.coreStatus_state i) csRunning := rfl

/-- Clearing fields leaves registers that hold none of them. -/
theorem State.reg_foldl_setF (s : State) {l : List Fld} {a : Nat} (h : ∀ f ∈ l, f.off ≠ a) :
    (l.foldl (fun s f => s.setF f 0) s).reg a = s.reg a := by
  induction l generalizing s with
  | nil => rfl
  | cons f l ih =>
    rw [List.foldl_cons, ih _ fun g hg => h g (List.mem_cons_of_mem f hg)]
    exact State.reg_setF_ne s f 0 a (h f List.mem_cons_self).symm

theorem State.startedCore_atSite (s : State) (i : Nat) : s.AtSite i (s.startedCore i) :=
  .upd (.setCore .refl _) _ _ _ _

theorem State.setPc_atSite (s : State) (i a : Nat) : s.AtSite i (s.setPc i a) :=
  .setF (.setCore .refl _) _ _ (by simp [Reg.corePc_pc])

theorem State.startStream_atSite (s : State) (i : Nat) : s.AtSite i (s.startStream i) := by
  rw [State.startStream_eq]
  refine .setF (.foldl_setF ((s.startedCore_atSite i).trans (State.setPc_atSite _ i _)) fun f hf => ?_) _ _
    (by simp [Reg.coreStatus_state])
  have hoff := startCleared_off i f hf
  omega

theorem State.startStream_coreState (s : State) (i : Nat) : (s.startStream i).coreState i = csRunning := by
  rw [State.startStream_eq]
  exact State.getF_setF_self _ _ _ (by simp [fldProper, Reg.coreStatus_state])

/-- The start of a stream keeps the site's registers between CORE_STATUS and CORE_PC. -/
theorem State.startStream_reg (s : State) (i : Nat) {x : Nat} (hx : 0x10 < x) (hx' : x < 0x20) :
    (s.startStream i).reg (siteBase i + x) = s.reg (siteBase i + x) := by
  rw [State.startStream_eq, State.reg_setF_ne _ _ _ _ (by simp only [Reg.coreStatus_state]; omega), State.reg_foldl_setF,
    State.setPc, State.reg_setF_ne _ _ _ _ (by simp only [Reg.corePc_pc]; omega)]
  · rfl
  · intro f hf
    have hoff := startCleared_off i f hf
    omega

theorem State.startStream_streamLen (s : State) (i : Nat) : (s.startStream i).streamLen i = s.streamLen i :=
  congrArg (fun w : BitVec 64 => bits w.toNat 28 4 * 16)
    (State.startStream_reg s i (x := 0x1C) (by decide) (by decide))

theorem State.startStream_pc (s : State) (i : Nat) : (s.startStream i).pc i = s.streamBase i % 2 ^ 29 := by
  have hset := State.getF_setF_self ((s.startedCore i).setCore i { (s.startedCore i).core i with
    pastEnd := decide (vaultSize ≤ s.streamBase i) }) (Reg.corePc_pc i) (s.streamBase i) (by simp [fldProper, Reg.corePc_pc])
  rw [State.startStream_eq, State.pc, State.getF,
    State.reg_setF_ne _ _ _ _ (by simp only [Reg.coreStatus_state, Reg.corePc_pc]; omega), State.reg_foldl_setF]
  · exact hset
  · intro f hf
    have hoff := startCleared_off i f hf
    simp only [Reg.corePc_pc]
    omega

section
variable {s : State} {base len : Nat} (h : streamOk base len = true)
include h

theorem streamOk_bounds : base % 128 = 0 ∧ base < 2 ^ 29 ∧ len % 16 = 0 ∧ len ≤ 2 ^ 28 := by
  simp only [streamOk, Bool.and_eq_true, beq_iff_eq, bne_iff_ne, decide_eq_true_eq] at h
  have hsize : vaultSize = 2 ^ 29 := rfl
  omega

theorem State.launchStream_started (i : Nat) : (s.launchStream i base len).coreState i = csRunning ∧
    (s.launchStream i base len).pc i = base ∧ (s.launchStream i base len).streamLen i = len := by
  obtain ⟨halign, hbase, hwords, hlen⟩ := streamOk_bounds h
  have hb : ((s.setF (Reg.coreStreamBase_base i) (base / 128)).setF (Reg.coreStreamLen_len i) (len / 16)).getF
      (Reg.coreStreamBase_base i) = base / 128 := by
    rw [State.getF_setF_apart, State.getF_setF_self]
    · exact Nat.mod_eq_of_lt (by simp only [Reg.coreStreamBase_base]; omega)
    all_goals simp [fldProper, fldApart, Reg.coreStreamBase_base, Reg.coreStreamLen_len]
  have hl : ((s.setF (Reg.coreStreamBase_base i) (base / 128)).setF (Reg.coreStreamLen_len i) (len / 16)).getF
      (Reg.coreStreamLen_len i) = len / 16 := by
    rw [State.getF_setF_self _ _ _ (by simp [fldProper, Reg.coreStreamLen_len])]
    exact Nat.mod_eq_of_lt (by simp only [Reg.coreStreamLen_len]; omega)
  refine ⟨State.startStream_coreState _ i, ?_, ?_⟩
  · rw [State.launchStream, State.startStream_pc, State.streamBase, hb]
    omega
  · rw [State.launchStream, State.startStream_streamLen, State.streamLen, hl]
    omega

end

theorem State.launchStream_atSite (s : State) (i base len : Nat) : s.AtSite i (s.launchStream i base len) :=
  .trans (.setF (.setF .refl _ _ (by simp [Reg.coreStreamBase_base])) _ _ (by simp [Reg.coreStreamLen_len]))
    (State.startStream_atSite _ i)

end Sys2Proof.Machine
end

section
/-!
PROOF. STREAM_START (O45).
-/
namespace Sys2Proof.Machine

theorem State.lookedUp_hostRead (s : State) (c : Started) (list : HostRead) :
    (s.lookedUp c).hostRead list = ((s.hostRead list).1.lookedUp c, (s.hostRead list).2) := by
  have hon (f : Fld) : (s.lookedUp c).on f = s.on f := rfl
  have hget (f : Fld) : (s.lookedUp c).getF f = s.getF f := rfl
  rw [State.hostRead, State.hostRead, hon, hget, hon]
  split
  · rfl
  · rfl

/-- The cores that a command names do not depend on its look-ups. -/
theorem State.lookedUp_namedCores {s : State} {c : Started} {list : HostRead} {xs : List Nat}
    (h : s.namedCores c.cmd list = (s, .ok xs)) :
    (s.lookedUp c).namedCores c.cmd list = (s.lookedUp c, .ok xs) := by
  have hcommute : (s.lookedUp c).namedCores c.cmd list =
      ((s.namedCores c.cmd list).1.lookedUp c, (s.namedCores c.cmd list).2) := by
    rw [State.namedCores, State.namedCores, State.lookedUp_hostRead, State.lookedUp_chan]
    simp only
    split
    · rfl
    · split
      · rfl
      · split <;> rfl
  rw [hcommute, h]

/-! ## A new stream -/

/-- The cores of a command start on a stream. -/
def State.launchAll (s : State) (xs : List Nat) (base len : Nat) : State :=
  xs.foldl (fun s i => s.launchStream i base len) s

/-- A core runs a stream from its start. -/
def State.startedOn (s : State) (base len i : Nat) : Prop :=
  s.coreState i = csRunning ∧ s.pc i = base ∧ s.streamLen i = len

theorem State.startedOn_other (base len : Nat) (s t : State) (i j : Nat) (h : s.AtSite j t) (hij : i ≠ j)
    (hs : s.startedOn base len i) : t.startedOn base len i := by
  rw [State.startedOn, h.coreState_other hij, h.pc_other hij, h.streamLen_other hij]
  exact hs

section
variable {base len : Nat} (h : streamOk base len = true)
include h

/-- Every core is ready to start on a stream. -/
theorem State.launchStream_startedOn (s : State) (i : Nat) (_ : True) :
    s.AtSite i (s.launchStream i base len) ∧ (s.launchStream i base len).startedOn base len i :=
  ⟨s.launchStream_atSite i base len, State.launchStream_started h i⟩

theorem State.launchAll_startedOn (s : State) {xs : List Nat} {i : Nat} (hi : i ∈ xs) :
    (s.launchAll xs base len).startedOn base len i :=
  State.foldl_cores (R := fun _ _ => True) (State.launchStream_startedOn h) (fun _ _ _ => trivial)
    (fun _ _ _ _ _ _ _ => trivial) (fun _ _ => trivial) (State.startedOn_other base len) hi

theorem State.launchAll_same (s : State) (xs : List Nat) {α : Type} {g : State → α}
    (hg : ∀ {i s t}, State.AtSite i s t → g t = g s) : g (s.launchAll xs base len) = g s :=
  State.foldl_cores_same (R := fun _ _ => True) (P := fun t => t.startedOn base len) (State.launchStream_startedOn h)
    (fun _ _ _ => trivial) (fun _ _ _ _ _ _ _ => trivial) (fun _ _ => trivial) hg

end

@[simp] theorem State.finish_coreState (s : State) (c : Started) (st res i : Nat) :
    (s.finish c st res).coreState i = s.coreState i := (rfl)
@[simp] theorem State.finish_pc (s : State) (c : Started) (st res i : Nat) : (s.finish c st res).pc i = s.pc i := (rfl)
@[simp] theorem State.finish_streamLen (s : State) (c : Started) (st res i : Nat) :
    (s.finish c st res).streamLen i = s.streamLen i := (rfl)

section
variable {s : State} {k : Nat} {c : Started} {list : HostRead} {xs : List Nat} (hc : Claims.takes s k c 0x18)
  (hnamed : s.namedCores c.cmd list = (s, .ok xs))
  (hcool : xs.any (fun i => s.getF (Reg.ptmTState_level (towerOf i)) == 3) = false)
include hc hnamed hcool

theorem streamStart_new_ends (hmode : bit (fieldLE c.cmd 8 1) 0 = false)
    (hok : streamOk (fieldLE c.cmd 12 4) (fieldLE c.cmd 16 4) = true)
    (hidle : xs.all (fun i => s.coreState i == csIdle) = true) :
    ∃ t, exec (.streamStart k list) s = .next t ∧ Claims.ends t k c stOk xs.length ∧
      ∀ i ∈ xs, t.coreState i = csRunning ∧ t.pc i = fieldLE c.cmd 12 4 ∧ t.streamLen i = fieldLE c.cmd 16 4 := by
  have hnamed' := State.lookedUp_namedCores hnamed
  have hcool' : xs.any (fun i => (s.lookedUp c).getF (Reg.ptmTState_level (towerOf i)) == 3) = false := hcool
  have hidle' : xs.all (fun i => (s.lookedUp c).coreState i == csIdle) = true := hidle
  refine State.command_ends (u := (s.lookedUp c).launchAll xs (fieldLE c.cmd 12 4) (fieldLE c.cmd 16 4)) hc ?_
    (State.wanted_of_asker (State.launchAll_same hok _ xs State.AtSite.asker))
    (State.holdsCmd_of_started (State.lookedUp_holdsCmd hc) (State.launchAll_same hok _ xs State.AtSite.started))
    fun i hi => ?_
  · simp only [hmode, hok, hnamed', hcool', hidle', Bool.false_eq_true, if_false]
    rfl
  · rw [State.finish_coreState, State.finish_pc, State.finish_streamLen]
    exact State.launchAll_startedOn hok _ hi

end

/-! ## A stream resumed -/

/-- A core that may be resumed at a PC: in BREAK there, the word at its PC not poisoned, or RUNNING again already. -/
def State.resumes (s : State) (pc : Nat → Nat) (i : Nat) : Prop :=
  s.pc i = pc i ∧ (s.coreState i = csRunning ∨ s.coreState i = csBreak ∧ (s.core i).wordAt (s.pc i) ≠ .poison)

/-- What resuming a core in BREAK comes to when its next word is not poisoned. -/
theorem State.resumeCore_eq {s : State} {i : Nat} (h : s.coreState i = csBreak)
    (hword : (s.core i).wordAt (s.pc i) ≠ .poison) : s.resumeCore i =
    (s.setCore i { s.core i with noBreak := true }).setF (Reg.coreStatus_state i) csRunning := by
  have hcore : ((s.setCore i { s.core i with noBreak := true }).setF (Reg.coreStatus_state i) csRunning).core i =
      { s.core i with noBreak := true } := by
    rw [State.setF_core, State.core, State.setCore, SMap.get_put_same]
  have hpc : ((s.setCore i { s.core i with noBreak := true }).setF (Reg.coreStatus_state i) csRunning).pc i = s.pc i :=
    (State.getF_setF_apart _ _ _ _ (by simp [fldProper, Reg.coreStatus_state])
      (by simp [fldApart, Reg.coreStatus_state, Reg.corePc_pc])).trans (State.setCore_getF ..)
  have hword' : ¬ ({ s.core i with noBreak := true } : Core).wordAt (s.pc i) = .poison := hword
  rw [State.resumeCore, h, State.checkLine, hcore, hpc, if_neg (by simp)]
  exact if_neg (by simp [hword'])

/-- A core runs at a PC. -/
def State.runsAt (s : State) (pc : Nat → Nat) (i : Nat) : Prop := s.coreState i = csRunning ∧ s.pc i = pc i

theorem State.resumeCore_resumed (pc : Nat → Nat) (s : State) (i : Nat) (h : s.resumes pc i) :
    s.AtSite i (s.resumeCore i) ∧ (s.resumeCore i).runsAt pc i := by
  obtain ⟨hpc, hrun | ⟨hbreak, hword⟩⟩ := h
  · have hnot : (csRunning != csBreak) = true := by decide
    have hstay : s.resumeCore i = s := by rw [State.resumeCore, hrun, if_pos hnot]
    rw [hstay]
    exact ⟨.refl, hrun, hpc⟩
  · rw [State.resumeCore_eq hbreak hword]
    refine ⟨.setF (.setCore .refl _) _ _ (by simp [Reg.coreStatus_state]),
      State.getF_setF_self _ _ _ (by simp [fldProper, Reg.coreStatus_state]), ?_⟩
    rw [State.pc, State.getF_setF_apart, State.setCore_getF]
    · exact hpc
    all_goals simp [fldProper, fldApart, Reg.coreStatus_state, Reg.corePc_pc]

theorem State.resumes_of_runsAt (pc : Nat → Nat) (s : State) (i : Nat) (h : s.runsAt pc i) : s.resumes pc i :=
  ⟨h.2, .inl h.1⟩

theorem State.resumes_other (pc : Nat → Nat) (s t : State) (i j : Nat) (h : s.AtSite j t) (hij : i ≠ j)
    (hs : s.resumes pc i) : t.resumes pc i := by
  rw [State.resumes, h.coreState_other hij, h.core_other hij, h.pc_other hij]
  exact hs

theorem State.runsAt_other (pc : Nat → Nat) (s t : State) (i j : Nat) (h : s.AtSite j t) (hij : i ≠ j)
    (hs : s.runsAt pc i) : t.runsAt pc i := by
  rw [State.runsAt, h.coreState_other hij, h.pc_other hij]
  exact hs

/-- The cores of a command are resumed. -/
def State.resumeAll (s : State) (xs : List Nat) : State := xs.foldl (fun s i => s.resumeCore i) s

section
variable {s : State} {pc : Nat → Nat} {xs : List Nat} (h : ∀ i ∈ xs, s.resumes pc i)
include h

theorem State.resumeAll_runsAt {i : Nat} (hi : i ∈ xs) : (s.resumeAll xs).runsAt pc i :=
  State.foldl_cores (State.resumeCore_resumed pc) (State.resumes_of_runsAt pc) (State.resumes_other pc) h
    (State.runsAt_other pc) hi

theorem State.resumeAll_same {α : Type} {g : State → α} (hg : ∀ {i s t}, State.AtSite i s t → g t = g s) :
    g (s.resumeAll xs) = g s :=
  State.foldl_cores_same (State.resumeCore_resumed pc) (State.resumes_of_runsAt pc) (State.resumes_other pc) h hg

end

theorem streamStart_resume_ends {s : State} {k : Nat} {c : Started} {list : HostRead} {xs : List Nat}
    (hc : Claims.takes s k c 0x18) (hnamed : s.namedCores c.cmd list = (s, .ok xs))
    (hcool : xs.any (fun i => s.getF (Reg.ptmTState_level (towerOf i)) == 3) = false)
    (hmode : bit (fieldLE c.cmd 8 1) 0 = true) (hbase : fieldLE c.cmd 12 4 = 0) (hlen : fieldLE c.cmd 16 4 = 0)
    (hbreak : xs.all (fun i => s.coreState i == csBreak) = true)
    (hword : ∀ i ∈ xs, (s.core i).wordAt (s.pc i) ≠ .poison) :
    ∃ t, exec (.streamStart k list) s = .next t ∧ Claims.ends t k c stOk xs.length ∧
      ∀ i ∈ xs, t.coreState i = csRunning ∧ t.pc i = s.pc i := by
  have hnamed' := State.lookedUp_namedCores hnamed
  have hcool' : xs.any (fun i => (s.lookedUp c).getF (Reg.ptmTState_level (towerOf i)) == 3) = false := hcool
  have hbreak' : xs.all (fun i => (s.lookedUp c).coreState i == csBreak) = true := hbreak
  have hresumes : ∀ i ∈ xs, (s.lookedUp c).resumes s.pc i := fun i hi =>
    ⟨rfl, .inr ⟨beq_iff_eq.1 (List.all_eq_true.1 hbreak i hi), hword i hi⟩⟩
  refine State.command_ends (u := (s.lookedUp c).resumeAll xs) hc ?_
    (State.wanted_of_asker (State.resumeAll_same hresumes State.AtSite.asker))
    (State.holdsCmd_of_started (State.lookedUp_holdsCmd hc) (State.resumeAll_same hresumes State.AtSite.started))
    fun i hi => ?_
  · simp only [hmode, hbase, hlen, hnamed', hcool', hbreak', if_true]
    rfl
  · rw [State.finish_coreState, State.finish_pc]
    exact State.resumeAll_runsAt hresumes hi

end Sys2Proof.Machine
end

section
/-!
PROOF. STREAM_STOP (O45).
-/
namespace Sys2Proof.Machine

/-! ## Operations that stop a core -/

/-- A core that holds nothing is withdrawn: it waits for nothing and has no look-up. -/
theorem State.withdraw_none {s : State} {i : Nat} (h : (s.core i).hold = .none) :
    s.withdraw i = (s.setCore i { s.core i with hold := .none, waits := [] }).dropTables i 0 := by
  rw [State.withdraw, h]

theorem State.endStep_atSite (s : State) (i : Nat) : s.AtSite i (s.endStep i) := by
  rw [State.endStep]
  simp only
  split
  · exact .upd (.setCore .refl _) _ _ _ _
  · exact .setCore .refl _

theorem State.endStep_core (s : State) (i : Nat) : (s.endStep i).core i = { s.core i with stepsLeft := 0 } := by
  have hset : (s.setCore i { s.core i with stepsLeft := 0 }).core i = { s.core i with stepsLeft := 0 } := by
    rw [State.core, State.setCore, SMap.get_put_same]
  rw [State.endStep]
  simp only
  split
  · exact hset
  · exact hset

theorem State.endStep_reg (s : State) (i a : Nat) : (s.endStep i).reg a = s.reg a := by
  rw [State.endStep]
  simp only
  split <;> rfl

/-- A core is stopped: withdrawn, its step over. -/
def State.halted (s : State) (i : Nat) : State := (s.withdraw i).endStep i

section
variable {s : State} {i : Nat} (h : (s.core i).hold = .none)
include h

theorem State.halted_atSite : s.AtSite i (s.halted i) := by
  rw [State.halted, State.withdraw_none h]
  exact .trans (.upd (.setCore .refl _) _ _ _ _) (State.endStep_atSite _ i)

theorem State.halted_reg (a : Nat) : (s.halted i).reg a = s.reg a := by
  rw [State.halted, State.endStep_reg, State.withdraw_none h]
  rfl

theorem State.halted_core : (s.halted i).core i = { s.core i with hold := .none, waits := [], stepsLeft := 0 } := by
  have hset : ((s.setCore i { s.core i with hold := .none, waits := [] }).dropTables i 0).core i =
      { s.core i with hold := .none, waits := [] } := by
    rw [State.core, State.dropTables, State.setCore, SMap.get_put_same]
  rw [State.halted, State.endStep_core, State.withdraw_none h, hset]

end

/-! ## PAUSE -/

/-- A core that may be paused at a PC: RUNNING there with nothing held, or in BREAK already. -/
def State.pauses (s : State) (pc : Nat → Nat) (i : Nat) : Prop :=
  s.pc i = pc i ∧ (s.coreState i = csBreak ∨ s.coreState i = csRunning ∧ (s.core i).hold = .none)

/-- A core is in BREAK at a PC. -/
def State.breaksAt (s : State) (pc : Nat → Nat) (i : Nat) : Prop := s.coreState i = csBreak ∧ s.pc i = pc i

theorem State.pauseCore_breaksAt (pc : Nat → Nat) (s : State) (i : Nat) (h : s.pauses pc i) :
    s.AtSite i (s.pauseCore i) ∧ (s.pauseCore i).breaksAt pc i := by
  obtain ⟨hpc, hbreak | ⟨hrun, hhold⟩⟩ := h
  · have hstay : s.pauseCore i = s := by rw [State.pauseCore, hbreak]; rfl
    rw [hstay]
    exact ⟨.refl, hbreak, hpc⟩
  · have hpause : s.pauseCore i = (s.halted i).setF (Reg.coreStatus_state i) csBreak := by
      rw [State.pauseCore, hrun, hhold]
      rfl
    rw [hpause]
    refine ⟨.setF (State.halted_atSite hhold) _ _ (by simp [Reg.coreStatus_state]),
      State.getF_setF_self _ _ _ (by simp [fldProper, Reg.coreStatus_state]), ?_⟩
    rw [State.pc, State.getF_setF_apart, State.getF, State.halted_reg hhold]
    · exact hpc
    all_goals simp [fldProper, fldApart, Reg.coreStatus_state, Reg.corePc_pc]

theorem State.pauses_of_breaksAt (pc : Nat → Nat) (s : State) (i : Nat) (h : s.breaksAt pc i) : s.pauses pc i :=
  ⟨h.2, .inl h.1⟩

theorem State.pauses_other (pc : Nat → Nat) (s t : State) (i j : Nat) (h : s.AtSite j t) (hij : i ≠ j)
    (hs : s.pauses pc i) : t.pauses pc i := by
  rw [State.pauses, h.coreState_other hij, h.core_other hij, h.pc_other hij]
  exact hs

theorem State.breaksAt_other (pc : Nat → Nat) (s t : State) (i j : Nat) (h : s.AtSite j t) (hij : i ≠ j)
    (hs : s.breaksAt pc i) : t.breaksAt pc i := by
  rw [State.breaksAt, h.coreState_other hij, h.pc_other hij]
  exact hs

/-- The cores of a command are paused. -/
def State.pauseAll (s : State) (xs : List Nat) : State := xs.foldl (fun s i => s.pauseCore i) s

section
variable {s : State} {pc : Nat → Nat} {xs : List Nat} (h : ∀ i ∈ xs, s.pauses pc i)
include h

theorem State.pauseAll_breaksAt {i : Nat} (hi : i ∈ xs) : (s.pauseAll xs).breaksAt pc i :=
  State.foldl_cores (State.pauseCore_breaksAt pc) (State.pauses_of_breaksAt pc) (State.pauses_other pc) h
    (State.breaksAt_other pc) hi

theorem State.pauseAll_same {α : Type} {g : State → α} (hg : ∀ {i s t}, State.AtSite i s t → g t = g s) :
    g (s.pauseAll xs) = g s :=
  State.foldl_cores_same (State.pauseCore_breaksAt pc) (State.pauses_of_breaksAt pc) (State.pauses_other pc) h hg

end

theorem streamStop_pause_ends {s : State} {k : Nat} {c : Started} {list : HostRead} {xs : List Nat}
    (hc : Claims.takes s k c 0x19) (hwork : c.work = none) (hnamed : s.namedCores c.cmd list = (s, .ok xs))
    (hmode : fieldLE c.cmd 8 1 = 0) (hrun : ∀ i ∈ xs, s.coreState i = csRunning ∧ (s.core i).hold = .none) :
    ∃ t, exec (.streamStop k list) s = .next t ∧ Claims.ends t k c stOk xs.length ∧
      ∀ i ∈ xs, t.coreState i = csBreak ∧ t.pc i = s.pc i := by
  have hnamed' := State.lookedUp_namedCores hnamed
  have hpauses : ∀ i ∈ xs, (s.lookedUp c).pauses s.pc i := fun i hi => ⟨rfl, .inr (hrun i hi)⟩
  have hhit : xs.filter (fun i => (s.lookedUp c).coreState i == csRunning && ((s.lookedUp c).core i).hold != .end_) =
      xs := List.filter_eq_self.2 fun i hi => by
    have hstate : (s.lookedUp c).coreState i = csRunning := (hrun i hi).1
    have hhold : ((s.lookedUp c).core i).hold = .none := (hrun i hi).2
    rw [hstate, hhold]
    rfl
  refine State.command_ends (u := (s.lookedUp c).pauseAll xs) hc ?_
    (State.wanted_of_asker (State.pauseAll_same hpauses State.AtSite.asker))
    (State.holdsCmd_of_started (State.lookedUp_holdsCmd hc) (State.pauseAll_same hpauses State.AtSite.started))
    fun i hi => ?_
  · simp only [hwork, hmode, hnamed', hhit, Nat.not_lt_zero, if_false, if_true]
    rfl
  · rw [State.finish_coreState, State.finish_pc]
    exact State.pauseAll_breaksAt hpauses hi

/-! ## ABORT -/

/-- A core that ABORT stops at once: RUNNING with nothing held, queued or outstanding and its tower not resetting; or
IDLE already. -/
def State.aborts (s : State) (i : Nat) : Prop :=
  s.coreState i = csIdle ∨ s.coreState i = csRunning ∧ (s.core i).hold = .none ∧ (s.core i).synq = [] ∧
    s.jobs.any (fun j => j.site == i) = false ∧ s.on (Reg.skyStatus_resetting (towerOf i)) = false

theorem State.engBusy_of_empty {s : State} {i : Nat} (hsyn : (s.core i).synq = [])
    (hjobs : s.jobs.any (fun j => j.site == i) = false) (mask : Nat) : s.engBusy i mask = false := by
  have hbusy : s.busyJobs i mask = false := by
    rw [State.busyJobs, List.any_eq_false]
    intro j hj
    have hsite := List.any_eq_false.1 hjobs j hj
    simp [hsite]
  rw [State.engBusy, hbusy, hsyn]
  simp

/-- A core with an empty SYN queue has nothing of it to run. -/
theorem State.runSyn_nil {s : State} {i : Nat} (h : (s.core i).synq = []) (n : Nat) : s.runSyn i n = s := by
  cases n with
  | zero => rfl
  | succ n => rw [State.runSyn, State.synHead, h]

/-- A DRAINING core with nothing held, queued or outstanding is IDLE as it wakes, its stream over. -/
theorem State.wake_drained {s : State} {i : Nat} (hstate : s.coreState i = csDraining) (hhold : (s.core i).hold = .none)
    (hsyn : (s.core i).synq = []) (hjobs : s.jobs.any (fun j => j.site == i) = false)
    (hreset : s.on (Reg.skyStatus_resetting (towerOf i)) = false) :
    s.wake i = (s.setF (Reg.coreStatus_state i) csIdle).streamDone i stStreamAborted := by
  rw [State.wake, State.runSyn_nil hsyn]
  simp only [hhold, hstate, State.engBusy_of_empty hsyn hjobs, hreset]
  rfl

theorem State.streamDone_atSite (s : State) (i st : Nat) : s.AtSite i (s.streamDone i st) := by
  rw [State.streamDone, State.coreEvent]
  split
  · exact .upd .refl _ _ _ _
  · exact .refl

theorem State.streamDone_coreState (s : State) (i st : Nat) : (s.streamDone i st).coreState i = s.coreState i := by
  rw [State.streamDone, State.coreEvent]
  split <;> rfl

/-- The register of a tower's reset stands in no site's window. -/
theorem State.AtSite.resetting {s t : State} {j : Nat} (h : s.AtSite j t) (i : Nat) :
    t.on (Reg.skyStatus_resetting i) = s.on (Reg.skyStatus_resetting i) := by
  have hapart : (Reg.skyStatus_resetting i).off < siteBase j ∨ siteBase j + 0x4000 ≤ (Reg.skyStatus_resetting i).off := by
    simp only [Reg.skyStatus_resetting, siteBase, towerBase]
    omega
  rw [State.on, State.on, State.getF, State.getF, h.reg hapart]

theorem State.abortCore_aborted (s : State) (i : Nat) (h : s.aborts i) :
    s.AtSite i (s.abortCore i) ∧ (s.abortCore i).coreState i = csIdle := by
  obtain hidle | ⟨hrun, hhold, hsyn, hjobs, hreset⟩ := h
  · rw [State.abortCore_idle hidle]
    exact ⟨.refl, hidle⟩
  · have hat : s.AtSite i ((s.halted i).setF (Reg.coreStatus_state i) csDraining) :=
      .setF (State.halted_atSite hhold) _ _ (by simp [Reg.coreStatus_state])
    have hcore : ((s.halted i).setF (Reg.coreStatus_state i) csDraining).core i =
        { s.core i with hold := .none, waits := [], stepsLeft := 0 } := by
      rw [State.setF_core, State.halted_core hhold]
    have habort : s.abortCore i = (((s.halted i).setF (Reg.coreStatus_state i) csDraining).setF (Reg.coreStatus_state i)
        csIdle).streamDone i stStreamAborted := by
      rw [State.abortCore, if_pos (.inl hrun), ← State.halted]
      refine State.wake_drained (State.getF_setF_self _ _ _ (by simp [fldProper, Reg.coreStatus_state])) ?_ ?_ ?_ ?_
      · rw [hcore]
      · rw [hcore]
        exact hsyn
      · rw [hat.jobs]
        exact hjobs
      · rw [hat.resetting]
        exact hreset
    rw [habort, State.streamDone_coreState]
    exact ⟨.trans (.setF hat _ _ (by simp [Reg.coreStatus_state])) (State.streamDone_atSite _ _ _),
      State.getF_setF_self _ _ _ (by simp [fldProper, Reg.coreStatus_state])⟩

theorem State.aborts_other (s t : State) (i j : Nat) (h : s.AtSite j t) (hij : i ≠ j) (hs : s.aborts i) : t.aborts i := by
  rw [State.aborts, h.coreState_other hij, h.core_other hij, h.jobs, h.resetting]
  exact hs

/-- The cores of a command are aborted. -/
def State.abortAll (s : State) (xs : List Nat) : State := xs.foldl (fun s i => s.abortCore i) s

section
variable {s : State} {xs : List Nat} (h : ∀ i ∈ xs, s.aborts i)
include h

theorem State.abortAll_idle {i : Nat} (hi : i ∈ xs) : (s.abortAll xs).coreState i = csIdle :=
  State.foldl_cores (P := fun t i => t.coreState i = csIdle) State.abortCore_aborted (fun _ _ => .inl) State.aborts_other h
    (fun _ _ _ _ hat hij hs => (hat.coreState_other hij).trans hs) hi

theorem State.abortAll_same {α : Type} {g : State → α} (hg : ∀ {i s t}, State.AtSite i s t → g t = g s) :
    g (s.abortAll xs) = g s :=
  State.foldl_cores_same (P := fun t i => t.coreState i = csIdle) State.abortCore_aborted (fun _ _ => .inl)
    State.aborts_other h hg

end

theorem State.begin_coreState (s : State) (c : Started) (cores : List Nat) (i : Nat) :
    (s.begin_ c cores).coreState i = s.coreState i := (rfl)
theorem State.begin_asker (s : State) (c : Started) (cores : List Nat) : (s.begin_ c cores).asker = s.asker := (rfl)

theorem streamStop_abort_ends {s : State} {k : Nat} {c : Started} {list : HostRead} {xs : List Nat}
    (hc : Claims.takes s k c 0x19) (hwork : c.work = none) (hnamed : s.namedCores c.cmd list = (s, .ok xs))
    (hmode : fieldLE c.cmd 8 1 = 1) (hrun : ∀ i ∈ xs, s.coreState i = csRunning ∧ (s.core i).hold = .none ∧
      (s.core i).synq = [] ∧ s.jobs.any (fun j => j.site == i) = false ∧
      s.on (Reg.skyStatus_resetting (towerOf i)) = false) :
    ∃ t, exec (.streamStop k list) s = .next t ∧ Claims.ends t k c stOk xs.length ∧ ∀ i ∈ xs, t.coreState i = csIdle := by
  have hnamed' := State.lookedUp_namedCores hnamed
  have haborts : ∀ i ∈ xs, (s.lookedUp c).aborts i := fun i hi => .inr (hrun i hi)
  have hhit : xs.filter (fun i => (s.lookedUp c).coreState i == csRunning || (s.lookedUp c).coreState i == csBreak) =
      xs := List.filter_eq_self.2 fun i hi => by
    have hstate : (s.lookedUp c).coreState i = csRunning := (hrun i hi).1
    rw [hstate]
    rfl
  have hidle (i : Nat) (hi : i ∈ xs) : (((s.lookedUp c).abortAll xs).begin_ c xs).coreState i = csIdle := by
    rw [State.begin_coreState, State.abortAll_idle haborts hi]
  have hdrained : xs.any (fun i => (((s.lookedUp c).abortAll xs).begin_ c xs).coreState i == csDraining) = false :=
    List.any_eq_false.2 fun i hi => by
      rw [hidle i hi]
      decide
  have hheld : ((s.lookedUp c).abortAll xs).holdsCmd k c := State.holdsCmd_of_started (State.lookedUp_holdsCmd hc)
    (State.abortAll_same haborts State.AtSite.started)
  refine State.command_ends (u := ((s.lookedUp c).abortAll xs).begin_ c xs) hc ?_ (State.wanted_of_asker (s := s) (c := c) ?_)
    (State.holdsCmd_begin hheld xs) fun i hi => ?_
  · have h10 : ¬ (1 : Nat) < 1 := by decide
    have h1 : (1 : Nat) ≠ 0 := by decide
    simp only [hwork, hmode, hnamed', hhit, h10, h1, if_false]
    rw [← State.abortAll, hdrained]
    rfl
  · rw [State.begin_asker, State.abortAll_same haborts State.AtSite.asker]
  · rw [State.finish_coreState, hidle i hi]

end Sys2Proof.Machine
end

section
/-!
PROOF. The host commands that set up and control complete with what they do (O45).
-/
namespace Sys2Proof.Machine

theorem listRefused_iff (st : Nat) (data : List PByte) (ids : List Nat) : listRefused st data ids = true ↔
    st ≠ stOk ∨ anyPoison data = true ∨ distinct ids = false ∨ ids.all (fun v => skyOk (v * 2 ^ 32)) = false := by
  simp only [listRefused, Bool.or_eq_true, bne_iff_ne, Bool.not_eq_true', or_assoc]

theorem listRefused_eq_false {st : Nat} {data : List PByte} {ids : List Nat} (hst : st = stOk)
    (hpoison : anyPoison data = false) (hdistinct : distinct ids = true)
    (hall : ids.all (fun v => skyOk (v * 2 ^ 32)) = true) : listRefused st data ids = false := by
  rw [listRefused, hst, hpoison, hdistinct, hall]
  rfl

/-- Settles O45: each clause is the command's own lemma, which names the state it completes in. -/
theorem hostControlCommands : Obligations.HostControlCommands := by
  intro s k c list
  refine ⟨cmdNop_ends, fun op => undefinedCommand_ends, identify_ends, fun r => ringCreate_ends, fun r => ringDestroy_ends,
    fun e => eqCreate_ends, fun e => eqDestroy_ends, fun sites f => chanCreate_ends, ?_, chanCreate_gradeFault list, ?_,
    windowSet_plain_ends, ?_, ?_⟩
  · intro hc hwork hcalm hidle
    exact chanDestroy_ends hc hwork rfl hcalm fun i hi => beq_iff_eq.1 (List.all_eq_true.1 hidle i hi)
  · intro _ _ _ _ _ hc hdesc hkind hready hwanted
    exact ⟨fun hst hpoison hdistinct hall => windowSet_list_ends hc hdesc hkind rfl hready hwanted
        (listRefused_eq_false hst hpoison hdistinct hall),
      fun hbad => windowSet_list_refused hc hdesc hkind rfl hready hwanted ((listRefused_iff ..).2 hbad)⟩
  · intro xs hc hnamed hcool
    exact ⟨fun hmode hok hidle => streamStart_new_ends hc hnamed hcool hmode hok hidle,
      fun hmode hbase hlen hbreak hword => streamStart_resume_ends hc hnamed hcool hmode hbase hlen hbreak hword⟩
  · intro xs hc hwork hnamed
    exact ⟨fun hmode hrun => streamStop_pause_ends hc hwork hnamed hmode hrun,
      fun hmode hrun => streamStop_abort_ends hc hwork hnamed hmode hrun⟩

end Sys2Proof.Machine
end

section
/-!
PROOF. Statements on the sequencer and the WAIT that an unusual state of a core breaks (O12, O33).
-/
namespace Sys2Proof.Machine

/-! ## REPEAT -/

/-- A NOP that is the last of a repeat. -/
def nopLast : BitVec 128 := 0x2000

/-- REPEAT with a count of 1. -/
def repeatOnce : BitVec 128 := 0x100000005

/-- Core 0 runs. No loop is open, but its loop buffer holds a REPEAT and its closing instruction at CORE_PC, where the
instruction cache holds a poisoned line. -/
def staleLoopBuf : State :=
  ((({ State.reset with cores := [(0, { Core.reset with
      loopBuf := [(0, repeatOnce), (16, nopLast)]
      icache := [(0, ⟨[], true⟩)] })] }).setF (Reg.coreId_enabled 0) 1).setF (Reg.coreStatus_state 0) csRunning).setF
    (Reg.coreStreamLen_len 0) 16

theorem staleLoopBuf_clear : staleLoopBuf.clear 0 repeatOnce = true := by decide +kernel

theorem staleLoopBuf_lookBody : staleLoopBuf.lookBody 0 = .closes 16 := by decide +kernel

theorem staleLoopBuf_coreState :
    staleLoopBuf.reg (Reg.coreStatus_state 0).off ≠
    (staleLoopBuf.repeatBody 0 repeatOnce 1 stOk).reg (Reg.coreStatus_state 0).off := by decide +kernel

theorem exec_staleLoopBuf :
    exec (.repeatImm 0 repeatOnce) staleLoopBuf = .next (staleLoopBuf.repeatBody 0 repeatOnce 1 stOk) := by
  change execRepeatImm 0 repeatOnce staleLoopBuf = _
  unfold execRepeatImm
  rw [if_neg (by decide +kernel), if_neg (by decide +kernel)]
  rfl

/-- Refutes O12: a REPEAT empties the loop buffer as it opens its body, so that the body's first word, which the
look-ahead found in the buffer, is next fetched from the instruction cache; a poisoned line there stops the core. -/
theorem not_repeatBodies : ¬ Obligations.RepeatBodies := by
  rintro ⟨hopens, -⟩
  obtain ⟨hbody, -⟩ := hopens staleLoopBuf 0 repeatOnce 16 1 (.repeatImm 0 repeatOnce) staleLoopBuf_clear
    staleLoopBuf_lookBody (by decide) (.inl ⟨rfl, by decide, by decide, by decide⟩)
  obtain ⟨t, hexec, hran⟩ := hbody (by decide)
  rw [exec_staleLoopBuf] at hexec
  have hreg := hran.moved.regs (Reg.coreStatus_state 0).off (by decide) (List.not_mem_nil)
  rw [← Host.Outcome.next.inj hexec] at hreg
  exact staleLoopBuf_coreState hreg.symm

/-! ## Notices -/

/-- A WAIT on the first word of vault 0 for 0, armed, before its deadline. -/
def waitForZero : WaitSt :=
  { addr := 0, space := spGround, remote := false, vid := 0, off := 0, cmp := 0, value := 0, deadline := 1, seen := 0
    armed := true, highest := 0, itag := 0, nextTry := 0 }

/-- Eight clean bytes of 0. -/
def zeroFlag : List PByte := clean (List.replicate 8 0)

/-- Core 0 runs and is held at the WAIT; two notices of its flag are on the way from vault 0. -/
def twoNotices : State :=
  ({ State.reset with
      cores := [(0, { Core.reset with hold := .wait waitForZero })]
      vaults := [(0, { Vault.reset with notices := [(.core 0, 0, zeroFlag), (.core 0, 0, zeroFlag)] })] }).setF
    (Reg.coreStatus_state 0) csRunning

theorem twoNotices_waiting : twoNotices.waiting 0 = some waitForZero := by decide +kernel

theorem twoNotices_dropNotice :
    dropNotice 0 (twoNotices.vault 0).notices = some ((0, zeroFlag), [(.core 0, 0, zeroFlag)]) := rfl

theorem twoNotices_taken : ((twoNotices.noticeHere 0 0).vault 0).notices = [] := by decide +kernel

/-- Refutes O33: the first notice completes the WAIT, which withdraws the core's other notices too, so that they do not
stay on the way from the vault. -/
theorem not_coreStopsAndWakes : ¬ Obligations.CoreStopsAndWakes := by
  rintro ⟨-, hsees⟩
  obtain ⟨-, hlocal, -⟩ := hsees twoNotices 0 waitForZero twoNotices_waiting
  obtain ⟨t, hexec, -, hnotices, -⟩ := hlocal 0 zeroFlag [(.core 0, 0, zeroFlag)] rfl rfl rfl twoNotices_dropNotice rfl
  have ht : twoNotices.noticeHere 0 0 = t := Host.Outcome.next.inj hexec
  rw [← ht] at hnotices
  exact absurd (twoNotices_taken.symm.trans hnotices) (List.cons_ne_nil _ _).symm

end Sys2Proof.Machine
end

section
/-!
PROOF. Statements on MOV that a misaligned access breaks (O14, O16): a transfer whose pieces meet inside a word, and an
atomic whose window begins inside a word.
-/
namespace Sys2Proof.Machine

/-- Core 0 runs a word; every vault is filled with a pattern, and window 0 of the core's channel is the one given. -/
def windowed (pattern : BitVec 64) (w : Window) (ags : SMap Ag) (scratch : EccMem) (instr : BitVec 128) : State :=
  ((({ State.reset with
      fillBg := some pattern
      chans := [(0, { Channel.free with st := .live, cores := [0], windows := [(0, w)] })]
      cores := [(0, { Core.reset with ags := ags, scratch := scratch, icache := [(0, ⟨[instr], false⟩)] })] }).setF
    (Reg.coreId_enabled 0) 1).setF (Reg.coreStatus_state 0) csRunning).setF (Reg.coreStreamLen_len 0) 16

/-! ## LOAD -/

/-- LOAD of 16 bytes from what a1 names to what a0 names. -/
def loadSixteen : BitVec 128 := 0x10000000000000001000000100

/-- An interleaved window of two granules of 4 KiB in vault 0. -/
def twoGranules : Window := ⟨0x20002, [0xFFFFF000]⟩

/-- The destination is the scratchpad at 4, the source the window 8 bytes before its second granule; scratchpad word 1,
which the transfer covers whole, is poisoned. -/
def loadOverPoison : State :=
  windowed 0 twoGranules [(0, ⟨4, 3, 0, 0, 0⟩), (1, ⟨4088, 2, 0, 0, 0⟩)] [(1, Codeword.mark)] loadSixteen

/-- The source's pieces: they meet where the destination is inside word 1. -/
def loadPieces : List Piece := [⟨.vault 0 4088, 0, 8⟩, ⟨.vault 0 4096, 8, 8⟩]

theorem loadOverPoison_pieces :
    (loadOverPoison.resolve 0 (movOpnds (loadOverPoison.core 0) loadSixteen.toNat).2 16 false).pieces = loadPieces := by
  decide +kernel

theorem loadPieces_clean : loadOverPoison.piecesClean loadPieces := by
  intro p hp
  obtain rfl | rfl : p = ⟨.vault 0 4088, 0, 8⟩ ∨ p = ⟨.vault 0 4096, 8, 8⟩ := by simpa [loadPieces] using hp
  · exact ⟨0, 4088, rfl, by decide +kernel, by decide +kernel⟩
  · exact ⟨0, 4096, rfl, by decide +kernel, by decide +kernel⟩

/-- Byte 4 of the source. -/
theorem loadOverPoison_source : (loadOverPoison.pieceBytes (loadOverPoison.resolve 0
    (movOpnds (loadOverPoison.core 0) loadSixteen.toNat).2 16 false).pieces).getD 4 (0, true) = (0, false) := by
  decide +kernel

/-- Scratchpad word 1 keeps its poison. -/
theorem loadOverPoison_kept {t : State} (h : exec (.movLoad 0 loadSixteen) loadOverPoison = .next t) :
    t.scratchByte 0 8 = (0, true) := by
  rw [← Host.Outcome.next.inj h]
  decide +kernel

/-- Refutes O14: a LOAD writes its pieces one after the other, and where two meet inside a scratchpad word each merges
with what the word held; poison there stays, though the transfer covers the word. -/
theorem not_loadStoreCopy : ¬ Obligations.LoadStoreCopy := by
  rintro ⟨hload, -⟩
  obtain ⟨t, hexec, hholds, -⟩ := hload loadOverPoison 0 loadSixteen (.movLoad 0 loadSixteen) 16 (by decide +kernel)
    (.inl ⟨rfl, by decide, by decide, by decide⟩) rfl (by decide +kernel) (by decide +kernel) (by decide +kernel)
    (by decide +kernel) (by decide +kernel) (loadOverPoison_pieces ▸ loadPieces_clean)
  have hbyte : (0, true) = ((0, false) : PByte) :=
    (loadOverPoison_kept hexec).symm.trans ((hholds 4 (by decide +kernel)).trans loadOverPoison_source)
  exact absurd hbyte (by decide)

/-! ## ATOMIC -/

/-- ATOMIC add of 8 bytes at what a1 names, operand and result where a0 names. -/
def addWide : BitVec 128 := 0x10000000000000001000000108

/-- A plain window of 4 KiB in vault 0, from offset 4 on. -/
def fromFour : Window := ⟨0xFFFFF000000000040000000000010001, []⟩

/-- The operand is the scratchpad at 0, the target the start of the window: 8 bytes across two words of vault 0, all of
whose bytes are 1. -/
def atomicAcrossWords : State :=
  windowed 0x0101010101010101 fromFour [(0, ⟨0, 3, 0, 0, 0⟩), (1, ⟨0, 2, 0, 0, 0⟩)] [] addWide

theorem atomicAcrossWords_clean : atomicAcrossWords.piecesClean [⟨.vault 0 0, 0, 8⟩] := by
  intro p hp
  rw [List.mem_singleton.1 hp]
  exact ⟨0, 0, rfl, by decide +kernel, by decide +kernel⟩

/-- Byte 4 of the old value at the target. -/
theorem atomicAcrossWords_old : (clean (toLE 8 (leP (atomicAcrossWords.peekVault 0 4 8)))).getD 4 (0, true) = (1, false) := by
  decide +kernel

/-- Byte 4 of the result: the old value that comes back has only the bytes of the first word. -/
theorem atomicAcrossWords_result {t : State} (h : exec (.movAtomic 0 addWide) atomicAcrossWords = .next t) :
    t.scratchByte 0 4 = (0, false) := by
  rw [← Host.Outcome.next.inj h]
  decide +kernel

/-- Refutes O16: the target is aligned within its window, but the window may begin inside a word; the vault then reads
one word, and the result lacks the bytes of the next. -/
theorem not_atomicOnFlag : ¬ Obligations.AtomicOnFlag := by
  intro h
  obtain ⟨t, hexec, -, -, hresult, -⟩ := h atomicAcrossWords 0 addWide 0 4 (by decide +kernel) (by decide) (by decide)
    (by decide) (by decide +kernel) (by decide +kernel) (by decide +kernel) (by decide +kernel) (by decide +kernel)
    (by decide +kernel) (by decide +kernel) (by decide +kernel) atomicAcrossWords_clean
    ⟨by decide +kernel, by decide +kernel⟩
  have hbyte : (0, false) = ((1, false) : PByte) :=
    (atomicAcrossWords_result hexec).symm.trans ((hresult 4 (by decide)).trans atomicAcrossWords_old)
  exact absurd hbyte (by decide)

end Sys2Proof.Machine
end

section
/-!
PROOF. SYN instructions that complete as they issue (02 R72, R80, R93): NOP, FENCE and the generator instructions (O8,
O9).
-/
namespace Sys2Proof.Machine

/-- The engine and opcode that `isOp` names. -/
theorem isOp_iff (w : BitVec 128) (eng op : Nat) : isOp w eng op = true ↔ iEng w.toNat = eng ∧ iOp w.toNat = op := by
  simp [isOp]

/-- No SYN instruction needs a licence. -/
theorem State.unlicensed_syn (s : State) (op : Nat) : s.unlicensed 0 op = false := by
  simp [State.unlicensed]

/-- What the sequencer reads of a core to move past an instruction is as it was. -/
structure Core.sameFront (c d : Core) : Prop where
  frames : d.frames = c.frames
  synq : d.synq = c.synq
  steps : d.stepsLeft = c.stepsLeft
  hold : d.hold = c.hold
  waits : d.waits = c.waits
  loopBuf : d.loopBuf = c.loopBuf
  icache : d.icache = c.icache

/-- A core that differs elsewhere stays quiet. -/
theorem State.quietAt_setCore {s : State} {i : Nat} {d : Core} (h : s.quietAt i) (hd : (s.core i).sameFront d) :
    (s.setCore i d).quietAt i := by
  obtain ⟨hframes, hsynq, hsteps, hhold, hwaits, hbuf, hcache⟩ := hd
  constructor
  case frames => rw [State.setCore_core, if_pos rfl, hframes, h.frames]
  case synq => rw [State.setCore_core, if_pos rfl, hsynq, h.synq]
  case steps => rw [State.setCore_core, if_pos rfl, hsteps, h.steps]
  case hold => rw [State.setCore_core, if_pos rfl, hhold, h.hold]
  case state => exact h.state
  case waits => rw [State.setCore_core, if_pos rfl, hwaits, h.waits]
  case asker => exact h.asker
  case tables => exact h.tables
  case line =>
    have hline := h.line
    rw [State.setCore_core, if_pos rfl]
    simp only [Core.wordAt, hbuf, hcache] at hline ⊢
    exact hline

/-- A SYN instruction whose one effect is on its core outside the sequencer's front issues and the core goes on. -/
theorem State.issue_syn_core {s : State} {i : Nat} {w : BitVec 128} {op : Nat} {act : Act} {d : Core}
    (hc : Clear s i w) (hop : isOp w 0 op = true) (hd : (s.core i).sameFront d)
    (hact : act (s.ask i 0) = some ((s.setCore i d).ask i 0, Done.of stOk)) :
    s.issue i w 0 [op] act = (s.setCore i d).past i ∧ s.ran ((s.setCore i d).past i) i [] d := by
  obtain ⟨heng, hopc⟩ := (isOp_iff w 0 op).1 hop
  have hquiet := State.quietAt_setCore (s.quietAt_of_clear i w hc) hd
  have hcore : (s.setCore i d).core i = d := by rw [State.setCore_core, if_pos rfl]
  constructor
  · have h := State.issue_ok s i w 0 [op] act (s.setCore i d) none 0 0 false hc heng (by simp [hopc])
      (State.unlicensed_syn _ _) hact hquiet.asker hquiet.tables hquiet.waits hc.jobs
      (by rw [State.lastOf_syn]; exact hc.jobs) (by rw [State.lastOf_syn]; exact hc.trace)
      (by rw [State.lastOf_syn]; exact hquiet)
    rwa [State.lastOf_syn] at h
  · have hran := State.ran_past s (s.setCore i d) i [] rfl rfl (fun _ _ _ => rfl)
      (fun j hj => by rw [State.setCore_core, if_neg hj]) hquiet.steps
      (State.sameBeyondCores_setCore i d (State.sameBeyondCores_refl s))
    rwa [hcore] at hran

/-! ## NOP and FENCE -/

/-- A SYN instruction that does nothing moves the sequencer past it. -/
theorem State.issue_plain {s : State} {i : Nat} {w : BitVec 128} {op : Nat} {fields : List (Nat × Nat)}
    (hc : Clear s i w) (hop : isOp w 0 op = true) (hrsv : rsvOk w.toNat fields = true) :
    s.issue i w 0 [op] (plainAct w.toNat fields id) = s.past i := by
  obtain ⟨heng, hopc⟩ := (isOp_iff w 0 op).1 hop
  have hquiet := s.quietAt_of_clear i w hc
  have h := State.issue_ok s i w 0 [op] (plainAct w.toNat fields id) s none 0 0 false hc heng (by simp [hopc])
      (State.unlicensed_syn _ _) (by rw [plainAct, if_pos hrsv]; rfl) hquiet.asker hquiet.tables hquiet.waits hc.jobs
      (by rw [State.lastOf_syn]; exact hc.jobs) (by rw [State.lastOf_syn]; exact hc.trace)
      (by rw [State.lastOf_syn]; exact hquiet)
  rwa [State.lastOf_syn] at h

theorem nopAndFencePass : Claims.NopAndFencePass := by
  intro s i w hclear
  have hc := (State.clear_iff s i w).1 hclear
  have hran := State.ran_past_same s i w hc
  constructor
  · intro hop hrsv
    exact ⟨s.past i, congrArg next (State.issue_plain hc hop hrsv), hran⟩
  · intro hop hrsv
    refine ⟨s.past i, ?_, hran⟩
    change execFence i w s = next (s.past i)
    rw [execFence, State.engBusy_of_empty hc.synq hc.jobs, Bool.and_false]
    exact congrArg next (State.issue_plain hc hop hrsv)

theorem fenceHolds : Claims.FenceHolds := by
  intro s i w hcan hop hbits hrsv hbusy
  obtain ⟨heng, hopc⟩ := (isOp_iff w 0 2).1 hop
  refine ⟨s.holdAt i w (.fence (fenceMask w.toNat)), ?_, ?_, ?_, fun j hj => ?_, rfl⟩
  · change execFence i w s = _
    simp [execFence, hcan, heng, hopc, hbits, hrsv, hbusy, next]
  · rw [State.holdAt, State.setCore_core, if_pos rfl]
  · rw [State.holdAt, State.setCore_core, if_pos rfl]
  · rw [State.holdAt, State.setCore_core, if_neg (fun h => hj (Fin.ext h))]

/-- Settles O8: NOP and a FENCE with nothing to wait for issue as words that do nothing; a FENCE that waits is the hold
and nothing else. -/
theorem nopAndFences : Obligations.NopAndFences := by
  unfold Obligations.NopAndFences
  exact ⟨nopAndFencePass, fenceHolds⟩

/-! ## The generators -/

/-- A core with one generator replaced. -/
def Core.withAg (c : Core) (g : Nat) (a : Ag) : Core := { c with ags := SMap.put (fun _ => Ag.zero) g a c.ags }

theorem State.setAg_eq (s : State) (i g : Nat) (a : Ag) : s.setAg i g a = s.setCore i ((s.core i).withAg g a) := rfl

theorem Core.withAg_sameFront (c : Core) (g : Nat) (a : Ag) : c.sameFront (c.withAg g a) :=
  ⟨rfl, rfl, rfl, rfl, rfl, rfl, rfl⟩

theorem Core.withAg_ag (c : Core) (g : Nat) (a : Ag) (h : Nat) : (c.withAg g a).ag h = if h = g then a else c.ag h :=
  SMap.get_put _ _ _ _ _

/-- The effect of a generator instruction as the statement has it: one generator is new, and the core is otherwise as it
was. -/
def State.setsAg (s t : State) (i g : Nat) (b : Ag) : Prop :=
  (t.core i).ag g = b ∧ (∀ h, h ≠ g → (t.core i).ag h = (s.core i).ag h) ∧
    s.ran t i [] { s.core i with ags := (t.core i).ags }

/-- A SYN instruction that replaces one generator does so, and the core goes on. -/
theorem State.issue_setAg {s : State} {i : Nat} {w : BitVec 128} {op : Nat} {act : Act} {g : Nat} {a : Ag}
    (hc : Clear s i w) (hop : isOp w 0 op = true)
    (hact : act (s.ask i 0) = some (((s.ask i 0).setAg i g a), Done.of stOk)) :
    ∃ t, next (s.issue i w 0 [op] act) = .next t ∧ s.setsAg t i g a := by
  obtain ⟨hissue, hran⟩ := State.issue_syn_core hc hop (Core.withAg_sameFront (s.core i) g a) hact
  have hags : (((s.setCore i ((s.core i).withAg g a)).past i).core i).ags = ((s.core i).withAg g a).ags := by
    rw [hran.core]
  have hag (h : Nat) : (((s.setCore i ((s.core i).withAg g a)).past i).core i).ag h = ((s.core i).withAg g a).ag h :=
    congrArg (fun m => SMap.get (fun _ => Ag.zero) m h) hags
  refine ⟨_, congrArg next hissue, ?_, fun h hne => ?_, ?_⟩
  · rw [hag, Core.withAg_ag, if_pos rfl]
  · rw [hag, Core.withAg_ag, if_neg hne]
  · rw [hags]
    exact hran

/-- The upper half of an instruction word, as a value of 64 bits. -/
theorem ofNat_bits_127_64 (n : Nat) : BitVec.ofNat 64 (bits n 127 64) = BitVec.ofNat 64 (n / 2 ^ 64) := by
  apply BitVec.eq_of_toNat_eq
  simp [bits]

/-- Wrapping an integer to 64 bits is the machine word of it. -/
theorem ofNat_wrap (z : Int) : BitVec.ofNat 64 (wrap 64 z) = BitVec.ofInt 64 z := by
  apply BitVec.eq_of_toNat_eq
  rw [BitVec.toNat_ofNat, BitVec.toNat_ofInt, wrap]
  exact Nat.mod_eq_of_lt (by omega)

/-- The signed value of a 32-bit pattern. -/
theorem sext_eq_toInt (x : Nat) : sext 32 x = (BitVec.ofNat 32 x).toInt := by
  rw [sext, BitVec.toInt_eq_toNat_cond, BitVec.toNat_ofNat]
  split <;> split <;> omega

/-- Adding the signed field modulo 2^64 is adding its sign extension (02 R73). -/
theorem wrap_add_sbits (b : BitVec 64) (n : Nat) :
    BitVec.ofNat 64 (wrap 64 ((b.toNat : Int) + sbits n 95 64)) = b + (BitVec.ofNat 32 (bits n 95 64)).signExtend 64 := by
  rw [ofNat_wrap, BitVec.ofInt_add, BitVec.ofInt_natCast, BitVec.ofNat_toNat, BitVec.setWidth_eq, BitVec.signExtend,
    ← sext_eq_toInt]
  rfl

/-- The generator with the stride of one depth replaced. -/
def Ag.withStride (a : Ag) (v : BitVec 32) : Nat → Ag
  | 0 => { a with s0 := v }
  | 1 => { a with s1 := v }
  | _ => { a with s2 := v }

/-- AGSET.STRIDE of a depth below 3 replaces that depth's stride. -/
theorem exec_agsetStride {s : State} {i : Site} {w : BitVec 128} (hc : Clear s i w) (hop : isOp w 0 9 = true)
    (hrsv : rsvOk w.toNat [(35, 32), (37, 36), (95, 64)] = true) (hd : bits w.toNat 37 36 ≠ 3) :
    ∃ t, exec (.agsetStride i w) s = .next t ∧ s.setsAg t i (bits w.toNat 35 32)
      (((s.core i).ag (bits w.toNat 35 32)).withStride (BitVec.ofNat 32 (bits w.toNat 95 64)) (bits w.toNat 37 36)) := by
  refine State.issue_setAg hc hop ?_
  have hok : (!rsvOk w.toNat [(35, 32), (37, 36), (95, 64)] || bits w.toNat 37 36 == 3) = false := by
    simp [hrsv, hd]
  simp only [hok, Ag.withStride]
  rfl

/-- Settles O9: each instruction replaces its generator and nothing else. -/
theorem generatorInstructions : Obligations.GeneratorInstructions := by
  unfold Obligations.GeneratorInstructions
  intro s i w hclear n g a only
  have hc := (State.clear_iff s i w).1 hclear
  refine ⟨fun hop hrsv => ?_, fun hop hrsv => ⟨fun hd => ?_, fun hd => ?_, fun hd => ?_⟩, fun hop hrsv => ?_⟩
  · refine State.issue_setAg hc hop ?_
    rw [plainAct, if_pos hrsv, ← ofNat_bits_127_64]
    rfl
  · have h := exec_agsetStride hc hop hrsv (by simp [n] at hd; simp [hd])
    rwa [hd] at h
  · have h := exec_agsetStride hc hop hrsv (by simp [n] at hd; simp [hd])
    rwa [hd] at h
  · have h := exec_agsetStride hc hop hrsv (by simp [n] at hd; simp [hd])
    rwa [hd] at h
  · refine State.issue_setAg hc hop ?_
    rw [plainAct, if_pos hrsv, ← wrap_add_sbits]
    rfl

end Sys2Proof.Machine
end

section
/-!
PROOF. Codewords and memories of them, byte by byte: a word written clean decodes as its data (06 R234, R237), a merge
changes the bytes written and no others (06 R218), and so does a write of a range.
-/
namespace Sys2Proof.Machine

/-! ## The code -/

theorem parity64_lt (x : Nat) : parity64 x < 2 := Nat.mod_lt _ (by decide)

theorem eccLow_lt (d : Nat) : eccLow d < 128 := by
  have h := fun j => parity64_lt (Nat.land d (eccMask j))
  have h0 := h 0; have h1 := h 1; have h2 := h 2; have h3 := h 3; have h4 := h 4; have h5 := h 5; have h6 := h 6
  rw [eccLow]
  simp only [List.range, List.range.loop, List.foldl_cons, List.foldl_nil]
  omega

/-- The overall parity of seven check bits and their parity bit. -/
theorem parity64_check : ∀ c < 128, ∀ p < 2, (parity64 (c + p * 128)) % 2 = (parity64 c + p) % 2 := by decide +kernel

/-- No data word of one bit has all seven check bits set: no position is 127. -/
theorem eccLow_two_pow : ∀ k < 64, eccLow (2 ^ k) ≠ 127 := by decide +kernel

/-- The check byte of clean data: the seven check bits and, in bit 7, the parity of all the others. -/
theorem enc_check (d : BitVec 64) : (Codeword.enc d).c.toNat =
    eccLow d.toNat + (parity64 d.toNat + parity64 (eccLow d.toNat)) % 2 * 128 := by
  have h := eccLow_lt d.toNat
  rw [Codeword.enc, BitVec.toNat_ofNat]
  exact Nat.mod_eq_of_lt (by omega)

theorem xor_255_eq_zero : ∀ c < 256, Nat.xor c 0xFF = 0 → c = 255 := by decide +kernel

/-- Clean data are at least two bits away from the poison mark. -/
theorem enc_not_nearMark (d : BitVec 64) : (Codeword.enc d).nearMark = false := by
  have hd := d.isLt
  have hc := enc_check d
  have hlow := eccLow_lt d.toNat
  have hlt := (Codeword.enc d).c.isLt
  rw [Codeword.nearMark]
  have hxor : Nat.xor (Codeword.enc d).c.toNat 0xFF < 2 ^ 8 := Nat.xor_lt_two_pow hlt (by decide)
  have hzero := xor_255_eq_zero _ hlt
  have hdata : (Codeword.enc d).d = d := rfl
  rw [hdata]
  generalize hx : Nat.xor (Codeword.enc d).c.toNat 0xFF = x at hxor hzero
  have hd0 : d.toNat = 0 → x = 255 := by
    intro h0
    rw [hc, h0] at hx
    exact hx.symm
  have hpow (k : Nat) : d.toNat + x * 2 ^ 64 ≠ 2 ^ k := by
    intro h
    rcases Nat.lt_or_ge k 64 with hk | hk
    · have hlt : 2 ^ k < 2 ^ 64 := Nat.pow_lt_pow_right (by decide) hk
      have hx0 : x = 0 := by omega
      have hdk : d.toNat = 2 ^ k := by omega
      have := eccLow_two_pow k hk
      rw [← hdk] at this
      have := hzero hx0
      omega
    · obtain ⟨m, rfl⟩ := Nat.exists_eq_add_of_le hk
      rw [Nat.pow_add] at h
      have hd' : d.toNat = 0 := by
        have : d.toNat % 2 ^ 64 = 0 := by
          have := congrArg (· % 2 ^ 64) h
          simpa using this
        omega
      have hx' := hd0 hd'
      have hm : 2 ^ m = 255 := by omega
      cases m with
      | zero => simp at hm
      | succ m => rw [Nat.pow_succ] at hm; omega
  have hne : d.toNat + x * 2 ^ 64 ≠ 0 := by
    intro h
    have := hd0 (by omega)
    omega
  rw [Bool.or_eq_false_iff]
  exact ⟨beq_eq_false_iff_ne.2 hne, beq_eq_false_iff_ne.2 (hpow _)⟩

/-- Data stored clean decode as they are. -/
theorem decode_enc (d : BitVec 64) : (Codeword.enc d).decode = ⟨.clean, d, 0, 0⟩ := by
  have hlow := eccLow_lt d.toNat
  have hp : (parity64 d.toNat + parity64 (eccLow d.toNat)) % 2 < 2 := Nat.mod_lt _ (by decide)
  have hsyn : Nat.xor (bits (Codeword.enc d).c.toNat 6 0) (eccLow d.toNat) = 0 := by
    have : bits (Codeword.enc d).c.toNat 6 0 = eccLow d.toNat := by
      rw [enc_check, bits]
      omega
    rw [this]
    exact Nat.xor_self _
  have hpar : (parity64 d.toNat + parity64 (Codeword.enc d).c.toNat) % 2 = 0 := by
    have := parity64_check _ hlow _ hp
    rw [enc_check]
    omega
  have hdata : (Codeword.enc d).d = d := rfl
  rw [Codeword.decode, enc_not_nearMark, hdata, hsyn, hpar]
  rfl

@[simp] theorem decode_mark_kind : Codeword.mark.decode.kind = .poisoned := by decide +kernel

@[simp] theorem decode_zero : Codeword.zero.decode = ⟨.clean, 0, 0, 0⟩ := by decide +kernel

/-! ## The bytes of a word -/

/-- A byte of a stored word as it reads (06 R239). -/
def wordByte (w : Codeword) (k : Nat) : PByte :=
  if w.decode.kind.bad then (0, true) else (byteOf w.decode.data k, false)

theorem memory_byte_eq (d : Nat → Codeword) (m : EccMem) (a : Nat) :
    EccMem.byte d m a = wordByte (EccMem.word d m (a / 8)) (a % 8) := rfl

theorem wordByte_enc (x : BitVec 64) (k : Nat) : wordByte (Codeword.enc x) k = (byteOf x k, false) := by
  rw [wordByte, decode_enc]
  rfl

theorem byteOf_eq (x : BitVec 64) (k : Nat) : byteOf x k = BitVec.ofNat 8 (bits x.toNat (8 * k + 7) (8 * k)) := by
  apply BitVec.eq_of_toNat_eq
  have h : 8 * k + 7 + 1 - 8 * k = 8 := by omega
  simp [byteOf, bits, h]

theorem leNat_byte (bs : List Byte) (k : Nat) (h : k < bs.length) :
    leNat bs / 2 ^ (8 * k) % 2 ^ 8 = bs[k].toNat := by
  induction bs generalizing k with
  | nil => simp at h
  | cons b bs ih =>
    have hb := b.isLt
    cases k with
    | zero =>
      simp only [leNat, List.getElem_cons_zero]
      omega
    | succ k =>
      have hdiv : leNat (b :: bs) / 2 ^ (8 * (k + 1)) = leNat bs / 2 ^ (8 * k) := by
        rw [show 8 * (k + 1) = 8 + 8 * k by omega, Nat.pow_add, ← Nat.div_div_eq_div_mul, leNat]
        congr 1
        omega
      rw [hdiv, List.getElem_cons_succ]
      exact ih k (by simpa using h)

theorem leP_lt (bs : List PByte) : leP bs < 2 ^ (8 * bs.length) := by
  have := leNat_lt (bs.map Prod.fst)
  rwa [List.length_map, show 256 = 2 ^ 8 by rfl, ← Nat.pow_mul] at this

/-- The bytes of a little-endian value. -/
theorem leP_byte (bs : List PByte) (k : Nat) (h : k < bs.length) :
    bits (leP bs) (8 * k + 7) (8 * k) = bs[k].1.toNat := by
  have := leNat_byte (bs.map Prod.fst) k (by simpa using h)
  rw [bits, show 8 * k + 7 + 1 - 8 * k = 8 by omega]
  simpa [leP] using this

/-- A byte in transit that carries no poison. -/
theorem snd_of_anyPoison {bs : List PByte} (h : anyPoison bs = false) (k : Nat) (hk : k < bs.length) :
    bs[k].2 = false := by
  have := List.any_eq_false.1 h bs[k] (List.getElem_mem hk)
  simpa using this

/-- A field inside another. -/
theorem bits_bits (n hi lo g k : Nat) (hlo : lo ≤ k) (hg : g ≤ hi) (hk : k ≤ g) :
    bits (bits n hi lo) (g - lo) (k - lo) = bits n g k := by
  have hpow : 2 ^ (hi + 1 - lo) = 2 ^ (k - lo) * 2 ^ (hi + 1 - k) := by rw [← Nat.pow_add]; congr 1; omega
  have hpow' : 2 ^ k = 2 ^ lo * 2 ^ (k - lo) := by rw [← Nat.pow_add]; congr 1; omega
  have hdvd : 2 ^ (g + 1 - k) ∣ 2 ^ (hi + 1 - k) := Nat.pow_dvd_pow _ (by omega)
  simp only [bits]
  rw [show g - lo + 1 - (k - lo) = g + 1 - k by omega, hpow, Nat.mod_mul_right_div_self, Nat.mod_mod_of_dvd _ hdvd,
    hpow', Nat.div_div_eq_div_mul]

/-- The bytes of a word into which bytes are merged (06 R218): those written, and the old word's others. A whole word
needs nothing of the old one. -/
theorem wordByte_mergeWord {old : Codeword} {o : Nat} {bs : List PByte} (hn : 0 < bs.length) (hlen : o + bs.length ≤ 8)
    (hclean : anyPoison bs = false) (hold : bs.length < 8 → old.decode.kind.bad = false) (k : Nat) (hk : k < 8) :
    wordByte (mergeWord old o bs) k =
      if h : o ≤ k ∧ k < o + bs.length then bs[k - o] else wordByte old k := by
  have hbyte (j : Nat) (hj : j < bs.length) (x : BitVec 64)
      (hx : bits x.toNat (8 * k + 7) (8 * k) = bits (leP bs) (8 * j + 7) (8 * j)) : (byteOf x k, false) = bs[j] := by
    apply Prod.ext
    · rw [byteOf_eq, hx, leP_byte bs j hj]
      exact BitVec.ofNat_toNat 8 bs[j].1 |>.trans (BitVec.setWidth_eq _)
    · exact (snd_of_anyPoison hclean j hj).symm
  rw [mergeWord]
  by_cases hwhole : o = 0 ∧ bs.length = 8
  · obtain ⟨rfl, h8⟩ := hwhole
    have hle := leP_lt bs
    rw [h8] at hle
    rw [if_pos ⟨rfl, h8⟩, hclean, dif_pos (by omega)]
    simp only [Bool.false_eq_true, if_false, wordByte_enc, Nat.sub_zero]
    refine hbyte k (by omega) _ ?_
    rw [BitVec.toNat_ofNat, Nat.mod_eq_of_lt hle]
  · have hgood := hold (by omega)
    have hx := old.decode.data.isLt
    have hset := setBits_lt old.decode.data.toNat (8 * (o + bs.length) - 1) (8 * o) (leP bs) (by omega) (by omega) hx
    have hval : (BitVec.ofNat 64 (setBits old.decode.data.toNat (8 * (o + bs.length) - 1) (8 * o) (leP bs))).toNat =
        setBits old.decode.data.toNat (8 * (o + bs.length) - 1) (8 * o) (leP bs) := by
      rw [BitVec.toNat_ofNat, Nat.mod_eq_of_lt hset]
    rw [if_neg hwhole]
    simp only [hgood, hclean, Bool.or_self, Bool.false_eq_true, if_false, wordByte_enc]
    by_cases hin : o ≤ k ∧ k < o + bs.length
    · rw [dif_pos hin]
      refine hbyte (k - o) (by omega) _ ?_
      have hle := leP_lt bs
      rw [hval, ← bits_bits _ (8 * (o + bs.length) - 1) (8 * o) _ _ (by omega) (by omega) (by omega),
        bits_setBits_same _ _ _ _ (by omega), Nat.mod_eq_of_lt (by
          rwa [show 8 * (o + bs.length) - 1 + 1 - 8 * o = 8 * bs.length by omega])]
      congr 1 <;> omega
    · rw [dif_neg hin, wordByte, hgood, byteOf_eq, hval]
      simp only [Bool.false_eq_true, if_false, byteOf_eq]
      rcases Nat.lt_or_ge k o with hlt | hge
      · rw [bits_setBits_below _ _ _ _ _ _ (by omega) (by omega)]
      · rw [bits_setBits_above _ _ _ _ _ _ (by omega) (by omega)]

/-! ## The bytes of a memory -/

/-- The words that a write of a range covers in part can be read. -/
def EccMem.edgesGood (d : Nat → Codeword) (m : EccMem) (a n : Nat) : Prop :=
  (a % 8 ≠ 0 → (EccMem.word d m (a / 8)).decode.kind.bad = false) ∧
  ((a + n) % 8 ≠ 0 → (EccMem.word d m ((a + n) / 8)).decode.kind.bad = false)

theorem memory_byte_put (d : Nat → Codeword) (m : EccMem) (k : Nat) (w : Codeword) (b : Nat) :
    EccMem.byte d (SMap.put d k w m) b = if b / 8 = k then wordByte w (b % 8) else EccMem.byte d m b := by
  rw [memory_byte_eq, memory_word_put]
  split <;> rfl

theorem anyPoison_take {bs : List PByte} (h : anyPoison bs = false) (n : Nat) : anyPoison (bs.take n) = false :=
  List.any_eq_false.2 (fun x hx => List.any_eq_false.1 h x (List.mem_of_mem_take hx))

theorem anyPoison_drop {bs : List PByte} (h : anyPoison bs = false) (n : Nat) : anyPoison (bs.drop n) = false :=
  List.any_eq_false.2 (fun x hx => List.any_eq_false.1 h x (List.mem_of_mem_drop hx))

theorem memory_byte_writeWords (d : Nat → Codeword) (n : Nat) (m : EccMem) (a : Nat) (bs : List PByte)
    (hfuel : a % 8 + bs.length ≤ 8 * n) (hclean : anyPoison bs = false) (hgood : EccMem.edgesGood d m a bs.length)
    (b : Nat) : EccMem.byte d (EccMem.writeWords d n m a bs) b =
      if h : a ≤ b ∧ b < a + bs.length then bs[b - a] else EccMem.byte d m b := by
  induction n generalizing m a bs with
  | zero => rw [dif_neg (by omega)]; rfl
  | succ n ih =>
    by_cases hnil : bs = []
    · subst hnil
      rw [dif_neg (by simp)]
      rfl
    have hpos : 0 < bs.length := List.length_pos_of_ne_nil hnil
    have hstep : EccMem.writeWords d (n + 1) m a bs =
        EccMem.writeWords d n (SMap.put d (a / 8) (mergeWord (EccMem.word d m (a / 8)) (a % 8) (bs.take (8 - a % 8))) m)
          (a + (8 - a % 8)) (bs.drop (8 - a % 8)) := by
      cases bs with
      | nil => exact absurd rfl hnil
      | cons _ _ => rfl
    obtain ⟨hfirst, hlast⟩ := hgood
    have hmerge := wordByte_mergeWord (old := EccMem.word d m (a / 8)) (o := a % 8) (bs := bs.take (8 - a % 8))
      (by rw [List.length_take]; omega) (by rw [List.length_take]; omega) (anyPoison_take hclean _)
      (by
        intro hpart
        rw [List.length_take] at hpart
        by_cases ha : a % 8 = 0
        · have := hlast (by omega)
          rwa [show (a + bs.length) / 8 = a / 8 by omega] at this
        · exact hfirst ha) (b % 8) (Nat.mod_lt _ (by decide))
    rw [hstep, ih _ _ _ (by rw [List.length_drop]; omega) (anyPoison_drop hclean _) ?_, memory_byte_put, hmerge]
    · simp only [List.length_take, List.length_drop, List.getElem_take, List.getElem_drop]
      by_cases hlater : a + (8 - a % 8) ≤ b ∧ b < a + (8 - a % 8) + (bs.length - (8 - a % 8))
      · rw [dif_pos hlater, dif_pos (by omega)]
        congr 1
        omega
      rw [dif_neg hlater]
      by_cases hword : b / 8 = a / 8
      · rw [if_pos hword]
        by_cases hin : a ≤ b ∧ b < a + bs.length
        · rw [dif_pos (by omega), dif_pos hin]
          congr 1
          omega
        · rw [dif_neg (by omega), dif_neg hin, memory_byte_eq, hword]
      · rw [if_neg hword, dif_neg (by omega)]
    · refine ⟨fun h => absurd h (by omega), fun h => ?_⟩
      rw [List.length_drop] at h ⊢
      rw [memory_word_put]
      by_cases hshort : bs.length ≤ 8 - a % 8
      · omega
      · rw [if_neg (by omega), show a + (8 - a % 8) + (bs.length - (8 - a % 8)) = a + bs.length by omega]
        exact hlast (by omega)

/-- A write of clean bytes is read back, and changes no other byte. -/
theorem memory_byte_write (d : Nat → Codeword) (m : EccMem) (a : Nat) (bs : List PByte) (hclean : anyPoison bs = false)
    (hgood : EccMem.edgesGood d m a bs.length) (b : Nat) : EccMem.byte d (EccMem.write d m a bs) b =
      if h : a ≤ b ∧ b < a + bs.length then bs[b - a] else EccMem.byte d m b :=
  memory_byte_writeWords d _ m a bs (by omega) hclean hgood b

theorem edgesGood_of_aligned (d : Nat → Codeword) (m : EccMem) (a n : Nat) (ha : a % 8 = 0) (hn : n % 8 = 0) :
    EccMem.edgesGood d m a n := ⟨fun h => absurd ha h, fun h => absurd (by omega) h⟩

theorem length_clean (bs : List Byte) : (clean bs).length = bs.length := List.length_map _

theorem anyPoison_clean (bs : List Byte) : anyPoison (clean bs) = false := by
  simp [anyPoison, clean]

end Sys2Proof.Machine
end

section
/-!
PROOF. TICK, NOTIFY and END (02 R88, R93, 12 R469): an instruction that enters the SYN queue of a core with nothing
outstanding is performed as it issues (O10).
-/
namespace Sys2Proof.Machine

/-! ## An instruction that the core performs as it wakes -/

/-- The sequencer can move past an instruction to the core it leaves, whatever that core then waits for. -/
structure Core.canPass (c d : Core) : Prop where
  frames : d.frames = c.frames
  steps : d.stepsLeft = c.stepsLeft
  waits : d.waits = c.waits
  loopBuf : d.loopBuf = c.loopBuf
  icache : d.icache = c.icache

theorem Core.canPass_wordAt {c d : Core} (h : c.canPass d) (a : Nat) : d.wordAt a = c.wordAt a := by
  simp only [Core.wordAt, h.loopBuf, h.icache]

/-- SIGNAL, END, TICK and NOTIFY leave the rest of their effect to the core's waking. -/
def synLater (op : Nat) : Prop := op = 1 ∨ op = 3 ∨ op = 0xC ∨ op = 0xD

/-- One core has changed and nothing else. -/
structure State.onlyCore (s t : State) (i : Nat) (d : Core) : Prop where
  core : t.core i = d
  others : ∀ j, j ≠ i → t.core j = s.core j
  regs : ∀ a, t.reg a = s.reg a
  rest : s.sameBeyondCores t

theorem State.onlyCore_setCore (s : State) (i : Nat) (d : Core) : s.onlyCore (s.setCore i d) i d :=
  ⟨by rw [State.setCore_core, if_pos rfl], fun j hj => by rw [State.setCore_core, if_neg hj], fun _ => rfl, rfl⟩

theorem State.sameBeyondCores_trans {s t u : State} (h : s.sameBeyondCores t) (h' : t.sameBeyondCores u) :
    s.sameBeyondCores u := by
  have e : ({ u with regs := s.regs, cores := s.cores, fresh := s.fresh } : State) =
      { ({ u with regs := t.regs, cores := t.cores, fresh := t.fresh } : State) with
        regs := s.regs, cores := s.cores, fresh := s.fresh } := rfl
  rw [State.sameBeyondCores, e, State.sameBeyondCores_eq h', State.sameBeyondCores_eq h]

theorem State.onlyCore_trans {s t u : State} {i : Nat} {c d : Core} (h : s.onlyCore t i c) (h' : t.onlyCore u i d) :
    s.onlyCore u i d :=
  ⟨h'.core, fun j hj => (h'.others j hj).trans (h.others j hj), fun a => (h'.regs a).trans (h.regs a),
    State.sameBeyondCores_trans h.rest h'.rest⟩

/-- A SYN instruction whose issue leaves one core changed: the sequencer moves past it and the core goes on. -/
theorem State.issue_syn_later {s s' : State} {i : Nat} {w : BitVec 128} {op : Nat} {act : Act} {d : Core}
    (hc : Clear s i w) (hop : isOp w 0 op = true) (hlater : synLater op) (hd : (s.core i).canPass d)
    (hs' : s.onlyCore s' i d) (hact : act (s.ask i 0) = some (s'.ask i 0, Done.of stOk)) :
    s.issue i w 0 [op] act = (s'.past i).wake i := by
  obtain ⟨heng, hopc⟩ := (isOp_iff w 0 op).1 hop
  have hwaits : (s'.core i).waits = [] := by rw [hs'.core, hd.waits]; exact hc.waits
  have hjobs : s'.jobs.any (fun j => j.site == i) = false := by rw [State.sameBeyondCores_jobs hs'.rest]; exact hc.jobs
  have hpc : s'.nextPc i = s.nextPc i := by simp only [State.nextPc, State.pc, State.getF_of_reg _ (hs'.regs _)]
  have hop' : [1, 3, 0xC, 0xD].contains (iOp w.toNat) = true := by
    rw [hopc]
    rcases hlater with h | h | h | h <;> rw [h] <;> rfl
  rw [State.issue_clear s i w 0 [op] act s' _ hc heng (by simp [hopc]) (State.unlicensed_syn _ _) hact
    ((State.sameBeyondCores_asker hs'.rest).trans hc.asker)
    (by rw [State.sameBeyondCores_tables hs'.rest]; exact hc.tables)]
  simp only
  rw [State.setWaits_same _ i hwaits, State.begun_none s' i _ hjobs, State.lastOf_syn,
    State.stampJobs_none s' _ _ _ hjobs, hop']
  simp only [Bool.and_true, Bool.or_true, beq_self_eq_true, Done.of, if_true]
  rw [State.advance_quiet _ i w (by rw [hs'.core, hd.frames, hc.frames]) (by rw [hs'.core, hd.steps, hc.steps])
    (by rw [hs'.core, Core.canPass_wordAt hd, hpc]; exact hc.line)]
  rfl

/-- What the sequencer's move past such an instruction leaves. -/
theorem State.ran_past_core {s s' : State} {i : Nat} {w : BitVec 128} {d : Core} (hc : Clear s i w)
    (hd : (s.core i).canPass d) (hs' : s.onlyCore s' i d) : s.ran (s'.past i) i [] d := by
  have h := State.ran_past s s' i [] (State.getF_of_reg _ (hs'.regs _)) (State.getF_of_reg _ (hs'.regs _))
    (fun a _ _ => hs'.regs a) hs'.others (by rw [hs'.core, hd.steps, hc.steps]) hs'.rest
  rwa [hs'.core] at h

/-! ## What comes after the sequencer's move -/

theorem State.sameBeyondCores_events {s t : State} (h : s.sameBeyondCores t) : t.events = s.events :=
  (congrArg State.events (State.sameBeyondCores_eq h) :)
theorem State.sameBeyondCores_chans {s t : State} (h : s.sameBeyondCores t) : t.chans = s.chans :=
  (congrArg State.chans (State.sameBeyondCores_eq h) :)

/-- The core past an instruction, as `ran` has it. -/
def State.passedCore (s : State) (i : Nat) (c : Core) : Core :=
  { c with noBreak := false, pastEnd := decide (vaultSize ≤ s.pc i + 16) }

/-- A later change of the core alone. -/
theorem State.ran_core {s t u : State} {i : Nat} {changed : List Nat} {c d : Core} (h : s.ran t i changed c)
    (hreg : ∀ a, u.reg a = t.reg a) (hcores : ∀ j, j ≠ i → u.core j = t.core j) (hcore : u.core i = s.passedCore i d)
    (hsame : t.sameBeyondCores u) : s.ran u i changed d := by
  obtain ⟨⟨hpc, hret, hregs, hothers⟩, -, hrest⟩ := h
  refine ⟨⟨?_, ?_, fun a ha hb => ?_, fun j hj => ?_⟩, hcore, State.sameBeyondCores_trans hrest hsame⟩
  · rw [← hpc]; exact State.getF_of_reg _ (hreg _)
  · rw [← hret]; exact State.getF_of_reg _ (hreg _)
  · rw [hreg, hregs a ha hb]
  · rw [hcores j hj, hothers j hj]

/-- A later write of one register. -/
theorem State.ran_setF {s t : State} {i : Nat} {changed : List Nat} {c : Core} (h : s.ran t i changed c) (f : Fld)
    (v : Nat) (hpc : (Reg.corePc_pc i).off ≠ f.off) (hret : (Reg.coreRetired_count i).off ≠ f.off) :
    s.ran (t.setF f v) i (f.off :: changed) c := by
  obtain ⟨⟨hpc', hret', hregs, hothers⟩, hcore, hrest⟩ := h
  refine ⟨⟨?_, ?_, fun a ha hb => ?_, hothers⟩, hcore, State.sameBeyondCores_setF f v hrest⟩
  · rw [← hpc']; exact State.getF_setF_off _ _ _ _ hpc
  · rw [← hret']; exact State.getF_setF_off _ _ _ _ hret
  · rw [List.mem_cons, not_or] at hb
    rw [State.reg_setF_ne _ _ _ _ hb.1, hregs a ha hb.2]

/-- Past an instruction of a core that issues at once nothing is traced either. -/
theorem State.traceOn_of_ran {s t : State} {i : Nat} {c : Core} (h : s.ran t i [] c) : t.traceOn = s.traceOn := by
  refine State.traceOn_of_same h.rest (fun a ha => h.moved.regs a ?_ (by simp))
  have hbase := siteBase_ge i
  simp only [pcRegs, Reg.corePc_pc, Reg.coreRetired_count, List.mem_cons, List.not_mem_nil, or_false]
  omega

/-- Nor does the core's state change. -/
theorem State.coreState_of_ran {s t : State} {i : Nat} {c : Core} (h : s.ran t i [] c) :
    t.coreState i = s.coreState i :=
  State.getF_of_reg _ (h.moved.regs _ (by simp [pcRegs, Reg.coreStatus_state, Reg.corePc_pc, Reg.coreRetired_count])
    (by simp))

/-- A running core that is not held wakes with its SYN queue alone. -/
theorem State.wake_unheld {s t : State} {i : Nat} (hrun : s.runSyn i synDepth = t) (hhold : (t.core i).hold = .none)
    (hstate : t.coreState i ≠ csDraining) : s.wake i = t := by
  rw [State.wake, hrun]
  simp only [hhold, hstate, decide_false, Bool.false_and, Bool.false_eq_true, if_false]

/-- A queue of one instruction that is performed at once is run by performing it. -/
theorem State.runSyn_one {s t : State} {i : Nat} (hhead : s.synHead i = .done t ()) (hempty : (t.core i).synq = []) :
    s.runSyn i synDepth = t := by
  change (match s.synHead i with
    | .done s' _ => s'.runSyn i 3
    | .waits s' => s') = t
  rw [hhead]
  exact State.runSyn_nil hempty 3

/-- The core with one SYN instruction queued. -/
def Core.queueSyn (c : Core) (g : SynIns) : Core := { c with synq := c.synq ++ [g] }

theorem Core.canPass_queueSyn (c : Core) (g : SynIns) : c.canPass (c.queueSyn g) := ⟨rfl, rfl, rfl, rfl, rfl⟩

theorem synEnter_empty {s : State} {i itag : Nat} {k : SynKind} (h : (s.core i).synq = []) :
    synEnter i itag k s = complete (s.setCore i ((s.core i).queueSyn ⟨k, itag, s.getF (Reg.coreRetired_count i)⟩)) stOk := by
  have hroom : ¬ synDepth ≤ (s.core i).synq.length := by rw [h]; decide
  rw [synEnter]
  simp only [if_neg hroom]
  rfl

/-! ## A scratchpad write -/

theorem State.touched_core (s : State) (i a n : Nat) :
    (s.touched i a n).core i = { s.core i with touch := (s.core i).touch.map (· ++ [(a, n)]) } := by
  cases htouch : (s.core i).touch with
  | none => simp only [State.touched, htouch, Option.map_none]; rw [← htouch]
  | some xs => simp only [State.touched, htouch, Option.map_some, State.setCore_core, if_true]

theorem State.touched_other (s : State) (i a n j : Nat) (h : j ≠ i) : (s.touched i a n).core j = s.core j := by
  rw [State.touched]
  split
  · rfl
  · rw [State.setCore_core, if_neg h]

theorem State.touched_reg (s : State) (i a n b : Nat) : (s.touched i a n).reg b = s.reg b := by
  rw [State.touched]
  split <;> rfl

theorem State.sameBeyondCores_touched (s : State) (i a n : Nat) : s.sameBeyondCores (s.touched i a n) := by
  rw [State.touched]
  split <;> rfl

theorem State.writeScratch_eq (s : State) (i a : Nat) (data : List PByte) : s.writeScratch i a data =
    (s.touched i a data.length).setCore i { (s.touched i a data.length).core i with
      scratch := EccMem.write scratchZero ((s.touched i a data.length).core i).scratch a data } := rfl

theorem State.writeScratch_core (s : State) (i a : Nat) (data : List PByte) : (s.writeScratch i a data).core i =
    { s.core i with touch := (s.core i).touch.map (· ++ [(a, data.length)])
                    scratch := EccMem.write scratchZero (s.core i).scratch a data } := by
  rw [State.writeScratch_eq, State.setCore_core, if_pos rfl, State.touched_core]

theorem State.writeScratch_reg (s : State) (i a : Nat) (data : List PByte) (b : Nat) :
    (s.writeScratch i a data).reg b = s.reg b := State.touched_reg _ _ _ _ _

theorem State.sameBeyondCores_writeScratch (s : State) (i a : Nat) (data : List PByte) :
    s.sameBeyondCores (s.writeScratch i a data) :=
  State.sameBeyondCores_setCore _ _ (State.sameBeyondCores_touched _ _ _ _)

/-! ## TICK, NOTIFY and END -/

/-- A core that has queued one SYN instruction and moved past it, the instruction taken off the queue again. -/
def State.unqueued (s : State) (i : Nat) : State := s.setCore i { s.core i with synq := [] }

/-- Past an instruction in the SYN queue alone: the core as it wakes. -/
structure State.queuedPast (s t : State) (i : Nat) (d : Core) (g : SynIns) : Prop where
  ran : s.ran t i [] { d with synq := [g] }
  trace : t.traceOn = false
  hold : d.hold = .none
  state : t.coreState i = csRunning
  jobs : t.jobs.any (fun j => j.site == i) = false

/-- A SYN instruction that enters the empty queue of a core that issues at once is at its head as the core wakes. -/
theorem State.issue_synEnter {s s' : State} {i : Nat} {w : BitVec 128} {op : Nat} {act : Act} {d : Core} {g : SynIns}
    (hc : Clear s i w) (hop : isOp w 0 op = true) (hlater : synLater op) (hd : (s.core i).sameFront d)
    (hs' : s.onlyCore s' i { d with synq := [g] }) (hact : act (s.ask i 0) = some (s'.ask i 0, Done.of stOk)) :
    ∃ t, next (s.issue i w 0 [op] act) = .next (t.wake i) ∧ s.queuedPast t i d g := by
  have hpass : (s.core i).canPass { d with synq := [g] } := ⟨hd.frames, hd.steps, hd.waits, hd.loopBuf, hd.icache⟩
  have hran := State.ran_past_core hc hpass hs'
  refine ⟨_, congrArg next (State.issue_syn_later hc hop hlater hpass hs' hact), hran, ?_, ?_, ?_, ?_⟩
  · rw [State.traceOn_of_ran hran, hc.trace]
  · rw [hd.hold]; exact (s.canIssue_state i w hc.can).2
  · rw [State.coreState_of_ran hran]; exact (s.canIssue_state i w hc.can).1
  · rw [State.sameBeyondCores_jobs hran.rest]; exact hc.jobs

section
variable {s t : State} {i : Nat} {d : Core} {g : SynIns} (h : s.queuedPast t i d g)
include h

theorem State.queuedPast_core : t.core i = s.passedCore i { d with synq := [g] } := h.ran.core

theorem State.queuedPast_synq : (t.core i).synq = [g] := by
  rw [State.queuedPast_core h]
  rfl

/-- Taking the instruction off the queue again. -/
theorem State.unqueued_core : (t.unqueued i).core i = s.passedCore i { d with synq := [] } := by
  rw [State.unqueued, State.setCore_core, if_pos rfl, State.queuedPast_core h]
  rfl

theorem State.ran_unqueued : s.ran (t.unqueued i) i [] { d with synq := [] } :=
  State.ran_core h.ran (fun _ => rfl) (fun j hj => by rw [State.unqueued, State.setCore_core, if_neg hj])
    (State.unqueued_core h) rfl

end

/-- A TICK at the head of the queue writes the time tick (02 R93). -/
theorem State.wake_tick {s t : State} {i a : Nat} {d : Core} {g : SynIns} (h : s.queuedPast t i d g)
    (hkind : g.kind = .tick a) :
    t.wake i = (t.unqueued i).writeScratch i a (clean (toLE 8 t.now)) := by
  have hcore := State.writeScratch_core (t.unqueued i) i a (clean (toLE 8 t.now))
  have htrace : ((t.unqueued i).writeScratch i a (clean (toLE 8 t.now))).traceOn = false := by
    rw [State.traceOn_of_same (State.sameBeyondCores_writeScratch _ _ _ _) (fun b _ => State.writeScratch_reg _ _ _ _ b)]
    exact h.trace
  refine State.wake_unheld (State.runSyn_one ?_ ?_) ?_ ?_
  · rw [State.synHead, State.queuedPast_synq h]
    simp only [hkind]
    rw [← State.traced_off _ i 0 0xC g.itag stOk g.issued none htrace]
    rfl
  · rw [hcore, State.unqueued_core h]
    rfl
  · rw [hcore, State.unqueued_core h]
    exact h.hold
  · have hstate : ((t.unqueued i).writeScratch i a (clean (toLE 8 t.now))).coreState i = csRunning :=
      (State.getF_of_reg _ (State.writeScratch_reg _ _ _ _ _)).trans h.state
    rw [hstate]
    decide

/-- The events that an event of a core adds to those waiting: one, if the core has a channel. -/
def State.eventOf (s : State) (i kind itag value : Nat) : List Event :=
  match chanOfSite s.chans i with
  | some k => [{ eq := (s.chan k).eq, kind := kind, site := i, handle := s.handle k, status := stOk, engine := 0
                 itag := itag, value := value, addr := 0 }]
  | none => []

theorem State.coreEvent_eq (s : State) (i kind itag value : Nat) : s.coreEvent i kind stOk 0 itag value 0 =
    { s with events := s.events ++ s.eventOf i kind itag value } := by
  rw [State.coreEvent, State.eventOf]
  cases hchan : chanOfSite s.chans i with
  | none => simp only [List.append_nil]
  | some k => rfl

theorem State.eventOf_of_chans {s t : State} (h : t.chans = s.chans) (i kind itag value : Nat) :
    t.eventOf i kind itag value = s.eventOf i kind itag value := by
  simp only [State.eventOf, State.handle, State.chan, h]

theorem State.coreEvent_traceOn (s : State) (i kind itag value : Nat) :
    (s.coreEvent i kind stOk 0 itag value 0).traceOn = s.traceOn := by
  rw [State.coreEvent_eq]
  rfl

/-- A NOTIFY at the head of the queue raises its event (02 R93, 12 R469). -/
theorem State.wake_notify {s t : State} {i v : Nat} {d : Core} {g : SynIns} (h : s.queuedPast t i d g)
    (hkind : g.kind = .notify v) : t.wake i = (t.unqueued i).coreEvent i 2 stOk 0 g.itag v 0 := by
  have htrace : ((t.unqueued i).coreEvent i 2 stOk 0 g.itag v 0).traceOn = false :=
    (State.coreEvent_traceOn _ _ _ _ _).trans h.trace
  have hcore : ((t.unqueued i).coreEvent i 2 stOk 0 g.itag v 0).core i = (t.unqueued i).core i := by
    rw [State.coreEvent_eq]
    rfl
  have hstate : ((t.unqueued i).coreEvent i 2 stOk 0 g.itag v 0).coreState i = csRunning := by
    rw [State.coreEvent_eq]
    exact h.state
  refine State.wake_unheld (State.runSyn_one ?_ ?_) ?_ ?_
  · rw [State.synHead, State.queuedPast_synq h]
    simp only [hkind]
    rw [← State.traced_off _ i 0 0xD g.itag stOk g.issued none htrace]
    rfl
  · rw [hcore, State.unqueued_core h]
    rfl
  · rw [hcore, State.unqueued_core h]
    exact h.hold
  · rw [hstate]
    decide

theorem State.touched_ask (s : State) (i k a n : Nat) : (s.ask i k).touched i a n = (s.touched i a n).ask i k := by
  rw [State.touched, State.touched]
  have hcore : (s.ask i k).core i = s.core i := rfl
  rw [hcore]
  split <;> rfl

/-- A TICK to an aligned place of the scratchpad is at the head of its core's queue as the core wakes. -/
theorem exec_tick {s : State} {i : Site} {w : BitVec 128} (hc : Clear s i w) (hop : isOp w 0 0xC = true)
    (hrsv : rsvOk w.toNat [(35, 32), (59, 36)] = true) {o : Opnd}
    (ho : (s.core i).opnd (bits w.toNat 35 32) (sbits w.toNat 59 36) = o) (hin : o.inScratch 8 = true)
    (hal : o.ea % 8 = 0) : ∃ t, exec (.tick i w) s = .next (t.wake i) ∧
      s.queuedPast t i ((s.touched i o.ea 8).core i) ⟨.tick o.ea, iTag w.toNat, s.getF (Reg.coreRetired_count i)⟩ := by
  have htouch := State.touched_core (s.ask i 0) i o.ea 8
  have hempty : (((s.ask i 0).touched i o.ea 8).core i).synq = [] := by rw [htouch]; exact hc.synq
  have honly : s.onlyCore (s.touched i o.ea 8) i ((s.touched i o.ea 8).core i) :=
    ⟨rfl, s.touched_other i _ _, s.touched_reg i _ _, s.sameBeyondCores_touched i _ _⟩
  refine State.issue_synEnter hc hop (by simp [synLater])
    (by rw [State.touched_core]; exact ⟨rfl, rfl, rfl, rfl, rfl, rfl, rfl⟩)
    (State.onlyCore_trans honly (State.onlyCore_setCore _ i _)) ?_
  have hok : (!rsvOk w.toNat [(35, 32), (59, 36)] || !o.inScratch 8 || o.ea % 8 != 0) = false := by
    simp [hrsv, hin, hal]
  have ho' : ((s.ask i 0).core i).opnd (bits w.toNat 35 32) (sbits w.toNat 59 36) = o := ho
  simp only [ho', hok, Bool.false_eq_true, if_false]
  have hret : ((s.touched i o.ea 8).ask i 0).getF (Reg.coreRetired_count i) = s.getF (Reg.coreRetired_count i) :=
    State.getF_of_reg _ (State.touched_reg _ _ _ _ _)
  rw [synEnter_empty hempty, Core.queueSyn, hempty, State.touched_ask, hret]
  rfl

/-- A NOTIFY is at the head of its core's queue as the core wakes. -/
theorem exec_notify {s : State} {i : Site} {w : BitVec 128} (hc : Clear s i w) (hop : isOp w 0 0xD = true)
    (hrsv : rsvOk w.toNat [(63, 32)] = true) : ∃ t, exec (.notify i w) s = .next (t.wake i) ∧
      s.queuedPast t i (s.core i) ⟨.notify (bits w.toNat 63 32), iTag w.toNat, s.getF (Reg.coreRetired_count i)⟩ := by
  refine State.issue_synEnter hc hop (by simp [synLater]) ⟨rfl, rfl, rfl, rfl, rfl, rfl, rfl⟩
    (State.onlyCore_setCore s i _) ?_
  have hempty : ((s.ask i 0).core i).synq = [] := hc.synq
  simp only [hrsv, Bool.not_true, Bool.false_eq_true, if_false]
  rw [synEnter_empty hempty, Core.queueSyn, hempty]
  rfl

/-- The core a SYN instruction has left again. -/
theorem State.unqueued_empty {c : Core} (h : c.synq = []) : { c with synq := [] } = c := by
  rw [← h]

/-- Events waiting for their rings are no part of a core's state. -/
theorem State.coreState_events (u : State) (e : List Event) (i : Nat) :
    ({ u with events := e } : State).coreState i = u.coreState i := rfl

/-- What an instruction leaves apart from the events it raises. -/
theorem State.ran_events {s u : State} {i : Nat} {changed : List Nat} {c : Core} (h : s.ran u i changed c)
    (hevents : u.events = s.events) (e : List Event) :
    s.ran { ({ u with events := e } : State) with events := s.events } i changed c := by
  have hback : ({ ({ u with events := e } : State) with events := s.events } : State) = u := by rw [← hevents]
  rw [hback]
  exact h

theorem tickAndNotify : Claims.TickAndNotify := by
  intro s i w hclear
  have hc := (State.clear_iff s i w).1 hclear
  refine ⟨fun hop hrsv => ?_, fun hop hrsv k hk => ?_⟩
  · intro o hin hal
    obtain ⟨t, hexec, hpast⟩ := exec_tick hc hop hrsv (o := o) rfl hin hal
    rw [State.wake_tick hpast rfl, State.sameBeyondCores_now hpast.ran.rest] at hexec
    have hcore := State.writeScratch_core (t.unqueued i) i o.ea (clean (toLE 8 s.now))
    have hbyte (b : Nat) : ((t.unqueued i).writeScratch i o.ea (clean (toLE 8 s.now))).scratchByte i b =
        if h : o.ea ≤ b ∧ b < o.ea + (clean (toLE 8 s.now)).length then (clean (toLE 8 s.now))[b - o.ea]
        else s.scratchByte i b := by
      rw [State.scratchByte, hcore, State.unqueued_core hpast, State.scratchByte]
      simp only [State.passedCore, State.touched_core]
      exact memory_byte_write _ _ _ _ (anyPoison_clean _)
        (edgesGood_of_aligned _ _ _ _ hal (by rw [length_clean, length_toLE])) b
    refine ⟨_, hexec, fun k hk => ?_, fun b hb => ?_, ?_⟩
    · rw [hbyte, dif_pos ⟨by omega, by omega⟩]
      congr 1
      omega
    · rw [hbyte, dif_neg (by rw [length_clean, length_toLE]; omega)]
    · refine State.ran_core (State.ran_unqueued hpast) (State.writeScratch_reg _ _ _ _)
        (fun j hj => State.writeScratch_core_ne _ _ _ _ _ hj) ?_ (State.sameBeyondCores_writeScratch _ _ _ _)
      rw [hcore, State.unqueued_core hpast, State.touched_core, ← hc.synq]
      rfl
  · obtain ⟨t, hexec, hpast⟩ := exec_notify hc hop hrsv
    rw [State.wake_notify hpast rfl, State.coreEvent_eq] at hexec
    have hran := State.ran_unqueued hpast
    rw [State.unqueued_empty hc.synq] at hran
    refine ⟨_, hexec, ?_, ?_⟩
    · have hevents : t.events = s.events := State.sameBeyondCores_events hpast.ran.rest
      have hchans : t.chans = s.chans := State.sameBeyondCores_chans hpast.ran.rest
      change t.events ++ State.eventOf (t.unqueued i) i 2 (iTag w.toNat) (bits w.toNat 63 32) = _
      have hof : State.eventOf (t.unqueued i) i 2 (iTag w.toNat) (bits w.toNat 63 32) =
        State.eventOf s i 2 (iTag w.toNat) (bits w.toNat 63 32) := State.eventOf_of_chans hchans _ _ _ _
      rw [hevents, hof, State.eventOf, hk]
    · exact State.ran_events hran (State.sameBeyondCores_events hpast.ran.rest) _

/-- The state in which a stream has ended, but for its event. -/
def State.ended (t : State) (i : Nat) : State :=
  (t.setCore i { t.core i with hold := .none }).setF (Reg.coreStatus_state i) csIdle

/-- An END that holds its core ends the stream as the core wakes with nothing outstanding (02 R88). -/
theorem State.wake_end {s t : State} {i : Nat} {d : Core} (h : s.ran t i [] d) (hhold : d.hold = .end_)
    (hsynq : d.synq = []) (htrace : t.traceOn = false) (hjobs : t.jobs.any (fun j => j.site == i) = false) :
    t.wake i = (t.ended i).coreEvent i 1 stOk 0 0 0 0 := by
  have hold : (t.core i).hold = .end_ := by rw [h.core]; exact hhold
  have synq : (t.core i).synq = [] := by rw [h.core]; exact hsynq
  rw [State.wake, State.runSyn_nil synq]
  simp only [hold, State.engBusy_of_empty synq hjobs, Bool.not_false, if_true]
  rw [State.traced_off _ _ _ _ _ _ _ _ htrace]
  rfl

/-- The core that an END holds. -/
def Core.ending (c : Core) (w : BitVec 128) : Core := { c with hold := .end_, cur := w }

theorem Core.canPass_ending (c : Core) (w : BitVec 128) : c.canPass (c.ending w) := ⟨rfl, rfl, rfl, rfl, rfl⟩

/-- An END with nothing outstanding and no loop open holds its core as the core wakes. -/
theorem exec_endStream {s : State} {i : Site} {w : BitVec 128} (hc : Clear s i w) (hop : isOp w 0 1 = true)
    (hrsv : rsvOk w.toNat [] = true) : exec (.endStream i w) s =
      .next (((s.setCore i ((s.core i).ending w)).past i).wake i) := by
  refine congrArg next (State.issue_syn_later hc hop (by simp [synLater]) (Core.canPass_ending _ w)
    (State.onlyCore_setCore s i ((s.core i).ending w)) ?_)
  have hframes : ((s.ask i 0).core i).frames.isEmpty = true := by
    have hnone : ((s.ask i 0).core i).frames = [] := hc.frames
    rw [hnone]
    rfl
  have hroom : ¬ synDepth ≤ ((s.ask i 0).core i).synq.length := by
    have hsynq : ((s.ask i 0).core i).synq = [] := hc.synq
    rw [hsynq]
    decide
  simp only [hrsv, hframes, if_neg hroom, Bool.not_true, Bool.or_self, Bool.false_eq_true, if_false]
  rfl

theorem State.ended_coreState (t : State) (i : Nat) : (t.ended i).coreState i = csIdle := by
  have h := State.getF_setF_same (t.setCore i { t.core i with hold := .none }) (Reg.coreStatus_state i) csIdle
    (by simp [Reg.coreStatus_state]) (by simp [Reg.coreStatus_state])
  rw [State.coreState, State.ended, h]
  simp [Reg.coreStatus_state, csIdle]

theorem State.ran_ended {s t : State} {i : Nat} {d c : Core} (h : s.ran t i [] d)
    (hc : { d with hold := .none } = c) : s.ran (t.ended i) i [(Reg.coreStatus_state i).off] c := by
  have hcore : s.ran (t.setCore i { t.core i with hold := .none }) i [] c := by
    refine State.ran_core h (fun _ => rfl) (fun j hj => by rw [State.setCore_core, if_neg hj]) ?_ rfl
    rw [State.setCore_core, if_pos rfl, h.core, ← hc]
    rfl
  exact State.ran_setF hcore (Reg.coreStatus_state i) csIdle (by simp [Reg.coreStatus_state, Reg.corePc_pc])
    (by simp [Reg.coreStatus_state, Reg.coreRetired_count])

theorem endOfStream : Claims.EndOfStream := by
  intro s i w hclear hop hrsv
  have hc := (State.clear_iff s i w).1 hclear
  have hran := State.ran_past_core hc (Core.canPass_ending _ w) (State.onlyCore_setCore s i ((s.core i).ending w))
  have hexec := exec_endStream hc hop hrsv
  rw [State.wake_end hran rfl hc.synq ((State.traceOn_of_ran hran).trans hc.trace)
    (by rw [State.sameBeyondCores_jobs hran.rest]; exact hc.jobs)] at hexec
  generalize (s.setCore i ((s.core i).ending w)).past i = t at hexec hran
  have hended : s.ran (t.ended i) i [(Reg.coreStatus_state i).off] { s.core i with cur := w } := by
    refine State.ran_ended hran ?_
    rw [← (s.canIssue_state i w hc.can).2]
    rfl
  have hevents : (t.ended i).events = s.events := State.sameBeyondCores_events hended.rest
  rw [State.coreEvent_eq, State.eventOf_of_chans (State.sameBeyondCores_chans hended.rest), hevents] at hexec
  refine ⟨_, hexec, ?_, rfl, State.ran_events hended hevents _⟩
  rw [State.coreState_events]
  exact State.ended_coreState t i

/-- Settles O10: TICK and NOTIFY are performed from the SYN queue as the core wakes, and an END with nothing outstanding
ends the stream there. -/
theorem tickNotifyAndEnd : Obligations.TickNotifyAndEnd := by
  unfold Obligations.TickNotifyAndEnd
  exact ⟨tickAndNotify, endOfStream⟩

end Sys2Proof.Machine
end

section
/-!
PROOF. What State.reset holds (14 R513, R530): a register of a core reads as the register map's reset value (O3).
-/
namespace Sys2Proof.Machine

/-- An offset in the CORE block of a site, as the register map finds it. -/
theorem barLocate_core {i l : Nat} (hi : i < 2304) (hl : l < 0x0800) :
    barLocate (siteBase i + l) = some (.core, i, l) := by
  have hbase : siteBase i + l = 0x01000000 + i / 576 * 0x01000000 + i % 576 * 0x4000 + l := rfl
  generalize siteBase i + l = a at hbase
  have hmod : a % 0x01000000 = i % 576 * 0x4000 + l := by omega
  have htower : (a - 0x01000000) / 0x01000000 = i / 576 := by omega
  have hsite : i / 576 * 576 + a % 0x01000000 / 0x4000 = i := by omega
  have hoff : a % 0x01000000 % 0x4000 = l := by omega
  have hge : 0x01000000 ≤ a := by omega
  have hlt : a < 0x05000000 := by omega
  have hwin : a % 0x01000000 < 0x00900000 := by omega
  simp only [barLocate]
  iterate 14 rw [if_neg (by omega)]
  rw [if_pos hlt, if_pos hwin, hoff, if_pos hl, htower, hsite]

/-- The reset value of the register that a map holds at an offset. -/
def mapReset (ds : List RegDesc) (l : Nat) : BitVec 64 :=
  match findReg ds l with
  | some (d, _, _) => BitVec.ofNat 64 (FieldDesc.resetBits d.fields)
  | none => 0

/-- A register of a core but CORE_ID resets to what its map says. -/
theorem regReset_core {i l : Nat} (hi : i < 2304) (hl : l < 0x0800) (h0 : 0 < l) :
    regReset (siteBase i + l) = mapReset coreRegs l := by
  have hat : regAt (siteBase i + l) = findReg coreRegs l := by
    rw [regAt, barLocate_core hi hl]
    rfl
  have hbase : siteBase i + l = 0x01000000 + i / 576 * 0x01000000 + i % 576 * 0x4000 + l := rfl
  rw [regReset, hat]
  generalize siteBase i + l = a at hbase
  rw [if_neg (by omega), if_neg (by omega), if_neg (by omega)]
  rfl

/-- A register of a core after reset. -/
theorem State.reset_reg {i l : Nat} (hi : i < 2304) (hl : l < 0x0800) (h0 : 0 < l) :
    State.reset.reg (siteBase i + l) = mapReset coreRegs l := regReset_core hi hl h0

theorem State.reset_core {i : Nat} (h : i < 2304) : State.reset.coreState i = csIdle ∧ State.reset.pc i = 0 ∧
    State.reset.getF (Reg.coreRetired_count i) = 0 ∧ State.reset.streamBase i = 0 ∧ State.reset.streamLen i = 0 := by
  simp only [State.coreState, State.pc, State.streamBase, State.streamLen, State.getF, Reg.coreStatus_state,
    Reg.corePc_pc, Reg.coreRetired_count, Reg.coreStreamBase_base, Reg.coreStreamLen_len,
    State.reset_reg (l := 0x10) h (by decide) (by decide), State.reset_reg (l := 0x20) h (by decide) (by decide),
    State.reset_reg (l := 0x28) h (by decide) (by decide), State.reset_reg (l := 0x18) h (by decide) (by decide),
    State.reset_reg (l := 0x1C) h (by decide) (by decide)]
  decide +kernel

/-- Every byte of a scratchpad of zero words reads as 0. -/
theorem memory_byte_zero (a : Nat) : EccMem.byte scratchZero [] a = (0, false) := by
  have hword : EccMem.word scratchZero [] (a / 8) = Codeword.zero := rfl
  rw [EccMem.byte, hword, show Codeword.zero.decode = ⟨.clean, 0, 0, 0⟩ by decide +kernel]
  simp [WordKind.bad, byteOf]

theorem State.reset_mask {k : Nat} (h : 1 ≤ k) (i : Nat) : (State.reset.core i).tle.mask k = ⟨0, false⟩ := by
  rw [Tle.mask, if_neg (by omega)]
  rfl

theorem resetLeaves : Claims.ResetLeaves := by
  refine ⟨by decide +kernel, rfl, rfl, fun i hi => State.reset_core hi, fun i a => memory_byte_zero a,
    fun i k hk => State.reset_mask hk i, fun k => rfl⟩

/-- Settles O3: the fields of State.reset are the spec's, its registers the map's reset values. -/
theorem resetState : Obligations.ResetState := by
  unfold Obligations.ResetState
  exact ⟨resetLeaves, by decide +kernel, rfl, Nat.zero_le _, by decide, by decide⟩

end Sys2Proof.Machine
end

section
/-!
PROOF. The bytes of a vault as requests read them (06 R210, R211, R217, R237): a vault offset names one physical byte, and
a read returns the bytes of its range one by one.
-/
namespace Sys2Proof.Machine

/-! ## Physical addresses (06 R210, R211) -/

section
variable {base a : Nat} (hbase : base % 2 ^ 24 = 0)
include hbase

/-- A physical address by its layer and bank, its row and its column. -/
theorem physAddr_eq : physAddr base a =
    if a < base then (a / 1024 % 128 * 4096 + a / 131072 % 4096) * 1024 + a % 1024
    else ((a - base) / 131072 % 128 * 4096 + (base / 131072 + (a - base) / 131072 / 128 * 128 + a / 1024 % 128)) * 1024 +
      a % 1024 := by
  rw [physAddr]
  split
  · simp only [bits]
    omega
  · simp only [bits]
    omega

/-- Within a KiB physical addresses run on. -/
theorem physAddr_add (k : Nat) (hk : a % 1024 + k < 1024) : physAddr base (a + k) = physAddr base a + k := by
  rw [physAddr_eq hbase, physAddr_eq hbase]
  by_cases h : a < base
  · rw [if_pos h, if_pos (by omega)]
    omega
  · rw [if_neg h, if_neg (by omega)]
    omega

theorem physAddr_mod : physAddr base a % 1024 = a % 1024 := by
  rw [physAddr_eq hbase]
  split <;> omega

/-- Every offset of a vault is found again from its physical address. -/
theorem offsetOf_physAddr (ha : a < vaultSize) : offsetOf base (physAddr base a) = a := by
  rw [vaultSize] at ha
  rw [physAddr_eq hbase]
  by_cases h : a < base
  · rw [if_pos h]
    have hcol : ((a / 1024 % 128 * 4096 + a / 131072 % 4096) * 1024 + a % 1024) % 1024 = a % 1024 := by omega
    have hrow : ((a / 1024 % 128 * 4096 + a / 131072 % 4096) * 1024 + a % 1024) / 1024 % 4096 = a / 131072 := by omega
    have hq : ((a / 1024 % 128 * 4096 + a / 131072 % 4096) * 1024 + a % 1024) / 2 ^ 22 = a / 1024 % 128 := by omega
    simp only [offsetOf, hcol, hrow, hq]
    rw [if_pos (by omega)]
    omega
  · rw [if_neg h]
    generalize hp : ((a - base) / 131072 % 128 * 4096 + (base / 131072 + (a - base) / 131072 / 128 * 128 +
      a / 1024 % 128)) * 1024 + a % 1024 = p
    have hcol : p % 1024 = a % 1024 := by omega
    have hrow : p / 1024 % 4096 = base / 131072 + (a - base) / 131072 / 128 * 128 + a / 1024 % 128 := by omega
    have hq : p / 2 ^ 22 = (a - base) / 131072 % 128 := by omega
    simp only [offsetOf, hcol, hrow, hq]
    rw [if_neg (by omega)]
    omega

end

/-- Distinct offsets of a vault are distinct physical addresses. -/
theorem physAddr_inj {base a b : Nat} (hbase : base % 2 ^ 24 = 0) (ha : a < vaultSize) (hb : b < vaultSize)
    (h : physAddr base a = physAddr base b) : a = b := by
  rw [← offsetOf_physAddr hbase ha, h, offsetOf_physAddr hbase hb]

theorem State.frameBase_mod (s : State) (v : Nat) : s.frameBase v % 2 ^ 24 = 0 := Nat.mul_mod_left _ _

/-! ## Bytes by place -/

/-- A stored word of a vault as reads see it: the write buffer over the banks (06 R217). -/
def Vault.wordSeen (v : Nat) (x : Vault) (k : Nat) : Codeword := EccMem.word (wordDefault v x) (x.seen v) k

/-- A physical byte of a vault as reads see it. -/
def Vault.byteSeen (v : Nat) (x : Vault) (p : Nat) : PByte := wordByte (x.wordSeen v (p / 8)) (p % 8)

/-- Is the byte at an offset gone: the vault or its row retired (06 R247)? -/
def State.byteGone (s : State) (v a : Nat) : Bool :=
  s.vaultState v == vsRetired || (s.vault v).retired.contains (rowOf (physAddr (s.frameBase v) a))

/-- The byte at an offset as reads see it. -/
def State.byteRead (s : State) (v a : Nat) : PByte :=
  if s.byteGone v a then (0, true) else (s.vault v).byteSeen v (physAddr (s.frameBase v) a)

theorem getElem?_slice {α : Type} (bs : List α) (o n k : Nat) : (slice bs o n)[k]? = if k < n then bs[o + k]? else none := by
  rw [slice, List.getElem?_take]
  split
  · rw [List.getElem?_drop]
  · rfl

/-- An entry of lists of eight put end to end. -/
theorem getElem?_flatMap_eight {α β : Type} (f : α → List β) (l : List α) (hf : ∀ x, (f x).length = 8) (j : Nat) :
    (l.flatMap f)[j]? = (l[j / 8]?).bind (fun x => (f x)[j % 8]?) := by
  induction l generalizing j with
  | nil => simp
  | cons x l ih =>
    rw [List.flatMap_cons]
    rcases Nat.lt_or_ge j 8 with h | h
    · rw [List.getElem?_append_left (by rw [hf]; exact h), Nat.div_eq_of_lt h, Nat.mod_eq_of_lt h]
      rfl
    · obtain ⟨m, rfl⟩ := Nat.exists_eq_add_of_le h
      rw [List.getElem?_append_right (by rw [hf]; omega), hf, Nat.add_sub_cancel_left, ih,
        show (8 + m) / 8 = m / 8 + 1 by omega, show (8 + m) % 8 = m % 8 by omega, List.getElem?_cons_succ]

theorem WordRead.length_bytes (w : WordRead) : w.bytes.length = 8 := by
  rw [WordRead.bytes]
  split <;> simp

/-- A byte of a word read. -/
theorem WordRead.getElem?_bytes (w : WordRead) {k : Nat} (hk : k < 8) : w.bytes[k]? =
    some (if w.gone || w.dec.kind.bad then (0, true) else (byteOf w.dec.data k, false)) := by
  rw [WordRead.bytes]
  split
  · rw [List.getElem?_replicate, if_pos hk]
  · rw [List.getElem?_map, List.getElem?_range hk]
    rfl

/-- A byte of a word that may be gone. -/
theorem goneByte_eq (gone : Bool) (w : Codeword) (k : Nat) :
    (if gone || w.decode.kind.bad then ((0 : Byte), true) else (byteOf w.decode.data k, false)) =
      if gone then (0, true) else wordByte w k := by
  rw [wordByte]
  cases gone
  · rw [Bool.false_or, if_neg Bool.false_ne_true]
  · rw [Bool.true_or, if_pos rfl, if_pos rfl]

/-- The i-th word of a range. -/
theorem State.getElem?_wordsOf (s : State) (v off n i : Nat) (hn : n ≠ 0) (hi : i < (off + n - 1) / 8 - off / 8 + 1) :
    (s.wordsOf v off n)[i]? = some ⟨(off / 8 + i) * 8, physAddr (s.frameBase v) ((off / 8 + i) * 8),
      ((s.vault v).wordSeen v (physAddr (s.frameBase v) ((off / 8 + i) * 8) / 8)).decode,
      (s.vault v).retired.contains (rowOf (physAddr (s.frameBase v) ((off / 8 + i) * 8)))⟩ := by
  rw [State.wordsOf]
  simp only [if_neg hn, List.getElem?_map, List.getElem?_range hi]
  rfl

/-- A read returns the bytes of its range. -/
theorem State.peekVault_eq_byteRead (s : State) (v off n : Nat) :
    s.peekVault v off n = (List.range n).map (fun k => s.byteRead v (off + k)) := by
  apply List.ext_getElem?
  intro k
  rw [State.peekVault, List.getElem?_map]
  by_cases hret : s.vaultState v = vsRetired
  · rw [if_pos hret, List.getElem?_replicate]
    split
    · rename_i hk
      simp [List.getElem?_range hk, State.byteRead, State.byteGone, hret]
    · rename_i hk
      rw [List.getElem?_eq_none (by simpa using hk)]
      rfl
  rw [if_neg hret, getElem?_slice]
  split
  · rename_i hk
    rw [getElem?_flatMap_eight _ _ WordRead.length_bytes, s.getElem?_wordsOf v off n _ (by omega) (by omega),
      List.getElem?_range hk, Option.bind_some, WordRead.getElem?_bytes _ (Nat.mod_lt _ (by decide)), Option.map_some]
    have hbase := s.frameBase_mod v
    have hat : off + k = (off / 8 + (off % 8 + k) / 8) * 8 + (off % 8 + k) % 8 := by omega
    have hphys : physAddr (s.frameBase v) (off + k) =
        physAddr (s.frameBase v) ((off / 8 + (off % 8 + k) / 8) * 8) + (off % 8 + k) % 8 := by
      rw [hat, physAddr_add hbase _ (by omega)]
    have hmod := physAddr_mod (a := (off / 8 + (off % 8 + k) / 8) * 8) hbase
    rw [State.byteRead, State.byteGone, Vault.byteSeen, hphys, rowOf, rowOf]
    generalize physAddr (s.frameBase v) ((off / 8 + (off % 8 + k) / 8) * 8) = p at hmod
    rw [show (p + (off % 8 + k) % 8) / 1024 = p / 1024 by omega, show (p + (off % 8 + k) % 8) / 8 = p / 8 by omega,
      show (p + (off % 8 + k) % 8) % 8 = (off % 8 + k) % 8 by omega, beq_eq_false_iff_ne.2 hret, Bool.false_or]
    exact congrArg some (goneByte_eq _ _ _)
  · rename_i hk
    rw [List.getElem?_eq_none (by simpa using hk)]
    rfl

theorem State.vaultByte_eq (s : State) (v a : Nat) : s.vaultByte v a = s.byteRead v a := by
  rw [State.vaultByte, State.peekVault_eq_byteRead]
  rfl

theorem State.peekVault_eq (s : State) (v off n : Nat) :
    s.peekVault v off n = (List.range n).map (fun k => s.vaultByte v (off + k)) := by
  simp only [State.vaultByte_eq, State.peekVault_eq_byteRead]

theorem State.length_peekVault (s : State) (v off n : Nat) : (s.peekVault v off n).length = n := by
  rw [State.peekVault_eq, List.length_map, List.length_range]

theorem State.getElem_peekVault (s : State) (v off n k : Nat) (h : k < (s.peekVault v off n).length) :
    (s.peekVault v off n)[k] = s.vaultByte v (off + k) := by
  simp only [State.peekVault_eq, List.getElem_map, List.getElem_range]

end Sys2Proof.Machine
end

section
/-!
PROOF. What the port of a vault does while it serves requests: what its bookkeeping can change, that a drain keeps what
every byte reads as, and that an entry of the write buffer is a write of its bytes (06 R217, R218).
-/
namespace Sys2Proof.Machine

/-! ## What a port changes -/

/-- One vault differs from another in its contents and its port's bookkeeping at most. -/
def Vault.portChanged (x y : Vault) : Prop :=
  y = { x with mem := y.mem, wbuf := y.wbuf, writeFirst := y.writeFirst, ceTable := y.ceTable, full := y.full
               narrowArb := y.narrowArb, banks := y.banks }

theorem Vault.portChanged_trans {x y z : Vault} (h : x.portChanged y) (h' : y.portChanged z) : x.portChanged z := by
  rw [Vault.portChanged] at h h' ⊢
  rw [h', h]

section
variable {x y : Vault} (h : x.portChanged y)
include h
theorem Vault.portChanged_bg : y.bg = x.bg := by rw [h]
theorem Vault.portChanged_epoch : y.epoch = x.epoch := by rw [h]
theorem Vault.portChanged_retired : y.retired = x.retired := by rw [h]
theorem Vault.portChanged_watches : y.watches = x.watches := by rw [h]
theorem Vault.portChanged_notices : y.notices = x.notices := by rw [h]
theorem Vault.portChanged_waiting : y.waiting = x.waiting := by rw [h]
theorem Vault.portChanged_default (v : Nat) : wordDefault v y = wordDefault v x := by
  funext k
  rw [wordDefault, wordDefault, Vault.portChanged_bg h, Vault.portChanged_epoch h]
end

/-- Only the port of one vault has been at work: its contents, its bookkeeping, its counters and error registers, and the
records on their way to RAS. -/
structure State.atPort (s t : State) (v : Nat) : Prop where
  rest : { t with regs := s.regs, vaults := s.vaults, records := s.records } = s
  regs : ∀ a, a < siteBase v + 0x2020 ∨ siteBase v + 0x2400 ≤ a → t.reg a = s.reg a
  others : ∀ u, u ≠ v → t.vault u = s.vault u
  vault : (s.vault v).portChanged (t.vault v)

theorem State.atPort_refl (s : State) (v : Nat) : s.atPort s v := ⟨rfl, fun _ _ => rfl, fun _ _ => rfl, rfl⟩

theorem State.atPort_rest {s t : State} {v : Nat} (h : s.atPort t v) :
    { t with regs := s.regs, vaults := s.vaults, records := s.records } = s := h.rest

theorem State.atPort_trans {s t u : State} {v : Nat} (h : s.atPort t v) (h' : t.atPort u v) : s.atPort u v := by
  refine ⟨?_, fun a ha => (h'.regs a ha).trans (h.regs a ha), fun w hw => (h'.others w hw).trans (h.others w hw),
    Vault.portChanged_trans h.vault h'.vault⟩
  have e : ({ u with regs := s.regs, vaults := s.vaults, records := s.records } : State) =
      { ({ u with regs := t.regs, vaults := t.vaults, records := t.records } : State) with
        regs := s.regs, vaults := s.vaults, records := s.records } := rfl
  rw [e, State.atPort_rest h', State.atPort_rest h]

section
variable {s t : State} {v : Nat} (h : s.atPort t v)
include h
theorem State.atPort_cores : t.cores = s.cores := (congrArg State.cores (State.atPort_rest h) :)
theorem State.atPort_out : t.out = s.out := (congrArg State.out (State.atPort_rest h) :)
theorem State.atPort_now : t.now = s.now := (congrArg State.now (State.atPort_rest h) :)
theorem State.atPort_jobs : t.jobs = s.jobs := (congrArg State.jobs (State.atPort_rest h) :)
theorem State.atPort_asker : t.asker = s.asker := (congrArg State.asker (State.atPort_rest h) :)
theorem State.atPort_tables : t.tables = s.tables := (congrArg State.tables (State.atPort_rest h) :)
theorem State.atPort_dbg : t.dbg = s.dbg := (congrArg State.dbg (State.atPort_rest h) :)
theorem State.atPort_core (i : Nat) : t.core i = s.core i := by rw [State.core, State.core, State.atPort_cores h]

theorem State.atPort_getF (f : Fld) (hf : f.off < siteBase v + 0x2020 ∨ siteBase v + 0x2400 ≤ f.off) :
    t.getF f = s.getF f := State.getF_of_reg _ (h.regs _ hf)

/-- A register at an offset of a site window outside the controller's counters. -/
theorem State.atPort_siteReg (u x : Nat) (hx : x < 0x2020 ∨ 0x2400 ≤ x ∧ x < 0x4000) :
    t.reg (siteBase u + x) = s.reg (siteBase u + x) := by
  refine h.regs _ ?_
  have hu := State.Traffic.siteBase_mod u
  have hv := State.Traffic.siteBase_mod v
  omega

theorem State.atPort_vaultState (u : Nat) : t.vaultState u = s.vaultState u :=
  State.getF_of_reg _ (State.atPort_siteReg h u 0x200C (.inl (by decide)))

theorem State.atPort_frameBase (u : Nat) : t.frameBase u = s.frameBase u :=
  congrArg (· * 2 ^ 24) (State.getF_of_reg (Reg.vltMap_frame_base u)
    (State.atPort_siteReg h u 0x2010 (.inl (by decide))))

theorem State.atPort_retired (u : Nat) : (t.vault u).retired = (s.vault u).retired := by
  by_cases hu : u = v
  · rw [hu, Vault.portChanged_retired h.vault]
  · rw [h.others u hu]

theorem State.atPort_byteGone (u a : Nat) : t.byteGone u a = s.byteGone u a := by
  rw [State.byteGone, State.byteGone, State.atPort_vaultState h, State.atPort_frameBase h, State.atPort_retired h]

end

/-- A register of the controller's counters. -/
theorem State.atPort_setF {s : State} {v : Nat} {f : Fld} (n x : Nat) (hf : f.off = siteBase v + 0x2000 + x)
    (hx : 0x20 ≤ x ∧ x < 0x400) : s.atPort (s.setF f n) v :=
  ⟨rfl, fun a ha => State.reg_setF_ne _ _ _ _ (by omega), fun _ _ => rfl, rfl⟩

theorem State.atPort_setVault {s : State} {v : Nat} {y : Vault} (h : (s.vault v).portChanged y) :
    s.atPort (s.setVault v y) v :=
  ⟨rfl, fun _ _ => rfl, fun u hu => by rw [State.vault_setVault, if_neg hu], by
    rw [State.vault_setVault, if_pos rfl]; exact h⟩

theorem State.atPort_record (s : State) (v : Nat) (r : Record) : s.atPort (s.record r) v :=
  ⟨rfl, fun _ _ => rfl, fun _ _ => rfl, rfl⟩

/-! ## What a port keeps -/

/-- A port has been at work and every word of its vault reads as before. -/
structure State.tended (s t : State) (v : Nat) : Prop where
  port : s.atPort t v
  words : ∀ k, (t.vault v).wordSeen v k = (s.vault v).wordSeen v k

theorem State.tended_refl (s : State) (v : Nat) : s.tended s v := ⟨s.atPort_refl v, fun _ => rfl⟩

theorem State.tended_trans {s t u : State} {v : Nat} (h : s.tended t v) (h' : t.tended u v) : s.tended u v :=
  ⟨State.atPort_trans h.port h'.port, fun k => (h'.words k).trans (h.words k)⟩

theorem State.tended_ite {s t u : State} {v : Nat} {c : Prop} [Decidable c] (h : s.tended t v) (h' : s.tended u v) :
    s.tended (if c then t else u) v := by
  split
  · exact h
  · exact h'

theorem State.tended_foldl {α : Type} {f : State → α → State} {v : Nat} (hf : ∀ (s : State) a, s.tended (f s a) v) (l : List α)
    (s : State) : s.tended (l.foldl f s) v := by
  induction l generalizing s with
  | nil => exact s.tended_refl v
  | cons a l ih => exact State.tended_trans (hf s a) (ih _)

theorem State.tended_setF {s : State} {v : Nat} {f : Fld} (n x : Nat) (hf : f.off = siteBase v + 0x2000 + x)
    (hx : 0x20 ≤ x ∧ x < 0x400) : s.tended (s.setF f n) v := ⟨State.atPort_setF n x hf hx, fun _ => rfl⟩

theorem State.tended_record (s : State) (v : Nat) (r : Record) : s.tended (s.record r) v :=
  ⟨s.atPort_record v r, fun _ => rfl⟩

/-- Bookkeeping that leaves the banks' contents and the write buffer alone. -/
theorem State.tended_setVault {s : State} {v : Nat} {y : Vault} (h : (s.vault v).portChanged y)
    (hmem : y.mem = (s.vault v).mem) (hbuf : y.wbuf = (s.vault v).wbuf) : s.tended (s.setVault v y) v := by
  refine ⟨State.atPort_setVault h, fun k => ?_⟩
  rw [State.vault_setVault, if_pos rfl, Vault.wordSeen, Vault.wordSeen, Vault.seen, Vault.seen,
    Vault.portChanged_default h, hmem, hbuf]

section
variable {s t : State} {v : Nat} (h : s.tended t v)
include h

theorem State.tended_wordSeen (u k : Nat) : (t.vault u).wordSeen u k = (s.vault u).wordSeen u k := by
  by_cases hu : u = v
  · rw [hu, h.words k]
  · rw [h.port.others u hu]

theorem State.tended_wordsOf (u off n : Nat) : t.wordsOf u off n = s.wordsOf u off n := by
  apply List.ext_getElem?
  intro j
  by_cases hn : n = 0
  · simp [State.wordsOf, hn]
  by_cases hj : j < (off + n - 1) / 8 - off / 8 + 1
  · rw [t.getElem?_wordsOf u off n j hn hj, s.getElem?_wordsOf u off n j hn hj, State.atPort_frameBase h.port,
      State.tended_wordSeen h, State.atPort_retired h.port]
  · rw [List.getElem?_eq_none, List.getElem?_eq_none]
    · simp [State.wordsOf, hn]; omega
    · simp [State.wordsOf, hn]; omega

theorem State.tended_vaultByte (u a : Nat) : t.vaultByte u a = s.vaultByte u a := by
  rw [State.vaultByte_eq, State.vaultByte_eq, State.byteRead, State.byteRead, State.atPort_byteGone h.port,
    State.atPort_frameBase h.port, Vault.byteSeen, Vault.byteSeen, State.tended_wordSeen h]

theorem State.tended_peekVault (u off n : Nat) : t.peekVault u off n = s.peekVault u off n := by
  simp only [State.peekVault_eq, State.tended_vaultByte h]

end

/-! ## The bookkeeping of accesses -/

theorem Vault.portChanged_setBank (x : Vault) (b : Nat) (y : Bank) : x.portChanged (x.setBank b y) := rfl

theorem State.tended_setBank (s : State) (v b : Nat) (y : Bank) : s.tended (s.setVault v ((s.vault v).setBank b y)) v :=
  State.tended_setVault (Vault.portChanged_setBank _ _ _) rfl rfl

theorem State.tended_bookAs (s : State) (v : Nat) (cls : ReqClass) (narrow : Bool) (n : Nat) :
    s.tended (s.bookAs v cls narrow n) v := by
  rw [State.bookAs]
  have hnarrow (a : Arb) : s.tended (s.setVault v { s.vault v with narrowArb := a }) v :=
    State.tended_setVault rfl rfl rfl
  have hfull (a : Arb) : s.tended (s.setVault v { s.vault v with full := a }) v := State.tended_setVault rfl rfl rfl
  exact State.tended_ite (hnarrow _) (hfull _)

theorem State.tended_arbitrate (s : State) (v : Nat) (cls : ReqClass) (narrow : Bool) (off n : Nat) :
    s.tended (s.arbitrate v cls narrow off n) v := s.tended_bookAs _ _ _ _

theorem State.tended_rowAsked (s : State) (v p : Nat) : s.tended (s.rowAsked v p) v := s.tended_setBank v _ _

theorem State.tended_touchRow (s : State) (v p : Nat) : s.tended (s.touchRow v p) v := by
  rw [State.touchRow]
  exact State.tended_ite (s.tended_setBank v _ _)
    (State.tended_trans (s.tended_setBank v _ _) (State.tended_setF _ 0x70 rfl (by decide)))

theorem State.tended_eccFirst (s : State) (v off kind : Nat) (d : Decoded) : s.tended (s.eccFirst v off kind d) v := by
  rw [State.eccFirst]
  have hfield (t : State) (f : Fld) (n : Nat) (hf : f.off = siteBase v + 0x2000 + 0x38) : t.tended (t.setF f n) v :=
    State.tended_setF n 0x38 hf (by decide)
  exact State.tended_ite (s.tended_refl v) (State.tended_trans (State.tended_trans (State.tended_trans (State.tended_trans
    (hfield _ _ _ rfl) (hfield _ _ _ rfl)) (hfield _ _ _ rfl)) (hfield _ _ _ rfl)) (hfield _ _ _ rfl))

theorem State.tended_ceNote (s : State) (v off p : Nat) : s.tended (s.ceNote v off p) v := by
  have htable (t : List CeRow) : s.tended (s.setVault v { s.vault v with ceTable := t }) v :=
    State.tended_setVault rfl rfl rfl
  rw [State.ceNote]
  exact State.tended_ite (State.tended_trans (htable _) (State.tended_record _ _ _)) (htable _)

theorem State.tended_eccCount (s : State) (v : Nat) (f : Fld) (n : Nat) (hf : f.off = siteBase v + 0x2000 + 0x30) :
    s.tended (s.incSat f n) v := State.tended_setF _ 0x30 hf (by decide)

theorem State.tended_noteWord (s : State) (v off p : Nat) (d : Decoded) : s.tended (s.noteWord v off p d) v := by
  rw [State.noteWord]
  cases d.kind with
  | clean => exact s.tended_refl v
  | corrected =>
    exact State.tended_trans (State.tended_trans (State.tended_trans (s.tended_eccCount v _ _ rfl)
      (State.tended_eccFirst _ _ _ _ _)) (State.tended_record _ _ _)) (State.tended_ceNote _ _ _ _)
  | uncorrectable =>
    exact State.tended_trans (State.tended_trans (s.tended_eccCount v _ _ rfl) (State.tended_eccFirst _ _ _ _ _))
      (State.tended_record _ _ _)
  | poisoned => exact State.tended_trans (s.tended_eccCount v _ _ rfl) (State.tended_eccFirst _ _ _ _ _)

theorem State.tended_readVault (s : State) (v off n : Nat) (narrow : Bool) :
    s.tended (s.readVault v off n narrow).1 v := by
  rw [State.readVault]
  split
  · exact s.tended_refl v
  · exact State.tended_trans (State.tended_trans (State.tended_foldl (fun _ _ => State.tended_touchRow _ _ _) _ _)
      (State.tended_setF _ 0x60 rfl (by decide))) (State.tended_foldl (fun _ _ => State.tended_noteWord _ _ _ _ _) _ _)

/-! ## The write buffer (06 R217) -/

theorem memory_word_writeWords_congr (d : Nat → Codeword) (n : Nat) (m m' : EccMem) (a : Nat) (bs : List PByte) (k : Nat)
    (h : EccMem.word d m k = EccMem.word d m' k) :
    EccMem.word d (EccMem.writeWords d n m a bs) k = EccMem.word d (EccMem.writeWords d n m' a bs) k := by
  induction n generalizing m m' a bs with
  | zero => exact h
  | succ n ih =>
    cases bs with
    | nil => exact h
    | cons b bs =>
      refine ih _ _ _ _ ?_
      rw [memory_word_put, memory_word_put]
      split
      · rename_i hk
        rw [← hk, h]
      · exact h

/-- What a write leaves in a word depends on that word alone. -/
theorem memory_word_write_congr (d : Nat → Codeword) {m m' : EccMem} (a : Nat) (bs : List PByte) {k : Nat}
    (h : EccMem.word d m k = EccMem.word d m' k) :
    EccMem.word d (EccMem.write d m a bs) k = EccMem.word d (EccMem.write d m' a bs) k :=
  memory_word_writeWords_congr d _ m m' a bs k h

/-- The entries of a write buffer over a memory. -/
def EccMem.over (d : Nat → Codeword) (m : EccMem) (es : List WEntry) : EccMem :=
  es.foldl (fun m e => EccMem.write d m e.addr e.bytes) m

theorem over_congr (d : Nat → Codeword) (es : List WEntry) {m m' : EccMem} {k : Nat}
    (h : EccMem.word d m k = EccMem.word d m' k) :
    EccMem.word d (EccMem.over d m es) k = EccMem.word d (EccMem.over d m' es) k := by
  induction es generalizing m m' with
  | nil => exact h
  | cons e es ih => exact ih (memory_word_write_congr d _ _ h)

theorem WEntry.length_bytes_le (e : WEntry) : e.bytes.length ≤ 128 - e.addr % 128 := by
  rw [WEntry.bytes, List.length_take]
  exact Nat.min_le_left _ _

/-- An entry touches the words of its 128 B line alone. -/
theorem write_entry_out (d : Nat → Codeword) (m : EccMem) (e : WEntry) {k : Nat} (h : e.addr / 128 ≠ k / 16) :
    EccMem.word d (EccMem.write d m e.addr e.bytes) k = EccMem.word d m k := by
  have hlen := e.length_bytes_le
  exact memory_write_out d m e.addr e.bytes k (by omega)

theorem over_out (d : Nat → Codeword) (es : List WEntry) (m : EccMem) {k : Nat}
    (h : ∀ e ∈ es, e.addr / 128 ≠ k / 16) : EccMem.word d (EccMem.over d m es) k = EccMem.word d m k := by
  induction es generalizing m with
  | nil => rfl
  | cons e es ih =>
    have hrest := ih (EccMem.write d m e.addr e.bytes) (fun f hf => h f (List.mem_cons_of_mem _ hf))
    exact hrest.trans (write_entry_out d m e (h e List.mem_cons_self))

theorem over_append (d : Nat → Codeword) (m : EccMem) (es fs : List WEntry) :
    EccMem.over d m (es ++ fs) = EccMem.over d (EccMem.over d m es) fs := List.foldl_append

/-- An entry that no earlier one shares its line with may be written first. -/
theorem over_drain (d : Nat → Codeword) (m : EccMem) (pre post : List WEntry) (e : WEntry)
    (h : ∀ f ∈ pre, f.addr / 128 ≠ e.addr / 128) (k : Nat) :
    EccMem.word d (EccMem.over d (EccMem.write d m e.addr e.bytes) (pre ++ post)) k =
      EccMem.word d (EccMem.over d m (pre ++ e :: post)) k := by
  rw [over_append, over_append]
  refine over_congr d post ?_
  by_cases hk : e.addr / 128 = k / 16
  · have hpre : ∀ f ∈ pre, f.addr / 128 ≠ k / 16 := fun f hf => hk ▸ h f hf
    rw [over_out d pre _ hpre]
    exact memory_word_write_congr d _ _ (over_out d pre m hpre).symm
  · rw [write_entry_out d _ e hk]
    exact over_congr d pre (write_entry_out d m e hk)

theorem Vault.wordSeen_eq (v : Nat) (x : Vault) (k : Nat) : x.wordSeen v k =
    EccMem.word (wordDefault v x) (EccMem.over (wordDefault v x) x.mem x.wbuf) k := rfl

/-- A vault with the k-th entry of its write buffer drained into its bank. -/
def Vault.drained (v : Nat) (x : Vault) (k : Nat) (e : WEntry) : Vault :=
  ({ x with mem := EccMem.write (wordDefault v x) x.mem e.addr e.bytes } : Vault).setBuf (dropAt x.wbuf k)

theorem Vault.portChanged_drained (v : Nat) (x : Vault) (k : Nat) (e : WEntry) : x.portChanged (x.drained v k e) := rfl

/-- Draining an entry that no earlier one shares its line with keeps every word. -/
theorem Vault.wordSeen_drained {v : Nat} {x : Vault} {k : Nat} {e : WEntry} (he : x.wbuf[k]? = some e)
    (hline : ∀ f ∈ x.wbuf.take k, f.addr / 128 ≠ e.addr / 128) (j : Nat) :
    (x.drained v k e).wordSeen v j = x.wordSeen v j := by
  obtain ⟨hk, hget⟩ := List.getElem?_eq_some_iff.1 he
  have hsplit : x.wbuf = x.wbuf.take k ++ e :: x.wbuf.drop (k + 1) := by
    rw [← hget, ← List.drop_eq_getElem_cons hk, List.take_append_drop]
  have hdrop : (x.drained v k e).wbuf = x.wbuf.take k ++ x.wbuf.drop (k + 1) := List.eraseIdx_eq_take_drop_succ _ _
  rw [Vault.wordSeen_eq, Vault.wordSeen_eq, Vault.portChanged_default (x.portChanged_drained v k e), hdrop]
  conv => rhs; rw [hsplit]
  exact over_drain _ _ _ _ _ hline j

theorem findIdx_spec {α : Type} {p : α → Bool} {xs : List α} {n k : Nat} {x : α} (h : findIdx p xs n = some (k, x)) :
    ∃ j, k = n + j ∧ xs[j]? = some x ∧ p x = true ∧ ∀ y ∈ xs.take j, p y = false := by
  induction xs generalizing n with
  | nil => cases h
  | cons y ys ih =>
    rw [findIdx] at h
    split at h
    · rename_i hy
      cases h
      exact ⟨0, rfl, rfl, hy, by simp⟩
    · rename_i hy
      obtain ⟨j, rfl, hj, hx, hbefore⟩ := ih h
      refine ⟨j + 1, by omega, hj, hx, fun z hz => ?_⟩
      rw [List.take_succ_cons, List.mem_cons] at hz
      rcases hz with rfl | hz
      · simpa using hy
      · exact hbefore z hz

theorem bankOf_of_line {p q : Nat} (h : p / 128 = q / 128) : bankOf p = bankOf q := by
  rw [bankOf, bankOf]
  omega

theorem State.tended_drained {s : State} {v k : Nat} {e : WEntry} (he : (s.vault v).wbuf[k]? = some e)
    (hline : ∀ f ∈ (s.vault v).wbuf.take k, f.addr / 128 ≠ e.addr / 128) :
    s.tended (s.setVault v ((s.vault v).drained v k e)) v :=
  ⟨State.atPort_setVault (Vault.portChanged_drained _ _ _ _), fun j => by
    rw [State.vault_setVault, if_pos rfl, Vault.wordSeen_drained he hline]⟩

/-- The oldest entry that may drain shares its line with no earlier one, which would be in its bank. -/
theorem State.tended_drainOne (s : State) (v : Nat) : s.tended (s.drainOne v) v := by
  rw [State.drainOne]
  split
  · exact s.tended_refl v
  · rename_i k e h
    obtain ⟨j, hj, he, hfree, hbefore⟩ := findIdx_spec h
    rw [Nat.zero_add] at hj
    subst hj
    refine State.tended_trans (State.tended_drained he fun f hf hline => ?_) (State.tended_touchRow _ _ _)
    have hblocked := hbefore f hf
    rw [bankOf_of_line hline, hfree] at hblocked
    exact absurd hblocked (by decide)

theorem State.tended_drainSome (s : State) (v k : Nat) : s.tended (s.drainSome v k) v := by
  induction k generalizing s with
  | zero => exact s.tended_refl v
  | succ k ih => exact State.tended_trans (s.tended_drainOne v) (ih _)

theorem State.tended_makeRoom (s : State) (v n : Nat) : s.tended (s.makeRoom v n) v := s.tended_drainSome v _

/-! ## An entry enters -/

/-- The port has taken a write of a physical range: every word reads as after it. -/
structure State.tookWrite (s t : State) (v addr : Nat) (data : List PByte) : Prop where
  port : s.atPort t v
  words : ∀ k, (t.vault v).wordSeen v k = EccMem.word (wordDefault v (s.vault v))
    (EccMem.write (wordDefault v (s.vault v)) ((s.vault v).seen v) addr data) k

theorem State.tookWrite_of_tended {s t u : State} {v addr : Nat} {data : List PByte} (h : s.tended t v)
    (h' : t.tookWrite u v addr data) : s.tookWrite u v addr data := by
  refine ⟨State.atPort_trans h.port h'.port, fun k => ?_⟩
  rw [h'.words, Vault.portChanged_default h.port.vault]
  refine memory_word_write_congr _ _ _ ?_
  have hword := h.words k
  rw [Vault.wordSeen, Vault.wordSeen, Vault.portChanged_default h.port.vault] at hword
  exact hword

/-- A vault whose write buffer an entry has entered. -/
def Vault.taken (x : Vault) (e : WEntry) : Vault := x.setBuf (x.wbuf ++ [e])

theorem Vault.wordSeen_taken (v : Nat) (x : Vault) (e : WEntry) (k : Nat) : (x.taken e).wordSeen v k =
    EccMem.word (wordDefault v x) (EccMem.write (wordDefault v x) (x.seen v) e.addr e.bytes) k :=
  congrArg (EccMem.word (wordDefault v x) · k) (over_append (wordDefault v x) x.mem x.wbuf [e])

theorem State.tookWrite_bufPut (s : State) (v : Nat) (e : WEntry) : s.tookWrite (s.bufPut v e) v e.addr e.bytes := by
  refine State.tookWrite_of_tended (s.tended_rowAsked v e.addr) ?_
  generalize hu : s.rowAsked v e.addr = u
  have hput : s.bufPut v e = u.setVault v ((u.vault v).taken e) := by rw [← hu]; rfl
  rw [hput]
  refine ⟨State.atPort_setVault rfl, fun k => ?_⟩
  rw [State.vault_setVault, if_pos rfl, Vault.wordSeen_taken]

theorem State.tookWrite_accept (s : State) (v : Nat) (e : WEntry) : s.tookWrite (s.accept v e) v e.addr e.bytes :=
  State.tookWrite_of_tended (s.tended_makeRoom v 1) (State.tookWrite_bufPut _ v e)

end Sys2Proof.Machine
end

section
/-!
PROOF. Reads, writes and atomics of a vault, byte by byte, on ranges that read clean (06 R217 to R219, R237, R247).
-/
namespace Sys2Proof.Machine

/-! ## The lines of a range -/

/-- A piece of a range within one 128 B line. -/
structure linePiece (off n : Nat) (c : Nat × Nat) : Prop where
  pos : 0 < c.2
  first : off ≤ c.1
  last : c.1 + c.2 ≤ off + n
  line : c.1 % 128 + c.2 ≤ 128

theorem cuts_line (k a n : Nat) : ∀ c ∈ cuts 128 k a n, linePiece a n c := by
  induction k generalizing a n with
  | zero => simp [cuts]
  | succ k ih =>
    intro c hc
    rw [cuts] at hc
    split at hc
    · simp at hc
    · rename_i hn
      have hmin : Nat.min n (128 - a % 128) = min n (128 - a % 128) := rfl
      rw [hmin] at hc
      rcases List.mem_cons.1 hc with rfl | hc
      · exact ⟨by simp; omega, by simp, by simp, by simp; omega⟩
      · obtain ⟨hpos, hfirst, hlast, hline⟩ := ih _ _ c hc
        exact ⟨hpos, by omega, by omega, hline⟩

theorem cuts_cover (k a n : Nat) (hk : a % 128 + n ≤ 128 * k) (b : Nat) (hb : a ≤ b) (hb' : b < a + n) :
    ∃ c ∈ cuts 128 k a n, c.1 ≤ b ∧ b < c.1 + c.2 := by
  induction k generalizing a n with
  | zero => omega
  | succ k ih =>
    rw [cuts, if_neg (by omega)]
    have hmin : Nat.min n (128 - a % 128) = min n (128 - a % 128) := rfl
    rw [hmin]
    by_cases h : b < a + min n (128 - a % 128)
    · exact ⟨_, List.mem_cons_self, hb, h⟩
    · obtain ⟨c, hc, hin⟩ := ih (a + min n (128 - a % 128)) (n - min n (128 - a % 128)) (by omega) (by omega) (by omega)
      exact ⟨c, List.mem_cons_of_mem _ hc, hin⟩

theorem cutAt_line {off n : Nat} {c : Nat × Nat} (h : c ∈ cutAt 128 off n) : linePiece off n c := cuts_line _ _ _ c h

theorem cutAt_cover {off n b : Nat} (hb : off ≤ b) (hb' : b < off + n) :
    ∃ c ∈ cutAt 128 off n, c.1 ≤ b ∧ b < c.1 + c.2 := cuts_cover _ _ _ (by omega) b hb hb'

/-! ## Clean ranges -/

/-- Every byte of a range of a vault can be read. -/
def State.readsClean (s : State) (v off n : Nat) : Prop := ∀ b, off ≤ b → b < off + n → (s.byteRead v b).2 = false

theorem State.readsClean_sub {s : State} {v off n a m : Nat} (h : s.readsClean v off n) (ha : off ≤ a)
    (hm : a + m ≤ off + n) : s.readsClean v a m := fun b hb hb' => h b (by omega) (by omega)

theorem State.readsClean_tended {s t : State} {u v off n : Nat} (h : s.readsClean v off n) (ht : s.tended t u) :
    t.readsClean v off n := by
  intro b hb hb'
  rw [← State.vaultByte_eq, State.tended_vaultByte ht, State.vaultByte_eq]
  exact h b hb hb'

theorem State.notGone_of_clean {s : State} {v b : Nat} (h : (s.byteRead v b).2 = false) : s.byteGone v b = false := by
  rw [State.byteRead] at h
  by_contra hgone
  rw [if_pos (by simpa using hgone)] at h
  exact absurd h (by decide)

theorem wordByte_snd (w : Codeword) (k : Nat) : (wordByte w k).2 = w.decode.kind.bad := by
  rw [wordByte]
  cases w.decode.kind.bad with
  | false => rw [if_neg Bool.false_ne_true]
  | true => rw [if_pos rfl]

/-- A byte reads clean where its word is neither gone nor bad. -/
theorem State.byteRead_snd (s : State) (v b : Nat) : (s.byteRead v b).2 =
    (s.byteGone v b || ((s.vault v).wordSeen v (physAddr (s.frameBase v) b / 8)).decode.kind.bad) := by
  rw [State.byteRead]
  cases s.byteGone v b with
  | false => rw [if_neg Bool.false_ne_true, Vault.byteSeen, wordByte_snd, Bool.false_or]
  | true => rw [if_pos rfl, Bool.true_or]

theorem readStatus_ok_iff (ws : List WordRead) :
    readStatus ws = stOk ↔ ∀ w ∈ ws, w.gone = false ∧ w.dec.kind.bad = false := by
  rw [readStatus]
  constructor
  · intro h
    split at h
    · exact absurd h (by decide)
    · rename_i hgone
      split at h
      · exact absurd h (by decide)
      · rename_i hbad
        intro w hw
        simp only [List.any_eq_true, not_exists, not_and, Bool.not_eq_true] at hgone hbad
        exact ⟨hgone w hw, hbad w hw⟩
  · intro h
    rw [if_neg, if_neg]
    · simp only [List.any_eq_true, not_exists, not_and, Bool.not_eq_true]
      exact fun w hw => (h w hw).2
    · simp only [List.any_eq_true, not_exists, not_and, Bool.not_eq_true]
      exact fun w hw => (h w hw).1

/-- The word of a range that an offset lies in, as a read finds it. -/
theorem State.wordsOf_at (s : State) {v off n b : Nat} (hb : off ≤ b) (hb' : b < off + n)
    (hret : s.vaultState v ≠ vsRetired) : ∃ w ∈ s.wordsOf v off n, w.off = b / 8 * 8 ∧
      (s.byteRead v b).2 = (w.gone || w.dec.kind.bad) := by
  have hget := s.getElem?_wordsOf v off n (b / 8 - off / 8) (by omega) (by omega)
  refine ⟨_, List.mem_of_getElem? hget, by simp only; omega, ?_⟩
  have hbase := s.frameBase_mod v
  have hat : b = (off / 8 + (b / 8 - off / 8)) * 8 + b % 8 := by omega
  have hphys : physAddr (s.frameBase v) b = physAddr (s.frameBase v) ((off / 8 + (b / 8 - off / 8)) * 8) + b % 8 := by
    conv => lhs; rw [hat]
    exact physAddr_add hbase _ (by omega)
  have hmod := physAddr_mod (a := (off / 8 + (b / 8 - off / 8)) * 8) hbase
  rw [State.byteRead_snd, State.byteGone, beq_eq_false_iff_ne.2 hret, Bool.false_or, hphys, rowOf, rowOf]
  generalize physAddr (s.frameBase v) ((off / 8 + (b / 8 - off / 8)) * 8) = p at hmod
  rw [show (p + b % 8) / 1024 = p / 1024 by omega, show (p + b % 8) / 8 = p / 8 by omega]

/-- Every word of a range is one that some byte of the range lies in. -/
theorem State.mem_wordsOf (s : State) {v off n : Nat} (hret : s.vaultState v ≠ vsRetired) {w : WordRead}
    (hw : w ∈ s.wordsOf v off n) :
    ∃ b, off ≤ b ∧ b < off + n ∧ (s.byteRead v b).2 = (w.gone || w.dec.kind.bad) := by
  obtain ⟨i, hi⟩ := List.mem_iff_getElem?.1 hw
  have hn : n ≠ 0 := by
    rintro rfl
    simp [State.wordsOf] at hw
  have hlen : i < (off + n - 1) / 8 - off / 8 + 1 := by
    obtain ⟨hlt, -⟩ := List.getElem?_eq_some_iff.1 hi
    simpa [State.wordsOf, hn] using hlt
  have hget := s.getElem?_wordsOf v off n i hn hlen
  have hb : off ≤ max off ((off / 8 + i) * 8) := by omega
  have hb' : max off ((off / 8 + i) * 8) < off + n := by omega
  have hword := s.getElem?_wordsOf v off n (max off ((off / 8 + i) * 8) / 8 - off / 8) hn (by omega)
  obtain ⟨w', hw', hoff, hsnd⟩ := s.wordsOf_at hb hb' hret
  obtain ⟨j, hj⟩ := List.mem_iff_getElem?.1 hw'
  have hlenj : j < (off + n - 1) / 8 - off / 8 + 1 := by
    obtain ⟨hlt, -⟩ := List.getElem?_eq_some_iff.1 hj
    simpa [State.wordsOf, hn] using hlt
  have hgetj := s.getElem?_wordsOf v off n j hn hlenj
  rw [hj] at hgetj
  have hoffj : (off / 8 + j) * 8 = max off ((off / 8 + i) * 8) / 8 * 8 := by
    rw [← hoff]
    exact (congrArg WordRead.off (Option.some.inj hgetj)).symm
  have hij : j = i := by omega
  subst hij
  have hww : w = w' := Option.some.inj (hi.symm.trans hj)
  exact ⟨_, hb, hb', hww ▸ hsnd⟩

/-- A range whose words a read finds clean reads clean. -/
theorem State.readsClean_of_status {s : State} {v off n : Nat} (hret : s.vaultState v ≠ vsRetired)
    (h : readStatus (s.wordsOf v off n) = stOk) : s.readsClean v off n := by
  intro b hb hb'
  obtain ⟨w, hw, -, hsnd⟩ := s.wordsOf_at hb hb' hret
  obtain ⟨hgone, hbad⟩ := (readStatus_ok_iff _).1 h w hw
  rw [hsnd, hgone, hbad]
  rfl

theorem State.notRetired_of_clean {s : State} {v off n : Nat} (h : s.readsClean v off n) (hn : 0 < n) :
    s.vaultState v ≠ vsRetired := by
  intro hret
  have hgone := State.notGone_of_clean (h off (Nat.le_refl _) (by omega))
  rw [State.byteGone, hret] at hgone
  exact absurd hgone (by simp)

/-- The words of a range that reads clean. -/
theorem State.wordsOf_clean {s : State} {v off n : Nat} (h : s.readsClean v off n) {w : WordRead}
    (hw : w ∈ s.wordsOf v off n) : w.gone = false ∧ w.dec.kind.bad = false := by
  have hn : 0 < n := by
    rcases Nat.eq_zero_or_pos n with rfl | hn
    · simp [State.wordsOf] at hw
    · exact hn
  obtain ⟨b, hb, hb', hsnd⟩ := s.mem_wordsOf (State.notRetired_of_clean h hn) hw
  rw [h b hb hb'] at hsnd
  exact Bool.or_eq_false_iff.1 hsnd.symm

theorem State.readStatus_clean {s : State} {v off n : Nat} (h : s.readsClean v off n) :
    readStatus (s.wordsOf v off n) = stOk :=
  (readStatus_ok_iff _).2 fun _ hw => State.wordsOf_clean h hw

theorem State.anyPoison_peekVault (s : State) (v off n : Nat) :
    anyPoison (s.peekVault v off n) = false ↔ s.readsClean v off n := by
  rw [anyPoison, List.any_eq_false]
  constructor
  · intro h b hb hb'
    have hmem : s.vaultByte v b ∈ s.peekVault v off n := by
      rw [State.peekVault_eq, List.mem_map]
      exact ⟨b - off, List.mem_range.2 (by omega), by rw [Nat.add_sub_cancel' hb]⟩
    have hclean := h _ hmem
    rw [State.vaultByte_eq] at hclean
    simpa using hclean
  · intro h x hx
    rw [State.peekVault_eq, List.mem_map] at hx
    obtain ⟨k, hk, rfl⟩ := hx
    rw [List.mem_range] at hk
    rw [State.vaultByte_eq, h (off + k) (by omega) (by omega)]
    decide

/-! ## Reads -/

theorem State.readVault_data (s : State) (v off n : Nat) (narrow : Bool) :
    (s.readVault v off n narrow).2.1 = s.peekVault v off n := by
  rw [State.readVault, State.peekVault]
  split
  · rfl
  · rfl

theorem State.readVault_status {s : State} {v off n : Nat} (h : s.readsClean v off n) (hn : 0 < n) (narrow : Bool) :
    (s.readVault v off n narrow).2.2 = stOk := by
  rw [State.readVault, if_neg (State.notRetired_of_clean h hn)]
  exact State.readStatus_clean h

/-! ## Writes -/

/-- The port of a vault has been at work, and every byte reads as after a write of a range. -/
structure State.stored (s t : State) (v off : Nat) (data : List PByte) : Prop where
  port : s.atPort t v
  inside : ∀ k, (h : k < data.length) → t.byteRead v (off + k) = data[k]
  outside : ∀ b, b < vaultSize → b < off ∨ off + data.length ≤ b → t.byteRead v b = s.byteRead v b

theorem State.stored_of_tended {s t u : State} {v off : Nat} {data : List PByte} (h : s.tended t v)
    (h' : t.stored u v off data) : s.stored u v off data :=
  ⟨State.atPort_trans h.port h'.port, h'.inside, fun b hb hout => by
    rw [h'.outside b hb hout, ← State.vaultByte_eq, State.tended_vaultByte h, State.vaultByte_eq]⟩

theorem State.stored_tended {s t u : State} {v off : Nat} {data : List PByte} (h : s.stored t v off data)
    (h' : t.tended u v) : s.stored u v off data := by
  have hbyte (b : Nat) : u.byteRead v b = t.byteRead v b := by
    rw [← State.vaultByte_eq, State.tended_vaultByte h', State.vaultByte_eq]
  exact ⟨State.atPort_trans h.port h'.port, fun k hk => (hbyte _).trans (h.inside k hk),
    fun b hb hout => (hbyte _).trans (h.outside b hb hout)⟩

/-- The physical bytes of a vault after its port has taken a clean write of physical bytes that read clean. -/
theorem State.tookWrite_byteSeen {s t : State} {v addr : Nat} {data : List PByte} (h : s.tookWrite t v addr data)
    (hpos : 0 < data.length) (hclean : anyPoison data = false)
    (hread : ∀ p, addr ≤ p → p < addr + data.length → ((s.vault v).byteSeen v p).2 = false) (p : Nat) :
    (t.vault v).byteSeen v p =
      if h : addr ≤ p ∧ p < addr + data.length then data[p - addr] else (s.vault v).byteSeen v p := by
  have hgood : EccMem.edgesGood (wordDefault v (s.vault v)) ((s.vault v).seen v) addr data.length := by
    have hbad (q : Nat) (hq : addr ≤ q) (hq' : q < addr + data.length) :
        (EccMem.word (wordDefault v (s.vault v)) ((s.vault v).seen v) (q / 8)).decode.kind.bad = false := by
      rw [← hread q hq hq', Vault.byteSeen, wordByte_snd]
      rfl
    refine ⟨fun _ => hbad addr (Nat.le_refl _) (by omega), fun hmod => ?_⟩
    have hlast := hbad (addr + data.length - 1) (by omega) (by omega)
    rwa [show (addr + data.length - 1) / 8 = (addr + data.length) / 8 by omega] at hlast
  rw [Vault.byteSeen, h.words]
  exact memory_byte_write _ _ _ _ hclean hgood p

/-- An entry that holds a piece of a write: its bytes, at their place. -/
theorem State.stored_of_tookWrite {s t : State} {v a : Nat} {data : List PByte}
    (h : s.tookWrite t v (physAddr (s.frameBase v) a) data) (hpos : 0 < data.length)
    (hline : a % 128 + data.length ≤ 128) (hend : a + data.length ≤ vaultSize) (hclean : anyPoison data = false)
    (hread : s.readsClean v a data.length) : s.stored t v a data := by
  have hbase := s.frameBase_mod v
  have hphys (k : Nat) (hk : k < data.length) :
      physAddr (s.frameBase v) (a + k) = physAddr (s.frameBase v) a + k := physAddr_add hbase k (by omega)
  have hlive (k : Nat) (hk : k < data.length) : s.byteGone v (a + k) = false :=
    State.notGone_of_clean (hread (a + k) (by omega) (by omega))
  have hseen := State.tookWrite_byteSeen h hpos hclean fun p hp hp' => by
    have hclean := hread (a + (p - physAddr (s.frameBase v) a)) (by omega) (by omega)
    rw [State.byteRead, hlive _ (by omega), hphys _ (by omega), if_neg Bool.false_ne_true] at hclean
    rwa [show physAddr (s.frameBase v) a + (p - physAddr (s.frameBase v) a) = p by omega] at hclean
  refine ⟨h.port, fun k hk => ?_, fun b hb hout => ?_⟩
  · rw [State.byteRead, State.atPort_byteGone h.port, hlive k hk, if_neg Bool.false_ne_true,
      State.atPort_frameBase h.port, hphys k hk, hseen, dif_pos (by omega)]
    congr 1
    omega
  · rw [State.byteRead, State.byteRead, State.atPort_byteGone h.port, State.atPort_frameBase h.port, hseen]
    split
    · rfl
    · rw [dif_neg]
      intro hin
      have hsame := hphys (physAddr (s.frameBase v) b - physAddr (s.frameBase v) a) (by omega)
      rw [show physAddr (s.frameBase v) a + (physAddr (s.frameBase v) b - physAddr (s.frameBase v) a) =
        physAddr (s.frameBase v) b by omega] at hsame
      have hb' := physAddr_inj hbase (by omega) hb hsame
      omega

theorem length_slice {α : Type} (bs : List α) (o n : Nat) : (slice bs o n).length = min n (bs.length - o) := by
  rw [slice, List.length_take, List.length_drop]

theorem getElem_slice {α : Type} (bs : List α) (o n k : Nat) (h : k < (slice bs o n).length)
    (h' : o + k < bs.length) : (slice bs o n)[k] = bs[o + k] := by
  simp only [slice, List.getElem_take, List.getElem_drop]

theorem anyPoison_slice {bs : List PByte} (h : anyPoison bs = false) (o n : Nat) : anyPoison (slice bs o n) = false :=
  anyPoison_take (anyPoison_drop h o) n

/-- The entry of the write buffer that holds a piece of a write. -/
def pieceEntry (base off : Nat) (data : List PByte) (m : Option Merge) (c : Nat × Nat) : WEntry :=
  ⟨physAddr base c.1, slice data (c.1 - off) c.2, m⟩

theorem bytes_pieceEntry {base off : Nat} {data : List PByte} {m : Option Merge} {c : Nat × Nat}
    (hbase : base % 2 ^ 24 = 0) (hc : linePiece off data.length c) :
    (pieceEntry base off data m c).bytes = slice data (c.1 - off) c.2 := by
  have hmod := physAddr_mod (a := c.1) hbase
  have hline := hc.line
  have hlen := length_slice data (c.1 - off) c.2
  rw [WEntry.bytes, pieceEntry]
  exact List.take_of_length_le (by simp only; omega)

/-- Some of a write's pieces have entered the write buffer: the bytes they cover are the write's, the others as they
were. -/
structure State.storedSome (s t : State) (v off : Nat) (data : List PByte) (l : List (Nat × Nat)) : Prop where
  port : s.atPort t v
  covered : ∀ c ∈ l, ∀ k, (h : k < data.length) → c.1 ≤ off + k → off + k < c.1 + c.2 → t.byteRead v (off + k) = data[k]
  others : ∀ b, b < vaultSize → (∀ c ∈ l, b < c.1 ∨ c.1 + c.2 ≤ b) → t.byteRead v b = s.byteRead v b

theorem State.storedSome_nil (s : State) (v off : Nat) (data : List PByte) : s.storedSome s v off data [] :=
  ⟨s.atPort_refl v, fun _ hc => absurd hc List.not_mem_nil, fun _ _ _ => rfl⟩

theorem State.storedSome_tended {s t u : State} {v off : Nat} {data : List PByte} {l : List (Nat × Nat)}
    (h : s.storedSome t v off data l) (h' : t.tended u v) : s.storedSome u v off data l := by
  have hbyte (b : Nat) : u.byteRead v b = t.byteRead v b := by
    rw [← State.vaultByte_eq, State.tended_vaultByte h', State.vaultByte_eq]
  exact ⟨State.atPort_trans h.port h'.port, fun c hc k hk hb hb' => (hbyte _).trans (h.covered c hc k hk hb hb'),
    fun b hb hout => (hbyte _).trans (h.others b hb hout)⟩

section
variable {s : State} {v off : Nat} {data : List PByte} (hend : off + data.length ≤ vaultSize)
  (hclean : anyPoison data = false) (hread : s.readsClean v off data.length)
include hend hclean hread

theorem State.storedSome_clean {t : State} {l : List (Nat × Nat)} (h : s.storedSome t v off data l) :
    t.readsClean v off data.length := by
  intro b hb hb'
  by_cases hcov : ∃ c ∈ l, c.1 ≤ b ∧ b < c.1 + c.2
  · obtain ⟨c, hc, hin, hin'⟩ := hcov
    have hbyte := h.covered c hc (b - off) (by omega) (by omega) (by omega)
    rw [Nat.add_sub_cancel' hb] at hbyte
    rw [hbyte]
    exact snd_of_anyPoison hclean _ _
  · have hout : ∀ c ∈ l, b < c.1 ∨ c.1 + c.2 ≤ b := by
      intro c hc
      by_contra hno
      exact hcov ⟨c, hc, by omega, by omega⟩
    rw [h.others b (by omega) hout]
    exact hread b hb hb'

/-- One more piece enters. -/
theorem State.storedSome_take {t u : State} {l : List (Nat × Nat)} {c : Nat × Nat} {m : Option Merge}
    (h : s.storedSome t v off data l) (hc : linePiece off data.length c)
    (hu : t.tookWrite u v (pieceEntry (s.frameBase v) off data m c).addr (pieceEntry (s.frameBase v) off data m c).bytes) :
    s.storedSome u v off data (l ++ [c]) := by
  obtain ⟨hpos, hfirst, hlast, hline⟩ := hc
  have hlen : (slice data (c.1 - off) c.2).length = c.2 := by
    rw [length_slice]
    omega
  rw [bytes_pieceEntry (s.frameBase_mod v) ⟨hpos, hfirst, hlast, hline⟩, pieceEntry, ← State.atPort_frameBase h.port] at hu
  have hstored := State.stored_of_tookWrite hu (by omega) (by omega) (by omega) (anyPoison_slice hclean _ _)
    (State.readsClean_sub (State.storedSome_clean hend hclean hread h) hfirst (by omega))
  have hin (k : Nat) (hk : k < data.length) (hb : c.1 ≤ off + k) (hb' : off + k < c.1 + c.2) :
      u.byteRead v (off + k) = data[k] := by
    have hbyte := hstored.inside (off + k - c.1) (by omega)
    rw [show c.1 + (off + k - c.1) = off + k by omega, getElem_slice _ _ _ _ _ (by omega)] at hbyte
    rw [hbyte]
    congr 1
    omega
  refine ⟨State.atPort_trans h.port hstored.port, fun e he k hk hb hb' => ?_, fun b hb hout => ?_⟩
  · by_cases hcov : c.1 ≤ off + k ∧ off + k < c.1 + c.2
    · exact hin k hk hcov.1 hcov.2
    · rw [hstored.outside _ (by omega) (by omega)]
      rcases List.mem_append.1 he with he | he
      · exact h.covered e he k hk hb hb'
      · rw [List.mem_singleton.1 he] at hb hb'
        omega
  · have hc := hout c (by simp)
    rw [hstored.outside b hb (by omega)]
    exact h.others b hb fun e he => hout e (List.mem_append_left _ he)

/-- Pieces that enter one after another. -/
theorem State.storedSome_foldl {f : State → Nat × Nat → State} {m : Option Merge}
    (hf : ∀ (t : State) c, t.tookWrite (f t c) v (pieceEntry (s.frameBase v) off data m c).addr
      (pieceEntry (s.frameBase v) off data m c).bytes)
    {t : State} {l : List (Nat × Nat)} (h : s.storedSome t v off data l) (l' : List (Nat × Nat))
    (hl' : ∀ c ∈ l', linePiece off data.length c) : s.storedSome (l'.foldl f t) v off data (l ++ l') := by
  induction l' generalizing t l with
  | nil => rwa [List.append_nil]
  | cons c l' ih =>
    have hstep := State.storedSome_take hend hclean hread h (hl' c List.mem_cons_self) (hf t c)
    have hrest := ih hstep (fun e he => hl' e (List.mem_cons_of_mem _ he))
    rwa [List.append_assoc] at hrest

end

theorem State.tended_bytesWritten (s : State) (v n : Nat) : s.tended (s.incWrap (Reg.vltCntWr_bytes v) n) v :=
  State.tended_setF _ 0x68 rfl (by decide)

/-- All of a write's pieces have entered. -/
theorem State.stored_of_some {s t : State} {v off : Nat} {data : List PByte} {l : List (Nat × Nat)}
    (h : s.storedSome t v off data l) (hl : ∀ c ∈ l, linePiece off data.length c)
    (hcover : ∀ c ∈ cutAt 128 off data.length, c ∈ l) : s.stored t v off data := by
  refine ⟨h.port, fun k hk => ?_, fun b hb hout => h.others b hb fun c hc => ?_⟩
  · obtain ⟨c, hc, hin, hin'⟩ := cutAt_cover (off := off) (n := data.length) (b := off + k) (by omega) (by omega)
    exact h.covered c (hcover c hc) k hk hin hin'
  · obtain ⟨-, hfirst, hlast, -⟩ := hl c hc
    omega

/-- No row of a range that reads clean is retired. -/
theorem State.rowLive_of_clean {s : State} {v off n a : Nat} (h : s.readsClean v off n) (ha : off ≤ a) (ha' : a < off + n) :
    (s.vault v).retired.contains (rowOf (physAddr (s.frameBase v) a)) = false := by
  have hgone := State.notGone_of_clean (h a ha ha')
  rw [State.byteGone, Bool.or_eq_false_iff] at hgone
  exact hgone.2

/-- So every piece of such a range is live. -/
theorem State.live_pieces {s : State} {v off n : Nat} (h : s.readsClean v off n) : (cutAt 128 off n).filter
    (fun c => !(s.vault v).retired.contains (rowOf (physAddr (s.frameBase v) c.1))) = cutAt 128 off n := by
  rw [List.filter_eq_self]
  intro c hc
  obtain ⟨hpos, hfirst, hlast, -⟩ := cutAt_line hc
  rw [State.rowLive_of_clean h hfirst (by omega)]
  rfl

theorem State.noneGone_pieces {s : State} {v off n : Nat} (h : s.readsClean v off n) : (cutAt 128 off n).any
    (fun c => (s.vault v).retired.contains (rowOf (physAddr (s.frameBase v) c.1))) = false := by
  rw [List.any_eq_false]
  intro c hc
  obtain ⟨hpos, hfirst, hlast, -⟩ := cutAt_line hc
  rw [State.rowLive_of_clean h hfirst (by omega)]
  exact Bool.false_ne_true

/-- A clean write of a range that reads clean completes with OK: its bytes are stored, then its watches are told. -/
theorem State.writeVault_stored {s : State} {v off : Nat} {data : List PByte} (hpos : 0 < data.length)
    (hend : off + data.length ≤ vaultSize) (hclean : anyPoison data = false) (hread : s.readsClean v off data.length)
    (narrow : Bool) : ∃ u, s.stored u v off data ∧ s.writeVault v off data narrow =
      ((cutAt 128 off data.length).foldl (fun s c => s.notify v c.1 c.2) u, stOk) := by
  have hlive := State.live_pieces hread
  have hnone := State.noneGone_pieces hread
  have holds : ((mergeWords s v off data.length).filter (fun w => !w.gone)).any (fun w => w.dec.kind.bad) = false := by
    rw [List.any_eq_false]
    intro w hw
    have hmem : w ∈ s.wordsOf v off data.length := List.mem_of_mem_filter (List.mem_of_mem_filter hw)
    rw [(State.wordsOf_clean hread hmem).2]
    exact Bool.false_ne_true
  have hnotes := State.tended_foldl (v := v) (fun (s : State) (w : WordRead) => s.tended_noteWord v w.off w.phys w.dec)
    ((mergeWords s v off data.length).filter (fun w => !w.gone)) s
  have hsome := State.storedSome_foldl hend hclean hread (m := none)
    (fun t c => t.tookWrite_accept v (pieceEntry (s.frameBase v) off data none c))
    (State.storedSome_tended (s.storedSome_nil v off data) hnotes) (cutAt 128 off data.length) (fun c hc => cutAt_line hc)
  have hstored := State.stored_of_some hsome (by simpa using fun a b h => cutAt_line h) (by simp)
  refine ⟨_, State.stored_tended hstored (State.tended_bytesWritten _ v (unitsMoved narrow off data.length)), ?_⟩
  rw [State.writeVault]
  simp only [if_neg (State.notRetired_of_clean hread hpos), if_neg (Nat.pos_iff_ne_zero.1 hpos), hlive, hnone, holds]
  rfl

end Sys2Proof.Machine
end

section
/-!
PROOF. Atomics and watches of a vault, and writes that cover part of a word (06 R218, R219, 02 R82).
-/
namespace Sys2Proof.Machine

/-! ## Watches -/

theorem State.notify_unwatched {s : State} {v : Nat} (h : (s.vault v).watches = []) (off n : Nat) :
    s.notify v off n = s := by
  rw [State.notify]
  simp only [h, List.any_nil]
  rfl

theorem State.foldl_notify_unwatched {s : State} {v : Nat} (h : (s.vault v).watches = []) (l : List (Nat × Nat)) :
    l.foldl (fun s c => s.notify v c.1 c.2) s = s := by
  induction l with
  | nil => rfl
  | cons c l ih => rw [List.foldl_cons, State.notify_unwatched h, ih]

/-- A clean write of a range that reads clean, in a vault without watches. -/
theorem State.writeVault_unwatched {s : State} {v off : Nat} {data : List PByte} (hpos : 0 < data.length)
    (hend : off + data.length ≤ vaultSize) (hclean : anyPoison data = false) (hread : s.readsClean v off data.length)
    (hwatch : (s.vault v).watches = []) (narrow : Bool) :
    s.stored (s.writeVault v off data narrow).1 v off data ∧ (s.writeVault v off data narrow).2 = stOk := by
  obtain ⟨u, hstored, hwrite⟩ := State.writeVault_stored hpos hend hclean hread narrow
  rw [hwrite, State.foldl_notify_unwatched ((Vault.portChanged_watches hstored.port.vault).trans hwatch)]
  exact ⟨hstored, rfl⟩

/-! ## Atomics -/

/-- Part of what a read returns is what a read of that part returns. -/
theorem State.slice_peekVault (s : State) (v a n o m : Nat) (h : o + m ≤ n) :
    slice (s.peekVault v a n) o m = s.peekVault v (a + o) m := by
  apply List.ext_getElem
  · rw [length_slice, State.length_peekVault, State.length_peekVault]
    omega
  · intro k hk hk'
    rw [State.length_peekVault] at hk'
    rw [getElem_slice _ _ _ _ hk (by rw [State.length_peekVault]; omega), State.getElem_peekVault,
      State.getElem_peekVault, Nat.add_assoc]

/-- The value an atomic leaves. -/
def atomicNew (nb aop old : Nat) (operand compare : List PByte) : List PByte :=
  clean (toLE nb (atomicOp (8 * nb) aop old (leP (operand.take nb)) (leP (compare.take nb))))

theorem length_atomicNew (nb aop old : Nat) (operand compare : List PByte) :
    (atomicNew nb aop old operand compare).length = nb := by
  rw [atomicNew, length_clean, length_toLE]

/-- An atomic with clean operands on a word that reads clean, in a vault without watches: the old value, and the new one
stored (06 R219). -/
theorem State.atomicVault_unwatched {s : State} {v off aop nb : Nat} {wide : Bool} {operand compare : List PByte}
    (hnb : nb = if wide then 8 else 4) (hal : off % nb = 0) (hend : off + nb ≤ vaultSize)
    (hread : s.readsClean v (off / 8 * 8) 8) (hop : anyPoison operand = false) (hcmp : anyPoison compare = false)
    (hwatch : (s.vault v).watches = []) :
    s.stored (s.atomicVault v off aop wide operand compare).1 v off
        (atomicNew nb aop (leP (s.peekVault v off nb)) operand compare) ∧
      (s.atomicVault v off aop wide operand compare).2 = (clean (toLE 8 (leP (s.peekVault v off nb))), stOk) := by
  have hnb' : nb = 8 ∨ nb = 4 := by
    cases wide with
    | true => exact .inl hnb
    | false => exact .inr hnb
  have hin : off - off / 8 * 8 + nb ≤ 8 := by rcases hnb' with h | h <;> subst h <;> omega
  have hdata := s.readVault_data v (off / 8 * 8) 8 true
  have hstatus := State.readVault_status hread (by decide) true
  have htended := s.tended_readVault v (off / 8 * 8) 8 true
  have hclean := (s.anyPoison_peekVault v (off / 8 * 8) 8).2 hread
  have hold : leP (slice (s.peekVault v (off / 8 * 8) 8) (off - off / 8 * 8) nb) = leP (s.peekVault v off nb) := by
    rw [State.slice_peekVault _ _ _ _ _ _ hin, show off / 8 * 8 + (off - off / 8 * 8) = off by omega]
  have hwrite := State.writeVault_unwatched (s := (s.readVault v (off / 8 * 8) 8 true).1) (off := off)
    (data := atomicNew nb aop (leP (s.peekVault v off nb)) operand compare)
    (by rw [length_atomicNew]; omega) (by rw [length_atomicNew]; exact hend) (anyPoison_clean _)
    (by
      rw [length_atomicNew]
      exact State.readsClean_sub (State.readsClean_tended hread htended) (by omega) (by omega))
    ((Vault.portChanged_watches htended.port.vault).trans hwatch) true
  have hatomic : s.atomicVault v off aop wide operand compare =
      (((s.readVault v (off / 8 * 8) 8 true).1.writeVault v off
        (atomicNew nb aop (leP (s.peekVault v off nb)) operand compare) true).1,
        clean (toLE 8 (leP (s.peekVault v off nb))), stOk) := by
    rw [State.atomicVault, if_neg (State.notRetired_of_clean hread (by decide))]
    simp only [hdata, hstatus, hclean, hop, hcmp, Bool.and_false, Bool.or_false, ← hnb, hold]
    rfl
  rw [hatomic]
  exact ⟨State.stored_of_tended htended hwrite.1, rfl⟩

/-! ## Writes that cover part of a word (06 R218) -/

/-- The cut of a range that starts or ends inside a word leaves a piece that does. -/
theorem cutAt_partial {off n : Nat} (hn : 0 < n) (h : partialWords off n = true) :
    ∃ c ∈ cutAt 128 off n, partialWords c.1 c.2 = true := by
  simp only [partialWords, Bool.or_eq_true, bne_iff_ne] at h
  rcases h with h | h
  · obtain ⟨c, hc, hin, hin'⟩ := cutAt_cover (off := off) (n := n) (b := off) (by omega) (by omega)
    have hfirst := (cutAt_line hc).first
    refine ⟨c, hc, ?_⟩
    simp only [partialWords, Bool.or_eq_true, bne_iff_ne]
    left
    rwa [show c.1 = off by omega]
  · obtain ⟨c, hc, hin, hin'⟩ := cutAt_cover (off := off) (n := n) (b := off + n - 1) (by omega) (by omega)
    have hlast := (cutAt_line hc).last
    refine ⟨c, hc, ?_⟩
    simp only [partialWords, Bool.or_eq_true, bne_iff_ne]
    right
    rwa [show c.1 + c.2 = off + n by omega]

/-- A clean write that covers part of a word, to a range that reads clean in a vault without watches: its bytes are
stored, and its answer waits for its merge. -/
theorem State.acceptPartial_unwatched {s : State} {v off : Nat} {data : List PByte} (hpos : 0 < data.length)
    (hend : off + data.length ≤ vaultSize) (hclean : anyPoison data = false) (hread : s.readsClean v off data.length)
    (hwatch : (s.vault v).watches = []) (hpart : partialWords off data.length = true) (narrow : Bool)
    (reply : Option Packet) : s.stored (s.acceptPartial v off data narrow reply) v off data := by
  have hlive := State.live_pieces hread
  have hnone := State.noneGone_pieces hread
  have hparts : ((cutAt 128 off data.length).filter (fun c => partialWords c.1 c.2)).isEmpty = false := by
    obtain ⟨c, hc, hpartc⟩ := cutAt_partial hpos hpart
    rw [← Bool.not_eq_true, List.isEmpty_iff]
    exact List.ne_nil_of_mem (List.mem_filter.2 ⟨hc, hpartc⟩)
  have hwhole := State.storedSome_foldl hend hclean hread (m := none)
    (fun t c => t.tookWrite_accept v (pieceEntry (s.frameBase v) off data none c))
    (State.storedSome_tended (s.storedSome_nil v off data)
      (State.tended_bytesWritten s v (unitsMoved narrow off data.length)))
    ((cutAt 128 off data.length).filter (fun c => !partialWords c.1 c.2))
    (fun c hc => cutAt_line (List.mem_of_mem_filter hc))
  have hall := State.storedSome_foldl hend hclean hread
    (m := some ⟨nextGroup (s.vault v), stOk, reply⟩)
    (fun t c => t.tookWrite_bufPut v (pieceEntry (s.frameBase v) off data (some ⟨nextGroup (s.vault v), stOk, reply⟩) c))
    (State.storedSome_tended hwhole (State.tended_makeRoom _ v
      ((cutAt 128 off data.length).filter (fun c => partialWords c.1 c.2)).length))
    ((cutAt 128 off data.length).filter (fun c => partialWords c.1 c.2))
    (fun c hc => cutAt_line (List.mem_of_mem_filter hc))
  have hstored := State.stored_of_some hall
    (fun c hc => cutAt_line (by
      rcases List.mem_append.1 hc with hc | hc
      · exact List.mem_of_mem_filter hc
      · exact List.mem_of_mem_filter hc))
    (fun c hc => by
      cases hpc : partialWords c.1 c.2 with
      | true => exact List.mem_append_right _ (List.mem_filter.2 ⟨hc, hpc⟩)
      | false => exact List.mem_append_left _ (List.mem_filter.2 ⟨hc, by rw [hpc]; rfl⟩))
  rw [State.acceptPartial]
  simp only [hlive, hnone, hparts, Bool.false_eq_true, if_false]
  rw [State.foldl_notify_unwatched]
  · exact hstored
  · exact (Vault.portChanged_watches hstored.port.vault).trans hwatch

end Sys2Proof.Machine
end

section
/-!
PROOF. Requests at a vault port where none waits, merges and drains, and the weighted round-robin (06 R217 to R225, O34).
-/
namespace Sys2Proof.Machine

/-! ## A request that is served at once -/

/-- A request that can be served unaccepted can be served accepted. -/
theorem State.reqReady_accepted {s : State} {v : Nat} {q : VReq} (h : s.reqReady v false q = true) (acc : Bool) :
    s.reqReady v acc q = true := by
  cases acc with
  | false => exact h
  | true =>
    unfold State.reqReady at h ⊢
    simp only [Bool.false_and, Bool.or_false, Bool.or_true, Bool.true_and] at h ⊢
    split
    · rfl
    · rename_i hret
      rw [if_neg hret] at h
      cases q with
      | write off data => exact h
      | read off n =>
        simp only [Bool.and_eq_true, Bool.or_eq_true] at h ⊢
        exact ⟨.inl h.1, h.2⟩
      | watch off who =>
        simp only [Bool.and_eq_true, Bool.or_eq_true] at h ⊢
        exact ⟨.inl h.1, h.2⟩
      | atomic off aop wide operand compare =>
        simp only [Bool.and_eq_true, Bool.or_eq_true] at h ⊢
        exact ⟨⟨.inl h.1.1, h.1.2⟩, h.2⟩

/-- A request of the package as its port accepts it. -/
def State.accepted (s : State) (v : Nat) (q : VReq) (cls : ReqClass) (narrow : Bool) : VWait :=
  let w : VWait := { req := q, cls := cls, narrow := narrow, reply := none, left := 0, acc := false, via := 0 }
  { w with left := w.accesses, acc := s.portOpen v && !q.isWrite }

/-- A request of the package to a port where none waits, that can be served now: it is granted and served. -/
theorem State.submit_served {s : State} {v : Nat} {q : VReq} (hwait : (s.vault v).waiting = [])
    (hready : s.reqReady v false q = true) (cls : ReqClass) (narrow : Bool) :
    ∃ u, s.tended u v ∧ s.submit v q cls narrow = u.serve v (s.accepted v q cls narrow) := by
  have hgrant := s.tended_bookAs v cls (s.accepted v q cls narrow).onNarrow (s.accepted v q cls narrow).left
  refine ⟨_, hgrant, ?_⟩
  rw [State.submit, State.arrive]
  simp only [hwait, List.isEmpty_nil, Bool.true_and, State.reqReady_accepted hready, if_true]
  rfl

theorem State.readsClean_of_pieces {s : State} {v off pos n : Nat} (h : s.piecesClean [⟨.vault v off, pos, n⟩]) :
    s.readsClean v off n := by
  obtain ⟨w, a, hat, hret, hstatus⟩ := h _ List.mem_cons_self
  obtain ⟨rfl, rfl⟩ : v = w ∧ off = a := by simpa [Piece.at_] using hat
  exact State.readsClean_of_status hret hstatus

theorem State.vaultsKept_of_tended {s t : State} {v : Nat} (h : s.tended t v) : s.vaultsKeptBut t [] :=
  fun w b _ _ => State.tended_vaultByte h w b

theorem State.holds_of_stored {s t : State} {v off : Nat} {data : List PByte} (h : s.stored t v off data) :
    t.vaultHolds8 v off data := fun k hk => (t.vaultByte_eq v _).trans (h.inside k hk)

theorem State.kept_of_stored {s t : State} {v off : Nat} {data : List PByte} (h : s.stored t v off data) :
    s.vaultKept t v off data.length := fun b hb hout => by
  rw [State.vaultByte_eq, State.vaultByte_eq]
  exact h.outside b hb hout

/-- What a port answers is no part of a vault. -/
theorem State.holds_emit {t : State} {v off : Nat} {data : List PByte} (h : t.vaultHolds8 v off data) (o : Out) :
    (t.emit o).vaultHolds8 v off data := h

theorem State.kept_emit {s t : State} {v off n : Nat} (h : s.vaultKept t v off n) (o : Out) :
    s.vaultKept (t.emit o) v off n := h

theorem State.vaultsKept_emit {s t : State} {ps : List Piece} (h : s.vaultsKeptBut t ps) (o : Out) :
    s.vaultsKeptBut (t.emit o) ps := h

/-- A read that is served. -/
theorem State.submit_read {s : State} {v off n : Nat} (hwait : (s.vault v).waiting = [])
    (hready : s.reqReady v false (.read off n) = true) (hread : s.readsClean v off n) (hn : 0 < n) (cls : ReqClass)
    (narrow : Bool) : s.vaultsKeptBut (s.submit v (.read off n) cls narrow) [] ∧
      (s.submit v (.read off n) cls narrow).out = s.out ++ [.vaultData v stOk (s.peekVault v off n)] := by
  obtain ⟨u, htended, hserve⟩ := State.submit_served hwait hready cls narrow
  have hserved : u.serve v (s.accepted v (.read off n) cls narrow) =
      (u.readVault v off n narrow).1.emit (.vaultData v stOk (s.peekVault v off n)) := by
    rw [← State.tended_peekVault htended, ← u.readVault_data v off n narrow,
      ← State.readVault_status (State.readsClean_tended hread htended) hn narrow]
    rfl
  have hall := State.tended_trans htended (u.tended_readVault v off n narrow)
  rw [hserve, hserved]
  refine ⟨State.vaultsKept_emit (State.vaultsKept_of_tended hall) _, ?_⟩
  rw [State.emit, State.atPort_out hall.port]

/-- A write that is served: stored, and answered unless its merge is outstanding. -/
theorem State.submit_write {s : State} {v off : Nat} {data : List PByte} (hwait : (s.vault v).waiting = [])
    (hready : s.reqReady v false (.write off data) = true) (hread : s.readsClean v off data.length)
    (hpos : 0 < data.length) (hend : off + data.length ≤ vaultSize) (hclean : anyPoison data = false)
    (hwatch : (s.vault v).watches = []) (cls : ReqClass) (narrow : Bool) :
    let t := s.submit v (.write off data) cls narrow
    t.vaultHolds8 v off data ∧ s.vaultKept t v off data.length ∧
      t.out = s.out ++ if partialWords off data.length then [] else [.vaultAck v stOk []] := by
  obtain ⟨u, htended, hserve⟩ := State.submit_served hwait hready cls narrow
  have hread' := State.readsClean_tended hread htended
  have hwatch' := (Vault.portChanged_watches htended.port.vault).trans hwatch
  have hret : (u.vaultState v != vsRetired) = true := by
    rw [bne_iff_ne]
    exact State.notRetired_of_clean hread' hpos
  simp only [hserve]
  cases hpart : partialWords off data.length with
  | true =>
    have hstored := State.stored_of_tended htended
      (State.acceptPartial_unwatched hpos hend hclean hread' hwatch' hpart narrow none)
    have hserved : u.serve v (s.accepted v (.write off data) cls narrow) = u.acceptPartial v off data narrow none := by
      refine Eq.trans (b := if partialWords off data.length && u.vaultState v != vsRetired then
        u.acceptPartial v off data narrow none else (u.writeVault v off data narrow).1.respond v 1 none
          (u.writeVault v off data narrow).2 []) rfl ?_
      rw [hpart, hret, Bool.and_self, if_pos rfl]
    rw [hserved, State.atPort_out hstored.port]
    exact ⟨State.holds_of_stored hstored, State.kept_of_stored hstored, (List.append_nil _).symm⟩
  | false =>
    obtain ⟨hwritten, hstatus⟩ := State.writeVault_unwatched hpos hend hclean hread' hwatch' narrow
    have hstored := State.stored_of_tended htended hwritten
    have hserved : u.serve v (s.accepted v (.write off data) cls narrow) =
        (u.writeVault v off data narrow).1.emit (.vaultAck v stOk []) := by
      refine Eq.trans (b := if partialWords off data.length && u.vaultState v != vsRetired then
        u.acceptPartial v off data narrow none else (u.writeVault v off data narrow).1.respond v 1 none
          (u.writeVault v off data narrow).2 []) rfl ?_
      rw [hpart, Bool.false_and, if_neg Bool.false_ne_true, hstatus]
      rfl
    rw [hserved]
    refine ⟨State.holds_emit (State.holds_of_stored hstored) _, State.kept_emit (State.kept_of_stored hstored) _, ?_⟩
    rw [State.emit, State.atPort_out hstored.port]
    rfl

/-- An atomic that is served. -/
theorem State.submit_atomic {s : State} {v off aop nb : Nat} {wide : Bool} {operand compare : List PByte}
    (hwait : (s.vault v).waiting = []) (hready : s.reqReady v false (.atomic off aop wide operand compare) = true)
    (hnb : nb = if wide then 8 else 4) (hal : off % nb = 0) (hend : off + nb ≤ vaultSize)
    (hread : s.readsClean v (off / 8 * 8) 8) (hop : anyPoison operand = false) (hcmp : anyPoison compare = false)
    (hwatch : (s.vault v).watches = []) (cls : ReqClass) (narrow : Bool) :
    let t := s.submit v (.atomic off aop wide operand compare) cls narrow
    let old := leP (s.peekVault v off nb)
    t.out = s.out ++ [.vaultAck v stOk (clean (toLE 8 old))] ∧
      t.vaultHolds8 v off (atomicNew nb aop old operand compare) ∧ s.vaultKept t v off nb := by
  obtain ⟨u, htended, hserve⟩ := State.submit_served hwait hready cls narrow
  obtain ⟨hnew, hold⟩ := State.atomicVault_unwatched (aop := aop) hnb hal hend (State.readsClean_tended hread htended) hop
    hcmp ((Vault.portChanged_watches htended.port.vault).trans hwatch)
  rw [State.tended_peekVault htended] at hnew hold
  have hstored := State.stored_of_tended htended hnew
  have hserved : u.serve v (s.accepted v (.atomic off aop wide operand compare) cls narrow) =
      (u.atomicVault v off aop wide operand compare).1.emit
        (.vaultAck v stOk (clean (toLE 8 (leP (s.peekVault v off nb))))) := by
    have hserve' : u.serve v (s.accepted v (.atomic off aop wide operand compare) cls narrow) =
        (u.atomicVault v off aop wide operand compare).1.respond v 2 none
          (u.atomicVault v off aop wide operand compare).2.2 (u.atomicVault v off aop wide operand compare).2.1 := rfl
    rw [hserve', hold]
    rfl
  have hkept := State.kept_of_stored hstored
  rw [length_atomicNew] at hkept
  simp only [hserve, hserved]
  refine ⟨?_, State.holds_emit (State.holds_of_stored hstored) _, State.kept_emit hkept _⟩
  rw [State.emit, State.atPort_out hstored.port]

/-! ## Watches -/

/-- A change of a vault beside its contents is read by no request. -/
theorem State.byteRead_setVault {s : State} {v : Nat} {y : Vault} (hbg : y.bg = (s.vault v).bg)
    (hepoch : y.epoch = (s.vault v).epoch) (hmem : y.mem = (s.vault v).mem)
    (hbuf : ∀ d m, EccMem.over d m y.wbuf = EccMem.over d m (s.vault v).wbuf)
    (hret : y.retired = (s.vault v).retired) (w b : Nat) : (s.setVault v y).byteRead w b = s.byteRead w b := by
  have hdefault : wordDefault v y = wordDefault v (s.vault v) := by
    funext k
    rw [wordDefault, wordDefault, hbg, hepoch]
  by_cases hw : w = v
  · subst hw
    have hgone : (s.setVault w y).byteGone w b = s.byteGone w b := by
      rw [State.byteGone, State.byteGone, State.vault_setVault, if_pos rfl, hret]
      rfl
    have hseen (p : Nat) : y.byteSeen w p = (s.vault w).byteSeen w p := by
      rw [Vault.byteSeen, Vault.byteSeen, Vault.wordSeen_eq, Vault.wordSeen_eq, hdefault, hbuf, hmem]
    rw [State.byteRead, State.byteRead, hgone, State.vault_setVault, if_pos rfl, hseen]
    rfl
  · have hgone : (s.setVault v y).byteGone w b = s.byteGone w b := by
      rw [State.byteGone, State.byteGone, State.vault_setVault, if_neg hw]
      rfl
    rw [State.byteRead, State.byteRead, hgone, State.vault_setVault, if_neg hw]
    rfl

/-- A vault with one more watch. -/
def Vault.watched (x : Vault) (off : Nat) (who : Watcher) : Vault := { x with watches := x.watches ++ [⟨off, who⟩] }

theorem State.byteRead_watched (s : State) (v off : Nat) (who : Watcher) (w b : Nat) :
    (s.setVault v ((s.vault v).watched off who)).byteRead w b = s.byteRead w b :=
  State.byteRead_setVault (y := (s.vault v).watched off who) rfl rfl rfl (fun _ _ => rfl) rfl w b

theorem State.installWatch_eq {s : State} {v : Nat} (h : (s.vault v).watches.length < watchMax) (off : Nat)
    (who : Watcher) : s.installWatch v off who =
      some ((s.setVault v ((s.vault v).watched off who)).readVault v off 8 true) := by
  rw [State.installWatch]
  simp only [if_neg (Nat.not_le.2 h)]
  rfl

/-- A watch that is installed: its flag is read, and nothing reads otherwise (02 R82). -/
theorem State.readWatched {s : State} {v off : Nat} (who : Watcher) (hread : s.readsClean v off 8) :
    let r := (s.setVault v ((s.vault v).watched off who)).readVault v off 8 true
    r.2 = (s.peekVault v off 8, stOk) ∧ (∀ w b, r.1.byteRead w b = s.byteRead w b) ∧
      (s.setVault v ((s.vault v).watched off who)).tended r.1 v := by
  have hsame := s.byteRead_watched v off who
  have htended := (s.setVault v ((s.vault v).watched off who)).tended_readVault v off 8 true
  have hclean : (s.setVault v ((s.vault v).watched off who)).readsClean v off 8 := fun b hb hb' => by
    rw [hsame]
    exact hread b hb hb'
  refine ⟨Prod.ext ?_ (State.readVault_status hclean (by decide) true), fun w b => ?_, htended⟩
  · rw [State.readVault_data, State.peekVault_eq_byteRead, State.peekVault_eq_byteRead]
    simp only [hsame]
  · rw [← State.vaultByte_eq, State.tended_vaultByte htended, State.vaultByte_eq, hsame]

/-- A watch of the package that is served. -/
theorem State.submit_watch {s : State} {v off : Nat} {who : Watcher} (hwait : (s.vault v).waiting = [])
    (hready : s.reqReady v false (.watch off who) = true) (hread : s.readsClean v off 8)
    (hroom : (s.vault v).watches.length < watchMax) (cls : ReqClass) (narrow : Bool) :
    let t := s.submit v (.watch off who) cls narrow
    t.out = s.out ++ [.vaultAck v stOk (s.peekVault v off 8)] ∧
      (t.vault v).watches = (s.vault v).watches ++ [⟨off, who⟩] ∧ s.vaultsKeptBut t [] := by
  obtain ⟨u, htended, hserve⟩ := State.submit_served hwait hready cls narrow
  have hwatches := Vault.portChanged_watches htended.port.vault
  have hinstall := State.installWatch_eq (hwatches ▸ hroom : (u.vault v).watches.length < watchMax) off who
  obtain ⟨hr, hbyte, hport⟩ := State.readWatched who (State.readsClean_tended hread htended)
  have hserved : u.serve v (s.accepted v (.watch off who) cls narrow) =
      ((u.setVault v ((u.vault v).watched off who)).readVault v off 8 true).1.emit
        (.vaultAck v stOk (s.peekVault v off 8)) := by
    refine Eq.trans (b := match u.installWatch v off who with
      | none => u.respond v 5 none stNoResource []
      | some r => r.1.respond v 3 none r.2.2 r.2.1) rfl ?_
    rw [hinstall]
    simp only [hr, State.tended_peekVault htended]
    rfl
  simp only [hserve, hserved]
  refine ⟨?_, ?_, fun w b _ _ => ?_⟩
  · rw [State.emit, State.atPort_out hport.port]
    exact congrArg (· ++ [.vaultAck v stOk (s.peekVault v off 8)]) (State.atPort_out htended.port)
  · have hkept := Vault.portChanged_watches hport.port.vault
    rw [State.vault_setVault, if_pos rfl] at hkept
    exact hkept.trans (congrArg (fun l => l ++ [(⟨off, who⟩ : Watch)]) hwatches)
  · refine (State.vaultByte_eq _ w b).trans ((hbyte w b).trans ?_)
    rw [← State.vaultByte_eq, State.tended_vaultByte htended]

/-! ## Merges and drains -/

theorem arbPick_idle (w : List Nat) (a : Arb) : arbPick w a ((List.range 4).map (fun _ => false)) = none := by
  have hget (c : Nat) : ((List.range 4).map (fun _ => false)).getD c false = false := by
    match c with
    | 0 | 1 | 2 | 3 | _ + 4 => rfl
  simp only [arbPick, hget, Bool.false_and, List.filter_false, List.isEmpty_nil, if_true, Bool.and_false,
    Bool.false_eq_true, if_false]

/-- A port where no request waits grants none. -/
theorem State.grantOne_idle {s : State} {v : Nat} (h : (s.vault v).waiting = []) (narrow : Bool) :
    s.grantOne v narrow = (s, false) := by
  have hnone (first : Bool) : preferWrites first [] = [] := by cases first <;> rfl
  rw [State.grantOne]
  simp only [h, State.grantable, List.filter_nil, hnone, List.any_nil, arbPick_idle]

theorem State.serveWaiting_idle {s : State} {v : Nat} (h : (s.vault v).waiting = []) : s.serveWaiting v = s := by
  have hturns : (s.vault v).turns = 1 := by rw [Vault.turns, h]; rfl
  rw [State.serveWaiting, hturns, State.grants, State.grantOne_idle h, State.grantOne_idle h]
  rfl

theorem State.eccFirst_vault (s : State) (v off kind : Nat) (d : Decoded) (w : Nat) :
    (s.eccFirst v off kind d).vault w = s.vault w := by
  rw [State.eccFirst]
  split
  · rfl
  · simp only [State.setF_vault]

theorem State.ceNote_wbuf (s : State) (v off p : Nat) : ((s.ceNote v off p).vault v).wbuf = (s.vault v).wbuf := by
  have htable (t : List CeRow) : ((s.setVault v { s.vault v with ceTable := t }).vault v).wbuf = (s.vault v).wbuf := by
    rw [State.vault_setVault, if_pos rfl]
  have hite {c : Prop} [Decidable c] (t u : State) (ht : (t.vault v).wbuf = (s.vault v).wbuf)
      (hu : (u.vault v).wbuf = (s.vault v).wbuf) : ((if c then t else u).vault v).wbuf = (s.vault v).wbuf := by
    split
    · exact ht
    · exact hu
  rw [State.ceNote]
  exact hite _ _ (htable _) (htable _)

theorem State.noteWord_wbuf (s : State) (v off p : Nat) (d : Decoded) :
    ((s.noteWord v off p d).vault v).wbuf = (s.vault v).wbuf := by
  rw [State.noteWord]
  cases d.kind with
  | clean => rfl
  | corrected => simp only [State.ceNote_wbuf, State.record_vault, State.eccFirst_vault, State.incSat_vault]
  | uncorrectable => simp only [State.record_vault, State.eccFirst_vault, State.incSat_vault]
  | poisoned => simp only [State.eccFirst_vault, State.incSat_vault]

theorem State.foldl_noteWord_wbuf {α : Type} (v : Nat) (f : α → Nat × Nat × Decoded) (l : List α) (s : State) :
    ((l.foldl (fun s w => s.noteWord v (f w).1 (f w).2.1 (f w).2.2) s).vault v).wbuf = (s.vault v).wbuf := by
  induction l generalizing s with
  | nil => rfl
  | cons w l ih => rw [List.foldl_cons, ih, State.noteWord_wbuf]

/-- An entry of the write buffer with no merge of a group outstanding. -/
def WEntry.merged (g : Merge) (e : WEntry) : WEntry := if e.merge = some g then { e with merge := none } else e

theorem over_merged (g : Merge) (es : List WEntry) (d : Nat → Codeword) (m : EccMem) :
    EccMem.over d m (es.map (WEntry.merged g)) = EccMem.over d m es := by
  induction es generalizing m with
  | nil => rfl
  | cons e es ih =>
    have he : (e.merged g).addr = e.addr ∧ (e.merged g).bytes = e.bytes := by
      rw [WEntry.merged]
      split
      · exact ⟨rfl, rfl⟩
      · exact ⟨rfl, rfl⟩
    have hstep : EccMem.over d m ((e :: es).map (WEntry.merged g)) =
        EccMem.over d (EccMem.write d m (e.merged g).addr (e.merged g).bytes) (es.map (WEntry.merged g)) := rfl
    rw [hstep, he.1, he.2]
    exact ih _

theorem WEntry.merged_ne (g : Merge) (e : WEntry) : (e.merged g).merge ≠ some g := by
  rw [WEntry.merged]
  split
  · exact fun h => nomatch h
  · assumption

/-- A vault whose entries of a group are merged. -/
def Vault.mergedGroup (x : Vault) (g : Merge) : Vault := { x with wbuf := x.wbuf.map (WEntry.merged g) }

theorem State.byteRead_merged (s : State) (v : Nat) (g : Merge) (w b : Nat) :
    (s.setVault v ((s.vault v).mergedGroup g)).byteRead w b = s.byteRead w b :=
  State.byteRead_setVault (y := (s.vault v).mergedGroup g) rfl rfl rfl (over_merged g _) rfl w b

/-- A merge of a write of the package, where no request waits (06 R218). -/
theorem State.mergeGroup_answers {s : State} {v : Nat} {g : Merge} (hwait : (s.vault v).waiting = [])
    (hreply : g.reply = none) : ∃ st, (s.mergeGroup v g).out = s.out ++ [.vaultAck v st []] ∧
      s.vaultsKeptBut (s.mergeGroup v g) [] ∧ (∀ f ∈ ((s.mergeGroup v g).vault v).wbuf, f.merge ≠ some g) ∧
      ((s.mergeGroup v g).vault v).wbuf.length = (s.vault v).wbuf.length := by
  obtain ⟨u, hu, hbuf, st, hmerge⟩ : ∃ u, s.tended u v ∧ (u.vault v).wbuf = (s.vault v).wbuf ∧ ∃ st, s.mergeGroup v g =
      ((u.setVault v ((u.vault v).mergedGroup g)).respond v 1 g.reply st []).serveWaiting v := by
    refine ⟨_, State.tended_foldl (fun (t : State) (w : Nat × Decoded) =>
      t.tended_noteWord v (offsetOf (s.frameBase v) (8 * w.1)) (8 * w.1) w.2) _ s, ?_, _, rfl⟩
    exact State.foldl_noteWord_wbuf v
      (fun w : Nat × Decoded => (offsetOf (s.frameBase v) (8 * w.1), 8 * w.1, w.2)) _ s
  have hidle : (((u.setVault v ((u.vault v).mergedGroup g)).respond v 1 g.reply st []).vault v).waiting = [] := by
    rw [hreply]
    refine (congrArg Vault.waiting (State.vault_setVault u v _ v)).trans ?_
    rw [if_pos rfl]
    exact (Vault.portChanged_waiting hu.port.vault).trans hwait
  have hvault : ((s.mergeGroup v g).vault v).wbuf = (s.vault v).wbuf.map (WEntry.merged g) := by
    rw [hmerge, State.serveWaiting_idle hidle, hreply]
    refine (congrArg Vault.wbuf (State.vault_setVault u v _ v)).trans ?_
    rw [if_pos rfl, ← hbuf]
    rfl
  refine ⟨st, ?_, fun w b _ _ => ?_, fun f hf => ?_, ?_⟩
  · rw [hmerge, State.serveWaiting_idle hidle, hreply]
    exact congrArg (· ++ [.vaultAck v st []]) (State.atPort_out hu.port)
  · rw [hmerge, State.serveWaiting_idle hidle, hreply]
    refine (State.vaultByte_eq _ w b).trans ((u.byteRead_merged v g w b).trans ?_)
    rw [← State.vaultByte_eq, State.tended_vaultByte hu]
  · rw [hvault, List.mem_map] at hf
    obtain ⟨e, -, rfl⟩ := hf
    exact e.merged_ne g
  · rw [hvault, List.length_map]

theorem State.setBank_wbuf (s : State) (v b : Nat) (y : Bank) :
    ((s.setVault v ((s.vault v).setBank b y)).vault v).wbuf = (s.vault v).wbuf := by
  rw [State.vault_setVault, if_pos rfl]
  rfl

theorem State.touchRow_wbuf (s : State) (v p : Nat) : ((s.touchRow v p).vault v).wbuf = (s.vault v).wbuf := by
  rw [State.touchRow]
  split
  · exact s.setBank_wbuf v _ _
  · rw [State.incWrap_vault]
    exact s.setBank_wbuf v _ _

/-- A drain of an entry that may leave, where no request waits (06 R217). -/
theorem State.drainAt_drains {s : State} {v k : Nat} {e : WEntry} (he : (s.vault v).wbuf[k]? = some e)
    (hfree : (s.vault v).blocked (bankOf e.addr) = false)
    (hline : ((s.vault v).wbuf.take k).any (fun f => f.addr / 128 == e.addr / 128) = false) :
    s.tended (s.drainAt v k) v ∧ ((s.drainAt v k).vault v).wbuf = dropAt (s.vault v).wbuf k := by
  have hdrain : s.drainAt v k = (s.setVault v ((s.vault v).drained v k e)).touchRow v e.addr := by
    rw [State.drainAt]
    simp only [he, hfree, hline, Bool.or_self, Bool.false_eq_true, if_false]
    rfl
  rw [hdrain]
  constructor
  · refine State.tended_trans (State.tended_drained he fun f hf hsame => ?_) (State.tended_touchRow _ _ _)
    have hnot := List.any_eq_false.1 hline f hf
    simp [hsame] at hnot
  · rw [State.touchRow_wbuf, State.vault_setVault, if_pos rfl]
    rfl

theorem vaultPortAnswers : Claims.VaultPortAnswers := by
  intro s v off cls narrow a x free
  refine ⟨fun n hfree hn hend => ?_, fun data hfree hdata hend hclean hwatch => ?_,
    fun aop wide op cmp hfree haop hop hcmp hal hopc hcmpc hwatch => ?_, fun who hfree hal hroom => ?_,
    fun k e g hwait he hg hreply hbusy => ?_, fun k e hwait he hblocked hline => ?_⟩
  · obtain ⟨hwait, hready, -, hpieces⟩ := hfree
    obtain ⟨hkept, hout⟩ := State.submit_read hwait hready (State.readsClean_of_pieces hpieces) hn cls narrow
    refine ⟨_, ?_, hkept, hout⟩
    change execVaultRead v off n cls narrow s = _
    rw [execVaultRead, if_neg (by omega)]
    rfl
  · obtain ⟨hwait, hready, -, hpieces⟩ := hfree
    have hpos := List.length_pos_of_ne_nil hdata
    obtain ⟨hholds, hkept, hout⟩ := State.submit_write hwait hready (State.readsClean_of_pieces hpieces) hpos hend hclean
      hwatch cls narrow
    refine ⟨_, ?_, hholds, hkept, fun hpart => ?_, fun hpart => ?_⟩
    · change execVaultWrite v off data cls narrow s = _
      rw [execVaultWrite, if_neg (by omega)]
      rfl
    · rw [hpart] at hout
      exact hout
    · rw [hpart] at hout
      exact hout.trans (List.append_nil _)
  · obtain ⟨hwait, hready, hword, -⟩ := hfree
    have hlt := off.isLt
    have hsize : vaultSize = 2 ^ 29 := rfl
    have hend : a + (if wide then 8 else 4) ≤ vaultSize := by
      cases wide with
      | true => simp only [if_true] at hal ⊢; omega
      | false => simp only [Bool.false_eq_true, if_false] at hal ⊢; omega
    obtain ⟨hout, hholds, hkept⟩ := State.submit_atomic hwait hready rfl hal hend (State.readsClean_of_pieces hword) hopc
      hcmpc hwatch .remote true
    refine ⟨_, ?_, hout, hholds, hkept⟩
    change execVaultAtomic v off aop wide op cmp s = _
    rw [execVaultAtomic, if_neg (by
      rintro (h | h | ⟨-, h⟩ | h)
      · omega
      · exact h hop
      · exact h hcmp
      · exact h hal)]
    rfl
  · obtain ⟨hwait, hready, -, hpieces⟩ := hfree
    obtain ⟨hout, hwatches, hkept⟩ := State.submit_watch hwait hready (State.readsClean_of_pieces hpieces) hroom
      (if who = v then .coreRead else .remote) true
    refine ⟨_, ?_, hout, hwatches, hkept⟩
    change execWatchInstall v off who s = _
    rw [execWatchInstall, if_neg (by omega)]
    rfl
  · obtain ⟨st, hout, hkept, hmerged, hlen⟩ := State.mergeGroup_answers (g := g) hwait hreply
    refine ⟨_, st, ?_, hout, hkept, hmerged, hlen⟩
    change execPartialWordMerge v k s = _
    have hk : ((s.vault v).wbuf[k]?).bind WEntry.merge = some g := by rw [he]; exact hg
    rw [execPartialWordMerge]
    simp only [hk]
    rw [if_neg (by rw [hbusy]; exact Bool.false_ne_true)]
    rfl
  · obtain ⟨htended, hbuf⟩ := State.drainAt_drains he hblocked hline
    refine ⟨_, ?_, hbuf, State.vaultsKept_of_tended htended⟩
    change execWriteBufferDrain v k s = _
    rw [execWriteBufferDrain, State.serveWaiting_idle ((Vault.portChanged_waiting htended.port.vault).trans hwait)]
    rfl

end Sys2Proof.Machine
end

section
/-!
PROOF. The weighted round-robin (06 R224, R225, 10 R400, 11 R418): the grant as a search from the pointer (O34).
-/
namespace Sys2Proof.Machine

/-- Does a class take part in the turns: it requests, and it is not the fourth class at weight 0? -/
def arbAsks (w : List Nat) (req : List Bool) (c : Nat) : Bool := req.getD c false && !(w.getD 3 0 == 0 && c == 3)

/-- The classes in the order of their turns. -/
def arbTurn (a : Arb) (k : Nat) : Nat := (a.ptr + k) % 4

/-- Does a class that takes part hold a credit? -/
def arbHeld (w : List Nat) (a : Arb) (req : List Bool) : Prop :=
  ∃ d, d < 4 ∧ arbAsks w req d = true ∧ 0 < a.credit.getD d 0

/-- The classes that take part, in the order of their turns. -/
def arbOrder (w : List Nat) (a : Arb) (req : List Bool) : List Nat :=
  ((List.range 4).map (arbTurn a)).filter (arbAsks w req)

theorem mem_arbOrder {w : List Nat} {a : Arb} {req : List Bool} {c : Nat} :
    c ∈ arbOrder w a req ↔ c < 4 ∧ arbAsks w req c = true := by
  rw [arbOrder, List.mem_filter, List.mem_map]
  constructor
  · rintro ⟨⟨k, -, rfl⟩, hasks⟩
    exact ⟨Nat.mod_lt _ (by decide), hasks⟩
  · rintro ⟨hlt, hasks⟩
    refine ⟨⟨(c + 4 - a.ptr % 4) % 4, List.mem_range.2 (Nat.mod_lt _ (by decide)), ?_⟩, hasks⟩
    rw [arbTurn]
    omega

/-- The credits that a grant takes from: the ones held, or the weights when no class that takes part holds one. -/
def arbCredits (w : List Nat) (a : Arb) (req : List Bool) : List Nat :=
  if (arbOrder w a req).any (fun c => decide (0 < a.credit.getD c 0)) then a.credit else w

theorem arbHeld_iff (w : List Nat) (a : Arb) (req : List Bool) :
    (arbOrder w a req).any (fun c => decide (0 < a.credit.getD c 0)) = true ↔ arbHeld w a req := by
  rw [List.any_eq_true]
  constructor
  · rintro ⟨c, hc, hheld⟩
    obtain ⟨hlt, hasks⟩ := mem_arbOrder.1 hc
    exact ⟨c, hlt, hasks, by simpa using hheld⟩
  · rintro ⟨c, hlt, hasks, hheld⟩
    exact ⟨c, mem_arbOrder.2 ⟨hlt, hasks⟩, by simpa using hheld⟩

theorem arbCredits_held {w : List Nat} {a : Arb} {req : List Bool} (h : arbHeld w a req) :
    arbCredits w a req = a.credit := if_pos ((arbHeld_iff w a req).2 h)

theorem arbCredits_loaded {w : List Nat} {a : Arb} {req : List Bool} (h : ¬ arbHeld w a req) :
    arbCredits w a req = w := if_neg (fun hany => h ((arbHeld_iff w a req).1 hany))

theorem arbPick_eq (w : List Nat) (a : Arb) (req : List Bool) : arbPick w a req =
    if (arbOrder w a req).isEmpty then (if w.getD 3 0 == 0 && req.getD 3 false then some (3, { a with ptr := 0 }) else none)
    else ((arbOrder w a req).find? (fun c => decide (0 < (arbCredits w a req).getD c 0))).map
      (fun c => (c, ⟨(arbCredits w a req).set c ((arbCredits w a req).getD c 0 - 1), (c + 1) % 4⟩)) := rfl

section
variable {w : List Nat} {a : Arb} {req : List Bool}

/-- Where some class takes part, one of them has a credit to take. -/
theorem arbOrder_credit (hw : ∀ c, c < 3 → w.getD c 0 ≠ 0) (h : (arbOrder w a req).isEmpty = false) :
    ∃ c ∈ arbOrder w a req, 0 < (arbCredits w a req).getD c 0 := by
  by_cases hheld : arbHeld w a req
  · obtain ⟨c, hlt, hasks, hcredit⟩ := hheld
    exact ⟨c, mem_arbOrder.2 ⟨hlt, hasks⟩, by rw [arbCredits_held ⟨c, hlt, hasks, hcredit⟩]; exact hcredit⟩
  · obtain ⟨c, hc⟩ := List.exists_mem_of_ne_nil (arbOrder w a req) (by simpa using h)
    refine ⟨c, hc, ?_⟩
    obtain ⟨hlt, hasks⟩ := mem_arbOrder.1 hc
    rw [arbCredits_loaded hheld]
    rcases Nat.lt_or_ge c 3 with h3 | h3
    · exact Nat.pos_of_ne_zero (hw c h3)
    · obtain rfl : c = 3 := by omega
      have hweight : (w.getD 3 0 == 0) = false := by
        simp only [arbAsks, beq_self_eq_true, Bool.and_true, Bool.and_eq_true, Bool.not_eq_true'] at hasks
        exact hasks.2
      exact Nat.pos_of_ne_zero (by simpa using hweight)

/-- No class takes part where none requests, but perhaps the fourth at weight 0. -/
theorem arbOrder_empty (h : (arbOrder w a req).isEmpty = true) {c : Nat} (hc : c < 4) (hasks : req.getD c false = true) :
    c = 3 ∧ w.getD 3 0 = 0 := by
  have hno : ¬ arbAsks w req c = true := fun hin => by
    have hmem := mem_arbOrder (a := a).2 ⟨hc, hin⟩
    rw [List.isEmpty_iff.1 h] at hmem
    exact List.not_mem_nil hmem
  rw [arbAsks, hasks, Bool.true_and] at hno
  simpa [and_comm] using hno

/-- The grant among the classes that take part: the first from the pointer on that has a credit. -/
theorem arbOrder_find {q : Nat → Bool} {c : Nat} (h : (arbOrder w a req).find? q = some c) :
    c < 4 ∧ arbAsks w req c = true ∧ q c = true ∧
      ∀ d, d < 4 → arbAsks w req d = true → q d = true → (c + 4 - a.ptr % 4) % 4 ≤ (d + 4 - a.ptr % 4) % 4 := by
  obtain ⟨hlt, hasks⟩ := mem_arbOrder.1 (List.mem_of_find?_eq_some h)
  refine ⟨hlt, hasks, List.find?_some h, fun d hd hdasks hdq => ?_⟩
  rw [arbOrder, List.find?_filter, List.find?_map, Option.map_eq_some_iff] at h
  obtain ⟨k, hk, rfl⟩ := h
  obtain ⟨-, hk4, hfirst⟩ := List.find?_range_eq_some.1 hk
  rw [List.mem_range] at hk4
  by_contra hlate
  have hturn : arbTurn a ((d + 4 - a.ptr % 4) % 4) = d := by
    rw [arbTurn]
    omega
  have hpast : (arbTurn a k + 4 - a.ptr % 4) % 4 = k := by
    rw [arbTurn]
    omega
  have hbefore := hfirst ((d + 4 - a.ptr % 4) % 4) (by omega)
  simp only [Function.comp_apply, hturn, hdasks, hdq] at hbefore
  exact absurd hbefore (by decide)

/-- No grant is made exactly where no class requests. -/
theorem arbPick_none_iff (hw : ∀ c, c < 3 → w.getD c 0 ≠ 0) :
    arbPick w a req = none ↔ ∀ c, c < 4 → ¬ req.getD c false = true := by
  rw [arbPick_eq]
  cases hempty : (arbOrder w a req).isEmpty with
  | true =>
    rw [if_pos rfl]
    constructor
    · intro h c hc hasks
      obtain ⟨rfl, hzero⟩ := arbOrder_empty hempty hc hasks
      rw [hzero, hasks] at h
      exact absurd h (by simp)
    · intro h
      have h3 := h 3 (by decide)
      rw [Bool.not_eq_true] at h3
      rw [h3, Bool.and_false, if_neg Bool.false_ne_true]
  | false =>
    rw [if_neg Bool.false_ne_true]
    obtain ⟨c, hc, hcredit⟩ := arbOrder_credit hw hempty
    constructor
    · intro h
      rw [Option.map_eq_none_iff, List.find?_eq_none] at h
      exact absurd hcredit (by simpa using h c hc)
    · intro h
      obtain ⟨hlt, hasks⟩ := mem_arbOrder.1 hc
      rw [arbAsks, Bool.and_eq_true] at hasks
      exact absurd hasks.1 (h c hlt)

/-- A grant: to the fourth class at weight 0 where no class takes part, else to the first in turn that has a credit. -/
theorem arbPick_some {c : Nat} {b : Arb} (h : arbPick w a req = some (c, b)) :
    (arbOrder w a req).isEmpty = true ∧ w.getD 3 0 = 0 ∧ req.getD 3 false = true ∧ c = 3 ∧ b = { a with ptr := 0 } ∨
    (arbOrder w a req).isEmpty = false ∧
      (arbOrder w a req).find? (fun c => decide (0 < (arbCredits w a req).getD c 0)) = some c ∧
      b = ⟨(arbCredits w a req).set c ((arbCredits w a req).getD c 0 - 1), (c + 1) % 4⟩ := by
  rw [arbPick_eq] at h
  cases hempty : (arbOrder w a req).isEmpty with
  | true =>
    rw [hempty, if_pos rfl] at h
    split at h
    · rename_i hidle
      rw [Bool.and_eq_true, beq_iff_eq] at hidle
      obtain ⟨rfl, rfl⟩ := Prod.mk.inj (Option.some.inj h)
      exact .inl ⟨rfl, hidle.1, hidle.2, rfl, rfl⟩
    · exact absurd h (by simp)
  | false =>
    rw [hempty, if_neg Bool.false_ne_true, Option.map_eq_some_iff] at h
    obtain ⟨d, hd, hpair⟩ := h
    obtain ⟨rfl, rfl⟩ := Prod.mk.inj hpair
    exact .inr ⟨rfl, hd, rfl⟩

/-- A credit list with one credit taken. -/
theorem getD_set_self (l : List Nat) (c : Nat) (h : 0 < l.getD c 0) : (l.set c (l.getD c 0 - 1)).getD c 0 + 1 = l.getD c 0 := by
  have hlen : c < l.length := by
    by_contra hno
    rw [List.getD_eq_default _ _ (by omega)] at h
    exact absurd h (by decide)
  rw [List.getD_eq_getElem _ _ (by simpa using hlen), List.getElem_set_self]
  omega

theorem getD_set_other (l : List Nat) {c d : Nat} (h : d ≠ c) (n : Nat) : (l.set c n).getD d 0 = l.getD d 0 := by
  rw [List.getD_eq_getElem?_getD, List.getD_eq_getElem?_getD, List.getElem?_set_ne (fun e => h e.symm)]

theorem arbAsks_iff {d : Nat} : arbAsks w req d = true ↔ req.getD d false = true ∧ ¬ (d = 3 ∧ w.getD 3 0 = 0) := by
  rw [arbAsks, Bool.and_eq_true, Bool.not_eq_true', Bool.and_eq_false_iff, beq_eq_false_iff_ne, beq_eq_false_iff_ne]
  constructor
  · rintro ⟨h, h'⟩
    exact ⟨h, fun ⟨h3, h0⟩ => h'.elim (fun hne => hne h0) (fun hne => hne h3)⟩
  · rintro ⟨h, h'⟩
    refine ⟨h, ?_⟩
    by_cases h3 : d = 3
    · exact .inl fun h0 => h' ⟨h3, h0⟩
    · exact .inr h3

end

theorem arbiterTurns : Claims.ArbiterTurns := by
  intro w a req asks idle hw
  refine ⟨arbPick_none_iff hw, fun c b h => ?_⟩
  have hheld : arbHeld w a req ↔ ∃ d, d < 4 ∧ asks d ∧ ¬ idle d ∧ 0 < a.credit.getD d 0 := by
    constructor
    · rintro ⟨d, hd, hasks, hcredit⟩
      exact ⟨d, hd, (arbAsks_iff.1 hasks).1, (arbAsks_iff.1 hasks).2, hcredit⟩
    · rintro ⟨d, hd, hasks, hidle, hcredit⟩
      exact ⟨d, hd, arbAsks_iff.2 ⟨hasks, hidle⟩, hcredit⟩
  rcases arbPick_some h with ⟨hempty, hzero, h3, rfl, rfl⟩ | ⟨hempty, hfind, rfl⟩
  · refine ⟨by decide, h3, fun _ => ⟨fun d hd hasks => ?_, rfl, rfl⟩, fun hno => absurd ⟨rfl, hzero⟩ hno⟩
    obtain ⟨rfl, -⟩ := arbOrder_empty hempty (by omega) hasks
    omega
  · obtain ⟨hlt, hasks, hcredit, hfirst⟩ := arbOrder_find hfind
    obtain ⟨hasks, hidle⟩ := arbAsks_iff.1 hasks
    have hcredit : 0 < (arbCredits w a req).getD c 0 := by simpa using hcredit
    refine ⟨hlt, hasks, fun h => absurd h hidle, fun _ => ?_⟩
    intro held has past
    have hhas (d n : Nat) : has d n ↔ n = (arbCredits w a req).getD d 0 := by
      by_cases hh : arbHeld w a req
      · rw [arbCredits_held hh]
        exact ⟨fun h => h.1 (hheld.1 hh), fun h => ⟨fun _ => h, fun hno => absurd (hheld.1 hh) hno⟩⟩
      · rw [arbCredits_loaded hh]
        exact ⟨fun h => h.2 (fun hx => hh (hheld.2 hx)), fun h => ⟨fun hx => absurd (hheld.2 hx) hh, fun _ => h⟩⟩
    refine ⟨rfl, (hhas c _).2 (getD_set_self _ _ hcredit), fun d hd => (hhas d _).2 (getD_set_other _ hd _),
      fun d n hd hasks hidle hn hpos => ?_⟩
    refine hfirst d hd (arbAsks_iff.2 ⟨hasks, hidle⟩) ?_
    rw [(hhas d n).1 hn] at hpos
    simpa using hpos

/-- Settles O34: a request that can be served alone is served by the port's own operations, which keep or store the bytes
of its range; the round-robin's grant is the first class in turn that has a credit. -/
theorem vaultRequests : Obligations.VaultRequests := by
  unfold Obligations.VaultRequests
  exact ⟨vaultPortAnswers, arbiterTurns⟩

end Sys2Proof.Machine
end

section
/-!
PROOF. SIGNAL and WAIT on a flag of the core's own vault (02 R81 to R83): the write or atomic that a SIGNAL performs as its
core wakes, and the watch that a WAIT installs (O11).
-/
namespace Sys2Proof.Machine

/-! ## The vaults as other parts of the machine leave them -/

/-- The vaults, the registers of their sites past the core's blocks, and the block reset are as they were. -/
structure State.vaultsSame (s t : State) : Prop where
  vault : ∀ v, t.vault v = s.vault v
  regs : ∀ v x, 0x2000 ≤ x → x < 0x4000 → t.reg (siteBase v + x) = s.reg (siteBase v + x)
  rst : t.rst = s.rst

theorem State.vaultsSame_trans {s t u : State} (h : s.vaultsSame t) (h' : t.vaultsSame u) : s.vaultsSame u :=
  ⟨fun v => (h'.vault v).trans (h.vault v), fun v x hx hx' => (h'.regs v x hx hx').trans (h.regs v x hx hx'),
    h'.rst.trans h.rst⟩

section
variable {s t : State} (h : s.vaultsSame t)
include h

theorem State.vaultsSame_getF (v hi lo x : Nat) (hx : x < 0x2000) :
    t.getF ⟨siteBase v + 0x2000 + x, hi, lo⟩ = s.getF ⟨siteBase v + 0x2000 + x, hi, lo⟩ := by
  refine State.getF_of_reg _ ?_
  rw [Nat.add_assoc]
  exact h.regs v (0x2000 + x) (by omega) (by omega)

theorem State.vaultsSame_vaultState (v : Nat) : t.vaultState v = s.vaultState v :=
  State.vaultsSame_getF h v 1 0 0xC (by decide)

theorem State.vaultsSame_frameBase (v : Nat) : t.frameBase v = s.frameBase v :=
  congrArg (· * 2 ^ 24) (State.vaultsSame_getF h v 5 0 0x10 (by decide))

theorem State.vaultsSame_byteRead (v b : Nat) : t.byteRead v b = s.byteRead v b := by
  rw [State.byteRead, State.byteRead, State.byteGone, State.byteGone, State.vaultsSame_vaultState h,
    State.vaultsSame_frameBase h, h.vault]

theorem State.vaultsSame_peekVault (v off n : Nat) : t.peekVault v off n = s.peekVault v off n := by
  simp only [State.peekVault_eq_byteRead, State.vaultsSame_byteRead h]

theorem State.vaultsSame_readsClean {v off n : Nat} (hread : s.readsClean v off n) : t.readsClean v off n :=
  fun b hb hb' => by
    rw [State.vaultsSame_byteRead h]
    exact hread b hb hb'

theorem State.vaultsSame_portOpen (v : Nat) : t.portOpen v = s.portOpen v := by
  have hhold : t.getF (Reg.vltCtrl_hold v) = s.getF (Reg.vltCtrl_hold v) :=
    State.vaultsSame_getF h v 5 5 0x8 (by decide)
  rw [State.portOpen, State.portOpen, State.vaultHolds, State.vaultHolds, State.on, State.on, hhold, State.blockOn,
    State.blockOn, h.rst, State.vaultsSame_vaultState h]

theorem State.vaultsSame_banksOf (v off n : Nat) : t.banksOf v off n = s.banksOf v off n := by
  rw [State.banksOf, State.banksOf, State.vaultsSame_frameBase h]

theorem State.vaultsSame_banksIdle (v off n : Nat) : t.banksIdle v off n = s.banksIdle v off n := by
  rw [State.banksIdle, State.banksIdle, State.vaultsSame_banksOf h, h.vault]

theorem State.vaultsSame_writeReady (v off n : Nat) : t.writeReady v off n = s.writeReady v off n := by
  rw [State.writeReady, State.writeReady, State.vaultsSame_portOpen h, State.bufferReady, State.bufferReady,
    State.vaultsSame_banksOf h, h.vault]

end

/-- A register of a site's window that no instruction's count or address is in. -/
theorem not_pcReg (v i x : Nat) (hx : x < 0x4000) (hpc : x ≠ 0x20) (hret : x ≠ 0x28) : siteBase v + x ∉ pcRegs i := by
  have hv := State.Traffic.siteBase_mod v
  have hi := State.Traffic.siteBase_mod i
  simp only [pcRegs, Reg.corePc_pc, Reg.coreRetired_count, List.mem_cons, List.not_mem_nil, or_false]
  omega

theorem State.sameBeyondCores_vault {s t : State} (h : s.sameBeyondCores t) (v : Nat) : t.vault v = s.vault v := by
  have hvaults : t.vaults = s.vaults := (congrArg State.vaults (State.sameBeyondCores_eq h) :)
  have hepoch : t.epoch = s.epoch := (congrArg State.epoch (State.sameBeyondCores_eq h) :)
  have hbg : t.fillBg = s.fillBg := (congrArg State.fillBg (State.sameBeyondCores_eq h) :)
  rw [State.vault, State.vault, State.vaultDefault, State.vaultDefault, hvaults, hepoch, hbg]

theorem State.vaultsSame_of_same {s t : State} (h : s.sameBeyondCores t)
    (hregs : ∀ v x, 0x2000 ≤ x → x < 0x4000 → t.reg (siteBase v + x) = s.reg (siteBase v + x)) : s.vaultsSame t :=
  ⟨State.sameBeyondCores_vault h, hregs, (congrArg State.rst (State.sameBeyondCores_eq h) :)⟩

theorem State.vaultsSame_of_ran {s t : State} {i : Nat} {c : Core} (h : s.ran t i [] c) : s.vaultsSame t :=
  State.vaultsSame_of_same h.rest fun v x hx hx' => h.moved.regs _ (not_pcReg v i x hx' (by omega) (by omega)) (by simp)

/-- A write to a core's own vault waits for the vault alone. -/
theorem State.pieceReady_own (s : State) (i : Nat) (write : Bool) (off pos n : Nat) :
    s.pieceReady (towerOf i) write ⟨.vault i off, pos, n⟩ =
      if write then s.writeReady i off n else s.readReady i off n := by
  rw [State.pieceReady]
  simp only [beq_self_eq_true, Bool.true_or, Bool.true_and]

/-! ## Notes of memory -/

theorem State.touchedMem_core (s : State) (i : Nat) (xs : List (Nat × Nat × Nat)) :
    (s.touchedMem i xs).core i = { s.core i with touchMem := (s.core i).touchMem.map (· ++ xs) } := by
  cases htouch : (s.core i).touchMem with
  | none => simp only [State.touchedMem, htouch, Option.map_none]; rw [← htouch]
  | some ys => simp only [State.touchedMem, htouch, Option.map_some, State.setCore_core, if_true]

theorem State.touchedMem_onlyCore (s : State) (i : Nat) (xs : List (Nat × Nat × Nat)) :
    s.onlyCore (s.touchedMem i xs) i ((s.touchedMem i xs).core i) := by
  refine ⟨rfl, fun j hj => ?_, fun a => ?_, ?_⟩
  · rw [State.touchedMem]
    split
    · rfl
    · rw [State.setCore_core, if_neg hj]
  · rw [State.touchedMem]
    split <;> rfl
  · rw [State.touchedMem]
    split <;> rfl

theorem State.touchedMem_ask (s : State) (i k : Nat) (xs : List (Nat × Nat × Nat)) :
    (s.ask i k).touchedMem i xs = (s.touchedMem i xs).ask i k := by
  rw [State.touchedMem, State.touchedMem]
  have hcore : (s.ask i k).core i = s.core i := rfl
  rw [hcore]
  split <;> rfl

theorem State.vaultsSame_onlyCore {s t : State} {i : Nat} {c : Core} (h : s.onlyCore t i c) : s.vaultsSame t :=
  State.vaultsSame_of_same h.rest fun _ _ _ _ => h.regs _

/-- An operand in the core's own vault: one piece, once it is noted. -/
theorem State.resolve_ground {s : State} {i n : Nat} {o : Opnd} (hspace : o.space = spGround)
    (hend : o.ea + n ≤ vaultSize) (write : Bool) : s.resolve i o n write =
      ⟨s.touchedMem i [(i, o.ea, n)], stOk, [⟨.vault i o.ea, 0, n⟩],
        s.pieceReady (towerOf i) write ⟨.vault i o.ea, 0, n⟩⟩ := by
  rw [State.resolve, State.resolvePlain, if_pos hspace, if_neg (Nat.not_lt.2 hend)]
  rfl

/-! ## SIGNAL -/

/-- The kind of a SIGNAL in the SYN queue. -/
def signalOf (n : Nat) (o : Opnd) : SynKind :=
  .signal (if bits n 103 96 = 0 then 254 else bits n 103 96) (BitVec.ofNat 64 o.ea) o.space (bits n 61 60 == 1)
    (bits n 95 64)

/-- A SIGNAL to an aligned flag of the own vault is at the head of its core's queue as the core wakes. -/
theorem exec_signal {s : State} {i : Site} {w : BitVec 128} (hc : Clear s i w) (hop : isOp w 0 3 = true)
    (hrsv : rsvOk w.toNat [(35, 32), (59, 36), (61, 60), (95, 64), (103, 96)] = true) (hmode : bits w.toNat 61 60 ≤ 1)
    {o : Opnd} (ho : (s.core i).opnd (bits w.toNat 35 32) (sbits w.toNat 59 36) = o) (hspace : o.space = spGround)
    (hal : o.ea % 8 = 0) (hend : o.ea + 8 ≤ vaultSize) : ∃ t, exec (.signal i w) s = .next (t.wake i) ∧
      s.queuedPast t i ((s.touchedMem i [(i.val, o.ea, 8)]).core i)
        ⟨signalOf w.toNat o, iTag w.toNat, s.getF (Reg.coreRetired_count i)⟩ := by
  have hempty : (((s.touchedMem i [(i.val, o.ea, 8)]).ask i 0).core i).synq = [] :=
    (congrArg Core.synq (s.touchedMem_core i [(i.val, o.ea, 8)])).trans hc.synq
  have hret : ((s.touchedMem i [(i.val, o.ea, 8)]).ask i 0).getF (Reg.coreRetired_count i) =
      s.getF (Reg.coreRetired_count i) := State.getF_of_reg _ ((s.touchedMem_onlyCore i [(i.val, o.ea, 8)]).regs _)
  refine State.issue_synEnter hc hop (by simp [synLater])
    (by rw [State.touchedMem_core]; exact ⟨rfl, rfl, rfl, rfl, rfl, rfl, rfl⟩)
    (State.onlyCore_trans (s.touchedMem_onlyCore i [(i.val, o.ea, 8)]) (State.onlyCore_setCore _ i _)) ?_
  have hok : (!rsvOk w.toNat [(35, 32), (59, 36), (61, 60), (95, 64), (103, 96)] || decide (2 ≤ bits w.toNat 61 60) ||
      badFlag o) = false := by
    have hmode' : ¬ 2 ≤ bits w.toNat 61 60 := by omega
    simp [hrsv, hmode', badFlag, hspace, hal, spGround, spScratch]
  have ho' : ((s.ask i 0).core i).opnd (bits w.toNat 35 32) (sbits w.toNat 59 36) = o := ho
  simp only [ho', hok, Bool.false_eq_true, if_false, State.resolve_ground hspace hend, bne_self_eq_false]
  rw [State.touchedMem_ask, synEnter_empty hempty, Core.queueSyn, hempty, hret]
  rfl

/-- Tracing depends on the debug block and its registers alone. -/
theorem State.traceOn_of_regs {s t : State} (hdbg : t.dbg = s.dbg) (hnow : t.now = s.now)
    (hreg : ∀ a, a < 0x01000000 → t.reg a = s.reg a) : t.traceOn = s.traceOn := by
  have hfield (f : Fld) (hf : f.off < 0x01000000) : t.getF f = s.getF f := State.getF_of_reg _ (hreg _ hf)
  simp only [State.traceOn, State.on, hfield Reg.dbgTraceCtrl_enable (by decide),
    hfield Reg.dbgTraceStart_start (by decide), hfield Reg.dbgTraceEnd_stop (by decide), hdbg, hnow]

/-- Tracing does not depend on what a vault's port changes. -/
theorem State.atPort_traceOn {s t : State} {v : Nat} (h : s.atPort t v) : t.traceOn = s.traceOn :=
  State.traceOn_of_regs (State.atPort_dbg h) (State.atPort_now h) fun a ha =>
    h.regs a (.inl (by have hbase := siteBase_ge v; omega))

theorem State.traceOn_of_onlyCore {s t : State} {i : Nat} {c : Core} (h : s.onlyCore t i c) : t.traceOn = s.traceOn :=
  State.traceOn_of_same h.rest (fun a _ => h.regs a)

/-- The bytes that a SIGNAL leaves in its flag. -/
def signalData (add : Bool) (old value : Nat) : List PByte :=
  clean (toLE 8 (if add then (old + value) % 2 ^ 64 else value))

theorem length_signalData (add : Bool) (old value : Nat) : (signalData add old value).length = 8 := by
  rw [signalData, length_clean, length_toLE]

theorem leNat_toLE (n x : Nat) : leNat (toLE n x) = x % 256 ^ n := by
  induction n generalizing x with
  | zero => rw [Nat.pow_zero, Nat.mod_one]; rfl
  | succ n ih =>
    have hsplit : x % 256 ^ (n + 1) = x % 256 + 256 * (x / 256 % 256 ^ n) := by rw [Nat.pow_succ', Nat.mod_mul]
    rw [toLE, leNat, ih, BitVec.toNat_ofNat, hsplit]

theorem leP_clean (bs : List Byte) : leP (clean bs) = leNat bs := by
  rw [leP, clean, List.map_map]
  exact congrArg leNat (List.map_id bs)

/-- Adding a value to a flag (06 R219). -/
theorem atomicNew_add (old value : Nat) (h : value < 2 ^ 64) :
    atomicNew 8 0 old (clean (toLE 8 value)) [] = signalData true old value := by
  have hoperand : leP ((clean (toLE 8 value)).take 8) = value := by
    rw [List.take_of_length_le (by rw [length_clean, length_toLE]), leP_clean, leNat_toLE]
    exact Nat.mod_eq_of_lt h
  rw [atomicNew, hoperand]
  rfl

/-- A write or an atomic of a SIGNAL, granted and served in a vault without watches. -/
theorem State.signal_stored {y : State} {i ea value : Nat} (add : Bool) (hal : ea % 8 = 0) (hend : ea + 8 ≤ vaultSize)
    (hread : y.readsClean i ea 8) (hwatch : (y.vault i).watches = []) (hvalue : value < 2 ^ 64) :
    ∃ z, y.stored z i ea (signalData add (leP (y.peekVault i ea 8)) value) ∧
      (if add then ((y.atomicAs i i ea 0 true (clean (toLE 8 value)) []).1,
          (y.atomicAs i i ea 0 true (clean (toLE 8 value)) []).2.2)
        else y.writeAs i i ea (clean (toLE 8 value)) true) = (z, stOk) := by
  cases add with
  | true =>
    have hgrant := y.tended_arbitrate i (accessClass i i true) true (ea / 8 * 8) 8
    have hword : y.readsClean i (ea / 8 * 8) 8 := by rwa [Nat.div_mul_cancel (Nat.dvd_of_mod_eq_zero hal)]
    obtain ⟨hstored, hresult⟩ := State.atomicVault_unwatched (aop := 0) (wide := true) (nb := 8)
      (operand := clean (toLE 8 value)) (compare := []) rfl hal hend (State.readsClean_tended hword hgrant)
      (anyPoison_clean _) rfl ((Vault.portChanged_watches hgrant.port.vault).trans hwatch)
    rw [atomicNew_add _ _ hvalue, State.tended_peekVault hgrant] at hstored
    refine ⟨_, State.stored_of_tended hgrant hstored, ?_⟩
    rw [if_pos rfl, State.atomicAs, hresult]
  | false =>
    have hgrant := y.tended_arbitrate i (accessClass i i true) true ea (clean (toLE 8 value)).length
    have hlen : (clean (toLE 8 value)).length = 8 := by rw [length_clean, length_toLE]
    obtain ⟨hstored, hresult⟩ := State.writeVault_unwatched (off := ea) (data := clean (toLE 8 value)) (by omega)
      (by omega) (anyPoison_clean _) (by rw [hlen]; exact State.readsClean_tended hread hgrant)
      ((Vault.portChanged_watches hgrant.port.vault).trans hwatch) true
    refine ⟨_, State.stored_of_tended hgrant hstored, ?_⟩
    rw [if_neg Bool.false_ne_true, State.writeAs]
    exact Prod.ext rfl hresult

/-- A SIGNAL whose flag can take its write is performed (02 R81). -/
theorem State.doSignal_own {y : State} {i ea value : Nat} {g : SynIns} {add : Bool} (hal : ea % 8 = 0)
    (hend : ea + 8 ≤ vaultSize) (hread : y.readsClean i ea 8) (hwatch : (y.vault i).watches = [])
    (hvalue : value < 2 ^ 64) (htrace : y.traceOn = false) (hready : y.writeReady i ea 8 = true)
    (hatomic : add = true → y.banksIdle i (ea / 8 * 8) 8 = true) :
    ∃ z, (y.touchedMem i [(i, ea, 8)]).stored z i ea (signalData add (leP (y.peekVault i ea 8)) value) ∧
      y.doSignal i g ea spGround value add = some z := by
  have honly := y.touchedMem_onlyCore i [(i, ea, 8)]
  have hsame := State.vaultsSame_onlyCore honly
  obtain ⟨z, hstored, hresult⟩ := State.signal_stored (y := y.touchedMem i [(i, ea, 8)]) add hal hend
    (State.vaultsSame_readsClean hsame hread) ((congrArg Vault.watches (hsame.vault i)).trans hwatch) hvalue
  rw [State.vaultsSame_peekVault hsame] at hstored
  refine ⟨z, hstored, ?_⟩
  have hztrace : z.traceOn = false :=
    (State.atPort_traceOn hstored.port).trans ((State.traceOn_of_onlyCore honly).trans htrace)
  have hpiece : y.pieceReady (towerOf i) true ⟨.vault i ea, 0, 8⟩ = true := by
    rw [State.pieceReady_own, if_pos rfl, hready]
  have hadd : (add && !y.atomicReady (towerOf i) ⟨.vault i ea, 0, 8⟩) = false := by
    cases add with
    | false => rfl
    | true => rw [State.atomicReady, hpiece, Bool.true_and]; simp only [hatomic rfl]; rfl
  have hground := State.resolve_ground (s := y) (i := i) (n := 8) (o := ⟨spGround, ea, ea⟩) rfl hend true
  rw [State.doSignal, hground]
  simp only [bne_self_eq_false, hpiece, List.all_cons, List.all_nil, Bool.and_true, hadd, Bool.not_true, Bool.or_self,
    Bool.false_eq_true, if_false]
  cases add with
  | true =>
    rw [if_pos rfl] at hresult ⊢
    obtain ⟨hz, hst⟩ := Prod.mk.inj hresult
    rw [hz, hst, State.traced_off _ _ _ _ _ _ _ _ hztrace]
    rfl
  | false =>
    rw [if_neg Bool.false_ne_true] at hresult ⊢
    rw [hresult]
    simp only
    rw [State.traced_off _ _ _ _ _ _ _ _ hztrace]
    rfl

/-- What a port has stored for an agent that has read no table is stored when the agent has ended. -/
theorem State.stored_forget {y z : State} {i k v off : Nat} {data : List PByte} (h : (y.ask i k).stored z v off data)
    (hasker : y.asker = none) (htables : y.tables.any (fun t => t.site == i) = false) :
    y.stored (z.forget i k) v off data := by
  have hkept : (z.forget i k) = { z with tables := y.tables, asker := y.asker } := by
    rw [State.forget, State.dropTables, State.atPort_tables h.port, hasker]
    exact congrArg (fun x => ({ z with tables := x, asker := none } : State)) (y.tables_none i k htables)
  rw [hkept]
  refine ⟨⟨?_, h.port.regs, h.port.others, h.port.vault⟩, h.inside, h.outside⟩
  exact (congrArg (fun x => ({ x with tables := y.tables, asker := y.asker } : State)) h.port.rest :)

theorem State.earlierBusy_none {t : State} {i : Nat} (h : t.jobs.any (fun j => j.site == i) = false) (mask issued : Nat) :
    t.earlierBusy i mask issued = false := by
  rw [State.earlierBusy, List.any_eq_false] at *
  intro j hj
  simp [h j hj]

/-- A SIGNAL at the head of the queue is performed as its core wakes. -/
theorem State.wake_signal {s t : State} {i mask ea value : Nat} {add : Bool} {d : Core} {g : SynIns}
    (h : s.queuedPast t i d g) (hkind : g.kind = .signal mask (BitVec.ofNat 64 ea) spGround add value)
    (hasker : t.asker = none) (htables : t.tables.any (fun x => x.site == i) = false) (hal : ea % 8 = 0)
    (hend : ea + 8 ≤ vaultSize) (hread : s.readsClean i ea 8) (hwatch : (s.vault i).watches = [])
    (hvalue : value < 2 ^ 64) (hready : s.writeReady i ea 8 = true)
    (hatomic : add = true → s.banksIdle i (ea / 8 * 8) 8 = true) :
    ((t.unqueued i).touchedMem i [(i, ea, 8)]).stored (t.wake i) i ea
      (signalData add (leP (s.peekVault i ea 8)) value) := by
  have hsame := State.vaultsSame_of_ran (State.ran_unqueued h)
  have hea : (BitVec.ofNat 64 ea).toNat = ea := by
    rw [BitVec.toNat_ofNat]
    exact Nat.mod_eq_of_lt (Nat.lt_of_lt_of_le (by omega : ea < vaultSize) (by decide))
  obtain ⟨z, hstored, hsignal⟩ := State.doSignal_own (y := (t.unqueued i).ask i synKey) (g := g) hal hend
    (State.vaultsSame_readsClean hsame hread) ((congrArg Vault.watches (hsame.vault i)).trans hwatch) hvalue h.trace
    ((State.vaultsSame_writeReady hsame i ea 8).trans hready)
    (fun hadd => (State.vaultsSame_banksIdle hsame i _ 8).trans (hatomic hadd))
  rw [State.touchedMem_ask] at hstored
  change (((t.unqueued i).touchedMem i [(i, ea, 8)]).ask i synKey).stored z i ea
    (signalData add (leP ((t.unqueued i).peekVault i ea 8)) value) at hstored
  rw [State.vaultsSame_peekVault hsame] at hstored
  have hnotes := (t.unqueued i).touchedMem_onlyCore i [(i, ea, 8)]
  have hdone := State.stored_forget hstored ((congrArg State.asker (State.sameBeyondCores_eq hnotes.rest) :).trans hasker)
    ((congrArg (fun x => x.any (fun y => y.site == i)) (State.sameBeyondCores_tables hnotes.rest)).trans htables)
  have hwanted : z.wanted = [] := by
    rw [State.wanted, State.atPort_asker hstored.port]
    rfl
  have hcore : (z.forget i synKey).core i = ((t.unqueued i).touchedMem i [(i, ea, 8)]).core i :=
    State.atPort_core hdone.port i
  have hhead : t.synHead i = .done (z.forget i synKey) () := by
    rw [State.synHead, State.queuedPast_synq h]
    simp only [hkind, State.earlierBusy_none h.jobs, hea, Bool.false_eq_true, if_false]
    rw [State.lookUp, t.asked_none i synKey htables]
    have hgo : ((t.ask i synKey).setCore i { (t.ask i synKey).core i with synq := [] }).doSignal i g ea spGround value add =
        some z := hsignal
    simp only [hgo, Option.map_some, hwanted, List.isEmpty_nil, Bool.false_eq_true, if_false, if_true]
  have hwake : t.wake i = z.forget i synKey := by
    refine State.wake_unheld (State.runSyn_one hhead ?_) ?_ ?_
    · rw [hcore, State.touchedMem_core, State.unqueued_core h]
      rfl
    · rw [hcore, State.touchedMem_core, State.unqueued_core h]
      exact h.hold
    · have hstate : (z.forget i synKey).coreState i = t.coreState i :=
        (State.atPort_getF hdone.port _ (.inl (by simp [Reg.coreStatus_state]))).trans
          (State.getF_of_reg _ (hnotes.regs _))
      rw [hstate, h.state]
      decide
  rw [hwake]
  exact hdone

theorem signalWritesFlag : Claims.SignalWritesFlag := by
  intro s i w hclear hop n o hrsv hmode hspace hal hend hready hwatch hclean hret hrow hatomic
  have hc := (State.clear_iff s i w).1 hclear
  obtain ⟨t, hexec, hpast⟩ := exec_signal hc hop hrsv hmode (o := o) rfl hspace hal hend
  have hown : s.writeReady i o.ea 8 = true := by
    rw [State.pieceReady_own, if_pos rfl] at hready
    exact hready
  have hidle (hadd : (bits n 61 60 == 1) = true) : s.banksIdle i (o.ea / 8 * 8) 8 = true := by
    have h := hatomic (beq_iff_eq.1 hadd)
    rw [State.atomicReady, Bool.and_eq_true] at h
    exact h.2
  have hdone := State.wake_signal hpast (by rw [signalOf, hspace])
    ((congrArg State.asker (State.sameBeyondCores_eq hpast.ran.rest) :).trans hc.asker)
    ((congrArg (fun x => x.any (fun y => y.site == i)) (State.sameBeyondCores_tables hpast.ran.rest)).trans hc.tables)
    hal hend ((s.anyPoison_peekVault i o.ea 8).1 hclean) hwatch
    (Nat.lt_of_lt_of_le (bits_lt n 95 64) (by decide)) hown hidle
  have hran := State.ran_unqueued hpast
  have hnotes := (t.unqueued i).touchedMem_onlyCore i [(i.val, o.ea, 8)]
  have hbyte (b : Nat) : ((t.unqueued i).touchedMem i [(i.val, o.ea, 8)]).byteRead i b = s.byteRead i b :=
    (State.vaultsSame_byteRead (State.vaultsSame_onlyCore hnotes) i b).trans
      (State.vaultsSame_byteRead (State.vaultsSame_of_ran hran) i b)
  refine ⟨_, hexec, ?_, fun b hb hout => ?_, ?_, ?_, fun j hj => ?_, fun v hv => ?_⟩
  · have hholds := State.holds_of_stored hdone
    rw [signalData] at hholds
    simpa only [beq_iff_eq] using hholds
  · rw [State.vaultByte_eq, State.vaultByte_eq, hdone.outside b hb (by rwa [length_signalData]), hbyte]
  · exact (State.atPort_getF hdone.port _ (.inl (by simp [Reg.corePc_pc]))).trans
      ((State.getF_of_reg _ (hnotes.regs _)).trans hran.moved.pc)
  · exact (State.atPort_getF hdone.port _ (.inl (by simp [Reg.coreRetired_count]))).trans
      ((State.getF_of_reg _ (hnotes.regs _)).trans hran.moved.retired)
  · exact (State.atPort_core hdone.port j).trans
      ((hnotes.others j (Fin.val_ne_of_ne hj)).trans (hran.moved.cores j (Fin.val_ne_of_ne hj)))
  · exact (hdone.port.others v (Fin.val_ne_of_ne hv)).trans ((State.vaultsSame_onlyCore hnotes).vault v |>.trans
      ((State.vaultsSame_of_ran hran).vault v))

/-! ## WAIT -/

/-- A core that begins a WAIT holds the sequencer, with nothing counted yet (02 R82). -/
def State.awaits (s : State) (i : Nat) (w : BitVec 128) (x : WaitSt) : State :=
  (((s.holdAt i w (.wait x)).setF (Reg.coreStatus_wait_armed i) 1).setF (Reg.coreWaitState_rearms i) 0).setF
    (Reg.coreWaitState_notices i) 0

theorem siteReg_ne_coreReg (v i : Nat) {x y : Nat} (hx : 0x2000 ≤ x) (hx' : x < 0x4000) (hy : y < 0x2000) :
    siteBase v + x ≠ siteBase i + y := by
  have hv := State.Traffic.siteBase_mod v
  have hi := State.Traffic.siteBase_mod i
  omega

theorem State.sameBeyondCores_awaits (s : State) (i : Nat) (w : BitVec 128) (x : WaitSt) :
    s.sameBeyondCores (s.awaits i w x) :=
  State.sameBeyondCores_setF _ _ (State.sameBeyondCores_setF _ _ (State.sameBeyondCores_setF _ _
    (State.sameBeyondCores_setCore _ _ (State.sameBeyondCores_refl s))))

theorem State.awaits_core (s : State) (i : Nat) (w : BitVec 128) (x : WaitSt) :
    (s.awaits i w x).core i = { s.core i with hold := .wait x, cur := w } := by
  have hcores : (s.awaits i w x).core i = (s.holdAt i w (.wait x)).core i := by
    rw [State.awaits, State.core, State.setF_cores, State.setF_cores, State.setF_cores, ← State.core]
  rw [hcores, State.holdAt, State.setCore_core, if_pos rfl]

theorem State.awaits_reg (s : State) (i : Nat) (w : BitVec 128) (x : WaitSt) (a : Nat)
    (ha : a ≠ (Reg.coreStatus_wait_armed i).off) (ha' : a ≠ (Reg.coreWaitState_rearms i).off) :
    (s.awaits i w x).reg a = s.reg a := by
  rw [State.awaits, State.reg_setF_ne _ (Reg.coreWaitState_notices i) _ _ ha',
    State.reg_setF_ne _ (Reg.coreWaitState_rearms i) _ _ ha', State.reg_setF_ne _ _ _ _ ha, State.holdAt,
    State.setCore_reg]

theorem State.awaits_armed (s : State) (i : Nat) (w : BitVec 128) (x : WaitSt) :
    (s.awaits i w x).getF (Reg.coreStatus_wait_armed i) = 1 := by
  have hoff : (Reg.coreStatus_wait_armed i).off ≠ (Reg.coreWaitState_rearms i).off := by
    simp [Reg.coreStatus_wait_armed, Reg.coreWaitState_rearms]
  rw [State.awaits, State.getF_setF_off _ (Reg.coreWaitState_notices i) _ _ hoff,
    State.getF_setF_off _ (Reg.coreWaitState_rearms i) _ _ hoff,
    State.getF_setF_same _ _ _ (by simp [Reg.coreStatus_wait_armed]) (by simp [Reg.coreStatus_wait_armed])]
  simp [Reg.coreStatus_wait_armed]

theorem State.awaits_vaultsSame (s : State) (i : Nat) (w : BitVec 128) (x : WaitSt) :
    s.vaultsSame (s.awaits i w x) := by
  refine State.vaultsSame_of_same (s.sameBeyondCores_awaits i w x) fun v a ha ha' => State.awaits_reg s i w x _ ?_ ?_
  · rw [show (Reg.coreStatus_wait_armed i).off = siteBase i + 0x10 from rfl]
    exact siteReg_ne_coreReg v i ha ha' (by decide)
  · rw [show (Reg.coreWaitState_rearms i).off = siteBase i + 0x58 from rfl]
    exact siteReg_ne_coreReg v i ha ha' (by decide)

/-- A watch of a vault has been installed, and its port has been at work. -/
structure State.watchedAt (s t : State) (v off : Nat) (who : Watcher) : Prop where
  rest : { t with regs := s.regs, vaults := s.vaults, records := s.records } = s
  regs : ∀ a, a < siteBase v + 0x2020 ∨ siteBase v + 0x2400 ≤ a → t.reg a = s.reg a
  watches : (t.vault v).watches = (s.vault v).watches ++ [⟨off, who⟩]

section
variable {s t : State} {v off : Nat} {who : Watcher} (h : s.watchedAt t v off who)
include h

theorem State.watchedAt_core (i : Nat) : t.core i = s.core i := by
  rw [State.core, State.core, show t.cores = s.cores from (congrArg State.cores h.rest :)]

theorem State.watchedAt_now : t.now = s.now := (congrArg State.now h.rest :)

theorem State.watchedAt_getF (f : Fld) (hf : f.off < siteBase v + 0x2020 ∨ siteBase v + 0x2400 ≤ f.off) :
    t.getF f = s.getF f := State.getF_of_reg _ (h.regs _ hf)

end

/-- A watch that a vault has room for is installed and answers its flag (02 R82). -/
theorem State.armLocal_sees {s : State} {v off : Nat} (i : Nat) (x : WaitSt)
    (hroom : (s.vault v).watches.length < watchMax) (hread : s.readsClean v off 8) :
    ∃ t, s.watchedAt t v off (.core i) ∧
      s.armLocal i v off x = t.seeFlag i { x with armed := true } (s.peekVault v off 8) := by
  have hgrant := s.tended_arbitrate v (accessClass i v false) true off 8
  have hwatches := Vault.portChanged_watches hgrant.port.vault
  have hpeek := State.tended_peekVault hgrant v off 8
  have hclean := State.readsClean_tended hread hgrant
  rw [State.armLocal]
  generalize s.arbitrate v (accessClass i v false) true off 8 = u at *
  obtain ⟨hdata, -, hafter⟩ := State.readWatched (.core i) hclean
  rw [State.installWatch_eq (by rwa [hwatches])]
  generalize (u.setVault v ((u.vault v).watched off (.core i))).readVault v off 8 true = r at *
  obtain ⟨t, bytes, st⟩ := r
  obtain ⟨hbytes, hst⟩ := Prod.mk.inj hdata
  refine ⟨t, ⟨?_, fun a ha => ?_, ?_⟩, ?_⟩
  · have hinstalled : ({ u.setVault v ((u.vault v).watched off (.core i)) with
        regs := s.regs, vaults := s.vaults, records := s.records } : State) = s := hgrant.port.rest
    calc ({ t with regs := s.regs, vaults := s.vaults, records := s.records } : State)
        = { ({ t with regs := (u.setVault v ((u.vault v).watched off (.core i))).regs
                      vaults := (u.setVault v ((u.vault v).watched off (.core i))).vaults
                      records := (u.setVault v ((u.vault v).watched off (.core i))).records } : State) with
              regs := s.regs, vaults := s.vaults, records := s.records } := rfl
      _ = s := by rw [hafter.port.rest]; exact hinstalled
  · exact (hafter.port.regs a ha).trans (hgrant.port.regs a ha)
  · rw [Vault.portChanged_watches hafter.port.vault, State.vault_setVault, if_pos rfl, ← hwatches]
    rfl
  · subst hbytes hst
    simp only
    rw [if_neg (by decide), hpeek]

theorem SMap.find_mapVal {α β : Type} (f : Nat → α → β) (m : SMap α) (k : Nat) :
    SMap.find (SMap.mapVal f m) k = (SMap.find m k).map (f k) := by
  induction m with
  | nil => rfl
  | cons e m ih =>
    obtain ⟨j, x⟩ := e
    change SMap.find ((j, f j x) :: SMap.mapVal f m) k = _
    rw [SMap.find, SMap.find, ih]
    split
    case isTrue h => rw [h]; rfl
    case isFalse => rfl

/-- Vaults without a core's watches. -/
theorem State.dropWatches_watches (s : State) (i v : Nat) :
    ((s.dropWatches i).vault v).watches = (s.vault v).watches.filter (fun w => w.who != .core i) := by
  rw [State.vault, State.vault, State.dropWatches, SMap.get, SMap.get, SMap.find_mapVal]
  cases SMap.find s.vaults v with
  | none => rfl
  | some y => rfl

/-- A core without its WAIT, its watches and its look-ups gone. -/
def State.unwaited (s : State) (i : Nat) : State :=
  ((s.setCore i { s.core i with hold := .none, waits := [] }).dropTables i 0).dropWatches i

theorem State.unwaited_core (s : State) (i : Nat) :
    (s.unwaited i).core i = { s.core i with hold := .none, waits := [] } := by
  have hcores : (s.unwaited i).core i = (s.setCore i { s.core i with hold := .none, waits := [] }).core i := rfl
  rw [hcores, State.setCore_core, if_pos rfl]

theorem State.unwaited_watches (s : State) (i : Nat) :
    ((s.unwaited i).vault i).watches = (s.vault i).watches.filter (fun w => w.who != .core i) :=
  State.dropWatches_watches ((s.setCore i { s.core i with hold := .none, waits := [] }).dropTables i 0) i i

/-- A core's WAIT is withdrawn (02 R90). -/
theorem State.withdraw_ownWait {s : State} {i : Nat} {x : WaitSt} (hhold : (s.core i).hold = .wait x)
    (hown : x.remote = false) : s.withdraw i = (s.unwaited i).setF (Reg.coreStatus_wait_armed i) 0 := by
  rw [State.withdraw, State.unwaited]
  simp only [hhold, hown, Bool.false_eq_true, if_false]

/-- What a core whose WAIT has ended is. -/
structure State.waitEnded (s t : State) (i : Nat) : Prop where
  pc : t.pc i = s.nextPc i
  hold : (t.core i).hold = .none
  retired : t.getF (Reg.coreRetired_count i) = (s.getF (Reg.coreRetired_count i) + 1) % 2 ^ 48
  armed : t.getF (Reg.coreStatus_wait_armed i) = 0
  watches : ∀ x ∈ (t.vault i).watches, x.who ≠ .core i

/-- A WAIT that its flag completes lets the sequencer move on (02 R83). -/
theorem State.finishWait_ends {s : State} {i : Nat} {x : WaitSt} (hhold : (s.core i).hold = .wait x)
    (hown : x.remote = false) (htrace : s.traceOn = false) (hframes : (s.core i).frames = [])
    (hsteps : (s.core i).stepsLeft = 0) (hline : (s.core i).wordAt (s.nextPc i) ≠ .poison) :
    s.waitEnded (s.finishWait i) i := by
  have hreg (a : Nat) (ha : a ≠ (Reg.coreStatus_wait_armed i).off) : (s.withdraw i).reg a = s.reg a := by
    rw [State.withdraw_ownWait hhold hown, State.reg_setF_ne _ _ _ _ ha]
    rfl
  have hcore : (s.withdraw i).core i = { s.core i with hold := .none, waits := [] } := by
    rw [State.withdraw_ownWait hhold hown, State.core, State.setF_cores, ← State.core, State.unwaited_core]
  have htraced : (s.withdraw i).traceOn = false := by
    rw [← htrace]
    refine State.traceOn_of_regs ?_ ?_ fun a ha => hreg a ?_
    · rw [State.withdraw_ownWait hhold hown, State.setF_dbg]; rfl
    · rw [State.withdraw_ownWait hhold hown, State.setF_now]; rfl
    · have hbase := siteBase_ge i
      simp only [Reg.coreStatus_wait_armed]
      omega
  have hpc : (s.withdraw i).pc i = s.pc i :=
    State.getF_of_reg _ (hreg _ (by simp [Reg.corePc_pc, Reg.coreStatus_wait_armed]))
  have hnext : (s.withdraw i).nextPc i = s.nextPc i := by rw [State.nextPc, State.nextPc, hpc]
  have hret : (s.withdraw i).getF (Reg.coreRetired_count i) = s.getF (Reg.coreRetired_count i) :=
    State.getF_of_reg _ (hreg _ (by simp [Reg.coreRetired_count, Reg.coreStatus_wait_armed]))
  have hpast : s.finishWait i = (s.withdraw i).past i := by
    rw [State.finishWait, State.tracedHere, State.traced_off _ _ _ _ _ _ _ _ htraced, State.advance_quiet]
    · rw [hcore]; exact hframes
    · rw [hcore]; exact hsteps
    · rw [hcore, hnext]; exact hline
  have hstatus : ((s.withdraw i).past i).getF (Reg.coreStatus_wait_armed i) =
      (s.withdraw i).getF (Reg.coreStatus_wait_armed i) :=
    State.getF_of_reg _ (State.past_reg _ _ _ (by
      simp [pcRegs, Reg.coreStatus_wait_armed, Reg.corePc_pc, Reg.coreRetired_count]))
  have hvaults : ((s.withdraw i).past i).vault i = (s.unwaited i).vault i := by
    rw [State.sameBeyondCores_vault (State.sameBeyondCores_past i (State.sameBeyondCores_refl _)),
      State.withdraw_ownWait hhold hown]
    exact State.sameBeyondCores_vault (State.sameBeyondCores_setF _ _ (State.sameBeyondCores_refl _)) i
  rw [hpast]
  refine ⟨(State.past_pc _ _).trans hnext, ?_, ?_, ?_, fun w hw => ?_⟩
  · rw [State.past_hold, hcore]
  · rw [State.past_retired, hret]
  · rw [hstatus, State.withdraw_ownWait hhold hown,
      State.getF_setF_same _ _ _ (by simp [Reg.coreStatus_wait_armed]) (by simp [Reg.coreStatus_wait_armed]),
      Nat.zero_mod]
  · rw [hvaults, State.unwaited_watches] at hw
    exact bne_iff_ne.1 (List.mem_filter.1 hw).2

/-- A WAIT on an own flag that can be read begins: the core holds and its watch is being armed. -/
theorem exec_wait {s : State} {i : Site} {w : BitVec 128} (hc : Clear s i w) (hop : isOp w 0 4 = true)
    (hrsv : rsvOk w.toNat [(35, 32), (59, 36), (61, 60), (95, 64), (119, 96)] = true) (hcmp : bits w.toNat 61 60 ≤ 2)
    (hlimit : bits w.toNat 119 96 ≠ 0) {o : Opnd} (ho : (s.core i).opnd (bits w.toNat 35 32) (sbits w.toNat 59 36) = o)
    (hspace : o.space = spGround) (hal : o.ea % 8 = 0) (hend : o.ea + 8 ≤ vaultSize)
    (hready : s.pieceReady (towerOf i) false ⟨.vault i o.ea, 0, 8⟩ = true) : ∃ x : WaitSt,
      x.remote = false ∧ x.value = bits w.toNat 95 64 ∧ x.cmp = bits w.toNat 61 60 ∧
      x.deadline = s.now + us (bits w.toNat 119 96) ∧
      exec (.wait i w) s =
        .next (((s.touchedMem i [(i.val, o.ea, 8)]).awaits i w x).armLocal i i o.ea x) := by
  refine ⟨{ addr := BitVec.ofNat 64 o.ea, space := o.space, remote := false, vid := i, off := o.ea
            cmp := bits w.toNat 61 60, value := bits w.toNat 95 64, deadline := s.now + us (bits w.toNat 119 96)
            seen := 0, armed := false, highest := 0, itag := 0, nextTry := 0 }, rfl, rfl, rfl, rfl, ?_⟩
  obtain ⟨heng, hopc⟩ := (isOp_iff w 0 4).1 hop
  have hbad : (bits w.toNat 15 14 != 0 || !rsvOk w.toNat [(35, 32), (59, 36), (61, 60), (95, 64), (119, 96)] ||
      bits w.toNat 61 60 == 3 || bits w.toNat 119 96 == 0 || badFlag o) = false := by
    have hcmp' : bits w.toNat 61 60 ≠ 3 := by omega
    simp [bits_15_14 _ hc.rsv, hrsv, hcmp', hlimit, badFlag, hspace, hal, spGround, spScratch]
  have hgo : (!s.canIssue i w || iEng w.toNat != 0 || iOp w.toNat != 4) = false := by simp [hc.can, heng, hopc]
  change execWait i w s = _
  rw [execWait]
  simp only [ho, hgo, hbad, Bool.false_eq_true, if_false, State.resolve_ground hspace hend, hready, bne_self_eq_false,
    Bool.not_true]
  rfl


/-- A core that holds at its WAIT. -/
structure State.heldAtWait (s t : State) (i : Nat) (w : BitVec 128) (x : WaitSt) (m : Option (List (Nat × Nat × Nat))) :
    Prop where
  core : t.core i = { s.core i with touchMem := m, hold := .wait x, cur := w }
  regs : ∀ a, a < siteBase i + 0x100 → a ≠ (Reg.coreStatus_wait_armed i).off → a ≠ (Reg.coreWaitState_rearms i).off →
    t.reg a = s.reg a
  armed : t.getF (Reg.coreStatus_wait_armed i) = 1
  dbg : t.dbg = s.dbg
  now : t.now = s.now

theorem State.heldAtWait_awaits (s : State) (i : Nat) (w : BitVec 128) (x : WaitSt) (xs : List (Nat × Nat × Nat)) :
    s.heldAtWait ((s.touchedMem i xs).awaits i w x) i w x ((s.core i).touchMem.map (· ++ xs)) := by
  have hnotes := s.touchedMem_onlyCore i xs
  have hrest := State.sameBeyondCores_trans hnotes.rest ((s.touchedMem i xs).sameBeyondCores_awaits i w x)
  refine ⟨?_, fun a _ ha ha' => ((s.touchedMem i xs).awaits_reg i w x a ha ha').trans (hnotes.regs a),
    (s.touchedMem i xs).awaits_armed i w x, State.sameBeyondCores_dbg hrest,
    State.sameBeyondCores_now hrest⟩
  rw [State.awaits_core, State.touchedMem_core]

section
variable {s t : State} {i : Nat} {w : BitVec 128} {x : WaitSt} {m : Option (List (Nat × Nat × Nat))}
  (h : s.heldAtWait t i w x m)
include h

theorem State.heldAtWait_watchedAt {u : State} {off : Nat} {who : Watcher} (hwatched : t.watchedAt u i off who) :
    s.heldAtWait u i w x m :=
  ⟨(State.watchedAt_core hwatched i).trans h.core,
    fun a ha hs hw => (hwatched.regs a (.inl (by omega))).trans (h.regs a ha hs hw),
    (State.watchedAt_getF hwatched _ (.inl (by simp [Reg.coreStatus_wait_armed]))).trans h.armed,
    (show u.dbg = t.dbg from (congrArg State.dbg hwatched.rest :)).trans h.dbg,
    (State.watchedAt_now hwatched).trans h.now⟩

theorem State.heldAtWait_sees (y : WaitSt) :
    s.heldAtWait (t.setCore i { t.core i with hold := .wait y }) i w y m :=
  ⟨by rw [State.setCore_core, if_pos rfl, h.core], h.regs, h.armed, h.dbg, h.now⟩

theorem State.heldAtWait_pc : t.pc i = s.pc i :=
  State.getF_of_reg _ (h.regs _ (by simp [Reg.corePc_pc]) (by simp [Reg.corePc_pc, Reg.coreStatus_wait_armed])
    (by simp [Reg.corePc_pc, Reg.coreWaitState_rearms]))

theorem State.heldAtWait_retired : t.getF (Reg.coreRetired_count i) = s.getF (Reg.coreRetired_count i) :=
  State.getF_of_reg _ (h.regs _ (by simp [Reg.coreRetired_count])
    (by simp [Reg.coreRetired_count, Reg.coreStatus_wait_armed])
    (by simp [Reg.coreRetired_count, Reg.coreWaitState_rearms]))

theorem State.heldAtWait_traceOn : t.traceOn = s.traceOn :=
  State.traceOn_of_regs h.dbg h.now fun a ha => by
    have hbase := siteBase_ge i
    refine h.regs a (by omega) ?_ ?_
    · simp only [Reg.coreStatus_wait_armed]
      omega
    · simp only [Reg.coreWaitState_rearms]
      omega

/-- A WAIT that ends leaves what the instruction began from, past it. -/
theorem State.heldAtWait_finishes (hc : Clear s i w) (hown : x.remote = false) : s.waitEnded (t.finishWait i) i := by
  have hnext : t.nextPc i = s.nextPc i := by rw [State.nextPc, State.nextPc, State.heldAtWait_pc h]
  have hends := State.finishWait_ends (s := t) (i := i) (x := x) (by rw [h.core]) hown
    ((State.heldAtWait_traceOn h).trans hc.trace) (by rw [h.core]; exact hc.frames) (by rw [h.core]; exact hc.steps)
    (by rw [h.core, hnext]; exact hc.line)
  exact ⟨hends.pc.trans hnext, hends.hold, hends.retired.trans (by rw [State.heldAtWait_retired h]), hends.armed,
    hends.watches⟩

end

/-- What a core makes of a clean value of its flag (02 R82, R83). -/
theorem State.seeFlag_clean {s : State} {i : Nat} {x : WaitSt} {v : List PByte} (hclean : anyPoison v = false) :
    s.seeFlag i x v =
      if waitHolds x.cmp x.value (leP v) && decide (s.now < x.deadline) then
        (s.setCore i { s.core i with hold := .wait { x with seen := leP v } }).finishWait i
      else s.setCore i { s.core i with hold := .wait { x with seen := leP v } } := by
  rw [State.seeFlag, if_neg (by rw [hclean]; exact Bool.false_ne_true)]

theorem waitOnFlag : Claims.WaitOnFlag := by
  intro s i w hclear hop n o flag hrsv hcmp hlimit hspace hal hend hready hroom hclean hret hrow
  have hc := (State.clear_iff s i w).1 hclear
  obtain ⟨x, hown, hvalue, hxcmp, hdeadline, hexec⟩ :=
    exec_wait hc hop hrsv hcmp hlimit (o := o) rfl hspace hal hend hready
  have hbegun := s.heldAtWait_awaits i w x [(i.val, o.ea, 8)]
  have hsame := State.vaultsSame_trans (State.vaultsSame_onlyCore (s.touchedMem_onlyCore i [(i.val, o.ea, 8)]))
    ((s.touchedMem i [(i.val, o.ea, 8)]).awaits_vaultsSame i w x)
  obtain ⟨t, hwatched, hsees⟩ := State.armLocal_sees (s := (s.touchedMem i [(i.val, o.ea, 8)]).awaits i w x) i.val x
    ((congrArg (fun v => v.watches.length) (hsame.vault i)).trans_lt hroom)
    (State.vaultsSame_readsClean hsame ((s.anyPoison_peekVault i o.ea 8).1 hclean))
  obtain ⟨y, hy, hyown, hyarmed, hyvalue, hycmp, hydeadline⟩ : ∃ y : WaitSt, { x with armed := true } = y ∧
      y.remote = false ∧ y.armed = true ∧ y.value = bits n 95 64 ∧ y.cmp = bits n 61 60 ∧
      y.deadline = s.now + us (bits n 119 96) := ⟨_, rfl, hown, rfl, hvalue, hxcmp, hdeadline⟩
  have hheld := State.heldAtWait_sees (State.heldAtWait_watchedAt hbegun hwatched) { y with seen := leP flag }
  have hlate : t.now < y.deadline := by
    have hpos : 0 < us (bits n 119 96) := Nat.mul_pos (Nat.pos_of_ne_zero hlimit) (by decide)
    have hnow : t.now = s.now := hheld.now
    omega
  have hcond : (waitHolds y.cmp y.value (leP flag) && decide (t.now < y.deadline)) =
      waitHolds (bits n 61 60) (bits n 95 64) (leP flag) := by
    rw [hycmp, hyvalue, decide_eq_true hlate, Bool.and_true]
  rw [hsees, hy, State.vaultsSame_peekVault hsame, State.seeFlag_clean hclean, hcond] at hexec
  refine ⟨fun hholds => ?_, fun hholds => ?_⟩
  · have hends := State.heldAtWait_finishes hheld hc hyown
    rw [if_pos hholds] at hexec
    exact ⟨_, hexec, hends.pc, hends.hold, hends.retired, hends.armed, hends.watches⟩
  · rw [if_neg (by rw [hholds]; exact Bool.false_ne_true)] at hexec
    refine ⟨_, { y with seen := leP flag }, hexec, State.heldAtWait_pc hheld, ?_, hyarmed, rfl, hyvalue, hycmp,
      hydeadline, hheld.armed, ?_, State.heldAtWait_retired hheld⟩
    · rw [hheld.core]
    · change _ ∈ (t.vault i).watches
      rw [hwatched.watches]
      exact List.mem_append_right _ List.mem_cons_self

/-- Settles O11: a SIGNAL is performed from the SYN queue as its core wakes, and a WAIT sees its flag as its watch is
installed. -/
theorem signalAndWait : Obligations.SignalAndWait := by
  unfold Obligations.SignalAndWait
  exact ⟨signalWritesFlag, waitOnFlag⟩

end Sys2Proof.Machine
end

section
/-!
PROOF. CORE_CTRL and the fills of the instruction cache (02 R60, R61, R89 to R92; O32).
-/
namespace Sys2Proof.Machine

/-! ## CORE_CTRL -/

/-- Clearing fields that stand apart leaves each of them 0. -/
theorem State.getF_foldl_setF (s : State) {l : List Fld} {g : Fld} (hproper : ∀ f ∈ l, fldProper f = true)
    (hapart : ∀ f ∈ l, f = g ∨ fldApart f g = true) (h : g ∈ l ∨ s.getF g = 0) :
    (l.foldl (fun s f => s.setF f 0) s).getF g = 0 := by
  induction l generalizing s with
  | nil => exact h.resolve_left List.not_mem_nil
  | cons f l ih =>
    have hkeep : f = g ∨ s.getF g = 0 → (s.setF f 0).getF g = 0 := by
      intro hcase
      rcases hapart f List.mem_cons_self with rfl | hfg
      · rw [State.getF_setF_self s f 0 (hproper f List.mem_cons_self), Nat.zero_mod]
      · rcases hcase with rfl | hzero
        · rw [State.getF_setF_self s f 0 (hproper f List.mem_cons_self), Nat.zero_mod]
        · rw [State.getF_setF_apart s f g 0 (hproper f List.mem_cons_self) hfg, hzero]
    refine ih _ (fun x hx => hproper x (List.mem_cons_of_mem f hx)) (fun x hx => hapart x (List.mem_cons_of_mem f hx)) ?_
    rcases h with hmem | hzero
    · exact (List.mem_cons.1 hmem).elim (fun e => .inr (hkeep (.inl e.symm))) .inl
    · exact .inr (hkeep (.inr hzero))

theorem startCleared_proper (i : Nat) : ∀ f ∈ startCleared i, fldProper f = true := by
  simp [startCleared, fldProper, Reg.coreRetired_count, Reg.coreIcStat_misses, Reg.mxaStatus_nan_op, Reg.mxaStatus_inv,
    Reg.mxaStatus_ovf, Reg.mxaHeld_valid, Reg.mxaHeld_sfmt, Reg.mxaHeld_shadow_ready, Reg.mxaStatus_isat,
    Reg.mxaStatus_poison, Reg.mxaCntFreeze_feed_dry, Reg.mxaCntFreeze_shadow_late, Reg.mxaCntFreeze_drain_full,
    Reg.tleStatus_nan_op, Reg.tleStatus_inv, Reg.tleStatus_ovf, Reg.tleStatus_isat, Reg.tleStatus_poison,
    Reg.tleKpoison_kpoison, Reg.kvxLast_status, Reg.kvxLast_tag, Reg.kvxLast_op, Reg.kvxLost_valid, Reg.kvxLost_frame]

/-- A field that the start of a stream clears, and that no other one of them meets, reads 0 after it. -/
theorem State.startStream_cleared (s : State) {i : Nat} {f : Fld} (hf : f ∈ startCleared i)
    (hapart : ∀ g ∈ startCleared i, g = f ∨ fldApart g f = true) : (s.startStream i).getF f = 0 := by
  have hoff := (startCleared_off i f hf).1
  rw [State.startStream_eq, State.getF_setF_off]
  · exact State.getF_foldl_setF _ (startCleared_proper i) hapart (.inl hf)
  · simp only [Reg.coreStatus_state]
    omega

/-- Clearing fields changes registers alone. -/
theorem State.core_foldl_setF (l : List Fld) (s : State) (j : Nat) :
    (l.foldl (fun s f => s.setF f 0) s).core j = s.core j := by
  induction l generalizing s with
  | nil => rfl
  | cons f l ih => exact (ih _).trans (State.setF_core ..)

theorem State.vault_foldl_setF (l : List Fld) (s : State) (v : Nat) :
    (l.foldl (fun s f => s.setF f 0) s).vault v = s.vault v := by
  induction l generalizing s with
  | nil => rfl
  | cons f l ih => exact (ih _).trans (State.setF_vault ..)

/-- The core as it starts a stream at an address. -/
def Core.started (c : Core) (base : Nat) : Core := { c with
  ags := [], frames := [], loopBuf := [], hold := .none, icache := [], noBreak := false, stepsLeft := 0
  acc0 := Acc.start, acc1 := Acc.start, held := none, mxa := c.mxa.discard, tle := Tle.start
  pastEnd := decide (vaultSize ≤ base) }

theorem State.startStream_core (s : State) (i : Nat) :
    (s.startStream i).core i = (s.core i).started (s.streamBase i) := by
  rw [State.startStream_eq, State.setF_core, State.core_foldl_setF, State.setPc, State.setF_core, State.setCore_core,
    if_pos rfl, State.startedCore, State.setVault_core, State.setCore_core, if_pos rfl]
  rfl

theorem State.startStream_latches (s : State) (i : Nat) : ((s.startStream i).vault i).latchValid = [] := by
  rw [State.startStream_eq, State.setF_vault, State.vault_foldl_setF, State.setPc, State.setF_vault, State.setCore_vault,
    State.startedCore, State.vault_setVault, if_pos rfl]

theorem coreCtrl_start {s : State} {i : Site} (hfree : s.locked i = false) (hon : s.coreOn i = true)
    (hidle : s.coreState i = csIdle) (hchan : (s.liveChan i).isSome = true)
    (hok : streamOk (s.streamBase i) (s.streamLen i) = true) : exec (.coreCtrlStart i) s = .next (s.startStream i) := by
  have hnone : (s.liveChan i).isNone = false := by
    rw [Option.isNone_eq_false_iff]
    exact hchan
  change execCoreCtrlStart i s = _
  rw [execCoreCtrlStart, hfree, hon, hidle, hnone, hok]
  rfl

/-- A core that may be paused is stopped in BREAK, with what it holds withdrawn (02 R91). -/
theorem State.pauseCore_eq {s : State} {i : Nat} (hrun : s.coreState i = csRunning) (hhold : (s.core i).hold ≠ .end_) :
    s.pauseCore i = (s.halted i).setF (Reg.coreStatus_state i) csBreak := by
  rw [State.pauseCore, hrun, State.halted, if_neg]
  simp [hhold]

/-- A core withdraws what it holds on its own vault. -/
structure State.withdrawn (s t : State) (i : Nat) : Prop where
  core : t.core i = { s.core i with hold := .none, waits := [] }
  others : ∀ j, j ≠ i → t.core j = s.core j
  regs : ∀ a, a ≠ (Reg.coreStatus_wait_armed i).off → t.reg a = s.reg a

theorem State.withdraw_withdrawn {s : State} {i : Nat} (hown : ∀ x, (s.core i).hold = .wait x → x.remote = false) :
    s.withdrawn (s.withdraw i) i := by
  have hset : s.withdrawn ((s.setCore i { s.core i with hold := .none, waits := [] }).dropTables i 0) i :=
    ⟨(s.setCore_core i _ i).trans (if_pos rfl), fun j hj => (s.setCore_core i _ j).trans (if_neg hj), fun _ _ => rfl⟩
  cases hhold : (s.core i).hold with
  | none => rw [State.withdraw, hhold]; exact hset
  | fence m => rw [State.withdraw, hhold]; exact hset
  | end_ => rw [State.withdraw, hhold]; exact hset
  | wait x =>
    have hother (j : Nat) (hj : j ≠ i) : (s.unwaited i).core j = s.core j := hset.others j hj
    rw [State.withdraw_ownWait hhold (hown x hhold)]
    refine ⟨?_, fun j hj => ?_, fun a ha => ?_⟩
    · rw [State.setF_core, State.unwaited_core]
    · rw [State.setF_core, hother j hj]
    · rw [State.reg_setF_ne _ _ _ _ ha]
      rfl

/-- Fields that the start of a stream clears, each apart from the others. -/
theorem startCleared_apart (i : Nat) : ∀ f ∈ [Reg.coreRetired_count i, Reg.coreIcStat_misses i, Reg.mxaStatus_poison i,
    Reg.kvxLast_status i], f ∈ startCleared i ∧ ∀ g ∈ startCleared i, g = f ∨ fldApart g f = true := by
  simp [startCleared, fldApart, Reg.coreRetired_count, Reg.coreIcStat_misses, Reg.mxaStatus_nan_op, Reg.mxaStatus_inv,
    Reg.mxaStatus_ovf, Reg.mxaHeld_valid, Reg.mxaHeld_sfmt, Reg.mxaHeld_shadow_ready, Reg.mxaStatus_isat,
    Reg.mxaStatus_poison, Reg.mxaCntFreeze_feed_dry, Reg.mxaCntFreeze_shadow_late, Reg.mxaCntFreeze_drain_full,
    Reg.tleStatus_nan_op, Reg.tleStatus_inv, Reg.tleStatus_ovf, Reg.tleStatus_isat, Reg.tleStatus_poison,
    Reg.tleKpoison_kpoison, Reg.kvxLast_status, Reg.kvxLast_tag, Reg.kvxLast_op, Reg.kvxLost_valid, Reg.kvxLost_frame]

theorem coreControl_start {s : State} {i : Site} (hfree : s.locked i = false) (hon : s.coreOn i = true)
    (hidle : s.coreState i = csIdle) (hchan : (s.liveChan i).isSome = true)
    (hok : streamOk (s.streamBase i) (s.streamLen i) = true) :
    ∃ t, exec (.coreCtrlStart i) s = .next t ∧ t.coreState i = csRunning ∧ t.pc i = s.streamBase i ∧
      t.getF (Reg.coreRetired_count i) = 0 ∧ t.getF (Reg.coreIcStat_misses i) = 0 ∧
      t.getF (Reg.mxaStatus_poison i) = 0 ∧ t.getF (Reg.kvxLast_status i) = 0 ∧ (t.core i).ags = [] ∧
      (t.core i).frames = [] ∧ (t.core i).hold = .none ∧ (t.core i).icache = [] ∧ (t.core i).acc0 = Acc.start ∧
      (t.core i).acc1 = Acc.start ∧ (t.core i).tle = Tle.start ∧ (t.core i).scratch = (s.core i).scratch ∧
      (t.vault i).latchValid = [] ∧ ∀ j, j ≠ i → t.core j = s.core j := by
  obtain ⟨-, hbase, -, -⟩ := streamOk_bounds hok
  have hcore := s.startStream_core i
  have hzero (f : Fld) (hf : f ∈ [Reg.coreRetired_count i, Reg.coreIcStat_misses i, Reg.mxaStatus_poison i,
      Reg.kvxLast_status i]) : (s.startStream i).getF f = 0 :=
    s.startStream_cleared (startCleared_apart i f hf).1 (startCleared_apart i f hf).2
  refine ⟨_, coreCtrl_start hfree hon hidle hchan hok, s.startStream_coreState i,
    (s.startStream_pc i).trans (Nat.mod_eq_of_lt hbase), hzero _ ?_, hzero _ ?_, hzero _ ?_, hzero _ ?_, ?_, ?_, ?_, ?_,
    ?_, ?_, ?_, ?_, s.startStream_latches i, fun j hj => (s.startStream_atSite i).core_other (Fin.val_ne_of_ne hj)⟩
  iterate 4 simp only [List.mem_cons, true_or, or_true]
  all_goals
    rw [hcore]
    rfl

theorem coreControl_stop {s : State} {i : Site} (hfree : s.locked i = false) (hrun : s.coreState i = csRunning)
    (hhold : (s.core i).hold ≠ .end_) (hown : ∀ x, (s.core i).hold = .wait x → x.remote = false) :
    ∃ t, exec (.coreCtrlStop i) s = .next t ∧ t.coreState i = csBreak ∧ (t.core i).hold = .none ∧ t.pc i = s.pc i ∧
      t.getF (Reg.coreRetired_count i) = s.getF (Reg.coreRetired_count i) ∧ (t.core i).scratch = (s.core i).scratch ∧
      ∀ j, j ≠ i → t.core j = s.core j := by
  have hwithdrawn := State.withdraw_withdrawn hown
  have hhalted : (s.halted i).core i = { s.core i with hold := .none, waits := [], stepsLeft := 0 } := by
    rw [State.halted, State.endStep_core, hwithdrawn.core]
  have hreg (f : Fld) (hf : f.off ≠ (Reg.coreStatus_wait_armed i).off) :
      ((s.halted i).setF (Reg.coreStatus_state i) csBreak).getF f = s.getF f := by
    rw [State.getF_setF_off _ (Reg.coreStatus_state i) _ _ hf]
    exact State.getF_of_reg _ ((State.endStep_reg _ i _).trans (hwithdrawn.regs _ hf))
  refine ⟨(s.halted i).setF (Reg.coreStatus_state i) csBreak, ?_, ?_, ?_, hreg _ ?_, hreg _ ?_, ?_, fun j hj => ?_⟩
  · change execCoreCtrlStop i s = _
    rw [execCoreCtrlStop, hfree, State.pauseCore_eq hrun hhold]
    rfl
  · exact State.getF_setF_self _ _ _ (by simp [fldProper, Reg.coreStatus_state])
  · rw [State.setF_core, hhalted]
  · simp [Reg.corePc_pc, Reg.coreStatus_wait_armed]
  · simp [Reg.coreRetired_count, Reg.coreStatus_wait_armed]
  · rw [State.setF_core, hhalted]
  · rw [State.setF_core]
    exact ((State.endStep_atSite _ _).core_other (Fin.val_ne_of_ne hj)).trans (hwithdrawn.others j (Fin.val_ne_of_ne hj))

theorem coreControl_resume {s : State} {i : Site} (hfree : s.locked i = false) (hbreak : s.coreState i = csBreak)
    (hword : (s.core i).wordAt (s.pc i) ≠ .poison) :
    ∃ t, exec (.coreCtrlResume i) s = .next t ∧ t.coreState i = csRunning ∧
      t.core i = { s.core i with noBreak := true } ∧ t.pc i = s.pc i ∧ s.sameBeyondCores t := by
  refine ⟨(s.setCore i { s.core i with noBreak := true }).setF (Reg.coreStatus_state i) csRunning, ?_, ?_, ?_, ?_, ?_⟩
  · change execCoreCtrlResume i s = _
    rw [execCoreCtrlResume, hfree, State.resumeCore_eq hbreak hword]
    rfl
  · exact State.getF_setF_self _ _ _ (by simp [fldProper, Reg.coreStatus_state])
  · rw [State.setF_core, State.setCore_core, if_pos rfl]
  · exact State.getF_setF_off _ _ _ _ (by simp [Reg.corePc_pc, Reg.coreStatus_state])
  · exact State.sameBeyondCores_setF _ _ (State.sameBeyondCores_setCore _ _ (State.sameBeyondCores_refl s))

theorem coreControl : Claims.CoreControl :=
  fun _ _ hfree => ⟨coreControl_start hfree, coreControl_stop hfree, coreControl_resume hfree⟩

/-! ## The fills of the instruction cache -/

theorem SMap.find_keep {α : Type} (p : Nat → Bool) (m : SMap α) (k : Nat) :
    SMap.find (SMap.keep p m) k = if p k then SMap.find m k else none := by
  induction m with
  | nil => exact (ite_self _).symm
  | cons e m ih =>
    obtain ⟨j, x⟩ := e
    change SMap.find (List.filter (fun e => p e.1) ((j, x) :: m)) k = _
    have hkept (hj : p j = true) := List.filter_cons_of_pos (p := fun e : Nat × α => p e.1) (a := (j, x)) (l := m) hj
    have hgone (hj : ¬ p j = true) := List.filter_cons_of_neg (p := fun e : Nat × α => p e.1) (a := (j, x)) (l := m) hj
    by_cases hk : k = j
    · subst hk
      by_cases hp : p k
      · rw [hkept hp, if_pos hp, SMap.find, SMap.find, if_pos rfl, if_pos rfl]
      · rw [hgone hp, if_neg hp]
        exact ih.trans (if_neg hp)
    · have hrest : SMap.find ((j, x) :: m) k = SMap.find m k := by rw [SMap.find, if_neg hk]
      rw [hrest]
      by_cases hj : p j
      · rw [hkept hj, SMap.find, if_neg hk]
        exact ih
      · rw [hgone hj]
        exact ih

/-- A line in the cache, in place of another. -/
def Core.withLine (c : Core) (l gone : Nat) (x : ICLine) : Core :=
  { c with icache := SMap.insert l x (SMap.keep (fun k => k != gone || k == l) c.icache) }

theorem Core.withLine_find (c : Core) (l gone : Nat) (x : ICLine) : SMap.find (c.withLine l gone x).icache l = some x :=
  SMap.find_insert_same ..

theorem Core.withLine_find_ne (c : Core) {l k : Nat} (gone : Nat) (x : ICLine) (hk : k ≠ l) :
    SMap.find (c.withLine l gone x).icache k = if k = gone then none else SMap.find c.icache k := by
  rw [Core.withLine, SMap.find_insert_ne _ _ hk, SMap.find_keep]
  by_cases hgone : k = gone
  · simp [hgone, hgone ▸ hk]
  · simp [hgone]

/-- A clean line leaves no word poisoned that was not. -/
theorem Core.withLine_wordAt (c : Core) (l gone a : Nat) {x : ICLine} (hx : x.poison = false) (h : c.wordAt a ≠ .poison) :
    (c.withLine l gone x).wordAt a ≠ .poison := by
  rw [Core.wordAt] at *
  change (match SMap.find c.loopBuf a with | some w => Fetched.word w | none => _) ≠ _
  cases hloop : SMap.find c.loopBuf a with
  | some w => exact Fetched.noConfusion
  | none =>
    rw [hloop] at h
    simp only at h ⊢
    by_cases hl : a / 128 = l
    · rw [hl, Core.withLine_find]
      simp [hx]
    · rw [Core.withLine_find_ne _ _ _ hl]
      split
      · exact Fetched.noConfusion
      next y hy =>
        split at hy
        · cases hy
        · rw [hy] at h
          exact h

/-- A core's line filled where its next word stays unpoisoned. -/
theorem State.putLine_eq {s : State} {i l victim : Nat} {data : List PByte} (hclean : anyPoison data = false)
    (h : (s.core i).wordAt (s.pc i) ≠ .poison) :
    s.putLine i l victim data = s.setCore i ((s.core i).withLine l victim (lineOf data)) := by
  have hword := (s.core i).withLine_wordAt l victim (s.pc i) (x := lineOf data) hclean h
  change (s.setCore i ((s.core i).withLine l victim (lineOf data))).checkLine i = _
  have hcore : (s.setCore i ((s.core i).withLine l victim (lineOf data))).core i =
      (s.core i).withLine l victim (lineOf data) := (State.setCore_core ..).trans (if_pos rfl)
  rw [State.checkLine, hcore, State.pc, State.setCore_getF, ← State.pc, if_neg]
  simp [hword]

theorem State.touchRow_records (s : State) (v p : Nat) : (s.touchRow v p).records = s.records := by
  rw [State.touchRow]
  split
  · rfl
  · exact State.incWrap_records ..

/-- Reading clean words raises no record (16 R578). -/
theorem State.readVault_records {s : State} {v off n : Nat} (hclean : ∀ x ∈ s.wordsOf v off n, x.dec.kind = .clean)
    (narrow : Bool) : (s.readVault v off n narrow).1.records = s.records := by
  have htouch (l : List (Nat × Nat)) (t : State) :
      (l.foldl (fun s c => s.touchRow v (physAddr (s.frameBase v) c.1)) t).records = t.records := by
    induction l generalizing t with
    | nil => rfl
    | cons c l ih => exact (ih _).trans (State.touchRow_records ..)
  have hnote (l : List WordRead) (hl : ∀ x ∈ l, x.dec.kind = .clean) (t : State) :
      (l.foldl (fun s w => s.noteWord v w.off w.phys w.dec) t) = t := by
    induction l generalizing t with
    | nil => rfl
    | cons x l ih =>
      rw [List.foldl_cons, ih (fun y hy => hl y (List.mem_cons_of_mem x hy)), State.noteWord,
        hl x List.mem_cons_self]
  rw [State.readVault]
  split
  · rfl
  · simp only
    rw [hnote _ fun x hx => hclean x (List.mem_filter.1 hx).1]
    exact (State.incWrap_records ..).trans (htouch _ _)

theorem State.setWaits_onlyCore (s : State) (i : Nat) (bs : List (Nat × Nat)) :
    s.onlyCore (s.setWaits i bs) i { s.core i with waits := bs } := by
  rw [State.setWaits]
  split
  case isTrue h =>
    have hsame : { s.core i with waits := bs } = s.core i := by rw [← h]
    rw [hsame]
    exact ⟨rfl, fun _ _ => rfl, fun _ => rfl, rfl⟩
  case isFalse => exact State.onlyCore_setCore s i _

theorem State.vaultsSame_getElem_wordsOf {s t : State} (h : s.vaultsSame t) (v off n : Nat) :
    t.wordsOf v off n = s.wordsOf v off n := by
  rw [State.wordsOf, State.wordsOf, State.vaultsSame_frameBase h, h.vault]

theorem State.vaultsSame_vaultByte {s t : State} (h : s.vaultsSame t) (v b : Nat) : t.vaultByte v b = s.vaultByte v b := by
  rw [State.vaultByte_eq, State.vaultByte_eq, State.vaultsSame_byteRead h]

/-- A read of a core's port is granted and served with clean words. -/
theorem State.lineRead {s : State} {i l : Nat} (hret : s.vaultState i ≠ vsRetired)
    (hclean : ∀ x ∈ s.wordsOf i (128 * l) 128, x.gone = false ∧ x.dec.kind = .clean) (bs : List (Nat × Nat)) :
    ∃ u, ((s.setWaits i bs).arbitrate i .coreRead false (128 * l) 128).readVault i (128 * l) 128 false =
        (u, s.peekVault i (128 * l) 128, stOk) ∧ (s.setWaits i bs).tended u i ∧ u.records = s.records := by
  have hwaits := s.setWaits_onlyCore i bs
  have hsame := State.vaultsSame_onlyCore hwaits
  have hgrant := (s.setWaits i bs).tended_arbitrate i .coreRead false (128 * l) 128
  have hwords : ((s.setWaits i bs).arbitrate i .coreRead false (128 * l) 128).wordsOf i (128 * l) 128 =
      s.wordsOf i (128 * l) 128 :=
    (State.tended_wordsOf hgrant i (128 * l) 128).trans (State.vaultsSame_getElem_wordsOf hsame i (128 * l) 128)
  have hread : s.readsClean i (128 * l) 128 := State.readsClean_of_status hret
    ((readStatus_ok_iff _).2 fun w hw => ⟨(hclean w hw).1, by rw [(hclean w hw).2]; rfl⟩)
  have hread' := State.readsClean_tended (State.vaultsSame_readsClean hsame hread) hgrant
  have hrecords : ((s.setWaits i bs).arbitrate i .coreRead false (128 * l) 128).records = s.records := by
    have hrest : (s.setWaits i bs).records = s.records :=
      (congrArg State.records (State.sameBeyondCores_eq hwaits.rest) :)
    rw [← hrest, State.arbitrate, State.bookAs]
    split <;> rfl
  refine ⟨_, Prod.ext rfl (Prod.ext ?_ (State.readVault_status hread' (by decide) false)),
    State.tended_trans hgrant (State.tended_readVault _ _ _ _ _), ?_⟩
  · rw [State.readVault_data, State.tended_peekVault hgrant, State.vaultsSame_peekVault hsame]
  · rw [State.readVault_records (fun x hx => (hclean x (hwords ▸ hx)).2), hrecords]

/-- What a fill counts and records (02 R61, 16 R591 kind 6). -/
def State.fillCounted (u : State) (i l ahead : Nat) (fail : Bool) : State :=
  if fail then (u.incSat (Reg.coreIcStat_parity_refetch i) 1).record (mkRecord u 0 3 i 0 6 (128 * l) 0)
  else if ahead = 0 then u.incSat (Reg.coreIcStat_misses i) 1 else u

theorem exec_icacheLineFill {s : State} {i : Site} {ahead : Fin 16} {fail : Bool} {victim l : Nat}
    (hl : s.pc i / 128 + ahead = l) (hrun : s.coreState i = csRunning) (hpast : (s.core i).pastEnd = false)
    (hnear : ahead.val ≤ 4 ∨ s.scanLine i = some l) (hend : 128 * l < s.streamEnd i)
    (hhave : (SMap.find (s.core i).icache l).isSome = fail) (hvictim : fail = false → (s.core i).victimOk l victim = true)
    (hready : s.readReady i (128 * l) 128 = true) (hret : s.vaultState i ≠ vsRetired)
    (hclean : ∀ x ∈ s.wordsOf i (128 * l) 128, x.gone = false ∧ x.dec.kind = .clean)
    (hinject : s.injected 2 i = false) : ∃ u bs, (s.setWaits i bs).tended u i ∧ u.records = s.records ∧
      exec (.icacheLineFill i ahead fail victim) s =
        .next ((u.fillCounted i l ahead fail).putLine i l (if fail then l else victim) (s.peekVault i (128 * l) 128)) := by
  obtain ⟨u, hread, htended, hrecords⟩ := State.lineRead hret hclean
    ((s.core i).waits.filter (fun b => !((s.banksOf i (128 * l) 128).map (fun b => (i.val, b))).contains b))
  refine ⟨u, _, htended, hrecords, ?_⟩
  have hopen : s.portOpen i = true := by
    rw [State.readReady, Bool.and_eq_true] at hready
    exact hready.1
  have hscan : (decide (4 < ahead.val) && s.scanLine i != some l) = false := by
    rcases hnear with hnear | hnear
    · rw [decide_eq_false (by omega), Bool.false_and]
    · rw [hnear, bne_self_eq_false, Bool.and_false]
  have hplace : (fail || (s.core i).victimOk l victim) = true := by
    cases fail with
    | true => rfl
    | false => exact hvictim rfl
  have hgo : (s.coreState i != csRunning || (s.core i).pastEnd || decide (s.streamEnd i ≤ 128 * l) ||
      (decide (4 < ahead.val) && s.scanLine i != some l) || (SMap.find (s.core i).icache l).isSome != fail ||
      !(fail || (s.core i).victimOk l victim) || !s.portOpen i) = false := by
    rw [hscan, hplace, hrun, hpast, hhave, hopen, decide_eq_false (by omega)]
    simp
  have hlow (f : Fld) (hf : f.off < 0x01000000) : u.getF f = s.getF f := by
    have hbase := siteBase_ge i
    exact (State.atPort_getF htended.port f (.inl (by omega))).trans
      (State.getF_of_reg _ ((s.setWaits_onlyCore i _).regs _))
  have hinject' : u.injected 2 i = false := by
    rw [← hinject, State.injected, State.injected, State.on, State.on, hlow _ (by decide), hlow _ (by decide),
      hlow _ (by decide)]
  have hrecord : mkRecord (s.setWaits i ((s.core i).waits.filter
      (fun b => !((s.banksOf i (128 * l) 128).map (fun b => (i.val, b))).contains b))) 0 3 i 0 6 (128 * l) 0 =
      mkRecord u 0 3 i 0 6 (128 * l) 0 := by rw [mkRecord, mkRecord, State.atPort_now htended.port]
  change execIcacheLineFill i ahead fail victim s = _
  rw [execIcacheLineFill]
  simp only [hl, hgo, hready, Bool.not_true, Bool.false_eq_true, if_false, State.waitOver, hread]
  rw [if_neg (by decide), hinject', hrecord, State.fillCounted]
  cases fail with
  | true => rfl
  | false =>
    simp only [Bool.false_eq_true, if_false, Fin.val_eq_zero_iff]
    rfl

section
variable (u : State) (i l ahead : Nat) (fail : Bool)

theorem State.fillCounted_core (j : Nat) : (u.fillCounted i l ahead fail).core j = u.core j := by
  rw [State.fillCounted]
  split
  · rw [State.record_core, State.incSat_core]
  · split
    · rw [State.incSat_core]
    · rfl

theorem State.fillCounted_vault (v : Nat) : (u.fillCounted i l ahead fail).vault v = u.vault v := by
  rw [State.fillCounted]
  split
  · rw [State.record_vault, State.incSat_vault]
  · split
    · rw [State.incSat_vault]
    · rfl

theorem State.fillCounted_rst : (u.fillCounted i l ahead fail).rst = u.rst := by
  rw [State.fillCounted]
  split
  · rw [State.record_rst, State.incSat_rst]
  · split
    · rw [State.incSat_rst]
    · rfl

theorem State.fillCounted_reg {a : Nat} (ha : a ≠ siteBase i + 0x68) : (u.fillCounted i l ahead fail).reg a = u.reg a := by
  rw [State.fillCounted]
  split
  · rw [State.record_reg]
    exact State.reg_setF_ne _ (Reg.coreIcStat_parity_refetch i) _ _ ha
  · split
    · exact State.reg_setF_ne _ (Reg.coreIcStat_misses i) _ _ ha
    · rfl

theorem State.fillCounted_vaultsSame : u.vaultsSame (u.fillCounted i l ahead fail) :=
  ⟨u.fillCounted_vault i l ahead fail,
    fun v x hx hx' => u.fillCounted_reg i l ahead fail (siteReg_ne_coreReg v i hx hx' (by decide)),
    u.fillCounted_rst i l ahead fail⟩

theorem State.fillCounted_records : (u.fillCounted i l ahead fail).records =
    u.records ++ if fail then [mkRecord u 0 3 i 0 6 (128 * l) 0] else [] := by
  rw [State.fillCounted]
  cases fail with
  | true => rw [if_pos rfl, State.record, State.incSat_records, if_pos rfl]
  | false =>
    rw [if_neg Bool.false_ne_true, if_neg Bool.false_ne_true, List.append_nil]
    split
    · exact State.incSat_records ..
    · rfl

theorem State.getF_incSat_self (s : State) (f : Fld) (n : Nat) (hp : fldProper f = true) :
    (s.incSat f n).getF f = satAdd (fldWidth f) (s.getF f) n := by
  rw [State.incSat, State.getF_setF_self _ _ _ hp]
  refine Nat.mod_eq_of_lt (Nat.lt_of_le_of_lt (Nat.min_le_right _ _) ?_)
  exact Nat.sub_lt (Nat.two_pow_pos _) (by decide)

theorem State.fillCounted_misses : (u.fillCounted i l ahead fail).getF (Reg.coreIcStat_misses i) =
    if fail = false ∧ ahead = 0 then Nat.min (u.getF (Reg.coreIcStat_misses i) + 1) (2 ^ 24 - 1)
    else u.getF (Reg.coreIcStat_misses i) := by
  have hproper : fldProper (Reg.coreIcStat_misses i) = true := by simp [fldProper, Reg.coreIcStat_misses]
  rw [State.fillCounted]
  cases fail with
  | true =>
    rw [if_pos rfl, State.record_getF, if_neg (by simp)]
    exact State.getF_setF_apart u (Reg.coreIcStat_parity_refetch i) _ _
      (by simp [fldProper, Reg.coreIcStat_parity_refetch])
      (by simp [fldApart, Reg.coreIcStat_parity_refetch, Reg.coreIcStat_misses])
  | false =>
    simp only [Bool.false_eq_true, if_false, true_and]
    split
    · exact State.getF_incSat_self _ _ _ hproper
    · rfl

theorem State.fillCounted_parity : (u.fillCounted i l ahead fail).getF (Reg.coreIcStat_parity_refetch i) =
    if fail then Nat.min (u.getF (Reg.coreIcStat_parity_refetch i) + 1) 255
    else u.getF (Reg.coreIcStat_parity_refetch i) := by
  have hproper : fldProper (Reg.coreIcStat_parity_refetch i) = true := by
    simp [fldProper, Reg.coreIcStat_parity_refetch]
  rw [State.fillCounted]
  cases fail with
  | true =>
    rw [if_pos rfl, State.record_getF, State.getF_incSat_self _ _ _ hproper, if_pos rfl]
    rfl
  | false =>
    simp only [Bool.false_eq_true, if_false]
    split
    · exact State.getF_setF_apart u (Reg.coreIcStat_misses i) _ _ (by simp [fldProper, Reg.coreIcStat_misses])
        (by simp [fldApart, Reg.coreIcStat_parity_refetch, Reg.coreIcStat_misses])
    · rfl

end

theorem instructionCacheFill : Claims.InstructionCacheFill := by
  intro s i ahead fail victim l c gone hrun hpast hnear hend hhave hvictim hready hret hclean hword hinject
  obtain ⟨u, bs, htended, hrecords, hexec⟩ :=
    exec_icacheLineFill rfl hrun hpast hnear hend hhave hvictim hready hret hclean hinject
  have hwaits := s.setWaits_onlyCore i bs
  have hreg (a : Nat) (ha : a < siteBase i + 0x2020) : u.reg a = s.reg a :=
    (htended.port.regs a (.inl ha)).trans (hwaits.regs a)
  have hcore : (u.fillCounted i l ahead fail).core i = { s.core i with waits := bs } :=
    (State.fillCounted_core ..).trans ((State.atPort_core htended.port i).trans hwaits.core)
  have hfield (f : Fld) (hf : f.off ≠ siteBase i + 0x68 ∧ f.off < siteBase i + 0x2020) :
      (u.fillCounted i l ahead fail).getF f = s.getF f :=
    State.getF_of_reg f ((u.fillCounted_reg i l ahead fail hf.1).trans (hreg _ hf.2))
  have hpc : (u.fillCounted i l ahead fail).pc i = s.pc i := hfield _ (by simp [Reg.corePc_pc])
  have hdata : anyPoison (s.peekVault i (128 * l) 128) = false := (s.anyPoison_peekVault i _ _).2
    (State.readsClean_of_status hret ((readStatus_ok_iff _).2 fun w hw => ⟨(hclean w hw).1, by rw [(hclean w hw).2]; rfl⟩))
  have hbytes (v b : Nat) : (u.fillCounted i l ahead fail).vaultByte v b = s.vaultByte v b :=
    (State.vaultsSame_vaultByte (u.fillCounted_vaultsSame i l ahead fail) v b).trans
      ((State.tended_vaultByte htended v b).trans
        (State.vaultsSame_vaultByte (State.vaultsSame_onlyCore hwaits) v b))
  rw [State.putLine_eq hdata (by rw [hcore, hpc]; exact hword)] at hexec
  have hset : ((u.fillCounted i l ahead fail).setCore i (((u.fillCounted i l ahead fail).core i).withLine l gone
      (lineOf (s.peekVault i (128 * l) 128)))).core i =
      ({ s.core i with waits := bs } : Core).withLine l gone (lineOf (s.peekVault i (128 * l) 128)) := by
    rw [State.setCore_core, if_pos rfl, hcore]
  refine ⟨_, hexec, ?_, fun k hk => ?_, ?_, ?_, fun v b _ _ => ?_, ?_, ?_, ?_⟩
  · rw [hset]
    exact Core.withLine_find ..
  · rw [hset]
    exact Core.withLine_find_ne _ _ _ hk
  · exact (hfield _ (by simp [Reg.coreStatus_state])).trans hrun
  · exact hpc
  · exact hbytes v b
  · have hmisses : u.getF (Reg.coreIcStat_misses i) = s.getF (Reg.coreIcStat_misses i) :=
      State.getF_of_reg _ (hreg _ (by simp [Reg.coreIcStat_misses]))
    rw [State.setCore_getF, State.fillCounted_misses, hmisses]
  · have hparity : u.getF (Reg.coreIcStat_parity_refetch i) = s.getF (Reg.coreIcStat_parity_refetch i) :=
      State.getF_of_reg _ (hreg _ (by simp [Reg.coreIcStat_parity_refetch]))
    rw [State.setCore_getF, State.fillCounted_parity, hparity]
  · have hrecord : mkRecord u 0 3 i 0 6 (128 * l) 0 = mkRecord s 0 3 i 0 6 (128 * l) 0 := by
      rw [mkRecord, mkRecord, State.atPort_now htended.port, State.sameBeyondCores_now hwaits.rest]
    rw [State.setCore_records, State.fillCounted_records, hrecords, hrecord]

/-- Settles O32: what CORE_CTRL does to a core in the state its command needs, and what a fill puts into the
instruction cache. -/
theorem coreControlAndCache : Obligations.CoreControlAndCache := by
  unfold Obligations.CoreControlAndCache
  exact ⟨coreControl, instructionCacheFill⟩

end Sys2Proof.Machine
end

section
/-!
PROOF. GATHER, SCATTER and FILL (O15). The statement is of every state, also of one that lists a die link no package has:
such a link's DLK_INJECT register can be a core's CORE_RETIRED.
-/
namespace Sys2Proof.Machine

/-- SCATTER of one row of 32 bytes: the row where a0 names, the memory where a1 names, the index where a2 names. -/
def scatterRow : BitVec 128 := 0x00000020000000200001021000000106

/-- A link whose DLK_INJECT.crc is bit 0 of CORE_RETIRED of core 0. -/
def strayLink : Nat := 131068

theorem strayLink_injects : Reg.dlkInject_crc strayLink = { Reg.coreRetired_count 0 with hi := 0 } := by decide

/-- Core 0 scatters a row of zeros to its own vault, where another node watches a flag in it; it has retired one
instruction, and link `strayLink` has bytes that wait. -/
def scatterTold : State :=
  let s := ((windowed 0 ⟨0, []⟩ [(0, ⟨0, 3, 0, 0, 0⟩), (1, ⟨64, 0, 0, 0, 0⟩), (2, ⟨1024, 3, 0, 0, 0⟩)] []
    scatterRow).setReg (State.reset.entryOff 0 0) 0x10001).setF (Reg.coreRetired_count 0) 1
  { s with
    vaults := [(0, { s.vaultDefault with watches := [⟨64, .remote 0 0 0 0⟩] })]
    links := [(strayLink, { DieLink.reset with stream := [0] })] }

/-- The pieces of the row. -/
def scatteredRow : List Piece := [⟨.vault 0 64, 0, 32⟩]

/-- What SCATTER finds as it checks its row. -/
def scatterChecked : Rows :=
  scatterTold.checkRows 0 (rowOps (scatterTold.core 0) scatterRow.toNat) [some 0] true

theorem scatterChecked_rows : scatterChecked.rows = [(0, some scatteredRow)] := by decide +kernel

theorem scatterTold_indices : scatterTold.rowIndices 0 (rowOps (scatterTold.core 0) scatterRow.toNat) =
    (scatterTold, .ok [some 0]) := rfl

theorem scatteredRow_clean : scatterTold.piecesClean scatteredRow := by
  intro p hp
  rw [List.mem_singleton.1 hp]
  exact ⟨0, 64, rfl, by decide +kernel, by decide +kernel⟩

/-- As the watch is told, the link's waiting bytes go out with its injection, which is thereby disarmed. -/
theorem scatterTold_retired {t : State} (h : exec (.scatter 0 scatterRow) scatterTold = .next t) :
    t.getF (Reg.coreRetired_count 0) = 1 := by
  rw [← Host.Outcome.next.inj h]
  decide +kernel

/-- Refutes O15: SCATTER tells the watch of another node, the fabric then serves every link that the state lists, and the
one here clears, as its CRC injection is used, the bit of CORE_RETIRED that its register is; the count of the instruction
is lost. -/
theorem not_gatherScatterFill : ¬ Obligations.GatherScatterFill := by
  rintro ⟨hrows, -⟩
  have hpieces : scatterChecked.rows.flatMap (fun x => x.2.getD []) = scatteredRow := by rw [scatterChecked_rows]; rfl
  obtain ⟨t, hexec, hwent, -⟩ := hrows scatterTold 0 scatterRow true [some 0] (by decide +kernel) (by decide)
    (by decide +kernel) scatterTold_indices (by decide) ⟨by decide +kernel, by decide +kernel⟩ (by decide +kernel)
    (by decide +kernel) (hpieces ▸ scatteredRow_clean) (fun _ => hpieces ▸ List.pairwise_singleton _ _)
  have hcounted : scatterTold.getF (Reg.coreRetired_count 0) = 1 := by decide +kernel
  have hretired : t.getF (Reg.coreRetired_count 0) = (scatterTold.getF (Reg.coreRetired_count 0) + 1) % 2 ^ 48 :=
    hwent.retired
  rw [hcounted, scatterTold_retired hexec] at hretired
  exact absurd hretired (by decide)

end Sys2Proof.Machine
end

section
/-!
PROOF. What packets that set out from a site can do on their way (10 R369, R370, R386, 11 R415 to R421): they wait at
ports and links, leave, or are refused as unreachable; none of them reaches a site of this package. It is said once for the
fabric's operations, and with it which parts of the state stay as they are.
-/
namespace Sys2Proof.Machine

/-! ## Transmitters -/

theorem Tx.mem_of_heads {x : Tx} {rank : TxEnt → Nat} {e : TxEnt} (h : e ∈ x.heads rank) : e ∈ x.q := by
  have hgrow : ∀ (q hs : List TxEnt),
      e ∈ q.foldl (fun hs e => if hs.any (sameLine rank e) then hs else hs ++ [e]) hs → e ∈ hs ∨ e ∈ q := by
    intro q
    induction q with
    | nil => exact fun hs h => Or.inl h
    | cons a q ih =>
      intro hs h
      have := ih _ h
      grind
  simpa using hgrow x.q [] h

theorem Tx.mem_of_first {x : Tx} {rank : TxEnt → Nat} {ok : TxEnt → Bool} {c : Nat} {e : TxEnt}
    (h : x.first rank ok c = some e) : e ∈ x.q := by
  have hmem : ∀ {f : TxEnt → Bool},
      ((x.heads rank).filter (fun e => e.pkt.cls == c && ok e)).find? f = some e → e ∈ x.q := fun hf =>
    Tx.mem_of_heads (List.mem_of_mem_filter (List.mem_of_find?_eq_some hf))
  unfold Tx.first at h
  dsimp only at h
  split at h
  · next hf => exact hmem (h ▸ hf)
  · next hf => exact hmem (h ▸ hf)
  · split at h
    · exact absurd h (by simp)
    · exact hmem h

/-- What a transmitter sends next waited in it, and nothing new waits after it. -/
theorem Tx.mem_of_pick {x y : Tx} {w : List Nat} {rank : TxEnt → Nat} {ok : TxEnt → Bool} {e : TxEnt}
    (h : x.pick w rank ok = some (e, y)) : e ∈ x.q ∧ ∀ a ∈ y.q, a ∈ x.q := by
  unfold Tx.pick at h
  split at h
  · exact absurd h (by simp)
  · obtain ⟨f, hf, heq⟩ := Option.map_eq_some_iff.mp h
    obtain ⟨rfl, rfl⟩ := Prod.mk.inj heq
    exact ⟨Tx.mem_of_first hf, fun a ha => List.mem_of_mem_erase ha⟩

theorem Tx.pick_empty {x : Tx} (w : List Nat) (rank : TxEnt → Nat) (ok : TxEnt → Bool) (h : x.q = []) :
    x.pick w rank ok = none := by
  cases hp : x.pick w rank ok with
  | none => rfl
  | some r =>
    have := (Tx.mem_of_pick (y := r.2) hp).1
    simp [h] at this

/-! ## Where packets wait -/

/-- A waiting packet goes out by a port, not to a site of this package; where `near`, of a tower of the package. -/
def TxEnt.outward (near : Prop) (e : TxEnt) : Prop :=
  match e.goal with
  | .port p => near → e.die < 5 ∧ p < 32
  | .spray => near → e.die < 5
  | .site _ _ _ => False

/-- A packet is refused as unreachable; where `near`, at a tower of the package. -/
def Landing.unreached (near : Prop) : Landing → Prop
  | .site _ _ _ _ => False
  | .refuse t _ st => st = stUnreachable ∧ (near → t < 5)

/-- Every waiting packet goes outward, and what has landed is refused; where `near`, nothing waits at ports and links that
the package does not have. -/
structure State.Outward (near : Prop) (s : State) : Prop where
  ports : ∀ t p, ∀ e ∈ (s.port t p).tx.q, e.outward near
  strayPorts : near → ∀ t p, 160 ≤ 32 * t + p → (s.port t p).tx.q = []
  links : ∀ l far, ∀ e ∈ ((s.link l).txOf far).q, e.outward near
  strayLinks : near → ∀ l, 8 ≤ l → (s.link l).tx.q = [] ∧ (s.link l).txFar.q = [] ∧ (s.link l).stream = []
  landed : ∀ x ∈ s.landed, x.unreached near

/-- An address in the window of a site. -/
def siteAddr (a : Nat) : Prop := 0x01000000 ≤ a ∧ a < 0x05000000 ∧ a % 0x01000000 < 0x00900000

theorem State.Outward.of_same {near : Prop} {s t : State} (h : s.Outward near) (hp : t.ports = s.ports)
    (hl : t.links = s.links) (hd : t.landed = s.landed) : t.Outward near where
  ports := by unfold State.port; rw [hp]; exact h.ports
  strayPorts := by unfold State.port; rw [hp]; exact h.strayPorts
  links := by unfold State.link; rw [hl]; exact h.links
  strayLinks := by unfold State.link; rw [hl]; exact h.strayLinks
  landed := by rw [hd]; exact h.landed

/-- `s` comes from `s₀` by packets on their way outward: no sender changes and, where `near`, no core and no register of
a site. -/
structure State.Flow (near : Prop) (s₀ s : State) : Prop where
  outward : s.Outward near
  senders : s.senders = s₀.senders
  cores : near → s.cores = s₀.cores
  regs : near → ∀ a, siteAddr a → s.reg a = s₀.reg a

theorem State.port_setPort (s : State) (t p : Nat) (x : Port) (t' p' : Nat) :
    (s.setPort t p x).port t' p' = if 32 * t' + p' = 32 * t + p then x else s.port t' p' := by
  unfold State.port State.setPort
  exact SMap.get_put _ _ _ _ _

theorem State.link_setLink (s : State) (l : Nat) (x : DieLink) (l' : Nat) :
    (s.setLink l x).link l' = if l' = l then x else s.link l' := by
  unfold State.link State.setLink
  exact SMap.get_put _ _ _ _ _

theorem siteAddr_siteReg {i x : Nat} (hi : i < siteCount) (hx : x < 0x4000) : siteAddr (siteBase i + x) := by
  unfold siteAddr siteBase towerBase siteCount at *
  omega

namespace State.Flow
variable {near : Prop} {s₀ s t : State}

theorem refl (h : s.Outward near) : Flow near s s := ⟨h, rfl, fun _ => rfl, fun _ _ _ => rfl⟩

/-- A change of the rest of the state. -/
theorem of_same (h : Flow near s₀ s) (hp : t.ports = s.ports) (hl : t.links = s.links) (hd : t.landed = s.landed)
    (hs : t.senders = s.senders) (hc : t.cores = s.cores) (hr : t.regs = s.regs) : Flow near s₀ t where
  outward := h.outward.of_same hp hl hd
  senders := hs.trans h.senders
  cores := fun hn => hc.trans (h.cores hn)
  regs := by unfold State.reg; rw [hr]; exact h.regs

theorem setF (h : Flow near s₀ s) (f : Fld) (v : Nat) (hf : near → ¬ siteAddr f.off) : Flow near s₀ (s.setF f v) where
  outward :=
    { ports := h.outward.ports, strayPorts := h.outward.strayPorts, links := h.outward.links
      strayLinks := h.outward.strayLinks, landed := h.outward.landed }
  senders := h.senders
  cores := h.cores
  regs := fun hn a ha => by
    rw [State.reg_setF_ne _ _ _ _ (by rintro rfl; exact hf hn ha)]
    exact h.regs hn a ha

theorem incSat (h : Flow near s₀ s) (f : Fld) (v : Nat) (hf : near → ¬ siteAddr f.off) : Flow near s₀ (s.incSat f v) :=
  h.setF _ _ hf
theorem incWrap (h : Flow near s₀ s) (f : Fld) (v : Nat) (hf : near → ¬ siteAddr f.off) : Flow near s₀ (s.incWrap f v) :=
  h.setF _ _ hf

/-- A port keeps what waits in it, or takes packets that go outward. -/
theorem setPort (h : Flow near s₀ s) (t p : Nat) (x : Port) (hq : ∀ e ∈ x.tx.q, e.outward near)
    (hstray : near → 160 ≤ 32 * t + p → x.tx.q = []) : Flow near s₀ (s.setPort t p x) where
  outward :=
    { ports := fun t' p' => by
        rw [State.port_setPort]
        split
        · exact hq
        · exact h.outward.ports t' p'
      strayPorts := fun hn t' p' hle => by
        rw [State.port_setPort]
        split
        · next he => exact hstray hn (he ▸ hle)
        · exact h.outward.strayPorts hn t' p' hle
      links := h.outward.links, strayLinks := h.outward.strayLinks, landed := h.outward.landed }
  senders := h.senders
  cores := h.cores
  regs := h.regs

theorem setPort_same (h : Flow near s₀ s) (t p : Nat) (x : Port) (hq : x.tx.q = (s.port t p).tx.q) :
    Flow near s₀ (s.setPort t p x) :=
  h.setPort t p x (hq ▸ h.outward.ports t p) (fun hn hle => hq ▸ h.outward.strayPorts hn t p hle)

theorem setLink (h : Flow near s₀ s) (l : Nat) (x : DieLink) (hq : ∀ far, ∀ e ∈ (x.txOf far).q, e.outward near)
    (hstray : near → 8 ≤ l → x.tx.q = [] ∧ x.txFar.q = [] ∧ x.stream = []) : Flow near s₀ (s.setLink l x) where
  outward :=
    { ports := h.outward.ports, strayPorts := h.outward.strayPorts
      links := fun l' => by
        rw [State.link_setLink]
        split
        · exact hq
        · exact h.outward.links l'
      strayLinks := fun hn l' hle => by
        rw [State.link_setLink]
        split
        · next he => exact hstray hn (he ▸ hle)
        · exact h.outward.strayLinks hn l' hle
      landed := h.outward.landed }
  senders := h.senders
  cores := h.cores
  regs := h.regs

theorem setLink_same (h : Flow near s₀ s) (l : Nat) (x : DieLink) (hq : x.tx = (s.link l).tx)
    (hfar : x.txFar = (s.link l).txFar) (hstream : x.stream = (s.link l).stream) : Flow near s₀ (s.setLink l x) :=
  h.setLink l x (fun far => by
      cases far
      · rw [show x.txOf false = _ from hq]; exact h.outward.links l false
      · rw [show x.txOf true = _ from hfar]; exact h.outward.links l true)
    (by rw [hq, hfar, hstream]; exact fun hn => h.outward.strayLinks hn l)

theorem land (h : Flow near s₀ s) (x : Landing) (hx : x.unreached near) :
    Flow near s₀ { s with landed := s.landed ++ [x] } where
  outward :=
    { ports := h.outward.ports, strayPorts := h.outward.strayPorts, links := h.outward.links
      strayLinks := h.outward.strayLinks
      landed := fun y hy => by
        rcases List.mem_append.mp hy with hy | hy
        · exact h.outward.landed y hy
        · rw [List.mem_singleton.mp hy]; exact hx }
  senders := h.senders
  cores := h.cores
  regs := h.regs

theorem ite {c : Prop} [Decidable c] (hs : c → Flow near s₀ s) (ht : ¬ c → Flow near s₀ t) :
    Flow near s₀ (if c then s else t) := by
  split
  · next h => exact hs h
  · next h => exact ht h

theorem foldl {α : Type} {f : State → α → State} (h : Flow near s₀ s)
    (hf : ∀ s, Flow near s₀ s → ∀ a, Flow near s₀ (f s a)) (l : List α) : Flow near s₀ (l.foldl f s) := by
  induction l generalizing s with
  | nil => exact h
  | cons x xs ih => exact ih (hf s h x)

theorem withSent (h : Flow near s₀ s) (xs : List Sent) : Flow near s₀ { s with sent := xs } :=
  h.of_same rfl rfl rfl rfl rfl rfl
theorem emit (h : Flow near s₀ s) (o) : Flow near s₀ (s.emit o) := h.of_same rfl rfl rfl rfl rfl rfl
theorem bump (h : Flow near s₀ s) (n) : Flow near s₀ (s.bump n) := h.of_same rfl rfl rfl rfl rfl rfl
theorem record (h : Flow near s₀ s) (r) : Flow near s₀ (s.record r) :=
  h.of_same (by simp) (by simp) (by simp) (by simp) (by simp) (by simp)
theorem setTower (h : Flow near s₀ s) (t x) : Flow near s₀ (s.setTower t x) := h.of_same rfl rfl rfl rfl rfl rfl

/-! ## Ports -/

/-- A register of a tower's fabric block is none of a site. -/
theorem tower_not_siteAddr {t x : Nat} (hlo : 0x00900000 ≤ x) (hhi : x < 0x01000000) : ¬ siteAddr (towerBase t + x) := by
  unfold siteAddr towerBase
  omega

theorem wireFlit (h : Flow near s₀ s) (t p seq nak bs) : Flow near s₀ (s.wireFlit t p seq nak bs) := by
  have hx := h.setPort_same t p { s.port t p with retry := (s.port t p).retry.controlSent } rfl
  unfold State.wireFlit
  exact ite (fun _ => ((hx.setF _ _ fun _ => tower_not_siteAddr (x := 0xC10420) (by decide) (by decide)).bump _).emit _)
    (fun _ => hx.emit _)

theorem newFlit (h : Flow near s₀ s) (t p itag bs) : Flow near s₀ (s.newFlit t p itag bs) :=
  (h.setPort_same t p { s.port t p with retry := (s.port t p).retry.push itag s.now bs } rfl).wireFlit ..

theorem discard (h : Flow near s₀ s) (t) : Flow near s₀ (s.discard t) :=
  h.incSat _ _ fun _ => tower_not_siteAddr (x := 0xC00030) (by decide) (by decide)

theorem freeRx (h : Flow near s₀ s) (back k) : Flow near s₀ (s.freeRx back k) := by
  unfold State.freeRx
  split
  · exact h
  · exact h.setPort_same _ _ _ rfl

theorem outlived (h : Flow near s₀ s) (t k) (ht : near → t < 5) : Flow near s₀ (s.outlived t k) :=
  ite (fun _ => (h.discard t).land _ ⟨rfl, ht⟩) (fun _ => h.discard t)

theorem bounce (h : Flow near s₀ s) (t k) (ht : near → t < 5) : Flow near s₀ (s.bounce t k stUnreachable) :=
  ite (fun _ => h.land _ ⟨rfl, ht⟩) (fun _ => h.discard t)

theorem sendOn (h : Flow near s₀ s) (t p e) (ht : near → t < 5) : Flow near s₀ (s.sendOn t p e) := by
  have hf := h.freeRx e.back e.pkt
  have hspent := hf.setPort_same t p { (s.freeRx e.back e.pkt).port t p with
    retry := ((s.freeRx e.back e.pkt).port t p).retry.spend (creditId (olderBy e.pkt (s.now - e.since)))
      (flitsOf (olderBy e.pkt (s.now - e.since))) } rfl
  have hsent := (hspent.incWrap (Reg.skyCntTx_flits t) (flitsOf (olderBy e.pkt (s.now - e.since)))
    fun _ => tower_not_siteAddr (x := 0xC00020) (by decide) (by decide)).emit (.packet t p (olderBy e.pkt (s.now - e.since)))
  unfold State.sendOn
  dsimp only
  split
  · exact hf.outlived _ _ ht
  · exact hsent.foldl (fun s h b => h.newFlit _ _ _ _) _

theorem servePort (n : Nat) : ∀ {s : State} (_ : Flow near s₀ s) (t p), Flow near s₀ (State.servePort t p n s) := by
  induction n with
  | zero => exact fun h _ _ => h
  | succ n ih =>
    intro s h t p
    unfold State.servePort
    refine ite (fun _ => h) (fun _ => ?_)
    split
    · exact h
    · next e x hpick =>
      obtain ⟨he, hq⟩ := Tx.mem_of_pick hpick
      have hin : near → 32 * t + p < 160 := fun hn => by
        by_contra hle
        rw [h.outward.strayPorts hn t p (by omega)] at he
        exact absurd he (by simp)
      refine ih ((h.setPort t p _ (fun a ha => h.outward.ports t p a (hq a ha)) ?_).sendOn t p e ?_) t p
      · exact fun hn hle => absurd (hin hn) (by omega)
      · exact fun hn => by have := hin hn; omega

theorem servePorts (h : Flow near s₀ s) : Flow near s₀ s.servePorts :=
  h.foldl (fun _ h _ => servePort _ h _ _) _

theorem toPort (h : Flow near s₀ s) (t p e) (he : e.outward near) (ht : near → t < 5 ∧ p < 32) :
    Flow near s₀ (s.toPort t p e) :=
  h.setPort t p _
    (fun a ha => by
      rcases List.mem_append.mp ha with ha | ha
      · exact h.outward.ports t p a ha
      · rw [List.mem_singleton.mp ha]; exact he)
    (fun hn hle => by have := ht hn; omega)

theorem sprayPort_lt {t cand ptr p : Nat} {k : Packet} (h : s.sprayPort t cand ptr k = some p) : p < 32 := by
  have := List.mem_of_find?_eq_some h
  obtain ⟨i, -, rfl⟩ := List.mem_map.mp this
  exact Nat.mod_lt _ (by decide)

theorem sprayHere (h : Flow near s₀ s) (e) (he : e.outward near) (ht : near → e.die < 5) : Flow near s₀ (s.sprayHere e) := by
  unfold State.sprayHere
  dsimp only
  split
  · exact (h.freeRx _ _).discard _
  · refine ite (fun _ => (h.freeRx _ _).discard _) (fun _ => ?_)
    split
    · exact h.setTower _ _
    · next p hp => exact (h.setTower _ _).toPort _ _ _ he fun hn => ⟨ht hn, sprayPort_lt hp⟩

/-! ## Die links -/

theorem linkOf_lt {d h : Nat} (hd : d < 5) (hh : h < 5) : linkOf d h < 8 := by
  unfold linkOf ioDie
  split
  · omega
  · split
    · omega
    · split <;> omega

theorem noWay (h : Flow near s₀ s) (d e) (hd : near → d < 5) : Flow near s₀ (s.noWay d e) :=
  (h.freeRx _ _).bounce _ _ fun hn => by split <;> [decide; exact hd hn]

theorem atGoal (h : Flow near s₀ s) (e) (he : e.outward near) : Flow near s₀ (s.atGoal e) := by
  unfold State.atGoal
  unfold TxEnt.outward at he
  split
  · next p hg => exact h.toPort _ _ _ (by unfold TxEnt.outward; rwa [hg] at he ⊢) (by rwa [hg] at he)
  · next hg => exact h.sprayHere _ (by unfold TxEnt.outward; rwa [hg] at he ⊢) (by rwa [hg] at he)
  · next hg => rw [hg] at he; exact he.elim

theorem mem_queue {x : Tx} {e a : TxEnt} (hx : ∀ a ∈ x.q, a.outward near) (he : e.outward near)
    (ha : a ∈ x.q ++ [e]) : a.outward near := by
  rcases List.mem_append.mp ha with ha | ha
  · exact hx a ha
  · rw [List.mem_singleton.mp ha]; exact he

theorem toLink (h : Flow near s₀ s) (d e) (he : e.outward near) (hd : near → d < 5) : Flow near s₀ (s.toLink d e) := by
  unfold State.toLink
  refine ite (fun _ => h.noWay _ _ hd) (fun hway => ?_)
  have hown : near → ¬ 8 ≤ linkOf d (s.nextHop d e.die) := fun hn => by
    have := linkOf_lt (hd hn) (h := s.nextHop d e.die) (by omega)
    omega
  have hlink := h.outward.links (linkOf d (s.nextHop d e.die))
  refine ite (fun _ => h.setLink _ _ ?_ (fun hn hle => absurd hle (hown hn)))
    (fun _ => h.setLink _ _ ?_ (fun hn hle => absurd hle (hown hn))) <;> intro far a ha <;> cases far
  · exact mem_queue (hlink false) he ha
  · exact hlink true a ha
  · exact hlink false a ha
  · exact mem_queue (hlink true) he ha

theorem cross (h : Flow near s₀ s) (d e) (he : e.outward near) (hd : near → d < 5) : Flow near s₀ (s.cross d e) := by
  unfold State.cross
  refine ite (fun _ => h.atGoal _ he) (fun _ => ?_)
  split
  · exact h.toLink _ _ he hd
  · exact ite (fun _ => h.of_same rfl rfl rfl rfl rfl rfl) (fun _ => h.toLink _ _ he hd)

theorem link_not_siteAddr {l x : Nat} (hl : l < 8) (hx : x < 0x1000) : ¬ siteAddr (0x00800000 + x + l * 0x40) := by
  unfold siteAddr
  omega

theorem wireDie (h : Flow near s₀ s) (l seq nak bs) (hl : near → l < 8) : Flow near s₀ (s.wireDie l seq nak bs) := by
  have hx := h.setLink_same l { s.link l with retry := (s.link l).retry.controlSent } rfl rfl rfl
  have herr := fun hn => link_not_siteAddr (x := 0x118) (hl hn) (by decide)
  unfold State.wireDie
  refine ite (fun _ => ?_) (fun _ => hx.emit _)
  exact ((((((hx.setF _ _ fun hn => link_not_siteAddr (x := 0x128) (hl hn) (by decide)).bump _).emit _).incSat _ _
    herr).incSat _ _ herr).record _)

theorem newDieFlit (h : Flow near s₀ s) (l bs) (hl : near → l < 8) : Flow near s₀ (s.newDieFlit l bs) :=
  (h.setLink_same l { s.link l with retry := (s.link l).retry.push 0 s.now bs } rfl rfl rfl).wireDie _ _ _ _ hl

theorem flushDie (h : Flow near s₀ s) (l) : Flow near s₀ (s.flushDie l) := by
  have hx := h.setLink l { s.link l with stream := [] } (fun far => by cases far <;> exact h.outward.links l _)
    (fun hn hle => by obtain ⟨hq, hfar, -⟩ := h.outward.strayLinks hn l hle; exact ⟨hq, hfar, rfl⟩)
  unfold State.flushDie
  by_cases hl : near ∧ 8 ≤ l
  · obtain ⟨-, -, hstream⟩ := h.outward.strayLinks hl.1 l hl.2
    simpa [hstream, ceilDiv, cutBytes] using hx
  · exact hx.foldl (fun s h b => h.newDieFlit l b fun hn => by by_contra hle; exact hl ⟨hn, by omega⟩) _

theorem linkEnd_lt (l : Nat) (far : Bool) : linkEnd l far < 5 := by
  unfold linkEnd ioDie
  split
  · omega
  · split <;> omega

theorem carry (n : Nat) : ∀ {s : State} (_ : Flow near s₀ s) (l far), Flow near s₀ (State.carry l far n s) := by
  induction n with
  | zero => exact fun h _ _ => h
  | succ n ih =>
    intro s h l far
    unfold State.carry
    refine ite (fun _ => h) (fun _ => ?_)
    split
    · exact h
    · next e q hpick =>
      obtain ⟨he, hq⟩ := Tx.mem_of_pick hpick
      have hown : near → l < 8 := fun hn => by
        by_contra hle
        obtain ⟨hnear, hfar, -⟩ := h.outward.strayLinks hn l (by omega)
        cases far <;> simp [DieLink.txOf, hnear, hfar] at he
      have hrest : ∀ a ∈ q.q, a.outward near := fun a ha => h.outward.links l far a (hq a ha)
      have hgoes : e.outward near := h.outward.links l far e he
      refine ih (cross (h.setLink l _ (fun side => ?_) fun hn hle => absurd (hown hn) (by omega)) _
        { e with hop := e.hop + 1 } hgoes fun _ => linkEnd_lt _ _) l far
      cases far <;> cases side
      · exact hrest
      · exact h.outward.links l true
      · exact h.outward.links l false
      · exact hrest

theorem serveLinks (h : Flow near s₀ s) : Flow near s₀ s.serveLinks :=
  h.foldl (fun _ h _ => (carry _ (carry _ h _ _) _ _).flushDie _) _

theorem pump (h : Flow near s₀ s) : Flow near s₀ s.pump := h.serveLinks.serveLinks.serveLinks.servePorts

theorem route_lt {t node g cand : Nat} (h : s.route t node = some (g, cand)) : g < 4 := by
  obtain ⟨-, h⟩ := Option.ite_none_left_eq_some.mp h
  obtain ⟨-, h⟩ := Option.ite_none_left_eq_some.mp h
  rw [← (Prod.mk.inj (Option.some.inj h)).1]
  exact Nat.mod_lt _ (by decide)

theorem sendSpray (h : Flow near s₀ s) (t node k) (ht : near → t < 5) : Flow near s₀ (s.sendSpray t node k) := by
  unfold State.sendSpray
  split
  · exact h.discard _
  · next g cand hg =>
    exact (h.cross t { pkt := k, hop := 0, transit := false, since := s.now, back := none, die := g, goal := .spray }
      (fun _ => Nat.lt_succ_of_lt (route_lt hg)) ht).pump

/-! ## Packets of local sources -/

theorem flowPort_lt (cand src dst engine : Nat) : flowPort cand src dst engine < 32 := by
  have hget : ∀ n, (maskBits cand).getD n 0 < 32 := fun n => by
    rw [List.getD_eq_getElem?_getD]
    cases h : (maskBits cand)[n]? with
    | none => decide
    | some p => exact List.mem_range.mp (List.mem_of_mem_filter (List.mem_of_getElem? h))
  exact hget _

theorem mayGo_lt {x : Sent} {earlier : List Sent} {g p : Nat} (h : s.mayGo x earlier = some (g, p)) : g < 5 ∧ p < 32 := by
  unfold State.mayGo at h
  dsimp only at h
  split at h
  · exact absurd h (by simp)
  · next g' cand hroute =>
    have hg := route_lt hroute
    have hp := flowPort_lt cand x.pkt.src (x.pkt.dst / 2 ^ 32) x.pkt.srcEngine
    iterate 9 obtain ⟨-, h⟩ := Option.ite_none_left_eq_some.mp h
    obtain ⟨rfl, rfl⟩ := Prod.mk.inj (Option.some.inj h)
    exact ⟨Nat.lt_succ_of_lt hg, hp⟩

theorem depart (h : Flow near s₀ s) (x : Sent) (g p) (hg : g < 5 ∧ p < 32) (hx : near → towerOf x.site < 5) :
    Flow near s₀ (s.depart x g p) :=
  ite (fun _ => h.setF _ _ fun _ => tower_not_siteAddr (x := 0xC0001C) (by decide) (by decide))
    (fun _ => h.cross _ _ (fun _ => hg) hx)

theorem launch (h : Flow near s₀ s) (x : Sent) (hx : near → towerOf x.site < 5) : Flow near s₀ (s.launch x) := by
  unfold State.launch
  split
  · next g p hg =>
    have hsent := h.withSent (s.sent ++ [{ x with st := .flying, port := 32 * g + p, since := s.now }])
    exact (hsent.depart { x with st := .flying, port := 32 * g + p, since := s.now } g p (mayGo_lt hg) hx).pump
  · exact h.withSent _

theorem request (h : Flow near s₀ s) (site engine job dest k) (hx : near → towerOf site < 5) :
    Flow near s₀ (s.request site engine job dest k) := h.launch _ hx

end State.Flow
end Sys2Proof.Machine
end

section
/-!
PROOF. The packets that the sites of this package have outstanding, as packets are sent and sent again.
-/
namespace Sys2Proof.Machine

theorem State.Traffic.sent {s₀ s : State} (h : s₀.Traffic s) : s.sent = s₀.sent := by induction h <;> simp_all

theorem State.depart_sent (s : State) (x : Sent) (g p : Nat) : (s.depart x g p).sent = s.sent := by
  unfold State.depart
  split
  · exact State.setF_sent ..
  · exact (State.Traffic.refl.cross _ _).sent

/-- A packet issued is the last outstanding one, whether it goes or waits. -/
theorem State.launch_sent (s : State) (x : Sent) : ∃ y, (s.launch x).sent = s.sent ++ [y] ∧ y.pkt = x.pkt ∧ y.job = x.job ∧
    y.site = x.site ∧ y.tower = x.tower := by
  unfold State.launch
  split
  · next g p _ =>
    exact ⟨{ x with st := .flying, port := 32 * g + p, since := s.now },
      State.Traffic.refl.pump.sent.trans (State.depart_sent ..), rfl, rfl, rfl, rfl⟩
  · refine ⟨_, rfl, ?_⟩
    unfold State.timed
    exact ⟨rfl, rfl, rfl, rfl⟩

/-- Packets that stand for sites and towers of a set. -/
def State.sentFrom (P : Nat → Nat → Prop) (s : State) : Prop := ∀ x ∈ s.sent, P x.site x.tower

theorem State.sentFrom_tryWaiting {P : Nat → Nat → Prop} {s : State} (h : s.sentFrom P) (k : Nat) :
    (s.tryWaiting k).sentFrom P := by
  unfold State.tryWaiting
  split
  · exact h
  · next x hx =>
    split
    · dsimp only
      split
      · next g p _ =>
        intro y hy
        rw [State.depart_sent] at hy
        rcases List.mem_or_eq_of_mem_set hy with hy | rfl
        · exact h y hy
        · unfold State.tagged
          have := h x (List.mem_of_getElem? hx)
          dsimp only
          split <;> exact this
      · exact h
    · exact h

namespace State.Flow
variable {near : Prop} {s₀ s : State}

theorem tryWaiting (h : Flow near s₀ s) (k : Nat) (hsent : near → s.sentFrom fun i _ => towerOf i < 5) :
    Flow near s₀ (s.tryWaiting k) := by
  unfold State.tryWaiting
  split
  · exact h
  · next x hx =>
    split
    · dsimp only
      split
      · next g p hgo =>
        have hset := h.withSent (s.sent.set k { s.tagged x with st := .flying, port := 32 * g + p, since := s.now })
        refine hset.depart _ g p (mayGo_lt hgo) fun hn => ?_
        have := hsent hn x (List.mem_of_getElem? hx)
        unfold State.tagged
        dsimp only
        split <;> exact this
      · exact h
    · exact h

theorem kickWaiting (h : Flow near s₀ s) (hsent : near → s.sentFrom fun i _ => towerOf i < 5) : Flow near s₀ s.kickWaiting := by
  have hall : ∀ (l : List Nat) {s : State}, Flow near s₀ s → (near → s.sentFrom fun i _ => towerOf i < 5) →
      Flow near s₀ (l.foldl (fun s k => s.tryWaiting k) s) := by
    intro l
    induction l with
    | nil => exact fun h _ => h
    | cons k l ih => exact fun h hs => ih (h.tryWaiting k hs) fun hn => State.sentFrom_tryWaiting (hs hn) k
  exact (hall _ h hsent).pump

end State.Flow

theorem State.sentFrom_kickWaiting {P : Nat → Nat → Prop} {s : State} (h : s.sentFrom P) : s.kickWaiting.sentFrom P := by
  have hall : ∀ (l : List Nat) {s : State}, s.sentFrom P → (l.foldl (fun s k => s.tryWaiting k) s).sentFrom P := by
    intro l
    induction l with
    | nil => exact fun h => h
    | cons k l ih => exact fun h => ih (State.sentFrom_tryWaiting h k)
  unfold State.kickWaiting State.sentFrom
  rw [State.Traffic.refl.pump.sent]
  exact hall _ h

end Sys2Proof.Machine
end

section
/-!
PROOF. A packet for a site of this package that comes in where nothing else is on its way (10 R377, R386, R400): it is
served at its site at once.
-/
namespace Sys2Proof.Machine

/-- `t` is `s` with other fabric state. -/
def State.fabricOf (s t : State) : Prop := ∃ ports links towers, t = { s with ports := ports, links := links, towers := towers }

/-- Nothing waits to be sent by a port or over a die link. -/
structure State.calm (s : State) : Prop where
  ports : ∀ t p, (s.port t p).tx.q = []
  links : ∀ l, (s.link l).tx.q = [] ∧ (s.link l).txFar.q = [] ∧ (s.link l).stream = []

theorem State.fabricOf_refl (s : State) : s.fabricOf s := ⟨s.ports, s.links, s.towers, rfl⟩

theorem State.fabricOf_trans {s t u : State} (h : s.fabricOf t) (h' : t.fabricOf u) : s.fabricOf u := by
  obtain ⟨_, _, _, rfl⟩ := h
  obtain ⟨ports, links, towers, rfl⟩ := h'
  exact ⟨ports, links, towers, rfl⟩

theorem State.calm_of_quiet {s : State} (h : Claims.quietFabric s) : s.calm where
  ports t p := by
    unfold State.port SMap.get
    split
    · next hf => exact (h.ports _ (mem_of_find_eq_some hf)).2
    · rfl
  links l := by
    unfold State.link SMap.get
    split
    · next hf => exact h.links _ (mem_of_find_eq_some hf)
    · exact ⟨rfl, rfl, rfl⟩

theorem State.rx_of_quiet {s : State} (h : Claims.quietFabric s) (t p : Nat) : (s.port t p).rx = [] := by
  unfold State.port SMap.get
  split
  · next hf => exact (h.ports _ (mem_of_find_eq_some hf)).1
  · rfl

theorem State.calm.outward {s : State} (h : s.calm) (hlanded : s.landed = []) (near : Prop) : s.Outward near where
  ports t p e he := absurd he (by simp [h.ports t p])
  strayPorts _ t p _ := h.ports t p
  links l far e he := by
    obtain ⟨hnear, hfar, -⟩ := h.links l
    cases far <;> simp [DieLink.txOf, hnear, hfar] at he
  strayLinks _ l _ := h.links l
  landed x hx := absurd hx (by simp [hlanded])

/-! ## Where nothing waits, nothing is sent -/

theorem State.calm.setPort {s : State} (h : s.calm) (t p : Nat) {x : Port} (hx : x.tx.q = []) : (s.setPort t p x).calm where
  ports t' p' := by
    rw [State.port_setPort]
    split
    · exact hx
    · exact h.ports t' p'
  links := h.links

theorem State.calm.freeRx {s : State} (h : s.calm) (back : Option (Nat × Nat)) (k : Packet) : (s.freeRx back k).calm := by
  unfold State.freeRx
  split
  · exact h
  · exact h.setPort _ _ (h.ports _ _)

theorem State.calm.servePort {s : State} (h : s.calm) (t p n : Nat) : State.servePort t p n s = s := by
  cases n with
  | zero => rfl
  | succ n =>
    unfold State.servePort
    rw [Tx.pick_empty _ _ _ (h.ports t p)]
    exact ite_self _

theorem State.calm.servePorts {s : State} (h : s.calm) : s.servePorts = s := by
  have hall : ∀ l : List (Nat × Port),
      l.foldl (fun s e => State.servePort (e.1 / 32) (e.1 % 32) e.2.tx.q.length s) s = s := by
    intro l
    induction l with
    | nil => rfl
    | cons e l ih => rw [List.foldl_cons, h.servePort, ih]
  exact hall _

theorem State.calm.carry {s : State} (h : s.calm) (l : Nat) (far : Bool) (n : Nat) : State.carry l far n s = s := by
  cases n with
  | zero => rfl
  | succ n =>
    obtain ⟨hnear, hfar, -⟩ := h.links l
    have hq : ((s.link l).txOf far).q = [] := by cases far <;> assumption
    unfold State.carry
    dsimp only
    rw [Tx.pick_empty _ _ _ hq]
    exact ite_self _

theorem State.calm.flushDie {s : State} (h : s.calm) (l : Nat) :
    s.fabricOf (s.flushDie l) ∧ (s.flushDie l).calm := by
  obtain ⟨hnear, hfar, hstream⟩ := h.links l
  have he : s.flushDie l = s.setLink l { s.link l with stream := [] } := by
    unfold State.flushDie
    dsimp only
    rw [hstream]
    rfl
  rw [he]
  refine ⟨⟨s.ports, _, s.towers, rfl⟩, h.ports, fun l' => ?_⟩
  rw [State.link_setLink]
  split
  · exact ⟨hnear, hfar, rfl⟩
  · exact h.links l'

theorem State.calm.serveLinks {s : State} (h : s.calm) : s.fabricOf s.serveLinks ∧ s.serveLinks.calm := by
  have hall : ∀ (l : List (Nat × DieLink)) {t : State}, s.fabricOf t ∧ t.calm → s.fabricOf (l.foldl (fun s e =>
      (State.carry e.1 true e.2.txFar.q.length (State.carry e.1 false e.2.tx.q.length s)).flushDie e.1) t) ∧
      (l.foldl (fun s e =>
        (State.carry e.1 true e.2.txFar.q.length (State.carry e.1 false e.2.tx.q.length s)).flushDie e.1) t).calm := by
    intro l
    induction l with
    | nil => exact id
    | cons e l ih =>
      rintro t ⟨hst, ht⟩
      rw [List.foldl_cons, ht.carry, ht.carry]
      obtain ⟨hto, hcalm⟩ := ht.flushDie e.1
      exact ih ⟨State.fabricOf_trans hst hto, hcalm⟩
  exact hall _ ⟨State.fabricOf_refl s, h⟩

theorem State.calm.pump {s : State} (h : s.calm) : s.fabricOf s.pump ∧ s.pump.calm := by
  obtain ⟨h1, c1⟩ := h.serveLinks
  obtain ⟨h2, c2⟩ := c1.serveLinks
  obtain ⟨h3, c3⟩ := c2.serveLinks
  unfold State.pump
  rw [c3.servePorts]
  exact ⟨State.fabricOf_trans (State.fabricOf_trans h1 h2) h3, c3⟩

/-! ## The endpoint takes the packet -/

theorem State.meshRun_empty {s : State} (h : ∀ t p, (s.port t p).rx = []) (t n : Nat) : State.meshRun t n s = s := by
  cases n with
  | zero => rfl
  | succ n =>
    have hnone : s.meshPick t = none := by
      unfold State.meshPick
      exact List.findSome?_eq_none_iff.mpr fun p _ => by rw [h t p]; rfl
    rw [State.meshRun, hnone]

theorem State.meshPick_only {s : State} {t p : Nat} {e : RxEnt} (hp : p < 32) (hrx : (s.port t p).rx = [e])
    (hothers : ∀ p', p' < 32 → p' ≠ p → (s.port t p').rx = []) (htake : s.mayTake t e.pkt = true) :
    s.meshPick t = some (p, e) := by
  have hhead : rxHeads [e] = [e] := rfl
  unfold State.meshPick
  obtain ⟨r, hr⟩ : ∃ r, (((List.range 32).map (fun i => ((s.tower t).mesh + i) % 32)).findSome? (fun p =>
      ((rxHeads (s.port t p).rx).find? (fun e => s.mayTake t e.pkt)).map (fun e => (p, e)))) = some r := by
    refine Option.isSome_iff_exists.mp (List.findSome?_isSome_iff.mpr ⟨p, ?_, ?_⟩)
    · refine List.mem_map.mpr ⟨(p + 32 - (s.tower t).mesh % 32) % 32, List.mem_range.mpr (Nat.mod_lt _ (by decide)), ?_⟩
      omega
    · simp [hrx, hhead, htake]
  obtain ⟨p', hmem, hsome⟩ := List.exists_of_findSome?_eq_some hr
  obtain ⟨i, -, rfl⟩ := List.mem_map.mp hmem
  rw [hr]
  by_cases hsame : ((s.tower t).mesh + i) % 32 = p
  · simp only [hsame, hrx, hhead, List.find?_cons, htake, Option.map_some] at hsome
    exact hsome.symm
  · rw [hothers _ (Nat.mod_lt _ (by decide)) hsame] at hsome
    simp [rxHeads] at hsome

/-- The endpoint of a tower has taken a packet of a port, and the next port has its turn. -/
def State.meshMoved (s : State) (t p : Nat) : State := s.setTower t { s.tower t with mesh := (p + 1) % 32 }

/-- A packet that arrives is the only one in any receive buffer, and its tower takes it. -/
theorem State.meshRun_only {s u : State} {t p m : Nat} {e : RxEnt} (hp : p < 32) (hrx : (s.port t p).rx = [e])
    (hothers : ∀ t' p', 32 * t' + p' ≠ 32 * t + p → (s.port t' p').rx = []) (htake : s.mayTake t e.pkt = true)
    (hu : (s.meshMoved t p).takeIn t p e = u) (hempty : ∀ t' p', (u.port t' p').rx = []) :
    State.meshRun t (m + 1) s = u := by
  have hpick := State.meshPick_only hp hrx (fun p' hp' hne => hothers t p' (by omega)) htake
  rw [State.meshRun, hpick]
  change State.meshRun t m ((s.meshMoved t p).takeIn t p e) = u
  rw [hu, State.meshRun_empty hempty]

theorem State.meshRun_other {s : State} {t p t' n : Nat} (hp : p < 32) (ht : t' ≠ t)
    (hothers : ∀ t' p', 32 * t' + p' ≠ 32 * t + p → (s.port t' p').rx = []) : State.meshRun t' n s = s := by
  cases n with
  | zero => rfl
  | succ n =>
    have hnone : s.meshPick t' = none := by
      unfold State.meshPick
      refine List.findSome?_eq_none_iff.mpr fun p' hp' => ?_
      obtain ⟨i, -, rfl⟩ := List.mem_map.mp hp'
      rw [hothers t' _ (by have := Nat.mod_lt ((s.tower t').mesh + i) (show 0 < 32 by decide); omega)]
      rfl
    rw [State.meshRun, hnone]

theorem meshRuns_only {s u : State} {t n : Nat} (ht : t < 4) (hown : State.meshRun t n s = u)
    (hother : ∀ t', t' ≠ t → State.meshRun t' n s = s) (hafter : ∀ t', State.meshRun t' n u = u) :
    [0, 1, 2, 3].foldl (fun s t => State.meshRun t n s) s = u := by
  simp only [List.foldl_cons, List.foldl_nil]
  rcases (by omega : t = 0 ∨ t = 1 ∨ t = 2 ∨ t = 3) with rfl | rfl | rfl | rfl
  · rw [hown, hafter, hafter, hafter]
  · rw [hother 0 (by decide), hown, hafter, hafter]
  · rw [hother 0 (by decide), hother 1 (by decide), hown, hafter]
  · rw [hother 0 (by decide), hother 1 (by decide), hother 2 (by decide), hown]

theorem mem_put {α : Type} [DecidableEq α] {d : Nat → α} {k : Nat} {v : α} {m : SMap α} (h : v ≠ d k) :
    (k, v) ∈ SMap.put d k v m := by
  rw [SMap.put, if_neg h]
  exact mem_of_find_eq_some (SMap.find_insert_same k v m)

theorem waiting_pos {m : SMap Port} {k : Nat} {x : Port} (h : (k, x) ∈ m) (hx : x.rx ≠ []) :
    ∃ n, m.foldl (fun n e => n + e.2.rx.length) 0 = n + 1 := by
  have hgrow : ∀ (l : List (Nat × Port)) (b : Nat), b ≤ l.foldl (fun n e => n + e.2.rx.length) b ∧
      ((k, x) ∈ l → b < l.foldl (fun n e => n + e.2.rx.length) b) := by
    intro l
    induction l with
    | nil => exact fun b => ⟨Nat.le_refl b, fun h => absurd h (by simp)⟩
    | cons e l ih =>
      intro b
      obtain ⟨hle, hlt⟩ := ih (b + e.2.rx.length)
      refine ⟨by simp only [List.foldl_cons]; omega, fun hmem => ?_⟩
      simp only [List.foldl_cons]
      rcases List.mem_cons.mp hmem with rfl | hmem
      · have := List.length_pos_of_ne_nil hx
        dsimp only at *
        omega
      · have := hlt hmem
        omega
  exact ⟨_, (Nat.succ_pred_eq_of_pos ((hgrow m 0).2 h)).symm⟩

/-! ## The packet reaches its site -/

theorem olderBy_zero (k : Packet) (n : Nat) : olderBy (olderBy k n) 0 = olderBy k n := by
  have h : Nat.min 65535 (k.age + ceilDiv n 1000) ≤ 65535 := Nat.min_le_left _ _
  simp [olderBy, ceilDiv]

/-- A port has put a packet in its receive buffer. -/
def State.received (s : State) (t p : Nat) (k : Packet) : State :=
  s.setPort t p { s.port t p with rx := (s.port t p).rx ++ [⟨k, [], s.now⟩] }

/-- The receive buffer holds the packet, and no other holds one. -/
theorem State.received_rx {s : State} (h : Claims.quietFabric s) (t p : Nat) (k : Packet) :
    ((s.received t p k).port t p).rx = [⟨k, [], s.now⟩] ∧
    ∀ t' p', 32 * t' + p' ≠ 32 * t + p → ((s.received t p k).port t' p').rx = [] := by
  unfold State.received
  refine ⟨by rw [State.port_setPort, if_pos rfl, State.rx_of_quiet h]; rfl, fun t' p' hne => ?_⟩
  rw [State.port_setPort, if_neg hne, State.rx_of_quiet h]

theorem State.received_calm {s : State} (h : Claims.quietFabric s) (t p : Nat) (k : Packet) : (s.received t p k).calm :=
  (State.calm_of_quiet h).setPort t p ((State.calm_of_quiet h).ports t p)

theorem State.received_waiting {s : State} (h : Claims.quietFabric s) (t p : Nat) (k : Packet) :
    ∃ n, (s.received t p k).ports.foldl (fun n e => n + e.2.rx.length) 0 = n + 1 := by
  have hport : { s.port t p with rx := (s.port t p).rx ++ [⟨k, [], s.now⟩] } ≠ Port.reset := fun he => by
    have := congrArg Port.rx he
    rw [State.rx_of_quiet h] at this
    exact absurd this (List.cons_ne_nil _ _)
  exact waiting_pos (mem_put (d := fun _ => Port.reset) (k := 32 * t + p) (m := s.ports) hport)
    (by rw [State.rx_of_quiet h]; exact List.cons_ne_nil _ _)

theorem State.packetIn_received {s : State} {tw : Tower} {p : Fin 32} {k : Packet} {cls op q : Nat}
    (h : Claims.arrives s tw p k cls op q) : s.packetIn tw p k cls op [] = (s.received tw p k).fabricOn := by
  unfold State.packetIn State.receive
  simp [h.up, h.node, h.kind, State.received]

theorem State.received_mayTake {s : State} {tw : Tower} {p : Fin 32} {k : Packet} {cls op q : Nat}
    (h : Claims.arrives s tw p k cls op q) (hcls : cls ≠ clsReq) : (s.received tw p k).mayTake tw k = true := by
  have hreq : (k.cls == clsReq) = false := by simpa [h.kind.1] using hcls
  unfold State.mayTake
  rw [if_pos (show vidNode (destVid k) = (s.received tw p k).nodeOf tw from h.node), h.site.1]
  dsimp only
  rw [h.site.2, show (s.received tw p k).dieHeld tw tw = false from h.held, hreq]
  rfl

theorem State.cross_here {s : State} {d : Nat} {e : TxEnt} (h : d = e.die) : s.cross d e = s.atGoal e := by
  rw [State.cross, if_pos h]

/-- A packet that its tower hands to a site. -/
def TxEnt.toSite (now t q : Nat) (k : Packet) (bad : List Nat) : TxEnt :=
  { pkt := k, hop := 0, transit := false, since := now, back := none, die := towerOf q, goal := .site t q bad }

theorem State.freeRx_ports (s : State) (back : Option (Nat × Nat)) (k : Packet) :
    ∃ ports, s.freeRx back k = { s with ports := ports } := by
  unfold State.freeRx
  split
  · exact ⟨s.ports, rfl⟩
  · exact ⟨_, rfl⟩

theorem State.takeIn_site {s : State} {t p q : Nat} {e : RxEnt} (hrx : (s.port t p).rx = [e])
    (hothers : ∀ t' p', 32 * t' + p' ≠ 32 * t + p → (s.port t' p').rx = []) (hcalm : s.calm) (hat : e.at_ = s.now)
    (hyoung : s.expired t (Claims.aged s t p e.pkt) = false) (hkind : reservedPkt e.pkt.cls e.pkt.op = false)
    (hnode : vidNode (destVid e.pkt) = s.nodeOf t) (hsite : vidSite (destVid e.pkt) = some q) (htower : towerOf q = t) :
    ∃ ports, s.takeIn t p e =
        { s with ports := ports, landed := s.landed ++ [.site t q (Claims.aged s t p e.pkt) e.bad] } ∧
      (s.takeIn t p e).calm ∧ ∀ t' p', ((s.takeIn t p e).port t' p').rx = [] := by
  have hage : ∀ x : Port, olderBy (olderBy e.pkt ((s.setPort t p x).getF (Reg.optPortStatus_delay_ns t p)))
      ((s.setPort t p x).now - e.at_) = Claims.aged s t p e.pkt := fun x => by
    rw [hat, State.setPort_now, Nat.sub_self]
    exact olderBy_zero ..
  have hstale : ∀ x : Port, ¬ (s.setPort t p x).expired t (Claims.aged s t p e.pkt) = true := fun x =>
    Bool.eq_false_iff.mp hyoung
  have hhere : ∀ x : Port, vidNode (destVid (Claims.aged s t p e.pkt)) = (s.setPort t p x).nodeOf t := fun _ => hnode
  have hq : vidSite (destVid (Claims.aged s t p e.pkt)) = some q := hsite
  have hkind' : ¬ reservedPkt (Claims.aged s t p e.pkt).cls (Claims.aged s t p e.pkt).op = true := Bool.eq_false_iff.mp hkind
  have herase : (s.port t p).rx.erase e = [] := by rw [hrx, List.erase_cons_head]
  have hto : ∀ r : State, r.cross t (TxEnt.toSite r.now t q (Claims.aged s t p e.pkt) e.bad) =
      { r with landed := r.landed ++ [.site t q (Claims.aged s t p e.pkt) e.bad] } := fun r =>
    State.cross_here htower.symm
  have he : s.takeIn t p e = { (s.setPort t p { s.port t p with rx := [] }).freeRx (some (32 * t + p, creditId e.pkt))
      (Claims.aged s t p e.pkt) with landed := s.landed ++ [.site t q (Claims.aged s t p e.pkt) e.bad] } := by
    unfold State.takeIn
    dsimp only
    rw [hage, if_neg (hstale _), if_neg hkind', if_pos (hhere _), hq, herase]
    exact hto _
  rw [he]
  obtain ⟨ports, hports⟩ := State.freeRx_ports (s.setPort t p { s.port t p with rx := [] })
    (some (32 * t + p, creditId e.pkt)) (Claims.aged s t p e.pkt)
  refine ⟨ports, by rw [hports]; rfl, ?_, ?_⟩
  · have hfree := (hcalm.setPort t p (x := { s.port t p with rx := [] }) (hcalm.ports t p)).freeRx
      (some (32 * t + p, creditId e.pkt)) (Claims.aged s t p e.pkt)
    exact ⟨hfree.ports, hfree.links⟩
  · have hempty : ∀ t' p', ((s.setPort t p { s.port t p with rx := [] }).port t' p').rx = [] := fun t' p' => by
      rw [State.port_setPort]
      split
      · rfl
      · next hne => exact hothers t' p' hne
    intro t' p'
    change (State.port (State.setPort _ _ _ _) t' p').rx = []
    rw [State.port_setPort]
    split
    · exact hempty _ _
    · exact hempty _ _

/-- The towers' endpoints take the packet, which has then reached its site's die. -/
theorem State.received_landed {s : State} {tw : Tower} {p : Fin 32} {k : Packet} {cls op q : Nat}
    (h : Claims.arrives s tw p k cls op q) (hcls : cls ≠ clsReq) (hkind : reservedPkt cls op = false) (n : Nat) :
    ∃ ports towers u, u = { s with ports := ports, towers := towers, landed := [.site tw q (Claims.aged s tw p k) []] } ∧
      u.calm ∧ [0, 1, 2, 3].foldl (fun s t => State.meshRun t (n + 1) s) (s.received tw p k) = u := by
  obtain ⟨hrx, hothers⟩ := State.received_rx h.quiet tw p k
  have hcalm := State.received_calm h.quiet tw p k
  obtain ⟨ports, htaken, htcalm, htrx⟩ := State.takeIn_site (t := tw) (p := p) (q := q) (e := ⟨k, [], s.now⟩)
    (s := (s.received tw p k).meshMoved tw p)
    hrx hothers ⟨hcalm.ports, hcalm.links⟩ rfl h.young (by rw [h.kind.1, h.kind.2]; exact hkind) h.node h.site.1 h.site.2
  refine ⟨ports, ((s.received tw p k).meshMoved tw p).towers, _, ?_, htcalm, meshRuns_only tw.isLt
    (State.meshRun_only p.isLt hrx hothers (State.received_mayTake h hcls) rfl htrx)
    (fun t' hne => State.meshRun_other p.isLt hne hothers) (fun t' => State.meshRun_empty htrx t' _)⟩
  rw [htaken, show ((s.received tw p k).meshMoved tw p).landed = [] from h.quiet.landed]
  rfl

/-- A packet that is no request arrives where nothing else is on its way: its site is given it as it is then, and after
that what its service has put on the way lands. -/
theorem State.packetIn_arrives {s : State} {tw : Tower} {p : Fin 32} {k : Packet} {cls op q : Nat}
    (h : Claims.arrives s tw p k cls op q) (hcls : cls ≠ clsReq) (hkind : reservedPkt cls op = false) :
    ∃ c, s.fabricOf c ∧ c.calm ∧
      s.packetIn tw p k cls op [] = State.landAll 17 (c.deliverPkt tw q (Claims.aged s tw p k) []) := by
  obtain ⟨n, hn⟩ := State.received_waiting h.quiet tw p k
  obtain ⟨ports, towers, u, hu, hcalm, hrun⟩ := State.received_landed h hcls hkind n
  obtain ⟨⟨ports', links, towers', hpump⟩, hpcalm⟩ := hcalm.pump
  have hlanded : u.pump.landed = [.site tw q (Claims.aged s tw p k) []] := by rw [hpump, hu]
  refine ⟨{ u.pump with landed := [] }, ⟨ports', links, towers', ?_⟩, ⟨hpcalm.ports, hpcalm.links⟩, ?_⟩
  · rw [hpump, hu, ← h.quiet.landed]
  · rw [State.packetIn_received h, State.fabricOn_eq hn (congrArg State.pump hrun), hlanded]
    change State.landAll (17 + 1) u.pump = _
    rw [State.landAll, hlanded]
    rfl

end Sys2Proof.Machine
end

section
/-!
PROOF. Answers to the one outstanding packet of a site whose job waits for more (10 R374, R384, R387).
-/
namespace Sys2Proof.Machine

theorem State.landAll_done {s : State} (h : s.landed = []) (n : Nat) : State.landAll n s = s := by
  cases n with
  | zero => rfl
  | succ n => rw [State.landAll, h]

theorem State.runEngines_idle {s : State} {i : Nat} (hsq : (s.core i).sq = []) (hfmv : (s.core i).fmv = []) :
    s.runEngines i = s := by
  unfold State.runEngines State.runSq
  rw [hsq]
  dsimp only
  unfold State.runFmv
  rw [hfmv]

theorem State.kvGo_idle {s : State} {i : Nat} (hkvq : (s.core i).kvq = []) (hrun : (s.core i).kvRun = []) :
    s.kvGo i = s := by
  unfold State.kvGo State.runKvx State.kvFeed
  simp [hkvq, hrun]

theorem State.kickWaiting_unsent {s : State} (h : s.sent = []) : s.kickWaiting = s.pump := by
  unfold State.kickWaiting
  rw [h]
  rfl

theorem State.fabricOf_core {s t : State} (h : s.fabricOf t) (i : Nat) : t.core i = s.core i := by
  obtain ⟨_, _, _, rfl⟩ := h
  rfl

/-- The state where an answer to the one outstanding packet has been taken: nothing is outstanding, and the tag rests. -/
def State.unsent (s : State) (x : Sent) : State :=
  { s with sent := [], quarantine := SMap.put (fun _ => 0) (tagKey x.pkt.src x.pkt.tag) (s.now + s.lifetime x.tower) s.quarantine }

/-- An answer to the one outstanding packet ends its part. -/
theorem State.ripen_only {s : State} {x : Sent} {st : Nat} {data : List PByte}
    (hready : s.destReady { x with ans := some (st, data) } = true) :
    State.ripen 1 { s.quarantineTag x.tower x.pkt.src x.pkt.tag with sent := [{ x with ans := some (st, data) }] } =
      (s.unsent x).partDone { x with ans := some (st, data) } st data := by
  have hripe : ({ s.quarantineTag x.tower x.pkt.src x.pkt.tag with
      sent := [{ x with ans := some (st, data) }] } : State).ripeAt [] [{ x with ans := some (st, data) }] =
      some { x with ans := some (st, data) } := by
    have hready' : ({ s.quarantineTag x.tower x.pkt.src x.pkt.tag with
      sent := [{ x with ans := some (st, data) }] } : State).destReady { x with ans := some (st, data) } = true := hready
    rw [State.ripeAt, hready']
    rfl
  rw [State.ripen, hripe]
  simp [State.ripen, State.unsent, State.quarantineTag]

theorem State.answered_sent {s : State} {x : Sent} {st : Nat} {data : List PByte} (hsent : s.sent = [x]) :
    s.answered x st data =
      if x.site < siteCount then
        ((State.ripen 1 { s.quarantineTag x.tower x.pkt.src x.pkt.tag with
          sent := [{ x with ans := some (st, data) }] }).kickWaiting.runEngines x.site).kvGo x.site
      else (State.ripen 1 { s.quarantineTag x.tower x.pkt.src x.pkt.tag with
          sent := [{ x with ans := some (st, data) }] }).kickWaiting := by
  have hq : (s.quarantineTag x.tower x.pkt.src x.pkt.tag).sent = [x] := hsent
  unfold State.answered
  simp only [hq, List.map_cons, List.map_nil, and_self, if_true, List.length_singleton]

/-- Where the site has no queued instruction, nothing more follows. -/
theorem State.answered_only {s u : State} {x : Sent} {st : Nat} {data : List PByte} (hsent : s.sent = [x])
    (hready : s.destReady { x with ans := some (st, data) } = true)
    (hu : (s.unsent x).partDone { x with ans := some (st, data) } st data = u) (hnone : u.sent = []) (hcalm : u.calm)
    (hsq : (u.core x.site).sq = []) (hfmv : (u.core x.site).fmv = []) (hkvq : (u.core x.site).kvq = [])
    (hrun : (u.core x.site).kvRun = []) : u.fabricOf (s.answered x st data) := by
  obtain ⟨hto, -⟩ := hcalm.pump
  have hcore := State.fabricOf_core hto x.site
  have hgo : ((State.ripen 1 { s.quarantineTag x.tower x.pkt.src x.pkt.tag with
      sent := [{ x with ans := some (st, data) }] }).kickWaiting) = u.pump := by
    rw [State.ripen_only hready, hu, State.kickWaiting_unsent hnone]
  rw [State.answered_sent hsent, hgo, State.runEngines_idle (by rw [hcore, hsq]) (by rw [hcore, hfmv]),
    State.kvGo_idle (by rw [hcore, hkvq]) (by rw [hcore, hrun]), ite_self]
  exact hto

/-! ## The job notes the part -/

/-- Data that goes to no table is delivered, and a job that waits for more notes the part. -/
theorem State.partDone_more {s u : State} {x : Sent} {j : Job} {st : Nat} {data : List PByte} (hop : x.pkt.op ≠ 3)
    (hdest : ∀ key a n, x.dest ≠ .table key a n) (hjob : s.job? x.job = some j) (hleft : 2 ≤ j.left)
    (hdeliver : s.deliver j x.dest data = (u, j)) : s.partDone x st data = u.setJob (j.part x.dest.pos st) := by
  have hmore : (j.part x.dest.pos st).left ≠ 0 := by
    have : (j.part x.dest.pos st).left = j.left - 1 := by
      unfold Job.part
      dsimp only
      split
      · rfl
      · split <;> rfl
    omega
  unfold State.partDone
  rw [if_neg hop]
  split
  · next h => exact absurd h (hdest _ _ _)
  · rw [hjob]
    dsimp only
    rw [hdeliver, if_neg hmore]

theorem Job.part_id (j : Job) (pos st : Nat) : (j.part pos st).id = j.id := by
  unfold Job.part
  dsimp only
  split
  · rfl
  · split <;> rfl

theorem State.job_setJob {s : State} {id : Nat} {j k : Job} (h : s.job? id = some j) (hk : k.id = j.id) :
    (s.setJob k).job? id = some k := by
  have hid : j.id = id := by simpa using List.find?_some h
  unfold State.job? State.setJob at *
  dsimp only
  generalize s.jobs = js at *
  induction js with
  | nil => exact absurd h (by simp)
  | cons a js ih =>
    rw [List.map_cons, List.find?_cons]
    by_cases ha : a.id = id
    · rw [if_pos (by omega)]
      simp [hk, hid]
    · rw [if_neg (by omega)]
      rw [List.find?_cons] at h
      have hne : (a.id == id) = false := by simpa using ha
      rw [hne] at h ⊢
      exact ih h

/-- The queues of a core's engines are those of another. -/
structure Core.sameQueues (c d : Core) : Prop where
  sq : d.sq = c.sq
  fmv : d.fmv = c.fmv
  kvq : d.kvq = c.kvq
  kvRun : d.kvRun = c.kvRun

/-- The answer to the one outstanding packet, where its data goes to `u`. -/
theorem State.answered_part {s u : State} {x : Sent} {i : Site} {j : Job} {st : Nat} {data : List PByte}
    (hone : Claims.oneOut s x i j) (hcalm : s.calm) (hop : x.pkt.op ≠ 3) (hdest : ∀ key a n, x.dest ≠ .table key a n)
    (hready : s.destReady { x with ans := some (st, data) } = true)
    (hdeliver : (s.unsent x).deliver j x.dest data = (u, j)) (hsame : ∃ cores, u = { s.unsent x with cores := cores })
    (hcore : (s.core i).sameQueues (u.core i)) :
    (u.setJob (j.part x.dest.pos st)).fabricOf (s.answered x st data) := by
  obtain ⟨⟨hsent, -⟩, ⟨hsite, -⟩, ⟨hsq, hfmv, hkvq, hrun⟩, hjob, hleft⟩ := hone
  obtain ⟨usq, ufmv, ukvq, urun⟩ := hcore
  obtain ⟨cores, rfl⟩ := hsame
  refine State.answered_only hsent hready (State.partDone_more hop hdest hjob hleft hdeliver)
    rfl ⟨hcalm.ports, hcalm.links⟩ ?_ ?_ ?_ ?_
  · rw [hsite]; exact usq.trans hsq
  · rw [hsite]; exact ufmv.trans hfmv
  · rw [hsite]; exact ukvq.trans hkvq
  · rw [hsite]; exact urun.trans hrun

theorem State.partEnded_of {s u t : State} {x : Sent} {i : Site} {j : Job} {st : Nat}
    (hone : Claims.oneOut s x i j) (hsame : ∃ cores, u = { s.unsent x with cores := cores })
    (ht : (u.setJob (j.part x.dest.pos st)).fabricOf t) : Claims.partEnded s t x j st := by
  obtain ⟨ports, links, towers, rfl⟩ := ht
  obtain ⟨cores, rfl⟩ := hsame
  exact ⟨rfl, State.job_setJob hone.job.1 (Job.part_id ..), SMap.get_put_same ..⟩

theorem State.answerFor_awaited {s : State} {x : Sent} {t : Nat} {k : Packet} {ops : List Nat}
    (hby : s.sentBy (destVid k) k.tag = some x) (hcls : x.pkt.cls = clsReq) (hop : ops.contains x.pkt.op = true) :
    s.answerFor t k ops = s.answered x k.status k.payload := by
  unfold State.answerFor
  rw [hby]
  dsimp only
  rw [hop, hcls]
  rfl

/-- An answer that comes in where nothing else is on its way ends its part, and its data is delivered. -/
theorem State.answer_ends_part {s : State} {tw : Tower} {p : Fin 32} {k : Packet} {x : Sent} {i : Site} {j : Job}
    {op q st : Nat} {data : List PByte} {cores : SMap Core} (harrives : Claims.arrives s tw p k clsRsp op q)
    (hop : reservedPkt clsRsp op = false) (hone : Claims.oneOut s x i j)
    (hserve : ∀ c, s.fabricOf c → c.deliverPkt tw q (Claims.aged s tw p k) [] = c.answered x st data)
    (hxop : x.pkt.op ≠ 3) (hdest : ∀ v off, x.dest ≠ .vault v off) (htable : ∀ key a n, x.dest ≠ .table key a n)
    (hdeliver : ∀ c, s.fabricOf c → (c.unsent x).deliver j x.dest data = ({ c.unsent x with cores := cores }, j))
    (hcore : (s.core i).sameQueues (SMap.get (fun _ => Core.reset) cores i)) :
    ∃ t, s.packetIn tw p k clsRsp op [] = t ∧ Claims.partEnded s t x j st ∧ t.cores = cores := by
  obtain ⟨c, hc, hcalm, hin⟩ := State.packetIn_arrives harrives (by decide) hop
  have hlanded : c.landed = [] := by obtain ⟨_, _, _, rfl⟩ := hc; exact harrives.quiet.landed
  have hcone : Claims.oneOut c x i j := by obtain ⟨_, _, _, rfl⟩ := hc; exact ⟨hone.only, hone.site, hone.idle, hone.job⟩
  have hccore : c.core i = s.core i := State.fabricOf_core hc i
  have hready : c.destReady { x with ans := some (st, data) } = true := by
    unfold State.destReady
    split
    · next h _ => exact absurd h (hdest _ _)
    · rfl
  have hgoes := State.answered_part hcone hcalm hxop htable hready (hdeliver c hc) ⟨cores, rfl⟩
    (by rw [hccore]; exact hcore)
  obtain ⟨ports, links, towers, he⟩ := hgoes
  refine ⟨_, rfl, ?_, ?_⟩
  · rw [hin, hserve c hc, State.landAll_done (by rw [he]; exact hlanded)]
    obtain ⟨_, _, _, rfl⟩ := hc
    obtain ⟨gone, job, rests⟩ := State.partEnded_of hcone ⟨cores, rfl⟩ ⟨ports, links, towers, he⟩
    exact ⟨gone, job, rests⟩
  · rw [hin, hserve c hc, State.landAll_done (by rw [he]; exact hlanded), he]
    rfl

/-! ## Each answer -/

theorem State.sentBy_fabricOf {s c : State} (h : s.fabricOf c) (src itag : Nat) : c.sentBy src itag = s.sentBy src itag := by
  obtain ⟨_, _, _, rfl⟩ := h
  rfl

/-- An answer whose data goes nowhere ends its part, whatever brought it. -/
theorem State.answer_ends_plain {s : State} {tw : Tower} {p : Fin 32} {k : Packet} {x : Sent} {i : Site} {j : Job}
    {op q st a : Nat} {data : List PByte} (harrives : Claims.arrives s tw p k clsRsp op q)
    (hop : reservedPkt clsRsp op = false) (hone : Claims.oneOut s x i j)
    (hserve : ∀ c, s.fabricOf c → c.deliverPkt tw q (Claims.aged s tw p k) [] = c.answered x st data)
    (hxop : x.pkt.op ≠ 3) (hdest : x.dest = .part a) : Claims.partEnded s (s.packetIn tw p k clsRsp op []) x j st := by
  obtain ⟨t, rfl, hended, -⟩ := State.answer_ends_part (cores := s.cores) harrives hop hone hserve hxop
    (by simp [hdest]) (by simp [hdest])
    (fun c hc => by rw [hdest]; obtain ⟨_, _, _, rfl⟩ := hc; rfl) ⟨rfl, rfl, rfl, rfl⟩
  exact hended

/-- An answer that takes the outstanding request by its opcode. -/
theorem State.deliver_answerFor {s c : State} {x : Sent} {tw : Tower} {p : Fin 32} {k : Packet} {ops : List Nat}
    (hby : s.sentBy (destVid k) k.tag = some x) (hcls : x.pkt.cls = clsReq) (hop : ops.contains x.pkt.op = true)
    (hc : s.fabricOf c) : c.answerFor tw (Claims.aged s tw p k) ops = c.answered x k.status k.payload :=
  State.answerFor_awaited (k := Claims.aged s tw p k) ((State.sentBy_fabricOf hc _ _).trans hby) hcls hop

theorem State.deliverPkt_readData (s : State) (t q : Nat) (k : Packet) (h : k.cls = clsRsp ∧ k.op = 0) :
    s.deliverPkt t q k [] = s.answerFor t k [0] := by
  unfold State.deliverPkt
  rw [h.1, h.2]
  rfl

theorem State.deliverPkt_writeAck (s : State) (t q : Nat) (k : Packet) (h : k.cls = clsRsp ∧ k.op = 1) :
    s.deliverPkt t q k [] = s.answerFor t k [1, 4] := by
  unfold State.deliverPkt
  rw [h.1, h.2]
  rfl

theorem State.deliverPkt_atomicOld (s : State) (t q : Nat) (k : Packet) (h : k.cls = clsRsp ∧ k.op = 2) :
    s.deliverPkt t q k [] = s.answerFor t k [2] := by
  unfold State.deliverPkt
  rw [h.1, h.2]
  rfl

theorem State.deliverPkt_watchAck (s : State) (t q : Nat) (k : Packet) (h : k.cls = clsRsp ∧ k.op = 3) :
    s.deliverPkt t q k [] = s.answerFor t k [3] := by
  unfold State.deliverPkt
  rw [h.1, h.2]
  rfl

theorem State.deliverPkt_refuse (s : State) (t q : Nat) (k : Packet) (h : k.cls = clsRsp ∧ k.op = 5) :
    s.deliverPkt t q k [] = s.refusedPkt t k := by
  unfold State.deliverPkt
  rw [h.1, h.2]
  rfl

theorem State.deliverPkt_admitted (s : State) (t q : Nat) (k : Packet) (h : k.cls = clsRsp ∧ k.op = 6) :
    s.deliverPkt t q k [] = s.admittedPkt t k := by
  unfold State.deliverPkt
  rw [h.1, h.2]
  rfl

theorem State.deliverPkt_accepted (s : State) (t q : Nat) (k : Packet) (h : k.cls = clsRsp ∧ k.op = 7) :
    s.deliverPkt t q k [] = s.acceptedPkt t k := by
  unfold State.deliverPkt
  rw [h.1, h.2]
  rfl

theorem State.refusedPkt_request {s : State} {x : Sent} {t : Nat} {k : Packet} (hby : s.sentBy (destVid k) k.tag = some x)
    (hst : k.status = stNoResource) (hcls : x.pkt.cls = clsReq) : s.refusedPkt t k = s.answered x stNoResource [] := by
  unfold State.refusedPkt
  rw [hby]
  dsimp only
  rw [hst, if_neg (by decide), if_pos hcls]

/-- The words at the ends of a range of a clean scratchpad can be read. -/
theorem edgesGood_of_scratchClean {s : State} {i a n : Nat} (h : s.scratchClean i 0 scratchSize) (hn : a + n ≤ scratchSize) :
    EccMem.edgesGood scratchZero (s.core i).scratch a n := by
  have hword : ∀ w, 8 * w < scratchSize → (EccMem.word scratchZero (s.core i).scratch w).decode.kind.bad = false := by
    intro w hw
    have := h.2 (0 / 8 + w, (EccMem.word scratchZero (s.core i).scratch (0 / 8 + w)).decode) (by
      unfold EccMem.scan
      rw [if_neg (by decide)]
      refine List.mem_map.mpr ⟨w, List.mem_range.mpr ?_, rfl⟩
      unfold scratchSize at *
      omega)
    rw [Nat.zero_div, Nat.zero_add] at this
    rw [show (EccMem.word scratchZero (s.core i).scratch w).decode.kind = .clean from this]
    rfl
  have hsize : scratchSize % 8 = 0 := by decide
  exact ⟨fun ha => hword _ (by omega), fun ha => hword _ (by omega)⟩

/-- The cores once a scratchpad has been written. -/
def State.scratchWritten (s : State) (i a : Nat) (data : List PByte) : SMap Core :=
  SMap.put (fun _ => Core.reset) i
    { s.core i with scratch := EccMem.write scratchZero (s.core i).scratch a data } s.cores

theorem State.writeScratch_untouched {s : State} {i a : Nat} {data : List PByte} (h : (s.core i).touch = none) :
    s.writeScratch i a data = { s with cores := s.scratchWritten i a data } := by
  unfold State.writeScratch State.touched
  dsimp only
  rw [h]
  rfl

/-- READ_DATA puts the bytes where the read wanted them. -/
theorem State.readData_ends {s : State} {tw : Tower} {p : Fin 32} {k : Packet} {x : Sent} {i : Site} {j : Job} {q a : Nat}
    (harrives : Claims.arrives s tw p k clsRsp 0 q) (hby : s.sentBy (destVid k) k.tag = some x)
    (hone : Claims.oneOut s x i j) (hxop : x.pkt.op = 0) (hdest : x.dest = .scratch i a)
    (hscratch : s.scratchClean i 0 scratchSize) (hfits : a + k.payload.length ≤ scratchSize)
    (hclean : anyPoison k.payload = false) :
    ∃ t, s.packetIn tw p k clsRsp 0 [] = t ∧ Claims.partEnded s t x j k.status ∧ t.scratchHolds i a k.payload ∧
      s.scratchKept t i a k.payload.length := by
  obtain ⟨htouch, -⟩ := id hscratch
  obtain ⟨t, ht, hended, hcores⟩ := State.answer_ends_part (st := k.status) (data := k.payload)
    (cores := s.scratchWritten i a k.payload) harrives rfl hone
    (fun c hc => (State.deliverPkt_readData c tw q (Claims.aged s tw p k) harrives.kind).trans
      (State.deliver_answerFor hby hone.site.2 (by rw [hxop]; rfl) hc))
    (by omega) (by simp [hdest]) (by simp [hdest])
    (fun c hc => by
      rw [hdest]
      change ((c.unsent x).writeScratch i a k.payload, j) = _
      have hsame : ((c.unsent x).core i).touch = none := (congrArg Core.touch (State.fabricOf_core hc i)).trans htouch
      have hwritten : (c.unsent x).scratchWritten i a k.payload = s.scratchWritten i a k.payload := by
        obtain ⟨_, _, _, rfl⟩ := hc
        rfl
      rw [State.writeScratch_untouched hsame, hwritten])
    (by rw [State.scratchWritten, SMap.get_put_same]; exact ⟨rfl, rfl, rfl, rfl⟩)
  have hbyte : ∀ b, t.scratchByte i b = if h : a ≤ b ∧ b < a + k.payload.length then k.payload[b - a]
      else s.scratchByte i b := fun b => by
    unfold State.scratchByte State.core
    rw [hcores, State.scratchWritten, SMap.get_put_same]
    exact memory_byte_write scratchZero _ a k.payload hclean (edgesGood_of_scratchClean hscratch hfits) b
  refine ⟨t, ht, hended, fun n hn => ?_, fun b hb => ?_⟩
  · rw [hbyte, dif_pos ⟨by omega, by omega⟩]
    simp
  · rw [hbyte, dif_neg (by omega)]

/-! ## A packet refused by a node that resets is held -/

theorem State.nodeOf_setHold (s : State) (t node v t' : Nat) (ht : t' = t) : (s.setHold t node v).nodeOf t' = s.nodeOf t' := by
  subst ht
  unfold State.nodeOf State.setHold State.getF
  rw [State.reg_setF_ne]
  unfold State.entryOff
  split <;> simp [Reg.skyNode_node, Reg.skyRouteM_valid, Reg.skyRouteG_valid] <;> omega

theorem State.entry_setHold (s : State) (t node : Nat) : bit ((s.setHold t node 1).entry t node) 3 = true := by
  have hoff : (s.setHold t node 1).entryOff t node = s.entryOff t node := by
    unfold State.entryOff
    rw [State.nodeOf_setHold _ _ _ _ _ rfl]
  have hget : (s.setHold t node 1).getF ⟨s.entryOff t node, 3, 3⟩ = 1 := by
    unfold State.setHold
    rw [State.getF_setF_same _ _ _ (Nat.le_refl 3) (show 3 < 64 by decide)]
    rfl
  unfold State.entry
  rw [hoff]
  unfold State.getF bits at hget
  unfold bit
  simpa using hget

theorem State.entry_of_regs {s t : State} (h : t.regs = s.regs) (g node : Nat) : t.entry g node = s.entry g node := by
  unfold State.entry State.entryOff State.nodeOf State.getF State.reg
  rw [h]

theorem State.rearmEntry_regs (s : State) (t off : Nat) : (s.rearmEntry t off).regs = s.regs := rfl
theorem State.rearmEntry_sent (s : State) (t off : Nat) : (s.rearmEntry t off).sent = s.sent := rfl

/-- How a refused packet is held. -/
def Sent.held (x : Sent) (why now : Nat) : Sent :=
  { x with st := .refused, why := why, since := now
           firstRefusal := if x.firstRefusal = 0 then now + 1 else x.firstRefusal }

theorem State.holdRefused_only {s : State} {x : Sent} {why : Nat} (hsent : s.sent = [x]) :
    (s.holdRefused x why).sent = [x.held why s.now] ∧ (s.holdRefused x why).landed = s.landed ∧
      bit ((s.holdRefused x why).entry x.tower (vidNode (destVid x.pkt))) 3 = true := by
  refine ⟨?_, rfl, ?_⟩
  · unfold State.holdRefused
    dsimp only
    rw [State.rearmEntry_sent, hsent]
    simp [Sent.held, State.setHold]
  · unfold State.holdRefused
    dsimp only
    rw [State.entry_of_regs (State.rearmEntry_regs _ _ _)]
    exact State.entry_setHold _ _ _

theorem State.refused_held {s : State} {tw : Tower} {p : Fin 32} {k : Packet} {x : Sent} {q : Nat}
    (harrives : Claims.arrives s tw p k clsRsp 5 q) (hby : s.sentBy (destVid k) k.tag = some x)
    (hst : k.status = stNodeResetting) (hsent : s.sent = [x]) :
    ∃ t, s.packetIn tw p k clsRsp 5 [] = t ∧ bit (t.entry x.tower (vidNode (destVid x.pkt))) 3 = true ∧
      t.sent = [x.held stNodeResetting s.now] := by
  obtain ⟨c, hc, -, hin⟩ := State.packetIn_arrives harrives (by decide) rfl
  have hcby : c.sentBy (destVid (Claims.aged s tw p k)) (Claims.aged s tw p k).tag = some x :=
    (State.sentBy_fabricOf hc _ _).trans hby
  have hserve : c.deliverPkt tw q (Claims.aged s tw p k) [] = c.holdRefused x stNodeResetting := by
    rw [State.deliverPkt_refuse _ _ _ (Claims.aged s tw p k) harrives.kind, State.refusedPkt, hcby]
    dsimp only
    rw [show (Claims.aged s tw p k).status = _ from hst, if_pos (Or.inl rfl)]
  obtain ⟨hheld, hlands, hentry⟩ := State.holdRefused_only (s := c) (x := x) (why := stNodeResetting)
    (by obtain ⟨_, _, _, rfl⟩ := hc; exact hsent)
  have hlanded : c.landed = [] := by obtain ⟨_, _, _, rfl⟩ := hc; exact harrives.quiet.landed
  rw [hin, hserve, State.landAll_done (by rw [hlands, hlanded])]
  exact ⟨_, rfl, hentry, by rw [hheld]; obtain ⟨_, _, _, rfl⟩ := hc; rfl⟩

end Sys2Proof.Machine
end

section
/-!
PROOF. What lands after the packets of a site have set out: they are refused as unreachable (10 R369, R384). An admitted
bundle sends its DATA packets (10 R390).
-/
namespace Sys2Proof.Machine

/-- Outstanding packets may be marked, but stay the packets they are. -/
def State.sentAs (s t : State) : Prop := ∃ f : Sent → Sent,
  (∀ x, (f x).pkt = x.pkt ∧ (f x).job = x.job ∧ (f x).site = x.site ∧ (f x).tower = x.tower) ∧ t.sent = s.sent.map f

theorem State.sentAs_of_eq {s t : State} (h : t.sent = s.sent) : s.sentAs t :=
  ⟨id, fun _ => ⟨rfl, rfl, rfl, rfl⟩, by rw [h, List.map_id]⟩

theorem State.sentAs_trans {s t u : State} (h : s.sentAs t) (h' : t.sentAs u) : s.sentAs u := by
  obtain ⟨f, hf, ht⟩ := h
  obtain ⟨g, hg, hu⟩ := h'
  refine ⟨g ∘ f, fun x => ?_, by rw [hu, ht, List.map_map]⟩
  obtain ⟨hpkt, hjob, hsite, htower⟩ := hf x
  obtain ⟨gpkt, gjob, gsite, gtower⟩ := hg (f x)
  exact ⟨gpkt.trans hpkt, gjob.trans hjob, gsite.trans hsite, gtower.trans htower⟩

theorem State.sentAs_holdRefused (s : State) (x : Sent) (why : Nat) : s.sentAs (s.holdRefused x why) := by
  refine ⟨fun y => if y.pkt.tag = x.pkt.tag ∧ y.pkt.src = x.pkt.src then y.held why s.now else y, fun y => ?_, ?_⟩
  · dsimp only
    split <;> exact ⟨rfl, rfl, rfl, rfl⟩
  · unfold State.holdRefused
    dsimp only
    rw [State.rearmEntry_sent]
    rfl

theorem State.refusedPkt_unreached {s : State} {t : Nat} {k : Packet} (hst : k.status = stUnreachable) :
    s.refusedPkt t k = s.discard t ∨ ∃ y ∈ s.sent, s.refusedPkt t k = s.holdRefused y stUnreachable := by
  unfold State.refusedPkt
  rw [hst]
  split
  · left
    unfold State.watchGone
    split
    · rfl
    · split
      · rfl
      · rw [hst, show (stUnreachable == stNoResource) = false from rfl, Bool.and_false, Bool.false_and]
        rfl
  · next y hy =>
    right
    exact ⟨y, List.mem_of_find?_eq_some hy, if_pos (Or.inr rfl)⟩

/-- What a packet that landed as unreachable leads to. -/
theorem State.land_unreached {s : State} {near : Prop} {x : Landing} (h : x.unreached near) :
    (∃ t, (near → t < 5) ∧ ∃ node k, s.land x = s.sendSpray t node k) ∨ (∃ t, s.land x = s.discard t) ∨
      ∃ y ∈ s.sent, s.land x = s.holdRefused y stUnreachable := by
  cases x with
  | site t q k bad => exact h.elim
  | refuse t k st =>
    obtain ⟨rfl, ht⟩ := h
    unfold State.land
    dsimp only
    split
    · rcases State.refusedPkt_unreached (s := s) (t := t) (k := answerOf k 5 stUnreachable (destVid k) []) rfl with he | hy
      · exact Or.inr (Or.inl ⟨t, he⟩)
      · exact Or.inr (Or.inr hy)
    · exact Or.inl ⟨t, ht, _, _, rfl⟩

namespace State.Flow
variable {s₀ s t : State}

/-- A change that leaves the fabric and the senders alone. -/
theorem of_far (h : Flow False s₀ s) (hp : t.ports = s.ports) (hl : t.links = s.links) (hd : t.landed = s.landed)
    (hs : t.senders = s.senders) : Flow False s₀ t where
  outward := h.outward.of_same hp hl hd
  senders := hs.trans h.senders
  cores := False.elim
  regs := False.elim

theorem holdRefused (h : Flow False s₀ s) (x why) : Flow False s₀ (s.holdRefused x why) := h.of_far rfl rfl rfl rfl

theorem sendTok (h : Flow False s₀ s) (y op aux data) : Flow False s₀ (s.sendTok y op aux data) := h.launch _ False.elim

theorem unland {near : Prop} {x : Landing} {rest : List Landing} (h : Flow near s₀ s) (hl : s.landed = x :: rest) :
    Flow near s₀ { s with landed := rest } ∧ x.unreached near where
  left :=
    { outward :=
        { ports := h.outward.ports, strayPorts := h.outward.strayPorts, links := h.outward.links
          strayLinks := h.outward.strayLinks
          landed := fun y hy => h.outward.landed y (hl ▸ List.mem_cons_of_mem _ hy) }
      senders := h.senders, cores := h.cores, regs := h.regs }
  right := h.outward.landed x (hl ▸ List.mem_cons_self)

theorem landAll (n : Nat) : ∀ {s : State}, Flow False s₀ s → Flow False s₀ (State.landAll n s) ∧
    s.sentAs (State.landAll n s) := by
  induction n with
  | zero => exact fun h => ⟨h, State.sentAs_of_eq rfl⟩
  | succ n ih =>
    intro s h
    rw [State.landAll]
    split
    · exact ⟨h, State.sentAs_of_eq rfl⟩
    · next x rest hl =>
      obtain ⟨hrest, hx⟩ := h.unland hl
      have hstep : Flow False s₀ (({ s with landed := rest } : State).land x) ∧
          s.sentAs (({ s with landed := rest } : State).land x) := by
        rcases State.land_unreached (s := { s with landed := rest }) hx with
          ⟨t, _, node, k, he⟩ | ⟨t, he⟩ | ⟨y, _, he⟩ <;> rw [he]
        · exact ⟨hrest.sendSpray t node k False.elim, State.sentAs_of_eq (State.Traffic.refl.sendSpray ..).sent⟩
        · exact ⟨hrest.discard t, State.sentAs_of_eq (State.Traffic.refl.discard _).sent⟩
        · exact ⟨hrest.holdRefused y _, State.sentAs_holdRefused _ y _⟩
      obtain ⟨hflow, hsent⟩ := ih hstep.1
      exact ⟨hflow, State.sentAs_trans hstep.2 hsent⟩

end State.Flow

/-! ## The DATA packets of a bundle -/

/-- Packets of a sender's bundle. -/
def Sent.dataOf (y : Sender) (z : Sent) : Prop := z.pkt.cls = clsTok ∧ z.pkt.op = 1 ∧ z.job = y.job

theorem State.sendTok_sent (s : State) (y : Sender) (aux : Nat) (data : List PByte) :
    ∃ z, (s.sendTok y 1 aux data).sent = s.sent ++ [z] ∧ z.dataOf y := by
  obtain ⟨z, hz, hpkt, hjob, -, -⟩ := State.launch_sent s (Sent.mk { Packet.blank with
      cls := clsTok, op := 1, srcEngine := y.engine, length := data.length, tag := s.pickTag (s.vidOf y.site)
      dst := y.dst * 2 ^ 32, src := s.vidOf y.site, seq := y.seq, aux := aux, payload := data }
    (towerOf y.site) y.site y.job .none .waiting 0 s.now 0 0 0 none)
  exact ⟨z, hz, by rw [hpkt], by rw [hpkt], hjob⟩

theorem State.sendData_sent {s₀ s : State} {y : Sender} (h : State.Flow False s₀ s) (hsent : s.sent = []) :
    State.Flow False s₀ (s.sendData y) ∧ (s.sendData y).sent.length = ceilDiv y.words.length 32 ∧
      ∀ z ∈ (s.sendData y).sent, z.dataOf y := by
  have hall : ∀ (l : List Nat) {s : State}, State.Flow False s₀ s → (∀ z ∈ s.sent, z.dataOf y) →
      State.Flow False s₀ (l.foldl (fun s j => s.sendTok y 1 (32 * j) (slice y.bytes (256 * j) 256)) s) ∧
      (l.foldl (fun s j => s.sendTok y 1 (32 * j) (slice y.bytes (256 * j) 256)) s).sent.length =
        s.sent.length + l.length ∧
      ∀ z ∈ (l.foldl (fun s j => s.sendTok y 1 (32 * j) (slice y.bytes (256 * j) 256)) s).sent, z.dataOf y := by
    intro l
    induction l with
    | nil => exact fun h hz => ⟨h, rfl, hz⟩
    | cons j l ih =>
      intro s h hz
      obtain ⟨z, hsent, hdata⟩ := State.sendTok_sent s y (32 * j) (slice y.bytes (256 * j) 256)
      obtain ⟨hflow, hlen, hmem⟩ := ih (h.sendTok y 1 (32 * j) (slice y.bytes (256 * j) 256)) (fun w hw => by
          rw [hsent] at hw
          rcases List.mem_append.mp hw with hw | hw
          · exact hz w hw
          · rw [List.mem_singleton.mp hw]; exact hdata)
      refine ⟨hflow, ?_, hmem⟩
      rw [List.foldl_cons, hlen, hsent, List.length_append, List.length_cons]
      simp only [List.length_cons, List.length_nil]
      omega
  obtain ⟨hflow, hlen, hmem⟩ := hall (List.range (ceilDiv y.words.length 32)) h (by simp [hsent])
  rw [hsent, List.length_range, List.length_nil, Nat.zero_add] at hlen
  exact ⟨hflow, hlen, hmem⟩

theorem State.admittedPkt_recorded {s : State} {x : Sent} {y : Sender} {t : Nat} {k : Packet}
    (hby : s.sentBy (destVid k) k.tag = some x) (hof : s.senderOf x = some y) (hcls : x.pkt.cls = clsTok)
    (hop : x.pkt.op = 0) (hst : y.st = .recorded) (hwords : y.words ≠ []) :
    s.admittedPkt t k = ((s.dropTok x).setSender { y with st := .admitted }).sendData { y with st := .admitted } := by
  unfold State.admittedPkt
  rw [hby]
  dsimp only
  rw [hof]
  dsimp only
  rw [hcls, hop, hst, List.isEmpty_eq_false_iff.mpr hwords]
  rfl

/-- ADMITTED lets the sender's words go. -/
theorem State.admitted_sends {s : State} {tw : Tower} {p : Fin 32} {k : Packet} {x : Sent} {y : Sender} {q : Nat}
    (harrives : Claims.arrives s tw p k clsRsp 6 q) (hby : s.sentBy (destVid k) k.tag = some x)
    (hof : s.senderOf x = some y) (hsent : s.sent = [x]) (hcls : x.pkt.cls = clsTok) (hsenders : s.senders = [y])
    (hop : x.pkt.op = 0) (hst : y.st = .recorded) (hwords : y.words ≠ []) :
    ∃ t, s.packetIn tw p k clsRsp 6 [] = t ∧ t.senders = [{ y with st := .admitted }] ∧
      t.sent.length = ceilDiv y.words.length 32 ∧ ∀ z ∈ t.sent, z.pkt.cls = clsTok ∧ z.pkt.op = 1 ∧ z.job = y.job := by
  obtain ⟨c, hc, hcalm, hin⟩ := State.packetIn_arrives harrives (by decide) rfl
  set u := (c.dropTok x).setSender { y with st := .admitted } with hu
  have hcby : c.sentBy (destVid (Claims.aged s tw p k)) (Claims.aged s tw p k).tag = some x :=
    (State.sentBy_fabricOf hc _ _).trans hby
  have hserve : c.deliverPkt tw q (Claims.aged s tw p k) [] = u.sendData { y with st := .admitted } :=
    (State.deliverPkt_admitted _ _ _ (Claims.aged s tw p k) harrives.kind).trans
      (State.admittedPkt_recorded hcby (by obtain ⟨_, _, _, rfl⟩ := hc; exact hof) hcls hop hst hwords)
  have hunsent : u.sent = [] := by
    obtain ⟨_, _, _, rfl⟩ := hc
    change s.sent.filter _ = []
    simp [hsent]
  have husenders : u.senders = [{ y with st := .admitted }] := by
    obtain ⟨_, _, _, rfl⟩ := hc
    change s.senders.map _ = _
    simp [hsenders]
  have hlanded : u.landed = [] := by obtain ⟨_, _, _, rfl⟩ := hc; exact harrives.quiet.landed
  obtain ⟨hflow, hlen, hdata⟩ := State.sendData_sent (y := { y with st := .admitted })
    (State.Flow.refl (State.calm.outward (s := u) ⟨hcalm.ports, hcalm.links⟩ hlanded False)) hunsent
  obtain ⟨hlands, f, hf, hmap⟩ := hflow.landAll 17
  refine ⟨_, rfl, ?_, ?_, ?_⟩ <;> rw [hin, hserve]
  · rw [hlands.senders, husenders]
  · rw [hmap, List.length_map, hlen]
  · intro z hz
    rw [hmap] at hz
    obtain ⟨w, hw, rfl⟩ := List.mem_map.mp hz
    obtain ⟨hpkt, hjob, -, -⟩ := hf w
    obtain ⟨dcls, dop, djob⟩ := hdata w hw
    exact ⟨by rw [hpkt, dcls], by rw [hpkt, dop], hjob.trans djob⟩

end Sys2Proof.Machine
end

section
/-!
PROOF. A WATCH_ACK shows its WAIT the flag (02 R82, R83, 10 R394). Where that ends the WAIT, its watch is withdrawn by a
packet, the sequencer moves on, and whatever becomes of the packet leaves the core as it is.
-/
namespace Sys2Proof.Machine

/-- A step that leaves the fabric, the outstanding packets, a core's hold and queues and its CORE_RETIRED alone. -/
structure State.holdKept (i : Nat) (s t : State) : Prop where
  ports : t.ports = s.ports
  links : t.links = s.links
  landed : t.landed = s.landed
  sent : t.sent = s.sent
  hold : (t.core i).hold = (s.core i).hold
  queues : (s.core i).sameQueues (t.core i)
  retired : t.getF (Reg.coreRetired_count i) = s.getF (Reg.coreRetired_count i)

theorem Core.sameQueues_refl (c : Core) : c.sameQueues c := ⟨rfl, rfl, rfl, rfl⟩

theorem Core.sameQueues_trans {c d e : Core} (h : c.sameQueues d) (h' : d.sameQueues e) : c.sameQueues e :=
  ⟨h'.sq.trans h.sq, h'.fmv.trans h.fmv, h'.kvq.trans h.kvq, h'.kvRun.trans h.kvRun⟩

namespace State.holdKept
variable {i : Nat} {s₀ s t : State}

theorem refl (s : State) : holdKept i s s := ⟨rfl, rfl, rfl, rfl, rfl, Core.sameQueues_refl _, rfl⟩

theorem trans (h : holdKept i s₀ s) (h' : holdKept i s t) : holdKept i s₀ t :=
  ⟨h'.ports.trans h.ports, h'.links.trans h.links, h'.landed.trans h.landed, h'.sent.trans h.sent, h'.hold.trans h.hold,
   Core.sameQueues_trans h.queues h'.queues, h'.retired.trans h.retired⟩

theorem ite {c : Prop} [Decidable c] (hs : holdKept i s₀ s) (ht : holdKept i s₀ t) :
    holdKept i s₀ (if c then s else t) := by
  split
  · exact hs
  · exact ht

theorem setCore (s : State) {c : Core} (hold : c.hold = (s.core i).hold) (queues : (s.core i).sameQueues c) :
    holdKept i s (s.setCore i c) :=
  ⟨rfl, rfl, rfl, rfl, by rw [State.setCore_core, if_pos rfl, hold], by rwa [State.setCore_core, if_pos rfl], rfl⟩

theorem setF (s : State) (f : Fld) (v : Nat) (hf : (Reg.coreRetired_count i).off ≠ f.off) : holdKept i s (s.setF f v) :=
  ⟨rfl, rfl, rfl, rfl, rfl, Core.sameQueues_refl _, State.getF_setF_off _ _ _ _ hf⟩

theorem thenSetF (h : holdKept i s₀ s) (f : Fld) (v : Nat) (hf : (Reg.coreRetired_count i).off ≠ f.off) :
    holdKept i s₀ (s.setF f v) := h.trans (setF s f v hf)

theorem retired_ne {f : Fld} {n : Nat} (hf : f.off = siteBase i + n) (hn : 0x28 ≠ n) :
    (Reg.coreRetired_count i).off ≠ f.off := by
  rw [hf]
  simp only [Reg.coreRetired_count]
  omega

theorem tracePut (s : State) (r) : holdKept i s (s.tracePut r) :=
  ⟨rfl, rfl, rfl, rfl, rfl, Core.sameQueues_refl _, rfl⟩

theorem bump (s : State) (n) : holdKept i s (s.bump n) := ⟨rfl, rfl, rfl, rfl, rfl, Core.sameQueues_refl _, rfl⟩

theorem traced (s : State) (eng op itag st issued route) : holdKept i s (s.traced i eng op itag st issued route) := by
  have hins : holdKept i s (s.traceIns i eng op itag st issued) := ite (tracePut _ _) (refl _)
  unfold State.traced State.traceRoute
  refine ite ?_ hins
  split
  · exact hins.trans (tracePut _ _)
  · exact (hins.trans (bump _ _)).trans (tracePut _ _)

theorem capture (s : State) (w) : holdKept i s (s.capture i w) :=
  ite (refl _) (setCore _ rfl ⟨rfl, rfl, rfl, rfl⟩)

theorem setPc (s : State) (a) : holdKept i s (s.setPc i a) :=
  (setCore s (c := { s.core i with pastEnd := decide (vaultSize ≤ a) }) rfl ⟨rfl, rfl, rfl, rfl⟩).trans
    (setF _ _ _ (by simp [Reg.coreRetired_count, Reg.corePc_pc]))

theorem setCore_setPc (s : State) (a) {c : Core} (hold : c.hold = (s.core i).hold) (queues : (s.core i).sameQueues c) :
    holdKept i s ((s.setCore i c).setPc i a) := (setCore s hold queues).trans (setPc _ _)

theorem stepPc (s : State) (last) : holdKept i s (s.stepPc i last) := by
  unfold State.stepPc
  dsimp only
  split
  · exact setPc _ _
  · exact ite (setPc _ _) (ite (setCore_setPc _ _ rfl ⟨rfl, rfl, rfl, rfl⟩) (setCore_setPc _ _ rfl ⟨rfl, rfl, rfl, rfl⟩))

theorem endStep (s : State) : holdKept i s (s.endStep i) := by
  have hcore : holdKept i s (s.setCore i { s.core i with stepsLeft := 0 }) := setCore _ rfl ⟨rfl, rfl, rfl, rfl⟩
  exact ite (hcore.trans ⟨rfl, rfl, rfl, rfl, rfl, Core.sameQueues_refl _, rfl⟩) hcore

theorem record (s : State) (r) : holdKept i s (s.record r) :=
  ⟨by simp, by simp, by simp, by simp, by simp, by simp [Core.sameQueues_refl], by simp⟩

theorem event (s : State) (k kind site st eng itag v a) : holdKept i s (s.event k kind site st eng itag v a) :=
  ⟨by simp, by simp, by simp, by simp, by simp, by simp [Core.sameQueues_refl], by simp⟩

theorem faultChannel (s : State) (st engine itag addr) : holdKept i s (s.faultChannel i st engine itag addr) := by
  unfold State.faultChannel
  split
  · exact ite (((⟨rfl, rfl, rfl, rfl, rfl, Core.sameQueues_refl _, rfl⟩ : holdKept i s (s.setChan _ _)).trans
      (record _ _)).trans (event ..)) (refl _)
  · exact record _ _

theorem withdraw (s : State) (h : (s.core i).hold = .none) : holdKept i s (s.withdraw i) := by
  rw [State.withdraw_none h]
  have hcore : holdKept i s (s.setCore i { s.core i with hold := .none, waits := [] }) :=
    setCore s h.symm ⟨rfl, rfl, rfl, rfl⟩
  exact hcore.trans ⟨rfl, rfl, rfl, rfl, rfl, Core.sameQueues_refl _, rfl⟩

theorem stopCore (s : State) (st engine itag space addr) (h : (s.core i).hold = .none) :
    holdKept i s (s.stopCore i st engine itag space addr) := by
  have hstopped := (withdraw s h).trans (endStep _)
  have hmarked := (((((((hstopped.thenSetF (Reg.coreStatus_state i) csFaulted (retired_ne rfl (by decide))).thenSetF
    (Reg.coreStatus_last_status i) st (retired_ne rfl (by decide))).thenSetF
    (Reg.coreFaultStatus_status i) st (retired_ne rfl (by decide))).thenSetF
    (Reg.coreFaultStatus_engine i) engine (retired_ne rfl (by decide))).thenSetF
    (Reg.coreFaultStatus_tag i) itag (retired_ne rfl (by decide))).thenSetF
    (Reg.coreFaultAddr_addr i) addr (retired_ne rfl (by decide))).thenSetF
    (Reg.coreFaultInfo_space i) space (retired_ne rfl (by decide)))
  exact hmarked.trans (faultChannel _ st engine itag addr)

theorem checkLine (s : State) (h : (s.core i).hold = .none) : holdKept i s (s.checkLine i) :=
  ite (stopCore _ _ _ _ _ _ h) (refl _)

end State.holdKept

/-- A core retires an instruction: but for the count it is as before. -/
theorem State.retire_kept (s : State) (i : Nat) : (s.incWrap (Reg.coreRetired_count i) 1).holdKept i (s.retire i) := by
  unfold State.retire
  generalize s.incWrap (Reg.coreRetired_count i) 1 = r
  have hdone : r.holdKept i (r.setCore i { r.core i with noBreak := false, stepsLeft := (r.core i).stepsLeft - 1 }) :=
    holdKept.setCore _ rfl ⟨rfl, rfl, rfl, rfl⟩
  exact holdKept.ite ((hdone.trans (holdKept.endStep _)).thenSetF _ _
    (by simp [Reg.coreRetired_count, Reg.coreStatus_state])) hdone

/-- An instruction that a core is past has retired; nothing else of what `holdKept` names changes. -/
theorem State.advance_retires (s : State) (i : Nat) (w : BitVec 128) (h : (s.core i).hold = .none) :
    ∃ r, s.holdKept i r ∧ (r.incWrap (Reg.coreRetired_count i) 1).holdKept i (s.advance i w) := by
  have hpast := (holdKept.capture s w).trans (holdKept.stepPc (i := i) (s.capture i w) (iLast w.toNat))
  have hretire := State.retire_kept ((s.capture i w).stepPc i (iLast w.toNat)) i
  have hnone := hretire.hold
  rw [State.incWrap_core, hpast.hold, h] at hnone
  exact ⟨_, hpast, hretire.trans (holdKept.checkLine _ hnone)⟩

end Sys2Proof.Machine
end

section
/-!
PROOF. A WATCH_ACK shows its WAIT the flag (02 R82, R83, 10 R394).
-/
namespace Sys2Proof.Machine

/-- A core that waits for nothing and has no queued instruction, with a CORE_RETIRED, beside packets of its own that are on
their way outward. -/
structure State.restsAt (i : Site) (n : Nat) (s : State) : Prop where
  outward : s.Outward True
  sent : s.sentFrom fun j t => j = i ∧ t = towerOf i
  hold : (s.core i).hold = .none
  idle : (s.core i).sq = [] ∧ (s.core i).fmv = [] ∧ (s.core i).kvq = [] ∧ (s.core i).kvRun = []
  retired : s.getF (Reg.coreRetired_count i) = n

theorem towerOf_site_lt (i : Site) : towerOf i < 4 := by
  have := i.isLt
  unfold towerOf
  omega

theorem State.rearm_core_unheld {s : State} {i : Nat} (h : (s.core i).hold = .none) (t : Nat) (test : Nat → Nat → Bool) :
    (s.rearm t test).core i = s.core i := by
  unfold State.core State.rearm SMap.get at *
  dsimp only
  rw [SMap.find_mapVal]
  cases hf : SMap.find s.cores i with
  | none => rfl
  | some c =>
    rw [hf] at h
    dsimp only at h
    simp only [Option.map_some, h]

theorem State.rearmEntry_core_unheld {s : State} {i : Nat} (h : (s.core i).hold = .none) (t off : Nat) :
    (s.rearmEntry t off).core i = s.core i := State.rearm_core_unheld h _ _

theorem State.rearmEntry_getF (s : State) (t off : Nat) (f : Fld) : (s.rearmEntry t off).getF f = s.getF f := rfl

theorem entryOff_ne_retired (s : State) (i : Site) (node : Nat) :
    (Reg.coreRetired_count i).off ≠ s.entryOff (towerOf i) node := by
  unfold State.entryOff
  split <;> simp only [Reg.coreRetired_count, Reg.skyRouteM_valid, Reg.skyRouteG_valid, siteBase, towerOf] <;> omega

namespace State.restsAt
variable {i : Site} {n : Nat} {s t : State}

theorem of_flow (h : s.restsAt i n) (hf : State.Flow True s t) (hsent : t.sentFrom fun j t => j = i ∧ t = towerOf i) :
    t.restsAt i n := by
  have hcore : t.core i = s.core i := by
    unfold State.core
    rw [hf.cores trivial]
  refine ⟨hf.outward, hsent, by rw [hcore]; exact h.hold, by rw [hcore]; exact h.idle, ?_⟩
  rw [← h.retired]
  exact State.getF_of_reg _ (hf.regs trivial _ (siteAddr_siteReg (x := 0x28) i.isLt (by decide)))

theorem of_kept (h : s.restsAt i n) (hk : s.holdKept i t) : t.restsAt i n := by
  obtain ⟨hsq, hfmv, hkvq, hrun⟩ := h.idle
  exact ⟨h.outward.of_same hk.ports hk.links hk.landed, by unfold State.sentFrom; rw [hk.sent]; exact h.sent,
    hk.hold.trans h.hold, ⟨hk.queues.sq.trans hsq, hk.queues.fmv.trans hfmv, hk.queues.kvq.trans hkvq,
      hk.queues.kvRun.trans hrun⟩, hk.retired.trans h.retired⟩

theorem incWrap (h : s.restsAt i n) (f : Fld) (v : Nat) {m : Nat} (hm : (s.incWrap f v).getF (Reg.coreRetired_count i) = m) :
    (s.incWrap f v).restsAt i m := ⟨h.outward.of_same rfl rfl rfl, h.sent, h.hold, h.idle, hm⟩

theorem advance (h : s.restsAt i n) (w : BitVec 128) : (s.advance i w).restsAt i ((n + 1) % 2 ^ 48) := by
  obtain ⟨r, hr, hrest⟩ := State.advance_retires s i w h.hold
  have hat := h.of_kept hr
  refine (hat.incWrap (Reg.coreRetired_count i) 1 ?_).of_kept hrest
  rw [State.getF_incWrap_self _ _ _ (by rfl), hat.retired]
  rfl

theorem request (h : s.restsAt i n) (engine job dest k) : (s.request i engine job dest k).restsAt i n := by
  refine h.of_flow ((State.Flow.refl h.outward).request _ _ _ _ _ fun _ => by have := towerOf_site_lt i; omega) ?_
  obtain ⟨y, hy, -, -, hsite, htower⟩ := State.launch_sent s (Sent.mk { k with
    src := s.vidOf i, srcEngine := engine, tag := s.pickTag (s.vidOf i), hopsLeft := true }
    (if i.val < hostSite then towerOf i else 0) i job dest .waiting 0 s.now 0 0 0 none)
  intro z hz
  unfold State.request at hz
  dsimp only at hz
  rw [hy] at hz
  rcases List.mem_append.mp hz with hz | hz
  · exact h.sent z hz
  · rw [List.mem_singleton.mp hz, hsite, htower]
    exact ⟨rfl, if_pos i.isLt⟩

theorem kickWaiting (h : s.restsAt i n) : s.kickWaiting.restsAt i n :=
  h.of_flow ((State.Flow.refl h.outward).kickWaiting fun _ x hx => by
      have := towerOf_site_lt i
      rw [(h.sent x hx).1]
      omega)
    (State.sentFrom_kickWaiting h.sent)

theorem holdRefused (h : s.restsAt i n) {y : Sent} (hy : y ∈ s.sent) (why : Nat) : (s.holdRefused y why).restsAt i n := by
  obtain ⟨-, htower⟩ := h.sent y hy
  have hcore : (s.holdRefused y why).core i = s.core i := by
    unfold State.holdRefused
    dsimp only
    rw [State.rearmEntry_core_unheld]
    · exact State.setF_core ..
    · exact (congrArg Core.hold (State.setF_core ..)).trans h.hold
  refine ⟨h.outward.of_same rfl rfl rfl, fun z hz => ?_, by rw [hcore]; exact h.hold, by rw [hcore]; exact h.idle, ?_⟩
  · obtain ⟨f, hf, hmap⟩ := State.sentAs_holdRefused s y why
    rw [hmap] at hz
    obtain ⟨x, hx, rfl⟩ := List.mem_map.mp hz
    obtain ⟨-, -, hsite, htow⟩ := hf x
    rw [hsite, htow]
    exact h.sent x hx
  · rw [← h.retired]
    unfold State.holdRefused
    dsimp only
    rw [State.rearmEntry_getF, htower, State.setHold]
    exact State.getF_setF_off _ _ _ _ (entryOff_ne_retired _ i _)

theorem landAll (m : Nat) : ∀ {s : State}, s.restsAt i n → (State.landAll m s).restsAt i n := by
  induction m with
  | zero => exact fun h => h
  | succ m ih =>
    intro s h
    rw [State.landAll]
    split
    · exact h
    · next x rest hl =>
      obtain ⟨hflow, hx⟩ := (State.Flow.refl h.outward).unland hl
      have hrest : ({ s with landed := rest } : State).restsAt i n := ⟨hflow.outward, h.sent, h.hold, h.idle, h.retired⟩
      have hstays : State.Flow True { s with landed := rest } { s with landed := rest } := State.Flow.refl hflow.outward
      refine ih ?_
      rcases State.land_unreached (s := { s with landed := rest }) hx with
        ⟨t, ht, node, k, he⟩ | ⟨t, he⟩ | ⟨y, hy, he⟩ <;> rw [he]
      · refine hrest.of_flow (hstays.sendSpray t node k ht) ?_
        unfold State.sentFrom
        rw [(State.Traffic.refl.sendSpray _ _ _).sent]
        exact h.sent
      · refine hrest.of_flow (hstays.discard t) ?_
        unfold State.sentFrom
        rw [(State.Traffic.refl.discard _).sent]
        exact h.sent
      · exact hrest.holdRefused hy _

end State.restsAt

/-! ## The WAIT ends -/

theorem State.withdraw_wait {s : State} {i : Nat} {x : WaitSt} (hhold : (s.core i).hold = .wait x) :
    s.withdraw i = if x.remote then
        ((s.unwaited i).setF (Reg.coreStatus_wait_armed i) 0).request i 0 0 .none
          { Packet.blank with op := 4, dst := x.vid * 2 ^ 32 + x.off }
      else (s.unwaited i).setF (Reg.coreStatus_wait_armed i) 0 := by
  rw [State.withdraw, State.unwaited]
  simp only [hhold]

/-- A WAIT that ends where nothing else is on its way leaves its core at rest, past the instruction. -/
theorem State.finishWait_rests {s : State} {i : Site} {x : WaitSt} (hhold : (s.core i).hold = .wait x) (hcalm : s.calm)
    (hlanded : s.landed = []) (hsent : s.sent = []) (hsq : (s.core i).sq = []) (hfmv : (s.core i).fmv = [])
    (hkvq : (s.core i).kvq = []) (hrun : (s.core i).kvRun = []) :
    (s.finishWait i).restsAt i ((s.getF (Reg.coreRetired_count i) + 1) % 2 ^ 48) := by
  have hunwaited : (s.unwaited i).restsAt i (s.getF (Reg.coreRetired_count i)) := by
    have hcore := State.unwaited_core s i
    refine ⟨(hcalm.outward hlanded True).of_same rfl rfl rfl, fun y hy => ?_, by rw [hcore],
      by rw [hcore]; exact ⟨hsq, hfmv, hkvq, hrun⟩, rfl⟩
    exact absurd (show y ∈ s.sent from hy) (by simp [hsent])
  have hcleared := hunwaited.of_kept (State.holdKept.setF (s.unwaited i) (Reg.coreStatus_wait_armed i) 0
    (by simp [Reg.coreRetired_count, Reg.coreStatus_wait_armed]))
  have hwithdrawn : (s.withdraw i).restsAt i (s.getF (Reg.coreRetired_count i)) := by
    rw [State.withdraw_wait hhold]
    split
    · exact hcleared.request _ _ _ _
    · exact hcleared
  exact ((hwithdrawn.of_kept (State.holdKept.traced _ _ _ _ _ _ _)).advance _)

/-- An armed watch that sees a clean value. -/
theorem State.armEnded_sees {s : State} {x : Sent} {w : WaitSt} {data : List PByte}
    (harmed : s.armedBy x.site x.pkt.tag = some w) (hnew : w.armed = false) :
    s.armEnded x stOk data = s.seeFlag x.site { w with armed := true } data := by
  unfold State.armEnded
  rw [harmed]
  dsimp only
  rw [hnew, if_neg Bool.false_ne_true, if_neg (by decide), if_neg (by decide)]

/-- A core with a WAIT that has seen its flag. -/
def State.seen (s : State) (i : Nat) (w : WaitSt) (v : Nat) : State :=
  s.setCore i { s.core i with hold := .wait { w with seen := v } }

theorem State.seen_core (s : State) (i : Nat) (w : WaitSt) (v : Nat) :
    (s.seen i w v).core i = { s.core i with hold := .wait { w with seen := v } } := by
  rw [State.seen, State.setCore_core, if_pos rfl]

theorem State.seen_getF (s : State) (i : Nat) (w : WaitSt) (v : Nat) (f : Fld) : (s.seen i w v).getF f = s.getF f := rfl
theorem State.unsent_getF (s : State) (x : Sent) (f : Fld) : (s.unsent x).getF f = s.getF f := rfl

section
variable {s c : State} {k : Packet} {x : Sent} {i : Site} {w : WaitSt}

/-- What an armed WAIT makes of the answer to the one outstanding packet: it has ended, and its core rests past it. -/
theorem State.answered_met {data : List PByte} (hcalm : c.calm) (hlanded : c.landed = []) (hsent : c.sent = [x])
    (hsite : x.site = i) (hdest : x.dest = .none) (hsq : (c.core i).sq = []) (hfmv : (c.core i).fmv = [])
    (hkvq : (c.core i).kvq = []) (hrun : (c.core i).kvRun = [])
    (hdone : (c.unsent x).partDone { x with ans := some (stOk, data) } stOk data =
      ((c.unsent x).seen i w (leP data)).finishWait i) :
    (c.answered x stOk data).restsAt i ((c.getF (Reg.coreRetired_count i) + 1) % 2 ^ 48) := by
  have hready : c.destReady { x with ans := some (stOk, data) } = true := by
    unfold State.destReady
    dsimp only
    rw [hdest]
  have hcore := State.seen_core (c.unsent x) i w (leP data)
  have hscalm : ((c.unsent x).seen i w (leP data)).calm := ⟨hcalm.ports, hcalm.links⟩
  have hends := State.finishWait_rests (by rw [hcore]) hscalm hlanded rfl (by rw [hcore]; exact hsq)
    (by rw [hcore]; exact hfmv) (by rw [hcore]; exact hkvq) (by rw [hcore]; exact hrun)
  rw [State.seen_getF, State.unsent_getF] at hends
  have hkicked := hends.kickWaiting
  obtain ⟨usq, ufmv, ukvq, urun⟩ := hkicked.idle
  rw [State.answered_sent hsent, State.ripen_only hready, hdone, hsite, State.runEngines_idle usq ufmv,
    State.kvGo_idle ukvq urun, ite_self]
  exact hkicked

/-- The core goes on waiting, having seen its flag. -/
theorem State.answered_unmet {data : List PByte} (hcalm : c.calm) (hsent : c.sent = [x])
    (hsite : x.site = i) (hdest : x.dest = .none) (hsq : (c.core i).sq = []) (hfmv : (c.core i).fmv = [])
    (hkvq : (c.core i).kvq = []) (hrun : (c.core i).kvRun = [])
    (hdone : (c.unsent x).partDone { x with ans := some (stOk, data) } stOk data = (c.unsent x).seen i w (leP data)) :
    ((c.unsent x).seen i w (leP data)).fabricOf (c.answered x stOk data) := by
  have hready : c.destReady { x with ans := some (stOk, data) } = true := by
    unfold State.destReady
    dsimp only
    rw [hdest]
  have hcore := State.seen_core (c.unsent x) i w (leP data)
  exact State.answered_only hsent hready hdone rfl ⟨hcalm.ports, hcalm.links⟩
    (by rw [hsite, hcore]; exact hsq) (by rw [hsite, hcore]; exact hfmv) (by rw [hsite, hcore]; exact hkvq)
    (by rw [hsite, hcore]; exact hrun)

theorem State.watchAck_sees {tw : Tower} {p : Fin 32} {q : Nat} (harrives : Claims.arrives s tw p k clsRsp 3 q)
    (hby : s.sentBy (destVid k) k.tag = some x) (hsent : s.sent = [x]) (hsite : x.site = i) (hcls : x.pkt.cls = clsReq)
    (hop : x.pkt.op = 3) (hdest : x.dest = .none) (harmed : s.armedBy i x.pkt.tag = some w) (hnew : w.armed = false)
    (hst : k.status = stOk) (hclean : anyPoison k.payload = false) (hsq : (s.core i).sq = []) (hfmv : (s.core i).fmv = [])
    (hkvq : (s.core i).kvq = []) (hrun : (s.core i).kvRun = []) :
    Claims.sees s (s.packetIn tw p k clsRsp 3 []) i { w with armed := true } k.payload := by
  obtain ⟨c, hc, hcalm, hin⟩ := State.packetIn_arrives harrives (by decide) rfl
  have hcore := State.fabricOf_core hc i
  have hretired : c.getF (Reg.coreRetired_count i) = s.getF (Reg.coreRetired_count i) := by
    obtain ⟨_, _, _, rfl⟩ := hc
    rfl
  have hcsent : c.sent = [x] := by obtain ⟨_, _, _, rfl⟩ := hc; exact hsent
  have hclanded : c.landed = [] := by obtain ⟨_, _, _, rfl⟩ := hc; exact harrives.quiet.landed
  have hnow : (c.unsent x).now = s.now := by obtain ⟨_, _, _, rfl⟩ := hc; rfl
  have hcarmed : (c.unsent x).armedBy x.site x.pkt.tag = some w := by
    rw [hsite]
    obtain ⟨_, _, _, rfl⟩ := hc
    exact harmed
  have hserve : c.deliverPkt tw q (Claims.aged s tw p k) [] = c.answered x stOk k.payload := by
    rw [State.deliverPkt_watchAck _ _ _ (Claims.aged s tw p k) harrives.kind,
      State.deliver_answerFor hby hcls (by rw [hop]; rfl) hc, hst]
  have hdone : (c.unsent x).partDone { x with ans := some (stOk, k.payload) } stOk k.payload =
      if waitHolds w.cmp w.value (leP k.payload) && decide (s.now < w.deadline) then
        ((c.unsent x).seen i { w with armed := true } (leP k.payload)).finishWait i
      else (c.unsent x).seen i { w with armed := true } (leP k.payload) := by
    rw [State.partDone, if_pos hop, State.armEnded_sees (x := { x with ans := some (stOk, k.payload) }) hcarmed hnew,
      State.seeFlag_clean hclean, hnow, hsite]
    rfl
  rw [hin, hserve]
  by_cases hmet : waitHolds w.cmp w.value (leP k.payload) = true ∧ s.now < w.deadline
  · rw [if_pos (by simpa using hmet)] at hdone
    have hrests := (State.answered_met hcalm hclanded hcsent hsite hdest (hcore ▸ hsq) (hcore ▸ hfmv) (hcore ▸ hkvq)
      (hcore ▸ hrun) hdone).landAll 17
    exact ⟨fun _ => ⟨hrests.hold, by rw [hrests.retired, hretired]⟩, fun h => absurd hmet h⟩
  · rw [if_neg (by simpa using hmet)] at hdone
    obtain ⟨ports, links, towers, he⟩ := State.answered_unmet hcalm hcsent hsite hdest (hcore ▸ hsq) (hcore ▸ hfmv)
      (hcore ▸ hkvq) (hcore ▸ hrun) hdone
    have hlanded : (c.answered x stOk k.payload).landed = [] := by rw [he]; exact hclanded
    rw [State.landAll_done hlanded, he]
    refine ⟨fun h => absurd h hmet, fun _ => ⟨?_, hretired⟩⟩
    exact congrArg Core.hold (State.seen_core (c.unsent x) i { w with armed := true } (leP k.payload))

end
end Sys2Proof.Machine
end

section
/-!
PROOF. A sender's job ends while its core's engines have nothing queued. What that can set going — a stop of the core, its
SYN queue, the vaults — sends packets outward, and neither adds a sender nor queues an instruction of an engine. It is said
once for each operation, in the model's order.
-/
namespace Sys2Proof.Machine

/-- `s` comes from `s₀` by what keeps the senders and what a core's SQ and FMV engines have queued, with all packets on
their way outward. -/
structure State.Away (own : Nat) (s₀ s : State) : Prop where
  outward : s.Outward False
  senders : s.senders = s₀.senders
  sq : (s.core own).sq = (s₀.core own).sq
  fmv : (s.core own).fmv = (s₀.core own).fmv

theorem State.depart_cores (s : State) (x : Sent) (g p : Nat) : (s.depart x g p).cores = s.cores := by
  unfold State.depart
  split
  · exact State.setF_cores ..
  · exact (State.Traffic.refl.cross _ _).cores

theorem State.request_cores (s : State) (site engine job : Nat) (dest : Dest) (k : Packet) :
    (s.request site engine job dest k).cores = s.cores := by
  unfold State.request State.launch
  dsimp only
  split
  · exact State.Traffic.refl.pump.cores.trans (State.depart_cores ..)
  · rfl

theorem State.traced_core (s : State) (i eng op itag st issued : Nat) (route : Option (Nat × Nat × Nat)) (j : Nat) :
    (s.traced i eng op itag st issued route).core j = s.core j := by
  have hins : (s.traceIns i eng op itag st issued).core j = s.core j := by
    unfold State.traceIns
    split <;> simp
  unfold State.traced State.traceRoute
  split
  · split <;> simp [hins]
  · exact hins

theorem State.kickWaiting_cores (s : State) : s.kickWaiting.cores = s.cores := by
  have hone : ∀ (s : State) (k : Nat), (s.tryWaiting k).cores = s.cores := by
    intro s k
    unfold State.tryWaiting
    split
    · rfl
    · split
      · dsimp only
        split
        · exact State.depart_cores ..
        · rfl
      · rfl
  have hall : ∀ (l : List Nat) (s : State), (l.foldl (fun s k => s.tryWaiting k) s).cores = s.cores := by
    intro l
    induction l with
    | nil => exact fun _ => rfl
    | cons k l ih => exact fun s => (ih _).trans (hone s k)
  exact State.Traffic.refl.pump.cores.trans (hall _ s)

namespace State.Away
variable {own : Nat} {s₀ s t : State}

theorem of_flow (h : s₀.Away own s) (hf : State.Flow False s t) (hc : t.cores = s.cores) : s₀.Away own t := by
  have hcore : t.core own = s.core own := by
    unfold State.core
    rw [hc]
  exact ⟨hf.outward, hf.senders.trans h.senders, by rw [hcore]; exact h.sq, by rw [hcore]; exact h.fmv⟩

/-- A change of what is none of this. -/
theorem upd (h : s₀.Away own s) (now regs regs0 rdLatch wrHold vaults bkuWin epoch fillBg queues seqs jobs jobCtr sent
    tables asker quarantine towers failover pfx chans started arbPtr skipped rings evRings events
    records sensors zoneAt hot pwr gates power rst boot features ras dbg chip out fresh pending) :
    s₀.Away own
      { now := now, regs := regs, regs0 := regs0, rdLatch := rdLatch, wrHold := wrHold, cores := s.cores, vaults := vaults
        bkuWin := bkuWin, epoch := epoch, fillBg := fillBg, queues := queues, senders := s.senders, seqs := seqs
        jobs := jobs, jobCtr := jobCtr, sent := sent, tables := tables, asker := asker, quarantine := quarantine
        towers := towers, ports := s.ports, links := s.links, failover := failover, landed := s.landed, pfx := pfx
        chans := chans, started := started, arbPtr := arbPtr, skipped := skipped, rings := rings, evRings := evRings
        events := events, records := records, sensors := sensors, zoneAt := zoneAt, hot := hot, pwr := pwr, gates := gates
        power := power, rst := rst, boot := boot, features := features, ras := ras, dbg := dbg, chip := chip, out := out
        fresh := fresh, pending := pending } :=
  ⟨h.outward.of_same rfl rfl rfl, h.senders, h.sq, h.fmv⟩

theorem setF (h : s₀.Away own s) (f : Fld) (v : Nat) : s₀.Away own (s.setF f v) :=
  ⟨h.outward.of_same rfl rfl rfl, h.senders, h.sq, h.fmv⟩
theorem incSat (h : s₀.Away own s) (f : Fld) (v : Nat) : s₀.Away own (s.incSat f v) := h.setF _ _
theorem incWrap (h : s₀.Away own s) (f : Fld) (v : Nat) : s₀.Away own (s.incWrap f v) := h.setF _ _

/-- A core changes but for what its engines have queued. -/
theorem setCore (h : s₀.Away own s) (j : Nat) (c : Core) (hsq : c.sq = (s.core j).sq) (hfmv : c.fmv = (s.core j).fmv) :
    s₀.Away own (s.setCore j c) := by
  refine ⟨h.outward.of_same rfl rfl rfl, h.senders, ?_, ?_⟩ <;> rw [State.setCore_core] <;> split
  · next he => rw [hsq, ← he]; exact h.sq
  · exact h.sq
  · next he => rw [hfmv, ← he]; exact h.fmv
  · exact h.fmv

theorem sendSpray (h : s₀.Away own s) (t node k) : s₀.Away own (s.sendSpray t node k) :=
  h.of_flow ((State.Flow.refl h.outward).sendSpray t node k False.elim) (State.Traffic.refl.sendSpray ..).cores

theorem request (h : s₀.Away own s) (site engine job dest k) : s₀.Away own (s.request site engine job dest k) :=
  h.of_flow ((State.Flow.refl h.outward).request site engine job dest k False.elim) (State.request_cores ..)

theorem foldl_of {α β : Type} (g : β → State) {f : β → α → β} {b : β} (h : s₀.Away own (g b))
    (hf : ∀ b a c, s₀.Away own (g b) → f b a = c → s₀.Away own (g c)) (l : List α) : s₀.Away own (g (l.foldl f b)) := by
  induction l generalizing b with
  | nil => exact h
  | cons x xs ih => exact ih (hf b x _ h rfl)

theorem foldl {α : Type} {f : State → α → State} (h : s₀.Away own s) (hf : ∀ s, s₀.Away own s → ∀ a, s₀.Away own (f s a))
    (l : List α) : s₀.Away own (l.foldl f s) :=
  foldl_of id h (fun s a _ h e => e ▸ hf s h a) l

theorem foldl₁ {α β : Type} {f : State × β → α → State × β} {p : State × β} (h : s₀.Away own p.1)
    (hf : ∀ p a q, s₀.Away own p.1 → f p a = q → s₀.Away own q.1) (l : List α) : s₀.Away own (l.foldl f p).1 :=
  foldl_of Prod.fst h hf l

theorem ite_of {β : Type} (g : β → State) {c : Prop} [Decidable c] {a b : β} (ha : s₀.Away own (g a))
    (hb : s₀.Away own (g b)) :
    s₀.Away own (g (if c then a else b)) := by
  split <;> assumption

theorem ite {c : Prop} [Decidable c] (hs : s₀.Away own s) (ht : s₀.Away own t) : s₀.Away own (if c then s else t) :=
  ite_of id hs ht

theorem xlat_foldl {α : Type} {f : Xlat → α → Xlat} {x : Xlat} (h : s₀.Away own x.s)
    (hf : ∀ x a y, s₀.Away own x.s → f x a = y → s₀.Away own y.s) {l : List α} : s₀.Away own (l.foldl f x).s :=
  foldl_of Xlat.s h hf l

theorem setVault (h : s₀.Away own s) (i v) : s₀.Away own (s.setVault i v) := by
  unfold State.setVault
  grind [upd]

theorem setChan (h : s₀.Away own s) (k c) : s₀.Away own (s.setChan k c) := by
  unfold State.setChan
  grind [upd]

theorem bump (h : s₀.Away own s) (n) : s₀.Away own (s.bump n) := by
  unfold State.bump
  grind [upd]

theorem setSeqCtr (h : s₀.Away own s) (i e1 x) : s₀.Away own (s.setSeqCtr i e1 x) := by
  unfold State.setSeqCtr
  grind [upd]

theorem record (h : s₀.Away own s) (r) : s₀.Away own (s.record r) := by
  unfold State.record
  grind [upd]

theorem event (h : s₀.Away own s) (k kind site status engine itag value addr) :
    s₀.Away own (s.event k kind site status engine itag value addr) := by
  unfold State.event
  grind [upd]

theorem coreEvent (h : s₀.Away own s) (site kind status engine itag value addr) :
    s₀.Away own (s.coreEvent site kind status engine itag value addr) := by
  unfold State.coreEvent
  grind [event]

theorem dropWatches (h : s₀.Away own s) (i) : s₀.Away own (s.dropWatches i) := by
  unfold State.dropWatches
  grind [upd]

theorem faultChannel (h : s₀.Away own s) (i st engine itag addr) : s₀.Away own (s.faultChannel i st engine itag addr) := by
  unfold State.faultChannel
  grind [setChan, record, event]

theorem softErr (h : s₀.Away own s) (i st engine) : s₀.Away own (s.softErr i st engine) := by
  unfold State.softErr
  grind [incSat, setF]

theorem addJob (h : s₀.Away own s) (j) : s₀.Away own (s.addJob j) := by
  unfold State.addJob
  grind [upd]

theorem rowAsked (h : s₀.Away own s) (v p) : s₀.Away own (s.rowAsked v p) := by
  unfold State.rowAsked
  grind [setVault]

theorem touchRow (h : s₀.Away own s) (v p) : s₀.Away own (s.touchRow v p) := by
  unfold State.touchRow
  grind [incWrap, setVault]

theorem bookAs (h : s₀.Away own s) (v cls narrow n) : s₀.Away own (s.bookAs v cls narrow n) := by
  unfold State.bookAs
  grind [setVault]

theorem arbitrate (h : s₀.Away own s) (v cls narrow off n) : s₀.Away own (s.arbitrate v cls narrow off n) := by
  unfold State.arbitrate
  grind [bookAs]

theorem eccFirst (h : s₀.Away own s) (v off kind d) : s₀.Away own (s.eccFirst v off kind d) := by
  unfold State.eccFirst
  grind [setF]

theorem ceNote (h : s₀.Away own s) (v off p) : s₀.Away own (s.ceNote v off p) := by
  unfold State.ceNote
  grind [setVault, record]

theorem noteWord (h : s₀.Away own s) (v off p d) : s₀.Away own (s.noteWord v off p d) := by
  unfold State.noteWord
  grind [incSat, eccFirst, record, ceNote]

theorem readVault (h : s₀.Away own s) (v off n narrow) : s₀.Away own (s.readVault v off n narrow).1 := by
  unfold State.readVault
  grind [incWrap, touchRow, noteWord, foldl, foldl₁]

theorem drainOne (h : s₀.Away own s) (v) : s₀.Away own (s.drainOne v) := by
  unfold State.drainOne
  grind [setVault, touchRow]

theorem drainSome (h : s₀.Away own s) (v k) : s₀.Away own (s.drainSome v k) := by
  induction k generalizing s with
  | zero => exact h
  | succ k ih => exact ih (h.drainOne v)

theorem makeRoom (h : s₀.Away own s) (v n) : s₀.Away own (s.makeRoom v n) := by
  unfold State.makeRoom
  grind [drainSome]

theorem bufPut (h : s₀.Away own s) (v e1) : s₀.Away own (s.bufPut v e1) := by
  unfold State.bufPut
  grind [setVault, rowAsked]

theorem accept (h : s₀.Away own s) (v e1) : s₀.Away own (s.accept v e1) := by
  unfold State.accept
  grind [bufPut, makeRoom]

theorem notify (h : s₀.Away own s) (v off n) : s₀.Away own (s.notify v off n) := by
  unfold State.notify
  grind [setVault, sendSpray, foldl, foldl₁]

theorem writeVault (h : s₀.Away own s) (v off data narrow) : s₀.Away own (s.writeVault v off data narrow).1 := by
  unfold State.writeVault
  grind [notify, incWrap, noteWord, accept, foldl, foldl₁]

theorem atomicVault (h : s₀.Away own s) (v off aop wide operand compare) :
    s₀.Away own (s.atomicVault v off aop wide operand compare).1 := by
  unfold State.atomicVault
  grind [readVault, writeVault]

theorem readAs (h : s₀.Away own s) (site v off n narrow) : s₀.Away own (s.readAs site v off n narrow).1 := by
  unfold State.readAs
  grind [readVault, arbitrate]

theorem writeAs (h : s₀.Away own s) (site v off data narrow) : s₀.Away own (s.writeAs site v off data narrow).1 := by
  unfold State.writeAs
  grind [arbitrate, writeVault]

theorem atomicAs (h : s₀.Away own s) (site v off aop wide operand compare) :
    s₀.Away own (s.atomicAs site v off aop wide operand compare).1 := by
  unfold State.atomicAs
  grind [arbitrate, atomicVault]

theorem xlat_fail (h : s₀.Away own s) (st) : s₀.Away own (Xlat.fail s st).s := by
  unfold Machine.Xlat.fail
  grind

theorem skyRange (h : s₀.Away own s) (die a n bad write pos) : s₀.Away own (s.skyRange die a n bad write pos).s := by
  unfold State.skyRange
  grind [xlat_fail]

theorem xlat_andThen {x : Xlat} {f : State → Xlat} (h : s₀.Away own x.s)
    (hf : ∀ s y, s₀.Away own s → f s = y → s₀.Away own y.s) : s₀.Away own (x.andThen f).s := by
  unfold Xlat.andThen
  split
  · exact (hf x.s (f x.s) h rfl :)
  · exact h

theorem ask (h : s₀.Away own s) (site key) : s₀.Away own (s.ask site key) := by
  unfold State.ask
  grind [upd]

theorem dropTables (h : s₀.Away own s) (site key) : s₀.Away own (s.dropTables site key) := by
  unfold State.dropTables
  grind [upd]

theorem forget (h : s₀.Away own s) (site key) : s₀.Away own (s.forget site key) := by
  unfold State.forget
  grind [dropTables, upd]

theorem tabRead (h : s₀.Away own s) (vid off n) : s₀.Away own (s.tabRead vid off n).1 := by
  unfold State.tabRead
  grind [upd]

theorem sendWanted (h : s₀.Away own s) (site key eng ws) : s₀.Away own (s.sendWanted site key eng ws) := by
  unfold State.sendWanted
  grind [request, upd, foldl, foldl₁]

theorem lookUp {α : Type} (h : s₀.Away own s) (site key eng : Nat) {f : State → Option (State × α)}
    (hf : ∀ s r, s₀.Away own s → f s = some r → s₀.Away own r.1) : s₀.Away own (s.lookUp site key eng f).state := by
  unfold State.lookUp
  split
  · exact h
  · split
    · exact h
    · rename_i r hr
      split
      · exact (hf _ r (h.ask site key) hr).forget site key
      · exact h.sendWanted site key eng r.1.wanted

theorem setWaits (h : s₀.Away own s) (i bs) : s₀.Away own (s.setWaits i bs) := by
  unfold State.setWaits
  grind [setCore]

theorem walkRead (h : s₀.Away own s) (die site a n) : s₀.Away own (s.walkRead die site a n).s := by
  unfold State.walkRead
  grind [tabRead, readAs]

theorem walkPoison (h : s₀.Away own s) (site st a) : s₀.Away own (s.walkPoison site st a) := by
  unfold State.walkPoison
  grind [record]

theorem walkAnew (h : s₀.Away own s) (die site w off) : s₀.Away own (s.walkAnew die site w off).s := by
  unfold State.walkAnew
  grind [walkPoison, walkRead]

theorem walk (h : s₀.Away own s) (die site w off) : s₀.Away own (s.walk die site w off).s := by
  unfold State.walk
  grind [walkAnew, upd]

theorem windowRange (h : s₀.Away own s) (die site w off n write) : s₀.Away own (s.windowRange die site w off n write).s := by
  unfold State.windowRange
  grind [skyRange, walk, xlat_foldl, xlat_andThen]

theorem virtRange (h : s₀.Away own s) (die site ch a n write) : s₀.Away own (s.virtRange die site ch a n write).s := by
  unfold State.virtRange
  grind [xlat_fail, windowRange]

theorem touchedMem (h : s₀.Away own s) (i xs) : s₀.Away own (s.touchedMem i xs) := by
  unfold State.touchedMem
  grind [setCore]

theorem resolvePlain (h : s₀.Away own s) (site o n write) : s₀.Away own (s.resolvePlain site o n write).s := by
  unfold State.resolvePlain
  grind [skyRange, xlat_fail, virtRange]

theorem resolve (h : s₀.Away own s) (site o n write) : s₀.Away own (s.resolve site o n write).s := by
  unfold State.resolve
  grind [touchedMem, resolvePlain]

theorem waitFor (h : s₀.Away own s) (i bs) : s₀.Away own (s.waitFor i bs) := by
  unfold State.waitFor
  grind [setWaits]

theorem touched (h : s₀.Away own s) (i a n) : s₀.Away own (s.touched i a n) := by
  unfold State.touched
  grind [setCore]

theorem writeScratch (h : s₀.Away own s) (i a data) : s₀.Away own (s.writeScratch i a data) := by
  unfold State.writeScratch
  grind [touched, setCore]

theorem tracePut (h : s₀.Away own s) (r) : s₀.Away own (s.tracePut r) := by
  unfold State.tracePut
  grind [upd]

theorem traceIns (h : s₀.Away own s) (i eng op itag st issued) : s₀.Away own (s.traceIns i eng op itag st issued) := by
  unfold State.traceIns
  grind [tracePut]

theorem traceRoute (h : s₀.Away own s) (i eng op st route) : s₀.Away own (s.traceRoute i eng op st route) := by
  unfold State.traceRoute
  grind [bump, tracePut]

theorem traced (h : s₀.Away own s) (i eng op itag st issued route) :
    s₀.Away own (s.traced i eng op itag st issued route) := by
  unfold State.traced
  grind [traceIns, traceRoute]

theorem tracedHere (h : s₀.Away own s) (i w st) : s₀.Away own (s.tracedHere i w st) := by
  unfold State.tracedHere
  grind [traced]

theorem endStep (h : s₀.Away own s) (i) : s₀.Away own (s.endStep i) := by
  unfold State.endStep
  grind [setCore, upd]

theorem withdraw (h : s₀.Away own s) (i) : s₀.Away own (s.withdraw i) := by
  unfold State.withdraw
  grind [dropWatches, setF, dropTables, setCore, request]

theorem stopCore (h : s₀.Away own s) (i st engine itag space addr) : s₀.Away own (s.stopCore i st engine itag space addr) :=
  (((((((((h.withdraw _).endStep _).setF _ _).setF _ _).setF _ _).setF _ _).setF _ _).setF _ _).setF _ _).faultChannel
    _ _ _ _ _

theorem settle (h : s₀.Away own s) (i engine itag d) : s₀.Away own (s.settle i engine itag d) := by
  unfold State.settle
  grind [stopCore, softErr]

theorem checkLine (h : s₀.Away own s) (i) : s₀.Away own (s.checkLine i) := by
  unfold State.checkLine
  grind [stopCore]

theorem retire (h : s₀.Away own s) (i) : s₀.Away own (s.retire i) := by
  unfold State.retire
  grind [incWrap, setF, endStep, setCore]

theorem setPc (h : s₀.Away own s) (i a) : s₀.Away own (s.setPc i a) := by
  unfold State.setPc
  grind [setF, setCore]

theorem capture (h : s₀.Away own s) (i w) : s₀.Away own (s.capture i w) := by
  unfold State.capture
  grind [setCore]

theorem stepPc (h : s₀.Away own s) (i last) : s₀.Away own (s.stepPc i last) := by
  unfold State.stepPc
  grind [setCore, setPc]

theorem advance (h : s₀.Away own s) (i w) : s₀.Away own (s.advance i w) := by
  unfold State.advance
  grind [retire, stepPc, checkLine, capture]

theorem doSignal (i g addr space value add) {t : State} (e : s.doSignal i g addr space value add = some t)
    (h : s₀.Away own s) :
    s₀.Away own t := by
  unfold State.doSignal at e
  grind [settle, request, writeAs, resolve, atomicAs, traced, addJob]

theorem synHead (h : s₀.Away own s) (i) : s₀.Away own (s.synHead i).state := by
  unfold State.synHead
  split
  · exact h
  · rename_i g gs hq
    have hset := h.setCore i { s.core i with synq := gs } rfl rfl
    dsimp only
    split
    · split
      · exact h
      · rename_i mask addr space add value _ _
        have hk := h.lookUp i synKey 0 (f := fun s =>
          ((s.setCore i { s.core i with synq := gs }).doSignal i g addr.toNat space value add).map fun r => (r, ()))
          (fun s r h e => by
            obtain ⟨u, hu, rfl⟩ := Option.map_eq_some_iff.mp e
            exact doSignal _ _ _ _ _ _ hu (h.setCore i { s.core i with synq := gs } rfl rfl))
        split <;> grind [Tried.state, waitFor]
    · exact (hset.writeScratch _ _ _).traced _ _ _ _ _ _ _
    · exact (hset.coreEvent _ _ _ _ _ _ _).traced _ _ _ _ _ _ _

theorem runSyn (h : s₀.Away own s) (i k) : s₀.Away own (s.runSyn i k) := by
  induction k generalizing s with
  | zero => exact h
  | succ k ih =>
    unfold State.runSyn
    have hk := h.synHead i
    split <;> grind [Tried.state]

theorem streamDone (h : s₀.Away own s) (i st) : s₀.Away own (s.streamDone i st) := by
  unfold State.streamDone
  grind [coreEvent]

theorem wake (h : s₀.Away own s) (i) : s₀.Away own (s.wake i) := by
  have hrun := h.runSyn i synDepth
  unfold State.wake
  generalize s.runSyn i synDepth = r at hrun
  have hopen := hrun.setCore i { r.core i with hold := .none } rfl rfl
  dsimp only
  split
  · exact ite hrun ((hopen.tracedHere _ _ _).advance _ _)
  · refine ite ?_ hrun
    have hcore := State.traced_core r i 0 1 (iTag (r.core i).cur.toNat) stOk (r.getF (Reg.coreRetired_count i) - 1) none i
    have htraced := (hrun.traced i 0 1 (iTag (r.core i).cur.toNat) stOk (r.getF (Reg.coreRetired_count i) - 1) none).setCore
      i { r.core i with hold := .none } (by rw [hcore]) (by rw [hcore])
    exact (htraced.setF _ _).streamDone _ _
  · exact hrun
  · exact ite ((hrun.setF _ _).streamDone _ _) hrun

theorem queuedLast (h : s₀.Away own s) (i eng st itag op) : s₀.Away own (s.queuedLast i eng st itag op) := by
  unfold State.queuedLast
  grind [setF]

theorem endJob (h : s₀.Away own s) (j st halt) : s₀.Away own (s.endJob j st halt) := by
  unfold State.endJob
  grind [queuedLast, wake, settle, traced, upd]

theorem kickWaiting (h : s₀.Away own s) : s₀.Away own s.kickWaiting :=
  h.of_flow ((State.Flow.refl h.outward).kickWaiting False.elim) (State.kickWaiting_cores s)

end State.Away

/-! ## The bundle is accepted -/

theorem State.acceptedPkt_data {s : State} {x : Sent} {y : Sender} {t : Nat} {k : Packet}
    (hby : s.sentBy (destVid k) k.tag = some x) (hof : s.senderOf x = some y) (hcls : x.pkt.cls = clsTok)
    (hop : x.pkt.op = 1) :
    s.acceptedPkt t k = (s.dropTok x).endRemote y (worse k.status (sentStatus y)) := by
  unfold State.acceptedPkt
  rw [hby]
  dsimp only
  rw [hof, hcls, if_neg (by decide)]
  dsimp only
  rw [hop, if_neg (by decide), if_pos rfl]

/-- The state where a sender is gone, before its job ends. -/
def State.senderGone (s : State) (y : Sender) : State :=
  { s with senders := s.senders.filter (fun z => !(z.site == y.site && z.engine == y.engine))
           sent := s.sent.filter (fun z => z.job != y.job || z.pkt.cls != clsTok) }

theorem State.Away.endSender {own : Nat} {s₀ s : State} {y : Sender} (h : s₀.Away own (s.senderGone y)) (st : Nat) :
    s₀.Away own (s.endSender y st) := by
  have hseq : s₀.Away own ((s.senderGone y).resolveSeq y.site y.engine y.seq) := h.setSeqCtr _ _ _
  unfold State.endSender
  dsimp only
  split
  · exact hseq
  · exact hseq.endJob _ st false

/-- ACCEPTED ends the only sender. -/
theorem State.accepted_ends {s : State} {tw : Tower} {p : Fin 32} {k : Packet} {x : Sent} {y : Sender} {q : Nat}
    (harrives : Claims.arrives s tw p k clsRsp 7 q) (hby : s.sentBy (destVid k) k.tag = some x)
    (hof : s.senderOf x = some y) (hcls : x.pkt.cls = clsTok) (hsenders : s.senders = [y]) (hop : x.pkt.op = 1)
    (hsq : (s.core y.site).sq = []) (hfmv : (s.core y.site).fmv = []) :
    (s.packetIn tw p k clsRsp 7 []).senders = [] := by
  obtain ⟨c, hc, hcalm, hin⟩ := State.packetIn_arrives harrives (by decide) rfl
  have hcore := State.fabricOf_core hc y.site
  have hcby : c.sentBy (destVid (Claims.aged s tw p k)) (Claims.aged s tw p k).tag = some x :=
    (State.sentBy_fabricOf hc _ _).trans hby
  have hserve : c.deliverPkt tw q (Claims.aged s tw p k) [] = (c.dropTok x).endRemote y (worse k.status (sentStatus y)) :=
    (State.deliverPkt_accepted _ _ _ (Claims.aged s tw p k) harrives.kind).trans
      (State.acceptedPkt_data hcby (by obtain ⟨_, _, _, rfl⟩ := hc; exact hof) hcls hop)
  have hgone : ((c.dropTok x).senderGone y).senders = [] := by
    obtain ⟨_, _, _, rfl⟩ := hc
    change s.senders.filter _ = []
    simp [hsenders]
  have hlanded : ((c.dropTok x).senderGone y).landed = [] := by
    obtain ⟨_, _, _, rfl⟩ := hc
    exact harrives.quiet.landed
  have hgcalm : ((c.dropTok x).senderGone y).calm := ⟨hcalm.ports, hcalm.links⟩
  have hstart : State.Away y.site ((c.dropTok x).senderGone y) ((c.dropTok x).senderGone y) :=
    ⟨hgcalm.outward hlanded False, rfl, rfl, rfl⟩
  have hends := (hstart.endSender (worse k.status (sentStatus y))).kickWaiting
  have hidle : (c.dropTok x).endRemote y (worse k.status (sentStatus y)) =
      ((c.dropTok x).endSender y (worse k.status (sentStatus y))).kickWaiting :=
    State.runEngines_idle (hends.sq.trans (hcore ▸ hsq)) (hends.fmv.trans (hcore ▸ hfmv))
  obtain ⟨hlands, -⟩ := (State.Flow.refl hends.outward).landAll 17
  rw [hin, hserve, hidle, hlands.senders, hends.senders, hgone]

end Sys2Proof.Machine
end

section
/-!
PROOF. Answers complete what awaits them (O39).
-/
namespace Sys2Proof.Machine

/-- Each answer to the one outstanding request of a site ends its part. -/
theorem oneOut_ends {s : State} {tw : Tower} {p : Fin 32} {k : Packet} {q : Nat} {x : Sent} {i : Site} {j : Job}
    (hby : s.sentBy (destVid k) k.tag = some x) (hone : Claims.oneOut s x i j) :
    (∀ a, Claims.arrives s tw p k clsRsp 0 q → x.pkt.op = 0 → x.dest = .scratch i a → s.scratchClean i 0 scratchSize →
      a + k.payload.length ≤ scratchSize → anyPoison k.payload = false →
      ∃ t, exec (.readData tw p k) s = .next t ∧ Claims.partEnded s t x j k.status ∧ t.scratchHolds i a k.payload ∧
        s.scratchKept t i a k.payload.length) ∧
    (∀ a, Claims.arrives s tw p k clsRsp 1 q → x.pkt.op = 1 → x.dest = .part a →
      ∃ t, exec (.writeAck tw p k) s = .next t ∧ Claims.partEnded s t x j k.status) ∧
    (∀ a, Claims.arrives s tw p k clsRsp 2 q → x.pkt.op = 2 → x.dest = .part a →
      ∃ t, exec (.atomicOld tw p k) s = .next t ∧ Claims.partEnded s t x j k.status) ∧
    (∀ a, Claims.arrives s tw p k clsRsp 5 q → k.status = stNoResource → x.pkt.op = 1 → x.dest = .part a →
      ∃ t, exec (.refuse tw p k) s = .next t ∧ Claims.partEnded s t x j k.status) := by
  refine ⟨fun a harrives hop hdest hscratch hfits hclean => ?_, fun a harrives hop hdest => ?_,
    fun a harrives hop hdest => ?_, fun a harrives hst hop hdest => ?_⟩
  · obtain ⟨t, ht, hends⟩ := State.readData_ends harrives hby hone hop hdest hscratch hfits hclean
    exact ⟨t, congrArg next ht, hends⟩
  · refine ⟨_, rfl, State.answer_ends_plain (data := k.payload) harrives rfl hone (fun c hc => ?_) (by omega) hdest⟩
    rw [State.deliverPkt_writeAck _ _ _ (Claims.aged s tw p k) harrives.kind]
    exact State.deliver_answerFor hby hone.site.2 (by rw [hop]; rfl) hc
  · refine ⟨_, rfl, State.answer_ends_plain (data := k.payload) harrives rfl hone (fun c hc => ?_) (by omega) hdest⟩
    rw [State.deliverPkt_atomicOld _ _ _ (Claims.aged s tw p k) harrives.kind]
    exact State.deliver_answerFor hby hone.site.2 (by rw [hop]; rfl) hc
  · rw [hst]
    refine ⟨_, rfl, State.answer_ends_plain (data := []) harrives rfl hone (fun c hc => ?_) (by omega) hdest⟩
    rw [State.deliverPkt_refuse _ _ _ (Claims.aged s tw p k) harrives.kind]
    exact State.refusedPkt_request ((State.sentBy_fabricOf hc _ _).trans hby) hst hone.site.2

/-- Settles O39: an answer that comes in where nothing else is on its way is served at its site at once (`packetIn_arrives`);
what its service sends goes outward and lands, if at all, as unreachable, which changes none of what is said here. -/
theorem answerPacketsComplete : Obligations.AnswerPacketsComplete := by
  intro s tw p k q x i j hby
  refine ⟨oneOut_ends hby, ?_, ?_, ?_⟩
  · intro w harrives hsent _ hsite hcls hop hdest _ harmed hnew hst hclean hsq hfmv hkvq hrun
    exact ⟨_, rfl, State.watchAck_sees harrives hby hsent hsite hcls hop hdest harmed hnew hst hclean hsq hfmv hkvq hrun⟩
  · intro harrives hst hsent
    obtain ⟨t, ht, hentry, hheld⟩ := State.refused_held harrives hby hst hsent
    exact ⟨t, congrArg next ht, hentry, hheld⟩
  · intro y hof hsent hcls hsenders
    refine ⟨fun harrives hop hst hwords => ?_, fun harrives hop hsq hfmv => ?_⟩
    · obtain ⟨t, ht, hadmitted⟩ := State.admitted_sends harrives hby hof hsent hcls hsenders hop hst hwords
      exact ⟨t, congrArg next ht, hadmitted⟩
    · exact ⟨_, rfl, State.accepted_ends harrives hby hof hcls hsenders hop hsq hfmv⟩

end Sys2Proof.Machine
end
